-- ==== Sys2Proof/Word.lean ====
section
/-! DEFINITION. The word types of the device and their plainest arithmetic. -/

namespace Sys2Proof

/-- One byte. -/
abbrev Byte := BitVec 8

/-- One register or payload word: registers are 32 bits wide (00_scope.md, Registers). -/
abbrev Word := BitVec 32

/-- A byte from a number, low 8 bits kept. -/
def byte (n : Nat) : Byte := BitVec.ofNat 8 n

/-- A word from a number, low 32 bits kept. -/
def word (n : Nat) : Word := BitVec.ofNat 32 n

end Sys2Proof
end

