-- ==== Sys2Proof/Config.lean ====
section
/-! DEFINITION. What the spec leaves open: each is a constant without a body, so that a statement holds whatever its
value is. Each is named by an entry of the assumption log. -/

namespace Sys2Proof

/-- A fresh open value: applied to the counter `free` of the state, which the step reads and advances. -/
opaque Config.freeValue : Nat → Nat

/-- The value of a program operation whose result the spec does not state: an integer result out of range, a division
by zero of integers, a shift by 32 or more, a conversion to an MX type, an element that a row does not have, and (of
operation 0) a register that nothing has written. -/
opaque Config.programOpen : (op a b c : Nat) → Nat

/-- The scale candidates of an element program whose output is an MX type: SCALE_C is a field of QUANTISE alone. -/
opaque Config.eprogScaleC : Nat

/-- What a set program does with one pair: the spec names KEY, VAL, KCMP, KHASH and NEXT without their effects. From the
instruction words, the constants, the key, the value's bits and the position in the run: the new value's bits, or none
where the pair is dropped. -/
opaque Config.setProgram : (code consts : List Nat) → (key val pos : Nat) → Option Nat

/-- The code lengths the device takes among the optimal ones of a symbol count (R244): from the counts. -/
opaque Config.optimalLengths : List Nat → List Nat

/-- What coding a window's counts costs where a context and class has no current blend: R244 gives C for a blend only. -/
opaque Config.noBlendCost : (cls : Nat) → (counts : List Nat) → Nat

/-- Falcon-1024 verification: public key, message, signature. -/
opaque Config.falconVerify : (key msg sig : List Byte) → Bool

/-- The public half of the identity key, generated inside the package at manufacture (R409). -/
opaque Config.identityKey : List Byte

/-- The identity key's signature over a message; the private key never leaves the package (R409). -/
opaque Config.identitySign : List Byte → List Byte

/-- The ML-KEM-1024 encapsulation key made from a random value. -/
opaque Config.kemKey : Nat → List Byte

/-- ML-KEM-1024 encapsulation to a key with a random value: ciphertext and shared secret. -/
opaque Config.kemEncaps : List Byte → Nat → List Byte × List Byte

/-- ML-KEM-1024 decapsulation by the key made from a random value. -/
opaque Config.kemDecaps : Nat → List Byte → List Byte

/-- The Eloapa manufacturing certificate chain that HELLO-REPLY carries before enrolment (R416). -/
opaque Config.mfgChain : List Byte

/-- What mem.info reports: the placement of channel addresses in rank, bank, row and column that the controller fixes (R269). -/
opaque Config.memInfo : List Byte

/-- The digest of the boot ROM (R417). -/
opaque Config.bootDigest : List Byte

/-- Eloapa's manufacturer code in IDCODE, which the boundary-scan description file gives (R577). -/
opaque Config.jtagManufacturer : Nat

/-- A reading of the telemetry port that no command reports (R576): of a refresh, numbered by the counter of free values, and a
command code: temperatures of hub, line die and photonic engine, voltages and currents of the rails. -/
opaque Config.telemetryReading : (refresh code : Nat) → Nat

/-- Eloapa's firmware signing key, whose digest the fuses hold, and its identifier (R571). -/
opaque Config.firmwareKey : List Byte × Nat

end Sys2Proof
end

