-- ==== Sys2Proof/Machine/Maps.lean ====
section
/-! DEFINITION. Sparse maps: association lists keyed by rising numbers, the plain data that holds registers, memory,
contexts and every other collection the device finds by a number. -/

namespace Sys2Proof.Machine

/-- A sparse map: keys strictly rising. -/
abbrev SMap (α : Type) := List (Nat × α)

/-- The entry under a key, if one is listed. -/
def mget {α : Type} : SMap α → Nat → Option α
  | [], _ => none
  | (k, v) :: m, n => if k = n then some v else mget m n

/-- The entry under a key, or a default. -/
def mgetD {α : Type} (m : SMap α) (n : Nat) (d : α) : α := (mget m n).getD d

/-- Is a key listed? -/
def mhas {α : Type} (m : SMap α) (n : Nat) : Bool := (mget m n).isSome

/-- Set the entry under a key, keeping keys strictly rising. -/
def mset {α : Type} : SMap α → Nat → α → SMap α
  | [], n, v => [(n, v)]
  | (k, w) :: m, n, v =>
    if n < k then (n, v) :: (k, w) :: m
    else if n = k then (n, v) :: m
    else (k, w) :: mset m n v

/-- Remove every entry under a key. -/
def mdel {α : Type} : SMap α → Nat → SMap α
  | [], _ => []
  | (k, w) :: m, n => if k = n then mdel m n else (k, w) :: mdel m n

/-- Change the entry under a key, where one is listed. -/
def mupd {α : Type} (m : SMap α) (n : Nat) (f : α → α) : SMap α :=
  match mget m n with
  | some v => mset m n (f v)
  | none => m

/-- Change the entry under a key, starting from a default where none is listed. -/
def mupdD {α : Type} (m : SMap α) (n : Nat) (d : α) (f : α → α) : SMap α := mset m n (f (mgetD m n d))

/-- Change every entry. -/
def mmap {α : Type} (m : SMap α) (f : Nat → α → α) : SMap α := m.map fun e => (e.1, f e.1 e.2)

/-- Keep the entries that pass. -/
def mfilter {α : Type} (m : SMap α) (p : Nat → α → Bool) : SMap α := m.filter fun e => p e.1 e.2

/-- Set an entry in the canonical form in which the default is not listed. -/
def mput {α : Type} [DecidableEq α] (d : α) (m : SMap α) (n : Nat) (v : α) : SMap α :=
  if v = d then mdel m n else mset m n v

/-- Keys strictly rising from a bound. -/
def mwfFrom {α : Type} : Nat → SMap α → Bool
  | _, [] => true
  | b, (k, _) :: m => decide (b ≤ k) && mwfFrom (k + 1) m

/-- A sparse map is well formed when its keys strictly rise. -/
def mwf {α : Type} (m : SMap α) : Bool := mwfFrom 0 m

/-- A well-formed map that lists no default. -/
def mcanon {α : Type} [DecidableEq α] (d : α) (m : SMap α) : Bool := mwf m && m.all fun e => decide (e.2 ≠ d)

/-- The lowest number below a bound that passes a test. -/
def firstFrom : Nat → Nat → (Nat → Bool) → Option Nat
  | 0, _, _ => none
  | fuel + 1, n, p => if p n then some n else firstFrom fuel (n + 1) p

/-- Insert a number into a rising list without repeats. -/
def insertRising (n : Nat) : List Nat → List Nat
  | [] => [n]
  | k :: l => if n < k then n :: k :: l else if n = k then k :: l else k :: insertRising n l

/-- The numbers of a list, rising, without repeats. -/
def sortRising (l : List Nat) : List Nat := l.foldl (fun a n => insertRising n a) []

/-- Insertion sort by a key, stable. -/
def insertByKey {α : Type} (key : α → Nat) (x : α) : List α → List α
  | [] => [x]
  | y :: l => if key x < key y then x :: y :: l else y :: insertByKey key x l

/-- A list sorted by rising key; equal keys keep their order. -/
def sortByKey {α : Type} (key : α → Nat) (l : List α) : List α := l.foldl (fun a x => insertByKey key x a) []

/-- Insertion sort by a strict comparison, stable. -/
def insertBy {α : Type} (lt : α → α → Bool) (x : α) : List α → List α
  | [] => [x]
  | y :: l => if lt x y then x :: y :: l else y :: insertBy lt x l

/-- A list sorted by a strict comparison. -/
def sortBy {α : Type} (lt : α → α → Bool) (l : List α) : List α := l.foldl (fun a x => insertBy lt x a) []

/-- The sum of a list of numbers. -/
def sumNat (l : List Nat) : Nat := l.foldl (· + ·) 0

/-- The ceiling of a quotient; 0 for a divisor of 0. -/
def ceilDiv (a b : Nat) : Nat := if b = 0 then 0 else (a + b - 1) / b

end Sys2Proof.Machine
end

