-- ==== Sys2Proof/Machine/Bytes.lean ====
section
/-! DEFINITION. Bit fields, sign extension and byte order: big-endian for wire formats, little-endian for structures in
device memory (R15, R16). -/

namespace Sys2Proof.Machine

open Sys2Proof

/-- Bits `lo` to `lo + w - 1` of a number. -/
def bitsOf (n lo w : Nat) : Nat := (n >>> lo) % 2 ^ w

/-- One bit of a number as a Bool. -/
def bitOf (n i : Nat) : Bool := (n >>> i) % 2 == 1

/-- A number with bits `lo` to `lo + w - 1` replaced. -/
def putBits (n lo w v : Nat) : Nat :=
  (n >>> (lo + w)) * 2 ^ (lo + w) + (v % 2 ^ w) * 2 ^ lo + n % 2 ^ lo

/-- A number below `2 ^ w` read as two's complement. -/
def signExt (w n : Nat) : Int := if n % 2 ^ w < 2 ^ (w - 1) then (n % 2 ^ w : Nat) else ((n % 2 ^ w : Nat) : Int) - (2 ^ w : Nat)

/-- Two's complement of an integer in `w` bits. -/
def twosComp (w : Nat) (i : Int) : Nat := (i % ((2 ^ w : Nat) : Int)).toNat

/-- 1 for true, 0 for false. -/
def b2n (b : Bool) : Nat := if b then 1 else 0

/-- Big-endian number of a byte string (R16). -/
def beNat (l : List Byte) : Nat := l.foldl (fun a b => a * 256 + b.toNat) 0

/-- Little-endian number of a byte string (R16). -/
def leNat : List Byte → Nat
  | [] => 0
  | b :: l => b.toNat + 256 * leNat l

/-- `k` little-endian bytes of a number. -/
def leBytes : Nat → Nat → List Byte
  | 0, _ => []
  | k + 1, n => byte n :: leBytes k (n / 256)

/-- `k` big-endian bytes of a number. -/
def beBytes (k n : Nat) : List Byte := (leBytes k n).reverse

/-- The big-endian number of `k` bytes at an offset. -/
def beAt (l : List Byte) (off k : Nat) : Nat := beNat ((l.drop off).take k)

/-- The little-endian number of `k` bytes at an offset. -/
def leAt (l : List Byte) (off k : Nat) : Nat := leNat ((l.drop off).take k)

/-- The byte at an offset, 0 past the end. -/
def byteAt (l : List Byte) (i : Nat) : Nat := (l.getD i 0).toNat

/-- `n` bytes at an offset. -/
def slice (l : List Byte) (off n : Nat) : List Byte := (l.drop off).take n

/-- A list cut into pieces of `n`, with fuel. -/
def chunksFuel {α : Type} : Nat → Nat → List α → List (List α)
  | 0, _, _ => []
  | _, _, [] => []
  | fuel + 1, n, l => l.take n :: chunksFuel fuel n (l.drop n)

/-- A list cut into pieces of `n` items, the last perhaps shorter. -/
def chunks {α : Type} (n : Nat) (l : List α) : List (List α) := if n = 0 then [] else chunksFuel l.length n l

/-- Bytes padded with zeros to a length. -/
def padTo (n : Nat) (l : List Byte) : List Byte := l ++ List.replicate (n - l.length) 0

/-- Bytes overwritten at an offset, the length kept. -/
def overwrite (l : List Byte) (off : Nat) (d : List Byte) : List Byte :=
  l.take off ++ (d ++ (l.drop (off + d.length)))

/-- Exclusive-or of two byte strings, as long as the shorter. -/
def xorBytes (a b : List Byte) : List Byte := List.zipWith (· ^^^ ·) a b

/-- The bytes of an ASCII string. -/
def ascii (s : String) : List Byte := s.toList.map fun c => byte c.toNat

/-- Lexicographic order of byte strings. -/
def bytesLt : List Byte → List Byte → Bool
  | [], [] => false
  | [], _ => true
  | _, [] => false
  | a :: l, b :: m => if a = b then bytesLt l m else decide (a.toNat < b.toNat)

/-- Serial-number difference: is `a` ahead of `b` by less than half the ring of `2 ^ w`? -/
def ahead (w a b : Nat) : Bool := let d := (a + 2 ^ w - b % 2 ^ w) % 2 ^ w; decide (0 < d ∧ d < 2 ^ (w - 1))

/-- The distance forward from `b` to `a` in a ring of `2 ^ w`. -/
def ringDist (w a b : Nat) : Nat := (a % 2 ^ w + 2 ^ w - b % 2 ^ w) % 2 ^ w

end Sys2Proof.Machine
end

