-- ==== Sys2Proof/Machine/Float.lean ====
section
/-! DEFINITION. The number formats of R86 to R88, the one rounding of R90, the fp32 operations of R110 and R124, and the
quantisation of R117 to R122. A finite magnitude is an exact count of units of 2^-160, the resolution of K in R96. -/

namespace Sys2Proof.Machine

open Sys2Proof

/-- A binary floating-point format of R86. -/
structure Fmt where
  ebits : Nat
  fbits : Nat
  bias : Nat
  /-- Has infinities at the top exponent. -/
  hasInf : Bool
  /-- Has a NaN encoding of its own. -/
  hasNan : Bool
  deriving DecidableEq, Repr

/-- fp32, code 0. -/
def fp32 : Fmt := ⟨8, 23, 127, true, true⟩
/-- bf16, code 1. -/
def bf16 : Fmt := ⟨8, 7, 127, true, true⟩
/-- fp16, code 2. -/
def fp16 : Fmt := ⟨5, 10, 15, true, true⟩
/-- fp8 E4M3, code 3 and the elements of MX fp8. -/
def e4m3 : Fmt := ⟨4, 3, 7, false, true⟩
/-- fp8 E5M2, code 4. -/
def e5m2 : Fmt := ⟨5, 2, 15, true, true⟩
/-- E2M1, the elements of MX fp4. -/
def e2m1 : Fmt := ⟨2, 1, 1, false, false⟩

/-- A value: a finite magnitude in units of 2^-160 with its sign, an infinity, or NaN. -/
inductive FVal where
  | fin (neg : Bool) (mag : Nat)
  | inf (neg : Bool)
  | nan
  deriving DecidableEq, Repr

/-- Total bits of a format. -/
def Fmt.width (f : Fmt) : Nat := 1 + f.ebits + f.fbits

/-- The exponent of the smallest normal value. -/
def Fmt.emin (f : Fmt) : Int := 1 - (f.bias : Int)

/-- The precision, hidden bit counted. -/
def Fmt.prec (f : Fmt) : Nat := f.fbits + 1

/-- The largest finite magnitude, in units of 2^-160 (R86). -/
def Fmt.maxMag (f : Fmt) : Nat :=
  let top := 2 ^ f.ebits - 1
  if f.hasInf then (2 ^ (f.fbits + 1) - 1) * 2 ^ (top - 1 - f.bias + 160 - f.fbits)
  else if f.hasNan then (2 ^ (f.fbits + 1) - 2) * 2 ^ (top - f.bias + 160 - f.fbits)
  else (2 ^ (f.fbits + 1) - 1) * 2 ^ (top - f.bias + 160 - f.fbits)

/-- The value of an encoding (R86, R87). -/
def Fmt.decode (f : Fmt) (bits : Nat) : FVal :=
  let neg := bitOf bits (f.ebits + f.fbits)
  let ex := bitsOf bits f.fbits f.ebits
  let fr := bitsOf bits 0 f.fbits
  let top := 2 ^ f.ebits - 1
  if f.hasInf ∧ ex = top then (if fr = 0 then .inf neg else .nan)
  else if ¬ f.hasInf ∧ f.hasNan ∧ ex = top ∧ fr = 2 ^ f.fbits - 1 then .nan
  else if ex = 0 then .fin neg (fr * 2 ^ (161 - f.bias - f.fbits))
  else .fin neg ((2 ^ f.fbits + fr) * 2 ^ (ex + 160 - f.bias - f.fbits))

/-- The canonical NaN of a format (R86): the one NaN code of E4M3, else the quiet NaN with no other fraction bit. -/
def Fmt.canonNan (f : Fmt) : Nat :=
  if f.hasInf then (2 ^ f.ebits - 1) * 2 ^ f.fbits + 2 ^ (f.fbits - 1) else 2 ^ (f.ebits + f.fbits) - 1

/-- The infinity of a sign, or the NaN encoding with that sign for a format without infinity (R90). -/
def Fmt.infBits (f : Fmt) (neg : Bool) : Nat :=
  b2n neg * 2 ^ (f.ebits + f.fbits) +
    (if f.hasInf then (2 ^ f.ebits - 1) * 2 ^ f.fbits else 2 ^ (f.ebits + f.fbits) - 1)

/-- The encoding of a finite value that the format represents. -/
def Fmt.encodeFin (f : Fmt) (neg : Bool) (mag : Nat) : Nat :=
  let s := b2n neg * 2 ^ (f.ebits + f.fbits)
  let minNormal := 2 ^ (161 - f.bias)
  if mag < minNormal then s + mag / 2 ^ (161 - f.bias - f.fbits)
  else
    let l := mag.log2
    s + (l + f.bias - 160) * 2 ^ f.fbits + (mag / 2 ^ (l - f.fbits) - 2 ^ f.fbits)

/-- The encoding of a value: canonical NaN, infinities by `infBits`. -/
def Fmt.encode (f : Fmt) : FVal → Nat
  | .nan => f.canonNan
  | .inf neg => f.infBits neg
  | .fin neg mag => f.encodeFin neg mag

/-- Round a quotient to the nearest integer, ties to even. -/
def divRne (n d : Nat) : Nat :=
  let q := n / d
  let r := n % d
  if 2 * r < d then q else if 2 * r > d then q + 1 else if q % 2 = 0 then q else q + 1

/-- `floor(log2 (n / d))` for positive `n` and `d`. -/
def floorLog2 (n d : Nat) : Int :=
  let l : Int := (n.log2 : Int) - d.log2
  let ge := if 0 ≤ l then decide (d * 2 ^ l.toNat ≤ n) else decide (d ≤ n * 2 ^ (-l).toNat)
  if ge then l else l - 1

/-- The exponent of the unit in the last place of the value `n / d` in a format. -/
def Fmt.ulpExp (f : Fmt) (n d : Nat) : Int := max (floorLog2 n d) f.emin - f.prec + 1

/-- The magnitude `n / d` rounded to nearest even at the format's precision and subnormal range, the range not yet
checked, in units of 2^-160 (`round_rne` of R90). -/
def Fmt.roundMag (f : Fmt) (n d : Nat) : Nat :=
  if n = 0 then 0
  else
    let q := f.ulpExp n d
    let k := if 0 ≤ q then divRne n (d * 2 ^ q.toNat) else divRne (n * 2 ^ (-q).toNat) d
    k * 2 ^ (q + 160).toNat

/-- One rounding to nearest even; beyond the largest finite magnitude an infinity (R90 rule 5, IEEE 754). -/
def Fmt.round (f : Fmt) (neg : Bool) (n d : Nat) : FVal :=
  let m := f.roundMag n d
  if m > f.maxMag then .inf neg else .fin neg m

/-- The denominator of a value held in units of 2^-160. -/
def unit160 : Nat := 2 ^ 160

/-- A value rounded to another format. -/
def Fmt.convert (f : Fmt) : FVal → FVal
  | .fin neg m => f.round neg m unit160
  | v => v

/-- The signed magnitude of a finite value. -/
def sgn (neg : Bool) (m : Nat) : Int := if neg then - (m : Int) else m

/-! ### fp32 arithmetic, each operation rounded once (R110, R124, R158)

The rounding is an argument: to nearest even for the built-in operations, by the RND field in a program. -/

/-- A rounding of the positive quotient `n / d` with its sign. -/
abbrev Rnd := Bool → Nat → Nat → FVal

/-- Sum. -/
def fAddR (rd : Rnd) : FVal → FVal → FVal
  | .nan, _ => .nan
  | _, .nan => .nan
  | .inf a, .inf b => if a = b then .inf a else .nan
  | .inf a, _ => .inf a
  | _, .inf b => .inf b
  | .fin a m, .fin b n =>
    let s := sgn a m + sgn b n
    if s = 0 then .fin (a && b) 0 else rd (decide (s < 0)) s.natAbs unit160

/-- Negation. -/
def fNeg : FVal → FVal
  | .nan => .nan
  | .inf a => .inf (!a)
  | .fin a m => .fin (!a) m

/-- Product. -/
def fMulR (rd : Rnd) : FVal → FVal → FVal
  | .nan, _ => .nan
  | _, .nan => .nan
  | .inf a, .inf b => .inf (a != b)
  | .inf a, .fin b n => if n = 0 then .nan else .inf (a != b)
  | .fin a m, .inf b => if m = 0 then .nan else .inf (a != b)
  | .fin a m, .fin b n => if m * n = 0 then .fin (a != b) 0 else rd (a != b) (m * n) (unit160 * unit160)

/-- `a × b + c`, rounded once. -/
def fFmaR (rd : Rnd) : FVal → FVal → FVal → FVal
  | .fin a m, .fin b n, .fin c k =>
    let p := sgn (a != b) (m * n)
    let s := p + sgn c (k * unit160)
    if s = 0 then .fin ((a != b) && c) 0 else rd (decide (s < 0)) s.natAbs (unit160 * unit160)
  | .fin _ _, .fin _ _, z => z
  | x, y, z => fAddR rd (fMulR rd x y) z

/-- Quotient. -/
def fDivR (rd : Rnd) : FVal → FVal → FVal
  | .nan, _ => .nan
  | _, .nan => .nan
  | .inf _, .inf _ => .nan
  | .inf a, .fin b _ => .inf (a != b)
  | .fin a _, .inf b => .fin (a != b) 0
  | .fin a m, .fin b n =>
    if n = 0 then (if m = 0 then .nan else .inf (a != b))
    else if m = 0 then .fin (a != b) 0
    else rd (a != b) m n

/-- Integer square root, bit by bit. -/
def isqrtBits : Nat → Nat → Nat → Nat
  | 0, _, r => r
  | k + 1, n, r => if (r + 2 ^ k) * (r + 2 ^ k) ≤ n then isqrtBits k n (r + 2 ^ k) else isqrtBits k n r

/-- Integer square root. -/
def isqrt (n : Nat) : Nat := isqrtBits (n.log2 / 2 + 1) n 0

/-- Square root: the root at 224 fraction bits with a sticky bit below, then rounded. -/
def fSqrtR (rd : Rnd) : FVal → FVal
  | .nan => .nan
  | .inf false => .inf false
  | .inf true => .nan
  | .fin a m =>
    if m = 0 then .fin a 0
    else if a then .nan
    else
      let t := m * 2 ^ 288
      let s := isqrt t
      rd false (if s * s = t then 2 * s else 2 * s + 1) (2 ^ 225)

/-- fp32 rounding to nearest even. -/
def rne32 : Rnd := fp32.round

/-- fp32 sum. -/
def fAdd : FVal → FVal → FVal := fAddR rne32
/-- fp32 difference. -/
def fSub (x y : FVal) : FVal := fAdd x (fNeg y)
/-- fp32 product. -/
def fMul : FVal → FVal → FVal := fMulR rne32
/-- fp32 `a × b + c`. -/
def fFma : FVal → FVal → FVal → FVal := fFmaR rne32
/-- fp32 quotient. -/
def fDiv : FVal → FVal → FVal := fDivR rne32
/-- fp32 square root. -/
def fSqrt : FVal → FVal := fSqrtR rne32

/-- The strict order of two values that are not NaN, -0 below +0 (R114). -/
def fLt : FVal → FVal → Bool
  | .inf true, .inf true => false
  | .inf true, _ => true
  | _, .inf true => false
  | .inf false, _ => false
  | _, .inf false => true
  | .fin a m, .fin b n => if m = 0 ∧ n = 0 then (a && !b) else decide (sgn a m < sgn b n)
  | _, _ => false

/-- Is this -0? -/
def isNegZero : FVal → Bool
  | .fin true 0 => true
  | _ => false

/-- Is this finite? -/
def isFin : FVal → Bool
  | .fin _ _ => true
  | _ => false

/-- fp32 value of an encoding. -/
def ofF32 (b : Nat) : FVal := fp32.decode b

/-- fp32 encoding of a value. -/
def toF32 (v : FVal) : Nat := fp32.encode v

/-! ### Quantisation (R117 to R122) -/

/-- A finite value rounded to nearest even and saturated (R117): the value and whether it saturated. -/
def quantRne (f : Fmt) (neg : Bool) (n d : Nat) : FVal × Bool :=
  let m := f.roundMag n d
  if m > f.maxMag then (.fin neg f.maxMag, true) else (.fin neg m, false)

/-- A finite value rounded stochastically by a 32-bit random word (R118). -/
def quantStoch (f : Fmt) (neg : Bool) (n d : Nat) (u : Nat) : FVal × Bool :=
  if n = 0 then (.fin neg 0, false)
  else
    let q := f.ulpExp n d
    let num := if 0 ≤ q then n else n * 2 ^ (-q).toNat
    let den := if 0 ≤ q then d * 2 ^ q.toNat else d
    let a := num / den
    let dd := (num % den) * 2 ^ 32 / den
    let k := if u < dd then a + 1 else a
    let m := k * 2 ^ (q + 160).toNat
    if m > f.maxMag then (.fin neg f.maxMag, true) else (.fin neg m, false)

/-- One element quantised to a scalar type (R117, R118): encoding, value, saturated. -/
def quantScalar (f : Fmt) (stoch : Option Nat) : FVal → Nat × FVal × Bool
  | .nan => (f.canonNan, .nan, false)
  | .inf neg => if f.hasInf then (f.infBits neg, .inf neg, false) else (f.canonNan, .nan, false)
  | .fin neg m =>
    let r := match stoch with
      | none => quantRne f neg m unit160
      | some u => quantStoch f neg m unit160 u
    (f.encode r.1, r.1, r.2)

/-- The mixing function of R119, modulo 2^64. -/
def mix64 (z0 : Nat) : Nat :=
  let z := ((z0 ^^^ (z0 >>> 31)) * 0xB15E7A93D2C4086F) % 2 ^ 64
  let w := ((z ^^^ (z >>> 29)) * 0x8E3B5D17C29A64F1) % 2 ^ 64
  w ^^^ (w >>> 32)

/-- The random word of an element (R119). -/
def randomWord (seed groupId opInst w1 : Nat) : Nat :=
  let w0 := ((groupId <<< 48) ||| (opInst <<< 16)) % 2 ^ 64
  mix64 ((mix64 ((seed ^^^ w0) % 2 ^ 64) + w1) % 2 ^ 64) >>> 32

/-- The scale candidates of an MX block, each clamped, duplicates skipped (R122). -/
def mxCandidates (x0 : Int) (c : Nat) : List Int :=
  ((List.range c).map fun (i : Nat) => (max (-127) (min 127 (x0 + 1 - (i : Int))) : Int)).eraseDups

/-- A finite value divided by the block scale `2 ^ s`, as numerator and denominator. -/
def mxScaled (m : Nat) (s : Int) : Nat × Nat :=
  if 0 ≤ s then (m, unit160 * 2 ^ s.toNat) else (m * 2 ^ (-s).toNat, unit160)

/-- The value of an element times the block scale. -/
def mxValue (v : FVal) (s : Int) : FVal :=
  match v with
  | .fin neg m => .fin neg (if 0 ≤ s then m * 2 ^ s.toNat else m / 2 ^ (-s).toNat)
  | w => w

/-- One element of an MX block quantised under a scale. -/
def mxElem (f : Fmt) (s : Int) (stoch : Option Nat) : FVal → FVal × Bool
  | .fin neg m =>
    let r := mxScaled m s
    match stoch with
    | none => quantRne f neg r.1 r.2
    | some u => quantStoch f neg r.1 r.2 u
  | v => (v, false)

/-- The squared error of a block under a candidate scale, folded in fp32 in element order (R122 step 3). -/
def mxError (f : Fmt) (s : Int) (vs : List FVal) : FVal :=
  vs.foldl (fun acc v =>
    let d := fSub v (mxValue (mxElem f s none v).1 s)
    fFma d d acc) (.fin false 0)

/-- The candidate of smallest error; a tie goes to the larger scale (R122 step 4). Candidates come largest first. -/
def mxBest (f : Fmt) (vs : List FVal) : List Int → Option (Int × FVal) → Int
  | [], b => match b with
    | some (s, _) => s
    | none => -127
  | s :: l, b =>
    let e := mxError f s vs
    match b with
    | none => mxBest f vs l (some (s, e))
    | some (s0, e0) => mxBest f vs l (some (if fLt e e0 then (s, e) else (s0, e0)))

/-- The greatest magnitude among the finite values of a list. -/
def maxFinMag (vs : List FVal) : Nat :=
  vs.foldl (fun a v => match v with
    | .fin _ m => max a m
    | _ => a) 0

/-- A quantised MX block: scale byte, element codes, element values (scaled), saturation count (R122, R117). -/
def quantMx (f : Fmt) (c : Nat) (us : List (Option Nat)) (vs : List FVal) : Nat × List Nat × List FVal × Nat :=
  let mx := maxFinMag vs
  let emax : Int := if f.hasNan then 8 else 2
  let s : Int := if mx = 0 then -127 else mxBest f vs (mxCandidates (floorLog2 mx unit160 - emax) c) none
  let q := List.zipWith (fun v u => mxElem f s u v) vs us
  let bad := vs.any fun v => !isFin v
  let codes := q.map fun r => match r.1 with
    | .fin n m => f.encodeFin n m
    | _ => 0
  let vals := q.map fun r => if bad then FVal.nan else mxValue r.1 s
  ((if bad then 255 else (s + 127).toNat), codes, vals, (q.filter (·.2)).length)

end Sys2Proof.Machine
end

