-- ==== Sys2Proof/Machine/Must.lean ====
section
/-! DEFINITION. Must form, the exact carried form of a partial sum (R93 to R109): creation, combination, normalisation,
the full-width form, rounding, and the bytes of a must row on the line and in memory. -/

namespace Sys2Proof.Machine

open Sys2Proof

/-- An escape record of TYPE 0 or 1: its exact value in units of 2^-512, and whether it is a level-2 record (R94). -/
structure Esc where
  l2 : Bool
  val : Int
  deriving DecidableEq, Repr

/-- A must row (R93). `full` marks the full-width form of R103, in which the row is held as 320-bit values. -/
structure Must where
  /-- Bit i: every contribution to element i so far is -0. -/
  negz : Nat
  /-- BEXP, the weight of the least significant bit of every field; -512 marks the row empty. -/
  e : Int
  w40 : Bool
  int : Bool
  /-- The 32 element fields. -/
  m : List Int
  /-- The escape record of each element. -/
  esc : List (Option Esc)
  /-- The special state of each element: 0 finite, 1 +∞, 2 -∞, 3 NaN. -/
  st : List Nat
  full : Bool
  deriving DecidableEq, Repr

/-- What a creation or a combination did, for the statistics of R107. -/
structure MustStat where
  records : Nat
  l2 : Nat
  deriving DecidableEq, Repr

/-- The finest exponent in which escape values are held here. -/
def escBase : Nat := 512

/-- `2 ^ e` in units of 2^-512. -/
def pow512 (e : Int) : Int := ((2 ^ (e + 512).toNat : Nat) : Int)

/-- Trailing zero bits of a number, with fuel. -/
def trailZeros : Nat → Nat → Nat
  | 0, _ => 0
  | k + 1, n => if n % 2 = 0 then trailZeros k (n / 2) + 1 else 0

/-- The odd significand of a value (R101 step 2), and the exponent of its last bit above 2^-512. -/
def oddPart (v : Int) : Nat × Nat :=
  let n := v.natAbs
  let z := if n = 0 then 0 else trailZeros (n.log2 + 1) n
  (n / 2 ^ z, z)

/-- Merge a value into an element's escape record (R100). -/
def mergeEsc (r : Option Esc) (l2 : Bool) (v : Int) : Option Esc :=
  let s := v + (match r with
    | some x => x.val
    | none => 0)
  let was := l2 || (match r with
    | some x => x.l2
    | none => false)
  if s = 0 then none
  else if was then some ⟨true, s⟩
  else some ⟨decide (2 ^ 64 ≤ (oddPart s).1), s⟩

/-- The value of a record, 0 for none. -/
def escVal : Option Esc → Int
  | some x => x.val
  | none => 0

/-- Is a record of level 2? -/
def escL2 : Option Esc → Bool
  | some x => x.l2
  | none => false

/-- Does a field value lie in the row's field range? -/
def inField (w40 : Bool) (m : Int) : Bool :=
  let h : Int := if w40 then 2 ^ 39 else 2 ^ 23
  decide (-h ≤ m ∧ m < h)

/-- The exact value of element `i` in units of 2^-512 (R96). -/
def Must.value (r : Must) (i : Nat) : Int := r.m.getD i 0 * pow512 r.e + escVal (r.esc.getD i none)

/-- Fold an element's record back where it fits (R101 step 1). -/
def foldBack (w40 : Bool) (e : Int) (m : Int) (x : Option Esc) : Int × Option Esc :=
  match x with
  | none => (m, none)
  | some r =>
    if r.val % pow512 e = 0 ∧ inField w40 (m + r.val / pow512 e) then (m + r.val / pow512 e, none) else (m, some r)

/-- Normalise a row (R101). -/
def Must.normalise (r : Must) : Must :=
  let z := List.zipWith (foldBack r.w40 r.e) r.m r.esc
  { r with m := z.map (·.1), esc := z.map (·.2) }

/-- Is the row empty (R97 step 4)? -/
def Must.isEmpty (r : Must) : Bool := decide (r.e = -512)

/-- An empty row. -/
def Must.empty (w40 int : Bool) : Must :=
  { negz := 2 ^ 32 - 1, e := -512, w40 := w40, int := int, m := List.replicate 32 0, esc := List.replicate 32 none,
    st := List.replicate 32 0, full := false }

/-- Units of the escape list: one for special states, one per level-1 and four per level-2 record (R93, R94). -/
def Must.escUnits (r : Must) : Nat :=
  (if r.st.any (· ≠ 0) then 1 else 0) + sumNat (r.esc.map fun x => match x with
    | none => 0
    | some y => if y.l2 then 4 else 1)

/-- Records of TYPE 0 or 1 in a row. -/
def Must.recordCount (r : Must) : Nat := (r.esc.filter (·.isSome)).length

/-- The special state of a contribution. -/
def stOf : FVal → Nat
  | .fin _ _ => 0
  | .inf false => 1
  | .inf true => 2
  | .nan => 3

/-- Special states combine (R99 step 6). -/
def combineSt (a b : Nat) : Nat :=
  if a = 3 ∨ b = 3 then 3 else if (a = 1 ∧ b = 2) ∨ (a = 2 ∧ b = 1) then 3 else if a ≠ 0 then a else b

/-- `ceil(log2 n)`. -/
def ceilLog2 (n : Nat) : Nat := if n ≤ 1 then 0 else (n - 1).log2 + 1

/-- The signed exact value of a finite contribution in units of 2^-512. -/
def val512 : FVal → Int
  | .fin a m => sgn a (m * 2 ^ 352)
  | _ => 0

/-- A new must row from contributions, one list of values per contribution, each padded to the row's 32 elements
(R97, R98, R101). A contribution's bits below the field go to the record as a residue from below. -/
def Must.create (w40 int : Bool) (cs : List (List FVal)) : Must :=
  let mags := cs.map maxFinMag
  let mx := mags.foldl max 0
  let col := fun i => cs.map fun c => c.getD i (.fin false 0)
  let st := (List.range 32).map fun i => (col i).foldl (fun a v => combineSt a (stOf v)) 0
  let negz := sumNat ((List.range 32).map fun i => if (col i).all isNegZero then 2 ^ i else 0)
  if mx = 0 then { Must.empty w40 int with negz := negz, st := st }
  else
    let t := floorLog2 mx unit160
    let e0 : Int := t - (if w40 then 38 else 22) + ceilLog2 cs.length
    let e := if int then max e0 0 else e0
    let p := pow512 e
    let fin := fun i => if st.getD i 0 = 0 then col i else []
    let m := (List.range 32).map fun i => ((fin i).map fun v => val512 v / p).foldl (· + ·) (0 : Int)
    let esc := (List.range 32).map fun i =>
      (fin i).foldl (fun x v => mergeEsc x false (val512 v % p)) none
    Must.normalise { negz := negz, e := e, w40 := w40, int := int, m := m, esc := esc, st := st, full := false }

/-- Shift one row's fields to a greater exponent, the remainders to its records (R99 step 2). -/
def Must.alignTo (r : Must) (e : Int) : Must :=
  let d := (e - r.e).toNat
  let q : Int := ((2 ^ d : Nat) : Int)
  { r with
    e := e
    m := r.m.map fun x => x / q
    esc := List.zipWith (fun x y => mergeEsc y false ((x % q) * pow512 r.e)) r.m r.esc }

/-- Combine two must rows (R99). -/
def Must.combine (a b : Must) : Must :=
  let fin :=
    if a.isEmpty then b
    else if b.isEmpty then a
    else
      let e := max a.e b.e
      let x := a.alignTo e
      let y := b.alignTo e
      let s := List.zipWith (· + ·) x.m y.m
      let esc := List.zipWith (fun p q => mergeEsc p (escL2 q) (escVal q)) x.esc y.esc
      if s.all (inField a.w40) then { a with e := e, m := s, esc := esc }
      else
        { a with
          e := e + 1
          m := s.map fun v => v / 2
          esc := List.zipWith (fun v r => if v % 2 = 1 then mergeEsc r false (pow512 e) else r) s esc }
  let st := List.zipWith combineSt a.st b.st
  Must.normalise
    { fin with
      m := List.zipWith (fun v s => if s = 0 then v else 0) fin.m st
      esc := List.zipWith (fun r (s : Nat) => if s = 0 then r else none) fin.esc st
      st := st
      negz := a.negz &&& b.negz
      full := a.full || b.full }

/-- Does the row's escape list exceed the budget of 16 units (R102, R103)? -/
def Must.overBudget (r : Must) : Bool := decide (16 < r.escUnits)

/-- A full-width row encoded again as a must row for the line or a Silo (R105): one field per element at one exponent,
what is left in records. -/
def Must.reencode (r : Must) : Must :=
  if ¬ r.full then r
  else
    let vals := (List.range 32).map r.value
    let mx := (vals.map (·.natAbs)).foldl max 0
    if mx = 0 then { Must.empty r.w40 r.int with negz := r.negz, st := r.st }
    else
      let e0 : Int := (mx.log2 : Int) - 512 - (if r.w40 then 38 else 22)
      let e := if r.int then max e0 0 else e0
      let p := pow512 e
      Must.normalise
        { r with e := e, m := vals.map fun v => v / p, esc := vals.map fun v => mergeEsc none false (v % p), full := false }

/-- Round one element to an output format by R109, R90: encoding, overflowed, is NaN. -/
def Must.roundElem (r : Must) (f : Fmt) (i : Nat) : Nat × Bool × Bool :=
  match r.st.getD i 0 with
  | 0 =>
    let v := r.value i
    if v = 0 then (f.encodeFin (bitOf r.negz i) 0, false, false)
    else
      let neg := decide (v < 0)
      let m := f.roundMag v.natAbs (2 ^ 512)
      if m > f.maxMag then (f.infBits neg, true, !f.hasInf) else (f.encodeFin neg m, false, false)
  | 1 => (f.infBits false, false, !f.hasInf)
  | 2 => (f.infBits true, false, !f.hasInf)
  | _ => (f.canonNan, false, true)

/-- The value of one element rounded once to fp32 (R117, R123). -/
def Must.toFp32 (r : Must) (i : Nat) : FVal :=
  match r.st.getD i 0 with
  | 0 =>
    let v := r.value i
    if v = 0 then .fin (bitOf r.negz i) 0 else fp32.round (decide (v < 0)) v.natAbs (2 ^ 512)
  | 1 => .inf false
  | 2 => .inf true
  | _ => .nan

/-- Round one element of an average over `n` contributions (R115). -/
def Must.avgElem (r : Must) (f : Fmt) (n i : Nat) : Nat × Bool × Bool :=
  if r.st.getD i 0 ≠ 0 ∨ r.value i = 0 ∨ n = 0 then r.roundElem f i
  else
    let v := r.value i
    let neg := decide (v < 0)
    let m := f.roundMag v.natAbs (n * 2 ^ 512)
    if m > f.maxMag then (f.infBits neg, true, !f.hasInf) else (f.encodeFin neg m, false, false)

/-- Saturate an integer to `w` bits, two's complement: the encoding and whether it saturated (R116). -/
def satInt (w : Nat) (v : Int) : Nat × Bool :=
  let h : Int := ((2 ^ (w - 1) : Nat) : Int)
  if v < -h then (twosComp w (-h), true) else if v ≥ h then (twosComp w (h - 1), true) else (twosComp w v, false)

/-- The integer value of an element of an integer sum. -/
def Must.intValue (r : Must) (i : Nat) : Int := r.value i / pow512 0

/-- An integer divided by a positive count, to nearest, ties to even (R115). -/
def divRneInt (v : Int) (n : Nat) : Int := sgn (decide (v < 0)) (divRne v.natAbs n)

/-! ### The bytes of a must row (R93 to R95, R16) -/

/-- `k` bytes of a number in the order of the place: big-endian on the line, little-endian in memory. -/
def ordBytes (line : Bool) (k n : Nat) : List Byte := if line then beBytes k n else leBytes k n

/-- A number of `k` bytes in the order of the place. -/
def ordNat (line : Bool) (l : List Byte) : Nat := if line then beNat l else leNat l

/-- The bytes of one escape record. -/
def escBytes (line : Bool) (i : Nat) (x : Esc) : List Byte :=
  if x.l2 then
    ordBytes line 8 (1 + i * 4) ++ ordBytes line 40 (twosComp 320 (x.val / pow512 (-160))) ++ List.replicate 16 0
  else
    let o := oddPart x.val
    let ex : Int := (o.2 : Int) - 512
    ordBytes line 8 (i * 4 + (if x.val < 0 then 128 else 0) + twosComp 12 ex * 256) ++ ordBytes line 8 o.1

/-- The bytes of a must row (R93). -/
def Must.toBytes (line : Bool) (r0 : Must) : List Byte :=
  let r := r0.reencode
  let w := if r.w40 then 5 else 3
  let head := twosComp 10 r.e + b2n r.w40 * 2 ^ 10 + b2n r.int * 2 ^ 11 + r.escUnits * 2 ^ 12
  let special :=
    if r.st.any (· ≠ 0) then
      ordBytes line 8 2 ++ ordBytes line 8 (sumNat ((List.range 32).map fun i => r.st.getD i 0 * 4 ^ i))
    else []
  ordBytes line 4 r.negz ++ ordBytes line 4 head ++
    (r.m.map fun v => ordBytes line w (twosComp (8 * w) v)).flatten ++ special ++
    ((List.range 32).map fun i => match r.esc.getD i none with
      | some x => escBytes line i x
      | none => []).flatten

/-- Parse the escape units of a row: special states and records, refusing what R94, R95 and R108 refuse. `last` is one
more than the last INDEX seen; `first` holds until a record has been read. -/
def parseEsc (line : Bool) : Nat → Bool → Nat → List Byte → Option (List Nat × List (Nat × Esc))
  | 0, _, _, l => if l.isEmpty then some (List.replicate 32 0, []) else none
  | fuel + 1, first, last, l =>
    if l.isEmpty then some (List.replicate 32 0, [])
    else
      let h := ordNat line (l.take 8)
      let ty := bitsOf h 0 2
      let idx := bitsOf h 2 5
      if bitsOf h 20 44 ≠ 0 then none
      else if ty = 2 then
        if ¬ first ∨ idx ≠ 0 ∨ bitsOf h 7 13 ≠ 0 then none
        else
          match parseEsc line fuel false last (l.drop 16) with
          | none => none
          | some (_, rs) =>
            let v := ordNat line (slice l 8 8)
            some ((List.range 32).map fun i => bitsOf v (2 * i) 2, rs)
      else if idx < last then none
      else if ty = 0 then
        let g := ordNat line (slice l 8 8)
        let x := signExt 12 (bitsOf h 8 12)
        if g % 2 = 0 ∨ x < -149 then none
        else
          match parseEsc line fuel false (idx + 1) (l.drop 16) with
          | none => none
          | some (s, rs) => some (s, (idx, ⟨false, sgn (bitOf h 7) g * pow512 x⟩) :: rs)
      else if ty = 1 then
        let k := signExt 320 (ordNat line (slice l 8 40))
        if bitsOf h 7 13 ≠ 0 ∨ k = 0 ∨ k % 2048 ≠ 0 ∨ ordNat line (slice l 48 16) ≠ 0 then none
        else
          match parseEsc line fuel false (idx + 1) (l.drop 64) with
          | none => none
          | some (s, rs) => some (s, (idx, ⟨true, k * pow512 (-160)⟩) :: rs)
      else none

/-- One must row from the front of a byte string, checked by R108, with what follows it. -/
def Must.parse (line : Bool) (w40 int : Bool) (l : List Byte) : Option (Must × List Byte) :=
  let w := if w40 then 5 else 3
  let head := ordNat line (slice l 4 4)
  let units := bitsOf head 12 8
  let escOff := 8 + 32 * w
  let len := escOff + 16 * units
  if l.length < len ∨ bitOf head 10 ≠ w40 ∨ bitOf head 11 ≠ int ∨ bitsOf head 20 12 ≠ 0 ∨ units > 129 then none
  else
    let e := signExt 10 (bitsOf head 0 10)
    let m := (List.range 32).map fun i => signExt (8 * w) (ordNat line (slice l (8 + w * i) w))
    match parseEsc line units true 0 (slice l escOff (16 * units)) with
    | none => none
    | some (st, rs) =>
      if e = -512 ∧ (m.any (· ≠ 0) ∨ rs ≠ []) then none
      else
        some ({ negz := ordNat line (l.take 4), e := e, w40 := w40, int := int, m := m,
                esc := (List.range 32).map fun i => mget rs i, st := st, full := false }, l.drop len)

/-- Several must rows, the whole of a byte string. -/
def Must.parseRows (line w40 int : Bool) : Nat → List Byte → Option (List Must)
  | 0, l => if l.isEmpty then some [] else none
  | n + 1, l =>
    match Must.parse line w40 int l with
    | none => none
    | some (r, rest) => (Must.parseRows line w40 int n rest).map (r :: ·)

end Sys2Proof.Machine
end

