-- ==== Sys2Proof/Machine/Contract.lean ====
section
/-! DEFINITION. The Press contract: operations, the mode word, parameter sets, index lists, chunk layouts (R131 to R150),
and programs: image, load checks, cost, interpretation (R154 to R166). -/

namespace Sys2Proof.Machine

open Sys2Proof

/-! ### Types and layouts -/

/-- The floating-point format of the elements of a type code (R86). -/
def fmtOf : Nat → Option Fmt
  | 0 => some fp32
  | 1 => some bf16
  | 2 => some fp16
  | 3 => some e4m3
  | 4 => some e5m2
  | 7 => some e4m3
  | 8 => some e2m1
  | _ => none

/-- Is the type code an integer type? -/
def isIntType (t : Nat) : Bool := t == 5 || t == 6

/-- Is the type code an MX type? -/
def isMxType (t : Nat) : Bool := t == 7 || t == 8

/-- Bytes of one element of a scalar type or key. -/
def elemBytes : Nat → Nat
  | 0 => 4
  | 1 => 2
  | 2 => 2
  | 5 => 4
  | 9 => 4
  | _ => 1

/-- Bytes of a row that holds `m` elements (R88, R133). -/
def rowBytes (t m : Nat) : Nat :=
  if t = 7 then 1 + m else if t = 8 then 1 + (m + 1) / 2 else m * elemBytes t

/-- Bytes of `n` elements laid out in rows. -/
def elemsBytes (t n : Nat) : Nat :=
  (n / 32) * rowBytes t 32 + (if n % 32 = 0 then 0 else rowBytes t (n % 32))

/-- The largest chunk of an input type (R133). -/
def largestChunk : Nat → Nat
  | 0 => 2048
  | 5 => 2048
  | 1 => 4096
  | 2 => 4096
  | 3 => 8192
  | 4 => 8192
  | 6 => 8192
  | 7 => 7936
  | 8 => 15392
  | 9 => 2048
  | _ => 0

/-- An integer as an exact value. -/
def intVal (v : Int) : FVal := .fin (decide (v < 0)) (v.natAbs * unit160)

/-- The integer of an exact value. -/
def valInt : FVal → Int
  | .fin a m => sgn a (m / unit160)
  | _ => 0

/-- The value of one scalar element's bits. -/
def scalarVal (t bits : Nat) : FVal :=
  match t with
  | 5 => intVal (signExt 32 bits)
  | 6 => intVal (signExt 8 bits)
  | 9 => intVal (bits : Nat)
  | _ => match fmtOf t with
    | some f => f.decode bits
    | none => .nan

/-- The bits of one scalar element of `k` bytes, big-endian, from a row. -/
def scalarBits (k : Nat) (l : List Byte) : List Nat := (chunks k l).map beNat

/-- The element codes and scale of one MX row of `m` elements. -/
def mxCodes (t m : Nat) (l : List Byte) : List Nat :=
  if t = 7 then (slice l 1 m).map (·.toNat)
  else (List.range m).map fun i => bitsOf (byteAt l (1 + i / 2)) (4 * (i % 2)) 4

/-- The values of one row of `m` elements (R88). -/
def rowVals (t m : Nat) (l : List Byte) : List FVal :=
  if isMxType t then
    let sc := byteAt l 0
    let f := if t = 7 then e4m3 else e2m1
    (mxCodes t m l).map fun c => if sc = 255 then .nan else mxValue (f.decode c) ((sc : Int) - 127)
  else (scalarBits (elemBytes t) l).map (scalarVal t)

/-- The whole rows of a payload, 32 elements each. -/
def cutRows (t : Nat) : Nat → List Byte → List (Nat × List Byte)
  | 0, _ => []
  | n + 1, l =>
    (32, l.take (rowBytes t 32)) :: cutRows t n (l.drop (rowBytes t 32))

/-- The rows of the payload of `n` elements. -/
def payloadRows (t n : Nat) (l : List Byte) : List (Nat × List Byte) :=
  let whole := cutRows t (n / 32) l
  if n % 32 = 0 then whole else whole ++ [(n % 32, l.drop ((n / 32) * rowBytes t 32))]

/-- The values of the payload of `n` elements, a list per row. -/
def payloadVals (t n : Nat) (l : List Byte) : List (List FVal) := (payloadRows t n l).map fun r => rowVals t r.1 r.2

/-- The bytes of one MX row from a scale byte and element codes. -/
def mxRowBytes (t scale : Nat) (codes : List Nat) : List Byte :=
  byte scale ::
    (if t = 7 then codes.map byte
     else (chunks 2 codes).map fun p => byte (p.getD 0 0 % 16 + 16 * (p.getD 1 0 % 16)))

/-- The bytes of a row of scalar codes, big-endian (R16). -/
def scalarRowBytes (t : Nat) (codes : List Nat) : List Byte := (codes.map (beBytes (elemBytes t))).flatten

/-! ### Operations and the mode word -/

/-- The built-in operations (R135). -/
inductive Op where
  | sum | max | min | avg | setMerge | topK | quantise | apply | gather | scatter | broadcast | barrier | eprog
  deriving DecidableEq, Repr

/-- The operation of a code (R135). -/
def Op.ofCode : Nat → Option Op
  | 0x01 => some .sum
  | 0x02 => some .max
  | 0x03 => some .min
  | 0x04 => some .avg
  | 0x10 => some .setMerge
  | 0x11 => some .topK
  | 0x20 => some .quantise
  | 0x21 => some .apply
  | 0x30 => some .gather
  | 0x31 => some .scatter
  | 0x32 => some .broadcast
  | 0x33 => some .barrier
  | 0x40 => some .eprog
  | _ => none

/-- Is an output type allowed for an operation and an input type (R135)? -/
def Op.typesOk (o : Op) (inT outT : Nat) : Bool :=
  match o with
  | .sum => decide (inT ≤ 8) && (if isIntType inT then outT == inT else decide (outT ≤ 4))
  | .avg => decide (inT ≤ 8) && (if isIntType inT then outT == inT else decide (outT ≤ 4))
  | .max => decide (inT ≤ 6) && outT == inT
  | .min => decide (inT ≤ 6) && outT == inT
  | .setMerge => (decide (inT ≤ 6) || inT == 9) && outT == inT
  | .topK => decide (inT ≤ 6) && outT == inT
  | .quantise => decide (inT ≤ 2) && [1, 2, 3, 4, 7, 8].contains outT
  | .apply => decide (inT ≤ 2) && decide (outT ≤ 1)
  | .gather => decide (inT ≤ 9) && outT == inT
  | .scatter => decide (inT ≤ 9) && outT == inT
  | .broadcast => decide (inT ≤ 9) && outT == inT
  | .barrier => inT == 0 && outT == 0
  | .eprog => decide (inT ≤ 8) && decide (outT ≤ 8)

/-- Is the operation a reduction whose SUM_MODE counts? -/
def Op.usesSumMode (o : Op) (mode : Nat) : Bool :=
  match o with
  | .sum | .avg | .quantise | .apply | .eprog => true
  | .topK => bitOf mode 22
  | .max | .min => true
  | _ => false

/-- Does DELIVER belong to the operation (R136)? -/
def Op.usesDeliver : Op → Bool
  | .sum | .max | .min | .avg | .quantise | .apply | .eprog => true
  | _ => false

/-- SUM_MODE of a mode word. -/
def modeSum (m : Nat) : Nat := bitsOf m 0 2
/-- SR of a mode word. -/
def modeSr (m : Nat) : Bool := bitOf m 2
/-- EF of a mode word. -/
def modeEf (m : Nat) : Bool := bitOf m 3
/-- The scale candidates C of a mode word. -/
def modeC (m : Nat) : Nat := bitsOf m 4 4 + 1
/-- NESTEROV of a mode word. -/
def modeNesterov (m : Nat) : Bool := bitOf m 8
/-- ADAM of a mode word. -/
def modeAdam (m : Nat) : Bool := bitOf m 9
/-- MAG of a mode word. -/
def modeMag (m : Nat) : Bool := bitOf m 10
/-- AGG of a mode word. -/
def modeAgg (m : Nat) : Bool := bitOf m 11
/-- PRE of a mode word. -/
def modePre (m : Nat) : Bool := bitOf m 12
/-- FENCE_ALL of a mode word. -/
def modeFenceAll (m : Nat) : Bool := bitOf m 13
/-- DELIVER of a mode word. -/
def modeDeliver (m : Nat) : Nat := bitsOf m 14 2
/-- PSET of a mode word. -/
def modePset (m : Nat) : Nat := bitsOf m 16 4
/-- VCOMB of a mode word. -/
def modeVcomb (m : Nat) : Nat := bitsOf m 20 2
/-- REDUCE of a mode word. -/
def modeReduce (m : Nat) : Bool := bitOf m 22

/-- Is the mode word allowed for the operation, its types and its FENCE flag (R136)? -/
def modeOk (o : Op) (inT outT mode : Nat) (fence : Bool) : Bool :=
  let use := fun (set ok : Bool) => !set || ok
  decide (mode < 2 ^ 23)
    && decide (modeSum mode ≠ 3) && decide (modeDeliver mode ≠ 3) && decide (modeVcomb mode ≠ 3)
    && use (modeSum mode != 0) (o.usesSumMode mode)
    && use (modeSum mode == 2) (!isIntType inT && o != .avg)
    && use (modeSr mode) (o == .quantise || (o == .apply && outT == 1))
    && use (modeEf mode) (o == .quantise)
    && use (bitsOf mode 4 4 != 0) (o == .quantise && isMxType outT)
    && use (modeNesterov mode) (o == .apply && !modeAdam mode)
    && use (modeAdam mode) (o == .apply)
    && use (modeMag mode) (o == .topK)
    && use (modeAgg mode) (o == .gather)
    && use (modePre mode) ([Op.sum, .max, .min, .avg, .eprog].contains o)
    && use (modeFenceAll mode) fence
    && use (modeDeliver mode != 0) o.usesDeliver
    && use (modeVcomb mode != 0) (o == .setMerge)
    && use (modeReduce mode) (o == .topK)

/-- Does the reduction run in rank-order mode (R136)? -/
def rankOrder (o : Op) (inT mode : Nat) : Bool :=
  match o with
  | .sum | .quantise | .apply | .eprog => modeSum mode == 2 || (modeSum mode == 0 && inT == 0)
  | .topK => modeReduce mode && (modeSum mode == 2 || (modeSum mode == 0 && inT == 0))
  | _ => false

/-- Are must rows of the input type 40-bit rows (R93)? -/
def isW40 (inT : Nat) : Bool := inT == 0 || inT == 5

/-- Chunks of an operation. -/
def chunkCount (elements perChunk : Nat) : Nat := ceilDiv elements perChunk

/-- Elements of chunk `c` (R133). -/
def chunkElems (elements perChunk c : Nat) : Nat := min perChunk (elements - c * perChunk)

/-- The rank that receives chunk `c` under DELIVER = 1 (R137). -/
def partitionRank (n chunks c : Nat) : Nat := if chunks = 0 then 0 else c * n / chunks

/-! ### Parameter sets and index lists -/

/-- A parameter set (R140). -/
structure PSet where
  k : Nat
  root : Nat
  programId : Nat
  programDigest : Nat
  stateRegion : Nat
  indexRegion : Nat
  indexDigest : Nat
  /-- lr, mu, b1, b2, c1, c2, eps, wd, gscale. -/
  consts : List Nat
  deriving DecidableEq, Repr

/-- A parameter set from its 64 bytes, little-endian (R140). -/
def PSet.ofBytes (l : List Byte) : PSet :=
  { k := bitsOf (leAt l 0 4) 0 17
    root := leAt l 4 2
    programId := leAt l 6 2
    programDigest := leAt l 8 4
    stateRegion := leAt l 12 4
    indexRegion := leAt l 16 4
    indexDigest := leAt l 20 4
    consts := (List.range 9).map fun i => leAt l (24 + 4 * i) 4 }

/-- The parameter set of an operation that reads none. -/
def PSet.none : PSet := PSet.ofBytes []

/-- Does the operation read some field of its parameter set (R139)? -/
def readsPSet (o : Op) (mode : Nat) : Bool :=
  match o with
  | .sum | .max | .min | .avg => modePre mode || modeDeliver mode == 2
  | .quantise => modeEf mode || modeDeliver mode == 2
  | .barrier => false
  | _ => true

/-- One output row of an index list (R148). -/
structure IdxRow where
  first : Nat
  count : Nat
  dest : Nat
  deriving DecidableEq, Repr

/-- An index list (R148). -/
structure IdxList where
  rows : List IdxRow
  entries : List Nat
  deriving DecidableEq, Repr

/-- The index list at the start of a region's bytes. -/
def IdxList.ofBytes (l : List Byte) : IdxList :=
  let j := leAt l 0 4
  let n := leAt l 4 4
  { rows := (chunks 8 (slice l 8 (8 * j))).map fun r => ⟨leAt r 0 4, leAt r 4 2, leAt r 6 2⟩
    entries := (chunks 4 (slice l (8 + 8 * j) (4 * n))).map leNat }

/-- Bytes of an index list as its header states them. -/
def idxListLen (l : List Byte) : Nat := 8 + 8 * leAt l 0 4 + 4 * leAt l 4 4

/-- Is every record of an index list in range (R149)? `rows` is the number of table rows. -/
def IdxList.ok (x : IdxList) (agg : Bool) (tableRows : Nat) : Bool :=
  (x.entries.all fun i => decide (i < tableRows)) &&
    (x.rows.all fun r => (agg || r.count == 1) && decide (r.first + r.count ≤ x.entries.length))

/-- The table rows that output row `j` lists. -/
def IdxList.rowIndices (x : IdxList) (r : IdxRow) : List Nat := (x.entries.drop r.first).take r.count

/-! ### Program images (R159 to R164) -/

/-- One instruction (R160). -/
structure PInstr where
  op : Nat
  dst : Nat
  sa : Nat
  sb : Nat
  sc : Nat
  ty : Nat
  rnd : Nat
  imm : Nat
  rsv : Nat
  raw : Nat
  deriving DecidableEq, Repr

/-- An instruction from its 64-bit word. -/
def PInstr.ofWord (w : Nat) : PInstr :=
  { op := bitsOf w 0 8, dst := bitsOf w 8 4, sa := bitsOf w 12 4, sb := bitsOf w 16 4, sc := bitsOf w 20 4,
    ty := bitsOf w 24 4, rnd := bitsOf w 28 2, imm := bitsOf w 32 32, rsv := bitsOf w 30 2, raw := w }

/-- A program image (R159). -/
structure Image where
  level : Nat
  kind : Nat
  outType : Nat
  stateWords : Nat
  declCost : Nat
  maxChunk : Nat
  digest : Nat
  code : List PInstr
  consts : List Nat
  bytes : List Byte
  deriving DecidableEq, Repr

/-- Why a program image is refused (R162), in order of checking. -/
inductive ProgRefusal where
  | imageBad | levelUnsupported | encoding | structure | bounds | costUnderdeclared | rowOverBudget | chunkOverBudget
  | noRoom
  deriving DecidableEq, Repr

/-- The length an image's header states. -/
def imageLen (l : List Byte) : Nat := 32 + 8 * leAt l 14 2 + 4 * leAt l 16 2

/-- The IMAGE_DIGEST an image must carry: 64 bits of SHAKE256 with the field taken as zero (R159). -/
def imageDigest (shake : List Byte → Nat → List Byte) (l : List Byte) : Nat :=
  leNat (shake (overwrite l 24 (List.replicate 8 0)) 8)

/-- An image read from its bytes. -/
def Image.ofBytes (l : List Byte) : Image :=
  let n := leAt l 14 2
  { level := byteAt l 4, kind := byteAt l 5, outType := bitsOf (byteAt l 6) 0 4, stateWords := bitsOf (byteAt l 6) 4 4,
    declCost := leAt l 8 4, maxChunk := leAt l 12 2, digest := leAt l 24 8,
    code := (chunks 8 (slice l 32 (8 * n))).map fun w => PInstr.ofWord (leNat w),
    consts := (chunks 4 (slice l (32 + 8 * n) (4 * leAt l 16 2))).map leNat,
    bytes := l.take (imageLen l) }

/-- Is an operation code known (R161)? -/
def opKnown (c : Nat) : Bool :=
  (decide (0x01 ≤ c) && decide (c ≤ 0x0A)) || (decide (0x10 ≤ c) && decide (c ≤ 0x13)) || c == 0x18 ||
  (decide (0x20 ≤ c) && decide (c ≤ 0x25)) || (decide (0x30 ≤ c) && decide (c ≤ 0x35)) ||
  (decide (0x40 ≤ c) && decide (c ≤ 0x43)) || (decide (0x50 ≤ c) && decide (c ≤ 0x53)) || c == 0x58 || c == 0x5F ||
  (decide (0x60 ≤ c) && decide (c ≤ 0x66))

/-- Is the operation code of the set class? -/
def opIsSet (c : Nat) : Bool := decide (0x60 ≤ c) && decide (c ≤ 0x66)

/-- Is the operation code of the control class? -/
def opIsControl (c : Nat) : Bool := (decide (0x50 ≤ c) && decide (c ≤ 0x53)) || c == 0x5F

/-- Cost of an element instruction per row, or of a set instruction per pair (R161). -/
def opCost (i : PInstr) : Nat :=
  let c := i.op
  if opIsSet c then (if c = 0x63 ∨ c = 0x64 then 2 else 1)
  else if 0x40 ≤ c ∧ c ≤ 0x43 then 64
  else
    32 * (if c = 0x03 ∨ c = 0x04 then 2
          else if c = 0x05 ∨ c = 0x06 then 6
          else if c = 0x18 then (if i.rnd = 2 then 8 else 2)
          else if c = 0x30 ∨ c = 0x31 then 4
          else 1)

/-- Encoding of one instruction in range (R162 order 3)? -/
def instrEncOk (i : PInstr) : Bool :=
  i.rsv == 0 && opKnown i.op && i.rnd != 3 &&
    (if i.op = 0x18 then decide (i.ty ≤ 8) else i.ty == 0 || i.ty == 5) &&
    (if i.op = 0x50 then decide (1 ≤ i.imm) && decide (i.imm ≤ 1024) else true)

/-- Loop nesting: never deeper than 4, matched, END last and nowhere else (R162 order 4). -/
def nestOk : Nat → List PInstr → Bool
  | _, [] => false
  | d, [i] => i.op == 0x5F && d == 0
  | d, i :: l =>
    if i.op = 0x5F then false
    else if i.op = 0x50 then decide (d < 4) && nestOk (d + 1) l
    else if i.op = 0x51 then decide (0 < d) && nestOk (d - 1) l
    else nestOk d l

/-- Cost of a body: a stack of enclosing loop counts multiplies each instruction; in a set program the set instructions
count, each 2,048 times (R161). -/
def costFrom (set : Bool) : List Nat → List PInstr → Nat
  | _, [] => 0
  | st, i :: l =>
    let mult := st.foldl (· * ·) 1
    let own := (if set then (if opIsSet i.op then opCost i * 2048 else 0) else opCost i) * mult
    if i.op = 0x50 then own + costFrom set (i.imm :: st) l
    else if i.op = 0x51 then own + costFrom set st.tail l
    else own + costFrom set st l

/-- The contract cost of a program (R161): 64 per row or run plus every instruction's cost. -/
def Image.cost (p : Image) : Nat := 64 + costFrom (p.kind == 2) [] p.code

/-- The checks of R162 up to order 8, in order. -/
def checkImage (shake : List Byte → Nat → List Byte) (l : List Byte) : Option ProgRefusal :=
  let p := Image.ofBytes l
  if l.length < 32 ∨ leAt l 0 4 ≠ 0x47525056 ∨ l.length ≠ imageLen l ∨ imageDigest shake l ≠ p.digest then
    some .imageBad
  else if p.level > 1 then some .levelUnsupported
  else if byteAt l 7 ≠ 0 ∨ leAt l 18 2 ≠ 0 ∨ leAt l 20 4 ≠ 0 ∨ (p.kind ≠ 1 ∧ p.kind ≠ 2) ∨ p.outType > 9 ∨
      (p.kind = 1 ∧ p.outType > 8) ∨ p.stateWords > 8 ∨ p.maxChunk = 0 ∨
      (p.kind = 1 ∧ p.maxChunk > 481) ∨ (p.kind = 2 ∧ p.maxChunk > 256) ∨ p.code.length = 0 ∨ p.code.length > 1024 ∨
      p.consts.length > 256 ∨ ¬ p.code.all instrEncOk then some .encoding
  else if ¬ p.code.all (fun i => if p.kind = 2 then opIsSet i.op || opIsControl i.op else !opIsSet i.op) ∨
      ¬ nestOk 0 p.code then some .structure
  else if p.code.any (fun i => ((i.op == 0x30 || i.op == 0x31) && decide (p.stateWords ≤ i.imm)) ||
      (i.op == 0x32 && decide (p.consts.length ≤ i.imm))) then some .bounds
  else if p.declCost < p.cost then some .costUnderdeclared
  else if p.declCost > 61440 then some .rowOverBudget
  else if p.declCost * p.maxChunk > 4194304 then some .chunkOverBudget
  else none

/-- Bytes a lowered program takes at most: 8 B an instruction and its constants (R164). -/
def Image.lowered (p : Image) : Nat := 8 * p.code.length + 4 * p.consts.length

/-! ### Running an element program on a row (R154 to R158) -/

/-- What each element of a row holds while a program runs. -/
structure PElem where
  v : List Nat
  pred : Bool
  out : Option Nat
  state : List Nat
  deriving DecidableEq, Repr

/-- What a row program run carries: elements, predication in force, program counter, loop stack of (start, left). -/
structure PRun where
  els : List PElem
  predOn : Bool
  pc : Nat
  loops : List (Nat × Nat)
  deriving DecidableEq, Repr

/-- Fixed facts of a program run on a row: the inputs' bits, the first element index, the random words. -/
structure PEnv where
  outType : Nat
  inputs : List Nat
  firstIndex : Nat
  randoms : List Nat
  consts : List Nat
  deriving DecidableEq, Repr

/-- A register of an element. -/
def PElem.reg (e : PElem) (r : Nat) : Nat := e.v.getD r 0

/-- A register of an element set. -/
def PElem.setReg (e : PElem) (r x : Nat) : PElem := { e with v := e.v.set r (x % 2 ^ 32) }

/-- Round toward zero at a format; a magnitude beyond the largest finite one stays at it. -/
def Fmt.roundTz (f : Fmt) (neg : Bool) (n d : Nat) : FVal :=
  if n = 0 then .fin neg 0
  else
    let q := f.ulpExp n d
    let k := if 0 ≤ q then n / (d * 2 ^ q.toNat) else n * 2 ^ (-q).toNat / d
    .fin neg (min f.maxMag (k * 2 ^ (q + 160).toNat))

/-- The rounding of an instruction's RND field at a format (R158, R160). -/
def rndOf (f : Fmt) (rnd u : Nat) : Rnd := fun neg n d =>
  if rnd = 0 then f.round neg n d else if rnd = 1 then f.roundTz neg n d else (quantStoch f neg n d u).1

/-- A quotient of integers rounded by RND. -/
def intRound (rnd u : Nat) (neg : Bool) (n d : Nat) : Int :=
  let q := if rnd = 0 then divRne n d else if rnd = 1 then n / d
    else if u < (n % d) * 2 ^ 32 / d then n / d + 1 else n / d
  sgn neg q

/-- An int32 result, or the open value where it is out of range. -/
def int32Or (op a b c : Nat) (v : Int) : Nat :=
  if -2147483648 ≤ v ∧ v ≤ 2147483647 then twosComp 32 v else Config.programOpen op a b c % 2 ^ 32

/-- Arithmetic of the fp32 kind (R161). -/
def arithF (op : Nat) (rd : Rnd) (a b c : FVal) : FVal :=
  match op with
  | 0x01 => fAddR rd a b
  | 0x02 => fAddR rd a (fNeg b)
  | 0x03 => fMulR rd a b
  | 0x04 => fFmaR rd a b c
  | 0x05 => fDivR rd a b
  | 0x06 => fSqrtR rd a
  | 0x07 => if a = .nan ∨ b = .nan then .nan else if fLt b a then b else a
  | 0x08 => if a = .nan ∨ b = .nan then .nan else if fLt a b then b else a
  | 0x09 => match a with
    | .fin _ m => .fin false m
    | .inf _ => .inf false
    | .nan => .nan
  | _ => fNeg a

/-- Arithmetic of the int32 kind, exact where in range. -/
def arithI (op rnd u ab bb cb : Nat) : Nat :=
  let a := signExt 32 ab
  let b := signExt 32 bb
  let c := signExt 32 cb
  match op with
  | 0x01 => int32Or op ab bb cb (a + b)
  | 0x02 => int32Or op ab bb cb (a - b)
  | 0x03 => int32Or op ab bb cb (a * b)
  | 0x04 => int32Or op ab bb cb (a * b + c)
  | 0x05 => if b = 0 then Config.programOpen op ab bb cb % 2 ^ 32
      else int32Or op ab bb cb (intRound rnd u (decide (a < 0) != decide (b < 0)) a.natAbs b.natAbs)
  | 0x06 => if a < 0 then Config.programOpen op ab bb cb % 2 ^ 32
      else
        let s := isqrt (a.toNat * 2 ^ 64)
        int32Or op ab bb cb (intRound rnd u false (if s * s = a.toNat * 2 ^ 64 then 2 * s else 2 * s + 1) (2 ^ 33))
  | 0x07 => if b < a then bb else ab
  | 0x08 => if a < b then bb else ab
  | 0x09 => int32Or op ab bb cb (a.natAbs : Int)
  | _ => int32Or op ab bb cb (-a)

/-- An exact value rounded to an integer by RND, where it is finite. -/
def toInt (rnd u : Nat) : FVal → Option Int
  | .fin neg m => some (intRound rnd u neg m unit160)
  | _ => none

/-- An integer that fits `w` bits in two's complement of `k` bits; an open value where it does not fit or is none. -/
def intOr (w k opn : Nat) : Option Int → Nat
  | some i => if -(2 ^ (w - 1) : Nat) ≤ i ∧ i < (2 ^ (w - 1) : Nat) then twosComp k i else opn % 2 ^ k
  | none => opn % 2 ^ k

/-- An int32 register rounded to a floating-point format by RND. -/
def intToF (f : Fmt) (rnd u bits : Nat) : Nat :=
  let v := signExt 32 bits
  if v = 0 then 0 else f.encode (rndOf f rnd u (decide (v < 0)) v.natAbs 1)

/-- Conversion of an fp32 value to a type, left in the register as fp32 or int32 bits; from int32 where the target is
fp32 (R161). -/
def cvtReg (ty rnd u bits : Nat) : Nat :=
  match ty with
  | 0 => intToF fp32 rnd u bits
  | 5 | 6 => intOr (if ty = 5 then 32 else 8) 32 (Config.programOpen 0x18 bits ty rnd) (toInt rnd u (ofF32 bits))
  | 7 | 8 => Config.programOpen 0x18 bits ty rnd % 2 ^ 32
  | t => match fmtOf t with
    | some f => match ofF32 bits with
      | .fin neg m => match rndOf f rnd u neg m unit160 with
        | .inf n => if f.hasInf then fp32.infBits n else fp32.canonNan
        | v => fp32.encode v
      | .inf n => if f.hasInf then fp32.infBits n else fp32.canonNan
      | .nan => fp32.canonNan
    | none => bits

/-- The bits an OUT instruction delivers: the register, of the kind that TYPE names, rounded once to the output type by
RND. For an MX output type the fp32 value, which its row quantises. -/
def outBits (ty src rnd u bits : Nat) : Nat :=
  match ty with
  | 5 | 6 =>
    let w := if ty = 5 then 32 else 8
    intOr w w (Config.programOpen 0x58 bits ty src)
      (if src = 5 then some (signExt 32 bits) else toInt rnd u (ofF32 bits))
  | 0 | 7 | 8 => if src = 5 then intToF fp32 rnd u bits else bits
  | t => match fmtOf t with
    | some f => if src = 5 then intToF f rnd u bits else match ofF32 bits with
      | .fin neg m => f.encode (rndOf f rnd u neg m unit160)
      | .inf n => f.infBits n
      | .nan => f.canonNan
    | none => bits

/-- One per-element instruction on element `k`. -/
def elemStep (env : PEnv) (i : PInstr) (predOn : Bool) (k : Nat) (e : PElem) : PElem :=
  if predOn ∧ ¬ e.pred then e
  else
    let a := e.reg i.sa
    let b := e.reg i.sb
    let c := e.reg i.sc
    let u := env.randoms.getD k 0
    let idx := env.firstIndex + k
    if i.op ≤ 0x0A then
      if i.ty = 5 then e.setReg i.dst (arithI i.op i.rnd u a b c)
      else e.setReg i.dst (toF32 (arithF i.op (rndOf fp32 i.rnd u) (ofF32 a) (ofF32 b) (ofF32 c)))
    else match i.op with
    | 0x10 =>
      { e with pred := if i.ty = 5 then decide (signExt 32 a < signExt 32 b)
                       else match ofF32 a, ofF32 b with
                         | .nan, _ => false
                         | _, .nan => false
                         | .fin x m, .fin y n => decide (sgn x m < sgn y n)
                         | x, y => fLt x y }
    | 0x11 =>
      { e with pred := if i.ty = 5 then a == b
                       else match ofF32 a, ofF32 b with
                         | .nan, _ => false
                         | _, .nan => false
                         | .fin x m, .fin y n => decide (sgn x m = sgn y n)
                         | x, y => x == y }
    | 0x12 => e.setReg i.dst (if e.pred then a else b)
    | 0x13 => { e with pred := i.ty != 5 && ofF32 a == .nan }
    | 0x18 => e.setReg i.dst (cvtReg i.ty i.rnd u a)
    | 0x20 => e.setReg i.dst (int32Or 0x20 a b 0 (signExt 32 a + signExt 32 b))
    | 0x21 => e.setReg i.dst (a &&& b)
    | 0x22 => e.setReg i.dst (a ||| b)
    | 0x23 => e.setReg i.dst (a ^^^ b)
    | 0x24 => e.setReg i.dst (if b < 32 then a <<< b else Config.programOpen 0x24 a b 0)
    | 0x25 => e.setReg i.dst (if b < 32 then a >>> b else Config.programOpen 0x25 a b 0)
    | 0x30 => e.setReg i.dst (e.state.getD i.imm 0)
    | 0x31 => { e with state := e.state.set i.imm a }
    | 0x32 => e.setReg i.dst (env.consts.getD i.imm 0)
    | 0x33 => e.setReg i.dst i.imm
    | 0x34 => e.setReg i.dst (env.inputs.getD k 0)
    | 0x35 => e.setReg i.dst (if i.imm = 0 then idx else idx / 2 ^ 32)
    | 0x58 => { e with out := some (outBits env.outType i.ty i.rnd u a) }
    | _ => e

/-- A row-wide value: left fold in element order, each addition with its element's random word (R119, R161). -/
def rowWide (env : PEnv) (i : PInstr) (els : List PElem) : Nat :=
  let regs := els.map fun e => e.reg i.sa
  match i.op with
  | 0x40 => toF32 (match regs.map ofF32 with
    | [] => .fin false 0
    | x :: l => (l.zip (env.randoms.drop 1)).foldl (fun a p => fAddR (rndOf fp32 i.rnd p.2) a p.1) x)
  | 0x43 => regs.getD i.imm (Config.programOpen 0x43 i.imm 0 0 % 2 ^ 32)
  | op =>
    let pick := fun x y => if i.ty = 5 then arithI (if op = 0x41 then 0x08 else 0x07) 0 0 x y 0
      else toF32 (arithF (if op = 0x41 then 0x08 else 0x07) rne32 (ofF32 x) (ofF32 y) .nan)
    match regs with
    | [] => 0
    | x :: l => l.foldl pick x

/-- One instruction of a row program. -/
def progStep (env : PEnv) (code : List PInstr) (r : PRun) : PRun :=
  match code[r.pc]? with
  | none => r
  | some i =>
    let next := { r with pc := r.pc + 1 }
    if i.op = 0x50 then { next with loops := (r.pc + 1, i.imm) :: r.loops }
    else if i.op = 0x51 then
      match r.loops with
      | (start, left) :: rest => if left ≤ 1 then { next with loops := rest } else { r with pc := start, loops := (start, left - 1) :: rest }
      | [] => next
    else if i.op = 0x52 then { next with predOn := true }
    else if i.op = 0x53 then { next with predOn := false }
    else if i.op = 0x5F then { r with pc := code.length }
    else if 0x40 ≤ i.op ∧ i.op ≤ 0x43 then
      let w := rowWide env i r.els
      { next with els := r.els.map fun e => if r.predOn ∧ ¬ e.pred then e else e.setReg i.dst w }
    else { next with els := r.els.mapIdx fun k e => elemStep env i r.predOn k e }

/-- Run until the program ends, with fuel. -/
def progRun (env : PEnv) (code : List PInstr) : Nat → PRun → PRun
  | 0, r => r
  | fuel + 1, r => if code.length ≤ r.pc then r else progRun env code fuel (progStep env code r)

/-- An element program on one row of 32 inputs: output bits and new state words per element (R154, R157). What a value
register and the predicate hold before they are written is open. -/
def Image.runRow (p : Image) (inputs : List Nat) (firstIndex : Nat) (randoms : List Nat) (state : List (List Nat)) :
    List (Option Nat) × List (List Nat) :=
  let env : PEnv := { outType := p.outType, inputs := inputs, firstIndex := firstIndex, randoms := randoms, consts := p.consts }
  let els := (List.range 32).map fun k =>
    { v := (List.range 16).map fun r => Config.programOpen 0 r 0 0 % 2 ^ 32, pred := Config.programOpen 0 16 0 0 % 2 == 1
      out := none, state := state.getD k [] : PElem }
  let r := progRun env p.code 61440 { els := els, predOn := false, pc := 0, loops := [] }
  (r.els.map (·.out), r.els.map (·.state))

/-- A set program over merged pairs in runs of 2,048: key and value bits of the pairs it emits (R155). -/
def Image.runSet (p : Image) (pairs : List (Nat × Nat)) : List (Nat × Nat) :=
  let code := p.code.map (·.raw)
  (pairs.mapIdx fun i kv => (Config.setProgram code p.consts kv.1 kv.2 (i % 2048)).map fun v => (kv.1, v)).filterMap id

end Sys2Proof.Machine
end

