-- ==== Sys2Proof/Machine/Crypto.lean ====
section
/-! DEFINITION. The primitives the spec names by their standards: SHAKE256, AES-256 in GCM and CTR, and CRC-32.
PRESUMED from the published standards the spec names; safe where the names mean those standards. -/

namespace Sys2Proof.Machine

open Sys2Proof

/-! ### SHAKE256 -/

/-- Rotate a 64-bit lane left. -/
def rotl64 (x n : Nat) : Nat := ((x <<< n) ||| (x >>> (64 - n))) % 2 ^ 64

/-- Lane `(x, y)` of a sponge state of 25 lanes. -/
def lane (a : List Nat) (x y : Nat) : Nat := a.getD (x % 5 + 5 * (y % 5)) 0

/-- The rotation of each lane, by `x + 5 y`. -/
def keccakRot : List Nat :=
  [0, 1, 62, 28, 27, 36, 44, 6, 55, 20, 3, 10, 43, 25, 39, 41, 45, 15, 21, 8, 18, 2, 61, 56, 14]

/-- The 24 round constants. -/
def keccakRc : List Nat :=
  [0x0000000000000001, 0x0000000000008082, 0x800000000000808A, 0x8000000080008000, 0x000000000000808B,
   0x0000000080000001, 0x8000000080008081, 0x8000000000008009, 0x000000000000008A, 0x0000000000000088,
   0x0000000080008009, 0x000000008000000A] ++
  [0x000000008000808B, 0x800000000000008B, 0x8000000000008089, 0x8000000000008003, 0x8000000000008002,
   0x8000000000000080, 0x000000000000800A, 0x800000008000000A, 0x8000000080008081, 0x8000000000008080,
   0x0000000080000001, 0x8000000080008008]

/-- One round of the permutation. -/
def keccakRound (a : List Nat) (rc : Nat) : List Nat :=
  let c := (List.range 5).map fun x =>
    (lane a x 0) ^^^ (lane a x 1) ^^^ (lane a x 2) ^^^ (lane a x 3) ^^^ (lane a x 4)
  let d := (List.range 5).map fun x => (c.getD ((x + 4) % 5) 0) ^^^ rotl64 (c.getD ((x + 1) % 5) 0) 1
  let t := (List.range 25).map fun i => (a.getD i 0) ^^^ (d.getD (i % 5) 0)
  let b := (List.range 25).map fun i =>
    let x := (i % 5 + 3 * (i / 5)) % 5
    let y := i % 5
    rotl64 (lane t x y) (keccakRot.getD (x + 5 * y) 0)
  let chi := (List.range 25).map fun i =>
    let x := i % 5
    let y := i / 5
    (lane b x y) ^^^ (((2 ^ 64 - 1) ^^^ lane b (x + 1) y) &&& lane b (x + 2) y)
  match chi with
  | [] => []
  | h :: r => (h ^^^ rc) :: r

/-- The permutation of 24 rounds. -/
def keccakF (a : List Nat) : List Nat := keccakRc.foldl keccakRound a

/-- A block of 136 bytes taken into the state. -/
def absorb (a : List Nat) (blk : List Byte) : List Nat :=
  keccakF ((List.range 25).map fun i => if i < 17 then (a.getD i 0) ^^^ leNat (slice blk (8 * i) 8) else a.getD i 0)

/-- The last block of a message, padded. -/
def shakePad (m : List Byte) : List Byte :=
  if m.length = 135 then m ++ [0x9F] else m ++ [0x1F] ++ List.replicate (134 - m.length) 0 ++ [0x80]

/-- Take every whole block in; pad and take in what is left. -/
def absorbAll : Nat → List Nat → List Byte → List Nat
  | 0, a, _ => a
  | fuel + 1, a, m => if m.length < 136 then absorb a (shakePad m) else absorbAll fuel (absorb a (m.take 136)) (m.drop 136)

/-- Squeeze `k` blocks of 136 bytes. -/
def squeeze : Nat → List Nat → List Byte
  | 0, _ => []
  | k + 1, a => (((List.range 17).map fun i => leBytes 8 (a.getD i 0)).flatten) ++ squeeze k (keccakF a)

/-- SHAKE256 of a message, `n` bytes out. -/
def shake256 (m : List Byte) (n : Nat) : List Byte :=
  (squeeze (n / 136 + 1) (absorbAll (m.length / 136 + 1) (List.replicate 25 0) m)).take n

/-! ### AES-256 -/

/-- Doubling in GF(2^8). -/
def xtime (a : Nat) : Nat := if a < 128 then 2 * a else (2 * a ^^^ 0x11B) % 256

/-- Product in GF(2^8), by the bits of the second factor. -/
def gmul8 : Nat → Nat → Nat → Nat
  | 0, _, _ => 0
  | k + 1, a, b => (if b % 2 = 1 then a else 0) ^^^ gmul8 k (xtime a) (b / 2)

/-- Inverse in GF(2^8) as the 254th power; 0 for 0. -/
def ginv8 (a : Nat) : Nat :=
  let m := gmul8 8
  let a2 := m a a
  let a4 := m a2 a2
  let a8 := m a4 a4
  let a16 := m a8 a8
  let a32 := m a16 a16
  let a64 := m a32 a32
  let a128 := m a64 a64
  m a128 (m a64 (m a32 (m a16 (m a8 (m a4 a2)))))

/-- The substitution of one byte. -/
def sbox (a : Nat) : Nat :=
  let i := ginv8 a
  let r := fun k => ((i <<< k) ||| (i >>> (8 - k))) % 256
  i ^^^ r 1 ^^^ r 2 ^^^ r 3 ^^^ r 4 ^^^ 0x63

/-- Exclusive-or of two lists of numbers. -/
def xorNats (a b : List Nat) : List Nat := List.zipWith (· ^^^ ·) a b

/-- What word `i` of the key schedule takes from the word before it. -/
def aesStep (i rc : Nat) (prev : List Nat) : List Nat :=
  if i % 8 = 0 then
    match prev.map sbox with
    | a :: l => xorNats (l ++ [a]) [rc, 0, 0, 0]
    | [] => []
  else if i % 8 = 4 then prev.map sbox
  else prev

/-- The key schedule of AES-256 as words of four bytes, newest first. -/
def aesExpand : Nat → Nat → Nat → List (List Nat) → List (List Nat)
  | 0, _, _, ws => ws
  | k + 1, i, rc, ws =>
    aesExpand k (i + 1) (if i % 8 = 0 then xtime rc else rc) (xorNats (ws.getD 7 []) (aesStep i rc (ws.headD [])) :: ws)

/-- The 15 round keys of a 32-byte key, 16 bytes each. -/
def aesKeys (key : List Byte) : List (List Nat) :=
  let k := key.map (·.toNat)
  let ws := (aesExpand 52 8 1 (chunks 4 k).reverse).reverse
  (chunks 4 ws).map (·.flatten)

/-- Shift the rows of a state of 16 bytes held by columns. -/
def shiftRows (s : List Nat) : List Nat := (List.range 16).map fun i => s.getD ((i + 4 * (i % 4)) % 16) 0

/-- Mix one column. -/
def mixCol (c : List Nat) : List Nat :=
  let g := fun i => c.getD (i % 4) 0
  (List.range 4).map fun i => xtime (g i) ^^^ (xtime (g (i + 1)) ^^^ g (i + 1)) ^^^ g (i + 2) ^^^ g (i + 3)

/-- The rounds after the first key addition. -/
def aesRounds : List (List Nat) → List Nat → List Nat
  | [], s => s
  | [k], s => xorNats (shiftRows (s.map sbox)) k
  | k :: ks, s => aesRounds ks (xorNats ((chunks 4 (shiftRows (s.map sbox))).map mixCol).flatten k)

/-- AES-256 of one block of 16 bytes under round keys. -/
def aesBlock (ks : List (List Nat)) (b : List Byte) : List Byte :=
  match ks with
  | [] => b
  | k :: r => (aesRounds r (xorNats (b.map (·.toNat)) k)).map byte

/-- Counter blocks from a first 16-byte counter block, the last 32 bits counting. -/
def ctrStream (ks : List (List Nat)) (pre : List Byte) : Nat → Nat → List Byte
  | 0, _ => []
  | n + 1, c => aesBlock ks (pre ++ beBytes 4 c) ++ ctrStream ks pre n ((c + 1) % 2 ^ 32)

/-- Counter mode with a 12-byte prefix and a first count. -/
def ctrWith (ks : List (List Nat)) (pre : List Byte) (c : Nat) (d : List Byte) : List Byte :=
  xorBytes d (ctrStream ks pre ((d.length + 15) / 16) c)

/-- Key stream of `n` blocks from a counter block that counts as a 128-bit big-endian integer (R420). -/
def ctrStream128 (ks : List (List Nat)) : Nat → Nat → List Byte
  | 0, _ => []
  | n + 1, c => aesBlock ks (beBytes 16 c) ++ ctrStream128 ks n ((c + 1) % 2 ^ 128)

/-- AES-256-CTR with a whole 16-byte counter block. -/
def ctr128 (key iv d : List Byte) : List Byte := xorBytes d (ctrStream128 (aesKeys key) ((d.length + 15) / 16) (beNat iv))

/-- Product in the field of GHASH, bit 0 the most significant. -/
def ghashMul : Nat → Nat → Nat → Nat → Nat
  | 0, _, _, z => z
  | k + 1, x, v, z =>
    ghashMul k x (if v % 2 = 1 then (v / 2) ^^^ 0xE1000000000000000000000000000000 else v / 2)
      (if bitOf x k then z ^^^ v else z)

/-- GHASH over blocks of 16 bytes, the last padded with zeros. -/
def ghash (h : Nat) (y : Nat) (d : List Byte) : Nat :=
  (chunks 16 d).foldl (fun a b => ghashMul 128 (a ^^^ beNat (padTo 16 b)) h 0) y

/-- The 16-byte tag of AES-256-GCM over associated data and ciphertext, with a 12-byte nonce. -/
def gcmTag (ks : List (List Nat)) (nonce aad ct : List Byte) : List Byte :=
  let h := beNat (aesBlock ks (List.replicate 16 0))
  let s := ghash h (ghash h (ghash h 0 aad) ct) (beBytes 8 (8 * aad.length) ++ beBytes 8 (8 * ct.length))
  xorBytes (beBytes 16 s) (aesBlock ks (nonce ++ beBytes 4 1))

/-- AES-256-GCM seal: ciphertext and 16-byte tag. -/
def gcmSeal (key nonce aad pt : List Byte) : List Byte × List Byte :=
  let ks := aesKeys key
  let ct := ctrWith ks nonce 2 pt
  (ct, gcmTag ks nonce aad ct)

/-- AES-256-GCM open: the plaintext where the tag verifies. -/
def gcmOpen (key nonce aad ct tag : List Byte) : Option (List Byte) :=
  let ks := aesKeys key
  if gcmTag ks nonce aad ct = tag then some (ctrWith ks nonce 2 ct) else none

/-! ### CRC-32 -/

/-- One byte into a reflected CRC-32 of polynomial 0x04C1_1DB7. -/
def crc32Bits : Nat → Nat → Nat
  | 0, c => c
  | k + 1, c => crc32Bits k (if c % 2 = 1 then (c / 2) ^^^ 0xEDB88320 else c / 2)

/-- CRC-32 of a byte string, reflected, initial value and final exclusive-or all ones. -/
def crc32 (d : List Byte) : Nat := (d.foldl (fun c b => crc32Bits 8 (c ^^^ b.toNat)) 0xFFFFFFFF) ^^^ 0xFFFFFFFF

end Sys2Proof.Machine
end

