-- ==== Sys2Proof/Machine/Coding.lean ====
section
/-! DEFINITION. Blend tables, canonical code words, coded blocks, deep mode, and the length checks of a payload
(R213 to R231). -/

namespace Sys2Proof.Machine

open Sys2Proof

/-! ### Blend tables (R229 to R231) -/

/-- A blend table. -/
structure Blend where
  id : Nat
  cls : Nat
  digest : Nat
  lens : List Nat
  deriving DecidableEq, Repr

/-- The 256 code lengths in 128 bytes: even symbols in the high half (R229). -/
def blendLens (l : List Byte) : List Nat := (l.map fun b => [b.toNat / 16, b.toNat % 16]).flatten

/-- A table from its 140 bytes: big-endian, code lengths by half bytes. -/
def Blend.ofBytes (l : List Byte) : Blend :=
  { id := byteAt l 0, cls := byteAt l 1 % 16, digest := beAt l 4 8, lens := blendLens (slice l 12 128) }

/-- The bytes of a table. -/
def Blend.toBytes (b : Blend) : List Byte :=
  [byte b.id, byte (b.cls % 16), 0, 0] ++ beBytes 8 b.digest ++
    (chunks 2 b.lens).map fun p => byte (16 * p.getD 0 0 + p.getD 1 0)

/-- The digest a table must carry: over bytes 0 to 3 and 12 to 139 (R229). -/
def Blend.digestOf (b : Blend) : Nat :=
  let l := b.toBytes
  beNat (shake256 (l.take 4 ++ slice l 12 128) 8)

/-- Symbols of a class (R230). -/
def classSymbols : Nat → Nat
  | 0 => 256
  | 1 => 32
  | 2 => 16
  | 3 => 4
  | 4 => 9
  | 5 => 33
  | 6 => 25
  | 7 => 41
  | _ => 0

/-- Is a table valid (R230)? -/
def Blend.valid (b : Blend) : Bool :=
  decide (b.lens.length = 256) && decide (b.cls < 8) && decide (1 ≤ b.id) &&
    ((List.range 256).all fun s =>
      let n := b.lens.getD s 0
      if s < classSymbols b.cls then decide (1 ≤ n) && decide (n ≤ 15) else n == 0) &&
    decide (sumNat ((b.lens.take (classSymbols b.cls)).map fun n => 2 ^ (15 - n)) = 2 ^ 15) &&
    decide (b.digest = b.digestOf)

/-- Are the reserved bits of a table's bytes zero (R229)? -/
def blendReservedOk (l : List Byte) : Bool := decide (l.length = 140) && byteAt l 1 / 16 == 0 && beAt l 2 2 == 0

/-- Code words in canonical order: symbol, length, word (R231). -/
def assignWords : List (Nat × Nat) → Nat → Nat → List (Nat × Nat × Nat)
  | [], _, _ => []
  | (s, n) :: l, prevLen, nextWord =>
    let w := nextWord * 2 ^ (n - prevLen)
    (s, n, w) :: assignWords l n (w + 1)

/-- The canonical code of a table (R231). -/
def Blend.code (b : Blend) : List (Nat × Nat × Nat) :=
  let syms := (List.range (classSymbols b.cls)).map fun s => (s, b.lens.getD s 0)
  match sortByKey (fun p => p.2) syms with
  | [] => []
  | (s, n) :: l => assignWords ((s, n) :: l) n 0

/-- The class of a type (R216); must fields have classes 6 and 7. -/
def classOf : Nat → Option Nat
  | 0 => some 0
  | 1 => some 0
  | 2 => some 1
  | 4 => some 1
  | 3 => some 2
  | 7 => some 2
  | 8 => some 3
  | 6 => some 4
  | 5 => some 5
  | _ => none

/-! ### Elements as symbols -/

/-- An element split for coding: symbol, sign bit if it has one, remaining bits and their number (R216). -/
structure Sym where
  sym : Nat
  hasSign : Bool
  sign : Nat
  rest : Nat
  restLen : Nat
  deriving DecidableEq, Repr

/-- Split an element of an exponent class. -/
def symExp (ebits fbits v : Nat) : Sym :=
  { sym := bitsOf v fbits ebits, hasSign := true, sign := bitsOf v (ebits + fbits) 1, rest := bitsOf v 0 fbits, restLen := fbits }

/-- Split an element of a leading-bit class. -/
def symLead (w v : Nat) : Sym :=
  let i := signExt w v
  let a := i.natAbs
  let l := if a = 0 then 0 else a.log2 + 1
  if l = 0 then ⟨0, false, 0, 0, 0⟩ else ⟨l, true, if i < 0 then 1 else 0, a - 2 ^ (l - 1), l - 1⟩

/-- How the elements of a class and width are coded: exponent and fraction bits, or a field width. -/
inductive ElKind where
  | exp (ebits fbits : Nat)
  | lead (w : Nat)
  deriving DecidableEq, Repr

/-- The element kind of a type. -/
def elKind (t : Nat) : ElKind :=
  match fmtOf t with
  | some f => .exp f.ebits f.fbits
  | none => .lead (if t = 6 then 8 else 32)

/-- Bits of an element in its raw form. -/
def ElKind.width : ElKind → Nat
  | .exp e f => 1 + e + f
  | .lead w => w

/-- Split an element. -/
def ElKind.split : ElKind → Nat → Sym
  | .exp e f, v => symExp e f v
  | .lead w, v => symLead w v

/-- Does a symbol carry a sign bit, and how many bits follow it? -/
def ElKind.after : ElKind → Nat → Bool × Nat
  | .exp _ f, _ => (true, f)
  | .lead _, s => if s = 0 then (false, 0) else (true, s - 1)

/-- Put an element together; none where the value lies outside its field (R225 order 6). -/
def ElKind.join : ElKind → Nat → Nat → Nat → Option Nat
  | .exp e f, s, sign, rest => some (sign * 2 ^ (e + f) + s * 2 ^ f + rest)
  | .lead w, s, sign, rest =>
    if s = 0 then some 0
    else
      let a := 2 ^ (s - 1) + rest
      let i : Int := if sign = 1 then -(a : Int) else a
      if -(2 ^ (w - 1) : Int) ≤ i ∧ i < (2 ^ (w - 1) : Int) then some (twosComp w i) else none

/-- A field of a unit: raw bits, or an element. -/
inductive Fld where
  | raw (n : Nat)
  | el (k : ElKind)
  deriving DecidableEq, Repr

/-- The form of a payload. -/
inductive Form where
  /-- Dense elements of a type, in rows. -/
  | dense (t : Nat)
  /-- SET-MERGE pairs (R142). -/
  | pairs (t : Nat)
  /-- TOP-K entries (R147). -/
  | entries (t : Nat)
  /-- Must rows (R93). -/
  | must (w40 : Bool)
  /-- Bytes that are never coded: SET-MERGE partials with escape records, site partials, index rows. -/
  | opaqueBytes
  deriving DecidableEq, Repr

/-- The class of a form, where it has one. -/
def Form.cls : Form → Option Nat
  | .dense t => classOf t
  | .pairs t => classOf t
  | .entries t => classOf t
  | .must w => some (if w then 7 else 6)
  | .opaqueBytes => none

/-- The fields of one unit of a form: a row of `m` elements, a pair or an entry. -/
def unitFields (f : Form) (m : Nat) : List Fld :=
  match f with
  | .dense t =>
    (if isMxType t then [.raw 8] else []) ++
      List.replicate m (if t = 9 then .raw 32 else .el (elKind t))
  | .pairs t => if t = 9 then [.raw 32] else [.raw 32, .el (elKind t)]
  | .entries t =>
    [.raw 32, .raw 16] ++
      (if elemBytes t = 4 then [.raw 16, .el (elKind t)]
       else if elemBytes t = 2 then [.el (elKind t)] else [.el (elKind t), .raw 8])
  | .must _ => []
  | .opaqueBytes => [.raw 8]

/-- Bits of a field. -/
def Fld.width : Fld → Nat
  | .raw n => n
  | .el k => k.width

/-- Numbers of the fields of a unit from its bytes; MX fp4 elements lie low half first (R88). -/
def fieldsOfBytes (f : Form) (fs : List Fld) (l : List Byte) : List Nat :=
  match f with
  | .dense 8 => byteAt l 0 :: mxCodes 8 (fs.length - 1) l
  | _ => (fs.foldl (fun (a : List Nat × Nat) x =>
      (beAt l (a.2 / 8) (x.width / 8) :: a.1, a.2 + x.width)) ([], 0)).1.reverse

/-- The bytes of a unit from its field numbers. -/
def bytesOfFields (f : Form) (fs : List Fld) (vs : List Nat) : List Byte :=
  match f with
  | .dense 8 => mxRowBytes 8 (vs.headD 0) vs.tail
  | _ => (List.zipWith (fun (x : Fld) v => beBytes (x.width / 8) v) fs vs).flatten

/-! ### Bits -/

/-- `n` bits of a number, most significant first. -/
def bitList : Nat → Nat → List Bool
  | 0, _ => []
  | n + 1, v => bitOf v n :: bitList n v

/-- The bits of a byte string, most significant first. -/
def bitsOfBytes (l : List Byte) : List Bool := (l.map fun b => bitList 8 b.toNat).flatten

/-- The number of a bit list, most significant first. -/
def bitsNat (l : List Bool) : Nat := l.foldl (fun a b => 2 * a + b2n b) 0

/-- Bits packed into bytes, the last completed with zeros (R218). -/
def packBits (l : List Bool) : List Byte :=
  (chunks 8 l).map fun c => byte (bitsNat c * 2 ^ (8 - c.length))

/-! ### Deep mode: segment B (R222, R223) -/

/-- The probability of symbol `s` at node `k`. -/
def probAt (ps : SMap Nat) (s k : Nat) : Nat := mgetD ps (s * 16 + k) 2048

/-- How many of an element's following bits go to segment B (R222). -/
def deepU (restLen : Nat) : Nat := min 4 restLen

/-- The state of the range decoder. -/
structure RcDec where
  code : Nat
  range : Nat
  rest : List Byte
  probs : SMap Nat
  deriving DecidableEq, Repr

/-- Start the decoder: byte 0 is zero, four bytes of code (R223). -/
def RcDec.init (l : List Byte) : Option RcDec :=
  if l.length < 5 ∨ byteAt l 0 ≠ 0 then none
  else some { code := beAt l 1 4, range := 0xFFFFFFFF, rest := l.drop 5, probs := [] }

/-- Refill while the range is below 2^24. -/
def RcDec.refill : Nat → RcDec → Option RcDec
  | 0, d => some d
  | fuel + 1, d =>
    if d.range < 2 ^ 24 then
      match d.rest with
      | [] => none
      | b :: r => RcDec.refill fuel { d with range := d.range * 256, code := d.code * 256 + b.toNat, rest := r }
    else some d

/-- Decode one bit at a node (R223). -/
def RcDec.bit (d : RcDec) (s k : Nat) : Option (Nat × RcDec) :=
  let p := probAt d.probs s k
  let bound := (d.range >>> 12) * p
  let r :=
    if d.code < bound then
      (0, { d with range := bound, probs := mset d.probs (s * 16 + k) (p + ((4096 - p) >>> 4)) })
    else
      (1, { d with code := d.code - bound, range := d.range - bound, probs := mset d.probs (s * 16 + k) (p - (p >>> 4)) })
  (r.2.refill 4).map fun e => (r.1, e)

/-- Decode `u` bits of an element down the node tree. -/
def RcDec.bitsFrom : Nat → RcDec → Nat → Nat → Nat → Option (Nat × RcDec)
  | 0, d, _, _, v => some (v, d)
  | u + 1, d, s, k, v =>
    match d.bit s k with
    | none => none
    | some (b, e) => RcDec.bitsFrom u e s (2 * k + b) (2 * v + b)

/-- The state of the range encoder: `low` with a carry above bit 31, a cached byte and the bytes pending behind it. -/
structure RcEnc where
  low : Nat
  range : Nat
  cache : Nat
  pend : Nat
  out : List Byte
  probs : SMap Nat
  deriving DecidableEq, Repr

/-- Shift one byte out of the encoder. -/
def RcEnc.shift (e : RcEnc) : RcEnc :=
  if e.low < 0xFF000000 ∨ 2 ^ 32 ≤ e.low then
    let c := e.low / 2 ^ 32
    { e with
      out := e.out ++ [byte (e.cache + c)] ++ List.replicate e.pend (byte (0xFF + c))
      cache := e.low / 2 ^ 24 % 256
      pend := 0
      low := e.low % 2 ^ 24 * 256 }
  else { e with pend := e.pend + 1, low := e.low % 2 ^ 24 * 256 }

/-- Keep the encoder's range at 2^24 or above. -/
def RcEnc.norm : Nat → RcEnc → RcEnc
  | 0, e => e
  | fuel + 1, e => if e.range < 2 ^ 24 then RcEnc.norm fuel { e with range := e.range * 256 }.shift else e

/-- Encode one bit at a node. -/
def RcEnc.bit (e : RcEnc) (s k b : Nat) : RcEnc :=
  let p := probAt e.probs s k
  let bound := (e.range >>> 12) * p
  let r :=
    if b = 0 then { e with range := bound, probs := mset e.probs (s * 16 + k) (p + ((4096 - p) >>> 4)) }
    else { e with low := e.low + bound, range := e.range - bound, probs := mset e.probs (s * 16 + k) (p - (p >>> 4)) }
  r.norm 4

/-- Encode the top `u` bits of an element, most significant first. -/
def RcEnc.bitsFrom : Nat → RcEnc → Nat → Nat → Nat → RcEnc
  | 0, e, _, _, _ => e
  | u + 1, e, s, k, v =>
    let b := b2n (bitOf v u)
    RcEnc.bitsFrom u (e.bit s k b) s (2 * k + b) v

/-- The encoder at the start of a block. -/
def RcEnc.init : RcEnc := { low := 0, range := 0xFFFFFFFF, cache := 0, pend := 0, out := [], probs := [] }

/-- The bytes of a finished segment. -/
def RcEnc.flush (e : RcEnc) : List Byte := e.shift.shift.shift.shift.shift.out

/-! ### Block bodies -/

/-- The code word of a symbol as bits. -/
def wordBits (code : List (Nat × Nat × Nat)) (s : Nat) : List Bool :=
  match code.find? fun e => e.1 == s with
  | some (_, n, w) => bitList n w
  | none => []

/-- What an encoder of a body carries: bits of segment A, newest first by field, and segment B. -/
structure BodyEnc where
  bits : List (List Bool)
  rc : RcEnc

/-- Encode one field. -/
def encField (deep : Bool) (code : List (Nat × Nat × Nat)) (b : BodyEnc) (f : Fld) (v : Nat) : BodyEnc :=
  match f with
  | .raw n => { b with bits := bitList n v :: b.bits }
  | .el k =>
    let y := k.split v
    let u := if deep then deepU y.restLen else 0
    { bits := (wordBits code y.sym ++ (if y.hasSign then [decide (y.sign = 1)] else []) ++
        bitList (y.restLen - u) (y.rest % 2 ^ (y.restLen - u))) :: b.bits
      rc := if deep then b.rc.bitsFrom u y.sym 1 (y.rest / 2 ^ (y.restLen - u)) else b.rc }

/-- Encode the fields of a unit. -/
def encFields (deep : Bool) (code : List (Nat × Nat × Nat)) (b : BodyEnc) (fs : List Fld) (vs : List Nat) : BodyEnc :=
  (fs.zip vs).foldl (fun a p => encField deep code a p.1 p.2) b

/-- The fields of one must row from its bytes, header and escapes raw (R215). -/
def mustFields (w40 : Bool) (units : Nat) : List Fld :=
  [.raw 64] ++ List.replicate 32 (.el (.lead (if w40 then 40 else 24))) ++ List.replicate (2 * units) (.raw 64)

/-- Fields and numbers of a unit of any form from its bytes. -/
def unitOfBytes (f : Form) (m : Nat) (l : List Byte) : List Fld × List Nat :=
  match f with
  | .must w =>
    let fs := mustFields w (bitsOf (beAt l 4 4) 12 8)
    (fs, fieldsOfBytes f fs l)
  | _ =>
    let fs := unitFields f m
    (fs, fieldsOfBytes f fs l)

/-- Cut a raw payload into its units: element count (for rows) and bytes. -/
def cutUnits (f : Form) : Nat → Nat → List Byte → List (Nat × List Byte)
  | 0, _, _ => []
  | fuel + 1, n, l =>
    if n = 0 ∨ l.isEmpty then []
    else
      match f with
      | .dense t =>
        let m := min 32 n
        (m, l.take (rowBytes t m)) :: cutUnits f fuel (n - m) (l.drop (rowBytes t m))
      | .pairs t => let w := 4 + (if t = 9 then 0 else elemBytes t)
        (1, l.take w) :: cutUnits f fuel (n - 1) (l.drop w)
      | .entries t => let w := if elemBytes t = 4 then 12 else 8
        (1, l.take w) :: cutUnits f fuel (n - 1) (l.drop w)
      | .must w => let len := 8 + 32 * (if w then 5 else 3) + 16 * bitsOf (beAt l 4 4) 12 8
        (1, l.take len) :: cutUnits f fuel (n - 1) (l.drop len)
      | .opaqueBytes => [(n, l)]

/-- Units grouped into blocks of at most 4,096 B (R217). -/
def groupUnits : List (Nat × List Byte) → List (Nat × List Byte) → Nat → List (List (Nat × List Byte))
  | [], cur, _ => if cur.isEmpty then [] else [cur.reverse]
  | u :: l, cur, n =>
    if n + u.2.length ≤ 4096 ∨ cur.isEmpty then groupUnits l (u :: cur) (n + u.2.length)
    else cur.reverse :: groupUnits l [u] u.2.length

/-- A coded block header (R219). -/
def blockHeader (raw deep : Bool) (id rawLen codedLen count segA : Nat) : List Byte :=
  [byte (b2n raw * 128 + b2n deep * 32), byte id] ++ beBytes 2 rawLen ++ beBytes 2 codedLen ++ beBytes 2 count ++
    beBytes 2 segA ++ [0, 0]

/-- Encode one block of units, coded where that is shorter than raw (R219, R220): the bytes, and whether it is coded. -/
def encodeBlock (f : Form) (deep : Bool) (b : Option Blend) (us : List (Nat × List Byte)) : List Byte × Bool :=
  let raw := (us.map (·.2)).flatten
  let cnt := sumNat (us.map (·.1))
  let asRaw := (blockHeader true false 0 raw.length raw.length cnt 0 ++ raw, false)
  match b with
  | none => asRaw
  | some bl =>
    let code := bl.code
    let e := us.foldl (fun a u => let x := unitOfBytes f u.1 u.2; encFields deep code a x.1 x.2) ⟨[], RcEnc.init⟩
    let segA := packBits e.bits.reverse.flatten
    let segB := if deep then e.rc.flush else []
    let body := segA ++ segB
    if body.length < raw.length then
      (blockHeader false deep bl.id raw.length body.length cnt (if deep then segA.length else 0) ++ body, true)
    else asRaw

/-- Encode a raw payload of `n` elements, pairs, entries or rows: the blocks' bytes and how many are coded. -/
def encodePayload (f : Form) (deep : Bool) (b : Option Blend) (n : Nat) (l : List Byte) : List Byte × Nat × Nat :=
  let bs := (groupUnits (cutUnits f (n + 1) n l) [] 0).map (encodeBlock f deep b)
  ((bs.map (·.1)).flatten, (bs.filter (·.2)).length, (bs.filter fun x => !x.2).length)

/-! ### Decoding and the checks of R225 -/

/-- The kinds of failure (R225). -/
inductive FailKind where
  | header | blend | length | overrun | underrun
  deriving DecidableEq, Repr

/-- What a body decoder carries: the bits left, segment B, and whether a value lay outside its field (R225 order 6, which comes
after order 5). -/
structure BodyDec where
  bits : List Bool
  rc : Option RcDec
  bad : Bool

/-- Find the symbol of the code word at the front. -/
def readSym (code : List (Nat × Nat × Nat)) : Nat → Nat → Nat → List Bool → Option (Nat × List Bool)
  | 0, _, _, _ => none
  | _, _, _, [] => none
  | fuel + 1, n, w, b :: l =>
    let n' := n + 1
    let w' := 2 * w + b2n b
    match code.find? fun e => e.2.1 == n' && e.2.2 == w' with
    | some e => some (e.1, l)
    | none => readSym code fuel n' w' l

/-- Read `n` bits. -/
def readBits (n : Nat) (l : List Bool) : Option (Nat × List Bool) :=
  if l.length < n then none else some (bitsNat (l.take n), l.drop n)

/-- Put a decoded element together, noting a value outside its field. -/
def BodyDec.put (d : BodyDec) (k : ElKind) (s sign rest : Nat) (bits : List Bool) (rc : Option RcDec) : Nat × BodyDec :=
  match k.join s sign rest with
  | none => (0, { bits := bits, rc := rc, bad := true })
  | some v => (v, { bits := bits, rc := rc, bad := d.bad })

/-- Decode one field: its number, or why it fails. -/
def decField (code : List (Nat × Nat × Nat)) (d : BodyDec) (f : Fld) : Except FailKind (Nat × BodyDec) :=
  match f with
  | .raw n => match readBits n d.bits with
    | none => .error .overrun
    | some (v, r) => .ok (v, { d with bits := r })
  | .el k =>
    match readSym code 15 0 0 d.bits with
    | none => .error .overrun
    | some (s, r1) =>
      let a := k.after s
      match readBits (b2n a.1) r1 with
      | none => .error .overrun
      | some (sign, r2) =>
        let u := if d.rc.isSome then deepU a.2 else 0
        match readBits (a.2 - u) r2 with
        | none => .error .overrun
        | some (lo, r3) =>
          match d.rc with
          | none => .ok (d.put k s sign lo r3 none)
          | some rc => match rc.bitsFrom u s 1 0 with
            | none => .error .overrun
            | some (hi, rc') => .ok (d.put k s sign (hi * 2 ^ (a.2 - u) + lo) r3 (some rc'))

/-- Decode a list of fields. -/
def decFields (code : List (Nat × Nat × Nat)) : List Fld → BodyDec → Except FailKind (List Nat × BodyDec)
  | [], d => .ok ([], d)
  | f :: fs, d =>
    match decField code d f with
    | .error k => .error k
    | .ok (v, e) => match decFields code fs e with
      | .error k => .error k
      | .ok (vs, g) => .ok (v :: vs, g)

/-- Decode one unit to its raw bytes; `left` bounds a must row's raw length (R225 order 6). -/
def decUnit (f : Form) (code : List (Nat × Nat × Nat)) (m left : Nat) (d : BodyDec) : Except FailKind (List Byte × BodyDec) :=
  match f with
  | .must w =>
    match decFields code [.raw 64] d with
    | .error k => .error k
    | .ok (h, e) =>
      let units := bitsOf (h.headD 0) 12 8
      let fs := mustFields w units
      let len := 8 + 32 * (if w then 5 else 3) + 16 * units
      if left < len then .error .length
      else match decFields code fs.tail e with
        | .error k => .error k
        | .ok (vs, g) => .ok (bytesOfFields f fs (h ++ vs), g)
  | _ =>
    let fs := unitFields f m
    match decFields code fs d with
    | .error k => .error k
    | .ok (vs, g) => .ok (bytesOfFields f fs vs, g)

/-- Decode units until `n` elements are out. -/
def decUnits (f : Form) (code : List (Nat × Nat × Nat)) : Nat → Nat → Nat → BodyDec → Except FailKind (List Byte × BodyDec)
  | 0, _, _, d => .ok ([], d)
  | fuel + 1, n, left, d =>
    if n = 0 then .ok ([], d)
    else
      let m := match f with
        | .dense _ => min 32 n
        | _ => 1
      match decUnit f code m left d with
      | .error k => .error k
      | .ok (b, e) => match decUnits f code fuel (n - m) (left - b.length) e with
        | .error k => .error k
        | .ok (bs, g) => .ok (b ++ bs, g)

/-- The raw length of `n` whole elements, pairs or entries; none for must rows, which vary. -/
def rawLenOf (f : Form) (n : Nat) : Option Nat :=
  match f with
  | .dense t => some (elemsBytes t n)
  | .pairs t => some (n * (4 + (if t = 9 then 0 else elemBytes t)))
  | .entries t => some (n * (if elemBytes t = 4 then 12 else 8))
  | .must _ => none
  | .opaqueBytes => some n

/-- A coded block as it stands in a payload (R219). -/
structure CBlock where
  raw : Bool
  mode : Nat
  reserved : Bool
  id : Nat
  rawLen : Nat
  coded : Nat
  count : Nat
  segA : Nat
  body : List Byte

/-- How the blocks of a payload end: at its end, past it, or with bytes left that are no block. -/
inductive BlockEnd where
  | clean | past | trail
  deriving DecidableEq, Repr

/-- Cut a payload into its blocks. -/
def parseBlocks : Nat → List Byte → List CBlock × BlockEnd
  | 0, l => ([], if l.isEmpty then .clean else .trail)
  | fuel + 1, l =>
    if l.isEmpty then ([], .clean)
    else if l.length < 12 then ([], .trail)
    else
      let n := beAt l 4 2
      let b : CBlock :=
        { raw := bitOf (byteAt l 0) 7, mode := bitsOf (byteAt l 0) 5 2
          reserved := decide (byteAt l 0 % 32 ≠ 0 ∨ beAt l 10 2 ≠ 0), id := byteAt l 1, rawLen := beAt l 2 2, coded := n
          count := beAt l 6 2, segA := beAt l 8 2, body := slice l 12 n }
      if l.length < 12 + n then ([b], .past)
      else
        let r := parseBlocks fuel (l.drop (12 + n))
        (b :: r.1, r.2)

/-- Order 1 of R225 on a block. -/
def CBlock.headerFails (b : CBlock) (codingZero deepOk : Bool) : Bool :=
  b.reserved || decide (2 ≤ b.mode) || (b.raw && (b.id != 0 || b.mode != 0 || b.segA != 0)) || (b.mode == 0 && b.segA != 0) ||
    (b.mode == 1 && !deepOk) || (!b.raw && codingZero)

/-- Order 3 of R225 on a block; only the last block of a dense payload may end within a row (R217). -/
def CBlock.rawLenFails (b : CBlock) (f : Form) (last : Bool) : Bool :=
  b.rawLen == 0 || decide (4096 < b.rawLen) || ((rawLenOf f b.count).any fun n => n != b.rawLen) ||
    (match f with
     | .dense _ => !last && b.count % 32 != 0
     | _ => false)

/-- Order 4 of R225 on a block. -/
def CBlock.codedLenFails (b : CBlock) : Bool :=
  (if b.raw then b.coded != b.rawLen else decide (b.rawLen ≤ b.coded)) || decide (b.coded < b.segA)

/-- Orders 5 to 7 of R225: the raw bytes of a block. -/
def CBlock.decode (f : Form) (bl : Blend) (b : CBlock) : Except FailKind (List Byte) :=
  if b.raw then .ok b.body
  else
    let deep := b.mode = 1
    let rc := if deep then RcDec.init (b.body.drop b.segA) else none
    if deep ∧ rc.isNone then .error .overrun
    else
      match decUnits f bl.code (b.count + 1) b.count b.rawLen
          ⟨bitsOfBytes (if deep then b.body.take b.segA else b.body), rc, false⟩ with
      | .error k => .error k
      | .ok (out, d) =>
        if d.bad then .error .length
        else if 7 < d.bits.length ∨ d.bits.any (fun x => x) ∨ d.rc.any (fun r => !r.rest.isEmpty) then .error .underrun
        else if out.length ≠ b.rawLen then .error .length
        else .ok out

/-- The failure of the lower order among those of orders 5 to 7. -/
def FailKind.first : FailKind → FailKind → FailKind
  | .overrun, _ => .overrun
  | _, .overrun => .overrun
  | .length, _ => .length
  | _, k => k

/-- Decode every block: the raw bytes of all, or the failure of the lowest order. -/
def decodeAll (f : Form) (bl : Blend) : List CBlock → Except FailKind (List Byte)
  | [] => .ok []
  | b :: l =>
    match b.decode f bl, decodeAll f bl l with
    | .ok x, .ok y => .ok (x ++ y)
    | .error k, .error m => .error (k.first m)
    | .error k, .ok _ => .error k
    | .ok _, .error m => .error m

/-- The blend IDs that a payload's coded blocks name. -/
def namedIds (bs : List CBlock) : List Nat := ((bs.filter fun b => !b.raw).map (·.id)).eraseDups

/-- Does a payload hold a coded block? -/
def holdsCoded (l : List Byte) : Bool := (parseBlocks (l.length / 12 + 1) l).1.any fun b => !b.raw

/-- The last block of a list, and the rest before it, against a test that knows which is last. -/
def anyLast (f : CBlock → Bool → Bool) : List CBlock → Bool
  | [] => false
  | [b] => f b true
  | b :: l => f b false || anyLast f l

/-- The blocks of a payload checked in the order of R225: raw bytes and counts summed. `ids` are the blends accepted in the
context and class; `deepOk` says that MODE = 1 is allowed; `header` is the blend a packet's header names. -/
def decodeBlocks (f : Form) (codingZero deepOk : Bool) (ids : List Blend) (header : Option Nat) (l : List Byte) :
    Except FailKind (List Byte × Nat) :=
  let p := parseBlocks (l.length / 12 + 1) l
  let names := namedIds p.1
  let bl := ids.find? fun b => names.contains b.id
  if p.1.any fun b => b.headerFails codingZero deepOk then .error .header
  else if 1 < names.length ∨ (names.length = 1 ∧ bl.isNone) ∨ header.any (fun h => h != names.headD 0) then .error .blend
  else if anyLast (fun b last => b.rawLenFails f last) p.1 then .error .length
  else if p.2 = .past ∨ p.1.any CBlock.codedLenFails then .error .length
  else
    match decodeAll f (bl.getD ⟨0, 0, 0, []⟩) p.1 with
    | .error k => .error k
    | .ok out => if p.2 = .trail then .error .length else .ok (out, sumNat (p.1.map (·.count)))

/-- A host packet's payload checked by R225: its raw bytes. -/
def checkHostPayload (f : Form) (coding : Nat) (rawFlag : Bool) (ids : List Blend) (blendId count : Nat) (l : List Byte) :
    Except FailKind (List Byte) :=
  let want := (rawLenOf f count).getD 0
  if rawFlag then (if l.length = want then .ok l else .error .length)
  else if coding = 0 then .error .header
  else
    match decodeBlocks f (decide (coding = 0)) false ids (some blendId) l with
    | .error k => .error k
    | .ok (out, n) => if out.length ≠ want ∨ n ≠ count then .error .length else .ok out

/-! ### The optimal code limited to 15 bits (R244) -/

/-- A package of symbols with its weight, for the package-merge construction of a length-limited optimal code. -/
structure Pkg where
  w : Nat
  syms : List Nat

/-- Pair up packages, dropping an odd last one. -/
def pairUp : List Pkg → List Pkg
  | a :: b :: l => ⟨a.w + b.w, a.syms ++ b.syms⟩ :: pairUp l
  | _ => []

/-- Merge two sorted package lists. -/
def mergePkgs (a b : List Pkg) : List Pkg := sortByKey (fun p => p.w) (a ++ b)

/-- `k` rounds of package and merge over the sorted leaves. -/
def packageMerge : Nat → List Pkg → List Pkg → List Pkg
  | 0, _, cur => cur
  | k + 1, leaves, cur => packageMerge k leaves (mergePkgs leaves (pairUp cur))

/-- The lengths of an optimal prefix code limited to 15 bits, by symbol, from positive counts (R244). -/
def optimalLens (counts : List Nat) : List Nat :=
  let leaves := sortByKey (fun p => p.w) (counts.mapIdx fun i c => (⟨c, [i]⟩ : Pkg))
  let sel := ((packageMerge 14 leaves leaves).take (2 * counts.length - 2)).map (·.syms)
  let all := sel.flatten
  (List.range counts.length).map fun i => all.count i

/-- Σ count × length. -/
def lensCost (counts lens : List Nat) : Nat := sumNat (List.zipWith (· * ·) counts lens)

/-- The lengths the device takes: where several codes are optimal the choice among them is open (R244). -/
def chosenLens (counts : List Nat) : List Nat :=
  let best := optimalLens counts
  let open_ := Config.optimalLengths counts
  if open_.length = counts.length ∧ (open_.all fun l => decide (1 ≤ l) && decide (l ≤ 15)) = true ∧
      sumNat (open_.map fun l => 2 ^ (15 - l)) = 2 ^ 15 ∧ lensCost counts open_ = lensCost counts best then open_ else best

/-- A candidate table of a class from its counts, each raised by one (R244). -/
def candidateBlend (id cls : Nat) (counts : List Nat) : Blend :=
  let n := classSymbols cls
  let lens := chosenLens ((List.range n).map fun i => counts.getD i 0 + 1)
  let b : Blend := { id := id, cls := cls, digest := 0, lens := lens ++ List.replicate (256 - n) 0 }
  { b with digest := b.digestOf }

/-- The cost of coding counts under a table (R244 step 3), counts raised by one. -/
def codeCost (b : Blend) (counts : List Nat) : Nat :=
  sumNat ((List.range (classSymbols b.cls)).map fun i => (counts.getD i 0 + 1) * b.lens.getD i 0)

/-- The symbols of a raw payload, for the counters of R243. -/
def payloadSymbols (f : Form) (n : Nat) (l : List Byte) : List Nat :=
  ((cutUnits f (n + 1) n l).map fun u =>
    let x := unitOfBytes f u.1 u.2
    (x.1.zip x.2).filterMap fun p => match p.1 with
      | .el k => some (k.split p.2).sym
      | .raw _ => none).flatten

end Sys2Proof.Machine
end

