-- ==== Sys2Proof/Machine/StateColl.lean ====
section
/-! DEFINITION. The state of groups, instances, programs, commits and the Press array (02, 04, 05). -/

namespace Sys2Proof.Machine

open Sys2Proof

/-! ### Groups -/

/-- A member entry of a group table (R181). -/
structure Member where
  endpoint : Nat
  far : Bool
  site : Nat
  coveredSites : Nat
  coveredMembers : Nat
  stream : Nat
  deriving DecidableEq, Repr

/-- One version of a group table: the fields of R180 that the configuration digest covers, and its members. -/
structure GroupTable where
  group : Nat
  epoch : Nat
  /-- VALID: a version that is not valid ends the group when it is committed. -/
  valid : Bool
  localSite : Nat
  sites : Nat
  policy : Nat
  primarySite : Nat
  isSealed : Bool
  memberBase : Nat
  timeout : Nat
  absenceTimeout : Nat
  fallowLimit : Nat
  srSeed : Nat
  constRegion : Nat
  members : List Member
  deriving DecidableEq, Repr

/-- A group: its versions (R173), the run-time fields of R180, and its absence and fence state. -/
structure GroupRec where
  current : Option GroupTable
  standby : Option GroupTable
  draining : Option GroupTable
  applyT : Nat
  applyP1 : Nat
  applyP2 : Nat
  /-- LAST_COMMITTED, with whether any launch has committed. -/
  lastCommitted : Nat
  everCommitted : Bool
  deriving DecidableEq, Repr

/-! ### Instances -/

/-- A descriptor (R193), with its 32 bytes. -/
structure Desc where
  group : Nat
  epoch : Nat
  opCode : Nat
  inType : Nat
  outType : Nat
  coding : Nat
  elements : Nat
  chunkSize : Nat
  mode : Nat
  bytes : List Byte
  deriving DecidableEq, Repr

/-- The states of an instance (R190); ENDED instances are no longer held here. -/
inductive InstPhase where
  | opened | committed | aborting
  deriving DecidableEq, Repr

/-- A far member's partial of a chunk, as received: what it covers and its content by form. -/
structure FarPart where
  rank : Nat
  sites : Nat
  members : Nat
  /-- Must rows, for sums. -/
  rows : List Must
  /-- Site partials of rank order: site and its must rows. -/
  siteRows : List (Nat × List Must)
  /-- Content of any other form, raw. -/
  raw : List Byte
  /-- Units in the raw content. -/
  count : Nat
  isRestored : Bool
  /-- The casks that hold it. -/
  casks : List Nat
  deriving DecidableEq, Repr

/-- A local contribution to a chunk, staged: its raw bytes and element or pair count; `parts` is the number of packets
and `done` whether LAST has been seen (R142). -/
structure Contrib where
  rank : Nat
  count : Nat
  bytes : List Byte
  parts : Nat
  done : Bool
  lastKey : Nat
  casks : List Nat
  /-- Stream and sequence of a packet whose staged words were found uncorrectable and that is to be sent again (R281, R299). -/
  hole : Option (Nat × Nat)
  deriving DecidableEq, Repr

/-- What a chunk's press work is for: the result, or the partial owed to a far member (R184, R185). -/
inductive Target where
  | result
  | toFar (rank : Nat)
  deriving DecidableEq, Repr

/-- The press state of one row: must rows so far, contributions not yet pressed into it, the running rank-order fold,
re-queue count, and the full-width flag of R103. -/
structure RowSt where
  acc : List Must
  todo : List Nat
  fold : List Nat
  folded : Nat
  requeue : Nat
  full : Bool
  /-- A class 2 cask holds its full-width form (R103). -/
  cask : Bool
  deriving DecidableEq, Repr

/-- A finished row of an output: result codes, or a must row of a partial. -/
structure RowOut where
  codes : List Nat
  scale : Nat
  must : Option Must
  deriving DecidableEq, Repr

/-- One output of a chunk: the result or a partial, its rows as they commit. -/
structure Prod where
  target : Target
  rows : List (Option RowOut)
  /-- Raw content of outputs that are not made row by row. -/
  raw : List Byte
  count : Nat
  pressed : Bool
  readyTick : Nat
  issued : Bool
  /-- Pressed while a site was absent: its packets carry FALLOW (R483). -/
  fallow : Bool
  deriving DecidableEq, Repr

/-- A chunk of an instance. -/
structure Chunk where
  index : Nat
  locals : List Contrib
  fars : List FarPart
  rows : List RowSt
  localDone : Bool
  prods : List Prod
  /-- A DRAM cask holds the chunk's local partial. -/
  cask : Bool
  deriving DecidableEq, Repr

/-- A launch held or counted from a rank: the payload and the FENCE flag (R176, R195). -/
structure LaunchRec where
  rank : Nat
  bytes : List Byte
  hash : Nat
  fence : Bool
  deriving DecidableEq, Repr

/-- The counts of the arithmetic statistics block (R129). -/
structure Stats where
  rows : Nat
  escRows : Nat
  escRecords : Nat
  l2Records : Nat
  fwRows : Nat
  fwPeak : Nat
  overflow : Nat
  nanOut : Nat
  sat : Nat
  qsat : Nat
  efReset : Nat
  applyNonfinite : Nat
  deriving DecidableEq, Repr

/-- A fence in force (R169 to R172): the instance that carries it, whether it covers all groups, the order in which its
launch committed, whether this gateway has sent its fence-clear, and the far members whose fence-clears are counted. It
outlives its instance when that is aborted. -/
structure FenceRec where
  group : Nat
  inst : Nat
  all : Bool
  order : Nat
  sent : Bool
  clears : List Nat
  fars : List Nat
  deriving DecidableEq, Repr

/-- An abort that waits for step 3 of the edge (R198): the instance, the class of its cause in the order of that step, its
code and detail, and the site that originated it. -/
structure AbortReq where
  group : Nat
  inst : Nat
  cls : Nat
  code : Nat
  origin : Nat
  detailKind : Nat
  detail : Nat
  deriving DecidableEq, Repr

/-- An operation instance (R190). -/
structure Instance where
  group : Nat
  inst : Nat
  epoch : Nat
  phase : InstPhase
  abortSlot : Bool
  openTick : Nat
  commitTick : Nat
  refHash : Option Nat
  refFence : Option Bool
  desc : Option Desc
  launches : List LaunchRec
  /-- The launches were counted under the standby epoch and wait for its commit (R176). -/
  held : Bool
  /-- Sites whose launch a notice covers (R197). -/
  noticeSites : Nat
  table : Option GroupTable
  pset : PSet
  image : Option Image
  /-- The index list of a GATHER or SCATTER, read at launch commit (R148). -/
  idx : Option IdxList
  applyT : Nat
  applyP1 : Nat
  applyP2 : Nat
  /-- Fence-clears counted before the launch committed (R169). -/
  clears : List Nat
  /-- Order in which the launch committed among all (R172). -/
  order : Nat
  chunks : SMap Chunk
  /-- Own code, its origin site and detail once ABORTING (R201). -/
  ownCode : Nat
  detailKind : Nat
  detail : Nat
  /-- Abort notices counted: site and code. -/
  notices : List (Nat × Nat)
  fallow : Bool
  /-- Some chunk was delivered with FALLOW set (R483). -/
  fallowDone : Bool
  catchup : Bool
  /-- Sites that are absent while the instance is fallow (R483). -/
  excluded : Nat
  /-- Under PRIMARY it runs on as a fallow instance after presence (R488): partials of `excluded` are discarded. -/
  runsOn : Bool
  /-- Local ranks that received a RESULT with FALLOW set (R487, R598). -/
  fallowRanks : List Nat
  /-- Chunks delivered to each local rank. -/
  delivered : SMap Nat
  /-- Local ranks whose COMPLETION or ABORT is queued. -/
  completed : List Nat
  waitingCask : Bool
  /-- DRAM casks that hold its partials and full-width rows. -/
  casks : List Nat
  fwEvent : Bool
  /-- H-OUT blends that its RESULT packets used: class × 256 + BLEND_ID (R234). -/
  blends : List Nat
  stats : Stats
  deriving DecidableEq, Repr

/-- A record kept after an instance ended (R130). -/
structure EndedRec where
  group : Nat
  inst : Nat
  code : Nat
  origin : Nat
  fallow : Bool
  catchup : Bool
  chunks : Nat
  detailKind : Nat
  detail : Nat
  stats : Stats
  deriving DecidableEq, Repr

/-! ### Programs and commits -/

/-- A resident program: the image in force, a standby copy and replaced images kept for draining (R165). -/
structure ProgRec where
  current : Option Image
  standby : Option Image
  draining : List Image
  deriving DecidableEq, Repr

/-- A staged item that a commit can name (R178). -/
inductive StagedItem where
  | group (id : Nat)
  | program (id : Nat)
  | page (port : Nat)
  | blend (ctx cls : Nat)
  | qos (sched : Nat)
  deriving DecidableEq, Repr

/-- A commit named for an edge. -/
structure Commit where
  id : Nat
  edge : Nat
  items : List StagedItem
  deriving DecidableEq, Repr

/-! ### The Press array -/

/-- A work unit staged in a cluster (R49): whose row it is, what of it, where it lies, what it costs. -/
structure WorkUnit where
  group : Nat
  inst : Nat
  chunk : Nat
  row : Nat
  /-- Which of the row's units this is, and the local ranks and must rows it takes. -/
  part : Nat
  ranks : List Nat
  accs : Nat
  die : Nat
  cluster : Nat
  bytes : Nat
  gang : Nat
  cost : Nat
  requeue : Nat
  stagedTick : Nat
  /-- The pressing of this tick has pressed it and its checks passed. -/
  committed : Bool
  deriving DecidableEq, Repr

/-- One Press die. -/
structure Die where
  /-- The budget B in force in core-cycles (R44), and the granted one that the next EDGE message carries (R76). -/
  budget : Nat
  granted : Nat
  /-- Power summed over the running interval in 0.1 W, and its samples. -/
  measDw : Nat
  floorTicks : Nat
  floorRaised : Bool
  /-- Stopped by temperature (R80). -/
  overTemp : Bool
  hot : Bool
  maxC : Nat
  hotSensor : Nat
  sensorBad : List Nat
  excluded : List Nat
  spareTx : Nat
  spareRx : Nat
  dataTx : Nat
  dataRx : Nat
  replayFails : Nat
  /-- Tick at which retraining ends, while it runs. -/
  retrainEnd : Option Nat
  spareClusters : Nat
  /-- Spare cores used, by cluster (16 at most). -/
  coresUsed : SMap Nat
  lostClusters : Nat
  /-- Its rails drooped in this window, so that issue stalled for 16 cycles (R81). -/
  droop : Bool
  deriving DecidableEq, Repr

/-- One slot of a core's history: tick, temperature in 0.5 °C, kind of check, rail in mV, row signature (R508). -/
structure HistSlot where
  tick : Nat
  temp : Nat
  kind : Nat
  railMv : Nat
  sig : Nat
  deriving DecidableEq, Repr

/-- A core's fault history (R508 to R511): events, fences in the retirement window, state (0 in use, 1 fenced, 2 retired),
tick of the latest fence, whether a spare core does its work, and the four latest slots, newest first. -/
structure CoreHist where
  events : Nat
  fences : List Nat
  state : Nat
  fenceTick : Nat
  spared : Bool
  slots : List HistSlot
  deriving DecidableEq, Repr

/-- The Press (02). -/
structure Press where
  running : Bool
  dies : Vector Die 4
  units : List WorkUnit
  /-- Clusters that act on no copy of this tick's EDGE message: die × 1024 + cluster (R62). -/
  missed : List Nat
  listed : List Nat
  treeFaulty : Vector Bool 2
  /-- Fault reports of the last 16 ticks: tree, tick and cluster (R64). -/
  treeReports : List (Nat × Nat × Nat)
  /-- Messages some cluster did not act on, to issue again (R62). -/
  reissue : List Nat
  /-- Core histories by die × 2^20 + cluster × 2^9 + core. -/
  cores : SMap CoreHist
  intervalStart : Nat
  /-- Rows a cluster has committed for an instance since its last clean check: by cluster, group and instance, the latest tick
  and the rows committed in it (R507). -/
  worked : SMap (Nat × Nat)
  /-- Latest clean spot check, and rounds in which all three disagreed (R506), by die × 1024 + cluster. -/
  spotClean : SMap Nat
  spotRounds : SMap Nat
  tickHiLatch : Nat
  deriving DecidableEq, Repr

/-- Groups, instances and programs. -/
structure Coll where
  groups : SMap GroupRec
  /-- Instances by group × 2^32 + instance number. -/
  insts : SMap Instance
  /-- Slots reserved by packets passed on whose instance has not opened yet (R192): key and whether abort-only. -/
  reserved : SMap Bool
  ended : List EndedRec
  fences : List FenceRec
  aborts : List AbortReq
  nextOrder : Nat
  committedNow : Nat
  programs : SMap ProgRec
  commits : List Commit
  nextCommit : Nat
  deriving DecidableEq, Repr

end Sys2Proof.Machine
end

