-- ==== Sys2Proof/Machine/StateHost.lean ====
section
/-! DEFINITION. The state of the host port's streams, the compressor's contexts and the egress schedulers (06, 08, 12). -/

namespace Sys2Proof.Machine

open Sys2Proof

/-- Where a datagram came from: IP version, address, UDP port (R294, R311). -/
structure Source where
  v6 : Bool
  addr : Nat
  port : Nat
  deriving DecidableEq, Repr

/-! ### Exchange packets -/

/-- A received exchange packet: the fields of R290 and the payload. -/
structure Pkt where
  ty : Nat
  flags : Nat
  blendId : Nat
  group : Nat
  epoch : Nat
  inst : Nat
  chunk : Nat
  rank : Nat
  dtype : Nat
  count : Nat
  stream : Nat
  seq : Nat
  hash : Nat
  payload : List Byte
  deriving DecidableEq, Repr

/-- What the decode stage made of a DATA payload (R225): not checked, its raw bytes, or the failing kind. -/
inductive Decoded where
  | unchecked
  | ok (raw : List Byte)
  | fail (k : FailKind)
  | rawRequired
  deriving DecidableEq, Repr

/-- A packet the device sends on a stream: header fields of R290, payload, and the sequence once it has one. -/
structure HostPkt where
  ty : Nat
  flags : Nat
  blendId : Nat
  group : Nat
  epoch : Nat
  inst : Nat
  chunk : Nat
  rank : Nat
  dtype : Nat
  count : Nat
  srcSite : Nat
  stream : Nat
  hash : Nat
  payload : List Byte
  /-- The local rank that receives it. -/
  dest : Nat
  /-- The cask that holds a RESULT (R251, R303). -/
  casks : List Nat
  deriving DecidableEq, Repr

/-- A packet kept for a member: the packet, with its cask, and when it was sent (R303). -/
structure Retained where
  pkt : HostPkt
  sentTick : Nat
  deriving DecidableEq, Repr

/-- An open NACK that repeats (R301): the sequence it names, its reason, repeats sent and the tick of the last one. -/
structure OpenNack where
  seq : Nat
  reason : Nat
  tries : Nat
  tick : Nat
  group : Nat
  inst : Nat
  deriving DecidableEq, Repr

/-- A stream context (R295). -/
structure StreamCtx where
  endpoint : Nat
  v6 : Bool
  peerPort : Nat
  peerAddr : Nat
  /-- Next-hop MAC address: the spec does not say how the device learns it, so it is a free value. -/
  peerMac : Nat
  inNext : Nat
  inInit : Nat
  held : SMap (Pkt × List Nat)
  outNext : Nat
  outAcked : Nat
  outInit : Nat
  nack : Option OpenNack
  /-- Counted packets that were refused and not yet resent, with reason, group and instance (R299). -/
  refused : SMap (Nat × Nat × Nat)
  stalled : Bool
  inPkts : Nat
  inDups : Nat
  nacksTx : Nat
  resendsTx : Nat
  rawRequired : Bool
  decFails : Nat
  /-- Tick from which the acknowledgement interval runs, and whether a packet has been counted since. -/
  ackFrom : Nat
  ackOwed : Bool
  retained : SMap Retained
  /-- Launch descriptors the stream has passed on, by instance key: CODING, operation and input type for the decode stage. -/
  passedLaunch : SMap (List Byte)
  deriving DecidableEq, Repr

/-- An arrival of the running tick, counted at the next edge (R198 step 1). -/
inductive Arrival where
  | pkt (p : Pkt) (d : Decoded) (casks : List Nat)
  | farPartial (port : Nat) (group epoch inst chunk hash : Nat) (part : FarPart)
  | launchNotice (port : Nat) (group epoch inst hash : Nat) (fence : Bool) (sites : Nat)
  | abortNotice (port : Nat) (group inst code site : Nat)
  | fenceClear (port : Nat) (group inst : Nat)
  | malformed (port : Nat) (group inst chunk : Nat)
  deriving DecidableEq, Repr

/-- One PFC priority (R307). -/
structure PfcPrio where
  /-- Pause time left, in quanta. -/
  quanta : Nat
  /-- Tick since which the priority has been paused without a break. -/
  since : Option Nat
  ignored : Bool
  lastFrame : Nat
  deriving DecidableEq, Repr

/-! ### Mailbox sessions -/

/-- Fragments of a HELLO or HELLO-REPLY body being put together (R311). -/
structure Frags where
  src : Source
  ident : Nat
  total : Nat
  parts : SMap (List Byte)
  firstTick : Nat
  deriving DecidableEq, Repr

/-- A half-open session: identifier, source, keys of both directions, role, start (R311). -/
structure HalfOpen where
  id : Nat
  src : Source
  keyIn : List Byte
  keyOut : List Byte
  role : Nat
  tick : Nat
  deriving DecidableEq, Repr

/-- A bulk transfer of a session (R316): target, direction and progress. -/
structure Bulk where
  /-- 0 region, 1 Barn capture, 2 firmware slot. -/
  kind : Nat
  target : Nat
  offset : Nat
  len : Nat
  /-- The device sends (true) or receives. -/
  sending : Bool
  /-- Next datagram number, and the offset acknowledged or received so far. -/
  next : Nat
  acked : Nat
  sentTick : Nat
  deriving DecidableEq, Repr

/-- An open session. -/
structure Session where
  src : Source
  keyIn : List Byte
  keyOut : List Byte
  role : Nat
  /-- Highest counter accepted and the 64 below it seen. -/
  hiIn : Nat
  seen : List Nat
  nextOut : Nat
  lastTick : Nat
  /-- Subscription: lowest class nibble as given, and the next event sequence to send. -/
  sub : Option (Nat × Nat)
  bulk : Option Bulk
  /-- A session with the twin of the other role. -/
  twin : Bool
  deriving DecidableEq, Repr

/-! ### Compressor contexts -/

/-- An offer under way at the encoder (R235, R237): the table, when it was sent, who asked for it. -/
structure Offer where
  blend : Blend
  tick : Nat
  /-- 0 the device's policy, 1 cmp.blend.install, 2 cmp.blend.stage, 3 a resynchronisation. -/
  origin : Nat
  /-- The mailbox that waits for the answer. -/
  mbx : Option Nat
  sent : Bool
  accepted : Bool
  deriving DecidableEq, Repr

/-- A context and class (R232). -/
structure BSlot where
  current : Option Blend
  previous : Option Blend
  pending : Option Blend
  staged : Option Blend
  /-- A host blend that takes effect at the next edge. -/
  install : Option Blend
  retire : Bool
  offer : Option Offer
  /-- First LINE_SEQ of each tributary coded with the new blend, until the retirement is acknowledged (R235). -/
  switchSeqs : Option (SMap Nat)
  fails : Nat
  /-- A resynchronisation runs, and since when (R240). -/
  resync : Bool
  resyncTick : Nat
  resyncFails : Nat
  rawHold : Bool
  /-- The encoder codes raw for a resynchronisation. -/
  rawCoding : Bool
  counts : SMap Nat
  qualify : Nat
  lastInstall : Option Nat
  candidate : Option Blend
  /-- Older tables kept while the ring holds blocks coded with them (R240). -/
  older : List Blend
  deriving DecidableEq, Repr

/-! ### Egress schedulers -/

/-- What a line block carries for a far member (R26, R184, R221): a partial of one chunk. -/
structure LinePartial where
  port : Nat
  group : Nat
  epoch : Nat
  inst : Nat
  chunk : Nat
  hash : Nat
  form : Form
  coding : Nat
  isSealed : Bool
  count : Nat
  raw : List Byte
  sites : Nat
  members : Nat
  /-- The content is must rows: the MUST flag of the line header. -/
  must : Bool
  /-- Site and local rank of the source of BROADCAST and SCATTER data, packed as site × 2^16 + rank. -/
  tag : Option Nat
  deriving DecidableEq, Repr

/-- What leaves the device: the model's own record of it. -/
inductive Output where
  /-- An exchange packet on a stream, whole UDP payload. -/
  | exchange (stream : Nat) (bytes : List Byte)
  /-- A mailbox datagram, whole UDP payload, to a source. -/
  | mailbox (dst : Source) (bytes : List Byte)
  /-- A PFC frame: priorities and pause quanta. -/
  | pfc (prios : Nat) (quanta : Nat)
  /-- An ARP or neighbour reply, or an echo reply with its data. -/
  | arpReply (dst : Nat)
  | neighbourReply (dst : Nat)
  | echoReply (dst : Source) (data : List Byte)
  /-- A gratuitous ARP or unsolicited neighbour advertisement of an address just adopted (R500). -/
  | announce (v6 : Bool) (addr : Nat)
  /-- A PTP Delay_Req with its sequence number. -/
  | delayReq (seq : Nat)
  /-- A slot on a transmit lane: lane, slot, overhead and columns. -/
  | slot (lane slot : Nat) (overhead columns : List Byte)
  /-- A pulse on an output: the time of its edge, its width in ns, and whether it drives the land low. -/
  | pulse (n : Nat) (atTime width : Nat) (low : Bool)
  /-- The answer to a register access or bus access: value read, or acknowledged. -/
  | answer (vals : List Nat)
  | nack
  /-- The data register that the test access port puts between TDI and TDO: IDCODE, or the bypass bit. -/
  | jtag (val : Nat)
  deriving DecidableEq, Repr

/-- What waits in a queue. -/
inductive EItem where
  | host (p : HostPkt)
  | resend (p : HostPkt) (seq : Nat)
  | nack (stream : Nat) (payload : List Byte)
  | other (o : Output)
  | line (p : LinePartial)
  deriving DecidableEq, Repr

/-- One queue of a scheduler: items oldest first with the tick they entered, tokens in units of 0.25 B, histograms. -/
structure EQueue where
  items : List (Nat × EItem)
  tokens : Int
  deficit : Nat
  fresh : Bool
  depthHist : List Nat
  delayHist : List Nat
  deriving DecidableEq, Repr

/-- The settings of a scheduler that a commit changes together (R437). -/
structure QSettings where
  overhead : Int
  quantum : Nat
  pool : Bool
  rates : List Nat
  bursts : List Nat
  weights : List Nat
  groupMap : SMap Nat
  deriving DecidableEq, Repr

/-- One egress scheduler. -/
structure Sched where
  queues : Vector EQueue 16
  ptr : Nat
  active : QSettings
  standby : QSettings
  applyNext : Bool
  /-- The message bucket of R440, in thousandths of a message, and the tick it was last filled. -/
  bucket : Nat
  policedTick : Option Nat
  /-- Tick of the last sample of the histograms. -/
  sampledTick : Nat
  deriving DecidableEq, Repr

/-- The host port. -/
structure HostPort where
  linkUp : Bool
  aligned : Bool
  /-- Tick at which alignment was lost (R285). -/
  alignTicks : Nat
  ipv4 : Nat
  ipv6 : Nat
  macLo : Nat
  macHi : Nat
  streams : SMap StreamCtx
  arrivals : List Arrival
  pfc : Vector PfcPrio 8
  /-- Our own PFC pause in force and the tick of the last frame (R254). -/
  pfcSent : Bool
  pfcTick : Nat
  icmpTick : Nat
  icmpCount : Nat
  frags : List Frags
  half : List HalfOpen
  sessions : SMap Session
  nextSession : Nat
  helloTick : Nat
  helloCount : Nat
  /-- Last tick at which a limited event was raised, by cause and stream (R294). -/
  evTick : SMap Nat
  /-- COMPLETION and ABORT packets that wait for their RESULT packets to be selected (R429). -/
  doneWait : List HostPkt
  deriving DecidableEq, Repr

end Sys2Proof.Machine
end

