-- ==== Sys2Proof/Machine/StateMem.lean ====
section
/-! DEFINITION. The state of the Cellar and of memory (07): cask lists, DRAM and SRAM contents, channels, user regions,
gleaning. -/

namespace Sys2Proof.Machine

open Sys2Proof

/-- One part of a cask class (R249, R251): casks never granted yet start at `fresh` and stand before the freed ones in the
free list; `granted` are the state bits that are set (R261); `corrupt` are casks discarded under R262. -/
structure CaskPart where
  size : Nat
  fresh : Nat
  freed : List Nat
  granted : List Nat
  discarded : List Nat
  deriving DecidableEq, Repr

/-- A cask class: its parts and threshold states (R252). -/
structure CaskClass where
  sram : CaskPart
  dram : CaskPart
  warn : Bool
  bp : Bool
  refuse : Bool
  peak : Nat
  deriving DecidableEq, Repr

/-- The Cellar. `ring` and `reorder` are bytes in use of the two areas with their threshold states (R257). -/
structure Cellar where
  classes : Vector CaskClass 8
  ringUsed : Nat
  reorderUsed : Nat
  ringWarn : Bool
  ringBp : Bool
  reorderWarn : Bool
  reorderBp : Bool
  deriving DecidableEq, Repr

/-- One LPDDR5X channel (R271 to R273). -/
structure Channel where
  trained : Bool
  refresh : Nat
  tempC : Nat
  halved : Bool
  retraining : Bool
  fails : Nat
  lost : Bool
  retrainTemp : Nat
  deriving DecidableEq, Repr

/-- A user region (R276): slot's generation, base in DRAM, size; free slots keep their generation. -/
structure Region where
  gen : Nat
  base : Nat
  size : Nat
  live : Bool
  deriving DecidableEq, Repr

/-- Memory: contents of DRAM and SRAM by byte address, poisoned words by word address, channels, regions, gleaning. -/
structure Mem where
  dram : List Host.Cell
  sram : List Host.Cell
  poison : List Nat
  channels : SMap Channel
  /-- Channels that wait to retrain while another does (R271). -/
  retrainWait : List Nat
  regions : SMap Region
  gleanPasses : Nat
  gleanGroups : Nat
  gleanCe : Nat
  gleanUe : Nat
  gleanStart : Nat
  gleanUrgent : Bool
  /-- Corrected words of the running pass by row: channel, rank, bank, row packed. -/
  weakRows : SMap Nat
  lastUe : Nat
  lastUeLatch : Nat
  deriving DecidableEq, Repr

end Sys2Proof.Machine
end

