-- ==== Sys2Proof/Machine/StateSites.lean ====
section
/-! DEFINITION. The state of line partners, of sites apart and of the shadow join (09, 14). -/

namespace Sys2Proof.Machine

open Sys2Proof

/-- A control message that waits for a control block: TYPE, numbers it carries and body bytes (R333, R334). -/
structure CtlMsg where
  ty : Nat
  fields : List Nat
  body : List Byte
  deriving DecidableEq, Repr

/-- The partner on a line port (R476 to R495). -/
structure Partner where
  paired : Bool
  linkDown : Bool
  lastGood : Nat
  /-- A DIGEST of the partner has been compared since the pairing. -/
  compared : Bool
  /-- Control messages for the next frame, those kept while link-down (R601), and those in unacknowledged blocks. -/
  ctlQueue : List CtlMsg
  kept : List CtlMsg
  ctlRing : SMap (List CtlMsg)
  ctlNext : Nat
  ctlSentTick : Nat
  /-- Last transmission of the highest unacknowledged control block, and the block that the timer of R340 has resent. -/
  ctlTopTick : Nat
  ctlTimed : Option Nat
  digestTick : Nat
  /-- Ticks since which the scope, and each group, has differed; what is fenced (R493). -/
  scopeSince : Option Nat
  scopeFenced : Bool
  groupSince : SMap Nat
  groupFenced : List Nat
  /-- Groups whose last comparison on this port agreed, or all of them. -/
  agreedAll : Bool
  agreed : List Nat
  level : Nat
  disagree : Bool
  overCount : Nat
  withinCount : Nat
  /-- No absence is declared before this tick, and the device whose pairing is accepted (R499). -/
  graceUntil : Nat
  graceDevice : List Byte
  /-- Groups for which silence has made the port's sites absent (R479). -/
  lost : List Nat
  /-- It was link-down at the last edge (R480). -/
  wasDown : Bool
  /-- Absent sites that the far member's SITE-STATEs report, by group (R479). -/
  reported : SMap Nat
  /-- Far states of coverage, newest first: FROM_SEQ by tributary and absent sites by group (R480). -/
  states : List (SMap Nat × SMap Nat)
  /-- FROM_SEQ by tributary while a SITE-ACK is awaited, and what that ACK names. -/
  holds : SMap Nat
  await : Option (Nat × Nat)
  deriving DecidableEq, Repr

/-- The absence state of a group (R479, R485, R488). -/
structure GroupSites where
  absent : Nat
  episode : Option Nat
  limitRaised : Bool
  /-- Later launches follow HOLD. -/
  hold : Bool
  /-- PRIMARY_SITE has been absent in this episode. -/
  primaryLost : Bool
  deriving DecidableEq, Repr

/-- A Silo record (R484): its entries are the exact partials pressed for its chunks, by chunk index. -/
structure SiloRec where
  group : Nat
  inst : Nat
  hash : Nat
  desc : Desc
  epoch : Nat
  cover : Nat
  ended : Bool
  /-- Final code of an abort that ended it, 0 for none. -/
  code : Nat
  lost : Bool
  poisoned : Bool
  /-- It waits for an instance slot to resume (R486). -/
  resuming : Bool
  /-- Local ranks that hold FALLOW results. -/
  ranks : List Nat
  /-- Chunks delivered to each local rank by the instance before it ended. -/
  delivered : SMap Nat
  /-- Bytes its entries take, headers included. -/
  bytes : Nat
  entries : SMap FarPart
  deriving DecidableEq, Repr

/-- A digest of the twin's that the shadow has not matched yet (R498). -/
structure TwinEntry where
  twinTick : Nat
  group : Nat
  inst : Nat
  chunk : Nat
  digest : Nat
  tick : Nat
  deriving DecidableEq, Repr

/-- The shadow join (R496 to R500). -/
structure Shadow where
  /-- 0 none, 1 shadow, 2 twin. -/
  role : Nat
  peer : List Byte
  peerSrc : Source
  session : Option Nat
  /-- The shadow's HELLO that awaits its HELLO-REPLY: identifier, the random value of its key, body. -/
  hello : Option (Nat × Nat × List Byte)
  nextReq : Nat
  eligible : Bool
  matched : Nat
  mismatches : List Nat
  waiting : List TwinEntry
  /-- Twin ticks not yet matched in full: datagrams received, their number once LAST has come (else 0), tick of the first. -/
  ticks : SMap (Nat × Nat × Nat)
  /-- First twin tick of the running count, and the latest of which every datagram has come. -/
  base : Option Nat
  last : Nat
  /-- Digests of local partials the shadow committed, not yet matched: group, instance, chunk, digest, tick. -/
  own : List (Nat × Nat × Nat × Nat × Nat)
  /-- Digests committed in the running tick, for the twin's next report. -/
  fresh : List (Nat × Nat × Nat × Nat)
  promoteAt : Option Nat
  /-- OUT_NEXT values received from the twin (R500). -/
  outNext : SMap Nat
  promoted : Bool
  deriving DecidableEq, Repr

/-- Sites apart. -/
structure Sites where
  partners : Vector Partner 4
  groups : SMap GroupSites
  silo : List SiloRec
  shadow : Shadow
  deriving DecidableEq, Repr

end Sys2Proof.Machine
end

