-- ==== Sys2Proof/Machine/StateLine.lean ====
section
/-! DEFINITION. The state of the line framer and of the line keys (09, 11): lanes, pages, tributaries, the retransmit ring,
reorder, sheaves, monitoring bins, vintages, pairing, the utility cipher engine. -/

namespace Sys2Proof.Machine

open Sys2Proof

/-! ### Tributaries -/

/-- A block in the retransmit ring (R23 step 3, R25): what it carries, coded, the raw form it can be resent in, and the
vintage count its copy lies under. -/
structure RingBlock where
  part : LinePartial
  content : List Byte
  encLen : Nat
  vcount : Nat
  blend : Nat
  sentTick : Nat
  /-- Resent once by the timer of R340. -/
  timed : Bool
  deriving DecidableEq, Repr

/-- An open NACK of a received tributary (R338). -/
structure LineNack where
  reason : Nat
  tries : Nat
  tick : Nat
  deriving DecidableEq, Repr

/-- A received line block after decryption (R328). -/
structure LineBlk where
  port : Nat
  trib : Nat
  seq : Nat
  group : Nat
  epoch : Nat
  inst : Nat
  chunk : Nat
  chunks : Nat
  hash : Nat
  flags : Nat
  declLen : Nat
  vcount : Nat
  units : Nat
  content : List Byte
  deriving DecidableEq, Repr

/-- A tributary, both directions (R325 to R341). -/
structure Trib where
  port : Nat
  queue : Nat
  engine : Nat
  /-- WINDOW of lne.trib, 0 for the default. -/
  window : Nat
  /-- Sender: next LINE_SEQ, ring copies, what the partner acknowledged, its credit in columns, resends due,
  blocks on their way out, justification accumulator in 2^−16 B. -/
  nextSeq : Nat
  ring : SMap RingBlock
  acked : Nat
  rel : Nat
  credit : Nat
  resend : List Nat
  /-- Blocks selected and not yet wholly transmitted, with the bytes left of each and whether it has begun. -/
  tx : List (Bool × List Byte)
  just : Int
  /-- Receiver: next LINE_SEQ that has not passed step 8, next to leave the reorder area, blocks held, highest that passed step 6 plus one,
  open NACKs, windows sent with their ticks, and whether an ACK is due. -/
  rxNext : Nat
  rxRel : Nat
  rxHeld : SMap LineBlk
  rxTop : Nat
  rxNacks : SMap LineNack
  /-- Blocks that have passed step 8, beyond `rxNext`. -/
  rxDone : List Nat
  windows : List (Nat × Nat)
  ackDue : Bool
  ackTick : Nat
  blockTick : Nat
  /-- Receiver, below the blocks: pieces of the frame being demapped by lane, slot and column, its pointer (offset, code,
  NJO), and the bytes of a block in progress; none while delineation is lost (R326, R327). -/
  rxPieces : SMap (List Byte)
  rxPtr : Option (Nat × Nat × List Byte)
  rxStream : Option (List Byte)
  /-- FRAME_NO of the last frame demapped whole. -/
  rxFrame : Option Nat
  deriving DecidableEq, Repr

/-! ### Pages and lanes -/

/-- A page set offered or held: its PAGE_ID and pages as bytes, in offer order (R342, R347). -/
structure PageSet where
  id : Nat
  degrOnly : Bool
  pages : List (List Byte)
  deriving DecidableEq, Repr

/-- A logical lane (R319 to R353). -/
structure Lane where
  /-- 0 top, 1 middle, 2 low, 3 XH. -/
  rate : Nat
  /-- 0 long-haul, 1 campus. -/
  fec : Nat
  phys : Nat
  spare : Bool
  txUp : Bool
  rxUp : Bool
  active : Option (List Byte)
  standby : Option (List Byte)
  /-- Degradation pages by the lane lost, 1 to 5. -/
  degrPages : SMap (List Byte)
  degr : Nat
  blanked : Bool
  /-- We report that we do not receive the partner's lane: RDI, and ticks of good frames since. -/
  rdiTx : Bool
  goodFrames : Nat
  badSlots : Nat
  /-- BIP32 of the last slot received and its errors, which REI reports. -/
  bip : Option Nat
  rei : Nat
  rxChannel : Nat
  /-- Rate mode that the marker of the last slot received shows (R369). -/
  rxRate : Nat
  /-- Frame number last received, slots in error in it, and BIP32 of the slot last sent. -/
  rxFrame : Nat
  bipTx : Nat
  /-- SNR over the report period, 0.01 dB, with its slots; uncorrectable FEC blocks; a frame that a slip discards. -/
  snrSum : Nat
  snrCount : Nat
  uncorr : Nat
  slip : Option Nat
  /-- XH column map: sheaf members as SHEAF_ID, SQ, slot, first column, columns. -/
  xh : List (Nat × Nat × Nat × Nat × Nat)
  deriving DecidableEq, Repr

/-- The line side of a port. -/
structure LPort where
  /-- RTT_P in ticks, and δ × 2^40 (R330). -/
  rtt : Nat
  delta : Int
  /-- The partner's port, as its control blocks name their tributary. -/
  peer : Option Nat
  /-- Anchor lane, rate mode and FEC code at the last sample of the port (R470). -/
  path : Option (Nat × Nat × Nat)
  /-- Offer that awaits PAGE-READY, and the set that was readied. -/
  offer : Option PageSet
  ready : Option Nat
  degrReady : Bool
  /-- Sets of the partner that this gateway holds, newest first, with the tick at which the newest arrived on every lane. -/
  rxSets : List PageSet
  rxNewTick : Option Nat
  /-- RDI bits the partner reports, and since when each has been clear again. -/
  rdiRx : Nat
  rdiClear : SMap Nat
  /-- Edge of a revert to the main page that waits (R351). -/
  revert : Option Nat
  /-- Firmware asks for a revert as soon as one is allowed (R386). -/
  revertWant : Bool
  /-- Far lanes on which a frame of the newest set has arrived (R345 step 7). -/
  rxSeen : List Nat
  degrDue : Option Nat
  doubleDue : Option Nat
  /-- Consecutive slots that failed, by our logical lane (R376). -/
  rxFailRuns : SMap Nat
  deriving DecidableEq, Repr

/-- An XH sheaf at the receiver (R354 to R356). -/
structure Sheaf where
  members : Nat
  /-- Members by MFI: sequence indicator and bytes. -/
  frames : SMap (SMap (List Byte))
  /-- Frames in a row with an inconsistent member, and the tick of the last. -/
  bad : Nat
  badTick : Option Nat
  down : Bool
  good : Nat
  firstTick : SMap Nat
  /-- Bytes of a block in progress; none while delineation is lost. -/
  stream : Option (List Byte)
  deriving DecidableEq, Repr

/-- One monitoring bin (R357 to R360): scope, kind, start second, SUSPECT, counters, thresholds already reported. -/
structure PmBin where
  /-- 0 to 4 lanes, 16 + TRIB tributaries. -/
  scope : Nat
  /-- 0 a quarter of an hour, 1 a day. -/
  kind : Nat
  start : Nat
  suspect : Bool
  counts : List Int
  reported : List Nat
  deriving DecidableEq, Repr

/-- The running second of a scope (R358). -/
structure PmSecond where
  errored : Bool
  badStreak : Nat
  goodStreak : Nat
  unavailable : Bool
  frames : Nat
  badFrames : Nat
  defect : Bool
  /-- Errored seconds among those of `goodStreak`. -/
  goodErr : Nat
  deriving DecidableEq, Repr

/-- The line framer. -/
structure Line where
  lanes : Vector Lane 5
  ports : Vector LPort 4
  tribs : SMap Trib
  nextPage : Nat
  /-- Why firmware staged the standby set and commits it by itself: 1 rate change, 2 double loss, 3 training, 4 swap or takeover,
  5 the set again without its guard; 0 where the host staged it. -/
  autoCommit : Nat
  sheaves : SMap Sheaf
  bins : List PmBin
  seconds : SMap PmSecond
  /-- Thresholds by scope and counter, kind in the low bit. -/
  thresholds : SMap Nat
  pmStart : Nat
  /-- Second of the time counter last evaluated. -/
  pmSec : Nat
  /-- Delineated blocks that wait to be checked: port and bytes. -/
  rxBlocks : List (Nat × List Byte)
  /-- Blocks that have left the reorder area and await the descriptor by which step 8 decodes them. -/
  rxWait : List LineBlk
  deriving DecidableEq, Repr

/-! ### Keys -/

/-- The key state of a port (R392 to R415). -/
structure PortKeys where
  /-- 0 unpaired, 1 hello, 2 encap, 3 confirm, 4 paired, 5 backoff. -/
  st : Nat
  initiator : Bool
  lastFail : Nat
  partnerId : List Byte
  partnerStart : Nat
  level : Nat
  /-- Messages of the pairing under way: own and partner's hello bodies, the own encapsulation
  body and its secret. -/
  hello : List Byte
  helloRx : List Byte
  encap : List Byte
  ssOwn : List Byte
  /-- The random value of the own encapsulation key. -/
  kemSeed : Nat
  /-- The value expected in the partner's P-CONFIRM. -/
  confirm : List Byte
  helloTick : Nat
  stepTick : Nat
  fails : Nat
  retryAt : Nat
  /-- The partner proved by the pairing under way: DEVICE_ID and START_ID. -/
  newId : List Byte
  newStart : Nat
  /-- TX_COUNTER by engine. -/
  txCounters : SMap Nat
  txCount : Nat
  txVs : List Byte
  txKeys : SMap (List Byte)
  txBlocks : Nat
  txSince : Nat
  /-- Racking: the switch edge of the next count. -/
  racking : Option Nat
  rxCount : Nat
  rxVs : List Byte
  rxKeys : SMap (List Byte)
  rxNext : Bool
  /-- Tick at which the window of the previous vintage closes. -/
  window : Option Nat
  tagFails : Nat
  tagTick : Option Nat
  pairBlocks : Nat
  pairFrom : Nat
  /-- Frames arrive since the last good block. -/
  framesArrive : Bool
  deriving DecidableEq, Repr

/-- The utility cipher engine (R418, R419). -/
structure Uce where
  owner : Nat
  busy : Bool
  pending : Nat
  gen : Nat
  opTick : Nat
  deriving DecidableEq, Repr

/-- Keys, certificates and the utility engine. -/
structure Sec where
  ports : Vector PortKeys 4
  startId : Nat
  anchor : Option (List Byte)
  anchorKey : List Byte
  chain : List (List Byte)
  enrolled : Bool
  uce : Uce
  deriving DecidableEq, Repr

end Sys2Proof.Machine
end

