-- ==== Sys2Proof/Machine/StateOpt.lean ====
section
/-! DEFINITION. The state of the optical lanes (10): physical lanes with their monitors and loops, channels, the spare swap. -/

namespace Sys2Proof.Machine

open Sys2Proof

/-- A physical lane (R362 to R391). Powers are in the units of the registers that show them. -/
structure PhysLane where
  txFailed : Bool
  rxLos : Bool
  rxLof : Bool
  blanked : Bool
  retired : Bool
  locked : Bool
  lossStage : Nat
  txChannel : Nat
  loChannel : Nat
  measPwr : Int
  biasTx : Nat
  biasLo : Nat
  bolTx : Nat
  bolLo : Nat
  /-- Stages 1 to 6 and the LO output, in 0.25 dBm. -/
  stages : List Int
  loOut : Int
  /-- Setting of the VOA, in 0.25 dB. -/
  voa : Int
  lockerOfs : Int
  coarseOfs : Int
  /-- SNR this receiver measures, and the margin the partner last reported for this transmitter, with its SNR, in 0.01 dB. -/
  rxSnr : Nat
  snr : Nat
  margin : Int
  /-- A margin report has been counted. -/
  reported : Bool
  /-- Reports in a row below DOWN; reports in a row that allow middle, and top, as a higher mode (R366). -/
  downRun : Nat
  upMiddle : Nat
  upTop : Nat
  floorTick : Option Nat
  /-- Monitor stages excluded from location (R379). -/
  excluded : List Nat
  /-- Tick at which the lane came up, and the span baseline taken 60 s later (R378). -/
  upTick : Option Nat
  baseline : Option Int
  /-- Slots in a row whose RX_CH_REPORT names another channel (R384). -/
  farRun : Nat
  blankTicks : List Nat
  /-- Tick of the blanking that a relock ends, and the tick by which the far check must pass after a revert (R386). -/
  relockFrom : Option Nat
  farBy : Option Nat
  /-- Tick of the failure that a takeover ends (R505). -/
  failTick : Option Nat
  /-- Means of TX bias, LO bias and MARGIN over one minute each, newest first (R380). -/
  means : List (Int × Int × Int)
  /-- Sums over the running minute: margins reported, TX and LO bias read, with their counts. -/
  marginSum : Int
  marginCount : Nat
  biasTxSum : Nat
  biasLoSum : Nat
  biasCount : Nat
  /-- Source contexts of the receiver: port, far lane, tick last heard (R373, R374). -/
  contexts : List (Nat × Nat × Nat)
  deriving DecidableEq, Repr

/-- A swap under way (R382): the logical lane, the physical lane it leaves, the step, when the step began, margins of training
and the lane's own, and whether steps 3 and 4 are left out (R387). -/
structure Swap where
  lane : Nat
  old : Nat
  spare : Nat
  step : Nat
  tick : Nat
  sum : Int
  count : Nat
  short : Bool
  /-- The lane's main page before training. -/
  page : List Byte
  deriving DecidableEq, Repr

/-- The optics. -/
structure Opt where
  phys : Vector PhysLane 5
  /-- CH[k] by logical lane (R371), and the code each takes at the next page commit (R364). -/
  channels : Vector Nat 5
  fecNext : SMap Nat
  swap : Option Swap
  /-- A stopped swap's evaluation is repeated from this tick; the logical lane it was for (R383). -/
  retryAt : Option Nat
  retryLane : Nat
  fadeTick : Nat
  deriving DecidableEq, Repr

end Sys2Proof.Machine
end

