-- ==== Sys2Proof/Machine/StateSys.lean ====
section
/-! DEFINITION. The state of events, the Ledger, the Barn, the Vintner pairs (15), bring-up (16), and management and
firmware (17). -/

namespace Sys2Proof.Machine

open Sys2Proof

/-- Instructions of the test access port (R577); any instruction outside the public ones selects BYPASS. -/
inductive JtagIr where
  | bypass | idcode | samplePreload | extest | highz | clamp | other
  deriving DecidableEq, Repr

/-- An event record (R515). -/
structure EventRec where
  seq : Nat
  tick : Nat
  code : Nat
  args : List Nat
  deriving DecidableEq, Repr

/-- A Ledger record (R521). -/
structure LedgerRec where
  stream : Nat
  kind : Nat
  index : Nat
  tick : Nat
  time : Nat
  code : Nat
  boot : Nat
  fwVersion : Nat
  body : List Byte
  chain : List Byte
  deriving DecidableEq, Repr

/-- One stream of the Ledger: records kept, oldest first, the next INDEX, the first INDEX not yet sealed and the tick
from which a seal is due (R520, R524). -/
structure LedgerStream where
  recs : List LedgerRec
  next : Nat
  chain : List Byte
  unsealed : Nat
  sealTick : Nat
  deriving DecidableEq, Repr

/-- A capture slot of the Barn: header fields of R528 and its contents. -/
structure BarnSlot where
  valid : Bool
  complete : Bool
  ueSeen : Bool
  read : Bool
  seq : Nat
  tick : Nat
  time : Nat
  cause : Nat
  boot : Nat
  fwVersion : Nat
  sections : List (Nat × Nat × Nat)
  length : Nat
  ueWords : Nat
  laterFatals : Nat
  ledgerIndex : Nat
  deriving DecidableEq, Repr

/-- Faults, events, Ledger, Barn, Vintner pairs. -/
structure Flt where
  /-- Newest first, at most 4,096 (R516). -/
  ring : List EventRec
  seq : Nat
  seqLatch : Nat
  counts : SMap Nat
  ledgerC : LedgerStream
  ledgerF : LedgerStream
  ledgerFFull : Bool
  /-- Class 0x4 records written in the running second, those dropped by code, and the tick of the last EV_LEDGER_DROPPED. -/
  warnCount : Nat
  dropped : SMap Nat
  dropEvTick : Option Nat
  fatal : Bool
  fatalCause : Nat
  fatalTick : Nat
  fatalDone : Bool
  barn : Vector BarnSlot 2
  barnSeq : Nat
  capturing : Option Nat
  holdupPct : Nat
  holdUs : Nat
  vintnerActive : Nat
  vintnerSingle : Bool
  /-- Firmware runs; while it restarts mailboxes do not answer and records are held (R513, R516). -/
  vintnerUp : Bool
  vintnerHeld : Nat
  /-- The standby pair can take over (R512). -/
  vintnerStandby : Bool
  /-- The input supply has failed (R525, R593). -/
  supplyLost : Bool
  restarts : List Nat
  suspects : List (Nat × Nat)
  deriving DecidableEq, Repr

/-- A PTP master heard of (R464): the data set that the best master clock algorithm compares, and when it was last heard. -/
structure PtpMaster where
  identity : Nat
  portNumber : Nat
  priority1 : Nat
  clockClass : Nat
  accuracy : Nat
  variance : Nat
  priority2 : Nat
  gmIdentity : Nat
  stepsRemoved : Nat
  logAnnounce : Int
  logMinDelayReq : Int
  transport : Nat
  announces : List Nat
  deriving DecidableEq, Repr

/-- The PTP exchange under way (R465): stamps in 2^−16 ns and correction fields. -/
structure PtpEx where
  /-- SequenceId of a two-step Sync that awaits its Follow_Up. -/
  syncSeq : Option Nat
  t1 : Option Nat
  t2 : Option Nat
  cs : Int
  reqSeq : Nat
  t3 : Option Nat
  nextReq : Nat
  deriving DecidableEq, Repr

/-- The receive stamp of a frame (R468): FRAME_NO, the time counter in 2^−16 ns, local ticks in 1/64 of an engine cycle, and
the steps of the counter so far. -/
structure RxStamp where
  frame : Nat
  stamp : Nat
  local_ : Nat
  steps : Nat
  deriving DecidableEq, Repr

/-- Line time transfer on a port (R467 to R469): send stamps of own reference frames with the steps of the counter then, receive
stamps of the last 16 frames, the partner's latest reference frame, its STEP_COUNT, and the spans between its reference frames as
deviations × 2^40. -/
structure PortTime where
  tx : SMap (Nat × Nat)
  rx : List RxStamp
  peerRef : Option RxStamp
  peerStep : Option Nat
  spanFrom : Option (Nat × Nat)
  spans : List Int
  theta : Int
  deriving DecidableEq, Repr

/-- A pulse output (R471, R472): the programming in force and the next pulse. -/
structure Pulse where
  mode : Nat
  start : Nat
  period : Nat
  next : Option Nat
  deriving DecidableEq, Repr

/-- A reference input (R446): good, windows without fault since it failed, deviations of the last window in 0.1 ppm. -/
structure RefIn where
  ok : Bool
  windows : Nat
  vsXtal : Int
  vsOther : Int
  deriving DecidableEq, Repr

/-- Time and clocks. The counter is in units of 2^−48 ns; f and the integrator in 2^−32 ppb; offsets in 2^−16 ns. -/
structure TimeSt where
  counter : Nat
  valid : Bool
  /-- 0 FREE, 1 QUALIFYING, 2 LOCKED, 3 HOLDOVER, 4 JUMP_PENDING. -/
  servo : Nat
  f : Int
  integ : Int
  /-- Samples held, newest first. -/
  samples : List Int
  refused : Nat
  lastAccepted : Nat
  outSince : Option Nat
  theta : Int
  /-- A step at the next edge: an absolute V, or the offset to take away. -/
  stepTo : Option Nat
  stepBy : Option Int
  steps : Nat
  masters : List PtpMaster
  master : Option PtpMaster
  ptp : PtpEx
  ports : Vector PortTime 4
  pulses : Vector Pulse 4
  refs : Vector RefIn 2
  /-- 0 REFA, 1 REFB, 2 the internal clock. -/
  source : Nat
  /-- A change of source at the next edge, and whether R449 makes it. -/
  selectNext : Option (Nat × Bool)
  xtalOk : Bool
  xtalFailed : Bool
  nowSecLatch : Nat
  nowHiLatch : Nat
  deriving DecidableEq, Repr

/-- A readiness reason recorded (R550, R554): code, subject, expected and found values. -/
structure Reason where
  code : Nat
  subject : Nat
  expected : Nat
  found : Nat
  deriving DecidableEq, Repr

/-- Bring-up and readiness (16). -/
structure Bru where
  /-- Straps latched (R534): DIE_SEL, STEP_EN, MEM_QUICK, RECOVERY. -/
  straps : Nat
  /-- Step in progress, when it began, and whether the sequence runs, is done or has stopped. -/
  step : Nat
  stepTick : Nat
  running : Bool
  stopped : Bool
  stepped : Bool
  warm : Bool
  quick : Bool
  waiting : Bool
  ready : Bool
  notReady : Bool
  readyNext : Bool
  recheckNext : Bool
  endWaitNext : Bool
  reasons : List Reason
  /-- Reasons found by the steps, which the check records. -/
  found : List Reason
  /-- Codes of reasons for which a happening of their kind has come since the last check (R552). -/
  happened : List Nat
  lastStep : Nat
  lastWave : Nat
  result : Nat
  detail : Nat
  /-- Next wave and die of step 4, and when the last wave began. -/
  wave : Nat
  waveDie : Nat
  waveTick : Nat
  lanesUp : List Nat
  spareUp : Bool
  /-- The stored manifest (R548). -/
  manifest : Option (List Byte)
  memFull : Bool
  memQuick : Bool
  failChannels : Nat
  /-- Soft repair map: retired cores and clusters as die × 2^20 + cluster × 2^9 + core, and die × 2^11 + cluster. -/
  softCores : List Nat
  softClusters : List Nat
  /-- Rails within ±3% (R573) and DRAM packages found. -/
  railsOk : Bool
  packages : Nat
  dramGb : Nat
  deriving DecidableEq, Repr

/-- A mailbox (R314, R559, R561): the session and request it last took, the request's command and arguments while it waits or
runs, and the stored response. -/
structure Mbx where
  session : Nat
  seq : Nat
  waiting : Bool
  /-- The request runs on until something else happens (R237). -/
  deferred : Bool
  code : Nat
  token : Nat
  args : List Byte
  resp : Option (List Byte)
  deriving DecidableEq, Repr

/-- A firmware slot (R571, R572): state and contents by offset. -/
structure FwSlot where
  state : Nat
  data : List Host.Cell
  deriving DecidableEq, Repr

/-- Management and firmware. -/
structure Mgt where
  fwVersion : Nat
  boot : Nat
  deviceId : List Byte
  mbx : Vector Mbx 8
  /-- Mailboxes whose requests wait, in order of arrival. -/
  order : List Nat
  sysLock : Bool
  lockNext : Bool
  ownerLock : Bool
  slots : Vector FwSlot 2
  active : Nat
  trial : Bool
  fellBack : Bool
  recovery : Bool
  dead : Bool
  /-- A start that begins at the next edge (R533, R574). -/
  startNext : Bool
  idHiLatch : Nat
  /-- The instruction in force at the test access port (R577). -/
  jtag : JtagIr
  /-- What the telemetry port gives: commands 0x00 to 0x08, the voltages of rails 0 to 14 (0x10 + 2r), and their currents
  (0x30 + 2r) (R576). -/
  telemetry : List Nat
  deriving DecidableEq, Repr

end Sys2Proof.Machine
end

