-- ==== Sys2Proof/Syntax.lean ====
section
/-! DEFINITION. The commands of the device: one constructor per row of the opcode table, with the operands a command
brings from outside. -/

namespace Sys2Proof

open Sys2Proof.Machine

/-- A reading of a physical lane's monitors (R377): stages 1 to 6 and the LO output in 0.25 dBm, the VOA in 0.25 dB, launch power
in 0.1 dBm, laser bias in 0.1 mA. -/
structure LaneReading where
  stages : List Int
  loOut : Int
  voa : Int
  power : Int
  biasTx : Nat
  biasLo : Nat
  deriving DecidableEq, Repr

/-- A check that fails during a pressing, or a core that a spot check names: die, cluster and core, with what the core's history
records (R46, R81, R506, R509); the row it failed on, the cycle of the pressing at which it was detected and the cycles its
re-execution takes; and whether the cluster's sequencer failed, which re-queues every unit in the cluster. -/
structure CheckFail where
  die : Nat
  cluster : Nat
  core : Nat
  kind : Nat
  temp : Nat
  railMv : Nat
  sig : Nat
  group : Nat
  inst : Nat
  chunk : Nat
  row : Nat
  cycle : Nat
  cost : Nat
  sequencer : Bool
  deriving DecidableEq, Repr

/-- What a bring-up step found (R536 to R545): whether it completed, and what it was concerned with where it did not; the straps of
step 1; whether every rail is within ±3%, and charge and hold time of the hold-up store; data lanes each die's link trained with, by die, to and from the hub, at step 3; cores and clusters that failed
the self-test of step 4, SRAM rows repaired, whether a macro ran out of spare rows or hub logic failed; channels that failed
training, packages and their capacity at step 5; rows repaired and channels that still fail at step 6; lanes available and the
spare at step 8. -/
structure StepReport where
  ok : Bool
  detail : Nat
  straps : Nat
  railsOk : Bool
  holdupPct : Nat
  holdUs : Nat
  links : List (Nat × Nat × Nat)
  cores : List (Nat × Nat × Nat)
  clusters : List (Nat × Nat)
  sramRows : Nat
  selfTestBad : Bool
  channels : List Nat
  packages : Nat
  dramGb : Nat
  repaired : Nat
  failChannels : List Nat
  lanes : List Nat
  spare : Bool
  deriving DecidableEq, Repr

/-- What an uncorrectable word of memory belongs to (R275, R281), as the read that meets it knows: a staged packet of a member's DATA, by
stream, sequence, group, instance, chunk and rank; a RESULT kept for a member; a block of the reorder area or of the ring, by tributary
and sequence; a held partial or full-width row, or a word of a user region, with the instance that reads it; a group's table, a stream's
context or another device table, with whether copy B is uncorrectable too; a Silo record; a Barn slot; nothing that is in use. -/
inductive WordUse where
  | staged (stream seq group inst chunk rank : Nat)
  | kept (stream seq : Nat)
  | reorder (trib seq : Nat)
  | ring (trib seq : Nat)
  | row (group inst : Nat)
  | region (group inst : Nat)
  | groupTable (group : Nat) (bothLost : Bool)
  | streamTable (stream : Nat) (bothLost : Bool)
  | otherTable (bothLost : Bool)
  | silo (group inst : Nat)
  | barn (slot : Nat)
  | unused
  deriving DecidableEq, Repr

/-- The commands of the device. -/
inductive Instr where
  /-- TICK_EDGE (R198): At each tick edge the device counts the previous tick's arrivals, applies aborts, commits launches, evaluates fences and builds the pressing list, in the fixed order. -/
  | tickEdge
  /-- COMMIT_APPLY (R178): Staged items named for a commit edge take effect together as one step when that edge arrives. -/
  | commitApply
  /-- INSTANCE_TIMEOUT (R200): An open or committed instance that is not arrival-complete, or is waiting, is aborted with TIMEOUT when its timeout expires. -/
  | instanceTimeout
  /-- PRESSING_START (R43): 64 engine cycles after the edge, every cluster starts the pressing of the tick, running decode, press and encode phases. -/
  | pressingStart (fails : List CheckFail)
  /-- PRESSING_WINDOW_END (R47): At the end of the window, every uncommitted row is discarded, re-queued and its re-queue count incremented. -/
  | pressingWindowEnd
  /-- SPOT_CHECK (R82): In each tick that is a multiple of 16, one cluster's work is re-executed on another die and the digests compared. -/
  | spotCheck (die cluster die2 cluster2 outcome : Nat) (cores : List CheckFail)
  /-- TRELLIS_MESSAGE (R61): A cluster compares the copies of a Trellis message from trees A and B and acts on one, or on neither. -/
  | trellisMessage (die cluster : Nat) (isEdge : Bool) (copyA copyB : Option Nat)
  /-- DIE_LINK_FLIT_CRC_FAIL (R66): A die-link flit that fails its CRC is replayed, and eight failed replays start retraining. -/
  | dieLinkFlitCrcFail (die : Nat) (replayFails : Bool)
  /-- DIE_LINK_RETRAIN_DONE (R67): A die link's 2-tick retraining ends and operand data crosses it again. -/
  | dieLinkRetrainDone (die : Nat)
  /-- DIE_LINK_LANE_SPARE (R68): A die-link lane whose error rate exceeds 1e-9 over 1 s is replaced with a spare at the next edge. -/
  | dieLinkLaneSpare (die : Nat) (toDie : Bool)
  /-- POWER_CAP_INTERVAL (R76): At the end of each measurement interval each die's budget B is lowered, raised or kept against CAP_W. -/
  | powerCapInterval (powerDw : List Nat)
  /-- CAP_FLOOR_EVENT (R77): A die at its floor with power above the cap for 1,000 consecutive ticks raises EV_PRESS_CAP_FLOOR. -/
  | capFloorEvent (die : Nat)
  /-- TEMP_SENSOR_READ (R80): Every 250 ticks the die sensors are read and B is dropped, recovered or the die stopped by temperature. -/
  | tempSensorRead (die : Nat) (readings : List Nat)
  /-- RAIL_DROOP (R81): A Press rail droop below 95% stalls cluster issue for 16 cycles. -/
  | railDroop (die : Nat)
  /-- RETIREMENT_APPLY (R70): A core or cluster retirement takes effect at its named tick and the cluster's staged units are re-queued. -/
  | retirementApply (die cluster : Nat) (core : Option Nat)
  /-- QUARANTINE_END (R510): A fenced core returns to use when its quarantine period ends. -/
  | quarantineEnd (die cluster core : Nat)
  /-- PRESS_ENABLE_WRITE (R85): A write to PRS_CTRL.ENABLE starts pressing at the next edge, or stops it after the pressing in progress. -/
  | pressEnableWrite (on : Bool)
  /-- DATA (R186): A member DATA packet is sequenced and checked, then staged and counted toward its chunk. -/
  | data (src : Source) (udp : List Byte)
  /-- LAUNCH (R195): A member LAUNCH is sequenced and checked, setting or matching the instance's reference. -/
  | launch (src : Source) (udp : List Byte)
  /-- MEMBER_ABORT (R206): A member ABORT aborts the instance for every member with MEMBER_ABORT. -/
  | memberAbort (src : Source) (udp : List Byte)
  /-- MEMBER_NACK (R304): A member NACK of REASON 1 makes the device resend the listed outbound packets it holds, or answer GONE. -/
  | memberNack (src : Source) (udp : List Byte)
  /-- MEMBER_ACK (R303): A member acknowledgement advances the stream's acknowledged point and releases retained outbound packets. -/
  | memberAck (src : Source) (udp : List Byte)
  /-- HOST_NACK_REPEAT (R301): The NACK for the oldest open gap is repeated every NACK_RETRY ticks until NACK_MAX repeats. -/
  | hostNackRepeat (stream : Nat)
  /-- HOST_ACK_INTERVAL (R302): A stream that has counted packets is acknowledged once ACK_INTERVAL ticks have passed since its last acknowledgement. -/
  | hostAckInterval (stream : Nat)
  /-- RESULT_HOLD_EXPIRE (R303): A retained RESULT is released when HST_OUT_HOLD ticks have passed since it was sent. -/
  | resultHoldExpire (stream seq : Nat)
  /-- PFC_FRAME_RX (R307): A received PFC frame pauses the enabled priorities for the stated quanta. -/
  | pfcFrameRx (enabled : Nat) (quanta : List Nat)
  /-- PFC_PAUSE_EXPIRE (R307): A priority's pause time runs out and the scheduler serves its queues again. -/
  | pfcPauseExpire (prio : Nat)
  /-- PFC_WATCHDOG (R307): A priority paused without a break for HST_PFC_WD ticks raises EV_PFC_STORM and its PFC frames are ignored. -/
  | pfcWatchdog (prio : Nat)
  /-- PFC_REFRESH (R254): While a cask class is at or above BP the host port repeats its PFC pause frame every 5 ticks. -/
  | pfcRefresh
  /-- PFC_DISABLE_WRITE (R254): Clearing CLR_CTRL.PFC_EN during a pause sends one frame with pause time 0 and stops PFC. -/
  | pfcDisableWrite
  /-- ARP_REQUEST (R287): An ARP request for the device's IPv4 address is answered. -/
  | arpRequest (target sender : Nat)
  /-- NEIGHBOUR_SOLICITATION (R287): An IPv6 neighbour solicitation for a device address is answered. -/
  | neighbourSolicitation (target sender : Nat)
  /-- ICMP_ECHO (R287): An echo request is answered, up to 100 per second while ICMP_EN is 1. -/
  | icmpEcho (src : Source) (dst : Nat) (payload : List Byte)
  /-- OTHER_FRAME_DISCARD (R287): Any other received frame, PAUSE included, is discarded and counted. -/
  | otherFrameDiscard (cause corrected : Nat)
  /-- HOST_ALIGNMENT_LOSS (R285): The host PCS loses alignment and the link-down count begins. -/
  | hostAlignmentLoss
  /-- HOST_LINK_DOWN (R285): Alignment lost for 5 ticks declares the host link down and starts retraining. -/
  | hostLinkDown
  /-- HOST_LINK_UP (R285): Alignment held for 5 ticks after training declares the host link up. -/
  | hostLinkUp
  /-- PTP_ANNOUNCE (R464): An Announce message feeds the best master clock algorithm. -/
  | ptpAnnounce (domain transport : Nat) (m : PtpMaster)
  /-- ANNOUNCE_RECEIPT_TIMEOUT (R464): The announce receipt timeout of the current master expires. -/
  | announceReceiptTimeout
  /-- PTP_SYNC (R465): A Sync message is stamped as t2 and its t1 taken for the next sample. -/
  | ptpSync (domain transport identity port seq : Nat) (twoStep : Bool) (t1 : Nat) (corr : Int) (off : Nat)
  /-- PTP_FOLLOW_UP (R465): A Follow_Up supplies t1 of a two-step Sync. -/
  | ptpFollowUp (domain transport identity port seq t1 : Nat) (corr : Int)
  /-- DELAY_REQ_SEND (R464): A Delay_Req is sent at the master's logMinDelayReqInterval and stamped as t3. -/
  | delayReqSend
  /-- PTP_DELAY_RESP (R465): A Delay_Resp supplies t4 and completes one PTP offset sample. -/
  | ptpDelayResp (domain transport identity port seq t4 : Nat) (corr : Int)
  /-- HOST_EGRESS_SELECT (R434): When the host MAC can start a frame, the scheduler selects a packet and assigns its STREAM_SEQ. -/
  | hostEgressSelect (off : Nat)
  /-- LINE_BLOCK_SELECT (R430): When a tributary can take a block, the port scheduler selects one and gives it its TRIB and LINE_SEQ. -/
  | lineBlockSelect (port : Nat)
  /-- TOKEN_REFILL (R436): At each edge each shaped queue's tokens are refilled by RATE/4 bytes up to BURST. -/
  | tokenRefill (sched queue : Nat)
  /-- QUEUE_SAMPLE (R441): Every QOS_SAMPLE ticks each queue's depth and head delay are added to its histograms. -/
  | queueSample
  /-- MBX_HELLO (R311): A HELLO fragment is reassembled and, when complete, verified and answered with HELLO-REPLY. -/
  | mbxHello (src : Source) (udp : List Byte)
  /-- HELLO_REASSEMBLY_TIMEOUT (R311): A HELLO body not complete within 1 s of its first fragment is discarded. -/
  | helloReassemblyTimeout
  /-- HALF_OPEN_EXPIRE (R311): A half-open session state not finished within 1 s is discarded. -/
  | halfOpenExpire
  /-- MBX_FINISH (R311): A FINISH whose tag verifies opens the session. -/
  | mbxFinish (src : Source) (udp : List Byte)
  /-- MBX_REQUEST (R314): A REQUEST datagram runs in its mailbox, repeats the stored response, or is answered busy. -/
  | mbxRequest (udp : List Byte)
  /-- MBX_CLOSE (R313): A CLOSE ends the session. -/
  | mbxClose (udp : List Byte)
  /-- SESSION_IDLE_TIMEOUT (R313): A session with no datagram for 60 s ends. -/
  | sessionIdleTimeout (sid : Nat)
  /-- MBX_BULK (R316): A BULK datagram carries region data or a cumulative acknowledgement of a bulk transfer. -/
  | mbxBulk (udp : List Byte)
  /-- BULK_RESEND (R316): Unacknowledged BULK datagrams are resent after 50 ms. -/
  | bulkResend (sid : Nat)
  /-- MBX_TWIN (R497): A TWIN datagram carries the twin's digests of committed local partials to the shadow. -/
  | mbxTwin (udp : List Byte)
  /-- TWIN_UNMATCHED_EXPIRY (R498): An entry left unmatched for 1,000 ticks resets the shadow's matched count. -/
  | twinUnmatchedExpiry
  /-- SYS_IDENTITY (R564): Returns MGT_ID, DEVICE_ID, the running version and the device certificate. -/
  | sysIdentity (mbx : Nat)
  /-- SYS_NET_SET (R286): Sets the device's IPv4 address and IPv6 global address. -/
  | sysNetSet (mbx ipv4 ipv6 : Nat)
  /-- SYS_COMMIT (R178): Names a commit edge for up to 16 staged items. -/
  | sysCommit (mbx : Nat) (byTime : Bool) (at_ : Nat) (items : List StagedItem)
  /-- SYS_WITHDRAW (R179): Withdraws a staged commit before its edge. -/
  | sysWithdraw (mbx id : Nat)
  /-- SYS_EVENT_SUBSCRIBE (R516): Subscribes the session to events from a SEQ and class. -/
  | sysEventSubscribe (mbx seq cls : Nat)
  /-- SYS_RESET (R533): Starts a warm start of the device. -/
  | sysReset (mbx : Nat)
  /-- SYS_READY_REASONS (R554): Returns BRU_STATUS and the recorded readiness reasons. -/
  | sysReadyReasons (mbx : Nat)
  /-- SYS_MANIFEST_INSTALL (R549): Checks and stores a new expected manifest. -/
  | sysManifestInstall (mbx region off len : Nat)
  /-- SYS_MANIFEST_READ (R549): Returns the stored manifest into a region. -/
  | sysManifestRead (mbx region off : Nat)
  /-- SYS_SHADOW_JOIN (R496): Puts the device into shadow mode against a named twin. -/
  | sysShadowJoin (mbx : Nat) (peer : List Byte) (src : Source)
  /-- SYS_SHADOW_ACCEPT (R496): Makes the device the twin of a named shadow. -/
  | sysShadowAccept (mbx : Nat) (peer : List Byte) (src : Source)
  /-- SYS_SHADOW_PROMOTE (R499): Checks and accepts promotion of the shadow at a named time, sending PROMOTE on each paired port. -/
  | sysShadowPromote (mbx at_ : Nat) (peerOk : Bool)
  /-- SYS_LOCK (R567): Requests the system lock at the next edge. -/
  | sysLock (mbx : Nat)
  /-- SYSTEM_LOCK_APPLY (R567): The system lock takes effect at the edge after sys.lock. -/
  | systemLockApply
  /-- GRP_STAGE (R173): Validates and stages a standby version of a group table. -/
  | grpStage (mbx : Nat) (entry : List Byte) (members : List (List Byte))
  /-- GRP_READ (R597): Returns a group's table versions. -/
  | grpRead (mbx group : Nat)
  /-- GRP_STREAM_OPEN (R296): Opens a stream context with its endpoint and initial sequences. -/
  | grpStreamOpen (mbx stream endpoint : Nat) (v6 : Bool) (port addr inInit outInit : Nat)
  /-- GRP_STREAM_CLOSE (R296): Closes a stream that no group version names. -/
  | grpStreamClose (mbx stream : Nat)
  /-- OP_STAT (R565): Returns an instance's completion payload and statistics block. -/
  | opStat (mbx group inst : Nat)
  /-- OP_LIST (R564): Lists the instances held. -/
  | opList (mbx first : Nat)
  /-- OP_ABORT (R198): Aborts a live instance with HOST_ABORT at the next edge. -/
  | opAbort (mbx group inst : Nat)
  /-- PROG_LOAD (R162): Checks a program image and loads it, or stages it as a standby copy. -/
  | progLoad (mbx id region off len : Nat)
  /-- PROG_UNLOAD (R166): Unloads a program that no instance in flight uses. -/
  | progUnload (mbx id : Nat)
  /-- PROG_LIST (R564): Lists resident programs. -/
  | progList (mbx : Nat)
  /-- CEL_REGION_CREATE (R276): Creates a zeroed user region and returns its handle. -/
  | celRegionCreate (mbx size : Nat)
  /-- CEL_REGION_FREE (R277): Frees a user region not named by an instance in flight. -/
  | celRegionFree (mbx handle : Nat)
  /-- CEL_REGION_READ (R277): Reads up to 4,064 B of a user region. -/
  | celRegionRead (mbx handle off len : Nat)
  /-- CEL_REGION_WRITE (R277): Writes up to 4,064 B of a user region not in use. -/
  | celRegionWrite (mbx handle off : Nat) (data : List Byte)
  /-- CEL_REGION_BULK (R316): Opens a bulk transfer to or from a region. -/
  | celRegionBulk (mbx handle off len : Nat) (sending : Bool)
  /-- MEM_INFO (R269): Reports the placement of channel addresses and memory information. -/
  | memInfo (mbx : Nat)
  /-- LNE_TRIB (R325): Binds an exchange tributary to a port and queue, and sets its window. -/
  | lneTrib (mbx trib port queue window : Nat)
  /-- LNE_PAGE_STAGE (R345): Checks and stages a standby main page and starts its offer to the partner. -/
  | lnePageStage (mbx lane : Nat) (page : List Byte)
  /-- LNE_PM_READ (R359): Returns a performance monitoring bin record. -/
  | lnePmRead (mbx scope kind back : Nat)
  /-- LNE_PM_THRESH (R360): Sets threshold-crossing levels for performance counters. -/
  | lnePmThresh (mbx scope counter kind value : Nat)
  /-- LNE_XH (R353): Sets the fixed column map of an XH-mode lane. -/
  | lneXh (mbx lane : Nat) (map : List (Nat × Nat × Nat × Nat × Nat))
  /-- OPT_LANE_FEC (R364): Sets a lane's FEC code through the page steps. -/
  | optLaneFec (mbx lane fec : Nat)
  /-- OPT_LANE_CHANNEL (R370): Sets a lane's channel on the flexible grid. -/
  | optLaneChannel (mbx lane channel : Nat)
  /-- SEC_ANCHOR_INSTALL (R410): Installs the owner anchor digest once. -/
  | secAnchorInstall (mbx : Nat) (cert : List Byte)
  /-- SEC_ANCHOR_REPLACE (R410): Replaces the owner anchor under a statement signed by the current anchor. -/
  | secAnchorReplace (mbx region off len : Nat)
  /-- SEC_ENROL_REQUEST (R411): Returns the device's public key and DEVICE_ID, signed. -/
  | secEnrolRequest (mbx : Nat)
  /-- SEC_ENROL_INSTALL (R411): Checks and installs the device certificate. -/
  | secEnrolInstall (mbx region off len : Nat)
  /-- SEC_ATTEST (R417): Writes a signed attestation report and chain into a region. -/
  | secAttest (mbx : Nat) (nonce : List Byte) (region off : Nat)
  /-- SEC_PAIR_RESTART (R415): Starts a new pairing of a port. -/
  | secPairRestart (mbx port : Nat)
  /-- SEC_UTIL_GCM_SEAL (R420): Seals data with AES-256-GCM on the utility engine. -/
  | secUtilGcmSeal (mbx : Nat) (key nonce : List Byte) (inp aad : Nat × Nat × Nat) (outH outOff : Nat) (fault : Bool)
  /-- SEC_UTIL_GCM_OPEN (R421): Opens AES-256-GCM data, releasing no plaintext on tag failure. -/
  | secUtilGcmOpen (mbx : Nat) (key nonce tag : List Byte) (inp aad : Nat × Nat × Nat) (outH outOff : Nat) (fault : Bool)
  /-- SEC_UTIL_CTR (R420): Runs AES-256-CTR on the utility engine. -/
  | secUtilCtr (mbx : Nat) (key counter : List Byte) (inp : Nat × Nat × Nat) (outH outOff : Nat) (fault : Bool)
  /-- SEC_UTIL_SHAKE (R420): Computes SHAKE256 on the utility engine. -/
  | secUtilShake (mbx : Nat) (inp : Nat × Nat × Nat) (outH outOff outLen : Nat) (fault : Bool)
  /-- TIM_STEP (R462): Requests a step of the time counter to a value or to the source. -/
  | timStep (mbx : Nat) (toSource : Bool) (value : Nat)
  /-- TIME_STEP_APPLY (R462): At the next edge the counter steps, time becomes valid and the servo requalifies. -/
  | timeStepApply
  /-- QOS_GROUP_MAP (R428): Stages the queue of a group at a scheduler. -/
  | qosGroupMap (mbx sched group queue : Nat)
  /-- QOS_STAGE (R437): Alters the standby copy of scheduler settings. -/
  | qosStage (mbx sched what queue value : Nat)
  /-- QOS_HIST_READ (R442): Returns and clears a queue's histograms. -/
  | qosHistRead (mbx sched queue : Nat)
  /-- FLT_EVENT_STAT (R516): Returns event counts by code. -/
  | fltEventStat (mbx : Nat) (codes : List Nat)
  /-- FLT_LEDGER_READ (R526): Reads up to 7 Ledger records of a stream. -/
  | fltLedgerRead (mbx stream first n : Nat)
  /-- FLT_BARN_LIST (R530): Lists the Barn captures. -/
  | fltBarnList (mbx : Nat)
  /-- FLT_BARN_READ (R530): Reads up to 4,064 B of a capture. -/
  | fltBarnRead (mbx slot off len : Nat)
  /-- FLT_BARN_BULK (R530): Reads a capture through the bulk stream. -/
  | fltBarnBulk (mbx slot off len : Nat)
  /-- FLT_BARN_RELEASE (R530): Clears VALID on a capture slot. -/
  | fltBarnRelease (mbx slot : Nat)
  /-- FW_INFO (R572): Returns both slot headers and states. -/
  | fwInfo (mbx : Nat)
  /-- FW_WRITE (R572): Writes up to 4,064 B into the inactive firmware slot. -/
  | fwWrite (mbx slot off : Nat) (data : List Byte)
  /-- FW_BULK (R572): Writes the inactive slot through the bulk stream. -/
  | fwBulk (mbx slot off len : Nat)
  /-- FW_VERIFY (R572): Verifies the inactive slot, marking it VERIFIED or BAD. -/
  | fwVerify (mbx slot : Nat)
  /-- FW_ACTIVATE (R573): Checks activation and marks the new slot PENDING, starting a warm start at the next edge. -/
  | fwActivate (mbx : Nat)
  /-- FW_OWNER_LOCK (R568): Sets the owner lock. -/
  | fwOwnerLock (mbx : Nat)
  /-- FW_OWNER_UNLOCK (R568): Clears the owner lock. -/
  | fwOwnerUnlock (mbx : Nat)
  /-- CMP_BLEND_INSTALL (R233): Installs a blend in a host context at the next edge, or starts a line blend handshake. -/
  | cmpBlendInstall (mbx ctx cls : Nat) (table : List Byte)
  /-- CMP_BLEND_STAGE (R233): Stages a blend to take effect at a commit edge. -/
  | cmpBlendStage (mbx ctx cls : Nat) (table : List Byte)
  /-- CMP_BLEND_RETIRE (R234): Retires a host context's previous blend at the next edge. -/
  | cmpBlendRetire (mbx ctx cls : Nat)
  /-- CMP_BLEND_READ (R245): Returns a blend table or a kept proposal. -/
  | cmpBlendRead (mbx ctx cls which : Nat)
  /-- CMP_RESYNC (R242): Clears a raw-required stream state or a class's raw hold. -/
  | cmpResync (mbx : Nat) (line : Bool) (n cls : Nat)
  /-- CLK_SELECT (R447): Selects a frequency source, effective at a tick edge. -/
  | clkSelect (mbx source : Nat)
  /-- REG_READ (R566): Performs up to 64 policed register reads. -/
  | regRead (mbx : Nat) (addrs : List Nat)
  /-- REG_WRITE (R566): Performs up to 64 policed, masked register writes. -/
  | regWrite (mbx : Nat) (writes : List (Nat × Nat × Nat))
  /-- REGISTER_WRITE (R10): A write to a register with no behaviour of its own acts by its access code. -/
  | registerWrite (addr value mask hw : Nat) (owner : Bool)
  /-- RC_COUNTER_READ (R13): A read of an RC counter returns its value and clears it. -/
  | rcCounterRead (addr : Nat) (coincide : Bool)
  /-- LATCHING_READ (R455): A read of a latching LO register latches its HI register. -/
  | latchingRead (addr : Nat)
  /-- SOURCE_SELECT_WRITE (R447): A write to CLK_CTRL.SELECT selects a frequency source if good. -/
  | sourceSelectWrite (value : Nat)
  /-- PAGE_REVERT (R351): LNE_PAGE_CMD REVERT returns a sender to the main page at a permitted edge. -/
  | pageRevert (port : Nat)
  /-- PAGE_STANDBY_DISCARD (R361): LNE_PAGE_CMD action 2 discards the standby page. -/
  | pageStandbyDiscard (port : Nat)
  /-- PAGE_REOFFER (R361): LNE_PAGE_CMD action 3 offers the active set again. -/
  | pageReoffer (port : Nat)
  /-- QOS_APPLY (R437): Writing QOS_CTRL.APPLY makes the scheduler standby copy take effect at the next edge. -/
  | qosApply
  /-- READINESS_RECHECK (R552): Writing BRU_CTRL.RECHECK runs the readiness check again at the next edge when allowed. -/
  | readinessRecheck
  /-- PAIR_WAIT_END_WRITE (R547): Writing BRU_CTRL.END_WAIT ends the pair wait at the next edge. -/
  | pairWaitEndWrite
  /-- STEP_COMMAND (R541): A BRU_STEP_CMD write runs the next bring-up step or wave in stepped mode. -/
  | stepCommand (value : Nat)
  /-- UCE_CLAIM (R419): A claim of the utility cipher lock is granted or set pending. -/
  | uceClaim (claims : List (Nat × Nat))
  /-- UCE_RELEASE (R419): The owner releases the utility cipher lock, passing it to the lowest waiting requester. -/
  | uceRelease (src gen : Nat)
  /-- UCE_LOCK_TIMEOUT (R419): An owner idle too long or running too long loses the utility engine lock. -/
  | uceLockTimeout
  /-- TIME_SOURCE_WRITE (R457): A write to TMS_SRC names a new time source and the servo requalifies. -/
  | timeSourceWrite (value : Nat)
  /-- PULSE_MODE_WRITE (R472): Writing a pulse output's MODE reprograms it from the first edge at least 100 ns later. -/
  | pulseModeWrite (k value : Nat)
  /-- CASK_REQUEST (R250): A request for n bytes receives a cask of the smallest fitting class, or is refused. -/
  | caskRequest (n : Nat) (dramOnly : Bool) (corrupt : Nat)
  /-- CASK_FREE (R261): A cask is freed to the tail of its list, or a double free is refused. -/
  | caskFree (ptr requester : Nat)
  /-- CASK_ACCESS (R259): A cask read or write is checked at the cask port and pool controller and performed or dropped. -/
  | caskAccess (ptr off len : Nat) (data : Option (List Byte)) (requester : Nat) (flips : List (Nat × Nat)) (use : WordUse)
  /-- DRAM_READ (R266): A DRAM burst read is corrected and its address parity checked. -/
  | dramRead (addr landed : Nat) (flips : List (Nat × Nat)) (use : WordUse)
  /-- GLEAN_GROUP (R279): The gleaning engine reads, corrects and writes back one check group. -/
  | gleanGroup (addr : Nat) (flips : List (Nat × Nat)) (row : Nat)
  /-- GLEAN_PERIOD_ELAPSED (R278): A gleaning period elapsing before its pass ends raises the engine's priority. -/
  | gleanPeriodElapsed
  /-- GLEAN_PASS_END (R280): A DRAM gleaning pass ends and EV_GLEAN_PASS reports its counts. -/
  | gleanPassEnd
  /-- WCK2DQ_OSCILLATOR (R271): Every 1,000 ticks each controller runs its oscillator and may start a DQ retraining. -/
  | wck2dqOscillator (drifted : List Nat)
  /-- CHANNEL_RETRAIN_DONE (R271): A channel retraining ends, or a third failure loses the channel fatally. -/
  | channelRetrainDone (channel : Nat) (ok : Bool)
  /-- MR4_READ (R272): Every 8,000 ticks each controller reads MR4 and sets refresh and throttling. -/
  | mr4Read (readings : List (Nat × Nat × Nat))
  /-- BLEND_POLICY_WINDOW (R244): At the end of each policy window the candidate blend's gain is measured and counters cleared. -/
  | blendPolicyWindow
  /-- BLEND_HANDSHAKE_TIMEOUT (R238): An offer unanswered for CMP_HS_TIMEOUT is withdrawn. -/
  | blendHandshakeTimeout
  /-- RESYNC_TIMEOUT (R241): A resynchronisation not completed in time counts toward raw hold after three. -/
  | resyncTimeout
  /-- BLEND_OFFER_RX (R235): A BLEND-OFFER is validated and held as accepted-pending, or rejected. -/
  | blendOfferRx (port : Nat) (resync : Bool) (table : List Byte)
  /-- BLEND_ACCEPT_RX (R235): A BLEND-ACCEPT lets the encoder switch to the new blend at its next edge. -/
  | blendAcceptRx (port cls id digest : Nat)
  /-- BLEND_REJECT_RX (R237): A BLEND-REJECT ends the offer with its reason. -/
  | blendRejectRx (port cls id digest reason : Nat)
  /-- BLEND_SWITCH_RX (R236): A BLEND-SWITCH makes the pending blend current at the decoder. -/
  | blendSwitchRx (port cls id : Nat) (seqs : List (Nat × Nat))
  /-- BLEND_RETIRE_ACK_RX (R235): A BLEND-RETIRE-ACK frees the encoder's previous slot. -/
  | blendRetireAckRx (port cls id : Nat)
  /-- BLEND_RESYNC_RX (R240): A BLEND-RESYNC makes the encoder code the class raw and offer its current table. -/
  | blendResyncRx (port cls : Nat)
  /-- FRAME_START (R320): At each local edge each transmit lane starts a frame and fills slots under the page in force. -/
  | frameStart
  /-- TIME_TRANSFER_SEND (R467): In each frame whose number is a multiple of 1,000 a time-transfer message with lane report is sent. -/
  | timeTransferSend (port : Nat)
  /-- CONTROL_KEEPALIVE (R476): A port without other control traffic in 50 ticks gets a block carrying ALIVE. -/
  | controlKeepalive (port : Nat)
  /-- ALIVE_RX (R476): An ALIVE message is received and counted as a good control block. -/
  | aliveRx (port : Nat)
  /-- SLOT_RX (R321): A received slot's overhead is checked and its columns demapped with the named page. -/
  | slotRx (port lane off : Nat) (acq : Bool) (fecBits fecBad snr : Nat) (oh cols : List Byte)
  /-- ELASTIC_STORE_SLIP (R332): An elastic store that overflows or empties discards one whole frame of the lane. -/
  | elasticStoreSlip (lane : Nat)
  /-- XH_SHEAF_RX (R355): XH sheaf members are buffered and read out in SQ order once an MFI is complete. -/
  | xhSheafRx (port lane slot : Nat) (cols : List Byte)
  /-- XH_SHEAF_DOWN (R356): A sheaf whose members are too far apart or inconsistent is declared down. -/
  | xhSheafDown (sheaf : Nat)
  /-- LINE_BLOCK_RX (R23): A received line block is checked, decrypted, reordered, length-checked and handed to pressing. -/
  | lineBlockRx (port : Nat) (block : List Byte)
  /-- LINE_ACK_IDLE (R335): An ACK is sent every ACK_IDLE ticks while the tributary is active. -/
  | lineAckIdle (trib : Nat)
  /-- LINE_NACK_REPEAT (R338): Each open NACK range is repeated every RTT_P + MARGIN ticks. -/
  | lineNackRepeat (trib : Nat)
  /-- LINE_RESEND_TIMER (R340): A highest unacknowledged block not covered in time is resent once. -/
  | lineResendTimer (trib : Nat)
  /-- LINE_ACK_RX (R336): An ACK frees ring copies and updates the tributary's outstanding credit. -/
  | lineAckRx (port trib ackSeq relSeq window : Nat)
  /-- LINE_NACK_RX (R339): A NACK makes the sender resend listed ring blocks in the next frame. -/
  | lineNackRx (port trib : Nat) (ranges : List (Nat × Nat))
  /-- PAGE_OFFER_RX (R345): A PAGE-OFFER is validated and answered with PAGE-READY or PAGE-REJECT. -/
  | pageOfferRx (port : Nat) (body : List Byte)
  /-- PAGE_READY_RX (R345): A PAGE-READY allows the commit of the offered set. -/
  | pageReadyRx (port : Nat) (body : List Byte)
  /-- PAGE_REJECT_RX (R347): A PAGE-REJECT ends an offer, or prompts the active set to be offered again. -/
  | pageRejectRx (port : Nat) (body : List Byte)
  /-- DEGRADATION_PAGE_COMPUTE (R345): Within 250 ticks of a page switch firmware computes and offers the degradation pages. -/
  | degradationPageCompute (pages : List (List Byte))
  /-- PAGE_SET_DISCARD (R345): The partner discards the previous set 2 ticks after the new set has arrived on every far lane. -/
  | pageSetDiscard (port : Nat)
  /-- LANE_DEGRADE (R348): A lane failure or RDI switches transmission to the degradation page, or blanks the lane. -/
  | laneDegrade (lane : Nat)
  /-- DOUBLE_LOSS_REPAGE (R350): After two lane losses firmware stages and commits a new active page within 1 s. -/
  | doubleLossRepage (pages : List (List Byte))
  /-- RDI_CLEAR (R349): After 500 ticks of good frames the RDI bit is cleared. -/
  | rdiClear (lane : Nat)
  /-- PM_SECOND (R358): At the first edge after each second its errored, severely errored and unavailable status is evaluated. -/
  | pmSecond
  /-- PM_BIN_ROLLOVER (R359): A new 15-minute or day bin starts. -/
  | pmBinRollover (kind : Nat)
  /-- TIME_TRANSFER_RX (R469): A time-transfer message yields a port offset sample, RTT_P and δ, and carries a lane report. -/
  | timeTransferRx (port : Nat) (body : List Byte)
  /-- LOOP_FAIL (R375): A lane control loop out of lock beyond its limit declares the transmit side failed. -/
  | loopFail (lane : Nat)
  /-- LOSS_OF_SIGNAL (R376): Receiver input below −28 dBm for 1 µs declares the receive side lost. -/
  | lossOfSignal (lane : Nat)
  /-- MONITOR_READ (R377): Lane monitor photodiodes are read every 10 µs, and the stage chain where selected. -/
  | monitorRead (lane : Nat) (chain : Bool) (reading : LaneReading)
  /-- CONTEXT_RELEARN (R374): A source context not heard for 1 s is re-learned from a full preamble. -/
  | contextRelearn (lane port far : Nat)
  /-- FADE_EVALUATION (R380): Every 60 s firmware fits trends and predicts fades, starting a swap where possible. -/
  | fadeEvaluation
  /-- SPARE_TUNE_DONE (R382): The spare has tuned and its monitors agree, so a training set is offered. -/
  | spareTuneDone
  /-- SPARE_TRAINING_END (R382): Training ends and a swap set is offered when the spare's margin suffices. -/
  | spareTrainingEnd
  /-- SWAP_RETRY_EVAL (R383): One hour after a stopped swap firmware repeats the evaluation. -/
  | swapRetryEval
  /-- SWAP_GUARD_RECOMMIT (R382): Within 2 s of a swap the set is committed again without the slot-0 guard. -/
  | swapGuardRecommit
  /-- FAILED_LANE_TAKEOVER (R505): A transmit side still failed 1 s later is moved onto the free spare. -/
  | failedLaneTakeover (lane : Nat)
  /-- WRONG_WAVELENGTH_LOCAL (R384): Locker and coarse monitor disagreeing by over 15 GHz blank the lane. -/
  | wrongWavelengthLocal (lane : Nat) (locker1 coarse1 locker2 coarse2 : Int)
  /-- RELOCK_DONE (R386): A cold relock completes and the lane is reverted if AUTO_RETURN is set. -/
  | relockDone (lane : Nat)
  /-- RELOCK_FAR_CHECK (R386): After a revert the far check must pass within 2 × RTT_P or the lane is blanked again. -/
  | relockFarCheck (lane : Nat)
  /-- RACKING_BEGIN (R402): The sender derives the next vintage and sends ANNOUNCE with its switch edge. -/
  | rackingBegin (port : Nat)
  /-- RACK_SWITCH (R403): At switch edge S the sender encrypts every new transmission under the new vintage. -/
  | rackSwitch (port : Nat)
  /-- ANNOUNCE_RX (R405): A racking ANNOUNCE is checked by KCV and answered READY, or starts a new pairing. -/
  | announceRx (port dir count kcv : Nat)
  /-- RACK_READY_RX (R404): A racking READY is received from the partner. -/
  | rackReadyRx (port : Nat)
  /-- VINTAGE_WINDOW_CLOSE (R406): The previous-vintage window closes and its key is erased. -/
  | vintageWindowClose (port : Nat)
  /-- P_HELLO_RX (R412): A P-HELLO is checked against the chain and manifest partner, and P-ENCAP sent. -/
  | pHelloRx (port : Nat) (body : List Byte)
  /-- P_HELLO_REPEAT (R412): P-HELLO is repeated every 1,000 ticks until the partner's is counted. -/
  | pHelloRepeat (port : Nat)
  /-- P_ENCAP_RX (R412): A P-ENCAP is verified and decapsulated and the first vintage keys derived. -/
  | pEncapRx (port : Nat) (body : List Byte)
  /-- P_CONFIRM_RX (R412): A valid P-CONFIRM completes the pairing of the port. -/
  | pConfirmRx (port : Nat) (body : List Byte)
  /-- PAIRING_TIMEOUT (R414): A pairing step unanswered in time ends the attempt with EV_PAIR_FAIL. -/
  | pairingTimeout (port : Nat)
  /-- PAIRING_RETRY (R414): After the back-off wait a failed pairing is retried. -/
  | pairingRetry (port : Nat)
  /-- REPAIR_NO_BLOCK (R415): No good block for 2,000 ticks while frames arrive starts a new pairing. -/
  | repairNoBlock (port : Nat)
  /-- REF_MISSING_EDGES (R446): A reference with no edge for 100 ns is declared failed. -/
  | refMissingEdges (ref : Nat)
  /-- REF_WINDOW_END (R446): At the end of each window references are judged against the crystal and each other. -/
  | refWindowEnd (devA devB devAB : Int)
  /-- XTAL_STABLE (R445): The crystal amplitude holds in its window for 2 ms and the crystal is judged stable. -/
  | xtalStable
  /-- XTAL_FAIL (R445): The crystal amplitude outside its window for 10 µs fails the crystal. -/
  | xtalFail
  /-- HOLDOVER_ENTRY (R458): No accepted sample for 3 s puts the servo in HOLDOVER. -/
  | holdoverEntry
  /-- TIME_INVALID (R463): Out of LOCKED for TMS_HOLDOVER ticks, time stops being valid. -/
  | timeInvalid
  /-- PULSE_EDGE (R471): A pulse output emits a pulse at its programmed time. -/
  | pulseEdge (k : Nat)
  /-- DIGEST_SEND (R490): A READY gateway sends DIGEST on each paired port every 1,000 ticks. -/
  | digestSend (port : Nat)
  /-- DIGEST_RX (R492): A partner DIGEST is compared, making the partner link-up or prompting DIGEST-LIST. -/
  | digestRx (port level : Nat) (scope groups : List Byte)
  /-- DIGEST_LIST_RX (R492): A DIGEST-LIST is compared group by group across epochs. -/
  | digestListRx (port : Nat) (entries : List (Nat × Nat × List Byte))
  /-- CONFIG_FENCE (R493): A digest difference that persists fences the groups concerned. -/
  | configFence (port : Nat)
  /-- PARTNER_LINK_DOWN (R477): No good block for 250 ticks makes the partner link-down. -/
  | partnerLinkDown (port : Nat)
  /-- SITE_ABSENT (R479): A port silent for ABSENCE_TIMEOUT makes its covered sites absent for the group. -/
  | siteAbsent
  /-- SITE_STATE_RX (R480): A SITE-STATE updates absent sites and the coverage of later blocks, and is acknowledged. -/
  | siteStateRx (port : Nat) (groups seqs : List (Nat × Nat)) (lineSeq : Nat)
  /-- SITE_ACK_RX (R480): A SITE-ACK lets the sender start exchange blocks from FROM_SEQ. -/
  | siteAckRx (port group lineSeq : Nat)
  /-- FALLOW_LIMIT (R485): An absence lasting FALLOW_LIMIT makes the group's later launches follow HOLD. -/
  | fallowLimit
  /-- LAUNCH_NOTICE_RX (R197): A launch notice is checked against the reference hash and forwarded by a relay. -/
  | launchNoticeRx (port group epoch inst hash : Nat) (fence : Bool) (sites : Nat)
  /-- ABORT_NOTICE_RX (R202): An abort notice puts the instance into ABORTING and is forwarded by a relay. -/
  | abortNoticeRx (port group inst code site : Nat)
  /-- FENCE_CLEAR_RX (R169): A fence-clear is counted toward releasing a fence. -/
  | fenceClearRx (port group inst : Nat)
  /-- PROMOTE_RX (R499): A PROMOTE lets the partner pair with the named device and suspends absence for the grace. -/
  | promoteRx (port : Nat) (device : List Byte) (at_ : Nat)
  /-- PROMOTION_AT_T (R500): At time T the twin releases its addresses and the shadow takes them over and pairs. -/
  | promotionAtT
  /-- VINTNER_PAIR_MISMATCH (R512): A lockstep disagreement makes the standby Vintner pair active from the journal. -/
  | vintnerPairMismatch
  /-- VINTNER_WATCHDOG (R513): No heartbeat for 500 ms restarts the Vintner firmware. -/
  | vintnerWatchdog
  /-- VINTNER_RESTART_DONE (R513): A Vintner restart completes and mailboxes answer again. -/
  | vintnerRestartDone
  /-- VINTNER_HEARTBEAT_LOSS (R570): Firmware silent for 30 s makes the hub raise EV_VINTNER_LOST and stop the device. -/
  | vintnerHeartbeatLoss
  /-- BARN_CAPTURE_DONE (R518): The Vintner finishes writing the Barn capture and raises EV_BARN_WRITTEN. -/
  | barnCaptureDone (sections : List (Nat × Bool × List Byte)) (complete : Bool) (ueWords : Nat)
  /-- RAIL_FAULT (R503): A rail outside ±5% for 100 µs raises the fatal EV_RAIL_FAULT. -/
  | railFault (rail : Nat)
  /-- POWER_LOSS (R525): The input supply below 90% for 10 µs raises EV_POWER_LOSS and writes the POWER-LOSS record. -/
  | powerLoss (queued : Nat)
  /-- LEDGER_SEAL (R524): A stream is sealed with a signed SEAL after its record count or 60 s. -/
  | ledgerSeal (stream : Nat)
  /-- COLD_START (R533): Power-up or RESET_N held low for 10 µs starts a cold bring-up. -/
  | coldStart (powerHeld : Bool)
  /-- WARM_START (R533): A warm start runs the warm bring-up steps, keeping DRAM. -/
  | warmStart
  /-- BRINGUP_STEP_DONE (R536): A bring-up step completes or fails and the next step starts. -/
  | bringupStepDone (report : StepReport)
  /-- PRESS_WAVE (R538): A Press wave enables its clusters and starts their self-test. -/
  | pressWave (wave : Nat) (railsOk : Bool)
  /-- PAIR_WAIT_EXPIRE (R547): The pair wait ends and the readiness check starts. -/
  | pairWaitExpire
  /-- TELEMETRY_WRITE (R576): A write on the telemetry port is NACKed. -/
  | telemetryWrite
  /-- JTAG_INSTRUCTION (R577): A test access port instruction runs if public, or selects BYPASS. -/
  | jtagInstruction (ir : JtagIr)
  /-- MBX_HELLO_REPLY (R497): In a twin session the shadow, in the host's role, reassembles and verifies HELLO-REPLY fragments, derives the direction keys and sends FINISH. -/
  | mbxHelloReply (src : Source) (udp : List Byte)
  /-- PFC_WATCHDOG_IGNORE_END (R307): After 1,000 ticks with no PFC frame for a priority whose pauses were ignored, the device honours PFC for it again and clears WD_IGNORED. -/
  | pfcWatchdogIgnoreEnd (prio : Nat)
  /-- SPARE_TUNE_TIMEOUT (R383): A spare that has not tuned and had its monitors agree within the 10 s bound of step 1 of R382 stops the swap and goes dark again. -/
  | spareTuneTimeout
  /-- VINTNER_SELF_TEST_DONE (R512): The failed Vintner pair finishes its self-test and rejoins as standby, or FLT_STATUS.VINTNER_SINGLE is set. -/
  | vintnerSelfTestDone (pass : Bool)
  /-- LANE_RECOVERY (R505): A failed physical lane whose loops lock again, and which is not RETIRED, stops being failed and becomes the free spare after a takeover. -/
  | laneRecovery (lane : Nat)
  /-- SIGNAL_RETURN (R376): The receiver input rises above the loss-of-signal level again and the lane's RX_LOS state clears. -/
  | signalReturn (lane : Nat)
  /-- SERVO_EN_WRITE (R458): A write to TMS_CTRL.SERVO_EN puts the servo into FREE when cleared, and lets it qualify samples when set. -/
  | servoEnWrite (on : Bool)
  /-- LEDGER_DROP_SUMMARY (R523): Once per second, the class 0x4 records dropped over the rate limit are summarised in one Ledger record of KIND 9. -/
  | ledgerDropSummary
  deriving DecidableEq, Repr

end Sys2Proof
end

