-- ==== Sys2Proof/Machine/RegTable.lean ====
section
/-! DEFINITION. The register map: every register of the spec with its fields, access codes and reset values, unit by
unit as the register tables give them. -/

namespace Sys2Proof.Machine

/-- Access codes (R10). -/
inductive Acc where
  | ro | rw | w1c | w1s | wo | rc | rwl
  deriving DecidableEq, Repr

/-- A field: low bit, width, access, reset value, the values a write may hold, and whether a write outside them is counted
in FLT. -/
structure FieldDef where
  lo : Nat
  w : Nat
  acc : Acc
  reset : Nat
  min : Nat
  max : Nat
  counted : Bool
  /-- Firmware sets the field during bring-up: one of the owner-only fields of the access policy. -/
  owner : Bool
  deriving DecidableEq, Repr

/-- A register or an array of registers: base address, distance, number of instances, fields. -/
structure RegDef where
  base : Nat
  stride : Nat
  num : Nat
  fields : List FieldDef
  deriving DecidableEq, Repr

/-- A read-only field. -/
def ro (lo w : Nat) (reset : Nat := 0) : FieldDef := ⟨lo, w, .ro, reset, 0, 2 ^ w - 1, false, false⟩
/-- A read-write field. -/
def rw (lo w : Nat) (reset : Nat := 0) : FieldDef := ⟨lo, w, .rw, reset, 0, 2 ^ w - 1, false, false⟩
/-- A read-write field that firmware sets during bring-up. -/
def rwo (lo w : Nat) (reset : Nat := 0) : FieldDef := ⟨lo, w, .rw, reset, 0, 2 ^ w - 1, false, true⟩
/-- A read-write field whose writes outside a range leave it unchanged. -/
def rwIn (lo w reset min max : Nat) (counted : Bool := false) : FieldDef := ⟨lo, w, .rw, reset, min, max, counted, false⟩
/-- A field locked by the system lock. -/
def rwl (lo w : Nat) (reset : Nat := 0) : FieldDef := ⟨lo, w, .rwl, reset, 0, 2 ^ w - 1, false, true⟩
/-- A locked field whose writes outside a range leave it unchanged. -/
def rwlIn (lo w reset min max : Nat) (counted : Bool := false) : FieldDef := ⟨lo, w, .rwl, reset, min, max, counted, true⟩
/-- A write-one-to-clear field. -/
def w1c (lo w : Nat) (reset : Nat := 0) : FieldDef := ⟨lo, w, .w1c, reset, 0, 2 ^ w - 1, false, false⟩
/-- A write-one-to-set field. -/
def w1s (lo w : Nat) (reset : Nat := 0) : FieldDef := ⟨lo, w, .w1s, reset, 0, 2 ^ w - 1, false, false⟩
/-- A write-only field. -/
def wo (lo w : Nat) : FieldDef := ⟨lo, w, .wo, 0, 0, 2 ^ w - 1, false, false⟩
/-- A read-to-clear counter of a whole register. -/
def rcCount : List FieldDef := [⟨0, 32, .rc, 0, 0, 2 ^ 32 - 1, false, false⟩]

/-- One register. -/
def reg1 (a : Nat) (fs : List FieldDef) : RegDef := ⟨a, 4, 1, fs⟩
/-- Consecutive counters. -/
def counters (a n : Nat) : RegDef := ⟨a, 4, n, rcCount⟩

/-- PRS registers (R84). -/
def prsRegs : List RegDef :=
  [ reg1 0x00200000 [ro 0 8 1, ro 8 4 15],
    reg1 0x00200004 [rwo 0 1 0, rwIn 1 5 16 1 16 true, rw 8 8 8, rwl 16 1 1],
    reg1 0x00200008 [ro 0 1, ro 1 4, ro 5 1 1, ro 6 1 1, ro 7 4],
    reg1 0x0020000C [ro 0 21 0x100000],
    reg1 0x00200010 [ro 0 32],
    reg1 0x00200014 [ro 0 32],
    reg1 0x00200020 [rwIn 0 8 70 30 70, rw 8 4 2, rw 12 8 5, rwIn 20 5 10 4 30 true],
    counters 0x00200040 6,
    reg1 0x00200060 [w1c 0 1, w1c 1 1, w1c 2 1, w1c 3 1],
    ⟨0x01000000, 0x400000, 4, [ro 0 10, ro 16 5 30]⟩,
    ⟨0x01000004, 0x400000, 4, [ro 0 5 16, ro 8 5 16, ro 16 11]⟩,
    ⟨0x01000008, 0x400000, 4, [ro 0 3 4, ro 3 3 4, ro 6 7 64, ro 13 1]⟩,
    ⟨0x0100000C, 0x400000, 4, rcCount⟩,
    ⟨0x01000010, 0x400000, 4, [ro 0 8, ro 8 6, ro 16 7]⟩ ]

/-- CMP registers (R248). -/
def cmpRegs : List RegDef :=
  [ reg1 0x00140000 [ro 0 9 256, ro 9 1 1],
    reg1 0x00140004 [rwl 0 1 1, rw 1 1],
    reg1 0x00140008 [ro 0 1, ro 1 1, ro 2 1, ro 3 1, ro 16 9],
    reg1 0x00140010 [rw 0 2 3, rw 8 8 20, rw 16 4 3],
    reg1 0x00140014 [rw 0 32 500000],
    reg1 0x00140018 [rw 0 32 15000000],
    reg1 0x0014001C [rw 0 32 32768],
    reg1 0x00140020 [rwIn 0 4 0 0 9, rw 4 3],
    reg1 0x00140024 [ro 0 8, ro 8 8, ro 16 8, ro 24 3, ro 27 2],
    counters 0x00140040 12 ]

/-- HST registers (R318). The fused MAC address stands at a value of the model's own. -/
def hstRegs : List RegDef :=
  [ reg1 0x00040000 [ro 0 4 8, ro 4 2 2, ro 6 1 1],
    reg1 0x00040004 [rwo 0 1, rwo 1 1, rwl 2 1, rw 3 1 1, rw 4 1 1],
    reg1 0x00040008 [ro 0 1, ro 1 1, ro 2 8, ro 10 8],
    reg1 0x00040010 [ro 0 32 0],
    reg1 0x00040014 [ro 0 16 0],
    reg1 0x00040018 [rwl 0 16 47160, rwl 16 16 47161],
    reg1 0x0004001C [rwl 0 8 8, rw 8 3 3, rw 11 3 0, rw 14 6 26, rw 20 6 16],
    reg1 0x00040020 [rw 0 12],
    reg1 0x00040024 [rw 0 8 100, rw 8 8 16, rw 16 8 50],
    reg1 0x00040028 [rw 0 32 25000],
    reg1 0x0004002C [rwIn 0 14 9216 1518 9216],
    reg1 0x00040030 [rw 0 32 50000],
    counters 0x00040040 19 ]

/-- Threshold fields of the Cellar. -/
def threshFields : List FieldDef := [rw 0 8 192, rw 8 8 224, rw 16 8 248, rw 24 8 16]

/-- CLR registers (R282). -/
def clrRegs : List RegDef :=
  [ reg1 0x00180000 [ro 0 4 8, ro 4 12 512],
    reg1 0x00180004 [rwl 0 1 1, rwl 1 1 1],
    reg1 0x00180008 [ro 0 8, ro 8 8, ro 16 1, ro 17 1, ro 18 1, ro 19 1],
    reg1 0x00180010 [rw 0 8 192, rw 8 8 224, rw 24 8 16],
    reg1 0x00180014 [rw 0 8 192, rw 8 8 224, rw 24 8 16],
    reg1 0x00180018 [ro 0 32],
    reg1 0x0018001C [ro 0 32],
    counters 0x00180040 5,
    ⟨0x00180100, 0x10, 8, threshFields⟩,
    ⟨0x00180104, 0x10, 8, [ro 0 23, ro 23 1, ro 24 1]⟩,
    ⟨0x00180108, 0x10, 8, [⟨0, 23, .rc, 0, 0, 2 ^ 23 - 1, false, false⟩]⟩,
    ⟨0x0018010C, 0x10, 8, rcCount⟩ ]

/-- MEM registers (R283). -/
def memRegs : List RegDef :=
  [ reg1 0x00300000 [ro 0 7 64, ro 7 5 16],
    reg1 0x00300004 [rwl 0 1 1, rwl 1 1],
    reg1 0x00300008 [ro 0 1, ro 1 1, ro 2 1, ro 3 1],
    reg1 0x00300010 [ro 0 32 0x93A40000],
    reg1 0x00300014 [ro 0 8 0xD6],
    reg1 0x00300020 [rwIn 0 11 240 60 1440, rw 16 8 8],
    reg1 0x00300024 [ro 0 10, ro 10 22],
    counters 0x00300040 5,
    reg1 0x00300060 [ro 0 32],
    reg1 0x00300064 [ro 0 8],
    ⟨0x00301000, 0x10, 64, [ro 0 1, ro 1 2, ro 3 8, ro 11 1, ro 12 1, ro 13 2, ro 15 1]⟩,
    ⟨0x00301004, 0x10, 64, rcCount⟩,
    ⟨0x00301008, 0x10, 64, rcCount⟩ ]

/-- QOS registers (R443). -/
def qosRegs : List RegDef :=
  [ reg1 0x001C0000 [ro 0 3 5, ro 3 5 16, ro 8 3 4],
    reg1 0x001C0004 [rw 0 1, w1s 1 1],
    reg1 0x001C0008 [rw 0 16 1000, rw 16 5 10, rw 21 5 10],
    reg1 0x001C1000 [rw 0 8 20, rw 8 9 36, rw 17 1 1],
    ⟨0x001C2000, 0x1000, 4, [rw 0 8 0, rw 8 9 257, rw 17 1 1]⟩,
    ⟨0x001C1004, 0x1000, 5, [ro 0 16, ro 16 16]⟩,
    ⟨0x001C2008, 0x1000, 4, [rw 0 16 64, rw 16 16 512]⟩,
    ⟨0x001C1040, 0x1000, 5, rcCount⟩,
    ⟨0x001C1044, 0x1000, 5, rcCount⟩ ]

/-- The registers of the 16 queues of scheduler `n` (R443). -/
def qosQueueRegs (n : Nat) : List RegDef :=
  let b := 0x001C1100 + n * 0x1000
  [ ⟨b, 0x20, 16, [rw 0 24 0]⟩, ⟨b + 4, 0x20, 16, [rw 0 24 65536]⟩, ⟨b + 8, 0x20, 16, [rw 0 8 1]⟩,
    ⟨b + 12, 0x20, 16, [ro 0 32]⟩, ⟨b + 16, 0x20, 16, [ro 0 32]⟩, ⟨b + 20, 0x20, 16, rcCount⟩, ⟨b + 24, 0x20, 16, rcCount⟩ ]

/-- FLT registers (R532). -/
def fltRegs : List RegDef :=
  [ reg1 0x00340000 [ro 0 2 2, ro 2 2 2],
    reg1 0x00340004 [rwl 0 1 1, rwl 1 1 1, rw 2 1, rw 3 1 1],
    reg1 0x00340008 [ro 0 1, w1c 1 1, ro 2 2, ro 4 2, ro 6 1, ro 7 1, ro 8 1, ro 9 1],
    reg1 0x0034000C [rw 0 4 3, rw 4 8 7, rw 12 4 4, rwIn 16 3 3 2 4 true],
    reg1 0x00340010 [rw 0 32 1800000000],
    reg1 0x00340014 [rwlIn 0 13 1024 16 4096, rw 16 8 64],
    reg1 0x00340018 [ro 0 32],
    reg1 0x0034001C [ro 0 32],
    reg1 0x00340020 [ro 0 32],
    reg1 0x00340024 [ro 0 32],
    reg1 0x00340028 [ro 0 8, ro 8 1, ro 16 16],
    counters 0x00340040 12 ]

/-- CLK registers (R474). -/
def clkRegs : List RegDef :=
  [ reg1 0x00010000 [ro 0 2 2, ro 2 7 48],
    reg1 0x00010004 [rwl 0 1, rw 1 1 1, wo 2 2],
    reg1 0x00010008 [ro 0 2 2, ro 2 1, ro 3 1, ro 4 1, ro 5 1],
    reg1 0x0001000C [rw 0 16 733],
    ⟨0x00010010, 4, 2, [ro 0 16, ro 16 16]⟩,
    counters 0x00010040 3 ]

/-- TMS registers (R475). -/
def tmsRegs : List RegDef :=
  [ reg1 0x00020000 [ro 0 3 4, ro 3 1 1],
    reg1 0x00020004 [rwo 0 1, rw 1 1],
    reg1 0x00020008 [ro 0 3, ro 3 1, ro 8 8],
    reg1 0x0002000C [rwIn 0 3 0 0 5 true],
    reg1 0x00020010 [rw 0 32 32768],
    reg1 0x00020014 [rw 0 32 3277],
    reg1 0x00020018 [rw 0 16 1000, rwIn 16 16 250 1 1000],
    reg1 0x0002001C [rw 0 8 16, rw 8 8 8, rw 16 16 100],
    reg1 0x00020020 [rw 0 32 1800000000],
    reg1 0x00020024 [ro 0 32],
    reg1 0x00020028 [ro 0 32],
    reg1 0x0002002C [ro 0 16, ro 16 16],
    reg1 0x00020030 [ro 0 32],
    reg1 0x00020034 [ro 0 32],
    reg1 0x00020038 [rw 0 8, rw 8 3 7, rw 16 4 3],
    reg1 0x0002003C [ro 0 16 1468, ro 16 16 614],
    reg1 0x00020040 [rw 0 32],
    counters 0x00020080 6,
    ⟨0x00020100, 0x10, 4, [rw 0 32]⟩,
    ⟨0x00020104, 0x10, 4, [ro 0 32]⟩,
    ⟨0x00020108, 0x10, 4, [ro 0 24]⟩,
    ⟨0x00020200, 0x20, 4, [rwIn 0 2 0 0 2, rw 2 1 1, rw 3 1]⟩,
    ⟨0x00020204, 0x20, 4, [rw 0 32]⟩,
    ⟨0x00020208, 0x20, 4, [rw 0 32]⟩,
    ⟨0x0002020C, 0x20, 4, [rw 0 32 1000000000]⟩,
    ⟨0x00020210, 0x20, 4, [rw 0 8]⟩,
    ⟨0x00020214, 0x20, 4, [rw 0 32 1000]⟩ ]

/-- Counters of the same offset in every lane. -/
def laneCounters (base stride first n : Nat) : List RegDef :=
  (List.range n).map fun k => ⟨base + first + 4 * k, stride, 5, rcCount⟩

/-- LNE registers (R361, R502). -/
def lneRegs : List RegDef :=
  [ reg1 0x00094000 [ro 0 3 5, ro 3 11 1024, ro 14 1 1],
    reg1 0x00094004 [rwo 0 1, rw 1 1, rwl 2 1 1, rwl 3 1 1],
    reg1 0x00094008 [ro 0 5, ro 5 5, ro 10 1, ro 11 1],
    reg1 0x0009400C [wo 0 4, wo 4 2],
    reg1 0x00094010 [rw 0 8 50, rw 8 4 8, rw 12 12 100],
    reg1 0x00094014 [rw 0 1 1, rw 1 1 1, rw 2 10 500],
    ⟨0x00094020, 4, 4, [ro 0 32]⟩,
    counters 0x00094040 4,
    ⟨0x00080000, 0x4000, 5, [ro 0 2, ro 2 1, ro 3 1, ro 4 1, ro 5 1, ro 6 1, ro 7 1, ro 8 1, ro 9 3]⟩,
    ⟨0x00080004, 0x4000, 5, [ro 0 8, ro 8 8, ro 16 1, ro 17 3, ro 20 5]⟩,
    reg1 0x00094080 [rw 0 16 10, rw 16 8 10],
    reg1 0x00094084 [rwlIn 0 9 256 0 256],
    reg1 0x00094088 [ro 0 32],
    ⟨0x00094090, 4, 4, [ro 0 1, ro 1 1, ro 2 1, ro 3 8, ro 11 8]⟩,
    reg1 0x000940A0 [ro 0 2, ro 2 1, ro 3 17],
    counters 0x000940B0 3 ] ++ laneCounters 0x00080000 0x4000 0x040 14

/-- OPT registers (R391). -/
def optRegs : List RegDef :=
  [ reg1 0x000CA000 [ro 0 3 5, ro 3 2 3, ro 5 1 1],
    reg1 0x000CA004 [rwo 0 1, rwl 1 1 1, rwl 2 1 1, rwl 3 1 1, rw 4 1 1],
    reg1 0x000CA008 [ro 0 5, ro 5 5, ro 10 3 4, ro 13 1],
    reg1 0x000CA00C [rw 0 8 30, rw 8 8 10, rw 16 8 3],
    reg1 0x000CA010 [rw 0 32 30000],
    reg1 0x000CA014 [rw 0 8 15, rw 8 8 24, rw 16 8 20, rw 24 8 6],
    reg1 0x000CA018 [rw 0 3 4, rw 3 3 4],
    counters 0x000CA040 6,
    ⟨0x000C0000, 0x2000, 5, [ro 0 2, ro 2 1, ro 3 3, ro 6 1, ro 7 1, ro 8 1, ro 9 1, ro 10 1, ro 11 1, ro 12 3, ro 15 1]⟩,
    ⟨0x000C0004, 0x2000, 5, [ro 0 16 0xFFFF, ro 16 16 0xFFFF]⟩,
    ⟨0x000C0008, 0x2000, 5, [rw 0 10, ro 16 10]⟩,
    ⟨0x000C000C, 0x2000, 5, [ro 0 12, ro 12 12]⟩,
    ⟨0x000C0010, 0x2000, 5, [ro 0 12, ro 12 12]⟩,
    ⟨0x000C0014, 0x2000, 5, [ro 0 8, ro 8 8, ro 16 8, ro 24 8]⟩,
    ⟨0x000C0018, 0x2000, 5, [ro 0 8, ro 8 8, ro 16 8]⟩,
    ⟨0x000C001C, 0x2000, 5, [ro 0 16, ro 16 16]⟩,
    ⟨0x000C0020, 0x2000, 5, [ro 0 12, ro 12 12]⟩ ] ++ laneCounters 0x000C0000 0x2000 0x040 3

/-- SEC registers (R425). -/
def secRegs : List RegDef :=
  [ reg1 0x00100000 [ro 0 3 5, ro 3 1 1],
    reg1 0x00100004 [rwo 0 1, rwl 1 1 1],
    reg1 0x00100008 [ro 0 4, ro 4 4, ro 8 1, ro 9 1],
    reg1 0x0010000C [ro 0 1 1, ro 1 1 1],
    reg1 0x00100010 [rw 0 32 30000000],
    reg1 0x00100014 [rw 0 16 500, rw 16 16 64],
    reg1 0x00100018 [rw 0 8 5, rwIn 8 4 6 0 10],
    reg1 0x0010001C [rw 0 32 5000],
    counters 0x00100040 11,
    ⟨0x00100100, 0x20, 4, [ro 0 3, ro 3 1, ro 4 4, ro 8 8, ro 16 8, ro 24 1, ro 25 1]⟩,
    ⟨0x00100104, 0x20, 4, [ro 0 32]⟩,
    ⟨0x00100108, 0x20, 4, [ro 0 32]⟩,
    ⟨0x0010010C, 0x20, 4, [ro 0 16]⟩,
    ⟨0x00100110, 0x20, 4, rcCount⟩ ]

/-- BRU registers (R556). -/
def bruRegs : List RegDef :=
  [ reg1 0x00380000 [ro 0 4 10, ro 4 5 16],
    reg1 0x00380004 [w1s 0 1, w1s 1 1],
    reg1 0x00380008 [ro 0 1, ro 1 1, ro 2 4 1, ro 6 1, ro 7 1, ro 8 1, ro 9 1],
    reg1 0x0038000C [ro 0 2, ro 2 1, ro 3 1, ro 4 1],
    reg1 0x00380010 [wo 0 4, wo 4 4, wo 8 2],
    reg1 0x00380014 [ro 0 4, ro 4 4, ro 8 2, ro 16 16],
    reg1 0x00380018 [rw 0 16 30],
    reg1 0x0038001C [ro 0 32],
    reg1 0x00380020 [ro 0 1, ro 1 1, ro 2 7],
    reg1 0x00380024 [ro 0 18, ro 18 7],
    counters 0x00380040 4 ]

/-- MGT registers of the direct window (R558, R418); REVISION is that of R594. -/
def mgtRegs : List RegDef :=
  [ reg1 0x00000000 [ro 0 16 0x6416, ro 16 4 1, ro 20 4 8],
    reg1 0x00000004 [ro 0 32],
    reg1 0x00000008 [ro 0 32],
    reg1 0x0000000C [ro 0 1, ro 1 1, ro 2 1, ro 3 1, ro 4 1, ro 5 1, ro 6 1],
    reg1 0x00000010 [w1c 0 1, w1c 1 1],
    reg1 0x00000014 [ro 0 8, ro 8 8],
    reg1 0x00000018 [ro 0 2, ro 2 1, ro 3 3, ro 8 8, wo 16 2, wo 18 1, wo 24 8],
    reg1 0x0000001C [ro 0 1, ro 1 3, ro 4 3, ro 7 1, ro 8 1],
    reg1 0x00000020 [ro 0 32],
    counters 0x00000040 2 ]

end Sys2Proof.Machine
end

