-- ==== Sys2Proof/Machine/Fresh.lean ====
section
/-! DEFINITION. The parts of the device at their values after reset: what the spec gives, and where it gives none the values that
the assumption log names. -/

namespace Sys2Proof.Machine

open Sys2Proof

/-- An empty queue with its tokens full. -/
def EQueue.empty : EQueue :=
  { items := [], tokens := 262144, deficit := 0, fresh := false, depthHist := List.replicate 16 0, delayHist := List.replicate 16 0 }

/-- The settings of a scheduler at reset (R443). -/
def QSettings.reset (n : Nat) : QSettings :=
  { overhead := if n = 0 then 20 else 0, quantum := if n = 0 then 36 else 257, pool := true, rates := List.replicate 16 0,
    bursts := List.replicate 16 65536, weights := List.replicate 16 1, groupMap := [] }

/-- A scheduler at reset: tokens equal BURST (R436). -/
def Sched.reset (n : Nat) : Sched :=
  { queues := Vector.replicate 16 EQueue.empty, ptr := 0, active := QSettings.reset n, standby := QSettings.reset n,
    applyNext := false, bucket := 512000, policedTick := none, sampledTick := 0 }

/-- An empty class, for reading past the end. -/
def CaskPart.zero : CaskPart := ⟨0, 0, [], [], []⟩

/-- A class with no casks. -/
def CaskClass.zero : CaskClass := ⟨CaskPart.zero, CaskPart.zero, false, false, false, 0⟩

/-- A lane that carries nothing. -/
def Lane.fresh (n : Nat) : Lane :=
  { rate := 0, fec := 0, phys := n, spare := n == 4, txUp := false, rxUp := false, active := none, standby := none,
    degrPages := [], degr := 0, blanked := false, rdiTx := false, goodFrames := 0, badSlots := 0, bip := none, rei := 0,
    rxChannel := 0xFFFF, rxRate := 0, rxFrame := 0, bipTx := 0, snrSum := 0, snrCount := 0, uncorr := 0, slip := none, xh := [] }

/-- A port before anything has happened. -/
def LPort.fresh : LPort :=
  { rtt := 0, delta := 0, peer := none, path := none, offer := none, ready := none, degrReady := false, rxSets := [], rxNewTick := none,
    rdiRx := 0, rdiClear := [], revert := none, revertWant := false, rxSeen := [], degrDue := none, doubleDue := none,
    rxFailRuns := [] }

/-- A tributary bound to a port and queue, with its LINE_SEQs at 0. -/
def Trib.fresh (port queue engine window : Nat) : Trib :=
  { port := port, queue := queue, engine := engine, window := window, nextSeq := 0, ring := [], acked := 0, rel := 0, credit := 0,
    resend := [], tx := [], just := 0, rxNext := 0, rxRel := 0, rxHeld := [], rxTop := 0, rxNacks := [], rxDone := [],
    windows := [], ackDue := false, ackTick := 0, blockTick := 0, rxPieces := [], rxPtr := none, rxStream := none, rxFrame := none }

/-- A physical lane at reset. -/
def PhysLane.fresh : PhysLane :=
  { txFailed := false, rxLos := false, rxLof := false, blanked := false, retired := false, locked := false, lossStage := 0,
    txChannel := 0xFFFF, loChannel := 0xFFFF, measPwr := 0, biasTx := 0, biasLo := 0, bolTx := 0, bolLo := 0,
    stages := List.replicate 6 0, loOut := 0, voa := 0, lockerOfs := 0, coarseOfs := 0, rxSnr := 0, snr := 0, margin := 0, reported := false,
    downRun := 0, upMiddle := 0, upTop := 0, floorTick := none, excluded := [], upTick := none, baseline := none, farRun := 0,
    blankTicks := [], relockFrom := none, farBy := none, failTick := none, means := [], marginSum := 0, marginCount := 0, biasTxSum := 0,
    biasLoSum := 0, biasCount := 0, contexts := [] }

/-- A port that has never paired. -/
def PortKeys.fresh : PortKeys :=
  { st := 0, initiator := false, lastFail := 0, partnerId := [], partnerStart := 0, level := 1, hello := [], helloRx := [],
    encap := [], ssOwn := [], kemSeed := 0, confirm := [], newId := [], newStart := 0,
    helloTick := 0, stepTick := 0, fails := 0,
    retryAt := 0, txCounters := [], txCount := 0, txVs := [], txKeys := [], txBlocks := 0, txSince := 0, racking := none,
    rxCount := 0, rxVs := [], rxKeys := [], rxNext := false, window := none, tagFails := 0, tagTick := none, pairBlocks := 0,
    pairFrom := 0, framesArrive := false }

/-- An idle mailbox. -/
def Mbx.idle : Mbx :=
  { session := 0, seq := 0, waiting := false, deferred := false, code := 0, token := 0, args := [], resp := none }

/-- A port that has exchanged no time. -/
def PortTime.fresh : PortTime :=
  { tx := [], rx := [], peerRef := none, peerStep := none, spanFrom := none, spans := [], theta := 0 }

/-- A die before anything has happened to it. -/
def Die.fresh : Die :=
  { budget := 1920, granted := 1920, measDw := 0, floorTicks := 0, floorRaised := false, overTemp := false, hot := false, maxC := 0,
    hotSensor := 0, sensorBad := List.replicate 64 0, excluded := [], spareTx := 4, spareRx := 4, dataTx := 64, dataRx := 64,
    replayFails := 0, retrainEnd := none, spareClusters := 16, coresUsed := [], lostClusters := 0, droop := false }

/-- A channel that has not been trained. -/
def Channel.fresh : Channel :=
  { trained := false, refresh := 0, tempC := 0, halved := false, retraining := false, fails := 0, lost := false, retrainTemp := 0 }

/-- A reference input that is not good. -/
def RefIn.bad : RefIn := { ok := false, windows := 0, vsXtal := 0, vsOther := 0 }

/-- A pulse output that is off. -/
def Pulse.off : Pulse := { mode := 0, start := 0, period := 1000000000, next := none }

/-- A partner before anything has happened on its port. -/
def Partner.fresh : Partner :=
  { paired := false, linkDown := true, lastGood := 0, compared := false, ctlQueue := [], kept := [],
    ctlRing := [], ctlNext := 0, ctlSentTick := 0, ctlTopTick := 0, ctlTimed := none, digestTick := 0, scopeSince := none, scopeFenced := false, groupSince := [],
    groupFenced := [], agreedAll := false, agreed := [], level := 1, disagree := false, overCount := 0, withinCount := 0,
    graceUntil := 0, graceDevice := [], lost := [], wasDown := true, reported := [], states := [], holds := [], await := none }

/-! ### The parts of the state at reset -/

/-- Collectives with nothing in flight. -/
def Coll.reset : Coll :=
  { groups := [], insts := [], reserved := [], ended := [], fences := [], aborts := [], nextOrder := 0, committedNow := 0, programs := [],
    commits := [], nextCommit := 1 }

/-- The Press before it presses. -/
def Press.reset : Press :=
  { running := false, dies := Vector.replicate 4 Die.fresh, units := [], missed := [], listed := [], treeFaulty := Vector.replicate 2 false,
    treeReports := [], reissue := [], cores := [], intervalStart := 0, worked := [], spotClean := [], spotRounds := [], tickHiLatch := 0 }

/-- A priority that is not paused. -/
def PfcPrio.idle : PfcPrio := { quanta := 0, since := none, ignored := false, lastFrame := 0 }

/-- The host port with its link down; the MAC address is the model's own. -/
def HostPort.reset : HostPort :=
  { linkUp := false, aligned := false, alignTicks := 0, ipv4 := 0, ipv6 := 0, macLo := 1, macHi := 0x0200, streams := [],
    arrivals := [], pfc := Vector.replicate 8 PfcPrio.idle, pfcSent := false, pfcTick := 0, icmpTick := 0, icmpCount := 0, frags := [],
    half := [], sessions := [], nextSession := 1, helloTick := 0, helloCount := 0, evTick := [], doneWait := [] }

/-- A part of a cask class with every cask free, in ascending order. -/
def CaskPart.full (n : Nat) : CaskPart := { size := n, fresh := 0, freed := [], granted := [], discarded := [] }

/-- A class with its SRAM and DRAM casks (R249). -/
def CaskClass.full (sram dram : Nat) : CaskClass :=
  { sram := CaskPart.full sram, dram := CaskPart.full dram, warn := false, bp := false, refuse := false, peak := 0 }

/-- The Cellar with every cask free (R249). -/
def Cellar.reset : Cellar :=
  { classes := #v[CaskClass.full 65536 4194304, CaskClass.full 32768 2097152, CaskClass.full 16384 2097152, CaskClass.full 12288 524288,
      CaskClass.full 3072 262144, CaskClass.full 64 32768, CaskClass.full 0 8192, CaskClass.full 0 3328]
    ringUsed := 0, reorderUsed := 0, ringWarn := false, ringBp := false, reorderWarn := false, reorderBp := false }

/-- Memory with nothing listed: every byte reads 0. -/
def Mem.reset : Mem :=
  { dram := [], sram := [], poison := [], channels := [], retrainWait := [], regions := [], gleanPasses := 0, gleanGroups := 0, gleanCe := 0,
    gleanUe := 0, gleanStart := 0, gleanUrgent := false, weakRows := [], lastUe := 0, lastUeLatch := 0 }

/-- The line framer: control tributaries 0 to 3 bound to ports A to D (R326). -/
def Line.reset : Line :=
  { lanes := #v[Lane.fresh 0, Lane.fresh 1, Lane.fresh 2, Lane.fresh 3, Lane.fresh 4], ports := Vector.replicate 4 LPort.fresh
    tribs := [(0, Trib.fresh 0 0 0 0), (1, Trib.fresh 1 0 1 0), (2, Trib.fresh 2 0 2 0), (3, Trib.fresh 3 0 3 0)]
    nextPage := 0, autoCommit := 0, sheaves := [], bins := [], seconds := [], thresholds := [], pmStart := 0, pmSec := 0, rxBlocks := [],
    rxWait := [] }

/-- The optics: no channel on any lane. -/
def Opt.reset : Opt :=
  { phys := Vector.replicate 5 PhysLane.fresh, channels := Vector.replicate 5 0xFFFF, fecNext := [], swap := none, retryAt := none, retryLane := 0,
    fadeTick := 0 }

/-- The utility engine, free. -/
def Uce.free : Uce := { owner := 0, busy := false, pending := 0, gen := 0, opTick := 0 }

/-- Keys: no anchor, not enrolled, no port paired. -/
def Sec.reset : Sec :=
  { ports := Vector.replicate 4 PortKeys.fresh, startId := 0, anchor := none, anchorKey := [], chain := [], enrolled := false, uce := Uce.free }

/-- No shadow join. -/
def Shadow.idle : Shadow :=
  { role := 0, peer := [], peerSrc := { v6 := false, addr := 0, port := 0 }, session := none, hello := none, nextReq := 1, eligible := false,
    matched := 0, mismatches := [], waiting := [], ticks := [], base := none, last := 0, own := [], fresh := [], promoteAt := none, outNext := [], promoted := false }

/-- Sites: every partner link-down, nothing absent. -/
def Sites.reset : Sites := { partners := Vector.replicate 4 Partner.fresh, groups := [], silo := [], shadow := Shadow.idle }

/-- A Ledger stream without records. -/
def LedgerStream.empty : LedgerStream := { recs := [], next := 0, chain := [], unsealed := 0, sealTick := 0 }

/-- A capture slot without a capture. -/
def BarnSlot.empty : BarnSlot :=
  { valid := false, complete := false, ueSeen := false, read := false, seq := 0, tick := 0, time := 0, cause := 0, boot := 0, fwVersion := 0,
    sections := [], length := 0, ueWords := 0, laterFatals := 0, ledgerIndex := 0 }

/-- Faults: nothing raised; firmware does not run yet. -/
def Flt.reset : Flt :=
  { ring := [], seq := 0, seqLatch := 0, counts := [], ledgerC := LedgerStream.empty, ledgerF := LedgerStream.empty, ledgerFFull := false,
    warnCount := 0, dropped := [], dropEvTick := none, fatal := false, fatalCause := 0, fatalTick := 0, fatalDone := false,
    barn := Vector.replicate 2 BarnSlot.empty, barnSeq := 0, capturing := none, holdupPct := 0, holdUs := 0, vintnerActive := 0,
    vintnerSingle := false, vintnerUp := false, vintnerHeld := 0, vintnerStandby := true, supplyLost := false, restarts := [], suspects := [] }

/-- No PTP exchange. -/
def PtpEx.idle : PtpEx := { syncSeq := none, t1 := none, t2 := none, cs := 0, reqSeq := 0, t3 := none, nextReq := 0 }

/-- Time at 0 and not valid, the servo FREE, the internal clock selected. -/
def TimeSt.reset : TimeSt :=
  { counter := 0, valid := false, servo := 0, f := 0, integ := 0, samples := [], refused := 0, lastAccepted := 0, outSince := some 0, theta := 0,
    stepTo := none, stepBy := none, steps := 0, masters := [], master := none, ptp := PtpEx.idle, ports := Vector.replicate 4 PortTime.fresh,
    pulses := Vector.replicate 4 Pulse.off, refs := Vector.replicate 2 RefIn.bad, source := 2, selectNext := none, xtalOk := false,
    xtalFailed := false, nowSecLatch := 0, nowHiLatch := 0 }

/-- An empty firmware slot, as manufacture leaves it (R572). -/
def FwSlot.empty : FwSlot := { state := 0, data := [] }

/-- Management: both firmware slots empty; the fused DEVICE_ID is the model's own. -/
def Mgt.reset : Mgt :=
  { fwVersion := 0, boot := 0, deviceId := [0, 0, 0, 0, 0, 0, 0, 1], mbx := Vector.replicate 8 Mbx.idle, order := [], sysLock := false,
    lockNext := false, ownerLock := false, slots := Vector.replicate 2 FwSlot.empty, active := 0, trial := false, fellBack := false,
    recovery := false, dead := false, startNext := false, idHiLatch := 0, jtag := .idcode,
    telemetry := 0x64 :: List.replicate 38 0 }

/-- Bring-up at the beginning of step 1 of a cold start. -/
def Bru.reset : Bru :=
  { straps := 0, step := 1, stepTick := 0, running := true, stopped := false, stepped := false, warm := false, quick := false, waiting := false,
    ready := false, notReady := false, readyNext := false, recheckNext := false, endWaitNext := false, reasons := [], found := [], happened := [],
    lastStep := 0, lastWave := 0, result := 0, detail := 0, wave := 0, waveDie := 0, waveTick := 0, lanesUp := [], spareUp := false,
    manifest := none, memFull := false, memQuick := false, failChannels := 0, softCores := [], softClusters := [], railsOk := false,
    packages := 0, dramGb := 0 }

end Sys2Proof.Machine
end

