-- ==== Sys2Proof/Machine/State.lean ====
section
/-! DEFINITION. The state of the device, the reasons a step can stop, and the state after reset. -/

namespace Sys2Proof.Machine

open Sys2Proof

/-- Where a command stops. -/
inductive Fault where
  /-- Raised by DRAM_READ for an address at or above the end of usable DRAM, which R268 says does not exist. Safe. -/
  | dramAddressOutside
  deriving DecidableEq, Repr

/-- Why a command is refused. -/
inductive Refusal where
  /-- Raised by the dispatch for a command without a meaning yet. Safe. -/
  | notModelled (mnemonic : String)
  deriving DecidableEq, Repr

/-- The device. -/
structure State where
  pending : List Instr
  tick : Nat
  free : Nat
  regs : SMap Nat
  coll : Coll
  press : Press
  host : HostPort
  cmp : SMap BSlot
  qos : Vector Sched 5
  cellar : Cellar
  mem : Mem
  line : Line
  opt : Opt
  sec : Sec
  sites : Sites
  flt : Flt
  time : TimeSt
  mgt : Mgt
  bru : Bru
  out : List Output
  deriving DecidableEq, Repr

/-- The device right after reset: the beginning of a cold start, with nothing waiting. -/
def State.reset : State :=
  { pending := [], tick := 0, free := 0, regs := [], coll := Coll.reset, press := Press.reset, host := HostPort.reset, cmp := []
    qos := #v[Sched.reset 0, Sched.reset 1, Sched.reset 2, Sched.reset 3, Sched.reset 4], cellar := Cellar.reset, mem := Mem.reset
    line := Line.reset, opt := Opt.reset, sec := Sec.reset, sites := Sites.reset, flt := Flt.reset, time := TimeSt.reset, mgt := Mgt.reset
    bru := Bru.reset, out := [] }

end Sys2Proof.Machine
end

