-- ==== Sys2Proof/Machine/Updates.lean ====
section
/-! DEFINITION. One update per block of the state: the small steps every effect is built from. -/

namespace Sys2Proof.Machine

open Sys2Proof

/-- Change the collective tables. -/
def State.mapColl (s : State) (f : Coll → Coll) : State := { s with coll := f s.coll }
/-- Change the Press. -/
def State.mapPress (s : State) (f : Press → Press) : State := { s with press := f s.press }
/-- Change the host port. -/
def State.mapHost (s : State) (f : HostPort → HostPort) : State := { s with host := f s.host }
/-- Change the blend slots. -/
def State.mapCmp (s : State) (f : SMap BSlot → SMap BSlot) : State := { s with cmp := f s.cmp }
/-- Change the schedulers. -/
def State.mapQos (s : State) (f : Vector Sched 5 → Vector Sched 5) : State := { s with qos := f s.qos }
/-- Change the Cellar. -/
def State.mapCellar (s : State) (f : Cellar → Cellar) : State := { s with cellar := f s.cellar }
/-- Change memory. -/
def State.mapMem (s : State) (f : Mem → Mem) : State := { s with mem := f s.mem }
/-- Change the stored register values. -/
def State.mapRegs (s : State) (f : SMap Nat → SMap Nat) : State := { s with regs := f s.regs }
/-- Change the line. -/
def State.mapLine (s : State) (f : Line → Line) : State := { s with line := f s.line }
/-- Change the optics. -/
def State.mapOpt (s : State) (f : Opt → Opt) : State := { s with opt := f s.opt }
/-- Change keys. -/
def State.mapSec (s : State) (f : Sec → Sec) : State := { s with sec := f s.sec }
/-- Change the state of sites apart. -/
def State.mapSites (s : State) (f : Sites → Sites) : State := { s with sites := f s.sites }
/-- Change faults, events and Ledger. -/
def State.mapFlt (s : State) (f : Flt → Flt) : State := { s with flt := f s.flt }
/-- Change management and firmware. -/
def State.mapMgt (s : State) (f : Mgt → Mgt) : State := { s with mgt := f s.mgt }
/-- Change time and clocks. -/
def State.mapTime (s : State) (f : TimeSt → TimeSt) : State := { s with time := f s.time }
/-- Change bring-up. -/
def State.mapBru (s : State) (f : Bru → Bru) : State := { s with bru := f s.bru }
/-- Let something leave the device: the newest stands first. -/
def State.emit (s : State) (o : Output) : State := { s with out := o :: s.out }
/-- Take one open value. -/
def State.takeFree (s : State) : Nat × State := (Config.freeValue s.free, { s with free := s.free + 1 })

/-- An entry of a vector by number, or a default past its end. -/
def vget {α : Type} {n : Nat} (v : Vector α n) (i : Nat) (d : α) : α := v.toArray.getD i d

/-- Change an entry of a vector by number. -/
def vupd {α : Type} {n : Nat} (v : Vector α n) (i : Nat) (f : α → α) : Vector α n :=
  match v[i]? with
  | some x => v.setIfInBounds i (f x)
  | none => v

end Sys2Proof.Machine
end

