-- ==== Sys2Proof/Machine/Regs.lean ====
section
/-! DEFINITION. Registers as stored values: finding a register, its reset value, fields, counters and sticky bits (R10 to
R14). A register that is not listed holds its reset value. -/

namespace Sys2Proof.Machine

open Sys2Proof

/-- Every register of the device, by block. -/
def allRegs : List RegDef :=
  prsRegs ++ cmpRegs ++ hstRegs ++ clrRegs ++ memRegs ++ qosRegs ++ ((List.range 5).map qosQueueRegs).flatten ++ fltRegs ++
    clkRegs ++ tmsRegs ++ lneRegs ++ optRegs ++ secRegs ++ bruRegs ++ mgtRegs

/-- Does a register definition hold an address? -/
def RegDef.holds (r : RegDef) (a : Nat) : Bool :=
  decide (r.base ≤ a) && decide ((a - r.base) % r.stride = 0) && decide ((a - r.base) / r.stride < r.num)

/-- The fields of the register at an address, where there is one. -/
def regFields (a : Nat) : Option (List FieldDef) := (allRegs.find? fun r => r.holds a).map (·.fields)

/-- The reset value of the register at an address. -/
def regReset (a : Nat) : Nat := sumNat (((regFields a).getD []).map fun f => f.reset * 2 ^ f.lo)

/-- The stored value of a register. -/
def regVal (s : State) (a : Nat) : Nat := (mget s.regs a).getD (regReset a)

/-- Store a value, keeping the canonical form in which reset values are not listed. -/
def regSet (a v : Nat) (s : State) : State := s.mapRegs fun m => mput (regReset a) m a v

/-- A field of a stored register. -/
def fld (s : State) (a lo w : Nat) : Nat := bitsOf (regVal s a) lo w

/-- One bit of a stored register. -/
def bit (s : State) (a lo : Nat) : Bool := bitOf (regVal s a) lo

/-- Set a field of a stored register. -/
def fldSet (a lo w v : Nat) (s : State) : State := regSet a (putBits (regVal s a) lo w v) s

/-- Hardware sets sticky bits. -/
def setBits (a mask : Nat) (s : State) : State := regSet a (regVal s a ||| mask) s

/-- A counter goes up, stopping at its largest value. -/
def bumpBy (a n : Nat) (s : State) : State := regSet a (min (2 ^ 32 - 1) (regVal s a + n)) s

/-- A counter goes up by one. -/
def bump (a : Nat) (s : State) : State := bumpBy a 1 s

/-- A field with 0 treated as 1 (R595). -/
def fld1 (s : State) (a lo w : Nat) : Nat := max 1 (fld s a lo w)

end Sys2Proof.Machine
end

