-- ==== Sys2Proof/Machine/Ops.lean ====
section
/-! DEFINITION. The operations every family shares: events and the Ledger, what leaves the device, casks, user regions and
memory. -/

namespace Sys2Proof.Machine

open Sys2Proof

/-! ### Scheduler entry and mailbox datagrams -/

/-- Put an item at the tail of a queue. -/
def enqueue (sched queue : Nat) (it : EItem) (s : State) : State :=
  s.mapQos fun q => vupd q sched fun c =>
    { c with queues := vupd c.queues queue fun e => { e with items := e.items ++ [(s.tick, it)] } }

/-- The queue a group's traffic enters at a scheduler (R428). -/
def groupQueue (s : State) (sched group : Nat) : Nat :=
  match s.qos[sched]? with
  | some c => mgetD c.active.groupMap group 4
  | none => 4

/-- Queue a packet on its group's queue of the host egress. -/
def sendHost (p : HostPkt) (s : State) : State := enqueue 0 (groupQueue s 0 p.group) (.host p) s

/-- Queue a partial on its group's queue of a line port (R428). -/
def sendLine (p : LinePartial) (s : State) : State := enqueue (p.port + 1) (groupQueue s (p.port + 1) p.group) (.line p) s

/-- Header of a mailbox datagram (R310). -/
def mbxHeader (kind session counter mailbox bodyLen reqSeq : Nat) : List Byte :=
  beBytes 2 0x5658 ++ [1, byte kind] ++ beBytes 4 session ++ beBytes 8 counter ++ [byte mailbox, 0] ++ beBytes 2 bodyLen ++
    beBytes 4 reqSeq ++ List.replicate 8 0

/-- The nonce of a mailbox datagram: direction word and counter (R312). -/
def mbxNonce (toHost : Bool) (counter : Nat) : List Byte := beBytes 4 (b2n toHost) ++ beBytes 8 counter

/-- Send an encrypted datagram of a session (R310, R312): its counter is used once; at 2^32 the session ends (R313). -/
def mbxSend (sid kind mailbox reqSeq : Nat) (body : List Byte) (s : State) : State :=
  match mget s.host.sessions sid with
  | none => s
  | some x =>
    let hdr := mbxHeader kind sid x.nextOut mailbox body.length reqSeq
    -- in a twin session of the shadow, the shadow speaks in the host's role (R497)
    let toHost := !(x.twin && x.role == 255)
    let c := gcmSeal x.keyOut (mbxNonce toHost x.nextOut) hdr body
    let s1 := enqueue 0 1 (.other (.mailbox x.src (hdr ++ c.1 ++ c.2))) s
    s1.mapHost fun h =>
      { h with sessions :=
          if x.nextOut + 1 ≥ 2 ^ 32 then mdel h.sessions sid
          else mset h.sessions sid { x with nextOut := x.nextOut + 1 } }

/-! ### Events and the Ledger (R515 to R525) -/

/-- The class nibble of an event code (R17). -/
def evClass (code : Nat) : Nat := code / 2 ^ 12

/-- The bytes of an event record, in the order of the place (R515). -/
def EventRec.toBytes (line : Bool) (e : EventRec) : List Byte :=
  let w := fun k n => if line then beBytes k n else leBytes k n
  w 8 e.seq ++ w 8 e.tick ++ w 2 e.code ++ [0, 0] ++ ((List.range 3).map fun i => w 4 (e.args.getD i 0)).flatten

/-- Bytes 0 to 479 of a Ledger record (R521). -/
def LedgerRec.head (r : LedgerRec) : List Byte :=
  leBytes 4 0x4C444752 ++ [1, byte r.stream] ++ leBytes 2 r.kind ++ leBytes 8 r.index ++ leBytes 8 r.tick ++
    leBytes 12 r.time ++ leBytes 2 r.code ++ leBytes 2 r.boot ++ leBytes 4 r.fwVersion ++ leBytes 4 r.body.length ++
    padTo 432 r.body

/-- The whole 512 bytes of a Ledger record. -/
def LedgerRec.toBytes (r : LedgerRec) : List Byte := r.head ++ r.chain

/-- Append a record to a stream: its chain follows the stream's last, the first from the device's own seed (R522); `cap` records
are kept. -/
def LedgerStream.append (st : LedgerStream) (cap tick : Nat) (device : List Byte) (r : LedgerRec) : LedgerStream :=
  let r1 := { r with index := st.next }
  let prev := if st.next = 0 then shake256 (ascii "VX6416 ledger" ++ device ++ [byte r.stream]) 32 else st.chain
  let ch := shake256 (prev ++ r1.head) 32
  let recs := st.recs ++ [{ r1 with chain := ch }]
  { st with
    recs := recs.drop (recs.length - cap)
    next := st.next + 1
    chain := ch
    sealTick := if st.unsealed = st.next then tick else st.sealTick }

/-- The nanoseconds of the time counter. -/
def TimeSt.ns (t : TimeSt) : Nat := t.counter / 2 ^ 48
/-- The 64-bit ns view V (R454). -/
def TimeSt.v (t : TimeSt) : Nat := t.ns % 2 ^ 64
/-- SEC of the counter (R453). -/
def TimeSt.sec (t : TimeSt) : Nat := t.ns / 10 ^ 9 % 2 ^ 48
/-- NS of the counter. -/
def TimeSt.nanos (t : TimeSt) : Nat := t.ns % 10 ^ 9
/-- FRAC of the counter. -/
def TimeSt.frac (t : TimeSt) : Nat := t.counter / 2 ^ 32 % 2 ^ 16
/-- The 96 bits of the counter (R453). -/
def TimeSt.time96 (t : TimeSt) : Nat := t.sec * 2 ^ 48 + t.nanos * 2 ^ 16 + t.frac

/-- The time a Ledger record carries: zero while time is not valid (R521). -/
def ledgerTime (s : State) : Nat := if s.time.valid then s.time.time96 else 0

/-- Put the two streams of the Ledger in place. -/
def Flt.withStreams (c f : LedgerStream) (x : Flt) : Flt := { x with ledgerC := c, ledgerF := f }

/-- Write a Ledger record to stream C, and to stream F while it has room and the class is 0x8 or above (R520). -/
def ledgerWrite (kind code : Nat) (body : List Byte) (s : State) : State :=
  let r : LedgerRec :=
    { stream := 0, kind := kind, index := 0, tick := s.tick, time := ledgerTime s, code := code, boot := s.mgt.boot,
      fwVersion := s.mgt.fwVersion, body := body.take 432, chain := [] }
  let inF := decide (8 ≤ evClass code) && decide (s.flt.ledgerF.next < 32768)
  s.mapFlt (Flt.withStreams (s.flt.ledgerC.append 884736 s.tick s.mgt.deviceId r)
    (if inF then s.flt.ledgerF.append 32768 s.tick s.mgt.deviceId { r with stream := 1 } else s.flt.ledgerF))

/-- Send an event record to every session that has subscribed to it; a non-maskable event goes to every open session
(R315, R516, R517). -/
def deliverEvent (e : EventRec) (s : State) : State :=
  s.host.sessions.foldl (fun a x =>
    match x.2.sub with
    | some (cls, from_) =>
      if (cls ≤ evClass e.code ∧ from_ ≤ e.seq) ∨ evClass e.code = 15 then mbxSend x.1 6 0 0 (e.toBytes true) a else a
    | none => if evClass e.code = 15 then mbxSend x.1 6 0 0 (e.toBytes true) a else a) s

/-- The information events that the Ledger records (R523). -/
def ledgerInfo (code : Nat) : Bool := [0x1C01, 0x1A03, 0x1902, 0x1E04].contains code

/-- The slot a capture goes into (R527): the first that is not VALID, else the one with the later capture. -/
def captureSlot (b0 b1 : BarnSlot) : Nat :=
  if ¬ b0.valid then 0 else if ¬ b1.valid then 1 else if b1.seq < b0.seq then 0 else 1

/-- A fatal event begins the capture (R518, R528): its slot takes the header of the event; one during a capture is counted. -/
def beginCapture (code : Nat) (s : State) : State :=
  match s.flt.capturing with
  | some k => { s with flt := { s.flt with barn := vupd s.flt.barn k fun b => { b with laterFatals := b.laterFatals + 1 } } }
  | none =>
    if s.flt.fatal ∨ ¬ bit s 0x00340004 1 then s
    else
      let k := captureSlot (vget s.flt.barn 0 BarnSlot.empty) (vget s.flt.barn 1 BarnSlot.empty)
      let fresh := fun (b : BarnSlot) => { BarnSlot.empty with
        valid := b.valid, seq := s.flt.barnSeq + 1, tick := s.tick, time := s.time.time96, cause := code, boot := s.mgt.boot,
        fwVersion := s.mgt.fwVersion, ledgerIndex := s.flt.ledgerC.next }
      { s with flt := { s.flt with barnSeq := s.flt.barnSeq + 1, capturing := some k, barn := vupd s.flt.barn k fresh } }

/-- Firmware restarts and already holds 256 records: a further one is dropped (R516). -/
def recordHeld (s : State) : Bool := !s.flt.vintnerUp && decide (256 ≤ s.flt.vintnerHeld)

/-- The record of an event enters the ring and the counts; the first fatal event is kept (R515, R516, R518). -/
def noteEvent (e : EventRec) (s : State) : State :=
  { s with flt := { s.flt with
      seq := e.seq
      ring := if recordHeld s then s.flt.ring else (e :: s.flt.ring).take 4096
      counts := mupdD s.flt.counts e.code 0 (· + 1)
      vintnerHeld := if s.flt.vintnerUp then s.flt.vintnerHeld else s.flt.vintnerHeld + 1
      fatal := s.flt.fatal || evClass e.code == 12
      fatalCause := if !s.flt.fatal && evClass e.code == 12 then e.code else s.flt.fatalCause
      fatalTick := if !s.flt.fatal && evClass e.code == 12 then s.tick else s.flt.fatalTick } }

/-- The register that counts the events of a class. -/
def classCounter (cls : Nat) : Nat :=
  if cls = 1 then 0x00340040 else if cls = 4 then 0x00340044 else if cls = 8 then 0x00340048
  else if cls = 12 then 0x0034004C else 0x00340050

/-- The registers in which an event shows: the counter of its class, records dropped, and NMI with its summary (R516, R558). -/
def countEvent (code : Nat) (held : Bool) (s : State) : State :=
  let s2 := bump (classCounter (evClass code)) s
  let s3 := if held then bump 0x00340058 s2 else s2
  if evClass code = 15 then
    setBits 0x00000010 (if code = 0xFD01 then 1 else if code = 0xFF01 then 2 else 0) (setBits 0x00340008 2 s3)
  else s3

/-- A fatal event stops pressing (R518). -/
def stopIfFatal (code : Nat) (s : State) : State :=
  if evClass code = 12 then s.mapPress fun p => { p with running := false } else s

/-- Record an event without the events that its recording can raise. -/
def raiseCore (code : Nat) (args : List Nat) (s0 : State) : State :=
  let s := if evClass code = 12 then beginCapture code s0 else s0
  let e : EventRec := { seq := s.flt.seq + 1, tick := s.tick % 2 ^ 64, code := code, args := args.take 3 }
  let s5 := stopIfFatal code (countEvent code (recordHeld s) (noteEvent e s))
  if s.flt.vintnerUp then deliverEvent e s5 else s5

/-- EV_LEDGER_DROPPED comes at most once in a second (R523). -/
def dropNoticeDue (s : State) : Bool :=
  match s.flt.dropEvTick with
  | some t => decide (t + 500000 ≤ s.tick)
  | none => true

/-- Has stream F just become full (R520)? -/
def ledgerFFills (s : State) : Bool := s.flt.ledgerF.next == 32768 && !s.flt.ledgerFFull

/-- A class 0x4 record over the rate limit is dropped and counted by code (R523). -/
def dropWarning (code : Nat) (s : State) : State :=
  let s1 := bump 0x0034005C (s.mapFlt fun f => { f with dropped := mupdD f.dropped code 0 (· + 1) })
  if dropNoticeDue s then raiseCore 0x4F03 [] (s1.mapFlt fun f => { f with dropEvTick := some s.tick }) else s1

/-- The Ledger record of a class 0x4 event, while such records are written, within the limit of a second (R523). -/
def warnRecord (code : Nat) (e : EventRec) (s : State) : State :=
  if ¬ bit s 0x00340004 3 then s
  else if s.flt.warnCount < fld1 s 0x00340014 16 8 then
    ledgerWrite 1 code (e.toBytes false) (s.mapFlt fun f => { f with warnCount := f.warnCount + 1 })
  else dropWarning code s

/-- The event just raised, as its record. -/
def lastEvent (code : Nat) (args : List Nat) (s : State) : EventRec :=
  { seq := s.flt.seq, tick := s.tick % 2 ^ 64, code := code, args := args.take 3 }

/-- The record of an event of class 0x8 or above, or of one that the Ledger always keeps; EV_LEDGER_FF_FULL when it fills stream F. -/
def ledgerEvent (code : Nat) (e : EventRec) (s : State) : State :=
  let s1 := ledgerWrite 1 code (e.toBytes false) s
  if ledgerFFills s1 then
    let s2 := raiseCore 0x4F02 [] (s1.mapFlt fun f => { f with ledgerFFull := true })
    warnRecord 0x4F02 (lastEvent 0x4F02 [] s2) s2
  else s1

/-- The Ledger record of an event, with the limits of R523. -/
def raiseLedger (code : Nat) (args : List Nat) (s : State) : State :=
  let e := lastEvent code args s
  if evClass code ≥ 8 ∨ ledgerInfo code then ledgerEvent code e s
  else if evClass code = 4 then warnRecord code e s
  else s

/-- Raise an event: number, count, ring, delivery, Ledger; a fatal event stops pressing, a non-maskable event sets NMI and its bit
of MGT_NMI_SUMMARY (R515 to R523, R558). -/
def raise (code : Nat) (args : List Nat) (s : State) : State := raiseLedger code args (raiseCore code args s)

/-- Note that something of the kind of a readiness reason has happened (R552). -/
def happenedNow (code : Nat) (s : State) : State := s.mapBru fun b => { b with happened := insertRising code b.happened }

/-! ### Casks (R249 to R262) -/

/-- Size of a cask class. -/
def caskSize (c : Nat) : Nat := 256 * 4 ^ c

/-- Base of a class's DRAM part (R249). -/
def caskDramBase (c : Nat) : Nat :=
  [0x0C00000000, 0x0C40000000, 0x0CC0000000, 0x0EC0000000, 0x10C0000000, 0x14C0000000, 0x16C0000000, 0x18C0000000].getD c 0

/-- Base of a class's SRAM part in the model's own numbering of the Cellar SRAM. -/
def caskSramBase (c : Nat) : Nat := [0, 0x1000000, 0x3000000, 0x7000000, 0x13000000, 0x1F000000].getD c 0x20000000

/-- The smallest class whose casks hold `n` bytes (R250). -/
def caskClass (n : Nat) : Option Nat := firstFrom 8 0 fun c => decide (n ≤ caskSize c)

/-- A class of the Cellar. -/
def caskCls (s : State) (c : Nat) : CaskClass := vget s.cellar.classes c CaskClass.zero

/-- Has a part a free cask? -/
def CaskPart.hasFree (p : CaskPart) : Bool := decide (p.fresh < p.size) || !p.freed.isEmpty

/-- Casks in use in a class. -/
def CaskClass.used (c : CaskClass) : Nat := c.sram.granted.length + c.dram.granted.length

/-- A cask pointer (R258). -/
def caskPtr (c part idx : Nat) : Nat := idx + part * 2 ^ 22 + c * 2 ^ 23

/-- Take the head of a part's free list; casks never granted stand first. -/
def CaskPart.grant (p : CaskPart) : Option (Nat × CaskPart) :=
  if p.fresh < p.size then some (p.fresh, { p with fresh := p.fresh + 1, granted := insertRising p.fresh p.granted })
  else
    match p.freed with
    | [] => none
    | i :: l => some (i, { p with freed := l, granted := insertRising i p.granted })

/-- One threshold state with hysteresis: entered at or above the threshold, left below it less HYST (R252). -/
def threshState (was : Bool) (occ total thr hyst : Nat) : Bool :=
  if was then decide ((thr - hyst) * total ≤ occ * 256) else decide (thr * total ≤ occ * 256)

/-- Does the host port transmit: link up and TX_EN set (R285)? -/
def txOn (s : State) : Bool := s.host.linkUp && bit s 0x00040004 1

/-- Send a PFC frame on the lossless priorities (R254). -/
def sendPfc (quanta : Nat) (s : State) : State :=
  (if txOn s then bump 0x00040074 (s.emit (.pfc (fld s 0x0004001C 0 8) quanta)) else s).mapHost fun h =>
    { h with pfcSent := decide (0 < quanta), pfcTick := s.tick }

/-- Is any of the classes 0 to 4 at or above BP? -/
def hostBp (s : State) : Bool := (List.range 5).any fun c => (caskCls s c).bp

/-- Start or stop pausing as the classes stand (R254). -/
def pfcFollow (s : State) : State :=
  if bit s 0x00180004 0 ∧ hostBp s ∧ ¬ s.host.pfcSent then sendPfc 0xFFFF s
  else if s.host.pfcSent ∧ ¬ hostBp s then sendPfc 0 s
  else s

/-- Evaluate the thresholds of a class after a grant or a free (R252, R253). -/
def caskEval (c : Nat) (s : State) : State :=
  let k := caskCls s c
  let a := 0x00180100 + c * 0x10
  let total := k.sram.size + k.dram.size
  let st := fun was lo => threshState was k.used total (fld s a lo 8) (fld s a 24 8)
  let w := st k.warn 0
  let b := st k.bp 8
  let r := st k.refuse 16
  let s1 := s.mapCellar fun x =>
    { x with classes := vupd x.classes c fun y => { y with warn := w, bp := b, refuse := r, peak := max y.peak y.used } }
  let s2 := if w && !k.warn then raise 0x4701 [c] s1 else s1
  let s3 := if b && !k.bp then raise 0x4702 [c] s2 else s2
  let s4 := if r && !k.refuse then raise 0x4703 [c] s3 else s3
  pfcFollow s4

/-- Request a cask of a class from its parts: SRAM first where preferred; refused at REFUSE for an SRAM-preferred request
(R250, R251, R256). -/
def caskFrom (c : Nat) (dramOnly : Bool) (s : State) : Option Nat × State :=
  let k := caskCls s c
  if k.refuse ∧ ¬ dramOnly then (none, bump (0x0018010C + c * 0x10) s)
  else
    match (if dramOnly then none else k.sram.grant) with
    | some (i, p) =>
      (some (caskPtr c 0 i),
        caskEval c (s.mapCellar fun x => { x with classes := vupd x.classes c fun y => { y with sram := p } }))
    | none =>
      match k.dram.grant with
      | some (i, p) =>
        (some (caskPtr c 1 i),
          caskEval c (s.mapCellar fun x => { x with classes := vupd x.classes c fun y => { y with dram := p } }))
      | none => (none, if dramOnly then s else bump (0x0018010C + c * 0x10) s)

/-- Request a cask for `n` bytes (R250): a request above 4 MiB is a bad request. -/
def drawCask (n : Nat) (dramOnly : Bool) (s : State) : Option Nat × State :=
  match caskClass n with
  | none => (none, bump 0x00180040 s)
  | some c => caskFrom c dramOnly s

/-- The class, part and index of a pointer. -/
def ptrClass (p : Nat) : Nat := bitsOf p 23 3
/-- The part of a pointer. -/
def ptrPart (p : Nat) : Nat := bitsOf p 22 1
/-- The index of a pointer. -/
def ptrIndex (p : Nat) : Nat := bitsOf p 0 22

/-- The part a pointer names. -/
def ptrPool (s : State) (p : Nat) : CaskPart :=
  let k := caskCls s (ptrClass p)
  if ptrPart p = 0 then k.sram else k.dram

/-- The first of the cask port's checks that fails, if any (R259). -/
def caskPortCheck (s : State) (p off len : Nat) : Option Nat :=
  if p ≥ 2 ^ 26 ∨ (ptrPart p = 0 ∧ 6 ≤ ptrClass p) then some 1
  else if (ptrPool s p).size ≤ ptrIndex p then some 2
  else if off % 32 ≠ 0 then some 3
  else if len = 0 ∨ caskSize (ptrClass p) < off + len then some 4
  else none

/-- Give a cask back at the tail of its list; a double free is refused (R261). -/
def poolFree (p : Nat) (s : State) : State :=
  let pool := ptrPool s p
  if ¬ pool.granted.contains (ptrIndex p) then raise 0x8702 [p] (bump 0x00180044 s)
  else
    let q := { pool with freed := pool.freed ++ [ptrIndex p], granted := pool.granted.erase (ptrIndex p) }
    let put : CaskClass → CaskClass := fun y => if ptrPart p = 0 then { y with sram := q } else { y with dram := q }
    caskEval (ptrClass p) (s.mapCellar fun x => { x with classes := vupd x.classes (ptrClass p) put })

/-- Free a list of casks of the device's own. -/
def freeCasks (ps : List Nat) (s : State) : State := ps.foldl (fun a p => poolFree p a) s

/-! ### Memory bytes and user regions (R274 to R277) -/

/-- What a byte that nothing has written reads as. -/
def memDefault : Byte := 0

/-- Read one byte of a cell list. -/
def cellGet (m : List Host.Cell) (a : Nat) : Byte := (mget m a).getD memDefault

/-- Write one byte of a cell list, keeping its canonical form. -/
def cellPut (m : List Host.Cell) (a : Nat) (b : Byte) : List Host.Cell := mput memDefault m a b

/-- The canonical form of memory: addresses strictly rising, no entry equal to what an unlisted address reads as. -/
def Memory.wf (m : List Host.Cell) : Bool := mcanon memDefault m

/-- Read `n` bytes. -/
def cellRead (m : List Host.Cell) (a n : Nat) : List Byte := (List.range n).map fun i => cellGet m (a + i)

/-- Write bytes at rising addresses. -/
def cellWrite (m : List Host.Cell) (a : Nat) : List Byte → List Host.Cell
  | [] => m
  | b :: l => cellWrite (cellPut m a b) (a + 1) l

/-- Words of 4 bytes that a write covers whole: their poison ends (R267). -/
def unpoison (ps : List Nat) (a n : Nat) : List Nat := ps.filter fun w => !(decide (a ≤ w) && decide (w + 4 ≤ a + n))

/-- Write bytes to DRAM. -/
def dramWrite (a : Nat) (l : List Byte) (s : State) : State :=
  s.mapMem fun m => { m with dram := cellWrite m.dram a l, poison := unpoison m.poison a l.length }

/-- Read bytes of DRAM. -/
def dramRead (s : State) (a n : Nat) : List Byte := cellRead s.mem.dram a n

/-- Does a range of DRAM hold a poisoned word? -/
def dramPoisoned (s : State) (a n : Nat) : Bool := s.mem.poison.any fun w => decide (a < w + 4) && decide (w < a + n)

/-- The region a handle names, where it is live and of that generation (R276). -/
def regionOf (s : State) (h : Nat) : Option Region :=
  match mget s.mem.regions (h % 4096) with
  | some r => if r.live ∧ r.gen = h / 4096 ∧ h ≠ 0 then some r else none
  | none => none

/-- The size of a region, 0 for a freed or stale handle. -/
def regionSize (s : State) (h : Nat) : Nat := ((regionOf s h).map (·.size)).getD 0

/-- Read `n` bytes of a region at an offset. -/
def regionRead (s : State) (h off n : Nat) : List Byte :=
  match regionOf s h with
  | some r => dramRead s (r.base + off) n
  | none => []

/-- Write bytes of a region at an offset, as far as it goes. -/
def regionWrite (h off : Nat) (l : List Byte) (s : State) : State :=
  match regionOf s h with
  | some r => dramWrite (r.base + off) (l.take (r.size - off)) s
  | none => s

/-- Does a range of a region hold a poisoned word? -/
def regionPoisoned (s : State) (h off n : Nat) : Bool :=
  match regionOf s h with
  | some r => dramPoisoned s (r.base + off) n
  | none => false

/-- Does a write to a region cover a poisoned word in part, so that it is not carried out (R267)? -/
def regionTorn (s : State) (h off n : Nat) : Bool :=
  match regionOf s h with
  | some r => (unpoison s.mem.poison (r.base + off) n).any fun w =>
      decide (r.base + off < w + 4) && decide (w < r.base + off + n)
  | none => false

/-! ### Control messages (R333, R334) -/

/-- Types of the control messages that carry collective state. -/
def ctlLaunch : Nat := 0x10
/-- Abort notice. -/
def ctlAbort : Nat := 0x11
/-- Fence-clear. -/
def ctlFence : Nat := 0x12

end Sys2Proof.Machine
end

