-- ==== Sys2Proof/Machine/CollBase.lean ====
section
/-! DEFINITION. Looking up groups, members and instances; what an operation needs and whom it serves (R173 to R195). -/

namespace Sys2Proof.Machine

open Sys2Proof

/-- The key of an instance. -/
def ikey (group inst : Nat) : Nat := group * 2 ^ 32 + inst

/-- Is instance `a` earlier than `b` in serial order (R168)? -/
def earlier (a b : Nat) : Bool := let d := ringDist 32 b a; decide (1 ≤ d) && decide (d ≤ 2 ^ 31 - 1)

/-- An empty group. -/
def GroupRec.new : GroupRec :=
  { current := none, standby := none, draining := none, applyT := 0, applyP1 := 0x3F800000, applyP2 := 0x3F800000,
    lastCommitted := 0, everCommitted := false }

/-- A group that is VALID: one with a current version. -/
def groupOf (s : State) (g : Nat) : Option GroupRec :=
  match mget s.coll.groups g with
  | some r => if r.current.isSome then some r else none
  | none => none

/-- Which version of a group an epoch names: 0 current, 1 standby, 2 draining (R176, R177). -/
def versionOf (r : GroupRec) (epoch : Nat) : Option (Nat × GroupTable) :=
  match r.current with
  | some t => if t.epoch = epoch then some (0, t) else
    match r.standby with
    | some u => if u.epoch = epoch then some (1, u) else
      match r.draining with
      | some v => if v.epoch = epoch then some (2, v) else none
      | none => none
    | none => match r.draining with
      | some v => if v.epoch = epoch then some (2, v) else none
      | none => none
  | none => match r.standby with
    | some u => if u.epoch = epoch then some (1, u) else none
    | none => none

/-- The table an epoch names, or the current one. -/
def tableFor (r : GroupRec) (epoch : Nat) : Option GroupTable :=
  match versionOf r epoch with
  | some (_, t) => some t
  | none => r.current

/-- Local entries of a table with their ranks. -/
def localRanks (t : GroupTable) : List (Nat × Member) :=
  (t.members.mapIdx fun i m => (i, m)).filter fun p => !p.2.far

/-- Far entries of a table with their ranks. -/
def farRanks (t : GroupTable) : List (Nat × Member) :=
  (t.members.mapIdx fun i m => (i, m)).filter fun p => p.2.far

/-- The position of a rank among the local entries (R150). -/
def localIndex (t : GroupTable) (rank : Nat) : Nat := ((localRanks t).filter fun p => decide (p.1 < rank)).length

/-- The far entry reached through a port (R181). -/
def farOfPort (t : GroupTable) (port : Nat) : Option (Nat × Member) := (farRanks t).find? fun p => p.2.endpoint == port

/-- Site masks. -/
def siteBit (i : Nat) : Nat := 2 ^ i
/-- Does a mask contain another? -/
def covers (a b : Nat) : Bool := (a &&& b) == b
/-- A mask without another's bits. -/
def maskMinus (a b : Nat) : Nat := (List.range 8).foldl (fun n i => if bitOf a i && !bitOf b i then n + 2 ^ i else n) 0

/-- A live instance. -/
def instOf (s : State) (g i : Nat) : Option Instance := mget s.coll.insts (ikey g i)

/-- Has an instance ended here (R191)? -/
def hasEnded (s : State) (g i : Nat) : Bool :=
  (instOf s g i).isNone &&
    ((s.coll.ended.any fun e => e.group == g && e.inst == i) ||
      match mget s.coll.groups g with
      | some r => r.everCommitted && (r.lastCommitted == i || earlier i r.lastCommitted)
      | none => false)

/-- Replace an instance. -/
def putInst (x : Instance) (s : State) : State := s.mapColl fun c => { c with insts := mset c.insts (ikey x.group x.inst) x }

/-- Change an instance where it is live. -/
def updInst (g i : Nat) (f : Instance → Instance) (s : State) : State :=
  s.mapColl fun c => { c with insts := mupd c.insts (ikey g i) f }

/-- Change a group. -/
def updGroup (g : Nat) (f : GroupRec → GroupRec) (s : State) : State :=
  s.mapColl fun c => { c with groups := mupd c.groups g f }

/-- Counts of an instance before it starts. -/
def Stats.zero : Stats := ⟨0, 0, 0, 0, 0, 0, 0, 0, 0, 0, 0, 0⟩

/-- A new instance, opened at an edge (R191). -/
def Instance.new (g i epoch tick : Nat) (abortSlot : Bool) : Instance :=
  { group := g, inst := i, epoch := epoch, phase := .opened, abortSlot := abortSlot, openTick := tick, commitTick := 0,
    refHash := none, refFence := none, desc := none, launches := [], held := false, noticeSites := 0, table := none,
    pset := PSet.none, image := none, idx := none, applyT := 0, applyP1 := 0, applyP2 := 0, clears := [], order := 0, chunks := [],
    ownCode := 0, detailKind := 0, detail := 0, notices := [], fallow := false, fallowDone := false,
    catchup := false, excluded := 0, runsOn := false, fallowRanks := [], delivered := [], completed := [], waitingCask := false, casks := [], fwEvent := false,
    blends := [], stats := Stats.zero }

/-- Slots in use (R190): those of live instances and those reserved. -/
def slotsUsed (s : State) (abortOnly : Bool) : Nat :=
  (s.coll.insts.filter fun e => e.2.abortSlot == abortOnly).length + (s.coll.reserved.filter fun e => e.2 == abortOnly).length

/-- The kind of slot that is free: false an ordinary one, true an abort-only one (R192). -/
def freeSlot (s : State) : Option Bool :=
  if slotsUsed s false < 4096 then some false else if slotsUsed s true < 256 then some true else none

/-- Ask for an abort at step 3 of the edge. -/
def askAbort (g i cls code dk d : Nat) (s : State) : State :=
  let site := match mget s.coll.groups g with
    | some r => (r.current.map (·.localSite)).getD 0
    | none => 0
  s.mapColl fun c => { c with aborts := c.aborts ++ [⟨g, i, cls, code, site, dk, d⟩] }

/-- Open an instance on a reserved or a free slot (R191, R192): in an abort-only slot it is to be aborted with
NO_INSTANCE. -/
def openInst (g i epoch : Nat) (s : State) : State :=
  match instOf s g i with
  | some _ => s
  | none =>
    let k := ikey g i
    let slot := match mget s.coll.reserved k with
      | some b => b
      | none => (freeSlot s).getD true
    let s1 := (putInst (Instance.new g i epoch s.tick slot) s).mapColl fun c => { c with reserved := mdel c.reserved k }
    if slot then askAbort g i 1 0x0109 0 0 s1 else s1

/-- The operation of a descriptor. -/
def Desc.op (d : Desc) : Op := (Op.ofCode d.opCode).getD .barrier

/-- A descriptor from its 32 bytes (R193). -/
def Desc.ofBytes (l : List Byte) : Desc :=
  { group := beAt l 0 2, epoch := beAt l 2 2, opCode := byteAt l 4, inType := byteAt l 5 / 16, outType := byteAt l 5 % 16,
    coding := byteAt l 6, elements := beAt l 8 8, chunkSize := beAt l 16 4, mode := beAt l 20 4, bytes := l }

/-- The descriptor hash (R194). -/
def descHash (l : List Byte) : Nat := beNat (shake256 (l.take 32) 8)

/-- Is a number a power of two? -/
def isPow2 (n : Nat) : Bool := decide (n ≠ 0) && 2 ^ n.log2 == n

/-- Do ELEMENT_COUNT, CHUNK_SIZE and the reserved bytes satisfy R133 or the SET-MERGE rules (R195 order 7)? -/
def sizesOk (d : Desc) : Bool :=
  byteAt d.bytes 7 == 0 && beAt d.bytes 24 8 == 0 &&
    (match d.op with
     | .setMerge =>
       isPow2 d.elements && decide (32 ≤ d.elements) && decide (d.elements ≤ 2 ^ 32) &&
         isPow2 d.chunkSize && decide (32 ≤ d.chunkSize) && decide (d.chunkSize ≤ d.elements)
     | .barrier => true
     | o =>
       decide (1 ≤ d.elements) && decide (d.elements ≤ 2 ^ 40) && decide (d.chunkSize % 32 = 0) &&
         decide (32 ≤ d.chunkSize) && decide (d.chunkSize ≤ largestChunk d.inType) &&
         decide (chunkCount d.elements d.chunkSize ≤ 2 ^ 32) && (o != .gather || decide (d.elements % 32 = 0)))

/-- Chunks of an instance's operation; a barrier has none. -/
def Desc.chunks (d : Desc) : Nat := if d.op = .barrier then 0 else chunkCount d.elements d.chunkSize

/-- Does the operation work row by row on reduced rows? -/
def Desc.rowWise (d : Desc) : Bool :=
  match d.op with
  | .sum | .max | .min | .avg | .quantise | .apply | .eprog => true
  | .topK => modeReduce d.mode
  | _ => false

/-- Does each chunk belong to one source member? -/
def Desc.bySource (d : Desc) : Bool := d.op == .broadcast || d.op == .scatter

/-- Is the reduction exact, rank-order, or by comparison? -/
def Desc.isRank (d : Desc) : Bool := rankOrder d.op d.inType d.mode

/-- MAX or MIN? -/
def Desc.isCmp (d : Desc) : Bool := d.op == .max || d.op == .min

/-- Elements of chunk `c`. -/
def Desc.chunkLen (d : Desc) (c : Nat) : Nat := chunkElems d.elements d.chunkSize c

/-- The form of a member's payload. -/
def Desc.form (d : Desc) : Form := if d.op = .setMerge then .pairs d.inType else .dense d.inType

/-- The ranks that contribute data at this gateway. -/
def contributors (t : GroupTable) (d : Desc) (p : PSet) : List Nat :=
  let all := (localRanks t).map (·.1)
  match d.op with
  | .barrier => []
  | .scatter => all.filter fun r => r == p.root
  | .broadcast => if p.root = 0xFFFF then all else all.filter fun r => r == p.root
  | _ => all

/-- The key of a chunk in its instance: for an operation by source, the source's site and local rank stand in front. -/
def chunkKey (d : Desc) (t : GroupTable) (rank c : Nat) : Nat :=
  if d.bySource then (t.localSite * 4096 + localIndex t rank) * 2 ^ 32 + c else c

/-- Sites whose contributions an instance still needs: those of the table but the ones taken out under FALLOW. -/
def neededSites (x : Instance) (t : GroupTable) : Nat := maskMinus t.sites x.excluded

/-- The table an instance runs under. -/
def instTable (s : State) (x : Instance) : Option GroupTable :=
  match x.table with
  | some t => some t
  | none => match mget s.coll.groups x.group with
    | some r => tableFor r x.epoch
    | none => none

/-- Does the member of a rank receive chunk `c` (R137)? -/
def receives (d : Desc) (p : PSet) (n c rank : Nat) : Bool :=
  if d.op.usesDeliver then
    match modeDeliver d.mode with
    | 1 => partitionRank n d.chunks c == rank
    | 2 => p.root == rank
    | _ => true
  else true

/-- Are all of a chunk's local contributions counted? -/
def chunkLocalFull (rs : List Nat) (ch : Chunk) : Bool :=
  rs.all fun r => ch.locals.any fun k => k.rank == r && k.done

/-- Members of a group, far ones counted through their entries. -/
def totalMembers (t : GroupTable) : Nat := sumNat (t.members.map fun m => if m.far then m.coveredMembers else 1)

/-- Sites counted in a chunk: this one once its locals are full, and those of the far partials. -/
def chunkSites (t : GroupTable) (rs : List Nat) (ch : Chunk) : Nat :=
  ch.fars.foldl (fun m f => m ||| f.sites) (if chunkLocalFull rs ch then siteBit t.localSite else 0)

/-- A group with every site present. -/
def GroupSites.zero : GroupSites := { absent := 0, episode := none, limitRaised := false, hold := false, primaryLost := false }

/-- The absence state of a group. -/
def groupSites (s : State) (g : Nat) : GroupSites := (mget s.sites.groups g).getD GroupSites.zero

/-- Change the absence state of a group. -/
def updGroupSites (g : Nat) (f : GroupSites → GroupSites) (s : State) : State :=
  s.mapSites fun x => { x with groups := mupdD x.groups g GroupSites.zero f }

/-- Sites absent for a group (R479). -/
def absentMask (s : State) (g : Nat) : Nat := (groupSites s g).absent

/-- Change the Silo record of an instance. -/
def updSilo (g i : Nat) (f : SiloRec → SiloRec) (s : State) : State :=
  s.mapSites fun x => { x with silo := x.silo.map fun r => if r.group == g && r.inst == i then f r else r }

/-- The Silo record of an instance. -/
def siloOf (s : State) (g i : Nat) : Option SiloRec := s.sites.silo.find? fun r => r.group == g && r.inst == i

/-- The POLICY of a group's current version (R180). -/
def groupPolicy (s : State) (g : Nat) : Nat := ((groupOf s g).bind fun r => r.current.map (·.policy)).getD 0

/-- An empty chunk of `rows` rows. -/
def Chunk.new (idx rows : Nat) : Chunk :=
  { index := idx, locals := [], fars := [], rows := List.replicate rows ⟨[], [], [], 0, 0, false, false⟩, localDone := false,
    prods := [], cask := false }

/-- Press rows of a chunk: rows of elements, or one for work done chunk by chunk. -/
def Desc.pressRows (d : Desc) (c : Nat) : Nat := if d.rowWise then ceilDiv (d.chunkLen c) 32 else 1

/-- Every happening of the queues that belongs to an instance. -/
def queuedHost (s : State) (g i : Nat) (stream : Option Nat) (resultsOnly : Bool) : Bool :=
  match s.qos[0]? with
  | none => false
  | some c => c.queues.toList.any fun q => q.items.any fun it => match it.2 with
    | .host p => p.group == g && p.inst == i && (stream.all fun k => k == p.stream) && (!resultsOnly || p.ty == 2)
    | _ => false

/-- Is a partial of an instance still queued on a line port? -/
def queuedLine (s : State) (g i : Nat) : Bool :=
  s.qos.toList.any fun c => c.queues.toList.any fun q => q.items.any fun it => match it.2 with
    | .line p => p.group == g && p.inst == i
    | _ => false

/-- The partner on a port. -/
def partnerOf (s : State) (p : Nat) : Partner := vget s.sites.partners p Partner.fresh

/-- Change the partner on a port. -/
def updPartner (p : Nat) (f : Partner → Partner) (s : State) : State :=
  s.mapSites fun x => { x with partners := vupd x.partners p f }

/-- Launch notices, abort notices, fence-clears and SITE-STATEs are kept while the partner is link-down (R601). -/
def CtlMsg.isKept (m : CtlMsg) : Bool := (decide (0x10 ≤ m.ty) && decide (m.ty ≤ 0x12)) || (m.ty == 0x30 && m.fields.head? == some 4)

/-- A control message to the far gateway of a port: it leaves in the frame at the edge after it is sent, or is kept
while the partner is link-down and the port has not paired again (R333, R601). -/
def sendCtl (port ty : Nat) (fields : List Nat) (body : List Byte) (s : State) : State :=
  let m : CtlMsg := ⟨ty, fields, body⟩
  updPartner port (fun p =>
    if p.linkDown && !p.paired && m.isKept then { p with kept := p.kept ++ [m] } else { p with ctlQueue := p.ctlQueue ++ [m] }) s

/-- The same message to every far member of a table but one port. -/
def toFars (t : GroupTable) (except : Option Nat) (ty : Nat) (fields : List Nat) (s : State) : State :=
  (farRanks t).foldl (fun a p => if except = some p.2.endpoint then a else sendCtl p.2.endpoint ty fields [] a) s

end Sys2Proof.Machine
end

