-- ==== Sys2Proof/Machine/HostOps.lean ====
section
/-! DEFINITION. Streams of the host port: headers, acknowledgements and NACKs, setting a sequence back (R290, R297 to R304). -/

namespace Sys2Proof.Machine

open Sys2Proof

/-- The 48 header bytes of an exchange packet (R290). -/
def exchHeader (ty flags blend group epoch inst chunk rank dtype count stream seq hash declLen srcSite : Nat) : List Byte :=
  beBytes 4 (2 ^ 28 + ty * 2 ^ 24 + flags * 2 ^ 8 + blend) ++ beBytes 2 group ++ beBytes 2 epoch ++ beBytes 4 inst ++
    beBytes 4 chunk ++ beBytes 4 (rank * 2 ^ 20 + dtype * 2 ^ 16 + count) ++ beBytes 4 (stream * 2 ^ 12) ++ beBytes 4 seq ++
    beBytes 8 hash ++ beBytes 4 (declLen * 2 ^ 8 + srcSite) ++ List.replicate 8 0

/-- The whole packet of an outbound stream item at a sequence. -/
def HostPkt.toBytes (p : HostPkt) (seq : Nat) (resend : Bool) : List Byte :=
  exchHeader p.ty (if resend then p.flags ||| 0x80 else p.flags) p.blendId p.group p.epoch p.inst p.chunk p.rank p.dtype
    p.count p.stream seq p.hash p.payload.length p.srcSite ++ p.payload

/-- A received packet from its UDP payload (R290). -/
def Pkt.ofBytes (l : List Byte) : Pkt :=
  { ty := bitsOf (byteAt l 0) 0 4, flags := beAt l 1 2, blendId := byteAt l 3, group := beAt l 4 2, epoch := beAt l 6 2,
    inst := beAt l 8 4, chunk := beAt l 12 4, rank := beAt l 16 2 / 16, dtype := beAt l 16 2 % 16, count := beAt l 18 2,
    stream := beAt l 20 4 / 2 ^ 12, seq := beAt l 24 4, hash := beAt l 28 8, payload := l.drop 48 }

/-- A NACK payload (R300). -/
def nackPayload (cumAck reason backoff : Nat) (ranges : List (Nat × Nat)) : List Byte :=
  beBytes 4 cumAck ++ [byte reason, byte ranges.length] ++ beBytes 2 backoff ++
    (ranges.map fun r => beBytes 4 r.1 ++ beBytes 2 r.2 ++ [0, 0]).flatten

/-- Change a stream. -/
def updStream (id : Nat) (f : StreamCtx → StreamCtx) (s : State) : State :=
  s.mapHost fun h => { h with streams := mupd h.streams id f }

/-- NACK_RETRY in ticks. -/
def nackRetry (s : State) : Nat := fld1 s 0x00040024 0 8
/-- NACK_MAX. -/
def nackMax (s : State) : Nat := fld1 s 0x00040024 8 8
/-- ACK_INTERVAL in ticks. -/
def ackInterval (s : State) : Nat := fld1 s 0x00040024 16 8

/-- Send a NACK or an acknowledgement on a stream (R301, R302): it enters Q2. -/
def sendNack (id reason : Nat) (ranges : List (Nat × Nat)) (s : State) : State :=
  match mget s.host.streams id with
  | none => s
  | some c =>
    let cum := (c.inNext + 2 ^ 32 - 1) % 2 ^ 32
    let s1 := enqueue 0 2 (.nack id (nackPayload cum reason (if reason = 2 then nackRetry s else 0) ranges)) s
    if reason = 0 then updStream id (fun x => { x with ackFrom := s.tick, ackOwed := false }) s1
    else bump 0x00040064 (updStream id (fun x => { x with nacksTx := x.nacksTx + 1 }) s1)

/-- Acknowledge a stream. -/
def sendAck (id : Nat) (s : State) : State := sendNack id 0 [] s

/-- The gap before the first held packet, as ranges (R300): from IN_NEXT to the packets held. -/
def gapRanges (c : StreamCtx) : List (Nat × Nat) :=
  let ds := (c.held.map fun e => ringDist 32 e.1 c.inNext)
  let go := (sortRising ds).foldl (fun (a : List (Nat × Nat) × Nat) d =>
    if a.2 < d then (a.1 ++ [((c.inNext + a.2) % 2 ^ 32, d - a.2)], d + 1) else (a.1, d + 1)) ([], 0)
  go.1.take 64

/-- Open a NACK that repeats (R301) unless one for the same sequence is open. -/
def openNack (id seq reason g i : Nat) (s : State) : State :=
  updStream id (fun c => match c.nack with
    | some n => if n.seq = seq then c else { c with nack := some ⟨seq, reason, 0, s.tick, g, i⟩, stalled := false }
    | none => { c with nack := some ⟨seq, reason, 0, s.tick, g, i⟩, stalled := false }) s

/-- A counted packet is refused: IN_NEXT is set back to its sequence where it stands ahead of it, and a NACK of the reason is sent
(R299); one that follows another refused packet waits its turn. -/
def setBack (id seq reason g i : Nat) (s : State) : State :=
  let keep := updStream id (fun c => { c with refused := mset c.refused seq (reason, g, i) }) s
  if (mget s.host.streams id).any fun c => decide (ringDist 32 c.inNext seq < 2 ^ 31) then
    openNack id seq reason g i (sendNack id reason [(seq, 1)] (updStream id (fun c => { c with inNext := seq }) keep))
  else sendNack id reason [(seq, 1)] keep

/-- Raise an event at most once per stream and cause in 1,000 ticks (R294). -/
def raiseLimited (code id : Nat) (args : List Nat) (s : State) : State :=
  let k := code * 2 ^ 20 + id
  if (mget s.host.evTick k).any fun t => decide (s.tick < t + 1000) then s
  else raise code args (s.mapHost fun h => { h with evTick := mset h.evTick k s.tick })

/-- The slot of a context and class. -/
def BSlot.zero : BSlot :=
  { current := none, previous := none, pending := none, staged := none, install := none, retire := false, offer := none,
    switchSeqs := none, fails := 0, resync := false, resyncTick := 0, resyncFails := 0, rawHold := false, rawCoding := false,
    counts := [], qualify := 0, lastInstall := none, candidate := none, older := [] }

/-- A context and class. -/
def bslot (s : State) (ctx cls : Nat) : BSlot := mgetD s.cmp (ctx * 8 + cls) BSlot.zero

/-- Change a context and class. -/
def updSlot (ctx cls : Nat) (f : BSlot → BSlot) (s : State) : State :=
  s.mapCmp fun m => mupdD m (ctx * 8 + cls) BSlot.zero f

/-- The blends a decoder accepts in a context and class (R232). -/
def acceptedBlends (s : State) (ctx cls : Nat) : List Blend :=
  let b := bslot s ctx cls
  [b.current, b.previous, b.pending].filterMap (fun x => x)

/-- Count the symbols of a raw payload in a context (R243) while the policy measures. -/
def countSymbols (ctx : Nat) (f : Form) (n : Nat) (raw : List Byte) (s : State) : State :=
  match f.cls with
  | none => s
  | some cls =>
    if fld s 0x00140010 0 2 = 0 ∨ bit s 0x00140004 1 then s
    else
      let add := fun (m : SMap Nat) k => mupdD m k 0 fun v => min (2 ^ 32 - 1) (v + 1)
      updSlot ctx cls (fun b => { b with counts := (payloadSymbols f n raw).foldl add b.counts }) s

/-- Count a failure by kind in CMP (R226, R227). -/
def countFail (k : FailKind) (s : State) : State :=
  bump (match k with
    | .header => 0x00140048
    | .blend => 0x0014004C
    | .length => 0x00140050
    | .overrun => 0x00140054
    | .underrun => 0x00140058) s

/-- A DATA packet that failed R225 (R226, R228, R242): discard, count, set back with the reason, and the third failure in a
row requires raw. -/
def dataFailed (p : Pkt) (k : FailKind) (s : State) : State :=
  let s1 := countFail k s
  match mget s.host.streams p.stream with
  | none => s1
  | some c =>
    if 2 ≤ c.decFails ∧ ¬ c.rawRequired then
      setBack p.stream p.seq 4 p.group p.inst
        (bump 0x0014005C (raise 0x4601 [p.stream] (updStream p.stream (fun x => { x with decFails := 0, rawRequired := true }) s1)))
    else setBack p.stream p.seq 3 p.group p.inst (updStream p.stream (fun x => { x with decFails := x.decFails + 1 }) s1)

end Sys2Proof.Machine
end

