-- ==== Sys2Proof/Machine/MbxOps.lean ====
section
/-! DEFINITION. Mailbox requests: who may run one and when, and how it is answered (R314, R410, R559 to R564, R575, R597). -/

namespace Sys2Proof.Machine

open Sys2Proof

/-- A mailbox. -/
def mbxOf (s : State) (m : Nat) : Mbx := vget s.mgt.mbx m Mbx.idle

/-- Change a mailbox. -/
def updMbx (m : Nat) (f : Mbx → Mbx) (s : State) : State := s.mapMgt fun g => { g with mbx := vupd g.mbx m f }

/-- Status codes (R562). -/
def stOk : Nat := 0
/-- UNKNOWN_COMMAND. -/
def stUnknown : Nat := 1
/-- MALFORMED. -/
def stMalformed : Nat := 2
/-- NOT_PERMITTED. -/
def stNotPermitted : Nat := 3
/-- MAILBOX_BUSY. -/
def stMailboxBusy : Nat := 4
/-- BUSY. -/
def stBusy : Nat := 5
/-- INVALID. -/
def stInvalid : Nat := 6
/-- NOT_READY. -/
def stNotReady : Nat := 7
/-- LATE. -/
def stLate : Nat := 8
/-- RANGE. -/
def stRange : Nat := 9
/-- NO_ROOM. -/
def stNoRoom : Nat := 10
/-- LENGTH. -/
def stLength : Nat := 11
/-- LOCKED. -/
def stLocked : Nat := 12
/-- TIMEOUT. -/
def stTimeout : Nat := 13

/-- What a command comes to: status, DETAIL, data, the state after it, and whether its answer comes later. -/
structure CmdRes where
  status : Nat
  detail : Nat
  data : List Byte
  state : State
  deferred : Bool

/-- A refusal: no effect (R562). -/
def refuse (st : Nat) (s : State) : CmdRes := ⟨st, 0, [], s, false⟩
/-- A refusal with a DETAIL. -/
def refuseD (st detail : Nat) (s : State) : CmdRes := ⟨st, detail, [], s, false⟩
/-- Success without data. -/
def done (s : State) : CmdRes := ⟨0, 0, [], s, false⟩
/-- Success with data. -/
def doneWith (data : List Byte) (s : State) : CmdRes := ⟨0, 0, data, s, false⟩
/-- Not answered yet. -/
def later (s : State) : CmdRes := ⟨0, 0, [], s, true⟩

/-- The bytes of a response (R559): the header and the data. -/
def responseBytes (code status token tick detail : Nat) (data : List Byte) : List Byte :=
  beBytes 2 code ++ beBytes 2 status ++ beBytes 4 data.length ++ beBytes 8 token ++ beBytes 8 tick ++ beBytes 4 detail ++
    List.replicate 4 0 ++ data

/-- Answer the request of a mailbox: the response is stored and sent, and the mailbox is free (R314, R559). -/
def mbxAnswer (m status detail : Nat) (data : List Byte) (s : State) : State :=
  let x := mbxOf s m
  let r := responseBytes x.code status x.token s.tick detail data
  let s1 := updMbx m (fun y => { y with waiting := false, deferred := false, resp := some r }) s
  let s2 := s1.mapMgt fun g => { g with order := g.order.filter (· != m) }
  bump 0x00000040 (mbxSend x.session 5 m x.seq r s2)

/-- May a command be answered in the present state (R410, R518, R541, R564, R575)? None where it may; the status otherwise. -/
def stateForbids (s : State) (code : Nat) : Option Nat :=
  let fam := code / 256
  let inRecovery := [0x0101, 0x0106, 0x0D01, 0x0D02, 0x0D03, 0x0D04, 0x0D05, 0x1001].contains code
  let steps := s.bru.stepped && decide (s.bru.step < 10)
  if (s.mgt.recovery || steps) ∧ ¬ inRecovery ∧ ¬ (steps ∧ code = 0x1002) then some stUnknown
  else if s.flt.fatal ∧ fam ≠ 1 ∧ fam ≠ 12 ∧ fam ≠ 13 then some stUnknown
  else if s.sec.anchor.isNone ∧ ¬ [0x0101, 0x0901, 0x0903].contains code then some stNotPermitted
  else none

/-- The commands that need the owner role (R564). -/
def ownerOnly (code : Nat) : Bool := [0x0106, 0x010D, 0x0902, 0x0D05, 0x0D06, 0x0D07].contains code

/-- Does the request at the head of the queue stand in mailbox `m` with this command, with firmware up (R561, R569)? -/
def runsNow (s : State) (m code : Nat) : Bool :=
  let x := mbxOf s m
  (s.mgt.order.head? == some m) && x.waiting && !x.deferred && (x.code == code) && (s.flt.vintnerUp || s.mgt.recovery)

/-- Run a command whose request is at the head of the queue, and answer it. `f` takes the role (1 owner) and the session. `keep`
says that the state of an answer other than OK stands: the command ran and found a failure. -/
def runCmdWith (keep : Bool) (m code : Nat) (f : Nat → Nat → State → CmdRes) (s : State) : State :=
  if ¬ runsNow s m code then s
  else
    let x := mbxOf s m
    match mget s.host.sessions x.session with
    | none => (updMbx m (fun y => { y with waiting := false }) s).mapMgt fun g => { g with order := g.order.filter (· != m) }
    | some ses =>
      match stateForbids s code with
      | some st => mbxAnswer m st 0 [] s
      | none =>
        if ownerOnly code ∧ ses.role ≠ 1 then mbxAnswer m stNotPermitted 0 [] s
        else
          let r := f ses.role x.session s
          if r.status = 0 ∧ r.deferred then updMbx m (fun y => { y with deferred := true }) r.state
          else mbxAnswer m r.status r.detail r.data (if r.status = 0 ∨ keep then r.state else s)

/-- Run a command: a refusal has no effect (R562). -/
def runCmd (m code : Nat) (f : Nat → Nat → State → CmdRes) (s : State) : State := runCmdWith false m code f s

end Sys2Proof.Machine
end

