-- ==== Sys2Proof/Machine/Blends.lean ====
section
/-! DEFINITION. Blends in force: installing and retiring them, the handshake between gateways, and resynchronisation (R229 to
R241). -/

namespace Sys2Proof.Machine

open Sys2Proof

/-- CMP_HS_TIMEOUT in ticks; a value below 16,384 is treated as 16,384 (R248). -/
def hsTimeout (s : State) : Nat := max 16384 (regVal s 0x0014001C)

/-- The L-OUT context of a port (R231). -/
def lOut (port : Nat) : Nat := 2 + port
/-- The L-IN context of a port (R231). -/
def lIn (port : Nat) : Nat := 6 + port

/-- A blend becomes current and the old current one previous (R232, R233). -/
def makeCurrent (ctx cls : Nat) (b : Blend) (s : State) : State :=
  bump 0x00140060 (raise 0x1602 [ctx, cls, b.id] (updSlot ctx cls (fun x =>
    { x with current := some b, previous := x.current, lastInstall := some s.tick }) s))

/-- The previous blend leaves its slot (R234, R235). -/
def retirePrevious (ctx cls : Nat) (s : State) : State :=
  match (bslot s ctx cls).previous with
  | none => updSlot ctx cls (fun x => { x with retire := false }) s
  | some b => bump 0x00140064 (raise 0x1603 [ctx, cls, b.id] (updSlot ctx cls (fun x =>
      { x with previous := none, retire := false, switchSeqs := none }) s))

/-- The bytes of a blend message that names a class, an ID and a digest (R235). -/
def blendName (b : Blend) : List Byte := [byte b.cls, byte b.id, 0, 0] ++ beBytes 8 b.digest

/-- Withdraw an offer; a waiting cmp.blend.install is answered with a status (R237, R238). -/
def withdrawOffer (ctx cls status detail : Nat) (s : State) : State :=
  match (bslot s ctx cls).offer with
  | none => s
  | some o =>
    let s1 := updSlot ctx cls (fun x => { x with offer := none, staged := none }) s
    match o.mbx with
    | some m => mbxAnswer m status detail [] s1
    | none => s1

/-- First LINE_SEQ of each exchange tributary of a port from now on. -/
def nextSeqs (s : State) (port : Nat) : SMap Nat :=
  (s.line.tribs.filter fun e => e.2.port == port && decide (4 ≤ e.1)).map fun e => (e.1, e.2.nextSeq)

/-- E's switch edge: the accepted blend is current, and BLEND-SWITCH tells from which blocks on (R235 step 3). -/
def switchOut (ctx cls : Nat) (s : State) : State :=
  match (bslot s ctx cls).offer with
  | none => s
  | some o =>
    let port := ctx - 2
    let seqs := nextSeqs s port
    let s1 := makeCurrent ctx cls o.blend (updSlot ctx cls (fun x => { x with offer := none, staged := none }) s)
    let s2 := updSlot ctx cls (fun x => { x with switchSeqs := if x.previous.isSome then some seqs else none }) s1
    sendCtl port 0x23 ([cls, o.blend.id] ++ (seqs.map fun e => [e.1, e.2]).flatten) [] s2

/-- Send the BLEND-OFFER of a slot (R235 step 1, R240 step 3). -/
def sendOffer (ctx cls : Nat) (o : Offer) (s : State) : State :=
  let rs := decide (o.origin = 3)
  let s1 := updSlot ctx cls (fun x =>
    { x with offer := some { o with sent := true, tick := s.tick }, rawCoding := x.rawCoding || rs }) s
  sendCtl (ctx - 2) 0x20 [] ([byte (b2n rs), 0, 0, 0] ++ o.blend.toBytes) s1

/-- What one slot does at a tick edge: host blends take effect, retirements happen, offers leave, accepted blends switch. -/
def blendEdge (k : Nat) (s : State) : State :=
  let ctx := k / 8
  let cls := k % 8
  let s1 := match (bslot s ctx cls).install with
    | some b => makeCurrent ctx cls b (updSlot ctx cls (fun x => { x with install := none }) s)
    | none => s
  let s2 := if (bslot s1 ctx cls).retire then retirePrevious ctx cls s1 else s1
  match (bslot s2 ctx cls).offer with
  | none => s2
  | some o =>
    if ¬ o.sent then sendOffer ctx cls o s2
    else if o.accepted ∧ o.origin ≠ 2 then switchOut ctx cls s2
    else s2

/-- The blend steps of a tick edge. -/
def blendEdges (s : State) : State := (s.cmp.map (·.1)).foldl (fun a k => blendEdge k a) s

/-- A staged blend takes effect at its commit edge (R233, R237). -/
def blendCommit (ctx cls : Nat) (s : State) : State :=
  if ctx < 2 then
    match (bslot s ctx cls).staged with
    | some b => makeCurrent ctx cls b (updSlot ctx cls (fun x => { x with staged := none }) s)
    | none => s
  else if (bslot s ctx cls).offer.any fun o => o.accepted then switchOut ctx cls s
  else s

/-! ### The decoding side -/

/-- The accepted-pending blend becomes current (R236). -/
def pendingToCurrent (ctx cls : Nat) (s : State) : State :=
  match (bslot s ctx cls).pending with
  | some b => makeCurrent ctx cls b (updSlot ctx cls (fun x => { x with pending := none }) s)
  | none => s

/-- Has every block of a tributary below a number passed step 8 of R23? -/
def passedBelow (t : Trib) (n : Nat) : Bool := decide (n ≤ t.rxNext)

/-- Step 4 of R235 where it is due: D frees the previous slot and sends BLEND-RETIRE-ACK. -/
def tryRetireAck (port cls : Nat) (s : State) : State :=
  let ctx := lIn port
  match (bslot s ctx cls).switchSeqs, (bslot s ctx cls).previous with
  | some seqs, some b =>
    if seqs.all fun e => (mget s.line.tribs e.1).all fun t => passedBelow t e.2 then
      sendCtl port 0x24 [cls, b.id] [] (retirePrevious ctx cls s)
    else s
  | _, _ => s

/-- Step 4 of R235 for every class of a port. -/
def tryRetireAcks (port : Nat) (s : State) : State := (List.range 8).foldl (fun a c => tryRetireAck port c a) s

/-- D starts the resynchronisation of a class (R240 step 1). -/
def startResync (port cls : Nat) (s : State) : State :=
  let ctx := lIn port
  let b := bslot s ctx cls
  let name := fun (o : Option Blend) => (o.map blendName).getD (List.replicate 12 0)
  let s1 := updSlot ctx cls (fun x => { x with resync := true, resyncTick := s.tick, fails := 0 }) s
  sendCtl port 0x25 [] ([byte cls, 0, 0, 0] ++ name b.current ++ name b.previous)
    (bump 0x0014005C (raise 0x4601 [ctx, cls] s1))

/-- A failure of a line block under R225 (R227, R228): counted, and the third in a row starts a resynchronisation. -/
def lineBlockFailed (port : Nat) (cls : Option Nat) (k : FailKind) (s : State) : State :=
  let s1 := countFail k s
  match cls with
  | none => s1
  | some c =>
    let b := bslot s1 (lIn port) c
    if 2 ≤ b.fails ∧ ¬ b.resync then startResync port c s1
    else updSlot (lIn port) c (fun x => { x with fails := min 2 (x.fails + 1) }) s1

/-- E's side of a BLEND-RESYNC (R239, R240 steps 2 and 3): an offer is withdrawn, and from the next edge the class is coded
raw and the current table offered. -/
def resyncAsked (port cls : Nat) (s : State) : State :=
  let ctx := lOut port
  let s1 := withdrawOffer ctx cls stTimeout 0 s
  updSlot ctx cls (fun x =>
    { x with
      resync := true
      resyncTick := s.tick
      switchSeqs := none
      older := x.older ++ (x.previous.map fun b => [b]).getD []
      previous := none
      offer := if x.rawHold then none else x.current.map fun b => ⟨b, s.tick, 3, none, false, false⟩ }) s1

/-- E keeps an older table only until its ring holds no block coded with it (R240 step 5). -/
def pruneOlder (port : Nat) (s : State) : State :=
  let used := fun (cls id : Nat) => s.line.tribs.any fun e => e.2.port == port && e.2.ring.any fun r =>
    r.2.blend == id && r.2.part.form.cls == some cls
  (List.range 8).foldl (fun a c =>
    if (bslot a (lOut port) c).older.isEmpty then a
    else updSlot (lOut port) c (fun x => { x with older := x.older.filter fun b => used c b.id }) a) s

/-- After a link-down, offers of the port lapse (R238). -/
def lapseOffers (port : Nat) (s : State) : State :=
  (List.range 8).foldl (fun a c => withdrawOffer (lOut port) c stTimeout 0 a) s

/-- On reconnection every class of the port's context is resynchronised (R238). -/
def resyncAll (port : Nat) (s : State) : State :=
  (List.range 8).foldl (fun a c =>
    if (bslot a (lIn port) c).current.isSome then startResync port c a else a) s

end Sys2Proof.Machine
end

