-- ==== Sys2Proof/Machine/LineOps.lean ====
section
/-! DEFINITION. The line framer's shared operations: pages and containers, line block headers, encryption, the ring, credits
and NACKs (R319 to R348, R392 to R400). -/

namespace Sys2Proof.Machine

open Sys2Proof

/-! ### Lanes, ports, tributaries -/

/-- A logical lane. -/
def laneOf (s : State) (n : Nat) : Lane := vget s.line.lanes n (Lane.fresh n)
/-- Change a lane. -/
def updLane (n : Nat) (f : Lane → Lane) (s : State) : State := s.mapLine fun l => { l with lanes := vupd l.lanes n f }
/-- The line side of a port. -/
def lportOf (s : State) (p : Nat) : LPort := vget s.line.ports p LPort.fresh
/-- Change a port. -/
def updLPort (p : Nat) (f : LPort → LPort) (s : State) : State := s.mapLine fun l => { l with ports := vupd l.ports p f }
/-- A tributary. -/
def tribOf (s : State) (t : Nat) : Option Trib := mget s.line.tribs t
/-- Change a tributary. -/
def updTrib (t : Nat) (f : Trib → Trib) (s : State) : State := s.mapLine fun l => { l with tribs := mupd l.tribs t f }
/-- A physical lane. -/
def physOf (s : State) (n : Nat) : PhysLane := vget s.opt.phys n PhysLane.fresh

/-- Change a physical lane. -/
def updPhys (n : Nat) (f : PhysLane → PhysLane) (s : State) : State := s.mapOpt fun o => { o with phys := vupd o.phys n f }

/-- The address of a lane register. -/
def laneReg (n off : Nat) : Nat := 0x00080000 + n * 0x4000 + off
/-- RTT_P in ticks (R337). -/
def rttP (s : State) (p : Nat) : Nat := (lportOf s p).rtt
/-- LNE_ARQ.MARGIN. -/
def arqMargin (s : State) : Nat := fld s 0x00094010 0 8
/-- LNE_ARQ.NACK_MAX. -/
def arqNackMax (s : State) : Nat := fld1 s 0x00094010 8 4
/-- LNE_ARQ.ACK_IDLE. -/
def arqAckIdle (s : State) : Nat := fld1 s 0x00094010 12 12

/-! ### Pages (R342) -/

/-- PAGE_ID of a page. -/
def pageId (p : List Byte) : Nat := bitsOf (beAt p 0 4) 0 8
/-- DEGR of a page. -/
def pageDegr (p : List Byte) : Nat := bitsOf (beAt p 0 4) 8 3
/-- DIR of a page: 1 receive. -/
def pageDir (p : List Byte) : Nat := bitsOf (beAt p 0 4) 11 1
/-- LANE of a page. -/
def pageLane (p : List Byte) : Nat := bitsOf (beAt p 0 4) 12 3
/-- RATE of a page. -/
def pageRate (p : List Byte) : Nat := bitsOf (beAt p 0 4) 15 2
/-- DIGEST of a page. -/
def pageDigest (p : List Byte) : Nat := beAt p 8 8
/-- The digest that a page should carry. -/
def pageDigestOf (p : List Byte) : Nat := beNat (shake256 (overwrite p 8 (List.replicate 8 0)) 8)
/-- The word of a slot. -/
def pageSlot (p : List Byte) (s : Nat) : Nat := beAt p (16 + 4 * s) 4
/-- PORT of a slot. -/
def slotPort (w : Nat) : Nat := bitsOf w 0 2
/-- FAR_LANE of a slot. -/
def slotFar (w : Nat) : Nat := bitsOf w 2 3
/-- GUARD of a slot. -/
def slotGuard (w : Nat) : Bool := bitOf w 5
/-- DARK of a slot. -/
def slotDark (w : Nat) : Bool := bitOf w 6
/-- The half word of a column. -/
def pageCol (p : List Byte) (s c : Nat) : Nat := beAt p (48 + 2 * (64 * s + c)) 2
/-- TRIB of a column. -/
def colTrib (w : Nat) : Nat := bitsOf w 0 10
/-- USE of a column. -/
def colUse (w : Nat) : Nat := bitsOf w 10 2

/-- Columns per slot of a rate mode (R319, R353). -/
def rateCols (r : Nat) : Nat := if r = 0 then 64 else if r = 1 then 48 else if r = 2 then 32 else 16
/-- Guard columns of a rate mode (R319). -/
def rateGuard (r : Nat) : Nat := if r = 0 then 4 else if r = 1 then 3 else if r = 2 then 2 else 0

/-- The page in force on a lane. -/
def Lane.page (l : Lane) : Option (List Byte) := if l.degr = 0 then l.active else mget l.degrPages l.degr

/-- The columns of a page that carry a tributary, as slot and column, in order: guard columns and dark slots left out
(R326). -/
def pageColsOf (p : List Byte) (use trib port : Nat) : List (Nat × Nat) :=
  let r := pageRate p
  ((List.range 8).map fun s =>
    let w := pageSlot p s
    if slotDark w ∨ slotPort w ≠ port then []
    else
      ((List.range (rateCols r)).filter fun c =>
        !(slotGuard w && decide (c < rateGuard r)) && colUse (pageCol p s c) == use && colTrib (pageCol p s c) == trib).map
          fun c => (s, c)).flatten

/-- Ports that a lane's page in force steers some slot to. -/
def lanePorts (l : Lane) : List Nat :=
  match l.page with
  | none => []
  | some p => (List.range 4).filter fun q => (List.range 8).any fun k => !slotDark (pageSlot p k) && slotPort (pageSlot p k) == q

/-- Is a logical lane the anchor of some port: does it carry a control tributary in the page in force? -/
def isAnchor (l : Lane) : Bool :=
  match l.page with
  | some p => (List.range 8).any fun k => !slotDark (pageSlot p k) && (List.range (rateCols l.rate)).any fun c => colUse (pageCol p k c) == 2
  | none => false

/-- The logical lane that carries a port's control tributary, where one does. -/
def portAnchor (s : State) (p : Nat) : Option Nat :=
  (List.range 5).find? fun n => isAnchor (laneOf s n) && (lanePorts (laneOf s n)).contains p &&
    ((laneOf s n).page.any fun g => !(pageColsOf g 2 p p).isEmpty)

/-- The columns of a tributary under the pages in force: lane, slot, column (R326). -/
def tribCols (s : State) (port trib : Nat) : List (Nat × Nat × Nat) :=
  let use := if trib < 4 then 2 else 1
  ((List.range 5).map fun n =>
    let l := laneOf s n
    match l.page with
    | some p => if l.blanked ∨ l.rate = 3 then [] else (pageColsOf p use trib port).map fun c => (n, c)
    | none => []).flatten

/-- Members of an XH sheaf by the maps of the XH lanes, in SQ order: SQ, lane, slot, first column, columns (R353, R354). The sheaf of
a SHEAF_ID carries the tributary of that number. -/
def sheafParts (s : State) (id : Nat) : List (Nat × Nat × Nat × Nat × Nat) :=
  sortByKey (fun e => e.1) (((List.range 5).map fun n =>
    if (laneOf s n).rate = 3 then ((laneOf s n).xh.filter fun e => e.1 == id).map fun e => (e.2.1, n, e.2.2) else []).flatten)

/-- Data bytes of a sheaf in a frame: a header of 16 B leads each member, 48 B more the first. -/
def sheafBytes (s : State) (id : Nat) : Nat := sumNat ((sheafParts s id).map fun e => 768 * e.2.2.2.2 - 16) - 48

/-- Does a port work in XH mode: is a tributary of it carried by a sheaf? -/
def xhPort (s : State) (port : Nat) : Bool := s.line.tribs.any fun e => e.2.port == port && !(sheafParts s e.1).isEmpty

/-- The columns of a tributary, per frame. -/
def tribColCount (s : State) (trib : Nat) : Nat :=
  match tribOf s trib with
  | some t => (tribCols s t.port trib).length
  | none => 0

/-- Container bytes of a tributary in a frame (C of R330), those of its sheaf in XH mode. -/
def containerBytes (s : State) (trib : Nat) : Nat :=
  if (sheafParts s trib).isEmpty then 768 * tribColCount s trib else sheafBytes s trib

/-- The lane that bears the first column of a tributary. -/
def tribLane (s : State) (port trib : Nat) : Nat :=
  (((tribCols s port trib).head?.map (·.1)).or ((sheafParts s trib).head?.map (·.2.1))).getD 0

/-! ### Line block headers (R328) -/

/-- 16 B units of a block with `enc` ciphertext bytes. -/
def blockUnits (enc : Nat) : Nat := ceilDiv (80 + enc) 16

/-- The 64 B header of a line block. -/
def lineHeader (kind vintage nonceId group epoch inst first seq hash txc trib decl enc chunks flags : Nat) : List Byte :=
  [byte (16 + kind), byte vintage, byte nonceId, 0] ++ beBytes 2 group ++ beBytes 2 epoch ++ beBytes 4 inst ++ beBytes 4 first ++
    beBytes 8 seq ++ beBytes 8 hash ++ beBytes 10 txc ++ beBytes 2 trib ++ beBytes 4 decl ++ beBytes 4 enc ++ beBytes 2 chunks ++
    beBytes 2 flags ++ List.replicate 8 0

/-- VINTAGE byte of a vintage count (R399). -/
def vintageByte (c : Nat) : Nat := (c - 1) % 255 + 1

/-! ### Port keys -/

/-- The keys of a port. -/
def keysOf (s : State) (p : Nat) : PortKeys := vget s.sec.ports p PortKeys.fresh
/-- Change the keys of a port. -/
def updKeys (p : Nat) (f : PortKeys → PortKeys) (s : State) : State := s.mapSec fun k => { k with ports := vupd k.ports p f }

/-- DIR of the blocks this gateway sends on a port (R393). -/
def txDir (k : PortKeys) : Nat := b2n !k.initiator
/-- NONCE_ID of an engine on a port. -/
def nonceId (dir engine : Nat) : Nat := dir * 128 + engine

/-- The nonce of R392. -/
def lineNonce (vintage nid txc : Nat) : List Byte := [byte vintage, byte nid] ++ beBytes 10 txc

/-- May the port start a block under its vintage (R396)? -/
def vintageOpen (k : PortKeys) : Bool := decide (k.txBlocks < 2 ^ 31 - 1)

/-- What one transmission of a line block says, apart from its keys. -/
structure BlockHead where
  kind : Nat
  group : Nat
  epoch : Nat
  inst : Nat
  first : Nat
  seq : Nat
  hash : Nat
  trib : Nat
  decl : Nat
  chunks : Nat
  flags : Nat

/-- Encrypt one transmission under the current vintage with a new counter (R392 to R394): the whole block in units. -/
def sealBlock (port engine : Nat) (h : BlockHead) (content : List Byte) (s : State) : List Byte × State :=
  let k := keysOf s port
  let v := vintageByte k.txCount
  let nid := nonceId (txDir k) engine
  let txc := mgetD k.txCounters engine 0
  let hdr := lineHeader h.kind v nid h.group h.epoch h.inst h.first h.seq h.hash txc h.trib h.decl content.length h.chunks h.flags
  let c := gcmSeal (mgetD k.txKeys k.txCount []) (lineNonce v nid txc) hdr content
  let all := hdr ++ c.1 ++ c.2
  (padTo (16 * blockUnits content.length) all,
    updKeys port (fun x => { x with txCounters := mset x.txCounters engine (txc + 1), txBlocks := x.txBlocks + 1 }) s)

/-! ### The ring (R257, R336) -/

/-- Evaluate WARN or BP of an area against its window of 23 GiB (R257, R274). -/
def areaEval (s : State) (reg used : Nat) (warn bp : Bool) : Bool × Bool :=
  let total := 23 * 2 ^ 30
  let st := fun was lo => threshState was used total (fld s reg lo 8) (fld s reg 24 8)
  (st warn 0, st bp 8)

/-- Bytes a ring copy takes. -/
def RingBlock.len (r : RingBlock) : Nat := 16 * blockUnits r.encLen

/-- Bytes of the ring in use. -/
def ringBytes (s : State) : Nat := sumNat (s.line.tribs.map fun e => sumNat (e.2.ring.map fun r => r.2.len))

/-- Bring the Cellar's view of the ring up to date (R257). -/
def ringEval (s : State) : State :=
  let n := ringBytes s
  let st := areaEval s 0x00180010 n s.cellar.ringWarn s.cellar.ringBp
  s.mapCellar fun c => { c with ringUsed := n, ringWarn := st.1, ringBp := st.2 }

/-- Units outstanding above REL_SEQ (R336). -/
def outstanding (t : Trib) : Nat :=
  sumNat ((t.ring.filter fun e => decide (t.rel ≤ e.1)).map fun e => blockUnits e.2.encLen)

/-! ### Credits and acknowledgements at the receiver -/

/-- Are credits withheld toward this gateway (R255)? Decoded line payloads, of at most 65,536 B, take casks of classes 0 to 4. -/
def creditsWithheld (s : State) : Bool := bit s 0x00180004 1 && (hostBp s || s.cellar.reorderBp)

/-- WINDOW in columns (R337): credits are never withheld on a control tributary (R255). -/
def windowOf (s : State) (trib : Nat) : Nat :=
  match tribOf s trib with
  | none => 0
  | some t =>
    if creditsWithheld s ∧ 4 ≤ trib then 0
    else if t.window ≠ 0 then t.window
    else tribColCount s trib * (rttP s t.port + 64)

/-- The number by which the partner knows the tributary whose blocks are filed here under `trib`: a control tributary goes by the
letter of the partner's port. -/
def peerTrib (s : State) (trib : Nat) : Nat := if trib < 4 then (lportOf s trib).peer.getD trib else trib

/-- The body of an ACK (R335). A sequence before the first is all ones. -/
def ackBody (trib ackSeq relSeq window : Nat) : List Byte :=
  beBytes 2 trib ++ [0, 0] ++ beBytes 8 ackSeq ++ beBytes 8 relSeq ++ beBytes 4 window

/-- Send an ACK for a tributary (R335, R337). -/
def sendTribAck (trib : Nat) (s : State) : State :=
  match tribOf s trib with
  | none => s
  | some t =>
    let w := windowOf s trib
    let before := fun n => (n + 2 ^ 64 - 1) % 2 ^ 64
    let s1 := sendCtl t.port 0x01 [] (ackBody (peerTrib s trib) (before t.rxNext) (before t.rxRel) w) s
    updTrib trib (fun x => { x with ackDue := false, ackTick := s.tick, windows := (w, s.tick) :: x.windows.take 15 }) s1

/-- The body of a NACK (R338). -/
def nackBody (trib reason : Nat) (ranges : List (Nat × Nat)) : List Byte :=
  beBytes 2 trib ++ [byte reason, byte ranges.length] ++ (ranges.map fun r => beBytes 8 r.1 ++ beBytes 4 r.2 ++ List.replicate 4 0).flatten

/-- Rising sequences as ranges of consecutive ones. -/
def lineRuns (l : List Nat) : List (Nat × Nat) :=
  (l.foldl (fun (a : List (Nat × Nat)) q => match a with
    | (f, n) :: r => if f + n = q then (f, n + 1) :: r else (q, 1) :: (f, n) :: r
    | [] => [(q, 1)]) []).reverse

/-- Send NACK messages of one reason for sequences of a tributary, up to 16 ranges in each (R338). -/
def nackMessages (trib port reason : Nat) (seqs : List Nat) (s : State) : State :=
  let a := laneReg ((portAnchor s port).getD 0) 0x06C
  (chunks 16 (lineRuns seqs)).foldl (fun b rs => bump a (sendCtl port 0x02 [] (nackBody (peerTrib s trib) reason rs) b)) s

/-- NACK missing or failed blocks, and repeat it until they come (R338). -/
def sendLineNacks (trib reason : Nat) (seqs : List Nat) (s : State) : State :=
  match tribOf s trib with
  | none => s
  | some t =>
    updTrib trib (fun x => { x with rxNacks := seqs.foldl (fun m q => mset m q ⟨reason, 0, s.tick⟩) x.rxNacks })
      (nackMessages trib t.port reason seqs s)

/-- NACK one block. -/
def sendLineNack (trib seq reason : Nat) (s : State) : State := sendLineNacks trib reason [seq] s

/-- Raise an event at most once per port, or other key, in 500,000 ticks. -/
def raisePort (code port : Nat) (args : List Nat) (s : State) : State :=
  let k := code * 2 ^ 20 + port
  if (mget s.host.evTick k).any fun t => decide (s.tick < t + 500000) then s
  else raise code args (s.mapHost fun h => { h with evTick := mset h.evTick k s.tick })

/-! ### Message bytes -/

/-- The body bytes of a control message whose layout the model packs: the first number of a TYPE 0x30 message as its SUB
byte, every other number in 8 bytes. -/
def packFields (ty : Nat) (l : List Nat) : List Byte :=
  match ty, l with
  | 0x30, x :: r => [byte x, 0, 0, 0] ++ (r.map (beBytes 8)).flatten
  | _, _ => (l.map (beBytes 8)).flatten

/-- A control message as it travels (R333): header and body padded to 4 B. -/
def CtlMsg.toBytes (m : CtlMsg) : List Byte :=
  let b := packFields m.ty m.fields ++ m.body
  [byte m.ty, 0] ++ beBytes 2 b.length ++ padTo (4 * ceilDiv b.length 4) b

/-! ### RDI and degradation (R348 to R350) -/

/-- Blank a lane (R350). -/
def blankLane (n : Nat) (s : State) : State := bump 0x00094048 (updLane n (fun l => { l with blanked := true }) s)

/-- Lose transmit lane `k`: switch every lane to its degradation page for `k`, or blank the lane (R348, R350). -/
def loseLane (k : Nat) (s : State) : State :=
  let l := laneOf s k
  let already := (List.range 5).any fun n => (laneOf s n).degr ≠ 0 && (laneOf s n).degr ≠ k + 1
  let twice := already || (List.range 5).any fun n => decide (n ≠ k) && (laneOf s n).blanked
  let double := fun (x : State) =>
    if twice then
      raise 0x8803 [k] ((lanePorts l).foldl (fun a p => updLPort p (fun y => { y with doubleDue := some (s.tick + 500000) }) a) x)
    else x
  if l.blanked ∨ l.degr = k + 1 then s
  else
    let ready := (List.range 4).all fun p => (lportOf s p).degrReady || !(lanePorts l).contains p
    if ¬ bit s 0x00094004 2 ∨ already ∨ ¬ ready then double (blankLane k s)
    else
      let s1 := s.mapLine fun y => { y with lanes := y.lanes.map fun x =>
        if (mget x.degrPages (k + 1)).isSome ∨ x.phys = l.phys then { x with degr := k + 1 } else x }
      double (bump 0x00094048 (raise 0x8801 [k] s1))

end Sys2Proof.Machine
end

