-- ==== Sys2Proof/Machine/CollCount.lean ====
section
/-! DEFINITION. Counting the arrivals of a tick, step 1 of the tick-edge order (R186 to R197, R201 to R206). -/

namespace Sys2Proof.Machine

open Sys2Proof

/-- An ABORT packet to one member: payload of R207 (R204). -/
def abortPayload (inst status flags chunks origin dk d : Nat) : List Byte :=
  beBytes 4 inst ++ beBytes 2 status ++ beBytes 2 flags ++ beBytes 4 chunks ++ beBytes 2 origin ++ beBytes 2 dk ++
    beBytes 4 d ++ List.replicate 12 0

/-- Count late traffic (R187, R206). -/
def countLate (s : State) : State := bump 0x00040060 s

/-- A packet of a stream has been counted: its acknowledgement falls due (R302). -/
def streamCounted (id : Nat) (s : State) : State :=
  updStream id (fun c => { c with inPkts := (c.inPkts + 1) % 2 ^ 32, ackOwed := true }) s

/-- Rank and stream agree (R186 order 2): the entry is local and its endpoint is the stream's. -/
def rankOk (s : State) (t : GroupTable) (rank stream : Nat) : Bool :=
  match t.members[rank]?, mget s.host.streams stream with
  | some m, some c => !m.far && m.endpoint == c.endpoint
  | _, _ => false

/-- Record a counted launch of a rank and set the parts of the reference not yet set (R195). -/
def takeLaunch (p : Pkt) (d : Desc) (held : Bool) (x : Instance) : Instance :=
  { x with
    launches := x.launches ++ [⟨p.rank, p.payload, p.hash, bitOf p.flags 0⟩]
    epoch := d.epoch
    held := x.held || held
    refHash := some (x.refHash.getD p.hash)
    refFence := some (x.refFence.getD (bitOf p.flags 0))
    desc := some (x.desc.getD d) }

/-- Is an instance behind a fence whose launch has committed (R171)? -/
def behindFence (s : State) (g i : Nat) : Bool :=
  s.coll.fences.any fun f => f.group == g && earlier i f.inst

/-- The checks of a LAUNCH from order 4 on, under its table (R195): the code and the order that fails. -/
def launchFault (t : GroupTable) (p : Pkt) (d : Desc) (x : Instance) : Option (Nat × Nat) :=
  let fence := bitOf p.flags 0
  if p.hash ≠ descHash p.payload then some (0x0101, 4)
  else if (Op.ofCode d.opCode).isNone ∨ ¬ d.op.typesOk d.inType d.outType then some (0x0102, 5)
  else if ¬ modeOk d.op d.inType d.outType d.mode fence ∨ 2 < d.coding ∨ (t.isSealed ∧ d.coding ≠ 0) then some (0x0103, 6)
  else if ¬ sizesOk d then some (0x0201, 7)
  else if (x.refHash.any fun h => h != p.hash) ∨ (x.refFence.any fun f => f != fence) then some (0x0101, 8)
  else none

/-- Count a member's LAUNCH (R195). -/
def countLaunch (p : Pkt) (s : State) : State :=
  match groupOf s p.group with
  | none =>
    -- no table gives the device a site index for such a group, so ORIGIN_SITE is an open value
    let (site, s1) := (raise 0x4502 [p.group] s).takeFree
    enqueue 0 2 (.host ⟨6, 0x40, 0, p.group, p.epoch, p.inst, 0, p.rank, 0, 0, 0, p.stream, p.hash,
      abortPayload p.inst 0x0106 0 0 (site % 2 ^ 16) 3 1, p.rank, []⟩) s1
  | some r =>
    match tableFor r p.epoch with
    | none => s
    | some t =>
      if ¬ rankOk s t p.rank p.stream then raise 0x8501 [p.group, p.rank, p.stream] s
      else if hasEnded s p.group p.inst then countLate s
      else
        let s1 := openInst p.group p.inst p.epoch s
        match instOf s1 p.group p.inst with
        | none => s1
        | some x =>
          let d := Desc.ofBytes p.payload
          if x.phase = .aborting ∨ x.abortSlot then s1
          else
            match versionOf r p.epoch with
            | some (2, _) => askAbort p.group p.inst 1 0x0107 3 3 s1
            | none => askAbort p.group p.inst 1 0x0107 3 3 s1
            | some (v, _) =>
              match x.launches.find? fun l => l.rank == p.rank with
              | some l =>
                if l.bytes = p.payload ∧ l.hash = p.hash ∧ l.fence = bitOf p.flags 0 then s1
                else
                  let f := (launchFault t p d x).getD (0x0101, 8)
                  askAbort p.group p.inst 1 f.1 3 f.2 s1
              | none =>
                match launchFault t p d x with
                | some (code, order) => askAbort p.group p.inst 1 code 3 order s1
                | none =>
                  if behindFence s1 p.group p.inst then askAbort p.group p.inst 1 0x0108 1 p.rank s1
                  else updInst p.group p.inst (takeLaunch p d (v == 1)) s1

/-- A key of a SET-MERGE payload breaks the sparse format (R143). -/
def sparseFault (d : Desc) (chunk : Nat) (raw : List Byte) (lastKey : Nat) (first : Bool) : Bool :=
  let w := 4 + (if d.inType = 9 then 0 else elemBytes d.inType)
  let keys := (chunks w raw).map fun l => beAt l 0 4
  let lo := chunk * d.chunkSize
  (keys.any fun k => decide (k < lo) || decide (lo + d.chunkSize ≤ k)) ||
    (keys.foldl (fun (a : Bool × Nat × Bool) k => (a.1 || (!a.2.2 && decide (k < a.2.1)), k, false)) (false, lastKey, first)).1

/-- The last key of pairs. -/
def lastPairKey (d : Desc) (raw : List Byte) (dflt : Nat) : Nat :=
  let w := 4 + (if d.inType = 9 then 0 else elemBytes d.inType)
  match (chunks w raw).getLast? with
  | some l => beAt l 0 4
  | none => dflt

/-- Stage a contribution and count it toward its chunk (R189). -/
def stageContrib (p : Pkt) (d : Desc) (t : GroupTable) (raw : List Byte) (casks : List Nat) (x : Instance) : Instance :=
  let k := chunkKey d t p.rank p.chunk
  let ch := mgetD x.chunks k (Chunk.new p.chunk (d.pressRows p.chunk))
  let old := ch.locals.find? fun c => c.rank == p.rank
  let last := d.op != .setMerge || bitOf p.flags 1
  let new : Contrib := match old with
    | some c => { c with count := c.count + p.count, bytes := c.bytes ++ raw, parts := c.parts + 1, done := last,
                         lastKey := lastPairKey d raw c.lastKey, casks := c.casks ++ casks }
    | none => { rank := p.rank, count := p.count, bytes := raw, parts := 1, done := last, lastKey := lastPairKey d raw 0,
                casks := casks, hole := none }
  let rows := if new.done then ch.rows.map fun w => { w with todo := insertRising p.rank w.todo } else ch.rows
  let locals := sortByKey (fun c => c.rank) (new :: ch.locals.filter fun c => c.rank != p.rank)
  { x with chunks := mset x.chunks k { ch with locals := locals, rows := rows } }

/-- The packet that was found uncorrectable once staged has come again: the contribution stands whole in its casks (R281). -/
def fillHole (key rank : Nat) (x : Instance) : Instance :=
  { x with chunks := mupd x.chunks key fun ch =>
      { ch with locals := ch.locals.map fun c => if c.rank = rank then { c with hole := none } else c } }

/-- Count a member's DATA (R186). -/
def countData (p : Pkt) (dec : Decoded) (casks : List Nat) (s : State) : State :=
  match groupOf s p.group with
  | none => freeCasks casks (raise 0x4502 [p.group] s)
  | some r =>
    match tableFor r p.epoch with
    | none => freeCasks casks s
    | some t =>
      if ¬ rankOk s t p.rank p.stream then freeCasks casks (raise 0x8501 [p.group, p.rank, p.stream] s)
      else if hasEnded s p.group p.inst then freeCasks casks (countLate s)
      else
        let s1 := openInst p.group p.inst p.epoch s
        match instOf s1 p.group p.inst with
        | none => freeCasks casks s1
        | some x =>
          if x.phase = .aborting then freeCasks casks s1
          else if ¬ x.launches.any fun l => l.rank == p.rank then
            freeCasks casks (askAbort p.group p.inst 1 0x0201 3 3 s1)
          else if x.refHash ≠ some p.hash then freeCasks casks (askAbort p.group p.inst 1 0x0101 3 4 s1)
          else
            match x.desc with
            | none => freeCasks casks s1
            | some d =>
              if d.chunks ≤ p.chunk ∨ p.dtype ≠ d.inType ∨ (d.op ≠ .setMerge ∧ p.count ≠ d.chunkLen p.chunk) then
                freeCasks casks (askAbort p.group p.inst 1 0x0201 3 5 s1)
              else
                match dec with
                | .fail k => freeCasks casks (dataFailed p k s1)
                | .rawRequired => freeCasks casks (setBack p.stream p.seq 4 p.group p.inst (countFail .blend s1))
                | .unchecked => freeCasks casks s1
                | .ok raw =>
                  let s2 := updStream p.stream (fun c => { c with decFails := 0 }) s1
                  let ch := mget x.chunks (chunkKey d t p.rank p.chunk)
                  let old := ch.bind fun c => c.locals.find? fun k => k.rank == p.rank
                  if old.any fun c => c.hole = some (p.stream, p.seq) then
                    freeCasks casks (updInst p.group p.inst (fillHole (chunkKey d t p.rank p.chunk) p.rank) s2)
                  else if (old.any fun c => c.done) ∨ (d.op ≠ .setMerge ∧ old.isSome) then
                    freeCasks casks (bump 0x0004005C (updStream p.stream (fun c => { c with inDups := c.inDups + 1 }) s2))
                  else if d.op = .setMerge ∧
                      (sparseFault d p.chunk raw ((old.map (·.lastKey)).getD 0) old.isNone ∨
                        (16 ≤ (old.map (·.parts)).getD 0)) then
                    freeCasks casks (askAbort p.group p.inst 1 0x0202 2 p.chunk s2)
                  else if x.phase = .committed ∧ d.bySource ∧ ¬ (contributors t d x.pset).contains p.rank then freeCasks casks s2
                  else updInst p.group p.inst (stageContrib p d t raw casks) s2

/-- Count a member's ABORT (R206). -/
def countMemberAbort (p : Pkt) (s : State) : State :=
  match groupOf s p.group with
  | none => s
  | some r =>
    match tableFor r p.epoch with
    | none => s
    | some t =>
      if ¬ rankOk s t p.rank p.stream then s
      else if hasEnded s p.group p.inst then countLate s
      else askAbort p.group p.inst 2 0x0401 1 p.rank (openInst p.group p.inst p.epoch s)

/-- A far arrival whose group is not VALID is discarded and counted (R197). -/
def farGroup (s : State) (g : Nat) : Option GroupRec := groupOf s g

/-- Count a launch notice and forward it to the other far members (R197). -/
def countLaunchNotice (port g epoch i hash : Nat) (fence : Bool) (sites : Nat) (s : State) : State :=
  match farGroup s g with
  | none => raise 0x4502 [g] (countLate s)
  | some r =>
    match tableFor r epoch with
    | none => s
    | some t =>
      let s0 := toFars t (some port) ctlLaunch [g, epoch, i, hash, b2n fence, sites] s
      if hasEnded s g i then countLate s0
      else
        let s1 := openInst g i epoch s0
        match instOf s1 g i with
        | none => s1
        | some x =>
          if (x.refHash.any fun h => h != hash) ∨ (x.refFence.any fun f => f != fence) then askAbort g i 1 0x0101 0 0 s1
          else
            updInst g i (fun y => { y with
              refHash := some hash
              refFence := some fence
              noticeSites := y.noticeSites ||| sites }) s1

/-- Count an abort notice and forward it (R201, R202). -/
def countAbortNotice (port g i code site : Nat) (s : State) : State :=
  match farGroup s g with
  | none => raise 0x4502 [g] (countLate s)
  | some r =>
    match ((instOf s g i).bind (instTable s)).orElse fun _ => r.current with
    | none => s
    | some t =>
      let s0 := toFars t (some port) ctlAbort [g, i, code, site] s
      if hasEnded s g i then countLate s0
      else
        let s1 := updInst g i (fun y => { y with notices := y.notices ++ [(site, code)] }) (openInst g i t.epoch s0)
        askAbort g i 3 code 0 0 s1

/-- Count a fence-clear (R169 step 4). -/
def countFenceClear (port g i : Nat) (s : State) : State :=
  match farGroup s g with
  | none => raise 0x4502 [g] (countLate s)
  | some r =>
    if s.coll.fences.any fun f => f.group == g && f.inst == i then
      s.mapColl fun c => { c with fences := c.fences.map fun f =>
        if f.group == g && f.inst == i then { f with clears := insertRising port f.clears } else f }
    else if hasEnded s g i then countLate s
    else
      let e := (r.current.map (·.epoch)).getD 0
      updInst g i (fun y => { y with clears := insertRising port y.clears }) (openInst g i e s)

/-- Add a counted far partial to its chunk; a second one covering sites already counted is not added (R486). -/
def addFar (chunk hash rank : Nat) (part : FarPart) (y : Instance) : Instance :=
  let rows := (y.desc.map fun d => d.pressRows (chunk % 2 ^ 32)).getD 0
  let ch := mgetD y.chunks chunk (Chunk.new (chunk % 2 ^ 32) rows)
  let entry := (ch.fars.filter (·.isRestored)).foldl (fun m f => m ||| f.sites) 0
  { y with
    refHash := some hash
    chunks := mset y.chunks chunk { ch with
      fars := { part with rank := rank, sites := maskMinus part.sites entry } :: ch.fars.filter fun f => f.rank != rank } }

/-- Has a chunk counted the sites of a partial already, beside a restored entry? -/
def farRepeats (chunk : Nat) (part : FarPart) (y : Instance) : Bool :=
  let fars : List FarPart := ((mget y.chunks chunk).map (·.fars)).getD []
  let entry : Nat := (fars.filter (·.isRestored)).foldl (fun m f => m ||| f.sites) 0
  decide (entry ≠ 0) && fars.any fun f => !f.isRestored && decide (f.sites &&& maskMinus part.sites entry ≠ 0)

/-- Count a far partial (R26, R177, R197): its epoch, then its hash; then it is held for pressing. -/
def countFarPartial (port g epoch i chunk hash : Nat) (part : FarPart) (s : State) : State :=
  let drop := fun (a : State) => freeCasks part.casks a
  let again := fun (a : State) => a.mapHost fun h => { h with arrivals := h.arrivals ++ [.farPartial port g epoch i chunk hash part] }
  match farGroup s g with
  | none => drop (raise 0x4502 [g] (countLate s))
  | some r =>
    if hasEnded s g i then
      -- a partial of a catch-up waits for the record to take its slot (R486)
      if (siloOf s g i).any fun q => q.code == 0 ∧ ¬ q.lost then again s else drop (countLate s)
    else
      match versionOf r epoch with
      | none => drop (askAbort g i 1 0x0107 0 0 (openInst g i epoch s))
      | some (1, _) => again s
      | some (_, t) =>
        let s1 := openInst g i epoch s
        match instOf s1 g i with
        | none => drop s1
        | some x =>
          if x.phase = .aborting then drop s1
          else if x.refHash.any fun h => h != hash then drop (askAbort g i 1 0x0101 0 0 s1)
          else if x.runsOn && decide (part.sites &&& x.excluded ≠ 0) then drop (countLate s1)
          else if farRepeats chunk part x then drop s1
          else
            let rank := ((farOfPort t port).map (·.1)).getD 0
            let old := (((mget x.chunks chunk).map (·.fars)).getD []).filter fun f => f.rank == rank
            freeCasks (old.map (·.casks)).flatten (updInst g i (addFar chunk hash rank part) s1)

/-- The instance that a far arrival names. -/
def Arrival.farInst : Arrival → Option (Nat × Nat)
  | .pkt _ _ _ => none
  | .farPartial _ g _ i _ _ _ => some (g, i)
  | .launchNotice _ g _ i _ _ _ => some (g, i)
  | .abortNotice _ g i _ _ => some (g, i)
  | .fenceClear _ g i => some (g, i)
  | .malformed _ g i _ => some (g, i)

/-- Would a far arrival open an instance while no slot of either kind is free (R192)? -/
def awaitsSlot (s : State) (a : Arrival) : Bool :=
  a.farInst.any fun k => (groupOf s k.1).isSome && (instOf s k.1 k.2).isNone && !hasEnded s k.1 k.2 &&
    (mget s.coll.reserved (ikey k.1 k.2)).isNone && (freeSlot s).isNone

/-- Count one arrival; a far one that finds no instance slot is retried at each edge (R192). -/
def countArrival (s : State) (a : Arrival) : State :=
  if awaitsSlot s a then s.mapHost fun h => { h with arrivals := h.arrivals ++ [a] }
  else match a with
  | .pkt p d casks =>
    let s1 := streamCounted p.stream s
    let s2 := if p.ty = 5 then freeCasks casks (countLaunch p s1)
      else if p.ty = 1 then countData p d casks s1
      else freeCasks casks (countMemberAbort p s1)
    if bitOf p.flags 6 then sendAck p.stream s2 else s2
  | .farPartial port g e i c h part => countFarPartial port g e i c h part s
  | .launchNotice port g e i h f sites => countLaunchNotice port g e i h f sites s
  | .abortNotice port g i code site => countAbortNotice port g i code site s
  | .fenceClear port g i => countFenceClear port g i s
  | .malformed _ g i c => askAbort g i 1 0x0205 2 c (raise 0x8205 [g, i, c] s)

/-- Step 1 of the edge: count every arrival of the tick that ended. After a fatal stop exchange arrivals are discarded as
late traffic (R518). -/
def countArrivals (s : State) : State :=
  let l := s.host.arrivals
  let s1 := s.mapHost fun h => { h with arrivals := [] }
  let s2 := if s.flt.fatal then l.foldl (fun a _ => countLate a) s1 else l.foldl countArrival s1
  s2.mapColl fun c => { c with reserved := [] }

end Sys2Proof.Machine
end

