-- ==== Sys2Proof/Machine/Work.lean ====
section
/-! DEFINITION. What the Press computes: rows of reductions, their delivered outputs, the partials owed to far members, and the
operations that work chunk by chunk (R90 to R158). -/

namespace Sys2Proof.Machine

open Sys2Proof

/-- Elements of row `j` of chunk `c` (R132). -/
def Desc.rowLen (d : Desc) (c j : Nat) : Nat := min 32 (d.chunkLen c - 32 * j)

/-- Element index of the first element of row `j` of chunk `c`. -/
def Desc.firstIndex (d : Desc) (c j : Nat) : Nat := c * d.chunkSize + 32 * j

/-- The bytes of row `j` of a dense contribution. -/
def rowBytesOf (d : Desc) (c j : Nat) (l : List Byte) : List Byte :=
  slice l (j * rowBytes d.inType 32) (rowBytes d.inType (d.rowLen c j))

/-- State words of an element in a region (R156). -/
def stateWordsOf (s : State) (region n idx : Nat) : List Nat :=
  (chunks 4 (regionRead s region (idx * 4 * n) (4 * n))).map leNat

/-- State words of each element that an operation's result reads: residuals, APPLY state or program state (R120, R123, R156). -/
def resultWords (x : Instance) (d : Desc) : Nat :=
  match d.op with
  | .quantise => if modeEf d.mode then 1 else 0
  | .apply => if modeAdam d.mode then 3 else 2
  | .eprog => (x.image.map (·.stateWords)).getD 0
  | _ => 0

/-- State words of each element that a PRE program reads. -/
def preWords (x : Instance) (d : Desc) : Nat := if modePre d.mode then (x.image.map (·.stateWords)).getD 0 else 0

/-- Is a state word of row `j`, `n` of each element, poisoned (R281)? -/
def stateLost (s : State) (x : Instance) (d : Desc) (c j n : Nat) : Bool :=
  decide (n ≠ 0) && regionPoisoned s x.pset.stateRegion (4 * n * d.firstIndex c j) (4 * n * d.rowLen c j)

/-- A write to a user region that commits with a row: handle, offset, bytes. -/
abbrev RegionWrite := Nat × Nat × List Byte

/-- The state-word writes of a program on a row: the elements present only (R132). -/
def stateWrites (region n first m : Nat) (ws : List (List Nat)) : List RegionWrite :=
  if n = 0 then []
  else (List.range m).map fun k => (region, (first + k) * 4 * n, ((ws.getD k []).map (leBytes 4)).flatten)

/-- Random words of a row (R119). -/
def rowRandoms (x : Instance) (t : GroupTable) (first : Nat) : List Nat :=
  (List.range 32).map fun k => randomWord t.srSeed x.group x.inst (first + k)

/-- An element program on a row of 32 values: values out as type codes, and its state writes. -/
def runProgram (s : State) (x : Instance) (t : GroupTable) (img : Image) (isInt : Bool) (first m : Nat) (vals : List FVal) :
    List Nat × List RegionWrite :=
  let ins := (List.range 32).map fun k => if isInt then (satInt 32 (valInt (vals.getD k (.fin false 0)))).1
    else toF32 (vals.getD k (.fin false 0))
  let st := (List.range 32).map fun k => if k < m then stateWordsOf s x.pset.stateRegion img.stateWords (first + k) else []
  let r := img.runRow ins first (rowRandoms x t first) st
  (r.1.map fun o => o.getD 0, stateWrites x.pset.stateRegion img.stateWords first m r.2)

/-- A row of fp32 values that an element program delivers in an MX type: scale, codes, values. -/
def programMx (ty : Nat) (codes : List Nat) : Nat × List Nat × List FVal :=
  let q := quantMx ((fmtOf ty).getD e4m3) (Config.eprogScaleC % 16 + 1) (List.replicate 32 none) (codes.map ofF32)
  (q.1, q.2.1, q.2.2.1)

/-- The values a local contribution brings into row `j`, after its PRE program if there is one (R154). -/
def contribVals (s : State) (x : Instance) (d : Desc) (t : GroupTable) (c j : Nat) (k : Contrib) : List FVal × List RegionWrite :=
  let vs := rowVals d.inType (d.rowLen c j) (rowBytesOf d c j k.bytes)
  match x.image with
  | some img =>
    if modePre d.mode then
      let fp := vs.map fp32.convert
      let r := runProgram s x t img (isIntType d.inType) (d.firstIndex c j) (d.rowLen c j) (if isIntType d.inType then vs else fp)
      let codes := r.1.take (d.rowLen c j)
      (if isMxType d.inType then (programMx d.inType codes).2.2 else codes.map (scalarVal d.inType), r.2)
    else (vs, [])
  | none => (vs, [])

/-- Fold two values of a comparison (R114). -/
def cmpVals (isMax : Bool) (a b : FVal) : FVal :=
  if a = .nan ∨ b = .nan then .nan else if isMax then (if fLt a b then b else a) else (if fLt b a then b else a)

/-- The code of a value that its type represents. -/
def codeOf (ty : Nat) (v : FVal) : Nat :=
  match ty with
  | 5 => twosComp 32 (valInt v)
  | 6 => twosComp 8 (valInt v)
  | 9 => (valInt v).toNat
  | _ => match fmtOf ty with
    | some f => f.encode v
    | none => 0

/-- One left fold of a row of values into a running row (R110, R114). -/
def foldRow (f : FVal → FVal → FVal) (run : List FVal) (vs : List FVal) : List FVal :=
  if run.isEmpty then vs else List.zipWith f run vs

/-- What pressing a unit does to its row: the row after it, region writes of PRE programs, escape statistics. -/
def pressLocal (s : State) (x : Instance) (d : Desc) (t : GroupTable) (ch : Chunk) (j : Nat) (w : RowSt) (ranks : List Nat)
    (accs : Nat) : RowSt × List RegionWrite :=
  let ks := ranks.filterMap fun r => ch.locals.find? fun k => k.rank == r
  let got := ks.map (contribVals s x d t ch.index j)
  let vals := got.map (·.1)
  let writes := (got.map (·.2)).flatten
  let left := w.todo.filter fun r => !ranks.contains r
  if d.isCmp then
    let run := vals.foldl (foldRow (cmpVals (d.op == .max))) (w.fold.map (scalarVal d.inType))
    ({ w with fold := run.map (codeOf d.inType), folded := w.folded + ks.length, todo := left }, writes)
  else if d.isRank then
    let run := vals.foldl (fun a v => foldRow fAdd a (v.map fp32.convert)) (w.fold.map ofF32)
    ({ w with fold := run.map toF32, folded := w.folded + ks.length, todo := left }, writes)
  else
    let fresh := if vals.isEmpty then [] else [Must.create (isW40 d.inType) (isIntType d.inType) vals]
    let all := w.acc.take accs ++ fresh
    let one := match all with
      | [] => []
      | a :: l => [{ (l.foldl Must.combine a) with full := w.full }]
    ({ w with acc := w.acc.drop accs ++ one, folded := w.folded + ks.length, todo := left }, writes)

/-- Is a row's local part pressed down to one partial? -/
def RowSt.localPressed (w : RowSt) : Bool := w.todo.isEmpty && decide (w.acc.length ≤ 1)

/-- The exact sum of a row over the local partial and far partials, one left out (R184). -/
def rowMust (d : Desc) (ch : Chunk) (j : Nat) (w : RowSt) (except : Option Nat) : Must :=
  let fars := ch.fars.filter fun f => except != some f.rank
  let all := w.acc ++ fars.filterMap fun f => f.rows[j]?
  match all with
  | [] => Must.empty (isW40 d.inType) (isIntType d.inType)
  | a :: l => l.foldl Must.combine a

/-- Site partials of a row in site order: site and values (R110). -/
def rowSites (t : GroupTable) (ch : Chunk) (j m : Nat) (w : RowSt) (except : Option Nat) : List (Nat × List FVal) :=
  let own := if w.fold.isEmpty then [] else [(t.localSite, w.fold.map ofF32)]
  let far := ((ch.fars.filter fun f => except != some f.rank).map fun f =>
    f.siteRows.filterMap fun p => (p.2[j]?).map fun r => (p.1, (List.range m).map r.toFp32)).flatten
  sortByKey (fun p => p.1) (own ++ far)

/-- The rank-order reduction of a row: site partials folded left in site order (R110). -/
def rowRank (t : GroupTable) (ch : Chunk) (j m : Nat) (w : RowSt) : List FVal :=
  (rowSites t ch j m w none).foldl (fun a p => foldRow fAdd a p.2) []

/-- The comparison of a row over local and far values. -/
def rowCmp (d : Desc) (c : Nat) (ch : Chunk) (j : Nat) (w : RowSt) (except : Option Nat) : List FVal :=
  ((ch.fars.filter fun f => except != some f.rank).map fun f => rowVals d.inType (d.rowLen c j) (rowBytesOf d c j f.raw)).foldl
    (foldRow (cmpVals (d.op == .max))) (w.fold.map (scalarVal d.inType))

/-- Members whose contributions a chunk's sum counts (R115, R183). -/
def countedMembers (ch : Chunk) : Nat := ch.locals.length + sumNat (ch.fars.map (·.members))

/-- The reduction of a row rounded once to fp32, or the exact integer sum (R117, R123, R154). -/
def rowReduced (d : Desc) (t : GroupTable) (ch : Chunk) (j m : Nat) (w : RowSt) : List FVal :=
  if d.isRank then rowRank t ch j m w
  else
    let r := rowMust d ch j w none
    (List.range m).map fun i => if isIntType d.inType then intVal (signExt 32 (satInt 32 (r.intValue i)).1) else r.toFp32 i

/-- A row of a result with what it adds to the statistics and what it writes. -/
structure RowRes where
  out : RowOut
  stats : Stats
  writes : List RegionWrite

/-- Scalar codes as a row result. -/
def RowRes.ofCodes (codes : List Nat) (st : Stats) (ws : List RegionWrite) : RowRes := ⟨⟨codes, 0, none⟩, st, ws⟩

/-- SUM or AVG of a row (R90, R110, R115, R116). -/
def resSum (d : Desc) (t : GroupTable) (ch : Chunk) (j m : Nat) (w : RowSt) (avg : Bool) : RowRes :=
  let n := if ch.fars.any (·.isRestored) then totalMembers t else countedMembers ch
  if isIntType d.inType then
    let r := rowMust d ch j w none
    let wd := if d.inType = 6 then 8 else 32
    let vs := (List.range m).map fun i => satInt wd (if avg then divRneInt (r.intValue i) n else r.intValue i)
    RowRes.ofCodes (vs.map (·.1)) { Stats.zero with sat := (vs.filter (·.2)).length } []
  else
    let f := (fmtOf d.outType).getD fp32
    let vs : List (Nat × Bool × Bool) :=
      if d.isRank then (rowRank t ch j m w).map fun v =>
        let c := f.convert v
        (f.encode c, isFin v && !isFin c, c == .nan || (!f.hasInf && !isFin c))
      else
        let r := rowMust d ch j w none
        (List.range m).map fun i => if avg then r.avgElem f n i else r.roundElem f i
    RowRes.ofCodes (vs.map (·.1))
      { Stats.zero with overflow := (vs.filter (·.2.1)).length, nanOut := (vs.filter (·.2.2)).length } []

/-- QUANTISE of a row (R117 to R122). -/
def resQuantise (s : State) (x : Instance) (d : Desc) (t : GroupTable) (ch : Chunk) (j m : Nat) (w : RowSt) : RowRes :=
  let first := d.firstIndex ch.index j
  let xs := rowReduced d t ch j m w
  let res := x.pset.stateRegion
  let vs := if modeEf d.mode then
      xs.mapIdx fun k v => fAdd v (ofF32 (leNat (regionRead s res ((first + k) * 4) 4)))
    else xs
  let us := (rowRandoms x t first).map fun u => if modeSr d.mode then some u else none
  let f := (fmtOf d.outType).getD e4m3
  let q : Nat × List Nat × List FVal × Nat :=
    if isMxType d.outType then quantMx f (modeC d.mode) us vs
    else
      let rs := List.zipWith (fun v u => quantScalar f u v) vs us
      (0, rs.map (·.1), rs.map (·.2.1), (rs.filter (·.2.2)).length)
  let ws := if modeEf d.mode then
      vs.mapIdx fun k v =>
        (res, (first + k) * 4, leBytes 4 (if isFin v then toF32 (fSub v (q.2.2.1.getD k .nan)) else 0))
    else []
  { out := ⟨q.2.1, q.1, none⟩
    stats := { Stats.zero with
      qsat := q.2.2.2
      nanOut := (q.2.2.1.filter fun v => v == .nan).length
      efReset := if modeEf d.mode then (vs.filter fun v => !isFin v).length else 0 }
    writes := ws }

/-- SGD with momentum on one element: w and v after it (R124). -/
def applySgd (cs : List Nat) (nesterov : Bool) (w v g0 : FVal) : FVal × FVal :=
  let c := fun i => ofF32 (cs.getD i 0)
  let g1 := fMul g0 (c 8)
  let g := match c 7 with
    | .fin _ 0 => g1
    | wd => fFma wd w g1
  let v' := fFma (c 1) v g
  let dd := if nesterov then fFma (c 1) v' g else v'
  (fFma (fNeg (c 0)) dd w, v')

/-- The Adam family on one element: w, m and v after it (R124). -/
def applyAdam (cs : List Nat) (bc1 bc2 w m v g0 : FVal) : FVal × FVal × FVal :=
  let c := fun i => ofF32 (cs.getD i 0)
  let g := fMul g0 (c 8)
  let m' := fFma (c 2) m (fMul (c 4) g)
  let v' := fFma (c 3) v (fMul (c 5) (fMul g g))
  let mh := fDiv m' bc1
  let vh := fDiv v' bc2
  let dn := fAdd (fSqrt vh) (c 6)
  let u := fDiv mh dn
  (fFma (fNeg (c 0)) (fFma (c 7) w u) w, m', v')

/-- APPLY of a row (R123 to R126). -/
def resApply (s : State) (x : Instance) (d : Desc) (t : GroupTable) (ch : Chunk) (j m : Nat) (w : RowSt) : RowRes :=
  let first := d.firstIndex ch.index j
  let gs := rowReduced d t ch j m w
  let adam := modeAdam d.mode
  let n := if adam then 12 else 8
  let bc1 := fSub (ofF32 0x3F800000) (ofF32 x.applyP1)
  let bc2 := fSub (ofF32 0x3F800000) (ofF32 x.applyP2)
  let us := rowRandoms x t first
  let one := fun k g =>
    let off := (first + k) * n
    let word := fun i => ofF32 (leNat (regionRead s x.pset.stateRegion (off + 4 * i) 4))
    let r : FVal × List FVal :=
      if adam then
        let z := applyAdam x.pset.consts bc1 bc2 (word 0) (word 1) (word 2) g
        (z.1, [z.1, z.2.1, z.2.2])
      else
        let z := applySgd x.pset.consts (modeNesterov d.mode) (word 0) (word 1) g
        (z.1, [z.1, z.2])
    let code := if d.outType = 0 then toF32 r.1
      else if modeSr d.mode then (quantScalar bf16 (some (us.getD k 0)) r.1).1
      else bf16.encode (bf16.convert r.1)
    (code, (x.pset.stateRegion, off, (r.2.map fun v => leBytes 4 (toF32 v)).flatten), r.1 == FVal.nan)
  let rs := gs.mapIdx one
  { out := ⟨rs.map (·.1), 0, none⟩
    stats := { Stats.zero with
      applyNonfinite := (gs.filter fun g => !isFin g).length
      nanOut := (rs.filter fun r => r.2.2).length }
    writes := rs.map (·.2.1) }

/-- EPROG of a row (R154, R157). -/
def resEprog (s : State) (x : Instance) (d : Desc) (t : GroupTable) (ch : Chunk) (j m : Nat) (w : RowSt) : RowRes :=
  match x.image with
  | none => RowRes.ofCodes (List.replicate m 0) Stats.zero []
  | some img =>
    let first := d.firstIndex ch.index j
    let r := runProgram s x t img (isIntType d.inType) first m (rowReduced d t ch j m w)
    let codes := r.1.take m
    let nans := fun (vs : List FVal) => { Stats.zero with nanOut := (vs.filter fun v => v == .nan).length }
    if isMxType d.outType then
      let q := programMx d.outType codes
      { out := ⟨q.2.1, q.1, none⟩, stats := nans q.2.2, writes := r.2 }
    else RowRes.ofCodes codes (nans (codes.map (scalarVal d.outType))) r.2

/-- The result of a row under its operation (R135). -/
def resultRow (s : State) (x : Instance) (d : Desc) (t : GroupTable) (ch : Chunk) (j : Nat) (w : RowSt) : RowRes :=
  let m := d.rowLen ch.index j
  match d.op with
  | .avg => resSum d t ch j m w true
  | .max | .min =>
    let vs := rowCmp d ch.index ch j w none
    RowRes.ofCodes (vs.map (codeOf d.outType)) { Stats.zero with nanOut := (vs.filter fun v => v == .nan).length } []
  | .quantise => resQuantise s x d t ch j m w
  | .apply => resApply s x d t ch j m w
  | .eprog => resEprog s x d t ch j m w
  | .topK => resSum { d with outType := d.inType } t ch j m w false
  | _ => resSum d t ch j m w false

/-! ### Operations that work chunk by chunk -/

/-- A pair of a SET-MERGE: key and its contributions' values. -/
abbrev KeyVals := SMap (List FVal)

/-- The pairs of a payload. -/
def pairsOf (ty : Nat) (l : List Byte) : List (Nat × FVal) :=
  let w := 4 + (if ty = 9 then 0 else elemBytes ty)
  (chunks w l).map fun p => (beAt p 0 4, if ty = 9 then .fin false 0 else scalarVal ty (beNat (p.drop 4)))

/-- The bytes of a SET-MERGE partial's exact value: one escape record of INDEX 0 (R145). -/
def pairPartial (r : Must) : List Byte :=
  if r.st.getD 0 0 ≠ 0 then beBytes 8 2 ++ beBytes 8 (r.st.getD 0 0)
  else match mergeEsc none false (r.value 0) with
    | some e => escBytes true 0 e
    | none => beBytes 8 (if bitOf r.negz 0 then 128 else 0) ++ beBytes 8 0

/-- Read the pairs of a SET-MERGE partial under VCOMB 0: key and one-element must row (R145). -/
def parsePairPartials (w40 int : Bool) : Nat → List Byte → List (Nat × Must)
  | 0, _ => []
  | fuel + 1, l =>
    if l.length < 20 then []
    else
      let key := beAt l 0 4
      let h := beAt l 4 8
      let long := bitsOf h 0 2 = 1
      let body := slice l 4 (if long then 64 else 16)
      let base := Must.empty w40 int
      let r : Must :=
        if bitsOf h 0 2 = 2 then { base with st := beAt l 12 8 % 4 :: List.replicate 31 0, negz := 0 }
        else match parseEsc true 1 true 0 body with
          | some (_, (_, e) :: _) => { base with e := 0, esc := some e :: List.replicate 31 none, negz := 0 }
          | _ => { base with negz := b2n (bitOf h 7) }
      (key, r) :: parsePairPartials w40 int fuel (l.drop (if long then 68 else 20))

/-- A compared value carried as a one-element row. -/
def cmpMust (w40 int : Bool) (v : FVal) : Must :=
  let x := val512 v
  { Must.empty w40 int with
    st := stOf v :: List.replicate 31 0
    m := []
    esc := [if x = 0 then none else some (Esc.mk true x)]
    negz := b2n (isNegZero v) }

/-- The value of a one-element row. -/
def cmpValue (r : Must) : FVal :=
  match r.st.getD 0 0 with
  | 0 =>
    let v := escVal (r.esc.getD 0 none)
    FVal.fin (if v = 0 then bitOf r.negz 0 else decide (v < 0)) (v.natAbs / 2 ^ 352)
  | 1 => FVal.inf false
  | 2 => FVal.inf true
  | _ => FVal.nan

/-- The merged pairs of a chunk, from local contributions and far partials but one: key, exact value (VCOMB 0) or compared
value. -/
def mergePairs (d : Desc) (ch : Chunk) (except : Option Nat) : SMap Must :=
  let w40 := isW40 d.inType
  let int := isIntType d.inType
  let vc := modeVcomb d.mode
  let one := fun (v : FVal) => if vc = 0 then Must.create w40 int [[v]] else cmpMust w40 int v
  let add := fun (m : SMap Must) (k : Nat) (r : Must) => match mget m k with
    | none => mset m k r
    | some q => mset m k (if vc = 0 then q.combine r else one (cmpVals (vc == 1) (cmpValue q) (cmpValue r)))
  let loc := ch.locals.foldl (fun m c => (pairsOf d.inType c.bytes).foldl (fun a p => add a p.1 (one p.2)) m) []
  (ch.fars.filter fun f => except != some f.rank).foldl (fun m f =>
    if vc = 0 ∧ d.inType ≠ 9 then
      (parsePairPartials w40 int (f.raw.length / 20 + 1) f.raw).foldl (fun a p => add a p.1 p.2) m
    else (pairsOf d.inType f.raw).foldl (fun a p => add a p.1 (one p.2)) m) loc

/-- The delivered code of a merged value. -/
def mergedCode (d : Desc) (r : Must) : Nat :=
  if modeVcomb d.mode = 0 then
    if isIntType d.inType then (satInt (8 * elemBytes d.inType) (r.intValue 0)).1
    else (r.roundElem ((fmtOf d.outType).getD fp32) 0).1
  else codeOf d.inType (cmpValue r)

/-- A TOP-K entry. -/
structure KEntry where
  key : Nat
  rank : Nat
  code : Nat
  deriving DecidableEq, Repr

/-- The order of entries (R146): does `a` come before `b`? -/
def entryLt (ty : Nat) (mag : Bool) (a b : KEntry) : Bool :=
  let abs := fun v => match v with
    | FVal.fin n m => FVal.fin (if mag then false else n) m
    | FVal.inf n => FVal.inf (if mag then false else n)
    | FVal.nan => FVal.nan
  let va := abs (scalarVal ty a.code)
  let vb := abs (scalarVal ty b.code)
  let num := fun x y => match x, y with
    | FVal.fin n m, FVal.fin n' m' => decide (sgn n m < sgn n' m')
    | _, _ => fLt x y
  let byKey := decide (a.key < b.key) || (a.key == b.key && decide (a.rank < b.rank))
  match va, vb with
  | .nan, .nan => byKey
  | .nan, _ => false
  | _, .nan => true
  | _, _ => if num vb va then true else if num va vb then false else byKey

/-- Bytes of an entry (R147). -/
def KEntry.toBytes (ty : Nat) (e : KEntry) : List Byte :=
  beBytes 4 e.key ++ beBytes 2 e.rank ++
    (if elemBytes ty = 4 then [0, 0] ++ beBytes 4 e.code
     else if elemBytes ty = 2 then beBytes 2 e.code else [byte e.code, 0])

/-- Entries of a byte string. -/
def entriesOf (ty : Nat) (l : List Byte) : List KEntry :=
  (chunks (if elemBytes ty = 4 then 12 else 8) l).map fun p =>
    ⟨beAt p 0 4, beAt p 4 2, if elemBytes ty = 4 then beAt p 8 4 else if elemBytes ty = 2 then beAt p 6 2 else byteAt p 6⟩

/-- The best K entries of a chunk under REDUCE = 0, from local contributions and far partials but one. -/
def bestEntries (d : Desc) (k : Nat) (ch : Chunk) (except : Option Nat) : List KEntry :=
  let loc := (ch.locals.map fun c =>
    (scalarBits (elemBytes d.inType) c.bytes).mapIdx fun i b => (⟨ch.index * d.chunkSize + i, c.rank, b⟩ : KEntry)).flatten
  let far := ((ch.fars.filter fun f => except != some f.rank).map fun f => entriesOf d.inType f.raw).flatten
  (sortBy (entryLt d.inType (modeMag d.mode)) (loc ++ far)).take k

/-- The best K of a reduced chunk (REDUCE = 1): rank 0xFFFF. -/
def bestReduced (d : Desc) (k c : Nat) (codes : List Nat) : List KEntry :=
  (sortBy (entryLt d.inType (modeMag d.mode)) (codes.mapIdx fun i b => (⟨c * d.chunkSize + i, 0xFFFF, b⟩ : KEntry))).take k

end Sys2Proof.Machine
end

