-- ==== Sys2Proof/Machine/PartialOps.lean ====
section
/-! DEFINITION. The exact partial of a chunk, as it travels to a far member or lies in a Silo (R28, R111, R145, R149, R184,
R484), and the writing of Silo entries. -/

namespace Sys2Proof.Machine

open Sys2Proof

/-- A chunk without what came from one far member; a restored Silo entry that holds that member's sites counts as coming
from it (R184, R486). -/
def Chunk.forFar (ch : Chunk) (f : Nat × Member) : Chunk :=
  { ch with fars := ch.fars.filter fun k =>
      k.rank != f.1 && !(k.isRestored && decide (k.sites &&& f.2.coveredSites ≠ 0)) }

/-- The table row of a GATHER at which a rank's contribution starts: ranks follow one another, a far entry standing for the
members it covers. -/
def tableBase (t : GroupTable) (perMember rank : Nat) : Nat :=
  perMember * sumNat ((t.members.take rank).map fun m => if m.far then m.coveredMembers else 1)

/-- The table rows a chunk's local contributions hold: index and bytes. -/
def localTableRows (d : Desc) (t : GroupTable) (ch : Chunk) : List (Nat × List Byte) :=
  (ch.locals.map fun c =>
    (List.range (ceilDiv (d.chunkLen ch.index) 32)).map fun j =>
      (tableBase t (d.elements / 32) c.rank + ch.index * (d.chunkSize / 32) + j, rowBytesOf d ch.index j c.bytes)).flatten

/-- Table rows of a far partial: 4 B of index in front of each row. -/
def farTableRows (d : Desc) (l : List Byte) : List (Nat × List Byte) :=
  (chunks (4 + rowBytes d.inType 32) l).map fun r => (beAt r 0 4, r.drop 4)

/-- Every table row a chunk holds. -/
def chunkTableRows (d : Desc) (t : GroupTable) (ch : Chunk) : List (Nat × List Byte) :=
  localTableRows d t ch ++ (ch.fars.map fun f => farTableRows d f.raw).flatten

/-- A rank-order site partial as must rows, one term per element (R111). -/
def foldMust (d : Desc) (w : RowSt) : Must := Must.create (isW40 d.inType) false [w.fold.map ofF32]

/-- The pairs of a SET-MERGE partial (R145). -/
def pairsPartial (d : Desc) (ch : Chunk) : List Byte × Nat :=
  let ps := mergePairs d ch none
  ((ps.map fun p => beBytes 4 p.1 ++
    (if d.inType = 9 then [] else if modeVcomb d.mode = 0 then pairPartial p.2
     else beBytes (elemBytes d.inType) (mergedCode d p.2))).flatten, ps.length)

/-- The exact partial of everything a chunk holds (R28): must rows of sums, site partials of rank order, values of MAX and
MIN, merged pairs, best entries, listed table rows, or a source's data. -/
def chunkPartial (x : Instance) (d : Desc) (t : GroupTable) (ch : Chunk) : FarPart :=
  let base : FarPart :=
    { rank := 0xFFFF, sites := chunkSites t (contributors t d x.pset) ch, members := countedMembers ch, rows := [], siteRows := [],
      raw := [], count := 0, isRestored := true, casks := [] }
  if d.rowWise then
    let m := fun j => d.rowLen ch.index j
    if d.isCmp then
      { base with
        raw := (ch.rows.mapIdx fun j w => scalarRowBytes d.inType ((rowCmp d ch.index ch j w none).map (codeOf d.inType))).flatten
        count := sumNat (ch.rows.mapIdx fun j _ => m j) }
    else if d.isRank then
      let own := if ch.rows.any fun w => !w.fold.isEmpty then [(t.localSite, ch.rows.map (foldMust d))] else []
      { base with
        siteRows := sortByKey (fun p => p.1) (own ++ (ch.fars.map (·.siteRows)).flatten)
        count := ch.rows.length }
    else { base with rows := ch.rows.mapIdx fun j w => rowMust d ch j w none, count := ch.rows.length }
  else
    match d.op with
    | .setMerge => let p := pairsPartial d ch; { base with raw := p.1, count := p.2 }
    | .topK =>
      let es := bestEntries d x.pset.k ch none
      { base with raw := (es.map (KEntry.toBytes d.inType)).flatten, count := es.length }
    | .gather =>
      let named := (x.idx.map (·.entries)).getD []
      let rs := (chunkTableRows d t ch).filter fun r => named.contains r.1
      { base with raw := (rs.map fun r => beBytes 4 r.1 ++ r.2).flatten, count := rs.length }
    | _ =>
      match ch.locals.head?, ch.fars.head? with
      | some c, _ => { base with raw := c.bytes, count := c.count }
      | none, some f => { base with raw := f.raw, count := f.count }
      | none, none => base

/-- Bytes a partial takes in a Silo entry (R484). -/
def FarPart.siloLen (p : FarPart) : Nat :=
  let rows := fun (l : List Must) => sumNat (l.map fun r => (r.toBytes false).length)
  rows p.rows + sumNat (p.siteRows.map fun q => rows q.2) + p.raw.length

/-- Silo space in use (R484): 64 B a record that has entries, and the entries. -/
def siloUsed (s : State) : Nat :=
  sumNat (s.sites.silo.map fun r => if r.entries.isEmpty then 0 else 64 + r.bytes)

/-- The limit of fallow is reached for a group (R485): its later launches follow HOLD; the event is raised once per
episode. -/
def fallowLimit (g : Nat) (s : State) : State :=
  let was := (groupSites s g).limitRaised
  let s1 := updGroupSites g (fun x => { x with hold := true, limitRaised := true }) s
  if was then s1 else raise 0x8E02 [g] s1

/-- Write the Silo entry of a chunk, or mark the record LOST when it would pass the limit (R484, R485). -/
def siloWrite (g i c : Nat) (e : FarPart) (s : State) : State :=
  match siloOf s g i with
  | none => s
  | some r =>
    let n := 8 + e.siloLen
    let old := ((mget r.entries c).map fun p => 8 + p.siloLen).getD 0
    let need := n + (if r.entries.isEmpty then 64 else 0) - old
    if 1000000000 * fld s 0x00094084 0 9 < siloUsed s + need then
      fallowLimit g (updSilo g i (fun y => { y with lost := true }) s)
    else updSilo g i (fun y => { y with cover := y.cover ||| e.sites, bytes := y.bytes + n - old, entries := mset y.entries c e }) s

/-- After the commit of a chunk: a result delivered FALLOW in a FALLOW group leaves its Silo entry (R484). -/
def siloAfter (x : Instance) (d : Desc) (t : GroupTable) (k : Nat) (ch : Chunk) (s : State) : State :=
  let before := (mget x.chunks k).any fun c => c.prods.any fun p => p.target == .result && p.pressed
  if !before ∧ (ch.prods.any fun p => p.target == .result && p.pressed && p.fallow) ∧ t.policy = 1 then
    siloWrite x.group x.inst k (chunkPartial x d t ch) s
  else s

/-! ### Digests of local partials (R497) -/

/-- The canonical form of a chunk's local partial (R497): state, NEGZ and the 320-bit value of each element of must rows,
otherwise the partial's bytes. -/
def localCanonical (x : Instance) (d : Desc) (t : GroupTable) (ch : Chunk) : List Byte :=
  let own := { ch with fars := [] }
  if d.rowWise ∧ ¬ d.isCmp then
    (ch.rows.mapIdx fun j w =>
      let r := if d.isRank then foldMust d w else rowMust d own j w none
      ((List.range 32).map fun i =>
        [byte (r.st.getD i 0), byte (b2n (bitOf r.negz i))] ++ beBytes 40 (twosComp 320 (r.value i / pow512 (-160)))).flatten).flatten
  else (chunkPartial x d t own).raw

/-- Record the digest of a chunk's committed local partial while a shadow join runs (R497). -/
def recordDigest (x : Instance) (d : Desc) (t : GroupTable) (ch : Chunk) (s : State) : State :=
  let dg := beNat (shake256 (localCanonical x d t ch) 8)
  let differs := fun (e : Nat × Nat × Nat × Nat × Nat) => e.1 != x.group || e.2.1 != x.inst || e.2.2.1 != ch.index
  match s.sites.shadow.role with
  | 1 => s.mapSites fun y => { y with shadow := { y.shadow with
      own := (x.group, x.inst, ch.index, dg, s.tick) :: y.shadow.own.filter differs } }
  | 2 => s.mapSites fun y => { y with shadow := { y.shadow with fresh := y.shadow.fresh ++ [(x.group, x.inst, ch.index, dg)] } }
  | _ => s

/-! ### Results made chunk by chunk -/

/-- The content of a result that is not pressed row by row: raw bytes and count (R144 to R150). -/
def chunkResult (x : Instance) (d : Desc) (ch : Chunk) : List Byte × Nat :=
  match d.op with
  | .setMerge =>
    let kv := (mergePairs d ch none).map fun p => (p.1, if d.inType = 9 then 0 else mergedCode d p.2)
    let kv2 := match x.image with
      | some img => img.runSet kv
      | none => kv
    ((kv2.map fun p => beBytes 4 p.1 ++ (if d.inType = 9 then [] else beBytes (elemBytes d.outType) p.2)).flatten, kv2.length)
  | .topK =>
    let es := bestEntries d x.pset.k ch none
    ((es.map (KEntry.toBytes d.inType)).flatten, es.length)
  | .gather => ([], 0)
  | _ =>
    match ch.locals.head?, ch.fars.head? with
    | some c, _ => (c.bytes, c.count)
    | none, some f => (f.raw, f.count)
    | none, none => ([], 0)

/-- Does a merged chunk need more than MAX_CHUNK runs of its set program (R163)? -/
def overRuns (x : Instance) (d : Desc) (ch : Chunk) : Bool :=
  match d.op, x.image with
  | .setMerge, some img => decide (img.maxChunk * 2048 < (mergePairs d ch none).length)
  | _, _ => false

/-- The elements of an aggregated GATHER row of a scalar type: code, overflow, NaN, saturation (R90, R92, R116, R149). A
sum of keys beyond 32 bits is open. -/
def aggElems (d : Desc) (rows : List (List Byte)) : List (Nat × Bool × Bool × Bool) :=
  let m := Must.create (isW40 d.inType) (isIntType d.inType) (rows.map fun r => rowVals d.inType 32 r)
  (List.range 32).map fun i =>
    if isIntType d.inType then
      let r := satInt (8 * elemBytes d.inType) (m.intValue i)
      (r.1, false, false, r.2)
    else if d.inType = 9 then
      let n := sumNat (rows.map fun r => beAt r (4 * i) 4)
      (if n < 2 ^ 32 then n else Config.programOpen 0x30 n 9 0 % 2 ^ 32, false, false, false)
    else
      let r := m.roundElem ((fmtOf d.outType).getD fp32) i
      (r.1, r.2.1, r.2.2, false)

/-- Output row `r` of a GATHER (R149): the listed table row, or the exact sum of the listed rows rounded once. How the
scale of an MX row is searched is open. -/
def gatherRow (x : Instance) (d : Desc) (t : GroupTable) (l : IdxList) (r : IdxRow) : List Byte :=
  let rows := (x.chunks.map fun e => chunkTableRows d t e.2).flatten
  let find := fun k => ((rows.find? fun p => p.1 == k).map (·.2)).getD []
  let ks := l.rowIndices r
  if ¬ modeAgg d.mode then find (ks.headD 0)
  else
    if isMxType d.outType then
      let m := Must.create (isW40 d.inType) false (ks.map fun k => rowVals d.inType 32 (find k))
      let q := programMx d.outType ((List.range 32).map fun i => toF32 (m.toFp32 i))
      mxRowBytes d.outType q.1 q.2.1
    else scalarRowBytes d.outType ((aggElems d (ks.map find)).map (·.1))

/-- What the aggregated rows of a GATHER that are delivered here add to the statistics (R92, R116). -/
def gatherStats (x : Instance) (d : Desc) (t : GroupTable) : Stats :=
  let l := x.idx.getD ⟨[], []⟩
  let rows := (x.chunks.map fun e => chunkTableRows d t e.2).flatten
  let find := fun k => ((rows.find? fun p => p.1 == k).map (·.2)).getD []
  let here := fun (r : IdxRow) => r.dest == 0xFFFF || (localRanks t).any fun m => m.1 == r.dest
  if d.op ≠ .gather ∨ ¬ modeAgg d.mode ∨ isMxType d.outType then Stats.zero
  else
    let es := ((l.rows.filter here).map fun r => aggElems d ((l.rowIndices r).map find)).flatten
    { Stats.zero with
      overflow := (es.filter (·.2.1)).length, nanOut := (es.filter (·.2.2.1)).length, sat := (es.filter (·.2.2.2)).length }

/-- The rows of an index-list result for one member: those whose DEST names it or every member. -/
def destRows (l : IdxList) (rank : Nat) : List (Nat × IdxRow) :=
  (l.rows.mapIdx fun j r => (j, r)).filter fun p => p.2.dest == rank || p.2.dest == 0xFFFF

end Sys2Proof.Machine
end

