-- ==== Sys2Proof/Machine/PressWork.lean ====
section
/-! DEFINITION. The Press at work: which outputs a chunk owes, the pressing list, staging of work units, the cycle budget, and
the commit of rows (R42 to R58, R102 to R107, R184, R185, R599). -/

namespace Sys2Proof.Machine

open Sys2Proof

/-! ### What a chunk owes -/

/-- A contribution whose staged words can all be read (R281). -/
def Contrib.sound (c : Contrib) : Bool := c.done && c.hole.isNone

/-- Does a row wait for a packet that is to be restaged? -/
def awaitsRestage (ch : Chunk) (w : RowSt) : Bool := ch.locals.any fun c => c.hole.isSome && w.todo.contains c.rank

/-- Is the contribution of every needed site counted for the result of a chunk (R185)? For an operation by source the
source's own data are enough. -/
def resultReady (x : Instance) (d : Desc) (t : GroupTable) (ch : Chunk) : Bool :=
  let rs := contributors t d x.pset
  if d.bySource then ch.locals.any (·.sound) || !ch.fars.isEmpty
  else if d.op = .gather then
    ch.index == 0 && (List.range d.chunks).all fun c => match mget x.chunks c with
      | some k => covers (chunkSites t rs k) (neededSites x t)
      | none => false
  else covers (chunkSites t rs ch) (neededSites x t)

/-- Does some member that receives chunk `c` lie at a far entry's sites (R184)? -/
def farReceives (d : Desc) (p : PSet) (t : GroupTable) (c : Nat) (f : Nat × Member) : Bool :=
  if d.op.usesDeliver ∧ modeDeliver d.mode ≠ 0 then receives d p t.members.length c f.1 else true

/-- Is the partial owed to a far member ready (R184): every contribution of every site outside its own is counted? -/
def partialReady (x : Instance) (d : Desc) (t : GroupTable) (ch : Chunk) (f : Nat × Member) : Bool :=
  if d.bySource then ch.locals.any (·.sound) || ch.fars.any fun k => k.rank != f.1
  else
    let need := maskMinus (neededSites x t) f.2.coveredSites
    let have_ := (ch.fars.filter fun k => k.rank != f.1).foldl (fun m k => m ||| k.sites)
      (if chunkLocalFull (contributors t d x.pset) ch then siteBit t.localSite else 0)
    covers have_ need

/-- Does some local member receive chunk `c` (R137)? -/
def localReceives (d : Desc) (p : PSet) (t : GroupTable) (c : Nat) : Bool :=
  (localRanks t).any fun r => receives d p t.members.length c r.1

/-- The outputs of a chunk that are ready and not yet made. -/
def readyTargets (x : Instance) (d : Desc) (t : GroupTable) (ch : Chunk) : List Target :=
  let made := fun (g : Target) => ch.prods.any fun p => p.target == g && p.pressed
  let res := if localReceives d x.pset t ch.index ∧ resultReady x d t ch ∧ ¬ made .result then [Target.result] else []
  let fars := (farRanks t).filterMap fun f =>
    if farReceives d x.pset t ch.index f ∧ maskMinus f.2.coveredSites x.excluded ≠ 0 ∧ partialReady x d t ch f ∧
        ¬ made (.toFar f.1) then some (Target.toFar f.1) else none
  res ++ fars

/-- Is row `j` missing from some ready output? -/
def rowOwed (x : Instance) (d : Desc) (t : GroupTable) (ch : Chunk) (j : Nat) : Bool :=
  (readyTargets x d t ch).any fun g =>
    match ch.prods.find? fun p => p.target == g with
    | some p => (p.rows.getD j none).isNone
    | none => true

/-- The ranks the next rank-order unit of a row takes (R112): 64 at first, then 63, and only when all are staged. -/
def rankUnit (rs : List Nat) (w : RowSt) : List Nat :=
  let next := (rs.drop w.folded).take (if w.folded = 0 then 64 else 63)
  if !next.isEmpty ∧ next.all w.todo.contains then next else []

/-- The units a row needs now: ranks and must rows of each (R599, R112). -/
def rowUnits (x : Instance) (d : Desc) (t : GroupTable) (ch : Chunk) (j : Nat) (w : RowSt) : List (List Nat × Nat) :=
  let rs := contributors t d x.pset
  if awaitsRestage ch w then []
  else if ¬ d.rowWise then (if !w.todo.isEmpty ∨ rowOwed x d t ch j then [(w.todo, 0)] else [])
  else if d.isRank then
    let u := rankUnit rs w
    if !u.isEmpty then [(u, 0)] else if w.todo.isEmpty ∧ w.folded = rs.length ∧ rowOwed x d t ch j then [([], 0)] else []
  else
    let m := w.todo.length + w.acc.length
    if !w.todo.isEmpty ∨ 2 ≤ w.acc.length then
      if m ≤ 64 then [(w.todo, w.acc.length)]
      else
        (List.range (ceilDiv m 64)).map fun k =>
          let lo := 64 * k
          let hi := min m (lo + 64)
          let a := w.acc.length
          let accs := min hi a - min lo a
          ((w.todo.drop (lo - min lo a)).take (hi - lo - accs), accs)
    else if rowOwed x d t ch j then [([], 0)] else []

/-! ### Cost, gang and bytes of a unit -/

/-- Core-cycles of one contribution of an exact sum (R58). -/
def contribCost (ty : Nat) : Nat :=
  match ty with
  | 0 => 40
  | 1 => 20
  | 2 => 20
  | 3 => 12
  | 4 => 12
  | 5 => 64
  | 6 => 16
  | _ => 14

/-- Core-cycles of combining two must rows (R58). -/
def combineCost (w40 : Bool) : Nat := if w40 then 72 else 36

/-- Core-cycles of what an operation adds to a finished row (R58). -/
def finishCost (x : Instance) (d : Desc) : Nat :=
  match d.op with
  | .quantise => (if modeSr d.mode ∨ modeEf d.mode then 160 else 48) + (if isMxType d.outType then 34 * modeC d.mode else 0)
  | .apply => if modeAdam d.mode then 1152 else 384
  | .eprog => (x.image.map (·.declCost)).getD 0
  | .avg => 64
  | _ => if isIntType d.inType then 16 else if d.outType = 0 then 40 else 24

/-- Core-cycles of decoding one far row of a deep-mode partial, in the decode phase of the pressing (R56, R58, R224). -/
def deepDecode (s : State) (t : GroupTable) (d : Desc) : Nat :=
  if d.coding = 2 ∧ bit s 0x00140004 0 ∧ ¬ t.isSealed ∧ d.rowWise then (if isW40 d.inType then 1632 else 1088) else 0

/-- Core-cycles of a unit (R58), with what each far row costs to decode. -/
def unitCost (x : Instance) (d : Desc) (ch : Chunk) (n accs deep : Nat) (finishes full : Bool) : Nat :=
  let fars := if finishes then ch.fars.length else 0
  fars * deep +
  (if modePre d.mode then n * (x.image.map (·.declCost)).getD 0 else 0) + (if finishes then finishCost x d else 0) +
    (if ¬ d.rowWise then
      match d.op with
      | .topK => 4 * sumNat (ch.locals.map (·.count))
      | .setMerge => 3 * sumNat (ch.locals.map (·.count)) * (Nat.log2 (max 1 n) + 1)
      | .gather => 6 * sumNat (ch.locals.map (·.count))
      | .scatter => 4 * sumNat (ch.locals.map (·.count))
      | _ => 0
    else if d.isCmp then n * (8 * elemBytes d.inType) + fars * (8 * elemBytes d.inType)
    else if d.isRank then (n + fars) * 32
    else if full then (n + accs + fars) * 320 + 256
    else n * contribCost d.inType + (accs + fars) * combineCost (isW40 d.inType))

/-- The gang of a unit (R54): by contribution, by element, or by key range. -/
def unitGang (d : Desc) (items cost : Nat) (deep full : Bool) : Nat :=
  if ¬ d.rowWise ∨ full then 32
  else if d.isRank then 1
  else if d.op = .quantise ∨ d.op = .apply ∨ d.op = .eprog ∨ deep then
    (if cost ≤ 480 then 1 else if ceilDiv cost 8 ≤ 480 then 8 else 32)
  else if items ≤ 4 then 1 else if items ≤ 32 then 8 else 32

/-- Cycles each core of the gang spends, the tree of the contribution split included (R54, R58). -/
def perCore (d : Desc) (gang cost : Nat) : Nat :=
  ceilDiv cost gang + (if d.rowWise ∧ ¬ d.isRank ∧ ¬ d.isCmp ∧ 1 < gang then gang.log2 * (16 + combineCost (isW40 d.inType)) else 0)

/-- Bytes a unit takes in the Arrive area (R41). -/
def unitBytes (d : Desc) (ch : Chunk) (n accs : Nat) (finishes : Bool) : Nat :=
  let per := if d.inType = 0 ∧ ¬ d.isRank ∧ d.rowWise then 256 else rowBytes d.inType 32
  let must := if isW40 d.inType then 264 else 136
  if d.rowWise then n * per + (accs + (if finishes then ch.fars.length else 0)) * must
  else min 65536 (sumNat (ch.locals.map fun c => c.bytes.length))

/-! ### Dies and clusters -/

/-- A die. -/
def dieOf (s : State) (i : Nat) : Die := vget s.press.dies i Die.fresh

/-- Change a die. -/
def updDie (i : Nat) (f : Die → Die) (s : State) : State := s.mapPress fun p => { p with dies := vupd p.dies i f }

/-- Dies that the DIE_SEL strap enables, one bit per die (R534, R535). -/
def diesEnabled (s : State) : Nat :=
  let sel := bitsOf s.bru.straps 0 2
  if sel = 0 then 15 else if sel = 1 then 3 else 1

/-- Is a die pressing (R49)? -/
def diePressing (s : State) (i : Nat) : Bool :=
  let d := dieOf s i
  bitOf (diesEnabled s) i && !d.overTemp && d.retrainEnd.isNone

/-- The least budget B (R76): FLOOR in units of 64 cycles. -/
def floorBudget (s : State) : Nat := 64 * fld s 0x00200020 20 5

/-- Logical cores of one die now (R74, R535). -/
def dieCores (s : State) (i : Nat) : Nat := if bitOf (diesEnabled s) i then 262144 - 256 * (dieOf s i).lostClusters else 0

/-- Logical cores now (R74). -/
def logicalCores (s : State) : Nat := sumNat ((List.range 4).map (dieCores s))

/-- Bytes a die's distributor admits in one tick (R41, R69, R75): its share of the package's rate goes with its own logical
cores. -/
def stagingCap (s : State) (i : Nat) : Nat :=
  let d := dieOf s i
  2516000 * min d.dataTx d.dataRx / 64 * dieCores s i / 262144

/-- Staged bytes of a die. -/
def dieStaged (us : List WorkUnit) (i : Nat) : Nat := sumNat ((us.filter fun u => u.die == i).map (·.bytes))

/-- The pressing die with the least staged data, the lower number on a tie (R49). -/
def chooseDie (s : State) (us : List WorkUnit) : Option Nat :=
  let c := ((List.range 4).filter (diePressing s)).filter fun i =>
    decide (sumNat ((us.filter fun u => u.die == i && u.stagedTick == s.tick).map (·.bytes)) < stagingCap s i)
  (sortByKey (dieStaged us) c).head?

/-- Staged bytes by cluster of a die. -/
def clusterLoads (us : List WorkUnit) (i : Nat) : SMap Nat :=
  (us.filter fun u => u.die == i).foldl (fun m u => mupdD m u.cluster 0 (· + u.bytes)) []

/-- The cluster with the most free Arrive space that has room, the lower y then x on a tie (R49); clusters are numbered
y × 32 + x. -/
def chooseCluster (loads : SMap Nat) (n bytes : Nat) : Option Nat :=
  match firstFrom n 0 fun c => (mget loads c).isNone with
  | some c => some c
  | none => ((sortByKey (fun e : Nat × Nat => e.2) loads).head?).bind fun e => if e.2 + bytes ≤ 65536 then some e.1 else none

/-- Stage one unit, whole, where there is room (R49). -/
def placeUnit (s : State) (us : List WorkUnit) (u : WorkUnit) : List WorkUnit :=
  match chooseDie s us with
  | none => us
  | some i =>
    match chooseCluster (clusterLoads us i) (1024 - (dieOf s i).lostClusters) u.bytes with
    | none => us
    | some c => us ++ [{ u with die := i, cluster := c, stagedTick := s.tick }]

/-! ### The pressing list and staging -/

/-- Is an instance held by a fence (R169, R170, R172)? -/
def fenceHeld (s : State) (x : Instance) : Bool :=
  s.coll.fences.any fun f =>
    (f.group == x.group && (f.inst == x.inst || earlier f.inst x.inst)) ||
      (f.all && decide (f.order ≤ x.order))

/-- Units of an instance. -/
def unitsOf (s : State) (x : Instance) : List WorkUnit :=
  s.press.units.filter fun u => u.group == x.group && u.inst == x.inst

/-- Has an instance work for the Press? -/
def hasWork (s : State) (x : Instance) : Bool :=
  !(unitsOf s x).isEmpty ||
    match x.desc, instTable s x with
    | some d, some t => x.chunks.any fun e => (e.2.rows.mapIdx fun j w => (rowUnits x d t e.2 j w).isEmpty).any fun b => !b
    | _, _ => false

/-- The pressing list of the edge (R50): re-queued work first, oldest first, then by launch tick, group and instance. -/
def pressingList (s : State) : List Nat :=
  let xs := (s.coll.insts.map (·.2)).filter fun x => x.phase == .committed && !fenceHeld s x && hasWork s x
  let byKey := sortByKey (fun x : Instance => x.commitTick) xs
  let re := fun (x : Instance) => (unitsOf s x).any fun u => decide (0 < u.requeue)
  ((byKey.filter re ++ byKey.filter fun x => !re x).map fun x => ikey x.group x.inst).take (fld s 0x00200004 1 5)

/-- Stage the units an instance needs that are not staged yet. -/
def stageInst (s : State) (us : List WorkUnit) (k : Nat) : List WorkUnit :=
  match mget s.coll.insts k with
  | none => us
  | some x =>
    match x.desc, instTable s x with
    | some d, some t =>
      x.chunks.foldl (fun us1 e =>
        ((List.range e.2.rows.length).foldl (fun us2 j =>
          match e.2.rows[j]? with
          | none => us2
          | some w =>
            if us2.any fun u => u.group == x.group && u.inst == x.inst && u.chunk == e.1 && u.row == j then us2
            else
              let parts := rowUnits x d t e.2 j w
              let fin := decide (parts.length = 1)
              (parts.mapIdx fun i p => (i, p)).foldl (fun us3 ip =>
                let n := ip.2.1.length
                let deep := deepDecode s t d
                let cost := unitCost x d e.2 n ip.2.2 deep fin w.full
                let gang := unitGang d (n + ip.2.2 + e.2.fars.length) cost (fin && decide (0 < deep * e.2.fars.length)) w.full
                placeUnit s us3
                  { group := x.group, inst := x.inst, chunk := e.1, row := j, part := ip.1, ranks := ip.2.1, accs := ip.2.2,
                    die := 0, cluster := 0, bytes := unitBytes d e.2 n ip.2.2 fin, gang := gang,
                    cost := perCore d gang cost, requeue := 0, stagedTick := 0, committed := false }) us2) us1)) us
    | _, _ => us

/-- Rows of chunks that arrived before their descriptor are laid out once it is known. -/
def layRows (x : Instance) : Instance :=
  match x.desc with
  | none => x
  | some d => { x with chunks := mmap x.chunks fun _ ch =>
      if ch.rows.isEmpty then { ch with rows := (Chunk.new ch.index (d.pressRows ch.index)).rows } else ch }

/-- Units on a die stopped by temperature are restaged on the dies that press; while none does they wait in their casks (R80). -/
def restageStopped (s : State) (us : List WorkUnit) : List WorkUnit :=
  let off := fun (u : WorkUnit) => (dieOf s u.die).overTemp
  (us.filter off).foldl (fun a u =>
    let b := placeUnit s a u
    if b.length = a.length then a ++ [u] else b) (us.filter fun u => !off u)

/-- Step 7 of the edge: build the pressing list and stage the work of its instances (R50, R49). -/
def buildList (s : State) : State :=
  let s0 := s.mapColl fun c => { c with insts := mmap c.insts fun _ x => layRows x }
  let l := pressingList s0
  s0.mapPress fun p => { p with listed := l, missed := [], units := l.foldl (stageInst s0) (restageStopped s0 p.units) }

/-! ### Pressing -/

/-- Which units a cluster's gangs take (R51): pressing-list order, re-queued first, chunk and row order; a gang takes units
until the next would exceed B, and always one (R52); a switch of operation costs 24 cycles (R53). Gangs are kept as
instance key, gang size and cycles; cores are the cluster's 256. -/
def planCluster (b : Nat) : List WorkUnit → List (Nat × Nat × Nat) → Nat → List WorkUnit
  | [], _, _ => []
  | u :: l, gangs, used =>
    let k := ikey u.group u.inst
    let fits := fun (g : Nat × Nat × Nat) => g.2.1 == u.gang && decide (g.2.2 + u.cost + (if g.1 = k then 0 else 24) ≤ b)
    match gangs.findIdx? fits with
    | some i =>
      u :: planCluster b l (gangs.mapIdx fun j g => if j = i then (k, g.2.1, g.2.2 + u.cost + (if g.1 = k then 0 else 24)) else g) used
    | none =>
      if used + u.gang ≤ 256 then u :: planCluster b l (gangs ++ [(k, u.gang, u.cost)]) (used + u.gang)
      else planCluster b l gangs used

/-- The order in which a cluster works (R51). -/
def unitLt (listed : List Nat) (a b : WorkUnit) : Bool :=
  let ia := listed.idxOf (ikey a.group a.inst)
  let ib := listed.idxOf (ikey b.group b.inst)
  if ia ≠ ib then decide (ia < ib)
  else if decide (0 < a.requeue) ≠ decide (0 < b.requeue) then decide (0 < a.requeue)
  else if a.chunk ≠ b.chunk then decide (a.chunk < b.chunk)
  else if a.row ≠ b.row then decide (a.row < b.row)
  else decide (a.part < b.part)

/-- The units this pressing takes: those of listed instances in clusters that run (R52). -/
def planned (s : State) : List WorkUnit :=
  let us := s.press.units.filter fun u =>
    s.press.listed.contains (ikey u.group u.inst) && diePressing s u.die && !s.press.missed.contains (u.die * 1024 + u.cluster)
  let cl := (us.map fun u => (u.die, u.cluster)).eraseDups
  (cl.map fun c =>
    planCluster (dieOf s c.1).budget (sortBy (unitLt s.press.listed) (us.filter fun u => u.die == c.1 && u.cluster == c.2)) [] 0).flatten

/-- Add counts. -/
def Stats.add (a b : Stats) : Stats :=
  let m := fun x y => min (2 ^ 32 - 1) (x + y)
  { rows := min (2 ^ 64 - 1) (a.rows + b.rows), escRows := min (2 ^ 64 - 1) (a.escRows + b.escRows)
    escRecords := min (2 ^ 64 - 1) (a.escRecords + b.escRecords), l2Records := m a.l2Records b.l2Records
    fwRows := m a.fwRows b.fwRows, fwPeak := max a.fwPeak b.fwPeak, overflow := m a.overflow b.overflow
    nanOut := m a.nanOut b.nanOut, sat := m a.sat b.sat, qsat := m a.qsat b.qsat, efReset := m a.efReset b.efReset
    applyNonfinite := m a.applyNonfinite b.applyNonfinite }

/-- What one committed row adds for its must row (R107). -/
def mustStats (r : Option Must) : Stats :=
  match r with
  | none => { Stats.zero with rows := 1 }
  | some m =>
    { Stats.zero with
      rows := 1
      escRows := if m.recordCount = 0 then 0 else 1
      escRecords := m.recordCount
      l2Records := (m.esc.filter escL2).length }

/-- An output of a chunk before any row of it. -/
def Prod.new (g : Target) (rows : Nat) : Prod :=
  { target := g, rows := List.replicate rows none, raw := [], count := 0, pressed := false, readyTick := 0, issued := false,
    fallow := false }

/-- Put a row into an output of a chunk. -/
def putRow (ch : Chunk) (g : Target) (j tick : Nat) (fallow : Bool) (o : RowOut) : Chunk :=
  let ps := if ch.prods.any fun p => p.target == g then ch.prods else ch.prods ++ [Prod.new g ch.rows.length]
  { ch with prods := ps.map fun p =>
      if p.target == g then
        let rows := p.rows.set j (some o)
        { p with rows := rows, pressed := rows.all (·.isSome), readyTick := tick + 1, fallow := p.fallow || fallow }
      else p }

/-- Finish row `j` of a chunk for every output that is ready (R90 to R126, R184, R185); a poisoned state word ends the instance
(R281). -/
def finishRow (s : State) (x : Instance) (d : Desc) (t : GroupTable) (k j : Nat) : State :=
  match mget x.chunks k with
  | none => s
  | some ch =>
    match ch.rows[j]? with
    | none => s
    | some w =>
      let fl := decide (x.excluded ≠ 0)
      let go := fun (a : State × Chunk × Stats) (g : Target) =>
        if (ch.prods.find? fun p => p.target == g).any fun p => (p.rows.getD j none).isSome then a
        else
          match g with
          | .result =>
            if stateLost s x d ch.index j (resultWords x d) then (askAbort x.group x.inst 4 0x0302 0 0 a.1, a.2) else
            let r := resultRow s x d t ch j w
            (r.writes.foldl (fun st e => regionWrite e.1 e.2.1 e.2.2 st) a.1, putRow a.2.1 g j s.tick fl r.out, a.2.2.add r.stats)
          | .toFar _ => (a.1, putRow a.2.1 g j s.tick false ⟨[], 0, none⟩, a.2.2)
      let r := (readyTargets x d t ch).foldl go (s, ch, Stats.zero)
      siloAfter x d t k r.2.1 (putInst { x with chunks := mset x.chunks k r.2.1, stats := x.stats.add r.2.2 } r.1)

/-- Make the ready outputs of a chunk that is not pressed row by row. -/
def finishChunk (s : State) (x : Instance) (d : Desc) (t : GroupTable) (k : Nat) : State :=
  match mget x.chunks k with
  | none => s
  | some ch =>
    if overRuns x d ch then askAbort x.group x.inst 1 0x0204 2 ch.index s
    else
      let go := fun (c : Chunk) (g : Target) =>
        let o := if g = .result then chunkResult x d ch else ([], 0)
        { c with prods := c.prods ++ [{ target := g, rows := [some ⟨[], 0, none⟩], raw := o.1, count := o.2, pressed := true,
                                        readyTick := s.tick + 1, issued := false,
                                        fallow := decide (x.excluded ≠ 0) && g == .result }] }
      let gs := readyTargets x d t ch
      let ch1 := gs.foldl go ch
      let st := if gs.contains .result then gatherStats x d t else Stats.zero
      siloAfter x d t k ch1
        (putInst { x with chunks := mset x.chunks k ch1, stats := (x.stats.add { Stats.zero with rows := 1 }).add st } s)

/-- Draw the DRAM cask a row needs before it may commit: for the local partial a group with far members holds, and for the
full-width form (R103, R106, R600). -/
def rowCask (x : Instance) (t : GroupTable) (ch : Chunk) (w : RowSt) (s : State) : Option Nat × Bool × State :=
  if w.full ∧ ¬ w.cask then
    let r := drawCask 1296 true s
    (r.1, r.1.isSome, r.2)
  else if ¬ ch.cask ∧ ¬ (farRanks t).isEmpty then
    let r := drawCask (104 * max 1 ch.rows.length) true s
    (r.1, r.1.isSome, r.2)
  else (none, true, s)

/-- Press one planned unit: its row commits unless it needs a cask that is not granted or exceeds the escape budget
(R45, R102, R103). A committed unit leaves the Press. -/
def commitUnit (s : State) (u : WorkUnit) : State :=
  match mget s.coll.insts (ikey u.group u.inst) with
  | none => s
  | some x =>
    match x.desc, instTable s x, mget x.chunks u.chunk with
    | some d, some t, some ch =>
      match ch.rows[u.row]? with
      | none => s
      | some w =>
        let ck := rowCask x t ch w s
        if stateLost s x d ch.index u.row (preWords x d) then askAbort x.group x.inst 4 0x0302 0 0 s else
        if ¬ ck.2.1 then putInst { x with waitingCask := true } ck.2.2
        else
          let casks := match ck.1 with
            | some c => c :: x.casks
            | none => x.casks
          let w0 := if w.full then { w with cask := true } else w
          let ch0 := { ch with cask := true }
          let p := if d.rowWise then pressLocal s x d t ch u.row w0 u.ranks u.accs
            else ({ w0 with todo := w0.todo.filter fun r => !u.ranks.contains r, folded := w0.folded + u.ranks.length }, [])
          let tooWide := !p.1.full && p.1.acc.any Must.overBudget
          if tooWide then
            let x1 := { x with
              casks := casks
              chunks := mset x.chunks u.chunk { ch0 with rows := ch0.rows.set u.row { w0 with full := true } }
              fwEvent := true
              stats := x.stats.add { Stats.zero with
                fwRows := 1
                fwPeak := sumNat (x.chunks.map fun e => (e.2.rows.filter (·.full)).length) + 1 } }
            let s1 := putInst x1 ck.2.2
            if x.fwEvent then s1 else raise 0x4208 [u.group, u.inst] s1
          else
            let s1 := p.2.foldl (fun st e => regionWrite e.1 e.2.1 e.2.2 st) ck.2.2
            let others := s1.press.units.any fun v =>
              v.group == u.group && v.inst == u.inst && v.chunk == u.chunk && v.row == u.row && v.part != u.part
            let rows := ch0.rows.set u.row p.1
            let rs := contributors t d x.pset
            let done := decide (p.1.folded = rs.length) || d.bySource
            let x1 := { x with
              casks := casks
              waitingCask := false
              chunks := mset x.chunks u.chunk { ch0 with rows := rows, localDone := rows.all RowSt.localPressed && done }
              stats := x.stats.add (mustStats p.1.acc.head?) }
            let s2 := (putInst x1 s1).mapPress fun q => { q with units := q.units.filter fun v => v != u }
            let s2 := match mget x1.chunks u.chunk with
              | some c1 => if c1.localDone && !ch.localDone && !rs.isEmpty then recordDigest x1 d t c1 s2 else s2
              | none => s2
            if others ∨ ¬ p.1.localPressed ∨ ¬ done then s2
            else if d.rowWise then finishRow s2 x1 d t u.chunk u.row
            else finishChunk s2 x1 d t u.chunk
    | _, _, _ => s.mapPress fun q => { q with units := q.units.filter fun v => v != u }

/-- The key of what a cluster did for an instance. -/
def workedKey (u : WorkUnit) : Nat := (u.die * 1024 + u.cluster) * 2 ^ 48 + ikey u.group u.inst

/-- Note that a cluster has committed a row (R507). -/
def noteWorked (u : WorkUnit) (s : State) : State :=
  s.mapPress fun p => { p with worked := mupdD p.worked (workedKey u) (s.tick, 0) fun w =>
    if w.1 = s.tick then (s.tick, w.2 + 1) else (s.tick, 1) }

/-- Press one unit and note the row its cluster has committed. -/
def pressUnit (s : State) (u : WorkUnit) : State :=
  let s1 := commitUnit s u
  if s1.press.units.contains u then s1 else noteWorked u s1

/-- Run the pressing: every planned unit in order (R43), but for those that a failed check holds back (R46, R81). -/
def runPressing (held : WorkUnit → Bool) (s : State) : State := ((planned s).filter fun u => !held u).foldl pressUnit s

/-- Re-queue the staged units that a test picks: the count of each is raised, and EV_PRESS_REQUEUE_LIMIT raised once when it
reaches STARVE_LIMIT (R47, R48). -/
def requeueWhere (hit : WorkUnit → Bool) (s : State) : State :=
  let lim := fld s 0x00200004 8 8
  let n := (s.press.units.filter hit).length
  let s1 := s.mapPress fun p => { p with units := p.units.map fun u => if hit u then { u with requeue := u.requeue + 1 } else u }
  let s2 := bumpBy 0x00200040 n s1
  (s.press.units.filter fun u => hit u && decide (u.requeue + 1 = lim) && decide (lim ≠ 0)).foldl
    (fun a u => raise 0x4201 [u.group, u.inst, u.row] a) s2

/-- The end of the window: each unit of a listed instance that has not committed is re-queued. -/
def requeueUnits (s : State) : State := requeueWhere (fun u => s.press.listed.contains (ikey u.group u.inst)) s

end Sys2Proof.Machine
end

