-- ==== Sys2Proof/Machine/Encode.lean ====
section
/-! DEFINITION. The encode stage: pressed outputs become RESULT packets and line partials, and instances that owe nothing more
send COMPLETION (R21, R27 to R29, R184, R207 to R209, R213, R214, R596). -/

namespace Sys2Proof.Machine

open Sys2Proof

/-! ### RESULT packets -/

/-- Whole rows, pairs or entries grouped into packets of at most 8,192 B, each but the last as full as it can be (R596). -/
def packetGroups : List (Nat × List Byte) → List (Nat × List Byte) → Nat → List (List (Nat × List Byte))
  | [], cur, _ => [cur.reverse]
  | u :: l, cur, n =>
    if n + u.2.length ≤ 8192 ∨ cur.isEmpty then packetGroups l (u :: cur) (n + u.2.length)
    else cur.reverse :: packetGroups l [u] u.2.length

/-- A coded RESULT payload: units, payload, blend named, blocks coded and raw. -/
structure PktBody where
  count : Nat
  bytes : List Byte
  blend : Nat
  raw : List Byte
  coded : Nat
  rawBlocks : Nat

/-- Code one packet of a result under the descriptor's CODING and the current H-OUT blend (R213, R214, R233). -/
def codePacket (s : State) (d : Desc) (f : Form) (us : List (Nat × List Byte)) : PktBody :=
  let raw := (us.map (·.2)).flatten
  let n := sumNat (us.map (·.1))
  if d.coding = 0 then ⟨n, raw, 0, raw, 0, 0⟩
  else
    let b := f.cls.bind fun c => (bslot s 1 c).current
    let e := encodePayload f false b n raw
    ⟨n, e.1, if e.2.1 = 0 then 0 else (b.map (·.id)).getD 0, raw, e.2.1, if b.isSome then e.2.2 else 0⟩

/-- The packets of one result chunk for one member; LAST is set on the final one (R292, R293, R596). -/
def resultPkts (x : Instance) (d : Desc) (t : GroupTable) (chunk rank srcSite dtype : Nat) (fallow : Bool)
    (ps : List PktBody) (r : Nat × Member) : List HostPkt :=
  let base := (if t.isSealed then 0x08 else 0) + (if d.coding = 0 then 0x10 else 0) + (if fallow then 0x20 else 0)
  ps.mapIdx fun i p =>
    { ty := 2, flags := base + (if i + 1 = ps.length then 0x02 else 0), blendId := p.blend, group := x.group,
      epoch := x.epoch, inst := x.inst, chunk := chunk, rank := rank, dtype := dtype, count := p.count, srcSite := srcSite,
      stream := r.2.stream, hash := x.refHash.getD 0, payload := p.bytes, dest := r.1, casks := [] }

/-- Draw a cask for each packet of Depart output, or none at all where one is refused: the class that refuses (R251, R256). -/
def drawPkts : List HostPkt → State → Except Nat (List HostPkt × State)
  | [], s => .ok ([], s)
  | p :: l, s =>
    match drawCask p.payload.length false s with
    | (none, _) => .error ((caskClass p.payload.length).getD 7)
    | (some c, s1) => match drawPkts l s1 with
      | .error k => .error k
      | .ok (ps, s2) => .ok ({ p with casks := [c] } :: ps, s2)

/-- Count coded and raw blocks, and the symbols of H-OUT (R243, R248). -/
def countCoded (f : Form) (p : PktBody) (s : State) : State :=
  let s1 := bumpBy 0x00140040 p.coded (bumpBy 0x00140044 p.rawBlocks s)
  countSymbols 1 f p.count p.raw s1

/-- The form and units of a row-wise or chunk-wise result. -/
def resultUnits (x : Instance) (d : Desc) (ch : Chunk) (p : Prod) : Form × List (Nat × List Byte) :=
  match d.op with
  | .topK =>
    if modeReduce d.mode then
      let codes := (p.rows.map fun r => (r.map (·.codes)).getD []).flatten
      let es := bestReduced d x.pset.k ch.index codes
      (.entries d.inType, es.map fun e => (1, e.toBytes d.inType))
    else (.entries d.inType, cutUnits (.entries d.inType) (p.count + 1) p.count p.raw)
  | .setMerge => (.pairs d.outType, cutUnits (.pairs d.outType) (p.count + 1) p.count p.raw)
  | .broadcast => (.dense d.inType, cutUnits (.dense d.inType) (p.count + 1) p.count p.raw)
  | _ =>
    (.dense d.outType, p.rows.mapIdx fun j r =>
      let o := r.getD ⟨[], 0, none⟩
      let n := d.rowLen ch.index j
      (n, if isMxType d.outType then mxRowBytes d.outType o.scale (o.codes.take n) else scalarRowBytes d.outType (o.codes.take n)))

/-- The rows of a SCATTER chunk or a GATHER result that one member receives (R149, R150). -/
def memberUnits (x : Instance) (d : Desc) (t : GroupTable) (ch : Chunk) (p : Prod) (rank : Nat) : List (Nat × List Byte) :=
  let l := x.idx.getD ⟨[], []⟩
  match d.op with
  | .scatter =>
    let us := cutUnits (.dense d.inType) (p.count + 1) p.count p.raw
    let base := ch.index * (d.chunkSize / 32)
    ((us.mapIdx fun j u => (j, u)).filter fun ju => (destRows l rank).any fun r => r.1 == base + ju.1).map (·.2)
  | _ => (destRows l rank).map fun r => (32, gatherRow x d t l r.2)

/-- The packets of a chunk's result for every local member that receives it, and what was coded (R27, R137, R150, R184). -/
def resultOut (s : State) (x : Instance) (d : Desc) (t : GroupTable) (k : Nat) (ch : Chunk) (p : Prod) :
    List HostPkt × List (Form × PktBody) :=
  let dests := (localRanks t).filter fun r => receives d x.pset t.members.length ch.index r.1
  let dtype := if d.op = .broadcast ∨ d.op = .scatter ∨ d.op = .gather then d.inType else d.outType
  if d.op = .scatter ∨ d.op = .gather then
    let per := dests.filterMap fun r =>
      let us := memberUnits x d t ch p r.1
      if us.isEmpty then none
      else
        let ps := (packetGroups us [] 0).map (codePacket s d (.dense dtype))
        some (resultPkts x d t ch.index r.1 0 dtype p.fallow ps r, ps.map fun q => (Form.dense dtype, q))
    ((per.map (·.1)).flatten, (per.map (·.2)).flatten)
  else
    let fu := resultUnits x d ch p
    let ps := (packetGroups fu.2 [] 0).map (codePacket s d fu.1)
    let all := decide (d.op = .broadcast ∧ x.pset.root = 0xFFFF)
    let src := k / 2 ^ 32
    ((dests.map fun r =>
      resultPkts x d t ch.index (if all then src % 4096 else r.1) (if all then src / 4096 else 0) dtype p.fallow ps r).flatten,
      ps.map fun q => (fu.1, q))

/-- Issue the result of a chunk; where a cask is refused it stays in the Press, and the refusal is counted (R57, R256). -/
def issueResult (x : Instance) (d : Desc) (t : GroupTable) (k : Nat) (ch : Chunk) (p : Prod) (s : State) : Bool × State :=
  let o := resultOut s x d t k ch p
  match drawPkts o.1 s with
  | .error c => (false, bump (0x0018010C + 0x10 * c) s)
  | .ok (ps, s1) =>
    let used := o.2.filterMap fun q => if q.2.blend = 0 then none else q.1.cls.map fun c => c * 256 + q.2.blend
    let s2 := updInst x.group x.inst (fun y => { y with blends := used.foldl (fun l b => insertRising b l) y.blends }) s1
    let s3 := if d.coding = 0 then s2 else o.2.foldl (fun b q => countCoded q.1 q.2 b) s2
    (true, ps.foldl (fun a q => sendHost q a) s3)

/-! ### Partials -/

/-- The bytes and form of a partial on the line (R28, R111, R145 to R150). -/
def partialBody (d : Desc) (p : FarPart) : Form × List Byte × Nat × Bool :=
  if d.rowWise ∧ d.isCmp then (.dense d.inType, p.raw, p.count, false)
  else if d.rowWise then
    let rows := if d.isRank then (p.siteRows.map (·.2)).flatten else p.rows
    (.must (isW40 d.inType), (rows.map (Must.toBytes true)).flatten, rows.length, true)
  else
    match d.op with
    | .setMerge => if modeVcomb d.mode = 0 ∧ d.inType ≠ 9 then (.opaqueBytes, p.raw, p.raw.length, false)
                   else (.pairs d.inType, p.raw, p.count, false)
    | .topK => (.entries d.inType, p.raw, p.count, false)
    | .gather => (.opaqueBytes, p.raw, p.raw.length, false)
    | _ => (.dense d.inType, p.raw, p.count, false)

/-- Queue the partial a chunk owes a far member (R184). -/
def issuePartial (x : Instance) (d : Desc) (t : GroupTable) (k : Nat) (ch : Chunk) (f : Nat × Member) (s : State) : State :=
  let p := chunkPartial x d t (ch.forFar f)
  let b := partialBody d p
  sendLine
    { port := f.2.endpoint, group := x.group, epoch := x.epoch, inst := x.inst, chunk := ch.index, hash := x.refHash.getD 0,
      form := b.1, coding := d.coding, isSealed := t.isSealed, count := b.2.2.1, raw := b.2.1, sites := p.sites,
      members := p.members, must := b.2.2.2,
      tag := if d.bySource then some (k / 2 ^ 32 / 4096 * 2 ^ 16 + k / 2 ^ 32 % 4096) else none } s

/-! ### What an instance still owes -/

/-- Chunks an instance handles at this gateway: for an operation by source, those of every source. -/
def expectedChunks (x : Instance) (d : Desc) (t : GroupTable) : Nat :=
  if d.bySource then d.chunks * (if d.op = .broadcast ∧ x.pset.root = 0xFFFF then totalMembers t else 1) else d.chunks

/-- Does a chunk come from a far member's side, so that nothing of it goes back there? -/
def fromFar (ch : Chunk) (f : Nat × Member) : Bool := ch.locals.isEmpty && ch.fars.any fun k => k.rank == f.1

/-- The outputs a chunk owes in all (R184, R185). -/
def owedTargets (x : Instance) (d : Desc) (t : GroupTable) (ch : Chunk) : List Target :=
  let res := if localReceives d x.pset t ch.index ∧ (d.op ≠ .gather ∨ ch.index = 0) then [Target.result] else []
  res ++ ((farRanks t).filter fun f =>
    farReceives d x.pset t ch.index f && decide (maskMinus f.2.coveredSites x.excluded ≠ 0) &&
      !(d.bySource && fromFar ch f)).map fun f => .toFar f.1

/-- Is a chunk's output issued? -/
def Chunk.issuedTo (ch : Chunk) (g : Target) : Bool := ch.prods.any fun p => p.target == g && p.issued

/-- Is everything the instance owes issued, results and partials? -/
def dutiesIssued (x : Instance) (d : Desc) (t : GroupTable) : Bool :=
  if d.op = .barrier then covers (x.noticeSites ||| siteBit t.localSite) t.sites
  else x.chunks.length == expectedChunks x d t && x.chunks.all fun e => (owedTargets x d t e.2).all e.2.issuedTo

/-- Is every result of the instance issued? -/
def resultsIssued (x : Instance) (d : Desc) (t : GroupTable) : Bool :=
  if d.op = .barrier then covers (x.noticeSites ||| siteBit t.localSite) t.sites
  else x.chunks.length == expectedChunks x d t &&
    x.chunks.all fun e => ((owedTargets x d t e.2).filter (· == .result)).all e.2.issuedTo

/-- The chunks a rank receives under DELIVER = 1: the first and the first beyond (R137). -/
def partitionRange (d : Desc) (n rank : Nat) : Nat × Nat := (ceilDiv (rank * d.chunks) n, ceilDiv ((rank + 1) * d.chunks) n)

/-- Does a member receive any chunk of the instance (R208)? -/
def receivesAny (x : Instance) (d : Desc) (t : GroupTable) (rank : Nat) : Bool :=
  match d.op with
  | .barrier => false
  | .scatter | .gather => !(destRows (x.idx.getD ⟨[], []⟩) rank).isEmpty
  | .broadcast => true
  | _ =>
    if d.op.usesDeliver ∧ modeDeliver d.mode = 1 then
      let c := partitionRange d t.members.length rank
      decide (c.1 < c.2)
    else receives d x.pset t.members.length 0 rank

/-- Is every result that a member receives issued (R29)? -/
def memberIssued (x : Instance) (d : Desc) (t : GroupTable) (rank : Nat) : Bool :=
  let made := fun (c : Nat) => x.chunks.any fun e => e.2.index == c && e.2.issuedTo .result
  if d.op = .scatter then (destRows (x.idx.getD ⟨[], []⟩) rank).all fun r => made (r.1 / (d.chunkSize / 32))
  else if d.op.usesDeliver ∧ modeDeliver d.mode = 1 then
    let c := partitionRange d t.members.length rank
    (x.chunks.filter fun e => decide (c.1 ≤ e.2.index) && decide (e.2.index < c.2) && e.2.issuedTo .result).length == c.2 - c.1
  else resultsIssued x d t

/-- The payload of a COMPLETION or ABORT (R207). -/
def endPayload (inst status flags chunks origin dk d : Nat) : List Byte := abortPayload inst status flags chunks origin dk d

/-- A COMPLETION or ABORT of an instance for one member (R207, R292, R293). -/
def endPkt (x : Instance) (t : GroupTable) (ty : Nat) (r : Nat × Member) (payload : List Byte) : HostPkt :=
  { ty := ty
    flags := 0x40 + (if ty = 3 then (if t.isSealed then 0x08 else 0) + (if bitOf (byteAt payload 7) 0 then 0x20 else 0) else 0)
    blendId := 0, group := x.group, epoch := x.epoch, inst := x.inst, chunk := 0, rank := r.1, dtype := 0, count := 0,
    srcSite := 0, stream := r.2.stream, hash := x.refHash.getD 0, payload := payload, dest := r.1, casks := [] }

/-- A COMPLETION or ABORT waits until the scheduler has selected every RESULT of the instance for the member (R429). -/
def sendDone (p : HostPkt) (s : State) : State := s.mapHost fun h => { h with doneWait := h.doneWait ++ [p] }

/-- Chunks delivered to a rank so far. -/
def deliveredTo (s : State) (g i rank : Nat) : Nat := ((instOf s g i).map fun x => mgetD x.delivered rank 0).getD 0

/-- COMPLETION and ABORT packets whose results have all been selected enter Q2 (R429); a COMPLETION states the chunks
delivered. -/
def releaseDone (s : State) : State :=
  let ready := s.host.doneWait.filter fun p => !queuedHost s p.group p.inst (some p.stream) true
  let s1 := s.mapHost fun h => { h with doneWait := h.doneWait.filter fun p => !ready.contains p }
  ready.foldl (fun a p =>
    let q := if p.ty = 3 ∧ (instOf a p.group p.inst).isSome then
        { p with payload := overwrite p.payload 8 (beBytes 4 (deliveredTo a p.group p.inst p.dest)) } else p
    enqueue 0 2 (.host q) a) s1

/-- The flags word of an instance's COMPLETION (R207, R483, R486, R488). -/
def doneFlags (x : Instance) : Nat := b2n (x.fallowDone || x.runsOn) + 2 * b2n (x.catchup || x.runsOn)

/-- Queue the COMPLETIONs that have fallen due (R29, R208). -/
def completeMembers (x : Instance) (d : Desc) (t : GroupTable) (s : State) : State :=
  let due := fun (a : State) (rank : Nat) =>
    if receivesAny x d t rank then memberIssued x d t rank
    else resultsIssued x d t && dutiesIssued x d t && !queuedHost a x.group x.inst none true && !queuedLine a x.group x.inst
  (localRanks t).foldl (fun a r =>
    if x.completed.contains r.1 ∨ ¬ due a r.1 then a
    else
      sendDone (endPkt x t 3 r (endPayload x.inst 0 (doneFlags x) 0 0xFFFF 0 0))
        (updInst x.group x.inst (fun y => { y with completed := insertRising r.1 y.completed }) a)) s

/-- Mark an output issued. -/
def Chunk.setIssued (ch : Chunk) (g : Target) : Chunk :=
  { ch with prods := ch.prods.map fun p => if p.target == g then { p with issued := true } else p }

/-- Issue what one instance has pressed, then its COMPLETIONs. -/
def issueInst (s : State) (k : Nat) : State :=
  match mget s.coll.insts k with
  | none => s
  | some x =>
    match x.desc, instTable s x with
    | some d, some t =>
      if x.phase ≠ .committed then s
      else
        let s1 := x.chunks.foldl (fun a e =>
          (e.2.prods.filter fun p => p.pressed && !p.issued && decide (p.readyTick ≤ s.tick)).foldl (fun b p =>
            let mark := updInst x.group x.inst (fun y => { y with
              chunks := mupd y.chunks e.1 fun c => c.setIssued p.target
              fallowDone := y.fallowDone || p.fallow })
            match p.target with
            | .result =>
              let r := issueResult x d t e.1 e.2 p b
              if r.1 then mark r.2 else r.2
            | .toFar f => match t.members[f]? with
              | some m => issuePartial x d t e.1 e.2 (f, m) (mark b)
              | none => mark b) a) s
        match mget s1.coll.insts k with
        | some y => if fenceHeld s1 y then s1 else completeMembers y d t s1
        | none => s1
    | _, _ => s

/-- The encode stage of a tick (R21). -/
def encodeStage (s : State) : State := releaseDone ((s.coll.insts.map (·.1)).foldl issueInst s)

end Sys2Proof.Machine
end

