-- ==== Sys2Proof/Machine/CollEdge.lean ====
section
/-! DEFINITION. Steps 3 to 6 of the tick-edge order: aborts and their finalisation, launch commits, fences, timeouts; and the
end of instances (R141, R163, R168 to R177, R196 to R209). -/

namespace Sys2Proof.Machine

open Sys2Proof

/-! ### Aborts -/

/-- Take an instance's RESULT packets and partials out of the queues (R201). -/
def dropQueued (g i : Nat) (s : State) : State :=
  let keep := fun (it : Nat × EItem) => match it.2 with
    | .host p => !(p.ty == 2 && p.group == g && p.inst == i)
    | .line p => !(p.group == g && p.inst == i)
    | _ => true
  let q := fun (c : Sched) => { c with queues := c.queues.map fun e => { e with items := e.items.filter keep } }
  let gone := (s.qos.toList.map fun c => (c.queues.toList.map fun e => (e.items.map fun it => match it.2 with
    | .host p => if keep it then [] else p.casks
    | _ => []).flatten).flatten).flatten
  freeCasks gone (s.mapQos fun v => v.map q)

/-- Casks that hold an instance's staged contributions. -/
def contribCasks (x : Instance) : List Nat := (x.chunks.map fun e => (e.2.locals.map (·.casks)).flatten ++ (e.2.fars.map (·.casks)).flatten).flatten

/-- Enter ABORTING (R201, R202): the staged data are discarded, nothing more is sent for the instance, and one notice goes to
every far member. An error in an instance that is already ABORTING is ignored. -/
def enterAborting (g i code dk d : Nat) (notify : Bool) (s : State) : State :=
  match instOf s g i with
  | none => s
  | some x =>
    if x.phase = .aborting then s
    else
      let s1 := freeCasks (contribCasks x) (dropQueued g i s)
      let s2 := s1.mapPress fun p => { p with units := p.units.filter fun u => !(u.group == g && u.inst == i) }
      let s3 := updInst g i (fun y => { y with
        phase := .aborting, ownCode := code, detailKind := dk, detail := d, chunks := [] }) s2
      match instTable s x with
      | some t => if notify then toFars t none ctlAbort [g, i, code, t.localSite] s3 else s3
      | none => s3

/-- Apply the aborts that wait, by class and then by the lower code (R198 step 3, R199). -/
def applyAborts (s : State) : State :=
  let lt := fun (a b : AbortReq) => decide (a.cls < b.cls) || (a.cls == b.cls && decide (a.code < b.code))
  let l := sortBy lt s.coll.aborts
  l.foldl (fun a r => enterAborting r.group r.inst r.code r.detailKind r.detail true a) (s.mapColl fun c => { c with aborts := [] })

/-- Sites whose abort notices an ABORTING instance still awaits: every present site of SITES but its own (R203, R205,
R483). -/
def awaitedSites (s : State) (x : Instance) (t : GroupTable) : Nat :=
  let must := maskMinus (maskMinus (maskMinus t.sites (siteBit t.localSite)) (absentMask s x.group)) x.excluded
  maskMinus must (x.notices.foldl (fun m n => m ||| siteBit n.1) 0)

/-- The final code of an abort and its origin: the lowest code among its own and the notices', the lower site on a tie
(R203). -/
def finalCode (x : Instance) (t : GroupTable) : Nat × Nat :=
  x.notices.foldl (fun (b : Nat × Nat) n =>
    if n.2 < b.1 ∨ (n.2 = b.1 ∧ n.1 < b.2) then (n.2, n.1) else b) (x.ownCode, t.localSite)

/-- Keep a record of an ended instance: the newest 4,096 (R130). -/
def keepEnded (e : EndedRec) (s : State) : State := s.mapColl fun c => { c with ended := (e :: c.ended).take 4096 }

/-- Remove an instance and give back its casks and slot. -/
def removeInst (g i : Nat) (s : State) : State :=
  match instOf s g i with
  | none => s
  | some x =>
    (freeCasks (contribCasks x ++ x.casks) s).mapColl fun c => { c with insts := mdel c.insts (ikey g i) }

/-- Release the Silo record of an instance, or mark it ended (R484, R486, R598). -/
def closeSilo (x : Instance) (code : Nat) (s : State) : State :=
  if x.catchup ∨ x.runsOn then s.mapSites fun y => { y with silo := y.silo.filter fun r => !(r.group == x.group && r.inst == x.inst) }
  else updSilo x.group x.inst (fun r => { r with ended := true, code := code, ranks := x.fallowRanks, delivered := x.delivered }) s

/-- Finalise one ABORTING instance (R204): ABORT to every local member, or in place of it a COMPLETION with CATCHUP set to
those that hold FALLOW results (R487, R488, R598); the instance ends and EV_OP_ABORTED is raised. -/
def finaliseOne (x : Instance) (t : GroupTable) (code origin : Nat) (s : State) : State :=
  let own := decide (code = x.ownCode ∧ origin = t.localSite)
  let dk := if own then x.detailKind else 0
  let dd := if own then x.detail else 0
  let pkt := fun (r : Nat × Member) =>
    let n := mgetD x.delivered r.1 0
    if x.runsOn ∨ (x.catchup ∧ x.fallowRanks.contains r.1) then
      endPkt x t 3 r (endPayload x.inst code (doneFlags x) n origin dk dd)
    else endPkt x t 6 r (endPayload x.inst code (b2n x.fallowDone) n origin dk dd)
  let s1 := ((localRanks t).filter fun r => !x.completed.contains r.1).foldl (fun a r => sendDone (pkt r) a) s
  let s2 := keepEnded
    { group := x.group, inst := x.inst, code := code, origin := origin, fallow := x.fallowDone, catchup := x.catchup,
      chunks := sumNat (x.delivered.map (·.2)), detailKind := dk, detail := dd, stats := x.stats } s1
  raise 0x4501 [x.group, x.inst, code] (removeInst x.group x.inst (closeSilo x code s2))

/-- Finalise every ABORTING instance whose awaited notices are all counted (R203). -/
def finaliseAborts (s : State) : State :=
  s.coll.insts.foldl (fun a e =>
    match mget a.coll.insts e.1 with
    | none => a
    | some x =>
      if x.phase ≠ .aborting then a
      else
        match instTable a x with
        | none => removeInst x.group x.inst a
        | some t =>
          if awaitedSites a x t ≠ 0 then a
          else let f := finalCode x t; finaliseOne x t f.1 f.2 a) s

/-- The abort of one instance in a fatal stop, or at a warm start: DEVICE_FAULT to every far and local member, without awaiting
other sites (R424, R518, R578). -/
def fatalAbort (x : Instance) (s : State) : State :=
  match instTable s x with
  | none => removeInst x.group x.inst s
  | some t => finaliseOne x t 0x0403 t.localSite (enterAborting x.group x.inst 0x0403 0 0 true s)

/-! ### The parameter check (R138 to R141) -/

/-- The current image of a program, as a gateway at contract level 1 resolves it (R165, R494). -/
def programOf (s : State) (id : Nat) : Option Image :=
  ((mget s.coll.programs id).bind (·.current)).bind fun p => if p.level ≤ 1 then some p else none

/-- Does the operation name a program in its parameter set? -/
def namesProgram (d : Desc) (p : PSet) : Bool :=
  match d.op with
  | .eprog => true
  | .setMerge => p.programId != 0
  | _ => modePre d.mode

/-- Does the operation use an index list? -/
def usesIndex (d : Desc) : Bool := d.op == .gather || d.op == .scatter

/-- Faults of the named program: not resident, another digest, or another output type (R141). -/
def programFaults (s : State) (d : Desc) (p : PSet) : List Nat :=
  if ¬ namesProgram d p then []
  else
    match (if p.programId = 0 then none else programOf s p.programId) with
    | none => [0x0104]
    | some img =>
      (if img.digest % 2 ^ 32 ≠ p.programDigest then [0x0104] else []) ++
      (if d.op = .eprog ∧ img.outType ≠ d.outType then [0x0104] else []) ++
      (if d.op ≠ .eprog ∧ d.op ≠ .setMerge ∧ img.outType ≠ d.inType then [0x0104] else []) ++
      (if (d.op = .setMerge ∧ img.kind ≠ 2) ∨ (d.op ≠ .setMerge ∧ img.kind ≠ 1) then [0x0104] else []) ++
      (if 0 < img.stateWords ∧ regionSize s p.stateRegion < 4 * img.stateWords * d.elements then [0x0105] else [])

/-- Faults of regions (R121, R123, R141). -/
def regionFaults (s : State) (d : Desc) (p : PSet) : List Nat :=
  (if d.op = .quantise ∧ modeEf d.mode ∧ regionSize s p.stateRegion < 4 * d.elements then [0x0105] else []) ++
  (if d.op = .apply ∧ regionSize s p.stateRegion < (if modeAdam d.mode then 12 else 8) * d.elements then [0x0105] else [])

/-- Faults of the index list: too small a region, or another digest (R141, R148). -/
def indexFaults (s : State) (d : Desc) (p : PSet) : List Nat :=
  if ¬ usesIndex d then []
  else
    let size := regionSize s p.indexRegion
    if size < 8 then [0x0105]
    else
      let n := idxListLen (regionRead s p.indexRegion 0 8)
      if size < n then [0x0105]
      else if leNat (shake256 (regionRead s p.indexRegion 0 n) 8) % 2 ^ 32 ≠ p.indexDigest then [0x0104] else []

/-- Faults of ROOT and K (R140, R141). -/
def rangeFaults (t : GroupTable) (d : Desc) (p : PSet) : List Nat :=
  (if d.op = .topK ∧ (p.k = 0 ∨ 65536 < p.k) then [0x0104] else []) ++
  (if (d.op = .scatter ∨ (d.op.usesDeliver ∧ modeDeliver d.mode = 2)) ∧ t.members.length ≤ p.root then [0x0104] else []) ++
  (if d.op = .broadcast ∧ p.root ≠ 0xFFFF ∧ t.members.length ≤ p.root then [0x0104] else [])

/-- The parameter set an operation selects (R138). -/
def readPSet (s : State) (t : GroupTable) (d : Desc) : PSet :=
  PSet.ofBytes (regionRead s t.constRegion (64 * modePset d.mode) 64)

/-- Rows of a chunk under a program's MAX_CHUNK (R163). -/
def overMaxChunk (d : Desc) (img : Option Image) : Bool :=
  d.op != .setMerge && img.any fun p => decide (p.maxChunk < ceilDiv d.chunkSize 32)

/-- Does an index list break R149, or a SCATTER's list differ from the root's row count (R150)? -/
def indexBroken (t : GroupTable) (d : Desc) (l : IdxList) : Bool :=
  if d.op = .gather then !l.ok (modeAgg d.mode) (totalMembers t * (d.elements / 32))
  else !l.ok false (ceilDiv d.elements 32) || l.rows.length != ceilDiv d.elements 32

/-- Does the launch read a poisoned word of a region (R281)? -/
def readsPoison (s : State) (t : GroupTable) (d : Desc) (p : PSet) : Bool :=
  (readsPSet d.op d.mode && regionPoisoned s t.constRegion (64 * modePset d.mode) 64) ||
    (usesIndex d && regionPoisoned s p.indexRegion 0 (idxListLen (regionRead s p.indexRegion 0 8)))

/-- What the launch commit finds: the error code, or the parameter set, image and index list it resolves (R141, R149,
R163). -/
def resolveLaunch (s : State) (t : GroupTable) (d : Desc) : Except Nat (PSet × Option Image × Option IdxList) :=
  if ¬ readsPSet d.op d.mode ∨ (d.op = .setMerge ∧ t.constRegion = 0) then .ok (PSet.none, none, none)
  else if regionSize s t.constRegion < 64 * (modePset d.mode + 1) then .error 0x0105
  else
    let p := readPSet s t d
    if readsPoison s t d p then .error 0x0302
    else
      let faults := programFaults s d p ++ regionFaults s d p ++ indexFaults s d p ++ rangeFaults t d p
      match faults with
      | c :: l => .error (l.foldl min c)
      | [] =>
        let img := if namesProgram d p then programOf s p.programId else none
        let idx := if usesIndex d then some (IdxList.ofBytes (regionRead s p.indexRegion 0 (regionSize s p.indexRegion))) else none
        if overMaxChunk d img then .error 0x0204
        else if idx.any (indexBroken t d) then .error 0x0203
        else .ok (p, img, idx)

/-! ### Launch commit (R196) -/

/-- The serial order of instances among those ready at one edge: by opening edge, group, then serial order. -/
def readyLt (a b : Instance) : Bool :=
  if a.openTick ≠ b.openTick then decide (a.openTick < b.openTick)
  else if a.group ≠ b.group then decide (a.group < b.group)
  else earlier a.inst b.inst

/-- May the launch of an instance commit (R176, R196 condition 1): it is OPEN, every local member's launch is counted, and its
epoch is not a standby one? -/
def launchReady (s : State) (x : Instance) : Bool :=
  x.phase == .opened && !x.abortSlot && x.desc.isSome &&
    match mget s.coll.groups x.group with
    | none => false
    | some r =>
      match versionOf r x.epoch with
      | some (v, t) => v != 1 && (localRanks t).all fun m => x.launches.any fun l => l.rank == m.1
      | none => false

/-- The APPLY step of a group (R125): count and the two products. -/
def stepApply (d : Desc) (p : PSet) (r : GroupRec) : GroupRec :=
  if d.op = .apply then
    { r with
      applyT := (r.applyT + 1) % 2 ^ 32
      applyP1 := toF32 (fMul (ofF32 r.applyP1) (ofF32 (p.consts.getD 2 0)))
      applyP2 := toF32 (fMul (ofF32 r.applyP2) (ofF32 (p.consts.getD 3 0))) }
  else r

/-- LAST_COMMITTED: the serially latest instance whose launch has committed (R180). -/
def noteCommitted (i : Nat) (r : GroupRec) : GroupRec :=
  if ¬ r.everCommitted ∨ earlier r.lastCommitted i then { r with lastCommitted := i, everCommitted := true } else r

/-- Commit the launch of one instance, or abort it where R171 or R141 says so (R196, R197, R169). -/
def commitLaunch (s : State) (x : Instance) : State :=
  match x.desc, instTable s x, mget s.coll.groups x.group with
  | some d, some t, some r =>
    if behindFence s x.group x.inst then enterAborting x.group x.inst 0x0108 0 0 true s
    else
      match resolveLaunch s t d with
      | .error c => enterAborting x.group x.inst c 0 0 true s
      | .ok (p, img, idx) =>
        -- data of a member that is no source of the operation are not used (R150)
        let stray := x.chunks.filter fun e => d.bySource && !e.2.locals.isEmpty &&
          e.2.locals.all fun c => !(contributors t d p).contains c.rank
        let r1 := noteCommitted x.inst (stepApply d p r)
        let fence := x.refFence.getD false
        let s1 := s.mapColl fun c => { c with
          groups := mset c.groups x.group r1
          nextOrder := c.nextOrder + 1
          committedNow := c.committedNow + 1
          fences := if fence then
              c.fences ++ [{ group := x.group, inst := x.inst, all := modeFenceAll d.mode, order := c.nextOrder, sent := false,
                             clears := x.clears, fars := (farRanks t).map fun f => f.2.endpoint }]
            else c.fences }
        let s2 := putInst { x with
          chunks := x.chunks.filter fun e => !stray.any fun y => y.1 == e.1
          phase := .committed, commitTick := s.tick, table := some t, pset := p, image := img, idx := idx, held := false
          applyT := r1.applyT, applyP1 := r1.applyP1, applyP2 := r1.applyP2, order := s.coll.nextOrder } s1
        toFars t none ctlLaunch [x.group, x.epoch, x.inst, x.refHash.getD 0, b2n fence, siteBit t.localSite]
          (freeCasks (stray.map fun e => (e.2.locals.map (·.casks)).flatten).flatten s2)
  | _, _, _ => s

/-- Step 4 of the edge: commit up to 16 launches (R196). -/
def commitLaunches (s : State) : State :=
  let l := sortBy readyLt ((s.coll.insts.map (·.2)).filter (launchReady s))
  l.foldl (fun a x => if 16 ≤ a.coll.committedNow then a else commitLaunch a x) s

/-! ### Fences (R169 to R172) -/

/-- Has an instance sent all its COMPLETIONs here, or entered ABORTING? -/
def sentAll (s : State) (x : Instance) : Bool :=
  x.phase == .aborting ||
    (match instTable s x with
     | some t => (localRanks t).all fun r => x.completed.contains r.1
     | none => false) &&
    !(s.host.doneWait.any fun p => p.group == x.group && p.inst == x.inst) && !queuedHost s x.group x.inst none false

/-- Is an instance known to this gateway: announced by a local member or a notice (R169)? -/
def knownInst (x : Instance) : Bool := !x.launches.isEmpty || decide (x.noticeSites ≠ 0)

/-- Is every instance a fence waits for done here (R169 step 3, R172)? -/
def fenceStep3 (s : State) (f : FenceRec) : Bool :=
  s.coll.insts.all fun e =>
    let x := e.2
    let before := if f.all then x.phase != .opened && decide (x.order < f.order)
      else x.group == f.group && earlier x.inst f.inst && knownInst x
    !before || sentAll s x

/-- Step 5 of the edge: send fence-clears and release fences (R169). -/
def evalFences (s : State) : State :=
  s.coll.fences.foldl (fun a f =>
    if ¬ fenceStep3 a f then a
    else
      let a1 := if f.sent then a
        else f.fars.foldl (fun b p => sendCtl p ctlFence [f.group, f.inst] [] b) a
      if f.fars.all f.clears.contains then
        a1.mapColl fun c => { c with fences := c.fences.filter fun h => !(h.group == f.group && h.inst == f.inst) }
      else
        a1.mapColl fun c => { c with fences := c.fences.map fun h =>
          if h.group == f.group && h.inst == f.inst then { h with sent := true } else h }) s

/-! ### Timeouts (R200) -/

/-- Are all the contributions an instance needs here counted (R200)? -/
def arrivalComplete (s : State) (x : Instance) : Bool :=
  match x.desc, instTable s x with
  | some d, some t =>
    ((localRanks t).all fun r => x.launches.any fun l => l.rank == r.1) &&
      (if d.op = .barrier then covers (x.noticeSites ||| siteBit t.localSite) t.sites
       else
        x.chunks.length == expectedChunks x d t && x.chunks.all fun e =>
          if d.bySource then (e.2.locals.any (·.done)) || !e.2.fars.isEmpty
          else
            (chunkLocalFull (contributors t d x.pset) e.2 || e.2.fars.any (·.isRestored)) &&
              (!localReceives d x.pset t e.2.index ||
                covers (chunkSites t (contributors t d x.pset) e.2) (neededSites x t)))
  | _, _ => false

/-- Is an instance waiting: held by a fence, or with a row that no cask could be granted for (R200)? -/
def waitingInst (s : State) (x : Instance) : Bool := fenceHeld s x || x.waitingCask

/-- The TIMEOUT of an instance in ticks (R180). -/
def instTimeout (s : State) (x : Instance) : Nat :=
  match instTable s x with
  | some t => if t.timeout = 0 then 250000 else t.timeout
  | none => 250000

/-- Does an instance time out at this edge (R200)? -/
def timedOut (s : State) (x : Instance) : Bool :=
  x.phase != .aborting && decide (x.openTick + instTimeout s x ≤ s.tick) && (!arrivalComplete s x || waitingInst s x)

/-- Step 6 of the edge (R200). -/
def testTimeouts (s : State) : State :=
  s.coll.insts.foldl (fun a e => if timedOut a e.2 then enterAborting e.2.group e.2.inst 0x0301 0 0 true a else a) s

/-! ### Ends -/

/-- End the instances whose last COMPLETION was sent before this edge and whose partials have all entered the ring (R209). -/
def endInstances (s : State) : State :=
  s.coll.insts.foldl (fun a e =>
    match mget a.coll.insts e.1 with
    | none => a
    | some x =>
      match x.desc, instTable a x with
      | some d, some t =>
        if x.phase == .committed && dutiesIssued x d t && sentAll a x && !queuedLine a x.group x.inst then
          removeInst x.group x.inst (closeSilo x 0 (keepEnded
            { group := x.group, inst := x.inst, code := 0, origin := 0xFFFF, fallow := x.fallowDone, catchup := x.catchup,
              chunks := sumNat (x.delivered.map (·.2)), detailKind := 0, detail := 0, stats := x.stats } a))
        else a
      | _, _ => a) s

/-- Is a version of a group named by a live instance? -/
def epochInUse (s : State) (g epoch : Nat) : Bool := s.coll.insts.any fun e => e.2.group == g && e.2.epoch == epoch

/-- Is an image kept by a live instance? -/
def imageInUse (s : State) (img : Image) : Bool := s.coll.insts.any fun e => e.2.image == some img

/-- Discard draining tables and images that no instance uses any more (R165, R175). -/
def discardDraining (s : State) : State :=
  s.mapColl fun c => { c with
    groups := mmap c.groups fun g r =>
      { r with draining := r.draining.filter fun t => epochInUse s g t.epoch }
    programs := mmap c.programs fun _ p => { p with draining := p.draining.filter (imageInUse s) } }

end Sys2Proof.Machine
end

