-- ==== Sys2Proof/Machine/SitesOps.lean ====
section
/-! DEFINITION. Sites apart at the tick edge: absence decisions, fallow entry, SITE-STATE, the limits of fallow, resumption and
the PRIMARY policy, and the configuration fence (R479 to R488, R493, R598). -/

namespace Sys2Proof.Machine

open Sys2Proof

/-! ### Absence (R479) -/

/-- ABSENCE_TIMEOUT of a table in ticks (R180). -/
def absenceTicks (t : GroupTable) : Nat := if t.absenceTimeout = 0 then 2000 else t.absenceTimeout

/-- FALLOW_LIMIT of a table in ticks (R180). -/
def fallowTicks (t : GroupTable) : Nat := if t.fallowLimit = 0 then 150000000 else t.fallowLimit

/-- Has no block of a port passed check 6 for a time, and does no grace of R499 apply? -/
def silentPort (s : State) (p ticks : Nat) : Bool :=
  let x := partnerOf s p
  decide (x.lastGood + ticks ≤ s.tick) && decide (x.graceUntil ≤ s.tick)

/-- Does the last digest comparison of a port agree about a group (R479, R492)? -/
def portAgrees (x : Partner) (g : Nat) : Bool := x.compared && (x.agreedAll || x.agreed.contains g)

/-- Latch or end the absence that silence gives on each port of a group. -/
def latchSilence (g : Nat) (t : GroupTable) (s : State) : State :=
  (farRanks t).foldl (fun a f =>
    let p := f.2.endpoint
    let x := partnerOf a p
    if x.lost.contains g then
      if ¬ x.linkDown ∧ portAgrees x g then updPartner p (fun y => { y with lost := y.lost.filter (· != g) }) a else a
    else if silentPort a p (absenceTicks t) then updPartner p (fun y => { y with lost := insertRising g y.lost }) a
    else a) s

/-- Sites absent for a group through one far member: by silence, or by its SITE-STATEs while it is not link-down. -/
def portAbsent (s : State) (g : Nat) (m : Member) : Nat :=
  let x := partnerOf s m.endpoint
  (if x.lost.contains g then m.coveredSites else 0) |||
    (if x.linkDown then 0 else mgetD x.reported g 0 &&& m.coveredSites)

/-- Sites absent for a group by the conditions of R479. -/
def absentNow (s : State) (g : Nat) (t : GroupTable) : Nat :=
  maskMinus (((farRanks t).foldl (fun n f => n ||| portAbsent s g f.2) 0) &&& t.sites) (siteBit t.localSite)

/-- The sites of a mask. -/
def sitesOf (m : Nat) : List Nat := (List.range 8).filter fun i => bitOf m i

/-- Declare the changes of a group's absent sites (R479) and keep its episode (R485, R488). -/
def noteAbsence (g : Nat) (t : GroupTable) (now : Nat) (s : State) : State :=
  let old := absentMask s g
  let s1 := (sitesOf (maskMinus now old)).foldl (fun a i => bump 0x000940B4 (raise 0x8E01 [i, g] a)) s
  let s2 := (sitesOf (maskMinus old now)).foldl (fun a i => raise 0x1E01 [i, g] a) s1
  let prim := bitOf now t.primarySite
  updGroupSites g (fun x =>
    if now = 0 then { GroupSites.zero with primaryLost := x.primaryLost }
    else if old = 0 then { absent := now, episode := some s.tick, limitRaised := false, hold := false, primaryLost := prim }
    else { x with absent := now, primaryLost := x.primaryLost || prim }) s2

/-! ### SITE-STATE (R480) -/

/-- Does a group's policy use SITE-STATE and fallow instances? -/
def GroupTable.apart (t : GroupTable) : Bool := t.policy == 1 || t.policy == 2

/-- FROM_SEQ of each exchange tributary of a port: the first LINE_SEQ started after the message. -/
def fromSeqs (s : State) (port : Nat) : SMap Nat :=
  (s.line.tribs.filter fun e => e.2.port == port && decide (4 ≤ e.1)).map fun e => (e.1, e.2.nextSeq)

/-- Send one SITE-STATE for a list of groups with their absent sites. -/
def sendSiteState (port : Nat) (gs : List (Nat × Nat)) (s : State) : State :=
  match gs with
  | [] => s
  | g :: _ =>
    let fs := fromSeqs s port
    let body := 4 :: gs.length :: (gs.map fun p => [p.1, p.2]).flatten ++ (fs.map fun e => [e.1, e.2]).flatten
    updPartner port (fun x => { x with holds := fs, await := some (g.1, x.ctlNext) }) (sendCtl port 0x30 body [] s)

/-- The SITE-STATE entries that a port is owed: groups whose absent set changed outside its coverage while silence
does not make it absent, or every shared group where the port has just stopped being link-down. -/
def owedStates (before s : State) (port : Nat) : List (Nat × Nat) :=
  let x := partnerOf s port
  let rises := x.wasDown && !x.linkDown
  s.coll.groups.filterMap fun e => match e.2.current with
    | some t => match farOfPort t port with
      | some f =>
        let now := absentMask s e.1
        let changed := maskMinus (absentMask before e.1 ^^^ now) f.2.coveredSites
        let present := !x.lost.contains e.1
        if t.apart ∧ (rises ∨ (changed ≠ 0 ∧ present)) then some (e.1, maskMinus now f.2.coveredSites) else none
      | none => none
    | none => none

/-- Send the SITE-STATEs that the edge's decisions call for. -/
def sendSiteStates (before s : State) : State :=
  (List.range 4).foldl (fun a p =>
    updPartner p (fun x => { x with wasDown := x.linkDown }) (sendSiteState p (owedStates before a p) a)) s

/-! ### Fallow instances (R482, R483) -/

/-- Words of state that the program of an instance needs, by the image resolved or the one its parameter set names. -/
def stateWordsNamed (s : State) (x : Instance) (d : Desc) (t : GroupTable) : Nat :=
  match x.image with
  | some i => i.stateWords
  | none =>
    if readsPSet d.op d.mode ∧ x.phase = .opened then
      let p := readPSet s t d
      if namesProgram d p then ((programOf s p.programId).map (·.stateWords)).getD 0 else 0
    else 0

/-- Does an instance follow HOLD because it carries state or is no reduction (R482)? -/
def followsHold (s : State) (x : Instance) (d : Desc) (t : GroupTable) : Bool :=
  match d.op with
  | .apply | .gather | .scatter | .broadcast | .barrier => true
  | .quantise => modeEf d.mode || decide (0 < stateWordsNamed s x d t)
  | _ => decide (0 < stateWordsNamed s x d t)

/-- Let one instance become or stay fallow at an edge with absent sites (R483, R485, R501). -/
def fallowInst (hold : Bool) (absent : Nat) (x : Instance) (s : State) : State :=
  match x.desc, instTable s x with
  | some d, some t =>
    if x.phase = .aborting then s
    else if x.runsOn then s
    else if ¬ t.apart ∨ followsHold s x d t then s
    else if x.phase = .opened ∧ hold then updInst x.group x.inst (fun y => { y with fallow := false, excluded := 0 }) s
    else if x.phase = .committed ∧ ¬ x.fallow ∧ hold then s
    else
      let s1 := updInst x.group x.inst (fun y => { y with fallow := true, catchup := false, excluded := absent }) s
      if (siloOf s1 x.group x.inst).isSome then s1
      else s1.mapSites fun y => { y with silo := y.silo ++
        [{ group := x.group, inst := x.inst, hash := x.refHash.getD 0, desc := d, epoch := x.epoch, cover := 0, ended := false,
           code := 0, lost := false, poisoned := false, resuming := false, ranks := [], delivered := [], bytes := 0,
           entries := [] }] }
  | _, _ => s

/-- Fallow entry of every instance of a group. -/
def fallowEntry (g : Nat) (s : State) : State :=
  let x := groupSites s g
  if x.absent = 0 then s
  else (s.coll.insts.filter fun e => e.2.group == g).foldl (fun a e => fallowInst x.hold x.absent e.2 a) s

/-- The limit on fallow by time (R485): its launches that commit from the next edge follow HOLD. -/
def testFallowLimit (g : Nat) (t : GroupTable) (s : State) : State :=
  let x := groupSites s g
  if t.apart ∧ ¬ x.limitRaised ∧ (x.episode.any fun e => decide (e + fallowTicks t ≤ s.tick)) then fallowLimit g s else s

/-! ### Resumption (R486, R487, R598) -/

/-- RESULT chunks of a rank that were delivered FALLOW. -/
def fallowChunks (x : Instance) (d : Desc) (t : GroupTable) (rank : Nat) : Nat :=
  (x.chunks.filter fun e => receives d x.pset t.members.length e.2.index rank &&
    e.2.prods.any fun p => p.target == .result && p.fallow && p.issued).length

/-- A chunk at resumption: one delivered FALLOW starts from its Silo entry, any other sends its partials anew (R486). -/
def resumeChunk (d : Desc) (r : Option SiloRec) (k : Nat) (c : Chunk) : Chunk :=
  if c.prods.any fun p => p.target == .result && p.pressed && p.fallow then
    match r.bind fun q => mget q.entries k with
    | some e => { Chunk.new c.index (d.pressRows c.index) with fars := [{ e with isRestored := true }] }
    | none => c
  else { c with prods := c.prods.filter fun p => p.target == .result }

/-- Abort a resumed instance whose record is lost or holds an uncorrectable word (R487). -/
def resumeFault (g i : Nat) (r : Option SiloRec) (s : State) : State :=
  if r.any (·.lost) then enterAborting g i 0x0304 0 0 true s
  else if r.any (·.poisoned) then enterAborting g i 0x0302 0 0 true s
  else s

/-- Resume a fallow instance that has not ended. -/
def resumeInst (x : Instance) (s : State) : State :=
  match x.desc, instTable s x with
  | some d, some t =>
    let r := siloOf s x.group x.inst
    if x.phase = .aborting then
      updInst x.group x.inst (fun y => { y with catchup := true, excluded := 0, delivered := [] }) s
    else
      resumeFault x.group x.inst r (updInst x.group x.inst (fun y => { y with
        catchup := true
        excluded := 0
        completed := []
        fallowDone := false
        delivered := mmap y.delivered fun rank n => n - fallowChunks y d t rank
        chunks := mmap y.chunks fun k c => resumeChunk d r k c }) s)
  | _, _ => s

/-- The stand-in for an ended instance when a COMPLETION is made for it. -/
def SiloRec.asInst (r : SiloRec) : Instance :=
  { Instance.new r.group r.inst r.epoch 0 false with refHash := some r.hash, desc := some r.desc }

/-- COMPLETIONs of an ended fallow instance to ranks (R207, R488, R598); the record is released. -/
def closeRecord (r : SiloRec) (t : GroupTable) (ranks : List Nat) (status flags : Nat) (counted : Bool) (s : State) : State :=
  let x := r.asInst
  let origin := if status = 0 then 0xFFFF else t.localSite
  let s1 := ((localRanks t).filter fun m => ranks.contains m.1).foldl (fun a m =>
    enqueue 0 2 (.host (endPkt x t 3 m
      (endPayload r.inst status flags (if counted then mgetD r.delivered m.1 0 else 0) origin 0 0))) a) s
  s1.mapSites fun y => { y with silo := y.silo.filter fun q => !(q.group == r.group && q.inst == r.inst) }

/-- The table of an ended record. -/
def recTable (s : State) (r : SiloRec) : Option GroupTable := (mget s.coll.groups r.group).bind fun g => tableFor g r.epoch

/-- Begin resumption of the ended records of a group (R486, R598). -/
def resumeRecord (r : SiloRec) (s : State) : State :=
  match recTable s r with
  | none => s
  | some t =>
    if r.code ≠ 0 then closeRecord r t r.ranks r.code 2 false s
    else updSilo r.group r.inst (fun q => { q with resuming := true }) s

/-- A chunk of a resumed record: from its entry, or all done where it was delivered in full. -/
def recordChunk (x : Instance) (d : Desc) (t : GroupTable) (r : SiloRec) (c : Nat) : Chunk :=
  let n := d.pressRows c
  match mget r.entries c with
  | some e => { Chunk.new c n with fars := [{ e with isRestored := true }] }
  | none =>
    let ch := Chunk.new c n
    { ch with
      fars := [{ rank := 0xFFFF, sites := t.sites, members := totalMembers t, rows := [], siteRows := [], raw := [], count := 0,
                 isRestored := true, casks := [] }]
      prods := (owedTargets x d t ch).map fun g =>
        { Prod.new g n with pressed := true, issued := true } }

/-- An ended record takes an instance slot and resumes (R486, R487). -/
def takeSlot (r : SiloRec) (s : State) : State :=
  match recTable s r with
  | none => s
  | some t =>
    let d := r.desc
    let res := resolveLaunch s t d
    let p := match res with
      | .ok q => q
      | .error _ => (PSet.none, none, none)
    let x0 : Instance := { Instance.new r.group r.inst r.epoch s.tick false with
      phase := .committed, commitTick := s.tick, refHash := some r.hash, refFence := some false, desc := some d
      launches := (localRanks t).map fun m => ⟨m.1, d.bytes, r.hash, false⟩
      noticeSites := t.sites, table := some t, pset := p.1, image := p.2.1, idx := p.2.2, order := s.coll.nextOrder
      fallow := true, catchup := true, fallowRanks := r.ranks }
    let x := { x0 with chunks := (List.range d.chunks).map fun c => (c, recordChunk x0 d t r c) }
    let s1 := updSilo r.group r.inst (fun q => { q with resuming := false, ended := false }) (putInst x s)
    let s2 := s1.mapColl fun c => { c with nextOrder := c.nextOrder + 1 }
    let s3 := resumeFault r.group r.inst (some r) s2
    match res with
    | .ok _ => s3
    | .error c => enterAborting r.group r.inst c 0 0 true s3

/-- Ended records take slots in record order as slots become free (R486). -/
def takeSlots (s : State) : State :=
  (s.sites.silo.filter (·.resuming)).foldl (fun a r => if slotsUsed a false < 4096 then takeSlot r a else a) s

/-! ### PRIMARY (R488) -/

/-- A live fallow instance of a PRIMARY group at presence: superseded off the primary side, or run on. -/
def primaryInst (onPrimary : Bool) (x : Instance) (s : State) : State :=
  if onPrimary then updInst x.group x.inst (fun y => { y with runsOn := true }) s
  else
    let s1 := enterAborting x.group x.inst 0x0303 0 0 false s
    match instOf s1 x.group x.inst, instTable s1 x with
    | some y, some t => finaliseOne y t y.ownCode t.localSite s1
    | _, _ => s1

/-- An ended fallow instance of a PRIMARY group at presence. -/
def primaryRecord (onPrimary : Bool) (r : SiloRec) (s : State) : State :=
  match recTable s r with
  | none => s
  | some t =>
    let code := if r.code ≠ 0 then r.code else if onPrimary then 0 else 0x0303
    closeRecord r t ((localRanks t).map (·.1)) code 3 true s

/-- What happens to a group at the edge at which every site is present again (R486, R488). -/
def presenceAgain (g : Nat) (t : GroupTable) (s : State) : State :=
  let live := ((s.coll.insts.filter fun e => e.2.group == g && e.2.fallow).map (·.2))
  let recs := s.sites.silo.filter fun r => r.group == g && r.ended
  if t.policy = 1 then
    recs.foldl (fun a r => resumeRecord r a) (live.foldl (fun a x => resumeInst x a) s)
  else if t.policy = 2 then
    let side := !(groupSites s g).primaryLost
    recs.foldl (fun a r => primaryRecord side r a) (live.foldl (fun a x => primaryInst side x a) s)
  else s

/-! ### The fence of R493 -/

/-- Is a group fenced by a configuration difference on some port it reaches? -/
def groupIsFenced (s : State) (g : Nat) : Bool :=
  match groupOf s g with
  | some r => match r.current with
    | some t => (farRanks t).any fun f =>
      let x := partnerOf s f.2.endpoint
      x.scopeFenced || x.groupFenced.contains g
    | none => false
  | none => false

/-- Ask for the abort of every OPEN instance of a fenced group (R493); a resumption proceeds (R501). -/
def fenceAborts (s : State) : State :=
  s.coll.insts.foldl (fun a e =>
    if e.2.phase = .opened ∧ groupIsFenced a e.2.group then askAbort e.2.group e.2.inst 1 0x010A 0 0 a else a) s

/-- The fences of a port that a comparison has found to agree lift (R493). -/
def liftFence (p : Nat) (s : State) : State :=
  let x := partnerOf s p
  let scope := x.scopeFenced && x.scopeSince.isNone
  let gone := x.groupFenced.filter fun g => !mhas x.groupSince g
  if ¬ scope ∧ gone.isEmpty then s
  else
    let n := if scope then (s.coll.groups.filter fun e => e.2.current.any fun t => (farOfPort t p).isSome).length else gone.length
    raise 0x1E02 [p, n] (updPartner p (fun y =>
      { y with scopeFenced := y.scopeFenced && !scope, groupFenced := y.groupFenced.filter fun g => mhas y.groupSince g }) s)

/-- Fences lift at the edge after a comparison agrees (R493). -/
def liftFences (s : State) : State := (List.range 4).foldl (fun a p => liftFence p a) s

/-! ### The decisions of one edge -/

/-- Decide the absence of one group's sites, and what follows for its instances. -/
def decideGroup (g : Nat) (t : GroupTable) (s : State) : State :=
  let s1 := latchSilence g t s
  let old := absentMask s1 g
  let now := absentNow s1 g t
  let s2 := if now = old then s1 else noteAbsence g t now s1
  let s3 := if old ≠ 0 ∧ now = 0 then presenceAgain g t s2 else s2
  testFallowLimit g t (fallowEntry g s3)

/-- The absence decisions at step 3 of an edge, with fallow entry, resumption and SITE-STATEs. -/
def decideAbsence (s : State) : State :=
  let s1 := s.coll.groups.foldl (fun a e => match e.2.current with
    | some t => decideGroup e.1 t a
    | none => a) s
  takeSlots (sendSiteStates s s1)

end Sys2Proof.Machine
end

