-- ==== Sys2Proof/Machine/Commits.lean ====
section
/-! DEFINITION. What staged items do at their commit edge (R165, R175, R178, R345, R437), step 2 of the tick-edge order. -/

namespace Sys2Proof.Machine

open Sys2Proof

/-- A standby group table becomes current; the old one drains while instances launched under it are in flight (R175). A version
that is not VALID leaves the group without a current one. -/
def commitGroup (g : Nat) (s : State) : State :=
  updGroup g (fun r => match r.standby with
    | none => r
    | some t =>
      { r with
        current := if t.valid then some t else none
        standby := none
        draining := r.current.bind fun o => if epochInUse s g o.epoch then some o else none }) s

/-- A standby program image becomes current; the old one is kept while an instance uses it (R165). -/
def commitProgram (id : Nat) (s : State) : State :=
  s.mapColl fun c => { c with programs := mupd c.programs id fun p => match p.standby with
    | none => p
    | some i =>
      { current := some i, standby := none
        draining := p.draining ++ (p.current.map fun o => if imageInUse s o then [o] else []).getD [] } }

/-- A page set staged by firmware for a swap takes effect (R382): training begins, the lanes renumber under R20, or the old
physical lane is retired. -/
def swapCommit (why : Nat) (s : State) : State :=
  match s.opt.swap with
  | none => s
  | some w =>
    if why = 3 then s.mapOpt fun o => { o with swap := some { w with step := 4, tick := s.tick, sum := 0, count := 0 } }
    else if why = 4 then
      let s1 := s.mapLine fun y => { y with lanes := y.lanes.map fun l =>
        if l.phys = w.spare then { l with phys := w.old } else if l.phys = w.old then { l with phys := w.spare } else l }
      let s2 := s1.mapOpt fun o => { o with swap := some { w with step := 7, tick := s.tick } }
      bump 0x000CA044 (raise 0x1902 [w.lane, w.spare, w.old] s2)
    else if why = 5 then
      (updPhys w.old (fun x => { x with retired := true }) s).mapOpt fun o => { o with swap := none }
    else s

/-- The standby pages of the transmit lanes become active for the frame that starts at this edge (R345 step 5): the new set has
no readied degradation pages yet, a revert waiting on a port is cancelled (R352), FEC codes set meanwhile and new rates take
effect (R364, R367). -/
def commitPages (port : Nat) (s : State) : State :=
  if ¬ s.line.lanes.toList.any fun l => l.standby.isSome then s
  else
    let changed := (List.range 5).filter fun n => (laneOf s n).standby.any fun p => pageRate p != (laneOf s n).rate
    let why := s.line.autoCommit
    let s1 := s.mapLine fun y =>
      { y with autoCommit := 0, lanes := y.lanes.map fun l => match l.standby with
          | some p => { l with active := some p, standby := none, degr := 0, degrPages := [], blanked := false, rate := pageRate p }
          | none => l }
    let s2 := s.opt.fecNext.foldl (fun a e => updLane e.1 (fun l => { l with fec := e.2 }) a) s1
    let s3 := s2.mapOpt fun o => { o with fecNext := [] }
    let ps := (List.range 4).filter fun p => s3.line.lanes.toList.any fun l => (lanePorts l).contains p
    let s4 := ps.foldl (fun a p => updLPort p (fun x =>
      { x with degrReady := false, revert := none, ready := none, degrDue := some (s.tick + 250), doubleDue := none }) a) s3
    let s5 := changed.foldl (fun a n => bump 0x000CA040 (raise 0x1901 [n, (laneOf a n).rate] a)) s4
    swapCommit why (bump 0x00094040 (raise 0x1801 [port] s5))

/-- The standby settings of a scheduler take effect (R437): deficits and fresh flags are cleared, tokens kept up to BURST. -/
def schedSwitch (n : Nat) (s : State) : State :=
  s.mapQos fun v => vupd v n fun c =>
    let q := c.queues.mapIdx fun i e =>
      let e1 := { e with tokens := min e.tokens (4 * (c.standby.bursts.getD i 65536) : Nat) }
      if 4 ≤ i then { e1 with deficit := 0, fresh := false } else e1
    { c with active := c.standby, queues := q, applyNext := false }

/-- One staged item takes effect. -/
def commitItem (s : State) (i : StagedItem) : State :=
  match i with
  | .group g => commitGroup g s
  | .program p => commitProgram p s
  | .page p => commitPages p s
  | .blend ctx cls => blendCommit ctx cls s
  | .qos n => schedSwitch n s

/-- Step 2 of the edge: every commit named for this edge, as one step, with its event (R178, R179). -/
def applyCommits (s : State) : State :=
  let due := s.coll.commits.filter fun c => decide (c.edge ≤ s.tick)
  let s1 := s.mapColl fun c => { c with commits := c.commits.filter fun k => !decide (k.edge ≤ s.tick) }
  let s2 := (due.map (·.items)).flatten.foldl commitItem s1
  due.foldl (fun a c => raise 0x1301 [c.id, c.edge % 2 ^ 32, c.items.length] a) s2

/-- Scheduler copies that QOS_CTRL.APPLY asked for (R437). -/
def applyQosNext (s : State) : State :=
  let s1 := (List.range 5).foldl (fun a n => if (a.qos[n]?).any (·.applyNext) then schedSwitch n a else a) s
  regSet 0x001C0004 (putBits (regVal s1 0x001C0004) 1 1 0) s1

end Sys2Proof.Machine
end

