-- ==== Sys2Proof/Machine/TimeOps.lean ====
section
/-! DEFINITION. Time and clocks: frequency sources, the servo, steps and pulse outputs (R444 to R473). -/

namespace Sys2Proof.Machine

open Sys2Proof

/-- The counter's advance in one tick: 1,250 cycles of 1.6 ns × (1 + f × 10^−9), in units of 2^−48 ns (R453). -/
def tickAdvance (f : Int) : Nat :=
  ((2000 * 2 ^ 48 * (10 ^ 9 * 2 ^ 32 + f)) / (10 ^ 9 * 2 ^ 32)).toNat

/-! ### Frequency sources (R445 to R450) -/

/-- A reference input. -/
def refOf (s : State) (r : Nat) : RefIn := vget s.time.refs r RefIn.bad

/-- Change a reference input. -/
def updRef (r : Nat) (f : RefIn → RefIn) (s : State) : State := s.mapTime fun t => { t with refs := vupd t.refs r f }

/-- Is a source good: a reference that is good, or the internal clock while the crystal is stable? -/
def sourceGood (s : State) (src : Nat) : Bool := if src < 2 then (refOf s src).ok else s.time.xtalOk

/-- A change of source takes effect (R447, R449). -/
def changeSource (src : Nat) (auto : Bool) (s : State) : State :=
  let s1 := s.mapTime fun t => { t with source := src, selectNext := none }
  if s.time.source = src then s1
  else
    let s2 := bump 0x00010044 s1
    if auto then raise 0x1D01 [src] s2 else s2

/-- The change of source that is due at an edge. -/
def applySource (s : State) : State :=
  match s.time.selectNext with
  | some (src, auto) =>
    if sourceGood s src then changeSource src auto s else s.mapTime fun t => { t with selectNext := none }
  | none => s

/-- Select a source (R447): one that is not good is ignored and counted. -/
def selectSource (src : Nat) (s : State) : State :=
  if sourceGood s src then s.mapTime fun t => { t with selectNext := some (src, false) } else bump 0x00340054 s

/-- The reference to select by preference, where one is good. -/
def preferred (s : State) : Option Nat :=
  let p := fld s 0x00010004 0 1
  if (refOf s p).ok then some p else if (refOf s (1 - p)).ok then some (1 - p) else none

/-- While the source is the internal clock a good reference is selected at the next edge (R449). -/
def autoRevert (s : State) : State :=
  if s.time.source = 2 ∧ bit s 0x00010004 1 then
    match preferred s with
    | some p => s.mapTime fun t => { t with selectNext := some (p, true) }
    | none => s
  else s

/-- A reference is declared failed (R446, R448, R450). -/
def refFail (r : Nat) (s : State) : State :=
  let was := (refOf s r).ok
  let s1 := updRef r (fun x => { x with ok := false, windows := 0 }) s
  if ¬ was then s1
  else
    let s2 := bump 0x00010040 s1
    if s.time.source ≠ r then s2
    else if s.time.xtalFailed then raise 0xCD01 [r] s2
    else autoRevert (raise 0xFD01 [r] (changeSource 2 false s2))

/-! ### The servo (R457 to R463) -/

/-- TMS_SRC.SOURCE. -/
def timeSource (s : State) : Nat := fld s 0x0002000C 0 3

/-- JUMP_NS in 2^−16 ns. -/
def jumpLimit (s : State) : Int := (fld1 s 0x00020018 0 16 * 2 ^ 16 : Nat)

/-- TMS_QUAL.COUNT. -/
def qualCount (s : State) : Nat := fld1 s 0x0002001C 0 8

/-- Set the servo's state, keeping since when it has been out of LOCKED (R463). -/
def setServo (st : Nat) (s : State) : State :=
  s.mapTime fun t => { t with
    servo := st
    outSince := if st = 2 then none else some (t.outSince.getD s.tick) }

/-- Discard the held samples and qualify anew, or be FREE where there is no source (R458, R466, R470). -/
def requalify (s : State) : State :=
  let s1 := s.mapTime fun t => { t with samples := [], refused := 0, lastAccepted := s.tick }
  setServo (if timeSource s = 0 ∨ ¬ bit s 0x00020004 0 then 0 else 1) s1

/-- Anchor lane, rate mode and FEC code of a port: a change discards the held samples of the time source (R470). -/
def notePath (port : Nat) (s : State) : State :=
  let now := (portAnchor s port).map fun a => (a, (laneOf s a).rate, (laneOf s a).fec)
  let x := lportOf s port
  if x.path = now then s
  else
    let s1 := updLPort port (fun y => { y with path := now }) s
    if x.path.isSome ∧ timeSource s = port + 2 then requalify s1 else s1

/-- The path of every port is followed from edge to edge. -/
def notePaths (s : State) : State := (List.range 4).foldl (fun a p => notePath p a) s

/-- Limit a number to a range. -/
def clampInt (x lo hi : Int) : Int := max lo (min hi x)

/-- The mean of samples. -/
def meanOf (l : List Int) : Int := if l.isEmpty then 0 else l.foldl (· + ·) 0 / (l.length : Nat)

/-- The largest of samples less the smallest. -/
def spreadOf (l : List Int) : Int :=
  match l with
  | [] => 0
  | x :: r => r.foldl max x - r.foldl min x

/-- A sample that the servo takes: counted, held among the last COUNT. -/
def holdSample (theta : Int) (s : State) : State :=
  bump 0x00020080 (s.mapTime fun t => { t with
    samples := (theta :: t.samples).take (qualCount s), refused := 0, lastAccepted := s.tick })

/-- Qualification (R459): with COUNT samples held and a small spread the servo locks, or refuses the jump. -/
def qualify (s : State) : State :=
  let t := s.time
  if t.samples.length < qualCount s ∨ ((fld s 0x0002001C 16 16 * 2 ^ 16 : Nat) : Int) < spreadOf t.samples then s
  else
    let m := meanOf t.samples
    if -jumpLimit s ≤ m ∧ m ≤ jumpLimit s then
      raise 0x1C03 [] (setServo 2 (s.mapTime fun x => { x with integ := x.f }))
    else raise 0x4C01 [] (setServo 4 s)

/-- The control step of R460. -/
def steer (theta : Int) (s : State) : State :=
  let kp : Int := (regVal s 0x00020010 : Nat)
  let ki : Int := (regVal s 0x00020014 : Nat)
  let fl : Int := (fld s 0x00020018 16 16 * 1000 * 2 ^ 32 : Nat)
  s.mapTime fun t =>
    let i := clampInt (t.integ + ki * theta) (-fl) fl
    { t with integ := i, f := clampInt (-(kp * theta) - i) (-fl) fl }

/-- One sample of the time source (R458 to R461): θ in 2^−16 ns. -/
def servoSample (theta : Int) (s : State) : State :=
  let s0 := s.mapTime fun t => { t with theta := theta }
  match s.time.servo with
  | 1 => qualify (holdSample theta s0)
  | 2 =>
    if jumpLimit s < theta ∨ theta < -jumpLimit s then
      let s1 := bump 0x00020084 (s0.mapTime fun t => { t with refused := t.refused + 1 })
      if fld1 s 0x0002001C 8 8 ≤ s1.time.refused then raise 0x4C01 [] (setServo 4 s1) else s1
    else steer theta (holdSample theta s0)
  | 3 => qualify (holdSample theta (requalify s0))
  | 4 => holdSample theta s0
  | _ => s0

/-! ### Pulses (R471, R472) -/

/-- Signed difference of two times of the 64-bit view (R454). -/
def timeDiff (a b : Nat) : Int := signExt 64 ((a + 2 ^ 64 - b % 2 ^ 64) % 2 ^ 64)

/-- The address of a pulse register. -/
def pulseReg (k off : Nat) : Nat := 0x00020200 + k * 0x20 + off

/-- The first pulse at least 100 ns after a time, or none. -/
def firstPulse (p : Pulse) (v : Nat) : Option Nat :=
  let d := timeDiff (v + 100) p.start
  if p.mode = 0 then none
  else if d ≤ 0 then some p.start
  else if p.mode = 1 ∨ p.period = 0 then none
  else some ((p.start + ceilDiv d.toNat p.period * p.period) % 2 ^ 64)

/-- Pulses that a move of the counter to `v` passes over. -/
def passedOver (p : Pulse) (v : Nat) : Nat :=
  match p.next with
  | none => 0
  | some n =>
    let d := timeDiff (v + 100) n
    if d ≤ 0 then 0 else if p.mode = 1 ∨ p.period = 0 then 1 else ceilDiv d.toNat p.period

/-- Count skipped pulses with their event. -/
def skipPulses (k n : Nat) (s : State) : State :=
  if n = 0 then s else raise 0x4C03 [k, n] (bumpBy 0x00020094 n s)

/-- The counter has stepped: every output finds its next pulse (R472). -/
def replanPulses (s : State) : State :=
  (List.range 4).foldl (fun a k =>
    let p := vget a.time.pulses k Pulse.off
    skipPulses k (passedOver p a.time.v) (a.mapTime fun t => { t with
      pulses := vupd t.pulses k fun x => { x with next := firstPulse x t.v } })) s

/-! ### Steps (R462) -/

/-- Is a bin the running one of its scope and kind (R359)? -/
def runningBin (l : List PmBin) (b : PmBin) : Bool := l.all fun c => c.scope != b.scope || c.kind != b.kind || decide (c.start ≤ b.start)

/-- A step of the time counter takes effect. -/
def applyStep (s : State) : State :=
  let t := s.time
  match (match t.stepTo, t.stepBy with
    | some v, _ => some (v * 2 ^ 48)
    | none, some d => some (((t.counter : Int) - d * 2 ^ 32) % ((2 ^ 48 * 10 ^ 9 * 2 ^ 48 : Nat) : Int)).toNat
    | none, none => none) with
  | none => s
  | some c =>
    let s1 := s.mapTime fun x => { x with
      counter := c, valid := true, stepTo := none, stepBy := none, steps := x.steps + 1
      outSince := some (x.outSince.getD s.tick) }
    let s2 := s1.mapLine fun l => { l with bins := l.bins.map fun b => if runningBin l.bins b then { b with suspect := true } else b }
    raise 0x1C01 [] (bump 0x0002008C (replanPulses (requalify s2)))

end Sys2Proof.Machine
end

