-- ==== Sys2Proof/Machine/HostRows.lean ====
section
/-! DEFINITION. The commands of the host port: exchange packets, acknowledgements and NACKs, priority flow control, neighbours,
the link (R284 to R307). -/

namespace Sys2Proof.Machine

open Sys2Proof

/-! ### Receiving -/

/-- Are frames received: the link up and HST_CTRL.RX_EN 1? -/
def rxOn (s : State) : Bool := s.host.linkUp && bit s 0x00040004 0

/-- Receive one frame (R287): counted, and handed on. -/
def rxFrame (f : State → State) (s : State) : State := if rxOn s then f (bump 0x00040040 s) else s

/-- Flags that a member may set on a packet type (R292). -/
def memberFlags (ty : Nat) : Nat := if ty = 1 then 0xD2 else if ty = 5 then 0xC1 else if ty = 6 then 0xC0 else 0

/-- Header words: SRC_SITE and the reserved bits that lie in them (R290). -/
def hdrReserved (l : List Byte) : Bool :=
  decide (beAt l 20 4 % 2 ^ 12 ≠ 0) || decide (byteAt l 39 / 8 ≠ 0) || decide (beAt l 40 8 ≠ 0) || decide (byteAt l 1 ≠ 0)

/-- Fields that are sent as 0 by type (R293). -/
def hdrZeros (p : Pkt) (src : Nat) : Bool :=
  if src ≠ 0 then false
  else if p.ty = 1 then (!bitOf p.flags 4 || p.blendId == 0)
  else
    p.chunk == 0 && p.dtype == 0 && p.count == 0 && p.blendId == 0 &&
      (if p.ty = 5 then true
       else p.hash == 0 && (p.ty == 6 || (p.group == 0 && p.epoch == 0 && p.inst == 0 && p.rank == 0 && p.seq == 0)))

/-- Ranges of a NACK payload (R300). -/
def nackRanges (l : List Byte) : List (Nat × Nat) :=
  (List.range (byteAt l 5)).map fun i => (beAt l (8 + 8 * i) 4, beAt l (12 + 8 * i) 2)

/-- Does a member's NACK payload keep R300 (R294 order 2)? -/
def nackOk (l : List Byte) : Bool :=
  let reason := byteAt l 4
  let n := byteAt l 5
  decide (reason ≤ 1) && beAt l 6 2 == 0 && decide (n ≤ 64) && decide ((reason = 1) = (0 < n)) &&
    ((List.range n).all fun i => beAt l (12 + 8 * i) 2 != 0 && beAt l (14 + 8 * i) 2 == 0)

/-- Check order 1 of R294: length and DECL_LEN (R289). -/
def hdrLenOk (l : List Byte) : Bool :=
  let ty := byteAt l 0 % 16
  let d := beAt l 36 3
  decide (48 ≤ l.length) && d + 48 == l.length &&
    (if ty = 1 ∨ ty = 2 then decide (d ≤ 8256)
     else if ty = 5 ∨ ty = 3 then d == 32
     else if ty = 6 then d == 0
     else if ty = 4 then decide (8 ≤ d) && d == 8 + 8 * byteAt l 53
     else true)

/-- Check order 2 of R294. -/
def hdrFormOk (l : List Byte) (p : Pkt) : Bool :=
  byteAt l 0 / 16 == 1 && [1, 4, 5, 6].contains p.ty && !hdrReserved l && (p.flags ||| memberFlags p.ty) == memberFlags p.ty &&
    hdrZeros p (byteAt l 39 % 8) && (p.ty != 4 || nackOk p.payload)

/-! ### Inbound sequencing (R192, R225, R297 to R299) -/

/-- Would a packet open an instance (R191, R192)? -/
def wouldOpen (s : State) (p : Pkt) : Bool :=
  match groupOf s p.group with
  | none => false
  | some r => match tableFor r p.epoch with
    | none => false
    | some t => rankOk s t p.rank p.stream && (instOf s p.group p.inst).isNone && !hasEnded s p.group p.inst &&
        (mget s.coll.reserved (ikey p.group p.inst)).isNone

/-- Reserve a slot for a packet that would open an instance; none where no slot is free (R192). -/
def reserveSlot (p : Pkt) (s : State) : Option State :=
  if ¬ wouldOpen s p then some s
  else
    match freeSlot s with
    | none => none
    | some k => some (s.mapColl fun c => { c with reserved := mset c.reserved (ikey p.group p.inst) k })

/-- The form of a member's payload under a passed descriptor. -/
def payloadForm (desc : List Byte) (dtype : Nat) : Form := if byteAt desc 4 = 0x10 then .pairs dtype else .dense dtype

/-- The checks of R225 in the decode stage of a DATA packet's arrival tick. -/
def decodeStage (s : State) (c : StreamCtx) (p : Pkt) : Decoded :=
  match mget c.passedLaunch (ikey p.group p.inst) with
  | none => .unchecked
  | some desc =>
    if 10 ≤ p.dtype then .unchecked
    else
      let f := payloadForm desc p.dtype
      let isSealed : Bool := match groupOf s p.group with
        | some r => ((tableFor r p.epoch).map (·.isSealed)).getD false
        | none => false
      let coding := if isSealed then 0 else byteAt desc 6
      let ids := (f.cls.map (acceptedBlends s 0)).getD []
      match checkHostPayload f coding (bitOf p.flags 4) (if c.rawRequired then [] else ids) p.blendId p.count p.payload with
      | .ok raw => .ok raw
      | .error k => if c.rawRequired ∧ k = .blend ∧ holdsCoded p.payload then .rawRequired else .fail k

/-- Pass a packet on in stream order to be counted at the next edge, or none where no instance slot is free. -/
def passOn (p : Pkt) (casks : List Nat) (s : State) : Option State :=
  match reserveSlot p s, mget s.host.streams p.stream with
  | some s1, some c =>
    let d := if p.ty = 1 then decodeStage s1 c p else .unchecked
    let s2 := match mget c.passedLaunch (ikey p.group p.inst), d with
      | some desc, .ok raw => if bitOf p.flags 4 then s1 else countSymbols 0 (payloadForm desc p.dtype) p.count raw s1
      | _, _ => s1
    let s3 := if p.ty = 5 then
        updStream p.stream (fun x => { x with passedLaunch := mset x.passedLaunch (ikey p.group p.inst) p.payload }) s2
      else s2
    some ((s3.mapHost fun h => { h with arrivals := h.arrivals ++ [.pkt p d casks] }))
  | _, _ => none

/-- Send NO_ROOM for a packet that cannot be taken now (R299): at IN_NEXT it repeats. -/
def noRoom (id seq : Nat) (atNext : Bool) (s : State) : State :=
  let s1 := sendNack id 2 [(seq, 1)] s
  if atNext then openNack id seq 2 0 0 s1 else s1

/-- Pass on the held packets that now follow in order (R297). -/
def releaseHeld : Nat → Nat → State → State
  | 0, _, s => s
  | fuel + 1, id, s =>
    match mget s.host.streams id with
    | none => s
    | some c =>
      match mget c.held c.inNext with
      | none => s
      | some (p, casks) =>
        let s1 := updStream id (fun x => { x with held := mdel x.held c.inNext, refused := mdel x.refused c.inNext }) s
        match passOn p casks s1 with
        | none => noRoom id c.inNext true (freeCasks casks s1)
        | some s2 => releaseHeld fuel id (updStream id (fun x => { x with inNext := (c.inNext + 1) % 2 ^ 32 }) s2)

/-- After IN_NEXT has advanced, the oldest gap is a refused packet, a new gap, or none is open. -/
def renewGap (id : Nat) (s : State) : State :=
  updStream id (fun c =>
    if c.nack.any fun n => n.seq == c.inNext then c
    else match mget c.refused c.inNext with
    | some r => { c with nack := some ⟨c.inNext, r.1, 0, s.tick, r.2.1, r.2.2⟩, stalled := false }
    | none => if c.held.isEmpty then { c with nack := none, stalled := false }
    else { c with nack := some ⟨c.inNext, 1, 0, s.tick, 0, 0⟩, stalled := false }) s

/-- The ranges a NACK for the oldest gap lists: every missing sequence of the window where nothing is held. -/
def gapOf (c : StreamCtx) : List (Nat × Nat) := if c.held.isEmpty then [(c.inNext, 65)] else gapRanges c

/-- NACK the gap before what has arrived (R301). -/
def nackGap (id : Nat) (s : State) : State :=
  match mget s.host.streams id with
  | none => s
  | some c => openNack id c.inNext 1 0 0 (sendNack id 1 (gapOf c) s)

/-- Draw a cask for a payload; none needed where it is empty (R251). -/
def payloadCask (p : Pkt) (s : State) : Option (List Nat) × State :=
  if p.payload.isEmpty then (some [], s)
  else
    let r := drawCask p.payload.length false s
    (r.1.map fun c => [c], r.2)

/-- Acceptance by distance (R297). -/
def sequenceIn (p : Pkt) (c : StreamCtx) (s : State) : State :=
  let d := ringDist 32 p.seq c.inNext
  if 2 ^ 31 ≤ d ∨ (d ≠ 0 ∧ mhas c.held p.seq) then
    let s1 := bump 0x0004005C (updStream p.stream (fun x => { x with inDups := (x.inDups + 1) % 2 ^ 32 }) s)
    if 2 ^ 31 ≤ d ∧ bitOf p.flags 6 then sendAck p.stream s1 else s1
  else if 64 < d then nackGap p.stream (bump 0x00040058 s)
  else
    match payloadCask p s with
    | (none, s1) => noRoom p.stream p.seq (decide (d = 0)) (if d = 0 then s1 else nackGap p.stream s1)
    | (some casks, s1) =>
      if d = 0 then
        match passOn p casks s1 with
        | none => noRoom p.stream p.seq true (freeCasks casks s1)
        | some s2 =>
          renewGap p.stream (releaseHeld 65 p.stream
            (updStream p.stream (fun x => { x with
              inNext := (x.inNext + 1) % 2 ^ 32, refused := mdel x.refused x.inNext }) s2))
      else nackGap p.stream (updStream p.stream (fun x => { x with held := mset x.held p.seq (p, casks) }) s1)

/-! ### Member NACKs and acknowledgements (R300, R303, R304) -/

/-- Release a retained packet. -/
def letGo (id seq : Nat) (s : State) : State :=
  match mget s.host.streams id with
  | none => s
  | some c =>
    match mget c.retained seq with
    | none => s
    | some r => updStream id (fun x => { x with retained := mdel x.retained seq }) (freeCasks r.pkt.casks s)

/-- Sequences as ranges. -/
def runsOf (l : List Nat) : List (Nat × Nat) :=
  (l.foldl (fun (a : List (Nat × Nat)) k => match a with
    | (f, n) :: r => if (f + n) % 2 ^ 32 = k then (f, n + 1) :: r else (k, 1) :: (f, n) :: r
    | [] => [(k, 1)]) []).reverse

/-- The sequences a range lists below OUT_NEXT, at most those ever sent. -/
def sentIn (c : StreamCtx) (r : Nat × Nat) : List Nat :=
  let sent := ringDist 32 c.outNext c.outInit
  ((List.range r.2).map fun k => (r.1 + k) % 2 ^ 32).filter fun q => decide (ringDist 32 q c.outInit < sent)

/-- Resend the listed packets that are held; the others are GONE (R304). -/
def memberGaps (id : Nat) (rs : List (Nat × Nat)) (s : State) : State :=
  match mget s.host.streams id with
  | none => s
  | some c =>
    let qs := (rs.map (sentIn c)).flatten
    let kept := qs.filter fun q => mhas c.retained q
    let gone := qs.filter fun q => !mhas c.retained q
    let s1 := kept.foldl (fun a q => match mget c.retained q with
      | some r => bump 0x0004006C (updStream id (fun x => { x with resendsTx := (x.resendsTx + 1) % 2 ^ 32 })
          (enqueue 0 2 (.resend r.pkt q) a))
      | none => a) s
    let s2 := if gone.isEmpty then s1
      else bumpBy 0x00040070 gone.length (sendNack id 6 ((runsOf gone).take 64) s1)
    if qs.length < sumNat (rs.map (·.2)) then bump 0x00040050 s2 else s2

/-- A member's CUM_ACK (R303, R304): one beyond OUT_NEXT − 1 is ignored and counted. -/
def memberCum (id cum : Nat) (s : State) : State :=
  match mget s.host.streams id with
  | none => s
  | some c =>
    if ahead 32 cum (c.outNext + 2 ^ 32 - 1) then bump 0x00040050 s
    else
      let out := (c.retained.map (·.1)).filter fun q => decide (ringDist 32 cum q < 2 ^ 31)
      let s1 := out.foldl (fun a q => letGo id q a) s
      updStream id (fun x => { x with
        outAcked := if ringDist 32 (cum + 1) x.outAcked < 2 ^ 31 then (cum + 1) % 2 ^ 32 else x.outAcked }) s1

/-- A member's NACK of REASON 0 or 1. -/
def memberNack (p : Pkt) (s : State) : State :=
  let s1 := if byteAt p.payload 4 = 1 then memberGaps p.stream (nackRanges p.payload) (bump 0x00040068 s) else s
  memberCum p.stream (beAt p.payload 0 4) s1

/-! ### Exchange packets (R294, R551) -/

/-- The checks of R294 in order, then sequencing or the member's acknowledgement. -/
def exchangeIn (src : Source) (udp : List Byte) (s : State) : State :=
  if ¬ s.bru.ready ∨ s.flt.fatal then countLate s
  else if ¬ hdrLenOk udp then bump 0x00040050 s
  else
    let p := Pkt.ofBytes udp
    if ¬ hdrFormOk udp p then raiseLimited 0x4401 p.stream [p.stream] (bump 0x00040050 s)
    else
      match mget s.host.streams p.stream with
      | none => raiseLimited 0x4402 p.stream [p.stream] (bump 0x00040054 s)
      | some c =>
        if c.v6 ≠ src.v6 ∨ c.peerAddr ≠ src.addr ∨ c.peerPort ≠ src.port then
          raiseLimited 0x4402 p.stream [p.stream] (bump 0x00040054 s)
        else if p.ty = 4 then memberNack p s
        else sequenceIn p c s

/-- DATA (R186, R294): an exchange frame from a source; its TYPE says what it is. -/
def execData (src : Source) (udp : List Byte) (s : State) : Host.Outcome State Fault Refusal := .next (rxFrame (exchangeIn src udp) s)
/-- LAUNCH (R195, R294). -/
def execLaunch (src : Source) (udp : List Byte) (s : State) : Host.Outcome State Fault Refusal := .next (rxFrame (exchangeIn src udp) s)
/-- MEMBER_ABORT (R206, R294). -/
def execMemberAbort (src : Source) (udp : List Byte) (s : State) : Host.Outcome State Fault Refusal :=
  .next (rxFrame (exchangeIn src udp) s)
/-- MEMBER_NACK (R304). -/
def execMemberNack (src : Source) (udp : List Byte) (s : State) : Host.Outcome State Fault Refusal :=
  .next (rxFrame (exchangeIn src udp) s)
/-- MEMBER_ACK (R303). -/
def execMemberAck (src : Source) (udp : List Byte) (s : State) : Host.Outcome State Fault Refusal :=
  .next (rxFrame (exchangeIn src udp) s)

/-! ### Timers of a stream (R301 to R303) -/

/-- The NACK for the oldest gap is repeated, or gives up after NACK_MAX repeats (R301). -/
def nackRepeat (id : Nat) (s : State) : State :=
  match mget s.host.streams id with
  | none => s
  | some c =>
    match c.nack with
    | none => s
    | some n =>
      if c.stalled ∨ s.tick < n.tick + nackRetry s then s
      else if n.tries < nackMax s then
        let rs := if n.reason = 1 then gapOf c else [(n.seq, 1)]
        sendNack id n.reason rs (updStream id (fun x => { x with nack := some { n with tries := n.tries + 1, tick := s.tick } }) s)
      else if n.reason = 5 then
        askAbort n.group n.inst 4 0x0302 0 0 (updStream id (fun x => { x with nack := none }) s)
      else raise 0x4403 [id] (updStream id (fun x => { x with stalled := true }) s)

/-- HOST_NACK_REPEAT (R301). -/
def execHostNackRepeat (stream : Nat) (s : State) : Host.Outcome State Fault Refusal := .next (nackRepeat stream s)

/-- The periodic acknowledgement of a stream (R302). -/
def ackPeriodic (id : Nat) (s : State) : State :=
  match mget s.host.streams id with
  | none => s
  | some c => if c.ackOwed ∧ c.ackFrom + ackInterval s ≤ s.tick then sendAck id s else s

/-- HOST_ACK_INTERVAL (R302). -/
def execHostAckInterval (stream : Nat) (s : State) : Host.Outcome State Fault Refusal := .next (ackPeriodic stream s)

/-- HST_OUT_HOLD in ticks: a value below 1,000 is treated as 1,000. -/
def outHold (s : State) : Nat := max 1000 (regVal s 0x00040028)

/-- A retained RESULT is released when its hold has passed (R303). -/
def holdExpire (id seq : Nat) (s : State) : State :=
  match (mget s.host.streams id).bind fun c => mget c.retained seq with
  | none => s
  | some r => if r.pkt.ty = 2 ∧ r.sentTick + outHold s ≤ s.tick then letGo id seq s else s

/-- RESULT_HOLD_EXPIRE (R303). -/
def execResultHoldExpire (stream seq : Nat) (s : State) : Host.Outcome State Fault Refusal := .next (holdExpire stream seq s)

/-! ### Priority flow control (R254, R307) -/

/-- A priority that is not paused. -/
def PfcPrio.clear : PfcPrio := { quanta := 0, since := none, ignored := false, lastFrame := 0 }

/-- A priority of the port. -/
def pfcOf (s : State) (p : Nat) : PfcPrio := vget s.host.pfc p PfcPrio.clear

/-- Change a priority. -/
def updPfc (p : Nat) (f : PfcPrio → PfcPrio) (s : State) : State := s.mapHost fun h => { h with pfc := vupd h.pfc p f }

/-- What a PFC frame does to one enabled priority. -/
def pfcPause (tick q : Nat) (p : PfcPrio) : PfcPrio :=
  if p.ignored then { p with lastFrame := tick }
  else if q = 0 then { p with quanta := 0, since := none, lastFrame := tick }
  else { p with quanta := q, since := some (p.since.getD tick), lastFrame := tick }

/-- A PFC frame: enable bits and quanta by priority. -/
def pfcFrame (enabled : Nat) (quanta : List Nat) (s : State) : State :=
  (List.range 8).foldl (fun a i => if bitOf enabled i then updPfc i (pfcPause a.tick (quanta.getD i 0)) a else a) (bump 0x00040078 s)

/-- PFC_FRAME_RX (R307). -/
def execPfcFrameRx (enabled : Nat) (quanta : List Nat) (s : State) : Host.Outcome State Fault Refusal :=
  .next (rxFrame (pfcFrame enabled quanta) s)

/-- A priority's pause time runs out: 6,250 quanta of 0.32 ns make a tick. -/
def pfcExpire (p : Nat) (s : State) : State :=
  let x := pfcOf s p
  if x.since.isSome ∧ x.lastFrame * 6250 + x.quanta ≤ (s.tick + 1) * 6250 then
    updPfc p (fun y => { y with quanta := 0, since := none }) s
  else s

/-- PFC_PAUSE_EXPIRE (R307). -/
def execPfcPauseExpire (prio : Nat) (s : State) : Host.Outcome State Fault Refusal := .next (pfcExpire prio s)

/-- HST_PFC_WD in ticks: a value below 1,000 is treated as 1,000. -/
def pfcWd (s : State) : Nat := max 1000 (regVal s 0x00040030)

/-- The watchdog of a priority (R307). -/
def pfcWatchdog (p : Nat) (s : State) : State :=
  if (pfcOf s p).since.any (fun t => decide (t + pfcWd s ≤ s.tick)) ∧ bit s 0x00040004 4 then
    raise 0x4406 [p] (updPfc p (fun y => { y with quanta := 0, since := none, ignored := true }) s)
  else s

/-- PFC_WATCHDOG (R307). -/
def execPfcWatchdog (prio : Nat) (s : State) : Host.Outcome State Fault Refusal := .next (pfcWatchdog prio s)

/-- A priority is honoured again after 1,000 ticks without a frame (R307). -/
def pfcIgnoreEnd (p : Nat) (s : State) : State :=
  let x := pfcOf s p
  if x.ignored ∧ x.lastFrame + 1000 ≤ s.tick then updPfc p (fun y => { y with ignored := false }) s else s

/-- PFC_WATCHDOG_IGNORE_END (R307). -/
def execPfcWatchdogIgnoreEnd (prio : Nat) (s : State) : Host.Outcome State Fault Refusal := .next (pfcIgnoreEnd prio s)

/-- The pause frame is repeated every 5 ticks while the state lasts (R254). -/
def pfcRefresh (s : State) : State :=
  if s.host.pfcSent ∧ hostBp s ∧ bit s 0x00180004 0 ∧ s.host.pfcTick + 5 ≤ s.tick then sendPfc 0xFFFF s else s

/-- PFC_REFRESH (R254). -/
def execPfcRefresh (s : State) : Host.Outcome State Fault Refusal := .next (pfcRefresh s)

/-- CLR_CTRL.PFC_EN is cleared: the field is locked by the system lock (R14); a pause in force ends with one frame (R254). -/
def pfcDisable (s : State) : State :=
  if s.mgt.sysLock then bump 0x00340054 s
  else
    let s1 := fldSet 0x00180004 0 1 0 s
    if s.host.pfcSent then sendPfc 0 s1 else s1

/-- PFC_DISABLE_WRITE (R254). -/
def execPfcDisableWrite (s : State) : Host.Outcome State Fault Refusal := .next (pfcDisable s)

/-! ### Neighbours and other frames (R286, R287) -/

/-- The link-local address of the MAC address, by the modified EUI-64 rule (R286). -/
def linkLocal (s : State) : Nat :=
  let mac := s.host.macHi * 2 ^ 32 + s.host.macLo
  let hi := (mac / 2 ^ 24) ^^^ (2 * 2 ^ 16)
  0xFE80 * 2 ^ 112 + hi * 2 ^ 40 + 0xFFFE * 2 ^ 24 + mac % 2 ^ 24

/-- Is an address one of the device's? -/
def deviceAddr (s : State) (v6 : Bool) (a : Nat) : Bool :=
  if v6 then a == linkLocal s || (s.host.ipv6 != 0 && a == s.host.ipv6) else s.host.ipv4 != 0 && a == s.host.ipv4

/-- ARP_REQUEST (R287): for the device's IPv4 address it is answered. -/
def execArpRequest (target sender : Nat) (s : State) : Host.Outcome State Fault Refusal :=
  .next (rxFrame (fun a => if deviceAddr a false target then enqueue 0 1 (.other (.arpReply sender)) a else a) s)

/-- NEIGHBOUR_SOLICITATION (R287). -/
def execNeighbourSolicitation (target sender : Nat) (s : State) : Host.Outcome State Fault Refusal :=
  .next (rxFrame (fun a => if deviceAddr a true target then enqueue 0 1 (.other (.neighbourReply sender)) a else a) s)

/-- An echo request: answered while ICMP_EN is 1, up to 100 per second (R287). -/
def icmpIn (src : Source) (dst : Nat) (payload : List Byte) (s : State) : State :=
  if ¬ bit s 0x00040004 3 ∨ ¬ deviceAddr s src.v6 dst then s
  else
    let fresh := decide (s.host.icmpTick + 500000 ≤ s.tick)
    let n := if fresh then 0 else s.host.icmpCount
    if 100 ≤ n then s
    else
      enqueue 0 1 (.other (.echoReply src payload)) (s.mapHost fun h => { h with
        icmpTick := if fresh then s.tick else h.icmpTick, icmpCount := n + 1 })

/-- ICMP_ECHO (R287). -/
def execIcmpEcho (src : Source) (dst : Nat) (payload : List Byte) (s : State) : Host.Outcome State Fault Refusal :=
  .next (rxFrame (icmpIn src dst payload) s)

/-- A discarded frame: 1 fails its FCS or length, 2 fails R288, 3 holds an uncorrectable codeword, anything else is of no kind
that the port accepts; codewords corrected are counted as well (R287, R288, R317). -/
def otherFrame (cause corrected : Nat) (s : State) : State :=
  bumpBy 0x0004007C corrected
    (bump (if cause = 1 then 0x00040044 else if cause = 2 then 0x00040048 else if cause = 3 then 0x00040080 else 0x0004004C) s)

/-- OTHER_FRAME_DISCARD (R287). -/
def execOtherFrameDiscard (cause corrected : Nat) (s : State) : Host.Outcome State Fault Refusal :=
  .next (rxFrame (otherFrame cause corrected) s)

/-! ### The link (R285) -/

/-- HOST_ALIGNMENT_LOSS (R285). -/
def execHostAlignmentLoss (s : State) : Host.Outcome State Fault Refusal :=
  .next (if s.host.aligned then s.mapHost fun h => { h with aligned := false, alignTicks := s.tick } else s)

/-- Alignment lost for 5 ticks: the link is down and retrains. -/
def linkDown (s : State) : State :=
  if s.host.linkUp ∧ ¬ s.host.aligned ∧ s.host.alignTicks + 5 ≤ s.tick then
    raise 0x8401 [] (s.mapHost fun h => { h with linkUp := false })
  else s

/-- HOST_LINK_DOWN (R285). -/
def execHostLinkDown (s : State) : Host.Outcome State Fault Refusal := .next (linkDown s)

/-- Alignment has held for 5 ticks after training: the link is up; where it never went down, alignment is back. -/
def linkUpEffect (s : State) : State :=
  let s1 := s.mapHost fun h => { h with aligned := true, linkUp := true }
  if s.host.linkUp then s1 else happenedNow 18 (raise 0x1401 [] s1)

/-- HOST_LINK_UP (R285). -/
def execHostLinkUp (s : State) : Host.Outcome State Fault Refusal := .next (linkUpEffect s)

end Sys2Proof.Machine
end

