-- ==== Sys2Proof/Machine/EgressRows.lean ====
section
/-! DEFINITION. Egress scheduling: selection, shaping, sampling, and what the host MAC sends (R426 to R443, R303, R429). -/

namespace Sys2Proof.Machine

open Sys2Proof

/-! ### Selection (R433 to R436) -/

/-- A scheduler. -/
def schedOf (s : State) (n : Nat) : Sched := vget s.qos n (Sched.reset n)

/-- Change a scheduler. -/
def updSched (n : Nat) (f : Sched → Sched) (s : State) : State := s.mapQos fun v => vupd v n f

/-- A queue of a scheduler. -/
def Sched.queue (c : Sched) (q : Nat) : EQueue := vget c.queues q EQueue.empty

/-- Change a queue. -/
def Sched.updQueue (c : Sched) (q : Nat) (f : EQueue → EQueue) : Sched := { c with queues := vupd c.queues q f }

/-- Is a queue shaped (R436)? -/
def QSettings.shaped (x : QSettings) (q : Nat) : Bool := x.rates.getD q 0 != 0

/-- Does its shaper permit a queue? -/
def Sched.permitted (c : Sched) (q : Nat) : Bool := !c.active.shaped q || decide (0 < (c.queue q).tokens)

/-- Counted length (R435): bytes and OVERHEAD, at least 1. -/
def countedLen (c : Sched) (bytes : Nat) : Nat := max 1 ((bytes : Int) + c.active.overhead).toNat

/-- One visit of the weighted round to queue `4 + (ptr + i) mod 12`. -/
def visit (ok : Nat → Bool) (len : Nat → Nat) (c : Sched) (q : Nat) : Option Nat × Sched :=
  if (c.queue q).items.isEmpty then (none, c.updQueue q fun e => { e with deficit := 0, fresh := false })
  else if ¬ ok q then (none, c)
  else
    let e := c.queue q
    let d := if e.fresh then e.deficit else e.deficit + max 1 (c.active.weights.getD q 1) * (256 * max 1 c.active.quantum)
    if len q ≤ d then
      (some q, { (c.updQueue q fun x => { x with deficit := d - len q, fresh := true }) with ptr := q - 4 })
    else (none, c.updQueue q fun x => { x with deficit := d, fresh := false })

/-- One pass over the twelve weighted queues, from `ptr` on. -/
def passWeighted (ok : Nat → Bool) (len : Nat → Nat) (c : Sched) : Option Nat × Sched :=
  (List.range 12).foldl (fun (a : Option Nat × Sched) i => match a.1 with
    | some _ => a
    | none => visit ok len a.2 (4 + (c.ptr + i) % 12)) (none, c)

/-- Passes until a queue is chosen or none is eligible (R434). -/
def selectWeighted (ok : Nat → Bool) (len : Nat → Nat) : Nat → Sched → Option Nat × Sched
  | 0, c => (none, c)
  | fuel + 1, c =>
    match passWeighted ok len c with
    | (some q, d) => (some q, d)
    | (none, d) =>
      if (List.range 12).any fun i => ok (4 + i) && !(d.queue (4 + i)).items.isEmpty then selectWeighted ok len fuel d else (none, d)

/-- Choose a queue: the lowest eligible strict queue, else the weighted round (R434). -/
def selectQueue (ok : Nat → Bool) (len : Nat → Nat) (c : Sched) : Option Nat × Sched :=
  match firstFrom 4 0 fun q => ok q && !(c.queue q).items.isEmpty with
  | some q => (some q, c)
  | none =>
    let most := (List.range 12).foldl (fun m i => max m (len (4 + i))) 0
    selectWeighted ok len (most / 256 + 2) c

/-- Take the head of a queue: tokens pay for it (R436), and it is counted. -/
def takeHead (n q len : Nat) (s : State) : State :=
  bump (0x001C1114 + n * 0x1000 + q * 0x20) (updSched n (fun c => c.updQueue q fun e =>
    { e with items := e.items.tail, tokens := if c.active.shaped q then e.tokens - 4 * (len : Int) else e.tokens }) s)

/-! ### The host egress -/

/-- Bytes of an Ethernet frame from the destination address through the FCS (R435): IP and UDP headers of a payload. -/
def frameBytes (s : State) (v6 : Bool) (udp : Nat) : Nat :=
  max 64 (14 + (if bit s 0x00040004 2 then 4 else 0) + (if v6 then 40 else 20) + 8 + udp + 4)

/-- Does a stream's endpoint use IPv6? -/
def streamV6 (s : State) (id : Nat) : Bool := ((mget s.host.streams id).map (·.v6)).getD false

/-- Frame bytes of a queued item. -/
def itemBytes (s : State) (it : EItem) : Nat :=
  match it with
  | .host p => frameBytes s (streamV6 s p.stream) (48 + p.payload.length)
  | .resend p _ => frameBytes s (streamV6 s p.stream) (48 + p.payload.length)
  | .nack id payload => frameBytes s (streamV6 s id) (48 + payload.length)
  | .other (.mailbox dst b) => frameBytes s dst.v6 b.length
  | .other (.echoReply dst d) => max 64 (frameBytes s dst.v6 d.length)
  | .other (.neighbourReply _) => 90
  | .other (.announce true _) => 90
  | .other (.delayReq _) => frameBytes s false 44
  | .other _ => 64
  | .line _ => 0

/-- The head of a queue. -/
def headItem (s : State) (n q : Nat) : Option EItem := ((schedOf s n).queue q).items.head?.map (·.2)

/-- Counted length of a queue's head on the host egress. -/
def hostHeadLen (s : State) (q : Nat) : Nat :=
  match headItem s 0 q with
  | some it => countedLen (schedOf s 0) (itemBytes s it)
  | none => 0

/-- The priority of a queue's traffic (R427). -/
def queuePrio (s : State) (q : Nat) : Nat := if q < 2 then fld s 0x0004001C 11 3 else fld s 0x0004001C 8 3

/-- Is a host queue eligible (R433)? -/
def hostEligible (s : State) (q : Nat) : Bool :=
  !((schedOf s 0).queue q).items.isEmpty && (schedOf s 0).permitted q && (pfcOf s (queuePrio s q)).since.isNone

/-- A RESULT with LAST set is a chunk delivered to its member; FALLOW results are remembered (R207, R486). -/
def noteDelivered (p : HostPkt) (s : State) : State :=
  if p.ty = 2 then
    updInst p.group p.inst (fun x => { x with
      delivered := if bitOf p.flags 1 then mupdD x.delivered p.dest 0 (· + 1) else x.delivered
      fallowRanks := if bitOf p.flags 5 then insertRising p.dest x.fallowRanks else x.fallowRanks }) s
  else s

/-- Send a sequenced packet: it takes the next STREAM_SEQ and is kept (R303, R429). -/
def sendSequenced (p : HostPkt) (s : State) : State :=
  match mget s.host.streams p.stream with
  | none => freeCasks p.casks s
  | some c =>
    let seq := c.outNext
    let s1 := updStream p.stream (fun x => { x with
      outNext := (seq + 1) % 2 ^ 32, retained := mset x.retained seq ⟨p, s.tick⟩ }) s
    noteDelivered p (s1.emit (.exchange p.stream (p.toBytes seq false)))

/-- Does the device send nothing of the exchange: as the shadow of a join (R496), or as a twin that has handed over (R500)? -/
def isShadow (s : State) : Bool := s.sites.shadow.role == 1 || (s.sites.shadow.role == 2 && s.sites.shadow.promoted)

/-- Send one selected item, `off` in 2^−16 ns after the edge. -/
def sendItem (it : EItem) (off : Nat) (s : State) : State :=
  match it with
  | .host p => if isShadow s then freeCasks p.casks (noteDelivered p s) else sendSequenced p s
  | .resend p seq => if isShadow s then s else s.emit (.exchange p.stream (p.toBytes seq true))
  | .nack id payload =>
    if isShadow s then s
    else s.emit (.exchange id (exchHeader 4 0 0 0 0 0 0 0 0 0 id 0 0 payload.length 0 ++ payload))
  | .other (.delayReq n) =>
    -- the transmit stamp of a Delay_Req is t3 (R309, R464)
    (s.emit (.delayReq n)).mapTime fun t =>
      if t.ptp.reqSeq = n then { t with ptp := { t.ptp with t3 := some (t.counter / 2 ^ 32 + off) } } else t
  | .other o => s.emit o
  | .line _ => s

/-- The host MAC can start a frame: one packet is selected and sent whole. -/
def hostSelect (off : Nat) (s : State) : State :=
  if ¬ txOn s then s
  else
    match selectQueue (hostEligible s) (hostHeadLen s) (schedOf s 0) with
    | (none, c) => updSched 0 (fun _ => c) s
    | (some q, c) =>
      match headItem s 0 q with
      | none => s
      | some it => releaseDone (sendItem it off (takeHead 0 q (hostHeadLen s q) (updSched 0 (fun _ => c) s)))

/-- HOST_EGRESS_SELECT (R434). -/
def execHostEgressSelect (off : Nat) (s : State) : Host.Outcome State Fault Refusal := .next (hostSelect off s)

/-! ### Shaping and the bins of sampling (R436, R441) -/

/-- Refill one queue's tokens; an edge at which it is non-empty and held by its shaper is counted. -/
def tokenRefill (n q : Nat) (s : State) : State :=
  let c := schedOf s n
  if ¬ c.active.shaped q then s
  else
    let held := !(c.queue q).items.isEmpty && decide ((c.queue q).tokens ≤ 0)
    let s1 := if held then bump (0x001C1118 + n * 0x1000 + q * 0x20) s else s
    updSched n (fun d => d.updQueue q fun e => { e with
      tokens := min (e.tokens + (c.active.rates.getD q 0 : Nat)) (4 * (c.active.bursts.getD q 65536) : Nat) }) s1

/-- TOKEN_REFILL (R436). -/
def execTokenRefill (sched queue : Nat) (s : State) : Host.Outcome State Fault Refusal := .next (tokenRefill sched queue s)

/-- The bin of a value for a base (R441). -/
def histBin (v b : Nat) : Nat :=
  if v = 0 then 0
  else ((firstFrom 14 1 fun k => decide (v ≤ b * 2 ^ (k - 1)))).getD 15

/-- Add 1 to a bin of 32 bits. -/
def binAdd (h : List Nat) (i : Nat) : List Nat := h.set i (min (2 ^ 32 - 1) (h.getD i 0 + 1))

end Sys2Proof.Machine
end

