-- ==== Sys2Proof/Machine/SecOps.lean ====
section
/-! DEFINITION. Certificates and chains (R408, R409), sealing for the device's own sessions, and mailbox sessions (R310 to R316,
R416). -/

namespace Sys2Proof.Machine

open Sys2Proof

/-! ### Certificates -/

/-- Bytes cut or padded to a length. -/
def fixLen (n : Nat) (l : List Byte) : List Byte := padTo n (l.take n)

/-- KIND of a certificate. -/
def certKind (c : List Byte) : Nat := byteAt c 1
/-- USAGE. -/
def certUsage (c : List Byte) : Nat := beAt c 2 2
/-- SUBJECT_ID. -/
def certSubject (c : List Byte) : List Byte := slice c 8 8
/-- ISSUER_ID. -/
def certIssuer (c : List Byte) : List Byte := slice c 16 8
/-- PUBLIC_KEY. -/
def certKey (c : List Byte) : List Byte := slice c 64 1793

/-- Is a byte string a certificate: VERSION 1, a KIND and USAGE that exist, reserved fields 0? -/
def certForm (c : List Byte) : Bool :=
  c.length == 3144 && byteAt c 0 == 1 && decide (1 ≤ certKind c) && decide (certKind c ≤ 4) && decide (certUsage c < 16) &&
    beAt c 4 4 == 0 && beAt c 36 28 == 0 && beAt c 1857 7 == 0

/-- Does a key verify a certificate's signature? -/
def certSigned (key c : List Byte) : Bool := Config.falconVerify key (c.take 1864) (slice c 1864 1280)

/-- The latest time recorded in a Ledger seal, in seconds. -/
def sealTime (s : State) : Nat :=
  ((s.flt.ledgerC.recs.filter fun r => r.kind == 2 && decide (r.time ≠ 0)).getLast?.map fun r => r.time / 2 ^ 48).getD 0

/-- Does a certificate's validity hold now (R409)? -/
def certValid (s : State) (c : List Byte) : Bool :=
  if s.time.valid then decide (beAt c 24 6 ≤ s.time.sec) && decide (s.time.sec ≤ beAt c 30 6)
  else decide (sealTime s ≤ beAt c 30 6)

/-- The faults of adjacent certificates of a chain: SIGNATURE 6, USAGE 5, CHAIN 1. -/
def linkFault : List (List Byte) → Option Nat
  | a :: b :: r =>
    if ¬ certSigned (certKey a) b then some 6
    else if ¬ bitOf (certUsage a) 0 then some 5
    else if certIssuer b ≠ certSubject a then some 1
    else linkFault (b :: r)
  | _ => none

/-- The first condition of R409 that a chain of bytes breaks, as a reason of R414: an anchor, at most one intermediate and a
leaf of the KIND and USAGE bits given. `anchor` is the digest the chain must end at, or none where any anchor serves (R410). -/
def chainFault (s : State) (anchor : Option (List Byte)) (kind usage : Nat) (l : List Byte) : Option Nat :=
  let cs := chunks 3144 l
  let a := cs.headD []
  let leaf := cs.getLastD []
  if l.length % 3144 ≠ 0 ∨ cs.length < 2 ∨ 3 < cs.length ∨ ¬ cs.all certForm then some 1
  else if anchor.any fun d => shake256 a 32 != d then some 2
  else if ¬ certSigned (certKey a) a then some 6
  else
    match linkFault cs with
    | some e => some e
    | none =>
      if certKind leaf ≠ kind ∨ certUsage leaf &&& usage ≠ usage then some 5
      else if ¬ cs.all (certValid s) then some 4
      else none

/-- The leaf of a chain. -/
def chainLeaf (l : List Byte) : List Byte := (chunks 3144 l).getLastD []

/-- The device's own chain: enrolled, or from manufacture (R416). -/
def ownChain (s : State) : List Byte := if s.sec.enrolled then s.sec.chain.flatten else Config.mfgChain

/-- DEVICE_ID as bytes. -/
def ownId (s : State) : List Byte := fixLen 8 s.mgt.deviceId

/-- The identity key's signature, padded format. -/
def ownSign (m : List Byte) : List Byte := fixLen 1280 (Config.identitySign m)

/-! ### Opening a session (R311) -/

/-- Fields of a mailbox datagram's header. -/
def mbxKind (l : List Byte) : Nat := byteAt l 3
/-- SESSION_ID. -/
def mbxSession (l : List Byte) : Nat := beAt l 4 4
/-- COUNTER. -/
def mbxCounter (l : List Byte) : Nat := beAt l 8 8
/-- BODY_LEN. -/
def mbxBodyLen (l : List Byte) : Nat := beAt l 18 2
/-- REQ_SEQ. -/
def mbxReqSeq (l : List Byte) : Nat := beAt l 20 4

/-- Is a datagram of the form of R310, of the KIND expected? -/
def mbxForm (kind : Nat) (l : List Byte) : Bool :=
  decide (32 ≤ l.length) && beAt l 0 2 == 0x5658 && byteAt l 2 == 1 && mbxKind l == kind && byteAt l 17 == 0 && beAt l 24 8 == 0 &&
    decide (mbxBodyLen l ≤ 8200) && l.length == 32 + mbxBodyLen l + (if kind ≤ 2 then 0 else 16) &&
    (if kind = 4 then decide (byteAt l 16 < 8) else byteAt l 16 == 0)

/-- Do mailboxes answer (R513, R569, R575)? -/
def mbxUp (s : State) : Bool := s.flt.vintnerUp || s.mgt.recovery

/-- The half-open state is kept for 1 s, and a body not complete within 1 s of its first fragment is discarded. -/
def freshTick (s : State) (t : Nat) : Bool := decide (s.tick < t + 500000)

/-- Put a fragment with those that share its source and identifier: the body where it is complete. -/
def addFragment (src : Source) (l : List Byte) (s : State) : Option (List Byte) × State :=
  let id := mbxCounter l
  let idx := mbxReqSeq l % 2 ^ 16
  let cnt := mbxReqSeq l / 2 ^ 16
  if id = 0 ∨ cnt = 0 ∨ 4 < cnt ∨ cnt ≤ idx then (none, s)
  else
    let same : Frags → Bool := fun f => f.src == src && f.ident == id && freshTick s f.firstTick
    let f0 := (s.host.frags.find? same).getD { src := src, ident := id, total := cnt, parts := [], firstTick := s.tick }
    if f0.total ≠ cnt then (none, s)
    else
      let f := { f0 with parts := mset f0.parts idx ((l.drop 32).take (mbxBodyLen l)) }
      let rest := s.host.frags.filter fun x => !(x.src == src && x.ident == id)
      if f.parts.length = cnt then (some ((f.parts.map (·.2)).flatten), s.mapHost fun h => { h with frags := rest })
      else (none, s.mapHost fun h => { h with frags := rest ++ [f] })

/-- Send a body of KIND 1 or 2 in fragments of up to 8,200 B. -/
def sendFragments (kind sid ident : Nat) (dst : Source) (body : List Byte) (s : State) : State :=
  let ps := chunks 8200 body
  (List.range ps.length).foldl (fun a i =>
    let p := ps.getD i []
    enqueue 0 1 (.other (.mailbox dst (mbxHeader kind sid ident 0 p.length (i + ps.length * 2 ^ 16) ++ p))) a) s

/-- The direction key of a session (R416): 0 host to device, 1 device to host. -/
def mbxKey (ss h : List Byte) (d : Nat) : List Byte := shake256 (ascii "VX6416 mbx" ++ ss ++ h ++ [byte d]) 32

/-- The encapsulation key of a HELLO body. -/
def helloKey (b : List Byte) : List Byte := b.take 1568
/-- The part of a body that its signature covers. -/
def helloSigned (b : List Byte) : List Byte := b.take (b.length - 1280)
/-- The signature of a body. -/
def helloSig (b : List Byte) : List Byte := b.drop (b.length - 1280)
/-- The chain of a body. -/
def helloChain (b : List Byte) : List Byte := (helloSigned b).drop 1568

/-- The role that a HELLO body earns: 0 operator, 1 owner, 2 the twin's shadow; none where it fails (R311, R410, R416, R497, R563). -/
def helloRole (s : State) (b : List Byte) : Option Nat :=
  let leaf := chainLeaf (helloChain b)
  if b.length < 2848 ∨ ¬ Config.falconVerify (certKey leaf) (helloSigned b) (helloSig b) then none
  else if certKind leaf = 3 then
    if s.sites.shadow.role = 2 ∧ (chainFault s s.sec.anchor 3 2 (helloChain b)).isNone ∧
        certSubject leaf = s.sites.shadow.peer then some 2 else none
  else if (chainFault s s.sec.anchor 4 4 (helloChain b)).isSome then none
  else if s.sec.anchor.isSome ∧ (helloChain b).length = 2 * 3144 then some 1
  else some 0

/-- How many sessions may be open: 4, or 1 while no owner anchor is held (R313, R410) or in recovery (R575). -/
def maxSessions (s : State) : Nat := if s.sec.anchor.isNone ∨ s.mgt.recovery then 1 else 4

/-- A complete HELLO body: verified and answered (R311). -/
def helloIn (src : Source) (ident : Nat) (b : List Byte) (s : State) : State :=
  let fresh := decide (s.host.helloTick + 500000 ≤ s.tick)
  let n := if fresh then 0 else s.host.helloCount
  if 16 ≤ n ∨ maxSessions s ≤ s.host.sessions.length then s
  else
    let s1 := s.mapHost fun h => { h with helloTick := if fresh then s.tick else h.helloTick, helloCount := n + 1 }
    match helloRole s b with
    | none => raise 0x4404 [src.addr % 2 ^ 32] s1
    | some role =>
      let (coins, s2) := s1.takeFree
      let ct := Config.kemEncaps (helloKey b) coins
      let body := fixLen 1568 ct.1 ++ ownChain s2
      let whole := body ++ ownSign (shake256 (b ++ body) 64)
      let h := shake256 (b ++ whole) 64
      let sid := s2.host.nextSession
      let s3 := s2.mapHost fun x => { x with
        nextSession := if sid + 1 < 2 ^ 32 then sid + 1 else 1
        half := x.half ++ [{ id := sid, src := src, keyIn := mbxKey ct.2 h 0, keyOut := mbxKey ct.2 h 1, role := role,
                             tick := s.tick }] }
      sendFragments 2 sid ident src whole s3

/-- One HELLO fragment. -/
def helloFragment (src : Source) (udp : List Byte) (s : State) : State :=
  if ¬ mbxUp s ∨ ¬ mbxForm 1 udp ∨ mbxSession udp ≠ 0 then s
  else
    match addFragment src udp s with
    | (some b, s1) => helloIn src (mbxCounter udp) b s1
    | (none, s1) => s1

/-- MBX_HELLO (R311). -/
def execMbxHello (src : Source) (udp : List Byte) (s : State) : Host.Outcome State Fault Refusal :=
  .next (rxFrame (helloFragment src udp) s)

/-- HELLO_REASSEMBLY_TIMEOUT (R311). -/
def execHelloReassemblyTimeout (s : State) : Host.Outcome State Fault Refusal :=
  .next (s.mapHost fun h => { h with frags := h.frags.filter fun f => freshTick s f.firstTick })

/-- HALF_OPEN_EXPIRE (R311). -/
def execHalfOpenExpire (s : State) : Host.Outcome State Fault Refusal :=
  .next (s.mapHost fun h => { h with half := h.half.filter fun f => freshTick s f.tick })

/-- A FINISH for a half-open session: open it when the tag verifies, discard it otherwise. -/
def finishIn (udp : List Byte) (x : HalfOpen) (s : State) : State :=
  let s1 := s.mapHost fun h => { h with half := h.half.filter fun y => y.id != x.id }
  let n := mbxBodyLen udp
  match gcmOpen x.keyIn (mbxNonce false (mbxCounter udp)) (udp.take 32) (slice udp 32 n) (udp.drop (32 + n)) with
  | none => bump 0x00040084 s1
  | some _ =>
    if n ≠ 0 ∨ mbxCounter udp = 0 ∨ maxSessions s ≤ s.host.sessions.length then s1
    else
      let y : Session :=
        { src := x.src, keyIn := x.keyIn, keyOut := x.keyOut, role := x.role, hiIn := mbxCounter udp, seen := [], nextOut := 1,
          lastTick := s.tick, sub := none, bulk := none, twin := x.role == 2 }
      let s2 := s1.mapHost fun h => { h with sessions := mset h.sessions x.id y }
      if x.role = 2 then s2.mapSites fun g => { g with shadow := { g.shadow with session := some x.id } } else s2

/-- FINISH of the session it names. -/
def finishRx (udp : List Byte) (s : State) : State :=
  if ¬ mbxUp s ∨ ¬ mbxForm 3 udp then s
  else
    match s.host.half.find? fun x => x.id == mbxSession udp && freshTick s x.tick with
    | some x => finishIn udp x s
    | none => s

/-- MBX_FINISH (R311). -/
def execMbxFinish (src : Source) (udp : List Byte) (s : State) : Host.Outcome State Fault Refusal :=
  .next (rxFrame (fun a => match a.host.half.find? fun x => x.id == mbxSession udp with
    | some x => if x.src = src then finishRx udp a else a
    | none => a) s)

/-! ### Datagrams of an open session (R312) -/

/-- End a session (R313): its bulk transfer ends with it, and its requests that wait are dropped. -/
def endSession (sid : Nat) (s : State) : State :=
  let s1 := s.mapHost fun h => { h with sessions := mdel h.sessions sid }
  s1.mapMgt fun g =>
    { g with
      order := g.order.filter fun m => (vget g.mbx m Mbx.idle).session != sid
      mbx := g.mbx.map fun x => if x.session = sid then { x with waiting := false, deferred := false } else x }

/-- Take a counter as seen. -/
def Session.accept (x : Session) (c tick : Nat) : Session :=
  if x.hiIn < c then
    { x with hiIn := c, lastTick := tick, seen := (x.hiIn :: x.seen).filter fun k => decide (c ≤ k + 64) }
  else { x with seen := c :: x.seen, lastTick := tick }

/-- Is a counter fresh: above the highest, or within 64 below it and not yet seen? Counters run from 1. -/
def Session.isFresh (x : Session) (c : Nat) : Bool :=
  decide (x.hiIn < c) || (decide (1 ≤ c) && decide (c < x.hiIn) && decide (x.hiIn ≤ c + 64) && !x.seen.contains c)

/-- Open a datagram of a session (R312): its body goes to `f`. -/
def openDatagramOf (sid kind : Nat) (udp : List Byte) (f : Nat → List Byte → State → State) (s : State) : State :=
  if ¬ mbxUp s ∨ ¬ mbxForm kind udp then s
  else
    match mget s.host.sessions sid with
    | none => s
    | some x =>
      let n := mbxBodyLen udp
      let c := mbxCounter udp
      let toHost := x.twin && x.role == 255
      match gcmOpen x.keyIn (mbxNonce toHost c) (udp.take 32) (slice udp 32 n) (udp.drop (32 + n)) with
      | none => bump 0x00040084 s
      | some body =>
        if ¬ x.isFresh c then raise 0x4405 [sid] (bump 0x00040088 s)
        else
          let s1 := f sid body (s.mapHost fun h => { h with sessions := mset h.sessions sid (x.accept c s.tick) })
          if 2 ^ 32 ≤ c then endSession sid s1 else s1

/-- Open a datagram of the session that its header names. -/
def openDatagram (kind : Nat) (udp : List Byte) (f : Nat → List Byte → State → State) (s : State) : State :=
  openDatagramOf (mbxSession udp) kind udp f s

/-- Command codes of R564 by family: how many each has. -/
def familySize (f : Nat) : Nat := ([0, 13, 4, 3, 3, 5, 1, 5, 2, 10, 1, 3, 6, 7, 5, 1, 2].getD f 0)

/-- Is a COMMAND code in the table of R564? -/
def knownCommand (c : Nat) : Bool := decide (1 ≤ c % 256) && decide (c % 256 ≤ familySize (c / 256))

/-- Is a request's header well formed (R559)? -/
def requestForm (b : List Byte) : Bool :=
  decide (32 ≤ b.length) && decide (b.length ≤ 4096) && beAt b 2 2 == 0 && beAt b 4 4 == b.length - 32 && beAt b 16 16 == 0

/-- A request in its mailbox (R314): it waits its turn, the stored response is repeated, or it is answered busy. -/
def requestIn (m seq sid : Nat) (b : List Byte) (s : State) : State :=
  let x := mbxOf s m
  let same := x.session == sid && x.seq == seq
  if x.waiting then
    if same then s
    else
      bump 0x00000044 (mbxSend sid 5 m seq (responseBytes (beAt b 0 2) stMailboxBusy (beAt b 8 8) s.tick 0 []) s)
  else if same ∧ x.resp.isSome then mbxSend sid 5 m seq (x.resp.getD []) s
  else
    let s1 := updMbx m (fun _ =>
      { session := sid, seq := seq, waiting := true, deferred := false, code := beAt b 0 2, token := beAt b 8 8,
        args := b.drop 32, resp := none }) s
    if ¬ requestForm b then mbxAnswer m stMalformed 0 [] s1
    else if ¬ knownCommand (beAt b 0 2) then mbxAnswer m stUnknown 0 [] s1
    else s1.mapMgt fun g => { g with order := g.order ++ [m] }

/-- MBX_REQUEST (R314). -/
def execMbxRequest (udp : List Byte) (s : State) : Host.Outcome State Fault Refusal :=
  .next (rxFrame (openDatagram 4 udp fun sid b => requestIn (byteAt udp 16) (mbxReqSeq udp) sid b) s)

/-- MBX_CLOSE (R313). -/
def execMbxClose (udp : List Byte) (s : State) : Host.Outcome State Fault Refusal :=
  .next (rxFrame (openDatagram 8 udp fun sid _ => endSession sid) s)

/-- A session with no datagram for 60 s ends (R313). -/
def sessionIdle (sid : Nat) (s : State) : State :=
  if (mget s.host.sessions sid).any fun x => decide (x.lastTick + 30000000 ≤ s.tick) then endSession sid s else s

/-- SESSION_IDLE_TIMEOUT (R313). -/
def execSessionIdleTimeout (sid : Nat) (s : State) : Host.Outcome State Fault Refusal := .next (sessionIdle sid s)

/-! ### Bulk transfers (R316) -/

/-- Is a region named by an instance in flight, so that firmware refuses to free or write it (R277)? -/
def regionInUse (s : State) (h : Nat) : Bool :=
  s.coll.insts.any fun e =>
    e.2.pset.stateRegion == h || e.2.pset.indexRegion == h ||
      ((instTable s e.2).any fun t => t.constRegion == h)

/-- The bytes of a Barn slot. -/
def barnBase (k : Nat) : Nat := 0xD480000000 + k * 0x100000000

/-- Data of a transfer's target at an offset. -/
def bulkRead (s : State) (b : Bulk) (off n : Nat) : List Byte :=
  if b.kind = 0 then regionRead s b.target off n
  else if b.kind = 1 then dramRead s (barnBase b.target + off) n
  else []

/-- Does the target of a transfer still stand? -/
def bulkLive (s : State) (b : Bulk) : Bool :=
  if b.kind = 0 then (regionOf s b.target).isSome
  else if b.kind = 1 then (s.flt.barn[b.target]?).any (·.valid)
  else decide (b.target ≠ s.mgt.active) && (s.mgt.slots[b.target]?).any fun x => x.state != 5

/-- A write into a firmware slot (R572). -/
def fwStore (slot off : Nat) (l : List Byte) (s : State) : State :=
  s.mapMgt fun g => { g with slots := vupd g.slots slot fun f => { f with state := 1, data := cellWrite f.data off l } }

/-- Write received data into a transfer's target. -/
def bulkWrite (b : Bulk) (off : Nat) (l : List Byte) (s : State) : State :=
  if b.kind = 0 then regionWrite b.target off l s else if b.kind = 2 then fwStore b.target off l s else s

/-- Change a session. -/
def updSession (sid : Nat) (f : Session → Session) (s : State) : State :=
  s.mapHost fun h => { h with sessions := mupd h.sessions sid f }

/-- Does a range of a transfer's target hold a poisoned word, which is never delivered (R281)? -/
def bulkPoisoned (s : State) (b : Bulk) (off n : Nat) : Bool :=
  if b.kind = 0 then regionPoisoned s b.target off n
  else if b.kind = 1 then dramPoisoned s (barnBase b.target + off) n
  else false

/-- Send datagrams of a transfer while fewer than 64 are unacknowledged; it stands at a poisoned word until the word is written. -/
def bulkPump : Nat → Nat → State → State
  | 0, _, s => s
  | fuel + 1, sid, s =>
    match (mget s.host.sessions sid).bind (·.bulk) with
    | none => s
    | some b =>
      let pos := 8192 * (b.next - 1)
      if ¬ b.sending ∨ b.len ≤ pos ∨ b.acked + 64 * 8192 ≤ pos then s
      else
        let n := min 8192 (b.len - pos)
        if bulkPoisoned s b (b.offset + pos) n then s else
        let s1 := mbxSend sid 7 0 b.next (beBytes 8 (b.offset + pos) ++ bulkRead s b (b.offset + pos) n) s
        bulkPump fuel sid (updSession sid (fun x => { x with bulk := some { b with next := b.next + 1, sentTick := s.tick } }) s1)

/-- The host's acknowledgement of a transfer that the device sends. -/
def bulkAcked (sid : Nat) (b : Bulk) (off : Nat) (s : State) : State :=
  let got := off - b.offset
  if b.offset ≤ off ∧ b.acked < got ∧ got ≤ min b.len (8192 * (b.next - 1)) then
    if got = b.len then
      let s1 := updSession sid (fun x => { x with bulk := none }) s
      -- reading a capture to its end sets READ (R528)
      if b.kind = 1 then
        s1.mapFlt fun f => { f with barn := vupd f.barn b.target fun y => { y with read := y.read || y.length == b.offset + b.len } }
      else s1
    else bulkPump 64 sid (updSession sid (fun x => { x with bulk := some { b with acked := got } }) s)
  else s

/-- Data of a transfer that the device receives: in order it is stored and acknowledged; anything else is only acknowledged. -/
def bulkData (sid : Nat) (b : Bulk) (seq off : Nat) (l : List Byte) (s : State) : State :=
  let ok := off == b.offset + b.acked && decide (l.length ≤ b.len - b.acked) && bulkLive s b &&
    !(b.kind == 0 && (regionInUse s b.target || regionTorn s b.target off l.length))
  let got := if ok then b.acked + l.length else b.acked
  let s1 := if ok then bulkWrite b off l s else s
  let s2 := updSession sid (fun x => { x with bulk := if got = b.len then none else some { b with acked := got, next := b.next + 1 } }) s1
  mbxSend sid 7 0 seq (beBytes 8 (b.offset + got)) s2

/-- A BULK datagram. -/
def bulkIn (seq sid : Nat) (body : List Byte) (s : State) : State :=
  match (mget s.host.sessions sid).bind (·.bulk) with
  | none => s
  | some b =>
    if body.length < 8 then s
    else if b.sending then bulkAcked sid b (beAt body 0 8) s
    else bulkData sid b seq (beAt body 0 8) (body.drop 8) s

/-- MBX_BULK (R316). -/
def execMbxBulk (udp : List Byte) (s : State) : Host.Outcome State Fault Refusal :=
  .next (rxFrame (openDatagram 7 udp fun sid b => bulkIn (mbxReqSeq udp) sid b) s)

/-- Resend what is not acknowledged after 25,000 ticks (R316). -/
def bulkResend (sid : Nat) (s : State) : State :=
  match (mget s.host.sessions sid).bind (·.bulk) with
  | none => s
  | some b =>
    if b.sending ∧ b.sentTick + 25000 ≤ s.tick then
      bulkPump 64 sid (updSession sid (fun x => { x with bulk := some { b with next := b.acked / 8192 + 1 } }) s)
    else s

/-- BULK_RESEND (R316). -/
def execBulkResend (sid : Nat) (s : State) : Host.Outcome State Fault Refusal := .next (bulkResend sid s)

end Sys2Proof.Machine
end

