-- ==== Sys2Proof/Machine/CtlOps.lean ====
section
/-! DEFINITION. Receiving control messages: policing (R440), what the stored manifest says of a port (R548), and the keys of a
vintage (R399). -/

namespace Sys2Proof.Machine

open Sys2Proof

/-! ### Policing (R440) -/

/-- The message bucket of a port, in thousandths, refilled up to now. -/
def bucketNow (s : State) (port : Nat) : Nat :=
  let a := 0x001C2008 + port * 0x1000
  let c := schedOf s (port + 1)
  let dt := s.tick - c.policedTick.getD 0
  min (1000 * fld1 s a 16 16) (c.bucket + dt * fld1 s a 0 16)

/-- A control message that passes through the bucket of its port: it acts, or it is discarded and counted. -/
def policed (port : Nat) (f : State → State) (s : State) : State :=
  let b := bucketNow s port
  let put := fun (n : Nat) (x : State) => updSched (port + 1) (fun c => { c with bucket := n, policedTick := some s.tick }) x
  if 1000 ≤ b then f (put (b - 1000) s)
  else raisePort 0x4B02 port [port] (bump (0x001C1044 + (port + 1) * 0x1000) (put b s))

/-! ### The stored manifest (R548) -/

/-- The bytes of the manifest, all zero where none is stored. -/
def manifestOf (s : State) : List Byte := s.bru.manifest.getD []

/-- PARTNER_ID of a port. -/
def partnerId (s : State) (p : Nat) : List Byte := fixLen 8 (slice (manifestOf s) (72 + 16 * p) 8)

/-- Has a port a partner in the manifest? -/
def hasPartner (s : State) (p : Nat) : Bool := beNat (partnerId s p) != 0

/-! ### Vintages (R399, R400) -/

/-- k(d, c) from vs(d, c). -/
def vintageKey (vs : List Byte) : List Byte := shake256 (ascii "VX6416 key" ++ vs) 32
/-- kcv(d, c) from vs(d, c). -/
def vintageKcv (vs : List Byte) : Nat := beNat (shake256 (ascii "VX6416 kcv" ++ vintageKey vs) 8)
/-- vs(d, c + 1) from vs(d, c). -/
def nextVs (vs : List Byte) (c : Nat) : List Byte := shake256 (ascii "VX6416 rack" ++ vs ++ beBytes 8 c) 64
/-- vs(d, 1). -/
def firstVs (pms : List Byte) (d : Nat) : List Byte := shake256 (ascii "VX6416 vintage" ++ pms ++ [byte d]) 64

/-- SEC_RACK_PERIOD in force. -/
def rackPeriod (s : State) : Nat := max 100000 (min 30000000 (regVal s 0x00100010))
/-- LEAD. -/
def rackLead (s : State) : Nat := fld1 s 0x00100014 0 16

/-- The exchange tributaries of a port, and all of them. -/
def portTribs (s : State) (p : Nat) : List (Nat × Trib) := s.line.tribs.filter fun e => e.2.port == p

/-- Vintage counts under which a port's ring holds copies. -/
def ringCounts (s : State) (p : Nat) : List Nat :=
  sortRising ((portTribs s p).map fun e => e.2.ring.map fun r => r.2.vcount).flatten

/-- Keys that no copy and no current use needs are erased (R400). -/
def pruneTxKeys (p : Nat) (s : State) : State :=
  let used := ringCounts s p
  updKeys p (fun k => { k with txKeys := mfilter k.txKeys fun c _ => decide (k.txCount ≤ c) || used.contains c }) s

/-- The next receive vintage is derived, where it is not yet (R405). -/
def deriveRx (p : Nat) (s : State) : State :=
  updKeys p (fun k =>
    if k.rxNext then k
    else
      let v := nextVs k.rxVs k.rxCount
      { k with rxVs := v, rxKeys := mset k.rxKeys (k.rxCount + 1) (vintageKey v), rxNext := true }) s

end Sys2Proof.Machine
end

