-- ==== Sys2Proof/Machine/BruOps.lean ====
section
/-! DEFINITION. The expected manifest and the readiness check (R548 to R554). -/

namespace Sys2Proof.Machine

open Sys2Proof

/-! ### The manifest (R548, R549) -/

/-- Is a channel ID on the grid of R370, with slot width at least `least` × 12.5 GHz? -/
def channelOk (id least : Nat) : Bool :=
  let n := signExt 11 (id / 32)
  decide (-312 ≤ n) && decide (n ≤ 484) && decide (least ≤ id % 32) && decide (id % 32 ≤ 30) && decide (1 ≤ id % 32)

/-- A numeric field of a manifest. -/
def mfield (m : List Byte) (off n : Nat) : Nat := beAt m off n
/-- Fields of a port's entry. -/
def mfPartner (m : List Byte) (p : Nat) : Nat := mfield m (72 + 16 * p) 8
/-- CHANNEL. -/
def mfChannel (m : List Byte) (p : Nat) : Nat := mfield m (80 + 16 * p) 2
/-- LANE. -/
def mfLane (m : List Byte) (p : Nat) : Nat := bitsOf (byteAt m (82 + 16 * p)) 0 3
/-- FAR_LANE. -/
def mfFar (m : List Byte) (p : Nat) : Nat := bitsOf (byteAt m (82 + 16 * p)) 3 3
/-- RATE. -/
def mfRate (m : List Byte) (p : Nat) : Nat := bitsOf (byteAt m (82 + 16 * p)) 6 2
/-- CAMPUS. -/
def mfCampus (m : List Byte) (p : Nat) : Nat := bitsOf (byteAt m (83 + 16 * p)) 0 1
/-- CHAIN_LEN. -/
def mfChainLen (m : List Byte) : Nat := mfield m 136 4
/-- CHAIN. -/
def mfChain (m : List Byte) : List Byte := slice m 144 (mfChainLen m)

/-- Form: magic, version, reserved fields, length. -/
def mfForm (m : List Byte) : Bool :=
  decide (144 ≤ m.length) && m.length == 144 + mfChainLen m + 1280 && mfield m 0 4 == 0x564D4654 && mfield m 4 2 == 1 &&
    decide (mfield m 6 2 < 4) && decide (byteAt m 21 < 16) && byteAt m 25 == 0 && mfield m 29 3 == 0 && mfield m 140 4 == 0 &&
    (List.range 4).all fun p => decide (byteAt m (83 + 16 * p) < 2) && mfield m (84 + 16 * p) 4 == 0

/-- Is a port's entry one that R549 accepts? -/
def mfPortOk (m : List Byte) (p : Nat) : Bool :=
  mfPartner m p == 0 ||
    (channelOk (mfChannel m p) 17 && decide (mfLane m p < 5) && decide (mfFar m p < 5) && decide (mfRate m p < 3) &&
      (List.range p).all fun q => mfPartner m q == 0 || mfLane m q != mfLane m p)

/-- Does a manifest pass R549, apart from its SERIAL? -/
def mfValid (s : State) (m : List Byte) : Bool :=
  mfForm m && slice m 8 8 == ownId s && (chainFault s s.sec.anchor 4 4 (mfChain m)).isNone &&
    Config.falconVerify (certKey (chainLeaf (mfChain m))) (m.take (144 + mfChainLen m)) (m.drop (144 + mfChainLen m)) &&
    decide (mfield m 32 4 ≤ mfield m 36 4) && (List.range 4).all (mfPortOk m)

/-! ### Reasons (R550) -/

/-- A reason where a condition holds. -/
def reasonIf (c : Bool) (code subject expected found : Nat) : List Reason := if c then [⟨code, subject, expected, found⟩] else []

/-- Fewest spare cores left in any logical cluster of a die. -/
def minCoreSpares (d : Die) : Nat := d.coresUsed.foldl (fun n e => min n (16 - e.2)) 16

/-- Reasons of one enabled die. -/
def dieReasons (s : State) (m : List Byte) (i : Nat) : List Reason :=
  let d := dieOf s i
  if ¬ bitOf (diesEnabled s) i then []
  else
    reasonIf (decide (d.spareClusters < byteAt m 22) || decide (0 < d.lostClusters)) 7 i (byteAt m 22) d.spareClusters ++
      reasonIf (decide (minCoreSpares d < byteAt m 23)) 8 i (byteAt m 23) (minCoreSpares d)

/-- Reason 14 of one port: its last pairing attempt failed with reason 1, 2, 3 or 5. -/
def partnerReason (s : State) (m : List Byte) (p : Nat) : List Reason :=
  let k := keysOf s p
  reasonIf (mfPartner m p != 0 && k.st != 4 && [1, 2, 3, 5].contains k.lastFail) 14 p 0 k.lastFail

/-- Reasons that compare the device with a manifest. -/
def manifestReasons (s : State) (m : List Byte) : List Reason :=
  let lanes := s.bru.lanesUp.length
  reasonIf (!mfValid s m) 4 0xFF 0 0 ++
    reasonIf (s.sec.anchor.any fun a => a != slice m 40 32) 5 0xFF 0 0 ++
    reasonIf (diesEnabled s != byteAt m 21 % 16) 6 0xFF (byteAt m 21 % 16) (diesEnabled s) ++
    ((List.range 4).map (dieReasons s m)).flatten ++
    reasonIf (s.bru.packages != byteAt m 24) 9 0xFF (byteAt m 24) s.bru.packages ++
    reasonIf (s.bru.dramGb != mfield m 26 2) 10 0xFF (mfield m 26 2) s.bru.dramGb ++
    reasonIf (decide (lanes < byteAt m 28) || (bitOf (mfield m 6 2) 1 && !s.bru.spareUp)) 13 0xFF (byteAt m 28) lanes ++
    ((List.range 4).map (partnerReason s m)).flatten ++
    reasonIf (decide (1 < byteAt m 20)) 15 0xFF (byteAt m 20) 1 ++
    reasonIf (decide (s.mgt.fwVersion < mfield m 32 4) || decide (mfield m 36 4 < s.mgt.fwVersion)) 16 0xFF 0 0

/-- Every reason that holds against a manifest, or none stored (R550). -/
def reasonsAgainst (s : State) (m : Option (List Byte)) : List Reason :=
  reasonIf s.sec.anchor.isNone 1 0xFF 0 0 ++ reasonIf (!s.sec.enrolled) 2 0xFF 0 0 ++ reasonIf m.isNone 3 0xFF 0 0 ++
    ((m.map (manifestReasons s)).getD []) ++ s.bru.found ++
    reasonIf (!(refOf s 0).ok && !(refOf s 1).ok) 17 0xFF 0 0 ++ reasonIf (!s.host.linkUp) 18 0xFF 0 0

/-- Two reasons of one code and subject are one. -/
def dedupReasons (l : List Reason) : List Reason :=
  l.foldl (fun a r => if a.any fun x => x.code == r.code && x.subject == r.subject then a else a ++ [r]) []

/-! ### The check (R550 to R552) -/

/-- The check, whole: reasons recorded, or READY at the next edge. -/
def runCheck (s : State) : State :=
  if s.bru.ready ∨ s.flt.fatal then s
  else
    let l := dedupReasons (reasonsAgainst s s.bru.manifest)
    let s1 := s.mapBru fun b => { b with reasons := l, notReady := !l.isEmpty, readyNext := l.isEmpty, happened := [] }
    if l.isEmpty then s1 else bump 0x00380044 s1

/-- May the check run again (R552): every reason recorded has had a happening of its kind? -/
def mayRecheck (s : State) : Bool :=
  let b := s.bru
  b.notReady && !b.reasons.isEmpty && b.reasons.all fun r => b.happened.contains r.code

/-- Has every manifest port with a partner paired? -/
def allPaired (s : State) : Bool := (List.range 4).all fun p => !hasPartner s p || (keysOf s p).st == 4

/-- A trial slot becomes ACTIVE and the old one VERIFIED when step 10 completes (R574). -/
def trialPassed (s : State) : State :=
  if ¬ s.mgt.trial then s
  else s.mapMgt fun g => { g with
    trial := false
    slots := g.slots.mapIdx fun i x =>
      if i = g.active then { x with state := 4 } else if x.state = 4 then { x with state := 2 } else x }

/-- Step 10: the check runs, and the sequence is done. -/
def stepTen (s : State) : State :=
  let s1 := s.mapBru fun b => { b with step := 10, stepTick := s.tick, waiting := false, endWaitNext := false }
  trialPassed (runCheck (s1.mapBru fun b => { b with running := false, lastStep := 10, result := 2, detail := 0 }))

/-- What the edge does for bring-up: the pair wait ends when every port has paired or the host has asked, and a check that is
due runs again (R547, R552, R556). -/
def bruEdge (s : State) : State :=
  if s.bru.waiting then
    if allPaired s ∨ s.bru.endWaitNext then stepTen s else s
  else if mayRecheck s then (runCheck s).mapBru fun b => { b with recheckNext := false, endWaitNext := false }
  else s.mapBru fun b => { b with recheckNext := false, endWaitNext := false }

/-- The device becomes READY in one step (R551): a DIGEST is due on every paired port at this edge (R490). -/
def becomeReady (s : State) : State :=
  if s.bru.readyNext ∧ ¬ s.flt.fatal then
    let s1 := fldSet 0x00200004 0 1 1 (s.mapBru fun b => { b with ready := true, notReady := false, readyNext := false })
    s1.mapSites fun x => { x with partners := x.partners.map fun q => { q with digestTick := s.tick } }
  else s

/-- The system lock takes effect (R567). -/
def applyLock (s : State) : State :=
  if s.mgt.lockNext then s.mapMgt fun g => { g with sysLock := true, lockNext := false } else s

/-- The bytes of a reason record (R554). -/
def Reason.toBytes (r : Reason) : List Byte := [byte r.code, byte r.subject, 0, 0] ++ beBytes 2 r.expected ++ beBytes 2 r.found

end Sys2Proof.Machine
end

