-- ==== Sys2Proof/Machine/PairRows.lean ====
section
/-! DEFINITION. The commands of pairing, racking and the utility engine's lock (R402 to R419, R601). -/

namespace Sys2Proof.Machine

open Sys2Proof

/-! ### Pairing messages (R412) -/

/-- Queue a pairing message: it is never kept for a partner that is link-down. -/
def sendPair (p : Nat) (body : List Byte) (s : State) : State :=
  updPartner p (fun x => { x with ctlQueue := x.ctlQueue ++ [⟨0x60, [], body⟩] }) s

/-- DEVICE_ID of a P-HELLO. -/
def pHelloId (b : List Byte) : List Byte := slice b 1 8
/-- START_ID. -/
def pHelloStart (b : List Byte) : Nat := beAt b 9 8
/-- Encapsulation key. -/
def pHelloKey (b : List Byte) : List Byte := slice b 49 1568
/-- Certificate chain. -/
def pHelloChain (b : List Byte) : List Byte := slice b 1617 (b.length - 1622)
/-- Contract level. -/
def pHelloLevel (b : List Byte) : Nat := byteAt b (b.length - 5)

/-- The device's own P-HELLO body from two random values. -/
def ownHello (s : State) (rand seed : Nat) : List Byte :=
  [1] ++ ownId s ++ beBytes 8 s.sec.startId ++ beBytes 32 rand ++ fixLen 1568 (Config.kemKey seed) ++ ownChain s ++ [1] ++
    beBytes 4 s.mgt.fwVersion

/-- Send the P-HELLO of the attempt. -/
def sendHello (p : Nat) (s : State) : State :=
  updKeys p (fun k => { k with helloTick := s.tick }) (sendPair p (keysOf s p).hello s)

/-- Begin a pairing attempt: fresh values are drawn, and P-HELLO leaves. -/
def beginPairing (p : Nat) (s : State) : State :=
  let (rand, s1) := s.takeFree
  let (seed, s2) := s1.takeFree
  let hello := ownHello s2 rand seed
  sendHello p (updPartner p (fun x => { x with paired := false }) (updKeys p (fun k =>
    { k with st := 1, hello := hello, helloRx := [], encap := [], ssOwn := [], kemSeed := seed, confirm := [], racking := none,
             stepTick := s.tick }) s2))

/-- A pairing attempt fails with a reason; the next one waits (R414). -/
def pairFail (p reason : Nat) (s : State) : State :=
  let k := keysOf s p
  let e := min k.fails (fld s 0x00100018 8 4)
  let s1 := updKeys p (fun x =>
    { x with st := 5, lastFail := reason, fails := x.fails + 1, helloRx := [], encap := [], ssOwn := [], confirm := [],
             retryAt := s.tick + fld1 s 0x00100018 0 8 * 2 ^ e * 500000 }) s
  happenedNow 14 (bump 0x00100054 (raise 0x8A01 [p, reason] s1))

/-- The partner whose pairing a port accepts: the manifest's, or the one a PROMOTE named (R499). -/
def acceptedPartner (s : State) (p : Nat) : List Byte :=
  let x := partnerOf s p
  if x.graceDevice ≠ [] then x.graceDevice else partnerId s p

/-- The reason for which a P-HELLO is refused, if any. -/
def helloFault (s : State) (p : Nat) (b : List Byte) : Option Nat :=
  if b.length < 1622 + 2 * 3144 then some 1
  else if pHelloId b = ownId s then some 9
  else if s.sec.anchor.isNone then some 2
  else
    match chainFault s s.sec.anchor 3 2 (pHelloChain b) with
    | some e => some e
    | none =>
      if certSubject (chainLeaf (pHelloChain b)) ≠ pHelloId b ∨ pHelloId b ≠ acceptedPartner s p then some 3 else none

/-- Both P-HELLO bodies, the initiator's first. -/
def hellos (k : PortKeys) : List Byte := if k.initiator then k.hello ++ k.helloRx else k.helloRx ++ k.hello

/-- A partner's P-HELLO that has passed its checks: P-ENCAP answers it. -/
def answerHello (p : Nat) (b : List Byte) (s : State) : State :=
  let (coins, s1) := s.takeFree
  let e := Config.kemEncaps (pHelloKey b) coins
  let ct := fixLen 1568 e.1
  let k0 := keysOf s p
  let k := { k0 with helloRx := b, initiator := bytesLt (ownId s) (pHelloId b), newId := pHelloId b, newStart := pHelloStart b,
                     level := pHelloLevel b }
  let msg := [2] ++ ct ++ ownSign (shake256 (hellos k ++ ct) 64)
  sendPair p msg (updKeys p (fun _ => { k with st := 2, encap := msg, ssOwn := e.2, stepTick := s.tick }) s1)

/-- A P-HELLO is counted; one that comes to a port that is past it, paired or in back-off does nothing. -/
def helloRx (p : Nat) (b : List Byte) (s : State) : State :=
  if ¬ s.flt.vintnerUp ∨ ¬ bit s 0x00100004 0 ∨ 4 ≤ p ∨ 1 < (keysOf s p).st then s
  else
    let s1 := if (keysOf s p).st = 0 then beginPairing p s else s
    match helloFault s1 p b with
    | some e => pairFail p e s1
    | none => answerHello p b s1

/-- P_HELLO_RX (R412). -/
def execPHelloRx (port : Nat) (body : List Byte) (s : State) : Host.Outcome State Fault Refusal := .next (helloRx port body s)

/-- P-HELLO is sent every 1,000 ticks until the partner's is counted; the first begins the attempt. -/
def helloRepeat (p : Nat) (s : State) : State :=
  let k := keysOf s p
  if ¬ s.flt.vintnerUp ∨ ¬ bit s 0x00100004 0 ∨ 4 ≤ p ∨ ¬ hasPartner s p then s
  else if k.st = 0 then beginPairing p s
  else if k.st = 1 ∧ k.helloTick + 1000 ≤ s.tick then sendHello p s
  else s

/-- P_HELLO_REPEAT (R412). -/
def execPHelloRepeat (port : Nat) (s : State) : Host.Outcome State Fault Refusal := .next (helloRepeat port s)

/-- h, the transcript hash. -/
def transcript (k : PortKeys) (encapRx : List Byte) : List Byte :=
  shake256 (hellos k ++ (if k.initiator then k.encap ++ encapRx else encapRx ++ k.encap)) 64

/-- The first vintages of both directions; pms and h live no longer than this (R399, R400). -/
def firstKeys (p : Nat) (encapRx ssPartner : List Byte) (s : State) : State :=
  let k := keysOf s p
  let h := transcript k encapRx
  let ss := if k.initiator then k.ssOwn ++ ssPartner else ssPartner ++ k.ssOwn
  let pms := shake256 (ascii "VX6416 line" ++ ss ++ h) 64
  let d := txDir k
  let tv := firstVs pms d
  let rv := firstVs pms (1 - d)
  let conf := fun role => shake256 (ascii "VX6416 confirm" ++ pms ++ h ++ [byte role]) 32
  sendPair p ([3] ++ conf d) (updKeys p (fun x =>
    { x with st := 3, stepTick := s.tick, ssOwn := [], confirm := conf (1 - d), txCounters := [], txCount := 1, txVs := tv,
             txKeys := [(1, vintageKey tv)], txBlocks := 0, txSince := s.tick, rxCount := 1, rxVs := rv,
             rxKeys := [(1, vintageKey rv)], rxNext := false, window := none }) s)

/-- A P-ENCAP is verified and decapsulated. -/
def encapRx (p : Nat) (b : List Byte) (s : State) : State :=
  let k := keysOf s p
  let ct := slice b 1 1568
  if ¬ s.flt.vintnerUp ∨ k.st ≠ 2 then s
  else if b.length ≠ 2849 ∨
      ¬ Config.falconVerify (certKey (chainLeaf (pHelloChain k.helloRx))) (shake256 (hellos k ++ ct) 64) (slice b 1569 1280) then
    pairFail p 6 s
  else firstKeys p b (Config.kemDecaps k.kemSeed ct) s

/-- P_ENCAP_RX (R412). -/
def execPEncapRx (port : Nat) (body : List Byte) (s : State) : Host.Outcome State Fault Refusal := .next (encapRx port body s)

/-! ### A pairing completes (R415, R601) -/

/-- Instances with rows in a port's ring. -/
def ringInsts (s : State) (p : Nat) : List (Nat × Nat) :=
  ((portTribs s p).map fun e => e.2.ring.map fun r => (r.2.part.group, r.2.part.inst)).flatten

/-- Both directions of an exchange tributary start from LINE_SEQ 0 again. -/
def Trib.restart (t : Trib) : Trib :=
  { Trib.fresh t.port t.queue t.engine t.window with just := t.just, rxPieces := t.rxPieces, rxPtr := t.rxPtr, rxStream := none }

/-- The tributaries of a port at a new pairing: kept, or restarted with their instances ending in DEVICE_FAULT (R415). -/
def restartTribs (p : Nat) (keep : Bool) (s : State) : State :=
  let each := fun (f : Trib → Trib) (a : State) =>
    a.mapLine fun l => { l with tribs := mmap l.tribs fun n t => if t.port = p ∧ 4 ≤ n then f t else t }
  if keep then each (fun t => { t with resend := t.ring.map (·.1), tx := [] }) s
  else
    let s0 := s.mapLine fun l => { l with rxWait := l.rxWait.filter fun b => b.port != p }
    let s1 := (ringInsts s0 p).foldl (fun a g => askAbort g.1 g.2 4 0x0403 0 0 a) s0
    updPartner p (fun x => { x with
      holds := []
      states := (x.states.take 1).map fun e => (e.1.map fun f => (f.1, 0), e.2) }) (ringEval (each Trib.restart s1))

/-- The groups that a kept SITE-STATE names. -/
def stateGroups (m : CtlMsg) : List Nat :=
  let n := m.fields.getD 1 0
  (List.range n).map fun i => m.fields.getD (2 + 2 * i) 0

/-- A kept message as it leaves: a SITE-STATE carries the state that holds now (R601). -/
def refreshKept (p : Nat) (s : State) (m : CtlMsg) : CtlMsg :=
  if m.ty ≠ 0x30 then m
  else
    let gs := (stateGroups m).filterMap fun g =>
      match ((groupOf s g).bind (·.current)).bind fun t => farOfPort t p with
      | some f => some [g, maskMinus (absentMask s g) f.2.coveredSites]
      | none => none
    { m with fields := 4 :: gs.length :: gs.flatten ++ ((fromSeqs s p).map fun e => [e.1, e.2]).flatten }

/-- The control tributary at a new pairing: numbered from 0, its blocks discarded, what R601 keeps sent again. -/
def restartControl (p : Nat) (s : State) : State :=
  let x := partnerOf s p
  let ms := ((x.ctlRing.map (·.2)).flatten ++ x.ctlQueue).filter CtlMsg.isKept ++ x.kept
  let s1 := updPartner p (fun y =>
    { y with ctlQueue := (y.ctlQueue.filter fun m => m.ty == 0x60) ++ ms.map (refreshKept p s), kept := [], ctlRing := [],
             ctlNext := 0, ctlTimed := none, paired := true, lastGood := s.tick, digestTick := s.tick + 1, await := none,
             compared := y.compared && !y.linkDown }) s
  updTrib p (fun t => { t.restart with rxStream := t.rxStream }) s1

/-- The port is paired. -/
def paired (p : Nat) (s : State) : State :=
  let k := keysOf s p
  let keep := k.newId == k.partnerId && k.newStart == k.partnerStart
  let s1 := updKeys p (fun x =>
    { x with st := 4, fails := 0, lastFail := 0, confirm := [], partnerId := x.newId, partnerStart := x.newStart,
             framesArrive := false }) s
  let s2 := restartControl p (restartTribs p keep s1)
  let s3 := updPartner p (fun y => { y with level := min 1 k.level }) s2
  happenedNow 14 (bump 0x00100050 (raise 0x1A02 [p] s3))

/-- A P-CONFIRM: the value completes the pairing, another ends the attempt. -/
def confirmRx (p : Nat) (b : List Byte) (s : State) : State :=
  let k := keysOf s p
  if ¬ s.flt.vintnerUp ∨ k.st ≠ 3 then s
  else if b = [3] ++ k.confirm then paired p s
  else pairFail p 7 s

/-- P_CONFIRM_RX (R412). -/
def execPConfirmRx (port : Nat) (body : List Byte) (s : State) : Host.Outcome State Fault Refusal := .next (confirmRx port body s)

/-- A step unanswered within 500,000 ticks and the round trip, or a pairing not complete in time, ends the attempt. -/
def pairTimeout (p : Nat) (s : State) : State :=
  let k := keysOf s p
  if (k.st = 2 ∨ k.st = 3) ∧ k.stepTick + 500000 + rttP s p ≤ s.tick ∧ s.flt.vintnerUp then pairFail p 8 s else s

/-- PAIRING_TIMEOUT (R414). -/
def execPairingTimeout (port : Nat) (s : State) : Host.Outcome State Fault Refusal := .next (pairTimeout port s)

/-- The back-off wait is over. -/
def pairRetry (p : Nat) (s : State) : State :=
  let k := keysOf s p
  if k.st = 5 ∧ k.retryAt ≤ s.tick ∧ s.flt.vintnerUp ∧ bit s 0x00100004 0 then beginPairing p s else s

/-- PAIRING_RETRY (R414). -/
def execPairingRetry (port : Nat) (s : State) : Host.Outcome State Fault Refusal := .next (pairRetry port s)

/-- A paired port pairs again where the device may do so of itself (R415); a pairing waits for the Vintner (R424). -/
def repair (p : Nat) (s : State) : State :=
  if (keysOf s p).st = 4 ∧ bit s 0x00100004 1 then
    if s.flt.vintnerUp then beginPairing p s
    else updPartner p (fun x => { x with paired := false }) (updKeys p (fun k => { k with st := 0, racking := none }) s)
  else s

/-- No block has passed check 6 for 2,000 ticks while frames arrive. -/
def repairNoBlock (p : Nat) (s : State) : State :=
  if (keysOf s p).framesArrive ∧ (partnerOf s p).lastGood + 2000 ≤ s.tick then repair p s else s

/-- REPAIR_NO_BLOCK (R415). -/
def execRepairNoBlock (port : Nat) (s : State) : Host.Outcome State Fault Refusal := .next (repairNoBlock port s)

/-! ### Racking (R402 to R407) -/

/-- Is a racking due? -/
def rackDue (s : State) (p : Nat) : Bool :=
  let k := keysOf s p
  k.st == 4 && k.racking.isNone && decide (k.txSince + 65536 ≤ s.tick) &&
    (decide (k.txSince + rackPeriod s ≤ s.tick + (rttP s p + rackLead s)) || decide (2 ^ 30 ≤ k.txBlocks))

/-- Reseal every ring block of the oldest vintage under the current one, each with a new counter (R407). -/
def reseal (p old : Nat) (s : State) : State :=
  (portTribs s p).foldl (fun a e =>
    let n := (e.2.ring.filter fun r => r.2.vcount == old).length
    updKeys p (fun k => { k with
      txCounters := mupdD k.txCounters e.2.engine 0 (· + n), txBlocks := k.txBlocks + n })
      (updTrib e.1 (fun t => { t with ring := mmap t.ring fun _ r =>
        if r.vcount = old then { r with vcount := (keysOf s p).txCount } else r }) a)) s

/-- Reseal where the racking would leave three older vintages in the ring. -/
def resealOldest (p : Nat) (s : State) : State :=
  match ringCounts s p with
  | a :: _ :: _ :: _ => pruneTxKeys p (reseal p a s)
  | _ => s

/-- The body of a racking message (R404). -/
def rackBody (sub dir count switch kcv : Nat) : List Byte :=
  [byte sub, byte dir, 0, 0] ++ beBytes 8 count ++ beBytes 4 switch ++ beBytes 8 kcv

/-- Begin racking: derive the next vintage and announce its switch edge. -/
def rackBegin (p : Nat) (s : State) : State :=
  if ¬ rackDue s p then s
  else
    let s0 := resealOldest p s
    let k := keysOf s0 p
    let v := nextVs k.txVs k.txCount
    let e := s.tick + rttP s p + rackLead s
    sendCtl p 0x50 [] (rackBody 1 (txDir k) (k.txCount + 1) e (vintageKcv v)) (updKeys p (fun x =>
      { x with txVs := v, txKeys := mset x.txKeys (x.txCount + 1) (vintageKey v), racking := some e }) s0)

/-- RACKING_BEGIN (R402). -/
def execRackingBegin (port : Nat) (s : State) : Host.Outcome State Fault Refusal := .next (rackBegin port s)

/-- The switch edge S. -/
def rackSwitch (p : Nat) (s : State) : State :=
  let k := keysOf s p
  if k.racking.any fun e => decide (e ≤ s.tick) then
    bump 0x0010004C (raise 0x1A01 [p, txDir k] (pruneTxKeys p (updKeys p (fun x =>
      { x with txCount := x.txCount + 1, txBlocks := 0, txSince := s.tick, racking := none }) s)))
  else s

/-- RACK_SWITCH (R403). -/
def execRackSwitch (port : Nat) (s : State) : Host.Outcome State Fault Refusal := .next (rackSwitch port s)

/-- An ANNOUNCE: the next vintage is derived and its check value compared (R405). One for a vintage already current is checked
alike and answered; any other count does nothing. -/
def announceRx (p dir count kcv : Nat) (s : State) : State :=
  let k := keysOf s p
  if k.st ≠ 4 ∨ dir ≠ 1 - txDir k ∨ ¬ (count = k.rxCount + 1 ∨ (count = k.rxCount ∧ ¬ k.rxNext)) then s
  else
    let s1 := if count = k.rxCount + 1 then deriveRx p s else s
    if vintageKcv (keysOf s1 p).rxVs = kcv then sendCtl p 0x50 [] (rackBody 2 dir count 0 kcv) s1
    else repair p (raise 0x8A04 [p] s1)

/-- ANNOUNCE_RX (R405). -/
def execAnnounceRx (port dir count kcv : Nat) (s : State) : Host.Outcome State Fault Refusal :=
  .next (policed port (announceRx port dir count kcv) s)

/-- RACK_READY_RX (R404): the sender switches at S whether or not READY arrives, so a READY that the bucket passes changes
nothing else. -/
def execRackReadyRx (port : Nat) (s : State) : Host.Outcome State Fault Refusal := .next (policed port (fun a => a) s)

/-- The window of the previous vintage closes and its key is erased. -/
def windowClose (p : Nat) (s : State) : State :=
  if (keysOf s p).window.any fun t => decide (t ≤ s.tick) then
    updKeys p (fun k => { k with window := none, rxKeys := mfilter k.rxKeys fun c _ => decide (k.rxCount ≤ c) }) s
  else s

/-- VINTAGE_WINDOW_CLOSE (R406). -/
def execVintageWindowClose (port : Nat) (s : State) : Host.Outcome State Fault Refusal := .next (windowClose port s)

/-! ### The utility engine's lock (R418, R419) -/

/-- Change the lock. -/
def updUce (f : Uce → Uce) (s : State) : State := s.mapSec fun k => { k with uce := f k.uce }

/-- Grant the engine. -/
def Uce.grant (u : Uce) (r tick : Nat) : Uce :=
  { u with owner := r, busy := false, pending := putBits u.pending (r - 1) 1 0, gen := (u.gen + 1) % 256, opTick := tick }

/-- One honoured claim: a free engine is granted, a held one makes the claimant wait. -/
def Uce.claim (u : Uce) (r tick : Nat) : Uce :=
  if u.owner = 0 then u.grant r tick else { u with pending := putBits u.pending (r - 1) 1 1 }

/-- The engine passes to the waiting requester of the lowest code, or is free. -/
def Uce.pass (u : Uce) (tick : Nat) : Uce :=
  match firstFrom 3 0 (bitOf u.pending) with
  | some i => { u with owner := 0 }.grant (i + 1) tick
  | none => { u with owner := 0, busy := false }

/-- Claims of one clock, as source and code: those whose code is their source count, the lowest first. -/
def uceClaims (claims : List (Nat × Nat)) (s : State) : State :=
  let ok := fun (c : Nat × Nat) => c.1 == c.2 && decide (1 ≤ c.2) && decide (c.2 ≤ 3)
  let good := sortRising ((claims.filter ok).map (·.2))
  let bad := (claims.filter fun c => !ok c).length
  bumpBy 0x00340054 bad (updUce (fun u => good.foldl (fun a r => a.claim r s.tick) u) s)

/-- UCE_CLAIM (R419). -/
def execUceClaim (claims : List (Nat × Nat)) (s : State) : Host.Outcome State Fault Refusal := .next (uceClaims claims s)

/-- A release applies only when it comes from the owner with the GEN in force. -/
def uceRelease (src gen : Nat) (s : State) : State :=
  if src ≠ 0 ∧ s.sec.uce.owner = src ∧ s.sec.uce.gen = gen then updUce (fun u => u.pass s.tick) s else s

/-- UCE_RELEASE (R419). -/
def execUceRelease (src gen : Nat) (s : State) : Host.Outcome State Fault Refusal := .next (uceRelease src gen s)

/-- SEC_UCE_TIMEOUT in force. -/
def uceLimit (s : State) : Nat := max 500 (regVal s 0x0010001C)

/-- An owner that starts no operation in time, or whose operation runs for 2,000 ticks, loses the lock. -/
def uceTimeout (s : State) : State :=
  let u := s.sec.uce
  let late := if u.busy then decide (u.opTick + 2000 ≤ s.tick) else decide (u.opTick + uceLimit s ≤ s.tick)
  if u.owner ≠ 0 ∧ late then bump 0x00100064 (raise 0x4A03 [u.owner] (updUce (fun x => x.pass s.tick) s)) else s

/-- UCE_LOCK_TIMEOUT (R419). -/
def execUceLockTimeout (s : State) : Host.Outcome State Fault Refusal := .next (uceTimeout s)

end Sys2Proof.Machine
end

