-- ==== Sys2Proof/Machine/PmOps.lean ====
section
/-! DEFINITION. Performance monitoring bins (R357 to R360): what every other line operation counts into. -/

namespace Sys2Proof.Machine

open Sys2Proof

/-- The scope of an exchange tributary: scopes 0 to 4 are lanes. -/
def tribScope (t : Nat) : Nat := 16 + t

/-- Counters of a scope's record, in the order of R357: 20 for a lane, 11 for a tributary. -/
def scopeCounters (scope : Nat) : Nat := if scope < 16 then 20 else 11

/-- Start of the bin that holds a second of the time counter: a quarter of an hour, or a day. -/
def binStart (kind sec : Nat) : Nat := if kind = 0 then sec / 900 * 900 else sec / 86400 * 86400

/-- A bin begins: SUSPECT where it begins less than 10 s after power-on, or time is not valid (R359). A lane's list ends with the sum
and number of its Q samples. -/
def PmBin.new (s : State) (scope kind : Nat) : PmBin :=
  { scope := scope, kind := kind, start := binStart kind s.time.sec,
    suspect := decide (s.tick < s.line.pmStart + 5000000) || !s.time.valid,
    counts := List.replicate (if scope < 16 then 22 else 11) 0, reported := [] }

/-- The running bin of a scope and kind. -/
def binOf (s : State) (scope kind : Nat) : Option PmBin := s.line.bins.find? fun b => b.scope == scope && b.kind == kind

/-- Replace the first bin that passes a test. -/
def replaceFirst {α : Type} (p : α → Bool) (y : α) : List α → List α
  | [] => [y]
  | x :: l => if p x then y :: l else x :: replaceFirst p y l

/-- Store the running bin of its scope and kind. -/
def putBin (b : PmBin) (s : State) : State :=
  let same : PmBin → Bool := fun x => x.scope == b.scope && x.kind == b.kind
  s.mapLine fun l => { l with bins := if l.bins.any same then replaceFirst same b l.bins else b :: l.bins }

/-- The key of a threshold. -/
def threshKey (scope counter kind : Nat) : Nat := (scope * 64 + counter) * 2 + kind

/-- A counter of a running bin reaches its threshold: one event per bin (R360). -/
def pmThreshold (scope kind : Nat) (s : State) : State :=
  match binOf s scope kind with
  | none => s
  | some b =>
    if ¬ bit s 0x00094014 1 then s
    else
      (List.range (scopeCounters scope)).foldl (fun a i =>
        match mget a.line.thresholds (threshKey scope i kind) with
        | some n =>
          if (n : Int) ≤ b.counts.getD i 0 ∧ ¬ ((binOf a scope kind).any fun c => c.reported.contains i) then
            let a1 := raise 0x4805 [scope, i] a
            match binOf a1 scope kind with
            | some c => putBin { c with reported := i :: c.reported } a1
            | none => a1
          else a
        | none => a) s

/-- Change the counters of a scope's running bins. -/
def pmUpdate (scope : Nat) (f : List Int → List Int) (s : State) : State :=
  if ¬ bit s 0x00094014 0 then s
  else
    (List.range 2).foldl (fun a k =>
      let b := (binOf a scope k).getD (PmBin.new a scope k)
      pmThreshold scope k (putBin { b with counts := f b.counts, suspect := b.suspect || !a.flt.vintnerUp } a)) s

/-- Add to one counter. -/
def pmAdd (scope i n : Nat) (s : State) : State := if n = 0 then s else pmUpdate scope (fun l => l.set i (l.getD i 0 + (n : Int))) s

/-- Indices of the counters that rows add to. -/
def pmRetx (scope : Nat) : Nat := if scope < 16 then 10 else 9
/-- Blocks sent, of a tributary. -/
def pmSent : Nat := 7
/-- Blocks received, of a tributary. -/
def pmReceived : Nat := 8
/-- Tag failures, of a tributary. -/
def pmTag : Nat := 10
/-- Justifications: positive sent, negative sent, positive received, negative received. -/
def pmJust (scope k : Nat) : Nat := if scope < 16 then 6 + k else 3 + k

/-- A second of a scope that has seen nothing. -/
def PmSecond.zero : PmSecond :=
  { errored := false, badStreak := 0, goodStreak := 0, unavailable := false, frames := 0, badFrames := 0,
    defect := false, goodErr := 0 }

/-- Change the running second of a scope. -/
def updSecond (scope : Nat) (f : PmSecond → PmSecond) (s : State) : State :=
  s.mapLine fun l => { l with seconds := mupdD l.seconds scope PmSecond.zero f }

/-- One frame of a lane, or one block of a tributary, in the running second. -/
def pmFrame (scope : Nat) (bad : Bool) (s : State) : State :=
  updSecond scope (fun x => { x with frames := x.frames + 1, badFrames := x.badFrames + b2n bad, errored := x.errored || bad }) s

/-- A block of a tributary that is resent or fails. -/
def pmBadBlock (scope : Nat) (s : State) : State :=
  updSecond scope (fun x => { x with badFrames := x.badFrames + 1, errored := true }) s

/-- A defect of a lane in the running second. -/
def pmDefect (scope : Nat) (s : State) : State := updSecond scope (fun x => { x with defect := true, errored := true }) s

end Sys2Proof.Machine
end

