-- ==== Sys2Proof/Machine/SelectRows.lean ====
section
/-! DEFINITION. Selecting and building line blocks (R23, R221, R246, R328, R336, R392 to R396, R430 to R434), and sampling the queues
(R441). -/

namespace Sys2Proof.Machine

open Sys2Proof

/-! ### Content (R213 to R221, R246) -/

/-- The classes that deep mode codes (R222). -/
def deepClass (c : Nat) : Bool := c == 0 || c == 1 || c == 6 || c == 7

/-- The blend that codes a partial toward a port, where one applies: none in a sealed or CODING 0 group, or in a class under
resynchronisation or raw hold, or toward an XH lane (R215). -/
def lineBlend (s : State) (p : LinePartial) : Option Blend :=
  if p.coding = 0 ∨ p.isSealed ∨ xhPort s p.port then none
  else
    match p.form.cls with
    | none => none
    | some c =>
      let b := bslot s (lOut p.port) c
      if b.rawHold ∨ b.rawCoding then none else b.current

/-- CMP_CTRL.DEEP_EN: at 0, CODING 2 groups use blend mode on the line. -/
def deepOn (s : State) : Bool := bit s 0x00140004 0

/-- What step 1 of R23 makes of a partial: content, coded blocks, raw blocks. -/
structure LineBody where
  bytes : List Byte
  coded : Nat
  rawBlocks : Nat

/-- A block of raw bytes. -/
def rawBlock (l : List Byte) : List Byte := blockHeader true false 0 l.length l.length l.length 0 ++ l

/-- Bytes without rows, in raw blocks of up to 4,096 B. -/
def opaqueBody (l : List Byte) : LineBody :=
  let ps := chunks 4096 l
  ⟨(ps.map rawBlock).flatten, 0, ps.length⟩

/-- The coded blocks of a partial, the tag of its source first; a partial with no content is one raw block of no bytes.
`deepOn` is CMP_CTRL.DEEP_EN. -/
def lineBody (deepOn : Bool) (b : Option Blend) (p : LinePartial) : LineBody :=
  let deep := deepOn && p.coding == 2 && p.form.cls.any deepClass
  let e := if p.form = .opaqueBytes then opaqueBody p.raw
    else let x := encodePayload p.form deep b p.count p.raw; ⟨x.1, x.2.1, x.2.2⟩
  let body := if p.raw.isEmpty then rawBlock [] else e.bytes
  ⟨((p.tag.map fun t => rawBlock (beBytes 4 t)).getD []) ++ body, e.coded, if b.isSome then e.rawBlocks else 0⟩

/-- The content that is encrypted: a sealed group's is padded with zeros to a multiple of 4,096 B (R246). -/
def encContent (p : LinePartial) (l : List Byte) : List Byte := if p.isSealed then padTo (4096 * ceilDiv l.length 4096) l else l

/-! ### Tributaries (R430, R431) -/

/-- Bytes selected for a tributary and not yet transmitted. -/
def txPending (t : Trib) : Nat := sumNat (t.tx.map fun b => b.2.length)

/-- May a tributary start a new block under the hold of R480? -/
def notHeld (s : State) (port n : Nat) (t : Trib) : Bool :=
  !((mget (partnerOf s port).holds n).any fun f => decide (f ≤ t.nextSeq))

/-- Can a tributary take a block of so many units? -/
def canTake (s : State) (units n : Nat) (t : Trib) : Bool :=
  decide (4 ≤ n) && decide (txPending t < containerBytes s n) && decide (outstanding t + units ≤ 48 * t.credit) &&
    notHeld s t.port n t

/-- The tributary a block of a queue goes on: bound to the queue first, then the fewest bytes waiting, then the lower TRIB. -/
def pickTrib (s : State) (port queue units : Nat) : Option Nat :=
  let pool := (schedOf s (port + 1)).active.pool
  let ok := (portTribs s port).filter fun e => canTake s units e.1 e.2 && (pool || e.2.queue == queue)
  let key : Nat × Trib → Nat := fun e => (if e.2.queue = queue then 0 else 2 ^ 64) + txPending e.2
  (sortByKey key ok).head?.map (·.1)

/-! ### Selection (R433 to R435) -/

/-- The head of a line queue as a partial. -/
def lineHead (s : State) (port q : Nat) : Option LinePartial :=
  match headItem s (port + 1) q with
  | some (.line p) => some p
  | _ => none

/-- Units of the block that a partial makes now. -/
def partialUnits (s : State) (p : LinePartial) : Nat := blockUnits (encContent p (lineBody (deepOn s) (lineBlend s p) p).bytes).length

/-- Counted length of a line queue's head. -/
def lineHeadLen (s : State) (port q : Nat) : Nat :=
  match lineHead s port q with
  | some p => countedLen (schedOf s (port + 1)) (16 * partialUnits s p)
  | none => 0

/-- Is a line queue eligible? -/
def lineEligible (s : State) (port q : Nat) : Bool :=
  match lineHead s port q with
  | some p => (schedOf s (port + 1)).permitted q && (pickTrib s port q (partialUnits s p)).isSome
  | none => false

/-- May the port start exchange blocks: paired, its vintage open (R396), the ring below BP (R257), no fatal stop (R518)? -/
def portOpen (s : State) (port : Nat) : Bool :=
  decide (port < 4) && (keysOf s port).st == 4 && vintageOpen (keysOf s port) && !s.cellar.ringBp && !s.flt.fatal

/-- FLAGS of a partial's block. -/
def partFlags (p : LinePartial) : Nat := 2 * b2n p.isSealed + 4 * b2n p.must

/-- Encrypt and map one transmission of a block; `front` puts it ahead of new blocks (R432). -/
def transmit (n seq : Nat) (r : RingBlock) (resent : Bool) (s : State) : State :=
  match tribOf s n with
  | none => s
  | some t =>
    let p := r.part
    let c := encContent p r.content
    let b := sealBlock t.port t.engine
      { kind := 1, group := p.group, epoch := p.epoch, inst := p.inst, first := p.chunk, seq := seq, hash := p.hash, trib := n,
        decl := r.content.length, chunks := 1, flags := partFlags p + b2n resent } c s
    updTrib n (fun x =>
      let begun := x.tx.filter (·.1)
      let rest := x.tx.filter fun y => !y.1
      { x with tx := if resent then begun ++ [(false, b.1)] ++ rest else x.tx ++ [(false, b.1)] }) b.2

/-- A block that the engine refuses: discarded before the ring copy, and its instance ends (R395). -/
def refuseBlock (p : LinePartial) (s : State) : State :=
  askAbort p.group p.inst 4 0x0403 0 0 (bump 0x00100048 (raise 0x8A02 [p.port, p.group, p.inst] s))

/-- Steps 2 to 4 of R23 for a selected partial on a tributary. -/
def buildBlock (n : Nat) (p : LinePartial) (s : State) : State :=
  match tribOf s n with
  | none => s
  | some t =>
    let b := lineBlend s p
    let body := lineBody (deepOn s) b p
    let len := (encContent p body.bytes).length
    let s0 := bumpBy 0x00140040 body.coded (bumpBy 0x00140044 body.rawBlocks s)
    let s1 := if p.coding = 0 ∨ p.isSealed then s0 else countSymbols (lOut p.port) p.form p.count p.raw s0
    if len = 0 ∨ 65536 < len then refuseBlock p s1
    else
      let r : RingBlock :=
        { part := p, content := body.bytes, encLen := len, vcount := (keysOf s p.port).txCount
          blend := if body.coded = 0 then 0 else (b.map (·.id)).getD 0, sentTick := s.tick, timed := false }
      let s2 := updTrib n (fun x => { x with nextSeq := t.nextSeq + 1, ring := mset x.ring t.nextSeq r }) s1
      pmFrame (tribScope n) false (pmAdd (tribScope n) pmSent 1 (ringEval (transmit n t.nextSeq r false s2)))

/-- A tributary of a port can take a block: one is selected, coded, encrypted, copied to the ring and mapped. A shadow sends
none (R496). -/
def lineSelect (port : Nat) (s : State) : State :=
  if ¬ portOpen s port then s
  else
    match selectQueue (lineEligible s port) (lineHeadLen s port) (schedOf s (port + 1)) with
    | (none, c) => updSched (port + 1) (fun _ => c) s
    | (some q, c) =>
      match lineHead s port q with
      | none => s
      | some p =>
        let pick := pickTrib s port q (partialUnits s p)
        let s1 := takeHead (port + 1) q (lineHeadLen s port q) (updSched (port + 1) (fun _ => c) s)
        match (if isShadow s then none else pick) with
        | some n => buildBlock n p s1
        | none => s1

/-- LINE_BLOCK_SELECT (R430). -/
def execLineBlockSelect (port : Nat) (s : State) : Host.Outcome State Fault Refusal := .next (lineSelect port s)

/-! ### Sampling (R441) -/

/-- The counted length of a queued item. -/
def itemLen (s : State) (n : Nat) (it : EItem) : Nat :=
  countedLen (schedOf s n) (match it with
    | .line p => 16 * partialUnits s p
    | _ => itemBytes s it)

/-- Depth of a queue: the counted lengths of all it holds. -/
def queueDepth (s : State) (n q : Nat) : Nat := sumNat (((schedOf s n).queue q).items.map fun it => itemLen s n it.2)

/-- Sample one queue: depth and head delay in ns (a tick is 2,000 ns). -/
def sampleQueue (n q : Nat) (s : State) : State :=
  let w := match ((schedOf s n).queue q).items.head? with
    | some it => (s.tick - it.1) * 2000
    | none => 0
  let d := queueDepth s n q
  updSched n (fun c => c.updQueue q fun e => { e with
    depthHist := binAdd e.depthHist (histBin d (2 ^ fld s 0x001C0008 16 5))
    delayHist := binAdd e.delayHist (histBin w (2 ^ fld s 0x001C0008 21 5)) }) s

/-- The samples of an edge whose tick count is a multiple of the period. -/
def queueSample (s : State) : State :=
  if s.tick % fld1 s 0x001C0008 0 16 ≠ 0 then s
  else
    ((List.range 80).foldl (fun a i =>
      if (schedOf a (i / 16)).sampledTick = s.tick ∧ s.tick ≠ 0 then a else sampleQueue (i / 16) (i % 16) a) s).mapQos fun v =>
      v.map fun c => { c with sampledTick := s.tick }

/-- QUEUE_SAMPLE (R441). -/
def execQueueSample (s : State) : Host.Outcome State Fault Refusal := .next (queueSample s)

/-! ### Resends (R25, R240, R339, R340) -/

/-- The form in which a ring copy is resent: raw where its class is coded raw or its blend is no longer held. -/
def resendForm (s : State) (r : RingBlock) : RingBlock :=
  if r.blend = 0 then r
  else
    match r.part.form.cls with
    | none => r
    | some c =>
      let b := bslot s (lOut r.part.port) c
      let held := (b.current.toList ++ b.previous.toList ++ b.older).any fun x => x.id == r.blend
      if b.rawHold ∨ b.rawCoding ∨ b.resync ∨ xhPort s r.part.port ∨ ¬ held then
        let y := lineBody false none r.part
        { r with content := y.bytes, encLen := (encContent r.part y.bytes).length, blend := 0 }
      else r

/-- Resend one ring copy under the current vintage with a new counter (R25). -/
def resendBlock (n seq : Nat) (s : State) : State :=
  match tribOf s n with
  | none => s
  | some t =>
    match mget t.ring seq with
    | none => s
    | some r0 =>
      let r := { resendForm s r0 with sentTick := s.tick, vcount := (keysOf s t.port).txCount }
      let s1 := updTrib n (fun x => { x with ring := mset x.ring seq r, resend := x.resend.filter (· != seq) }) s
      let lane := tribLane s t.port n
      bump (laneReg lane 0x068) (pmBadBlock (tribScope n)
        (pmAdd lane (pmRetx lane) 1 (pmAdd (tribScope n) (pmRetx (tribScope n)) 1 (transmit n seq r true s1))))

end Sys2Proof.Machine
end

