-- ==== Sys2Proof/Machine/TimeRows.lean ====
section
/-! DEFINITION. The commands of time and clocks: PTP, steps, references, the crystal, holdover, pulses (R444 to R473). -/

namespace Sys2Proof.Machine

open Sys2Proof

/-! ### PTP (R464 to R466) -/

/-- Is a PTP message of a domain and transport processed? One of another domain or of a transport that is off is discarded
and counted. -/
def ptpIn (domain transport : Nat) (f : State → State) (s : State) : State :=
  if ¬ bit s 0x00020004 1 then s
  else if domain ≠ fld s 0x00020038 0 8 ∨ ¬ bitOf (fld s 0x00020038 8 3) transport then bump 0x00020090 s
  else f s

/-- 500,000 ticks a second times a power of two, at least one tick. -/
def logTicks (log : Int) : Nat :=
  if 0 ≤ log then 500000 * 2 ^ log.toNat else max 1 (500000 / 2 ^ (-log).toNat)

/-- The data set comparison of the best master clock algorithm: is `a` better than `b`? -/
def betterMaster (a b : PtpMaster) : Bool :=
  let key := fun (m : PtpMaster) => [m.priority1, m.clockClass, m.accuracy, m.variance, m.priority2, m.gmIdentity]
  let lt := fun (x y : List Nat) =>
    ((List.zip x y).foldl (fun (r : Option Bool) p => match r with
      | some _ => r
      | none => if p.1 < p.2 then some true else if p.2 < p.1 then some false else none) none).getD false
  if a.gmIdentity = b.gmIdentity then
    lt [a.stepsRemoved, a.identity, a.portNumber] [b.stepsRemoved, b.identity, b.portNumber]
  else lt (key a) (key b)

/-- May a clock heard of be the master: two Announce messages within four intervals, and fewer than 255 steps away? -/
def qualifiedMaster (tick : Nat) (m : PtpMaster) : Bool :=
  decide (m.stepsRemoved < 255) &&
    decide (2 ≤ (m.announces.filter fun t => decide (tick ≤ t + 4 * logTicks m.logAnnounce)).length)

/-- The best clock heard of. -/
def bestMaster (s : State) : Option PtpMaster :=
  (s.time.masters.filter (qualifiedMaster s.tick)).foldl (fun b m => match b with
    | some x => if betterMaster m x then some m else b
    | none => some m) none

/-- No exchange is under way. -/
def PtpEx.none_ : PtpEx := { syncSeq := none, t1 := none, t2 := none, cs := 0, reqSeq := 0, t3 := none, nextReq := 0 }

/-- The best master may have changed (R466). -/
def followMaster (s : State) : State :=
  let b := bestMaster s
  let s1 := s.mapTime fun t => { t with master := b }
  let ident : Option PtpMaster → Option Nat := fun m => m.map fun x => x.identity
  if ident b = ident s.time.master ∨ b.isNone = true then s1
  else
    let s2 := raise 0x1C02 [] (bump 0x00020088 (s1.mapTime fun t => { t with
      ptp := { PtpEx.none_ with reqSeq := t.ptp.reqSeq, nextReq := s.tick } }))
    if timeSource s = 1 then requalify s2 else s2

/-- Is an entry the same clock's port? -/
def sameClock (a b : PtpMaster) : Bool := a.identity == b.identity && a.portNumber == b.portNumber

/-- An Announce message of a clock. -/
def announceIn (m : PtpMaster) (s : State) : State :=
  let old := ((s.time.masters.find? (sameClock m)).map (·.announces)).getD []
  let e := { m with announces := s.tick :: old.take 7 }
  followMaster (s.mapTime fun t => { t with masters := t.masters.filter (fun x => !sameClock m x) ++ [e] })

/-- PTP_ANNOUNCE (R464). -/
def execPtpAnnounce (domain transport : Nat) (m : PtpMaster) (s : State) : Host.Outcome State Fault Refusal :=
  .next (rxFrame (ptpIn domain transport (announceIn m)) s)

/-- ANN_TIMEOUT in intervals: values below 2 are treated as 2. -/
def annTimeout (s : State) : Nat := max 2 (fld s 0x00020038 16 4)

/-- The current master has not been heard for its announce receipt timeout. -/
def announceTimeout (s : State) : State :=
  match s.time.master with
  | none => s
  | some m =>
    match s.time.masters.find? (sameClock m) with
    | some e =>
      if e.announces.headD 0 + annTimeout s * logTicks e.logAnnounce ≤ s.tick then
        followMaster (s.mapTime fun t => { t with masters := t.masters.filter fun x => !sameClock m x })
      else s
    | none => followMaster s

/-- ANNOUNCE_RECEIPT_TIMEOUT (R464). -/
def execAnnounceReceiptTimeout (s : State) : Host.Outcome State Fault Refusal := .next (announceTimeout s)

/-- Is a message from the master in force? -/
def fromMaster (s : State) (identity port : Nat) : Bool :=
  s.time.master.any fun m => m.identity == identity && m.portNumber == port

/-- The corrected receive stamp of a frame `off` after the edge, in 2^−16 ns (R308, R465). -/
def rxStamp (s : State) (off : Nat) : Int := ((s.time.counter / 2 ^ 32 + off : Nat) : Int) - (fld s 0x0002003C 0 16 * 2 ^ 16 / 10 : Nat)

/-- A Sync message: t2, and t1 where it is one-step (R465). -/
def syncIn (identity port seq : Nat) (twoStep : Bool) (t1 : Nat) (corr : Int) (off : Nat) (s : State) : State :=
  if ¬ fromMaster s identity port then bump 0x00020090 s
  else s.mapTime fun t => { t with ptp := { t.ptp with
    syncSeq := if twoStep then some seq else none
    t1 := if twoStep then none else some t1
    t2 := some (rxStamp s off).toNat
    cs := corr } }

/-- PTP_SYNC (R465): stamps in 2^−16 ns. -/
def execPtpSync (domain transport identity port seq : Nat) (twoStep : Bool) (t1 : Nat) (corr : Int) (off : Nat) (s : State) :
    Host.Outcome State Fault Refusal :=
  .next (rxFrame (ptpIn domain transport (syncIn identity port seq twoStep t1 corr off)) s)

/-- A Follow_Up supplies t1 of a two-step Sync. -/
def followUpIn (identity port seq t1 : Nat) (corr : Int) (s : State) : State :=
  if ¬ fromMaster s identity port ∨ s.time.ptp.syncSeq ≠ some seq then bump 0x00020090 s
  else s.mapTime fun t => { t with ptp := { t.ptp with syncSeq := none, t1 := some t1, cs := t.ptp.cs + corr } }

/-- PTP_FOLLOW_UP (R465). -/
def execPtpFollowUp (domain transport identity port seq t1 : Nat) (corr : Int) (s : State) : Host.Outcome State Fault Refusal :=
  .next (rxFrame (ptpIn domain transport (followUpIn identity port seq t1 corr)) s)

/-- A Delay_Req is due at the master's interval: it enters Q0, and is stamped as it leaves (R427, R464). -/
def delayReq (s : State) : State :=
  match s.time.master with
  | none => s
  | some m =>
    if ¬ bit s 0x00020004 1 ∨ s.tick < s.time.ptp.nextReq then s
    else
      let n := (s.time.ptp.reqSeq + 1) % 2 ^ 16
      enqueue 0 0 (.other (.delayReq n)) (s.mapTime fun t => { t with
        ptp := { t.ptp with reqSeq := n, t3 := none, nextReq := s.tick + logTicks m.logMinDelayReq } })

/-- DELAY_REQ_SEND (R464). -/
def execDelayReqSend (s : State) : Host.Outcome State Fault Refusal := .next (delayReq s)

/-- A Delay_Resp completes a sample (R465): θ, with the asymmetry in ps. -/
def delayRespIn (identity port seq t4 : Nat) (corr : Int) (s : State) : State :=
  if ¬ fromMaster s identity port ∨ s.time.ptp.reqSeq ≠ seq then bump 0x00020090 s
  else
    match s.time.ptp.t1, s.time.ptp.t2, s.time.ptp.t3 with
    | some t1, some t2, some t3 =>
      let asym : Int := signExt 32 (regVal s 0x00020040) * 2 ^ 16 / 1000
      let lat : Int := (fld s 0x0002003C 16 16 * 2 ^ 16 / 10 : Nat)
      let there : Int := (t2 : Int) - t1 - s.time.ptp.cs
      let back : Int := (t4 : Int) - (t3 + lat) - corr
      let s1 := s.mapTime fun t => { t with ptp := { t.ptp with t1 := none, t2 := none, t3 := none } }
      if timeSource s = 1 then servoSample ((there - back) / 2 - asym / 2) s1 else s1
    | _, _, _ => s

/-- PTP_DELAY_RESP (R465). -/
def execPtpDelayResp (domain transport identity port seq t4 : Nat) (corr : Int) (s : State) : Host.Outcome State Fault Refusal :=
  .next (rxFrame (ptpIn domain transport (delayRespIn identity port seq t4 corr)) s)

/-! ### Steps, validity, holdover (R457, R458, R462, R463) -/

/-- TIME_STEP_APPLY (R462). -/
def execTimeStepApply (s : State) : Host.Outcome State Fault Refusal := .next (applyStep s)

/-- No accepted sample for 1,500,000 ticks. -/
def holdover (s : State) : State :=
  if (s.time.servo = 1 ∨ s.time.servo = 2) ∧ s.time.lastAccepted + 1500000 ≤ s.tick then raise 0x4C02 [] (setServo 3 s) else s

/-- HOLDOVER_ENTRY (R458). -/
def execHoldoverEntry (s : State) : Host.Outcome State Fault Refusal := .next (holdover s)

/-- TMS_HOLDOVER in ticks: a value below 500,000 is treated as 500,000. -/
def holdoverLimit (s : State) : Nat := max 500000 (regVal s 0x00020020)

/-- Out of LOCKED for the holdover limit, time stops being valid. -/
def timeInvalid (s : State) : State :=
  if s.time.valid ∧ s.time.outSince.any (fun t => decide (t + holdoverLimit s ≤ s.tick)) then
    raise 0x8C01 [] (s.mapTime fun t => { t with valid := false })
  else s

/-- TIME_INVALID (R463). -/
def execTimeInvalid (s : State) : Host.Outcome State Fault Refusal := .next (timeInvalid s)

/-- A write to TMS_SRC: a new source requalifies; 6 and 7 leave the field unchanged. -/
def sourceWrite (v : Nat) (s : State) : State :=
  let x := v % 8
  if 5 < x then bump 0x00340054 s
  else if x = timeSource s then s
  else requalify (regSet 0x0002000C x s)

/-- TIME_SOURCE_WRITE (R457). -/
def execTimeSourceWrite (value : Nat) (s : State) : Host.Outcome State Fault Refusal := .next (sourceWrite value s)

/-- A write to TMS_CTRL.SERVO_EN: FREE when cleared; when set the servo qualifies samples of its source (R458). -/
def servoEnWrite (on : Bool) (s : State) : State :=
  let s1 := fldSet 0x00020004 0 1 (b2n on) s
  if on = bit s 0x00020004 0 then s1 else requalify s1

/-- SERVO_EN_WRITE (R458). -/
def execServoEnWrite (on : Bool) (s : State) : Host.Outcome State Fault Refusal := .next (servoEnWrite on s)

/-! ### Pulses (R471, R472) -/

/-- A write to TMS_PULSEk_CTRL: START and PERIOD take effect, and the next pulse is the first at least 100 ns away; a MODE of 3
leaves MODE unchanged and is counted (R566). -/
def pulseWrite (k v : Nat) (s : State) : State :=
  let a := pulseReg k 0
  let mode := if v % 4 = 3 then fld s a 0 2 else v % 4
  let s0 := regSet a (mode + v / 4 % 4 * 4) s
  let s1 := if v % 4 = 3 then bump 0x00340054 s0 else s0
  let start := regVal s (pulseReg k 4) + regVal s (pulseReg k 8) * 2 ^ 32
  let period := regVal s (pulseReg k 0xC) + regVal s (pulseReg k 0x10) * 2 ^ 32
  let p : Pulse := { mode := mode, start := start, period := period, next := none }
  let late := decide (mode = 1) && (firstPulse p s.time.v).isNone
  skipPulses k (b2n late) (s1.mapTime fun t => { t with pulses := vupd t.pulses k fun _ => { p with next := firstPulse p t.v } })

/-- PULSE_MODE_WRITE (R472). -/
def execPulseModeWrite (k value : Nat) (s : State) : Host.Outcome State Fault Refusal := .next (pulseWrite k value s)

/-- A pulse whose time falls within this tick is emitted, unless GATE holds it while time is not valid. -/
def pulseEdge (k : Nat) (s : State) : State :=
  let p := vget s.time.pulses k Pulse.off
  match p.next with
  | none => s
  | some n =>
    if timeDiff ((s.time.counter + tickAdvance s.time.f) / 2 ^ 48 % 2 ^ 64) n ≤ 0 then s
    else
      let s1 := if bit s (pulseReg k 0) 2 ∧ ¬ s.time.valid then s else s.emit (.pulse k n (regVal s (pulseReg k 0x14)) (bit s (pulseReg k 0) 3))
      s1.mapTime fun t => { t with pulses := vupd t.pulses k fun x => { x with
        next := if x.mode = 2 then some ((n + x.period) % 2 ^ 64) else none } }

/-- PULSE_EDGE (R471). -/
def execPulseEdge (k : Nat) (s : State) : Host.Outcome State Fault Refusal := .next (pulseEdge k s)

/-! ### References and the crystal (R445 to R450) -/

/-- REF_MISSING_EDGES (R446). -/
def execRefMissingEdges (ref : Nat) (s : State) : Host.Outcome State Fault Refusal :=
  .next (refFail ref (updRef ref (fun x => { x with windows := 0 }) s))

/-- Is a deviation in 0.1 ppm within ±200 ppm? -/
def within200 (d : Int) : Bool := decide (-2000 ≤ d) && decide (d ≤ 2000)

/-- The end of a window for one reference: the deviations of both against the crystal, and of this one against the other. -/
def judgeRef (r : Nat) (dev other vsOther : Int) (otherGood : Bool) (s : State) : State :=
  let s1 := updRef r (fun x => { x with
    vsXtal := clampInt dev (-32767) 32767, vsOther := clampInt vsOther (-32767) 32767 }) s
  if within200 dev then
    if (refOf s r).ok then s1
    else
      let n := (refOf s r).windows + 1
      let good := decide (fld1 s 0x0001000C 0 16 ≤ n)
      let s2 := updRef r (fun x => { x with windows := n, ok := good }) s1
      if good then autoRevert (happenedNow 17 s2) else s2
  else if otherGood ∧ within200 vsOther ∧ ¬ within200 other then updRef r (fun x => { x with windows := 0 }) s1
  else refFail r (updRef r (fun x => { x with windows := 0 }) s1)

/-- Both references deviate from the crystal and agree with each other: the crystal is suspect. -/
def xtalSuspect (s : State) (a b ab : Int) : Bool :=
  !within200 a && !within200 b && within200 ab && ((refOf s 0).ok || (refOf s 1).ok)

/-- The end of a window of 65,536 crystal cycles: deviations in 0.1 ppm of REFA and REFB against the crystal and of REFA
against REFB. -/
def refWindow (a b ab : Int) (s : State) : State :=
  let s1 := if xtalSuspect s a b ab then bump 0x00010048 (raise 0x4D01 [] s) else s
  judgeRef 1 b a (-ab) (refOf s 0).ok (judgeRef 0 a b ab (refOf s 1).ok s1)

/-- REF_WINDOW_END (R446). -/
def execRefWindowEnd (devA devB devAB : Int) (s : State) : Host.Outcome State Fault Refusal := .next (refWindow devA devB devAB s)

/-- The crystal is stable: firmware selects a good reference by preference (R445, R447). -/
def xtalStable (s : State) : State :=
  let s1 := s.mapTime fun t => { t with xtalOk := true, xtalFailed := false }
  match preferred s1 with
  | some p => if s1.time.source = 2 then selectSource p s1 else s1
  | none => s1

/-- XTAL_STABLE (R445). -/
def execXtalStable (s : State) : Host.Outcome State Fault Refusal := .next (xtalStable s)

/-- The crystal fails (R450). -/
def xtalFail (s : State) : State :=
  let s1 := s.mapTime fun t => { t with xtalOk := false, xtalFailed := true }
  if s.time.source = 2 then raise 0xCD01 [] s1 else raise 0x4D01 [] s1

/-- XTAL_FAIL (R445). -/
def execXtalFail (s : State) : Host.Outcome State Fault Refusal := .next (xtalFail s)

/-- SOURCE_SELECT_WRITE (R447): the value of CLK_CTRL.SELECT. -/
def execSourceSelectWrite (value : Nat) (s : State) : Host.Outcome State Fault Refusal :=
  .next (if value % 4 = 0 then s else selectSource (value % 4 - 1) s)

end Sys2Proof.Machine
end

