-- ==== Sys2Proof/Machine/RegRead.lean ====
section
/-! DEFINITION. What a register reads as: fields that show the device's state, the two copies of scheduler settings, and fields that
latch (R10 to R14, R84, R248, R282, R283, R318, R361, R391, R418, R425, R443, R474, R475, R502, R532, R556, R558). -/

namespace Sys2Proof.Machine

open Sys2Proof

/-! ### Packing fields -/

/-- Fields given as low bit, width and value, packed. -/
def packed (l : List (Nat × Nat × Nat)) : Nat := sumNat (l.map fun f => f.2.2 % 2 ^ f.2.1 * 2 ^ f.1)

/-- One bit per index below `n` that passes. -/
def maskOf (n : Nat) (p : Nat → Bool) : Nat := sumNat ((List.range n).map fun i => b2n (p i) * 2 ^ i)

/-- A signed field: its two's complement. -/
def sgnField (w : Nat) (i : Int) : Nat := twosComp w i

/-- A signed value held at the extremes of a width. -/
def heldAt (w : Nat) (i : Int) : Int := clampInt i (-(2 ^ (w - 1) : Nat)) ((2 ^ (w - 1) : Nat) - 1)

/-! ### PRS, CMP -/

/-- PRS_STATUS. -/
def prsStatus (s : State) : Nat :=
  let d := dieOf s
  packed [(0, 1, b2n s.press.running), (1, 4, maskOf 4 fun i => decide (0 < (d i).lostClusters)),
    (5, 1, b2n !(vget s.press.treeFaulty 0 false)), (6, 1, b2n !(vget s.press.treeFaulty 1 false)),
    (7, 4, maskOf 4 fun i => (d i).budget == floorBudget s)]

/-- Registers of one die, by offset. -/
def dieReg (s : State) (i off : Nat) : Option Nat :=
  let d := dieOf s i
  if off = 0 then some (packed [(0, 10, d.measDw), (16, 5, d.budget / 64)])
  else if off = 4 then
    some (packed [(0, 5, d.spareClusters), (8, 5, d.coresUsed.foldl (fun n e => min n (16 - e.2)) 16), (16, 11, d.lostClusters)])
  else if off = 8 then
    some (packed [(0, 3, d.spareTx), (3, 3, d.spareRx), (6, 7, min d.dataTx d.dataRx), (13, 1, b2n d.retrainEnd.isSome)])
  else if off = 16 then some (packed [(0, 8, d.maxC), (8, 6, d.hotSensor), (16, 7, d.excluded.length)])
  else none

/-- Blend tables held by a slot. -/
def BSlot.held (b : BSlot) : Nat :=
  b.current.toList.length + b.previous.toList.length + b.pending.toList.length + b.staged.toList.length + b.install.toList.length +
    b.older.length + b.candidate.toList.length + b.offer.toList.length

/-- CMP_STATUS. -/
def cmpStatus (s : State) : Nat :=
  let any := fun (p : Nat → BSlot → Bool) => b2n (s.cmp.any fun e => p (e.1 / 8) e.2)
  packed [(0, 1, any fun _ b => b.resync), (1, 1, any fun _ b => b.rawHold),
    (2, 1, any fun c b => decide (2 ≤ c) && (b.offer.isSome || b.pending.isSome || b.switchSeqs.isSome)),
    (3, 1, b2n (s.host.streams.any fun e => e.2.rawRequired)), (16, 9, sumNat (s.cmp.map fun e => e.2.held))]

/-- CMP_SLOT_STATE of a context and class. -/
def slotState (s : State) (ctx cls : Nat) : Nat :=
  let b := bslot s ctx cls
  let host := decide (ctx < 2)
  let id := fun (o : Option Blend) => (o.map (·.id)).getD 0
  let waiting := if b.pending.isSome then b.pending else if b.offer.isSome then b.offer.map (·.blend)
    else if b.install.isSome then b.install else b.staged
  let st := if b.rawHold then 4 else if b.resync then 3
    else if (if host then b.previous.isSome else b.switchSeqs.isSome) then 2
    else if waiting.isSome then 1 else 0
  packed [(0, 8, id b.current), (8, 8, id b.previous), (16, 8, id waiting), (24, 3, st), (27, 2, b.fails)]

/-! ### HST, CLR, MEM -/

/-- HST_STATUS. -/
def hstStatus (s : State) : Nat :=
  packed [(0, 1, b2n s.host.linkUp), (1, 1, b2n s.host.aligned), (2, 8, maskOf 8 fun p => (pfcOf s p).since.isSome),
    (10, 8, maskOf 8 fun p => (pfcOf s p).ignored)]

/-- CLR_STATUS. -/
def clrStatus (s : State) : Nat :=
  packed [(0, 8, maskOf 8 fun c => (caskCls s c).bp), (8, 8, maskOf 8 fun c => (caskCls s c).refuse), (16, 1, b2n s.cellar.ringBp),
    (17, 1, b2n s.cellar.reorderBp), (18, 1, b2n s.host.pfcSent), (19, 1, b2n (bit s 0x00180004 1 && creditsWithheld s))]

/-- CLR_CLASSn_OCC. -/
def classOcc (s : State) (c : Nat) : Nat :=
  let k := caskCls s c
  packed [(0, 23, k.used), (23, 1, b2n k.bp), (24, 1, b2n k.refuse)]

/-- A memory channel. -/
def chanOf (s : State) (c : Nat) : Channel := mgetD s.mem.channels c Channel.fresh

/-- MEM_STATUS. -/
def memStatus (s : State) : Nat :=
  let any := fun (p : Channel → Bool) => b2n ((List.range 64).any fun c => p (chanOf s c))
  packed [(0, 1, b2n ((List.range 64).all fun c => (chanOf s c).trained)), (1, 1, any fun k => decide (85 ≤ k.tempC)),
    (2, 1, any (·.halved)), (3, 1, any (·.lost))]

/-- Check groups of usable DRAM (R269, R274). -/
def gleanTotal : Nat := 0xD693A40000 / 256

/-- MEM_CHn_STATUS. -/
def chanStatus (s : State) (c : Nat) : Nat :=
  let k := chanOf s c
  packed [(0, 1, b2n k.trained), (1, 2, k.refresh), (3, 8, k.tempC), (11, 1, b2n k.halved), (12, 1, b2n k.retraining),
    (13, 2, min 2 k.fails), (15, 1, b2n k.lost)]

/-! ### QOS -/

/-- Scheduler copy that VIEW shows (R443). -/
def viewed (s : State) (n : Nat) : QSettings := if bit s 0x001C0004 0 then (schedOf s n).standby else (schedOf s n).active

/-- Is a queue of a scheduler eligible? -/
def queueEligible (s : State) (n q : Nat) : Bool := if n = 0 then hostEligible s q else lineEligible s (n - 1) q

/-- Registers of scheduler `n` by offset from its base. -/
def schedReg (s : State) (n off : Nat) : Option Nat :=
  let c := schedOf s n
  let v := viewed s n
  if off = 0 then some (packed [(0, 8, sgnField 8 v.overhead), (8, 9, v.quantum), (17, 1, b2n v.pool)])
  else if off = 4 then
    some (packed [(0, 16, maskOf 16 (queueEligible s n)),
      (16, 16, maskOf 16 fun q => !(c.queue q).items.isEmpty && !c.permitted q)])
  else if 0x100 ≤ off ∧ off < 0x300 then
    let q := (off - 0x100) / 0x20
    let k := (off - 0x100) % 0x20
    if k = 0 then some (v.rates.getD q 0)
    else if k = 4 then some (v.bursts.getD q 0)
    else if k = 8 then some (v.weights.getD q 0)
    else if k = 12 then some (min (2 ^ 32 - 1) (queueDepth s n q))
    else if k = 16 then some (sgnField 32 (c.queue q).tokens)
    else none
  else none

/-! ### FLT, CLK, TMS -/

/-- The RO fields of FLT_STATUS. -/
def fltStatus (s : State) : Nat :=
  let f := s.flt
  packed [(0, 1, b2n f.fatal), (1, 1, b2n (bit s 0x00340008 1)), (2, 2, maskOf 2 fun k => (f.barn[k]?).any (·.valid)),
    (4, 2, maskOf 2 fun k => (f.barn[k]?).any (·.read)), (6, 1, b2n (decide (95 ≤ f.holdupPct))), (7, 1, b2n f.ledgerFFull),
    (8, 1, f.vintnerActive), (9, 1, b2n f.vintnerSingle)]

/-- CLK_STATUS. -/
def clkStatus (s : State) : Nat :=
  packed [(0, 2, s.time.source), (2, 1, b2n (refOf s 0).ok), (3, 1, b2n (refOf s 1).ok), (4, 1, b2n s.time.xtalOk),
    (5, 1, b2n (sourceGood s s.time.source))]

/-- CLK_REFA_DEV and CLK_REFB_DEV: deviations held at ±32,767. -/
def refDev (s : State) (r : Nat) : Nat :=
  let x := refOf s r
  packed [(0, 16, sgnField 16 (clampInt x.vsXtal (-32767) 32767)), (16, 16, sgnField 16 (clampInt x.vsOther (-32767) 32767))]

/-- TMS_STATUS. -/
def tmsStatus (s : State) : Nat :=
  packed [(0, 3, s.time.servo), (3, 1, b2n s.time.valid), (8, 8, min 255 s.time.samples.length)]

/-- An offset in 2^−16 ns as signed ns held at its extremes. -/
def nsField (t : Int) : Nat := sgnField 32 (heldAt 32 (t / 65536))

/-- TMS_FREQ: f in 2^−8 ppb. -/
def freqField (f : Int) : Nat := sgnField 32 (heldAt 32 (f / 2 ^ 24))

/-! ### LNE, OPT, SEC -/

/-- Lanes blanked under R350, one bit each: the BLANK that a lane's slots show. -/
def blankMask (s : State) : Nat := maskOf 5 fun n => (laneOf s n).blanked

/-- LNE_STATUS. -/
def lneStatus (s : State) : Nat :=
  let ps := (List.range 4).map (lportOf s)
  packed [(0, 5, maskOf 5 fun n => (laneOf s n).degr != 0 || (laneOf s n).blanked),
    (5, 5, ps.foldl (fun m p => m ||| p.rdiRx) 0), (10, 1, b2n (ps.any fun p => p.offer.isSome)),
    (11, 1, b2n ((List.range 4).all fun p =>
      (lportOf s p).degrReady || !((List.range 5).any fun n => (lanePorts (laneOf s n)).contains p)))]

/-- LNE_LANEn_STATUS. -/
def laneStatus (s : State) (n : Nat) : Nat :=
  let l := laneOf s n
  packed [(0, 2, l.rate), (2, 1, l.fec), (3, 1, b2n (isAnchor l)), (4, 1, b2n l.spare), (5, 1, b2n l.txUp), (6, 1, b2n l.rxUp),
    (7, 1, b2n ((List.range 5).any fun k => (laneOf s k).degr == n + 1)), (8, 1, b2n l.blanked), (9, 3, l.phys)]

/-- LNE_LANEn_PAGE. -/
def lanePageReg (s : State) (n : Nat) : Nat :=
  let l := laneOf s n
  packed [(0, 8, (l.page.map pageId).getD 0), (8, 8, (l.standby.map pageId).getD 0), (16, 1, b2n l.standby.isSome), (17, 3, l.degr),
    (20, 5, blankMask s)]

/-- Sites absent through a port for any group. -/
def absentThrough (s : State) (p : Nat) : Nat :=
  s.coll.groups.foldl (fun m e => match e.2.current with
    | some t => (farRanks t).foldl (fun n f => if f.2.endpoint = p then n ||| (absentMask s e.1 &&& f.2.coveredSites) else n) m
    | none => m) 0

/-- LNE_PORTx_PARTNER. -/
def partnerReg (s : State) (p : Nat) : Nat :=
  let x := partnerOf s p
  packed [(0, 1, b2n x.linkDown), (1, 1, b2n x.disagree), (2, 1, b2n x.scopeFenced), (3, 8, absentThrough s p), (11, 8, x.level)]

/-- LNE_SHADOW. -/
def shadowReg (s : State) : Nat :=
  let x := s.sites.shadow
  packed [(0, 2, x.role), (2, 1, b2n x.eligible), (3, 17, min 65535 x.matched)]

/-- The logical lane that a physical lane bears, 7 when none. -/
def logicalOf (s : State) (n : Nat) : Nat :=
  ((List.range 5).find? fun k => (laneOf s k).phys == n && !(laneOf s k).spare).getD
    (((List.range 5).find? fun k => (laneOf s k).phys == n).getD 7)

/-- Is a physical lane the free spare? -/
def isFreeSpare (s : State) (n : Nat) : Bool :=
  (List.range 5).any (fun k => (laneOf s k).phys == n && (laneOf s k).spare) && !(physOf s n).txFailed && !(physOf s n).retired

/-- The free spare, where there is one. -/
def freeSpare (s : State) : Option Nat := (List.range 5).find? (isFreeSpare s)

/-- OPT_STATUS. -/
def optStatus (s : State) : Nat :=
  packed [(0, 5, maskOf 5 fun n => (physOf s n).locked), (5, 5, maskOf 5 fun n => (physOf s n).blanked),
    (10, 3, (freeSpare s).getD 7), (13, 1, b2n s.opt.swap.isSome)]

/-- Physical lanes whose stages are read every 10 µs (R377): the spare, and the anchor lanes of the two lowest-lettered ports
that have one. -/
def fullMonLanes (s : State) : List Nat :=
  (freeSpare s).toList ++ (((List.range 4).filterMap (portAnchor s)).take 2).map fun n => (laneOf s n).phys

/-- Are a lane's stages read every 10 µs? -/
def fullMon (s : State) (n : Nat) : Bool := (fullMonLanes s).contains n

/-- Registers of a physical lane, by offset. -/
def physReg (s : State) (n off : Nat) : Option Nat :=
  let x := physOf s n
  let k := logicalOf s n
  let st := fun i => (i * 8, 8, sgnField 8 (x.stages.getD i 0))
  if off = 0 then
    some (packed [(0, 2, if k < 5 then (laneOf s k).rate else 0), (2, 1, if k < 5 then (laneOf s k).fec else 0), (3, 3, k),
      (6, 1, b2n (isFreeSpare s n)), (7, 1, b2n x.txFailed), (8, 1, b2n x.rxLos), (9, 1, b2n x.rxLof), (10, 1, b2n x.blanked),
      (11, 1, b2n (fullMon s n)), (12, 3, x.lossStage), (15, 1, b2n x.retired)])
  else if off = 4 then some (packed [(0, 16, x.txChannel), (16, 16, x.loChannel)])
  else if off = 8 then some (packed [(0, 10, fld s (0x000C0008 + n * 0x2000) 0 10), (16, 10, sgnField 10 x.measPwr)])
  else if off = 0x0C then some (packed [(0, 12, x.biasTx), (12, 12, x.biasLo)])
  else if off = 0x10 then some (packed [(0, 12, x.rxSnr), (12, 12, sgnField 12 x.margin)])
  else if off = 0x14 then some (packed [st 0, st 1, st 2, st 3])
  else if off = 0x18 then
    some (packed [(0, 8, sgnField 8 (x.stages.getD 4 0)), (8, 8, sgnField 8 (x.stages.getD 5 0)), (16, 8, sgnField 8 x.loOut)])
  else if off = 0x1C then some (packed [(0, 16, sgnField 16 x.lockerOfs), (16, 16, sgnField 16 (x.coarseOfs / 10))])
  else if off = 0x20 then some (packed [(0, 12, x.bolTx), (12, 12, x.bolLo)])
  else none

/-- SEC_STATUS. -/
def secStatus (s : State) : Nat :=
  packed [(0, 4, maskOf 4 fun p => (keysOf s p).st == 4), (4, 4, maskOf 4 fun p => (keysOf s p).racking.isSome),
    (8, 1, b2n s.sec.anchor.isSome), (9, 1, b2n s.sec.enrolled)]

/-- Registers of a port's keys, by offset. -/
def portKeyReg (s : State) (p off : Nat) : Option Nat :=
  let k := keysOf s p
  let vb := fun c => if c = 0 then 0 else vintageByte c
  if off = 0 then
    some (packed [(0, 3, k.st), (3, 1, b2n k.initiator), (4, 4, k.lastFail), (8, 8, vb k.txCount), (16, 8, vb k.rxCount),
      (24, 1, b2n k.window.isSome), (25, 1, b2n k.rxNext)])
  else if off = 4 then some (k.txCount % 2 ^ 32)
  else if off = 8 then some (k.rxCount % 2 ^ 32)
  else if off = 0xC then some (min 65535 ((k.window.map fun w => w - s.tick).getD 0))
  else none

/-! ### BRU, MGT -/

/-- BRU_STATUS. -/
def bruStatus (s : State) : Nat :=
  let b := s.bru
  packed [(0, 1, b2n b.ready), (1, 1, b2n b.notReady), (2, 4, b.step), (6, 1, b2n b.stepped), (7, 1, b2n b.warm), (8, 1, b2n b.quick),
    (9, 1, b2n b.waiting)]

/-- BRU_REASONS: bit c − 1 for reason c. -/
def bruReasons (s : State) : Nat := maskOf 32 fun i => s.bru.reasons.any fun r => r.code == i + 1

/-- MGT_STATUS. -/
def mgtStatus (s : State) : Nat :=
  packed [(0, 1, b2n s.bru.ready), (1, 1, b2n s.flt.fatal), (2, 1, b2n s.mgt.sysLock), (3, 1, b2n s.mgt.ownerLock),
    (4, 1, b2n s.flt.vintnerUp), (5, 1, b2n s.mgt.recovery), (6, 1, b2n s.mgt.dead)]

/-- MGT_DOORBELL. -/
def mgtDoorbell (s : State) : Nat :=
  packed [(0, 8, maskOf 8 fun m => (mbxOf s m).waiting), (8, 8, maskOf 8 fun m => (mbxOf s m).resp.isSome)]

/-- MGT_UCE_LOCK (R418). -/
def uceLock (s : State) : Nat :=
  let u := s.sec.uce
  packed [(0, 2, u.owner), (2, 1, b2n u.busy), (3, 3, u.pending), (8, 8, u.gen)]

/-- State of a firmware slot. -/
def slotSt (s : State) (k : Nat) : Nat := ((s.mgt.slots[k]?).map (·.state)).getD 0

/-- MGT_FW. -/
def mgtFw (s : State) : Nat :=
  packed [(0, 1, s.mgt.active), (1, 3, slotSt s 0), (4, 3, slotSt s 1), (7, 1, b2n s.mgt.trial), (8, 1, b2n s.mgt.fellBack)]

/-! ### All blocks -/

/-- Is an address one of `n` registers at a base and stride? Its index. -/
def regIndex (a base stride n : Nat) : Option Nat :=
  if base ≤ a ∧ (a - base) % stride = 0 ∧ (a - base) / stride < n then some ((a - base) / stride) else none

/-- Window and offset of an address within `n` windows of a stride. -/
def regWindow (a base stride n : Nat) : Option (Nat × Nat) :=
  if base ≤ a ∧ (a - base) / stride < n then some ((a - base) / stride, (a - base) % stride) else none

/-- Registers of MGT, CLK and TMS that show state. -/
def liveLow (s : State) (a : Nat) : Option Nat :=
  let t := s.time
  match a with
  | 0x00000004 => some (beNat (ownId s) % 2 ^ 32)
  | 0x00000008 => some s.mgt.idHiLatch
  | 0x0000000C => some (mgtStatus s)
  | 0x00000014 => some (mgtDoorbell s)
  | 0x00000018 => some (uceLock s)
  | 0x0000001C => some (mgtFw s)
  | 0x00000020 => some s.mgt.fwVersion
  | 0x00010008 => some (clkStatus s)
  | 0x00010010 => some (refDev s 0)
  | 0x00010014 => some (refDev s 1)
  | 0x00020008 => some (tmsStatus s)
  | 0x00020024 => some t.nanos
  | 0x00020028 => some t.nowSecLatch
  | 0x0002002C => some t.nowHiLatch
  | 0x00020030 => some (nsField t.theta)
  | 0x00020034 => some (freqField t.f)
  | _ =>
    match regIndex a 0x00020104 0x10 4, regIndex a 0x00020108 0x10 4 with
    | some p, _ => some (nsField (((t.ports[p]?).map (·.theta)).getD 0))
    | _, some p => some (rttP s p % 2 ^ 24)
    | _, _ => none

/-- Registers of HST, LNE, OPT and SEC that show state. -/
def liveMid (s : State) (a : Nat) : Option Nat :=
  match a with
  | 0x00040008 => some (hstStatus s)
  | 0x00040010 => some s.host.macLo
  | 0x00040014 => some s.host.macHi
  | 0x00094008 => some (lneStatus s)
  | 0x00094088 => some (siloUsed s / 2 ^ 20)
  | 0x000940A0 => some (shadowReg s)
  | 0x000CA008 => some (optStatus s)
  | 0x00100008 => some (secStatus s)
  | _ =>
    match regIndex a 0x00094020 4 4, regIndex a 0x00094090 4 4 with
    | some p, _ => some (sgnField 32 (lportOf s p).delta)
    | _, some p => some (partnerReg s p)
    | none, none =>
      match regIndex a 0x00080000 0x4000 5, regIndex a 0x00080004 0x4000 5 with
      | some n, _ => some (laneStatus s n)
      | _, some n => some (lanePageReg s n)
      | none, none =>
        match regWindow a 0x000C0000 0x2000 5, regWindow a 0x00100100 0x20 4 with
        | some w, _ => physReg s w.1 w.2
        | _, some w => portKeyReg s w.1 w.2
        | none, none => none

/-- Registers of CMP, CLR, QOS and PRS that show state. -/
def liveHigh (s : State) (a : Nat) : Option Nat :=
  match a with
  | 0x00140008 => some (cmpStatus s)
  | 0x00140024 => some (slotState s (fld s 0x00140020 0 4) (fld s 0x00140020 4 3))
  | 0x00180008 => some (clrStatus s)
  | 0x00180018 => some (s.cellar.ringUsed / 2 ^ 20)
  | 0x0018001C => some (s.cellar.reorderUsed / 2 ^ 20)
  | 0x00200000 => some (packed [(0, 8, 1), (8, 4, diesEnabled s)])
  | 0x00200008 => some (prsStatus s)
  | 0x0020000C => some (logicalCores s)
  | 0x00200010 => some (s.tick % 2 ^ 32)
  | 0x00200014 => some s.press.tickHiLatch
  | _ =>
    match regIndex a 0x00180104 0x10 8, regIndex a 0x00180108 0x10 8 with
    | some c, _ => some (classOcc s c)
    | _, some c => some (max (caskCls s c).peak (caskCls s c).used)
    | none, none =>
      match regWindow a 0x001C1000 0x1000 5, regWindow a 0x01000000 0x400000 4 with
      | some w, _ => schedReg s w.1 w.2
      | _, some w => dieReg s w.1 w.2
      | none, none => none

/-- Registers of MEM, FLT and BRU that show state. -/
def liveTop (s : State) (a : Nat) : Option Nat :=
  let b := s.bru
  match a with
  | 0x00300008 => some (memStatus s)
  | 0x00300024 => some (packed [(0, 10, min 1000 (s.mem.gleanGroups * 1000 / gleanTotal)), (10, 22, s.mem.gleanPasses)])
  | 0x00300060 => some (s.mem.lastUe % 2 ^ 32)
  | 0x00300064 => some s.mem.lastUeLatch
  | 0x00340008 => some (fltStatus s)
  | 0x00340018 => some (s.flt.ledgerC.next % 2 ^ 32)
  | 0x0034001C => some (s.flt.ledgerF.next % 2 ^ 32)
  | 0x00340020 => some (s.flt.seq % 2 ^ 32)
  | 0x00340024 => some s.flt.seqLatch
  | 0x00340028 =>
    some (packed [(0, 8, s.flt.holdupPct), (8, 1, b2n (decide (95 ≤ s.flt.holdupPct))), (16, 16, s.flt.holdUs)])
  | 0x00380004 => some (packed [(0, 1, b2n b.recheckNext), (1, 1, b2n b.endWaitNext)])
  | 0x00380008 => some (bruStatus s)
  | 0x0038000C => some (b.straps % 32)
  | 0x00380014 => some (packed [(0, 4, b.lastStep), (4, 4, b.lastWave), (8, 2, b.result), (16, 16, b.detail)])
  | 0x0038001C => some (bruReasons s)
  | 0x00380020 => some (packed [(0, 1, b2n b.memFull), (1, 1, b2n b.memQuick), (2, 7, b.failChannels)])
  | 0x00380024 => some (packed [(0, 18, b.softCores.length), (18, 7, b.softClusters.length)])
  | _ => (regIndex a 0x00301000 0x10 64).map (chanStatus s)

/-- The value of a register whose fields show the device's state, where it is one. -/
def liveReg (s : State) (a : Nat) : Option Nat :=
  if a < 0x00040000 then liveLow s a
  else if a < 0x00140000 then liveMid s a
  else if a < 0x00300000 ∨ 0x01000000 ≤ a then liveHigh s a
  else liveTop s a

/-- The bits of a register that are write-only. -/
def woMask (fs : List FieldDef) : Nat :=
  sumNat ((fs.filter fun f => f.acc == .wo).map fun f => (2 ^ f.w - 1) * 2 ^ f.lo)

/-- What a read returns (R10, R11): the current value, write-only fields as 0; none where no register is defined. -/
def regRead (s : State) (a : Nat) : Option Nat :=
  (regFields a).map fun fs =>
    let v := (liveReg s a).getD (regVal s a)
    v - (v &&& woMask fs)

/-! ### What a read does (R13, R455) -/

/-- A read of a latching LO register latches its HI register. -/
def latchRead (a : Nat) (s : State) : State :=
  match a with
  | 0x00000004 => s.mapMgt fun g => { g with idHiLatch := beNat (ownId s) / 2 ^ 32 }
  | 0x00020024 => s.mapTime fun t => { t with
      nowSecLatch := t.sec % 2 ^ 32, nowHiLatch := t.sec / 2 ^ 32 % 2 ^ 16 + t.frac * 2 ^ 16 }
  | 0x00200010 => s.mapPress fun p => { p with tickHiLatch := s.tick / 2 ^ 32 % 2 ^ 32 }
  | 0x00300060 => s.mapMem fun m => { m with lastUeLatch := m.lastUe / 2 ^ 32 }
  | 0x00340020 => s.mapFlt fun f => { f with seqLatch := f.seq / 2 ^ 32 % 2 ^ 32 }
  | _ => s

/-- Is a register a counter that a read clears? -/
def isRc (a : Nat) : Bool := ((regFields a).getD []).any fun f => f.acc == .rc

/-- A read of an RC field clears it; the peak of a class starts anew. -/
def clearRead (a : Nat) (s : State) : State :=
  if ¬ isRc a then s
  else
    match regIndex a 0x00180108 0x10 8 with
    | some c => s.mapCellar fun x => { x with classes := vupd x.classes c fun y => { y with peak := 0 } }
    | none => regSet a 0 s

/-- Everything a read does to the device. -/
def readEffect (a : Nat) (s : State) : State := clearRead a (latchRead a s)

end Sys2Proof.Machine
end

