-- ==== Sys2Proof/Machine/MbxSys.lean ====
section
/-! DEFINITION. Mailbox commands of the sys. family (R174, R178, R179, R286, R496, R499, R516, R533, R549, R554, R564, R567). -/

namespace Sys2Proof.Machine

open Sys2Proof

/-! ### Regions as arguments (R560) -/

/-- The bytes an input command takes from a region: a stale handle or a range past its end answers RANGE, a length outside the
limit LENGTH, a word that cannot be delivered INVALID. -/
def regionArg (s : State) (h off len lo hi : Nat) : Except Nat (List Byte) :=
  match regionOf s h with
  | none => .error stRange
  | some r =>
    if len < lo ∨ hi < len then .error stLength
    else if r.size < off + len then .error stRange
    else if regionPoisoned s h off len then .error stInvalid
    else .ok (regionRead s h off len)

/-- Write a command's output to a region; the data is the length written. -/
def regionOut (h off : Nat) (d : List Byte) (s : State) : CmdRes :=
  match regionOf s h with
  | none => refuse stRange s
  | some r =>
    if r.size < off + d.length then refuse stLength s
    else if regionInUse s h then refuse stBusy s
    else doneWith (beBytes 4 d.length) (regionWrite h off d s)

/-! ### Identity, network, events -/

/-- What sys.identity returns. -/
def identityData (s : State) : List Byte :=
  beBytes 4 (regVal s 0) ++ ownId s ++ beBytes 4 s.mgt.fwVersion ++ chainLeaf (ownChain s)

/-- SYS_IDENTITY (R564). -/
def execSysIdentity (mbx : Nat) (s : State) : Host.Outcome State Fault Refusal :=
  .next (runCmd mbx 0x0101 (fun _ _ a => doneWith (identityData a) a) s)

/-- SYS_NET_SET (R286). -/
def execSysNetSet (mbx ipv4 ipv6 : Nat) (s : State) : Host.Outcome State Fault Refusal :=
  .next (runCmd mbx 0x0102 (fun _ _ a => done (a.mapHost fun h => { h with ipv4 := ipv4, ipv6 := ipv6 })) s)

/-- A subscription (R516): the retained records from a SEQ and class, oldest first, then every new one. -/
def subscribe (sid from_ cls : Nat) (s : State) : State :=
  let old := s.flt.ring.reverse.filter fun e => decide (from_ ≤ e.seq) && decide (cls ≤ evClass e.code)
  let s1 := old.foldl (fun a e => mbxSend sid 6 0 0 (e.toBytes true) a) s
  updSession sid (fun x => { x with sub := some (cls, max from_ (s.flt.seq + 1)) }) s1

/-- SYS_EVENT_SUBSCRIBE (R516). -/
def execSysEventSubscribe (mbx seq cls : Nat) (s : State) : Host.Outcome State Fault Refusal :=
  .next (runCmd mbx 0x0105 (fun _ sid a => done (subscribe sid seq cls a)) s)

/-! ### Commits (R174, R178, R179, R495) -/

/-- Ticks until the first local edge at or after a time of day (R174). -/
def ticksUntil (s : State) (at_ : Nat) : Nat :=
  let d := timeDiff at_ s.time.v * 2 ^ 48 - ((s.time.counter % 2 ^ 48 : Nat) : Int)
  if d ≤ 0 then 0 else ceilDiv d.toNat (tickAdvance s.time.f)

/-- The edge that a commit names. -/
def commitEdge (s : State) (byTime : Bool) (at_ : Nat) : Nat := if byTime then s.tick + ticksUntil s at_ else at_

/-- Transmit lanes whose standby page steers some slot to a port. -/
def standbyPort (s : State) (p : Nat) : Bool :=
  s.line.lanes.toList.any fun l => l.standby.any fun g =>
    (List.range 8).any fun k => !slotDark (pageSlot g k) && slotPort (pageSlot g k) == p

/-- Why an item cannot be committed, if it cannot: it is not staged, its page or blend is not readied, or its slot is
occupied (R178, R233, R345, R495). -/
def itemFault (s : State) (byTime : Bool) (i : StagedItem) : Option Nat :=
  match i with
  | .group g =>
    match (mget s.coll.groups g).bind (·.standby) with
    | none => some stRange
    | some t =>
      if byTime ∧ (farRanks t).any fun f => (partnerOf s f.2.endpoint).disagree then some stNotReady else none
  | .program p => if ((mget s.coll.programs p).bind (·.standby)).isSome then none else some stRange
  | .page p =>
    if ¬ standbyPort s p then some stRange
    else if (List.range 4).all fun q => !standbyPort s q || (lportOf s q).ready.isSome then none
    else some stNotReady
  | .blend ctx cls =>
    let b := bslot s ctx cls
    if ctx < 2 then
      if b.staged.isNone then some stRange else if b.previous.isSome then some stBusy else none
    else
      match b.offer with
      | some o => if o.origin ≠ 2 then some stRange else if o.accepted then none else some stNotReady
      | none => some stRange
  | .qos n => if n < 5 then none else some stRange

/-- The status of a commit, if it is refused. -/
def commitFault (s : State) (byTime : Bool) (at_ : Nat) (items : List StagedItem) : Option Nat :=
  if items.isEmpty ∨ 16 < items.length then some stMalformed
  else if byTime ∧ (¬ s.time.valid ∨ s.time.servo = 3 ∨ s.time.servo = 4) then some stNotReady
  else
    match items.findSome? (itemFault s byTime) with
    | some e => some e
    | none =>
      let e := commitEdge s byTime at_
      if e ≤ s.tick + 2 then some stLate else if s.tick + 500000000 < e then some stRange else none

/-- Numbers that name a staged item in a Ledger record: kind, first and second number. -/
def StagedItem.nums : StagedItem → List Nat
  | .group g => [0, g, 0]
  | .program p => [1, p, 0]
  | .page p => [2, p, 0]
  | .blend c k => [3, c, k]
  | .qos n => [4, n, 0]

/-- Accept a commit: it is named for its edge, recorded (KIND 6), and its number returned. -/
def acceptCommit (edge : Nat) (items : List StagedItem) (s : State) : CmdRes :=
  let id := s.coll.nextCommit
  let s1 := s.mapColl fun c => { c with commits := c.commits ++ [⟨id, edge, items⟩], nextCommit := id + 1 }
  let body := leBytes 4 id ++ leBytes 8 edge ++ (items.map fun i => (i.nums.map (leBytes 4)).flatten).flatten
  doneWith (beBytes 4 id) (ledgerWrite 6 0 body s1)

/-- sys.commit. -/
def sysCommit (byTime : Bool) (at_ : Nat) (items : List StagedItem) (s : State) : CmdRes :=
  match commitFault s byTime at_ items with
  | some e => refuse e s
  | none => acceptCommit (commitEdge s byTime at_) items s

/-- SYS_COMMIT (R178). -/
def execSysCommit (mbx : Nat) (byTime : Bool) (at_ : Nat) (items : List StagedItem) (s : State) : Host.Outcome State Fault Refusal :=
  .next (runCmd mbx 0x0103 (fun _ _ a => sysCommit byTime at_ items a) s)

/-- sys.withdraw. -/
def sysWithdraw (id : Nat) (s : State) : CmdRes :=
  match s.coll.commits.find? fun c => c.id == id with
  | some c =>
    if c.edge ≤ s.tick then refuse stLate s
    else done (s.mapColl fun k => { k with commits := k.commits.filter fun x => x.id != id })
  | none => refuse (if id < s.coll.nextCommit then stLate else stRange) s

/-- SYS_WITHDRAW (R179). -/
def execSysWithdraw (mbx id : Nat) (s : State) : Host.Outcome State Fault Refusal :=
  .next (runCmd mbx 0x0104 (fun _ _ a => sysWithdraw id a) s)

/-! ### Starts, readiness, manifest, lock -/

/-- SYS_RESET (R533): a warm start begins. -/
def execSysReset (mbx : Nat) (s : State) : Host.Outcome State Fault Refusal :=
  .next (runCmd mbx 0x0106 (fun _ _ a => done (a.mapMgt fun g => { g with startNext := true })) s)

/-- SYS_READY_REASONS (R554). -/
def execSysReadyReasons (mbx : Nat) (s : State) : Host.Outcome State Fault Refusal :=
  .next (runCmd mbx 0x0107 (fun _ _ a =>
    doneWith (beBytes 4 (bruStatus a) ++ (a.bru.reasons.map Reason.toBytes).flatten) a) s)

/-- Install a manifest (R549): what the check would give against it counts only while the device is READY. -/
def manifestInstall (region off len : Nat) (s : State) : CmdRes :=
  match regionArg s region off len 1 10856 with
  | .error e => refuse e s
  | .ok m =>
    if ¬ mfValid s m ∨ s.bru.manifest.any fun o => decide (mfield m 16 4 ≤ mfield o 16 4) then refuse stInvalid s
    else if s.bru.ready ∧ ¬ (reasonsAgainst s (some m)).isEmpty then refuse stNotReady s
    else
      let s1 := s.mapBru fun b => { b with manifest := some m }
      done ([3, 4, 5, 6, 7, 8, 13, 15, 16].foldl (fun a c => happenedNow c a) s1)

/-- SYS_MANIFEST_INSTALL (R549). -/
def execSysManifestInstall (mbx region off len : Nat) (s : State) : Host.Outcome State Fault Refusal :=
  .next (runCmd mbx 0x0108 (fun _ _ a => manifestInstall region off len a) s)

/-- SYS_MANIFEST_READ (R549). -/
def execSysManifestRead (mbx region off : Nat) (s : State) : Host.Outcome State Fault Refusal :=
  .next (runCmd mbx 0x0109 (fun _ _ a => match a.bru.manifest with
    | none => refuse stRange a
    | some m => regionOut region off m a) s)

/-- SYS_LOCK (R567). -/
def execSysLock (mbx : Nat) (s : State) : Host.Outcome State Fault Refusal :=
  .next (runCmd mbx 0x010D (fun _ _ a => done (a.mapMgt fun g => { g with lockNext := true })) s)

/-- SYSTEM_LOCK_APPLY (R567). -/
def execSystemLockApply (s : State) : Host.Outcome State Fault Refusal := .next (applyLock s)

/-! ### The shadow join (R496 to R499) -/

/-- A join that has just been named. -/
def Shadow.begin (role : Nat) (peer : List Byte) (src : Source) : Shadow :=
  { role := role, peer := peer, peerSrc := src, session := none, hello := none, nextReq := 1, eligible := false, matched := 0,
    mismatches := [], waiting := [], ticks := [], base := none, last := 0, own := [], fresh := [], promoteAt := none, outNext := [], promoted := false }

/-- The shadow, in the host's role, opens the session with the twin: its HELLO carries its device chain (R497). -/
def twinHello (s : State) : State :=
  let x := s.sites.shadow
  let r := s.takeFree
  let body := fixLen 1568 (Config.kemKey r.1) ++ ownChain s
  let whole := body ++ ownSign body
  let id := s.tick % 2 ^ 63 + 1
  sendFragments 1 0 id x.peerSrc whole (r.2.mapSites fun y => { y with shadow := { x with hello := some (id, r.1, whole) } })

/-- sys.shadow.join: the lasers are blanked while the device is a shadow. -/
def shadowJoin (peer : List Byte) (src : Source) (s : State) : CmdRes :=
  if s.sites.shadow.role ≠ 0 then refuse stBusy s
  else if ¬ s.sec.enrolled then refuse stNotReady s
  else
    let s1 := s.mapSites fun y => { y with shadow := Shadow.begin 1 (fixLen 8 peer) src }
    done (twinHello (s1.mapLine fun l => { l with lanes := l.lanes.map fun x => { x with txUp := false } }))

/-- SYS_SHADOW_JOIN (R496). -/
def execSysShadowJoin (mbx : Nat) (peer : List Byte) (src : Source) (s : State) : Host.Outcome State Fault Refusal :=
  .next (runCmd mbx 0x010A (fun _ _ a => shadowJoin peer src a) s)

/-- sys.shadow.accept. -/
def shadowAccept (peer : List Byte) (src : Source) (s : State) : CmdRes :=
  if s.sites.shadow.role ≠ 0 then refuse stBusy s
  else if ¬ s.sec.enrolled then refuse stNotReady s
  else done (s.mapSites fun y => { y with shadow := Shadow.begin 2 (fixLen 8 peer) src })

/-- SYS_SHADOW_ACCEPT (R496). -/
def execSysShadowAccept (mbx : Nat) (peer : List Byte) (src : Source) (s : State) : Host.Outcome State Fault Refusal :=
  .next (runCmd mbx 0x010B (fun _ _ a => shadowAccept peer src a) s)

/-- Are the exchange tributaries quiesced: nothing in the ring unacknowledged, nothing held, nothing on its way? -/
def tribsQuiet (s : State) : Bool :=
  s.line.tribs.all fun e => decide (e.1 < 4) || (e.2.ring.isEmpty && e.2.rxHeld.isEmpty && e.2.tx.isEmpty)

/-- Can this end of the join be promoted (R499)? -/
def promoteReady (s : State) : Bool :=
  if s.sites.shadow.role = 1 then s.sites.shadow.eligible
  else s.sites.shadow.role == 2 && s.coll.insts.isEmpty && tribsQuiet s && s.sites.silo.isEmpty

/-- sys.shadow.promote: `peerOk` is what the other end reports, that its own conditions hold and the digests agree. -/
def shadowPromote (at_ : Nat) (peerOk : Bool) (s : State) : CmdRes :=
  if ¬ promoteReady s ∨ ¬ peerOk then refuse stNotReady s
  else
    let s1 := s.mapSites fun y => { y with shadow := { y.shadow with promoteAt := some at_ } }
    if s.sites.shadow.role = 2 then
      done ((List.range 4).foldl (fun a p =>
        if (keysOf a p).st = 4 then sendCtl p 0x30 [6, beNat s.sites.shadow.peer, at_] [] a else a) s1)
    else done s1

/-- SYS_SHADOW_PROMOTE (R499). -/
def execSysShadowPromote (mbx at_ : Nat) (peerOk : Bool) (s : State) : Host.Outcome State Fault Refusal :=
  .next (runCmd mbx 0x010C (fun _ _ a => shadowPromote at_ peerOk a) s)

end Sys2Proof.Machine
end

