-- ==== Sys2Proof/Machine/MbxColl.lean ====
section
/-! DEFINITION. Mailbox commands of the grp., op., prog., cel. and mem. families (R130, R159 to R166, R173, R180 to R182, R198, R269,
R276, R277, R296, R316, R478, R565). -/

namespace Sys2Proof.Machine

open Sys2Proof

/-! ### Groups (R173, R180 to R182, R478) -/

/-- A member entry from its 16 bytes (R181). -/
def Member.ofBytes (l : List Byte) : Member :=
  let w := leAt l 0 4
  { endpoint := bitsOf w 0 16, far := bitOf w 16, site := bitsOf w 17 3, coveredSites := bitsOf w 20 8,
    coveredMembers := leAt l 4 4, stream := bitsOf (leAt l 8 4) 0 20 }

/-- A group table from its entry and member entries (R180). -/
def GroupTable.ofBytes (l : List Byte) (ms : List (List Byte)) : GroupTable :=
  let w := leAt l 4 4
  { group := leAt l 0 2, epoch := leAt l 2 2, valid := bitOf w 30, localSite := bitsOf w 13 3, sites := bitsOf w 16 8,
    policy := bitsOf w 24 2, primarySite := bitsOf w 26 3, isSealed := bitOf w 29, memberBase := bitsOf (leAt l 8 4) 0 20,
    timeout := leAt l 12 4, absenceTimeout := leAt l 16 2, fallowLimit := leAt l 20 4, srSeed := leAt l 24 8,
    constRegion := leAt l 32 4, members := ms.map Member.ofBytes }

/-- Are the reserved bits of a group table entry and its members clear, and POLICY and MEMBER_COUNT values that exist? -/
def tableForm (l : List Byte) (ms : List (List Byte)) : Bool :=
  l.length == 64 && ms.all (fun m => m.length == 16) && bitsOf (leAt l 4 4) 0 13 == ms.length && decide (1 ≤ ms.length) &&
    decide (ms.length ≤ 4096) && !bitOf (leAt l 4 4) 31 && bitsOf (leAt l 4 4) 24 2 != 3 && decide (leAt l 8 4 < 2 ^ 20) &&
    leAt l 18 2 == 0 && beAt l 52 12 == 0 &&
    ms.all fun m => decide (leAt m 0 4 < 2 ^ 28) && decide (leAt m 8 4 < 2 ^ 20) && leAt m 12 4 == 0

/-- Has a list no number twice? -/
def noRepeat : List Nat → Bool
  | [] => true
  | x :: l => !l.contains x && noRepeat l

/-- Do the masks of a list never overlap? -/
def disjointMasks : Nat → List Nat → Bool
  | _, [] => true
  | u, m :: l => (u &&& m) == 0 && disjointMasks (u ||| m) l

/-- Does a table pass R182 and R478, apart from the form of its entries? -/
def tableOk (s : State) (t : GroupTable) : Bool :=
  let loc := (localRanks t).map (·.2)
  let far := (farRanks t).map (·.2)
  !(decide (1 ≤ t.timeout) && decide (t.timeout ≤ 999)) && !(decide (1 ≤ t.absenceTimeout) && decide (t.absenceTimeout ≤ 249)) &&
    loc.all (fun m => m.site == t.localSite) && far.all (fun m => !bitOf m.coveredSites m.site) &&
    far.all (fun m => !bitOf m.coveredSites t.localSite) && disjointMasks 0 (far.map (·.coveredSites)) &&
    (far.foldl (fun u m => u ||| m.coveredSites) (siteBit t.localSite)) == t.sites && noRepeat (loc.map (·.endpoint)) &&
    far.all (fun m => decide (m.endpoint ≤ 3)) && noRepeat (far.map (·.endpoint)) &&
    loc.all (fun m => (mget s.host.streams m.stream).any fun c => c.endpoint == m.endpoint) &&
    decide (t.memberBase + t.members.length ≤ 1048576)

/-- grp.stage. -/
def groupStage (entry : List Byte) (members : List (List Byte)) (s : State) : CmdRes :=
  let t := GroupTable.ofBytes entry members
  let r := mgetD s.coll.groups t.group GroupRec.new
  if r.standby.isSome ∨ r.draining.isSome then refuse stBusy s
  else if ¬ tableForm entry members ∨ ¬ tableOk s t ∨ r.current.any (fun c => t.epoch != (c.epoch + 1) % 2 ^ 16) then
    refuse 0x0101 s
  else done (s.mapColl fun c => { c with groups := mset c.groups t.group { r with standby := some t } })

/-- GRP_STAGE (R173). -/
def execGrpStage (mbx : Nat) (entry : List Byte) (members : List (List Byte)) (s : State) : Host.Outcome State Fault Refusal :=
  .next (runCmd mbx 0x0201 (fun _ _ a => groupStage entry members a) s)

/-- The 64 bytes of a version of a group table (R180). -/
def groupBytes (r : GroupRec) (t : GroupTable) : List Byte :=
  leBytes 2 t.group ++ leBytes 2 t.epoch ++
    leBytes 4 (packed [(0, 13, t.members.length), (13, 3, t.localSite), (16, 8, t.sites), (24, 2, t.policy), (26, 3, t.primarySite),
      (29, 1, b2n t.isSealed), (30, 1, b2n t.valid)]) ++
    leBytes 4 t.memberBase ++ leBytes 4 t.timeout ++ leBytes 4 t.absenceTimeout ++ leBytes 4 t.fallowLimit ++ leBytes 8 t.srSeed ++
    leBytes 4 t.constRegion ++ leBytes 4 r.applyT ++ leBytes 4 r.applyP1 ++ leBytes 4 r.applyP2 ++ leBytes 4 r.lastCommitted ++
    List.replicate 12 0

/-- grp.read: each version held, current, standby and draining, after a byte that marks which it is. -/
def groupRead (g : Nat) (s : State) : CmdRes :=
  match mget s.coll.groups g with
  | none => refuse stRange s
  | some r =>
    let v := fun (k : Nat) (o : Option GroupTable) => (o.map fun t => [byte k, 0, 0, 0] ++ groupBytes r t).getD []
    let d := v 0 r.current ++ v 1 r.standby ++ v 2 r.draining
    if d.isEmpty then refuse stRange s else doneWith d s

/-- GRP_READ (R597). -/
def execGrpRead (mbx group : Nat) (s : State) : Host.Outcome State Fault Refusal :=
  .next (runCmd mbx 0x0202 (fun _ _ a => groupRead group a) s)

/-! ### Streams (R295, R296) -/

/-- A stream context as it opens. -/
def StreamCtx.fresh (endpoint : Nat) (v6 : Bool) (port addr inInit outInit tick : Nat) : StreamCtx :=
  { endpoint := endpoint, v6 := v6, peerPort := port, peerAddr := addr, peerMac := 0, inNext := inInit, inInit := inInit, held := [],
    outNext := outInit, outAcked := outInit, outInit := outInit, nack := none, refused := [], stalled := false, inPkts := 0, inDups := 0,
    nacksTx := 0, resendsTx := 0, rawRequired := false, decFails := 0, ackFrom := tick, ackOwed := false, retained := [],
    passedLaunch := [] }

/-- grp.stream.open. -/
def streamOpen (id endpoint : Nat) (v6 : Bool) (port addr inInit outInit : Nat) (s : State) : CmdRes :=
  if mhas s.host.streams id then refuse stBusy s
  else if 2 ^ 20 ≤ id ∨ 2 ^ 16 ≤ endpoint then refuse stRange s
  else
    let (mac, s1) := s.takeFree
    let c := StreamCtx.fresh endpoint v6 (port % 2 ^ 16) addr (inInit % 2 ^ 32) (outInit % 2 ^ 32) s.tick
    done (s1.mapHost fun h => { h with streams := mset h.streams id { c with peerMac := mac } })

/-- GRP_STREAM_OPEN (R296). -/
def execGrpStreamOpen (mbx stream endpoint : Nat) (v6 : Bool) (port addr inInit outInit : Nat) (s : State) :
    Host.Outcome State Fault Refusal :=
  .next (runCmd mbx 0x0203 (fun _ _ a => streamOpen stream endpoint v6 port addr inInit outInit a) s)

/-- Does any version of any group name a stream? -/
def streamNamed (s : State) (id : Nat) : Bool :=
  s.coll.groups.any fun e => (e.2.current.toList ++ e.2.standby.toList ++ e.2.draining.toList).any fun t =>
    t.members.any fun m => !m.far && m.stream == id

/-- grp.stream.close: the casks of packets held and kept are free again. -/
def streamClose (id : Nat) (s : State) : CmdRes :=
  match mget s.host.streams id with
  | none => refuse stRange s
  | some c =>
    if streamNamed s id then refuse stBusy s
    else
      let casks := (c.held.map fun e => e.2.2).flatten ++ (c.retained.map fun e => e.2.pkt.casks).flatten
      done (freeCasks casks (s.mapHost fun h => { h with streams := mdel h.streams id }))

/-- GRP_STREAM_CLOSE (R296). -/
def execGrpStreamClose (mbx stream : Nat) (s : State) : Host.Outcome State Fault Refusal :=
  .next (runCmd mbx 0x0204 (fun _ _ a => streamClose stream a) s)

/-! ### Instances (R129, R130, R198, R207, R565) -/

/-- The statistics block (R129), big-endian: each count stops at its largest value. -/
def Stats.toBytes (x : Stats) : List Byte :=
  let w := fun k n => beBytes k (min n (2 ^ (8 * k) - 1))
  w 8 x.rows ++ w 8 x.escRows ++ w 8 x.escRecords ++ w 4 x.l2Records ++ w 4 x.fwRows ++ w 4 x.fwPeak ++ w 4 x.overflow ++
    w 4 x.nanOut ++ w 4 x.sat ++ w 4 x.qsat ++ w 4 x.efReset ++ w 4 x.applyNonfinite ++ [0, 0, 0, 0]

/-- op.stat: a live instance shows STATUS 0xFFFF; reading the block of an ended one ends its keeping (R130). -/
def opStat (g i : Nat) (s : State) : CmdRes :=
  match instOf s g i with
  | some x =>
    let flags := b2n x.fallowDone + 2 * b2n x.catchup
    doneWith (endPayload i 0xFFFF flags (sumNat (x.delivered.map (·.2))) 0xFFFF x.detailKind x.detail ++ x.stats.toBytes) s
  | none =>
    match s.coll.ended.find? fun e => e.group == g && e.inst == i with
    | some e =>
      doneWith (endPayload i e.code (b2n e.fallow + 2 * b2n e.catchup) e.chunks e.origin e.detailKind e.detail ++ e.stats.toBytes)
        (s.mapColl fun c => { c with ended := c.ended.filter fun y => !(y.group == g && y.inst == i) })
    | none => refuse stRange s

/-- OP_STAT (R565). -/
def execOpStat (mbx group inst : Nat) (s : State) : Host.Outcome State Fault Refusal :=
  .next (runCmd mbx 0x0301 (fun _ _ a => opStat group inst a) s)

/-- The state of an instance as op.list shows it. -/
def InstPhase.num : InstPhase → Nat
  | .opened => 0
  | .committed => 1
  | .aborting => 2

/-- op.list: 8 B per live instance from a position on. -/
def opList (first : Nat) (s : State) : CmdRes :=
  let l := (s.coll.insts.drop first).take 508
  doneWith (l.map fun e => beBytes 2 e.2.group ++ [byte e.2.phase.num, 0] ++ beBytes 4 e.2.inst).flatten s

/-- OP_LIST (R564). -/
def execOpList (mbx first : Nat) (s : State) : Host.Outcome State Fault Refusal :=
  .next (runCmd mbx 0x0302 (fun _ _ a => opList first a) s)

/-- op.abort: HOST_ABORT at the next edge. -/
def opAbort (g i : Nat) (s : State) : CmdRes :=
  if (instOf s g i).isSome then done (askAbort g i 5 0x0402 0 0 s) else refuse stRange s

/-- OP_ABORT (R198). -/
def execOpAbort (mbx group inst : Nat) (s : State) : Host.Outcome State Fault Refusal :=
  .next (runCmd mbx 0x0303 (fun _ _ a => opAbort group inst a) s)

/-! ### Programs (R162 to R166) -/

/-- The status of a refusal of R162: 0x0401 on, in order of checking. -/
def ProgRefusal.status : ProgRefusal → Nat
  | .imageBad => 0x0401
  | .levelUnsupported => 0x0402
  | .encoding => 0x0403
  | .structure => 0x0404
  | .bounds => 0x0405
  | .costUnderdeclared => 0x0406
  | .rowOverBudget => 0x0407
  | .chunkOverBudget => 0x0408
  | .noRoom => 0x0409

/-- Every image resident: current, standby and kept for draining. -/
def residentImages (s : State) : List Image :=
  (s.coll.programs.map fun e => e.2.current.toList ++ e.2.standby.toList ++ e.2.draining).flatten

/-- prog.load. -/
def progLoad (id region off len : Nat) (s : State) : CmdRes :=
  if id = 0 ∨ 65535 < id then refuse stRange s
  else
    let r := mgetD s.coll.programs id ⟨none, none, []⟩
    match regionArg s region off len 1 9248 with
    | .error e => refuse e s
    | .ok l =>
      let img := Image.ofBytes l
      let all := residentImages s
      if r.standby.isSome then refuse stBusy s
      else
        match checkImage shake256 l with
        | some e => refuse e.status s
        | none =>
          if 16 < all.length + 1 ∨ 12288 < sumNat (all.map (·.lowered)) + img.lowered then refuse ProgRefusal.noRoom.status s
          else
            let r1 := if r.current.isSome then { r with standby := some img } else { r with current := some img }
            done (s.mapColl fun c => { c with programs := mset c.programs id r1 })

/-- PROG_LOAD (R162). -/
def execProgLoad (mbx id region off len : Nat) (s : State) : Host.Outcome State Fault Refusal :=
  .next (runCmd mbx 0x0401 (fun _ _ a => progLoad id region off len a) s)

/-- prog.unload. -/
def progUnload (id : Nat) (s : State) : CmdRes :=
  match mget s.coll.programs id with
  | none => refuse stRange s
  | some r =>
    if (r.current.toList ++ r.draining).any (imageInUse s) then refuse stBusy s
    else done (s.mapColl fun c => { c with programs := mdel c.programs id })

/-- PROG_UNLOAD (R166). -/
def execProgUnload (mbx id : Nat) (s : State) : Host.Outcome State Fault Refusal :=
  .next (runCmd mbx 0x0402 (fun _ _ a => progUnload id a) s)

/-- prog.list: 12 B per program: its ID, whether a standby copy is held, images kept for draining, the current IMAGE_DIGEST. -/
def progList (s : State) : CmdRes :=
  doneWith (s.coll.programs.map fun e => beBytes 2 e.1 ++ [byte (b2n e.2.standby.isSome), byte e.2.draining.length] ++
    beBytes 8 ((e.2.current.map (·.digest)).getD 0)).flatten s

/-- PROG_LIST (R564). -/
def execProgList (mbx : Nat) (s : State) : Host.Outcome State Fault Refusal :=
  .next (runCmd mbx 0x0403 (fun _ _ a => progList a) s)

/-! ### User regions (R276, R277, R316) -/

/-- The user window (R274). -/
def userBase : Nat := 0x57C0000000
/-- Its end. -/
def userEnd : Nat := userBase + 499 * 2 ^ 30

/-- Is a range free of live regions, within the window? -/
def rangeFree (s : State) (base size : Nat) : Bool :=
  decide (userBase ≤ base) && decide (base + size ≤ userEnd) &&
    s.mem.regions.all fun e => !e.2.live || decide (e.2.base + e.2.size ≤ base) || decide (base + size ≤ e.2.base)

/-- The lowest place in the window that a region of a size fits. -/
def placeRegion (s : State) (size : Nat) : Option Nat :=
  let ends := (s.mem.regions.filter fun e => e.2.live).map fun e => e.2.base + e.2.size
  (sortRising (userBase :: ends)).find? fun b => rangeFree s b size

/-- The lowest slot that holds no live region. -/
def freeRegionSlot (s : State) : Option Nat := firstFrom 4096 0 fun k => !((mget s.mem.regions k).any (·.live))

/-- Every word of a range is 0 with valid check bits. -/
def dramClear (a n : Nat) (s : State) : State :=
  s.mapMem fun m => { m with
    dram := m.dram.filter fun c => !(decide (a ≤ c.1) && decide (c.1 < a + n))
    poison := unpoison m.poison a n }

/-- cel.region.create. -/
def regionCreate (size : Nat) (s : State) : CmdRes :=
  if size = 0 ∨ size % 4096 ≠ 0 then refuse stRange s
  else
    match freeRegionSlot s, placeRegion s size with
    | some k, some b =>
      let g := (((mget s.mem.regions k).map (·.gen)).getD 0 + 1) % 2 ^ 20
      let gen := if g = 0 then 1 else g
      let s1 := dramClear b size (s.mapMem fun m => { m with regions := mset m.regions k ⟨gen, b, size, true⟩ })
      doneWith (beBytes 4 (gen * 4096 + k)) s1
    | _, _ => refuse stNoRoom s

/-- CEL_REGION_CREATE (R276). -/
def execCelRegionCreate (mbx size : Nat) (s : State) : Host.Outcome State Fault Refusal :=
  .next (runCmd mbx 0x0501 (fun _ _ a => regionCreate size a) s)

/-- cel.region.free. -/
def regionFree (h : Nat) (s : State) : CmdRes :=
  if (regionOf s h).isNone then refuse stRange s
  else if regionInUse s h then refuse stBusy s
  else done (s.mapMem fun m => { m with regions := mupd m.regions (h % 4096) fun r => { r with live := false } })

/-- CEL_REGION_FREE (R277). -/
def execCelRegionFree (mbx handle : Nat) (s : State) : Host.Outcome State Fault Refusal :=
  .next (runCmd mbx 0x0502 (fun _ _ a => regionFree handle a) s)

/-- CEL_REGION_READ (R277). -/
def execCelRegionRead (mbx handle off len : Nat) (s : State) : Host.Outcome State Fault Refusal :=
  .next (runCmd mbx 0x0503 (fun _ _ a => match regionArg a handle off len 0 4064 with
    | .error e => refuse e a
    | .ok l => doneWith l a) s)

/-- cel.region.write. -/
def regionPut (h off : Nat) (d : List Byte) (s : State) : CmdRes :=
  match regionOf s h with
  | none => refuse stRange s
  | some r =>
    if 4064 < d.length then refuse stLength s
    else if r.size < off + d.length then refuse stRange s
    else if regionInUse s h then refuse stBusy s
    else if regionTorn s h off d.length then refuse stInvalid s
    else done (regionWrite h off d s)

/-- CEL_REGION_WRITE (R277). -/
def execCelRegionWrite (mbx handle off : Nat) (data : List Byte) (s : State) : Host.Outcome State Fault Refusal :=
  .next (runCmd mbx 0x0504 (fun _ _ a => regionPut handle off data a) s)

/-- Open a bulk transfer on a session: one at a time; where the device sends, its first datagrams leave (R316). -/
def bulkOpen (sid kind target off len : Nat) (sending : Bool) (s : State) : CmdRes :=
  if ((mget s.host.sessions sid).bind (·.bulk)).isSome then refuse stBusy s
  else if len = 0 then refuse stLength s
  else
    let b : Bulk := { kind := kind, target := target, offset := off, len := len, sending := sending, next := 1, acked := 0,
                      sentTick := s.tick }
    done (bulkPump 64 sid (updSession sid (fun x => { x with bulk := some b }) s))

/-- CEL_REGION_BULK (R316). -/
def execCelRegionBulk (mbx handle off len : Nat) (sending : Bool) (s : State) : Host.Outcome State Fault Refusal :=
  .next (runCmd mbx 0x0505 (fun _ sid a => match regionOf a handle with
    | none => refuse stRange a
    | some r =>
      if r.size < off + len then refuse stRange a
      else if ¬ sending ∧ regionInUse a handle then refuse stBusy a
      else bulkOpen sid 0 handle off len sending a) s)

/-- MEM_INFO (R269). -/
def execMemInfo (mbx : Nat) (s : State) : Host.Outcome State Fault Refusal :=
  .next (runCmd mbx 0x0601 (fun _ _ a => doneWith Config.memInfo a) s)

end Sys2Proof.Machine
end

