-- ==== Sys2Proof/Machine/LinePages.lean ====
section
/-! DEFINITION. Connection memory pages: their checks, offers and answers, degradation pages and reverts (R342 to R352). -/

namespace Sys2Proof.Machine

open Sys2Proof

/-! ### The checks of R343 -/

/-- Why a page is refused: reason, lane, DEGR, slot and column concerned (R347). -/
structure PageFault where
  reason : Nat
  lane : Nat
  degr : Nat
  slot : Nat
  col : Nat

/-- A fault of a page. -/
def pageFault (p : List Byte) (reason slot col : Nat) : PageFault := ⟨reason, pageLane p, pageDegr p, slot, col⟩

/-- Does a page have the form of R342: length, reserved fields, codes, digest? -/
def pageForm (p : List Byte) : Bool :=
  decide (p.length = 1072) && decide (beAt p 0 4 < 2 ^ 17) && decide (beAt p 4 4 = 0) && decide (pageDegr p ≤ 5) &&
    decide (pageDir p = 0) && decide (pageLane p ≤ 4) && decide (pageRate p ≤ 2) && decide (pageDigest p = pageDigestOf p) &&
    (List.range 8).all fun s =>
      decide (pageSlot p s < 2 ^ 7) && (List.range 64).all fun c =>
        decide (pageCol p s c < 2 ^ 12) && decide (colUse (pageCol p s c) ≤ 2)

/-- The first slot and column that a page uses where R343 wants it idle. -/
def pageBadCol (p : List Byte) : Option (Nat × Nat) :=
  (List.range 512).findSome? fun i =>
    let w := pageSlot p (i / 64)
    let c := i % 64
    let off := decide (rateCols (pageRate p) ≤ c) || (slotGuard w && decide (c < rateGuard (pageRate p))) || slotDark w
    if off ∧ colUse (pageCol p (i / 64) c) ≠ 0 then some (i / 64, c) else none

/-- The pages of one state of transmission, by lane. -/
abbrev PageView := List (Nat × List Byte)

/-- The lane that a far receiver takes in a slot: lowest lane of a channel steered to a port. -/
def viewSource (chan : Nat → Nat) (v : PageView) (port ch s : Nat) : Option Nat :=
  (v.find? fun e => !slotDark (pageSlot e.2 s) && slotPort (pageSlot e.2 s) == port && chan e.1 == ch).map (·.1)

/-- The lane of the last slot before `s`, around the frame, that gave a far receiver anything. -/
def viewBefore (chan : Nat → Nat) (v : PageView) (port ch s : Nat) : Option Nat :=
  (List.range 7).findSome? fun i => viewSource chan v port ch ((s + 7 - i) % 8)

/-- The first slot of a page that lacks the GUARD it needs. -/
def pageNoGuard (chan : Nat → Nat) (v : PageView) (n : Nat) (p : List Byte) : Option Nat :=
  (List.range 8).find? fun s =>
    let w := pageSlot p s
    let turned := slotPort w != slotPort (pageSlot p ((s + 7) % 8))
    let other := match viewBefore chan v (slotPort w) (chan n) s with
      | some m => m != n
      | none => false
    !slotDark w && !slotGuard w && (turned || other)

/-- The tributaries of a page with the port of their slot. -/
def pageTribs (p : List Byte) : List (Nat × Nat × Nat) :=
  ((List.range 512).filter fun i => colUse (pageCol p (i / 64) (i % 64)) != 0).map fun i =>
    (colTrib (pageCol p (i / 64) (i % 64)), slotPort (pageSlot p (i / 64)), i)

/-- The first column of a view that breaks the binding of its tributary: `bound` gives its port where it is known, and otherwise
all columns of a tributary must be steered alike. -/
def viewBinding (bound : Nat → Option Nat) (v : PageView) : Option PageFault :=
  let all := (v.map fun e => (pageTribs e.2).map fun t => (e.2, t)).flatten
  all.findSome? fun x =>
    let t := x.2.1
    let port := x.2.2.1
    let wrong := match (if t < 4 then some t else bound t) with
      | some q => q != port
      | none => all.any fun y => y.2.1 == t && y.2.2.1 != port
    if wrong then some (pageFault x.1 4 (x.2.2.2 / 64) (x.2.2.2 % 64)) else none

/-- The first lane-slot in which more than 16 tributaries begin. -/
def viewPointers (v : PageView) : Option PageFault :=
  let firsts := v.foldl (fun (a : SMap (Nat × Nat)) e =>
    (pageTribs e.2).foldl (fun b t => if mhas b t.1 then b else mset b t.1 (e.1, t.2.2 / 64)) a) []
  v.findSome? fun e => ((List.range 8).find? fun s =>
    decide (16 < (firsts.filter fun f => f.2.1 == e.1 && f.2.2 == s).length)).map fun s => pageFault e.2 5 s 0xFFFF

/-- Does a view give a port its control tributary: at least 4 columns, on one lane? -/
def viewControl (v : PageView) (port : Nat) : Bool :=
  let l := (v.map fun e => (pageColsOf e.2 2 port port).map fun _ => e.1).flatten
  decide (4 ≤ l.length) && l.all fun n => l.head? == some n

/-- Does a degradation page map a column on the lane it gives up? -/
def pageMapsLost (p : List Byte) : Bool := (pageDegr p == pageLane p + 1) && !(pageTribs p).isEmpty

/-- The checks of R343 on the pages `ps` of the views `vs`: `ports` are the ports whose control tributary is examined. -/
def checkPages (chan : Nat → Nat) (bound : Nat → Option Nat) (ports : List Nat) (ps : List (List Byte)) (vs : List PageView) :
    Option PageFault :=
  (ps.findSome? fun p => if pageForm p then none else some (pageFault p 1 15 0xFFFF)).or <|
  (ps.findSome? fun p => (pageBadCol p).map fun e => pageFault p 2 e.1 e.2).or <|
  (vs.findSome? fun v => v.findSome? fun e => (pageNoGuard chan v e.1 e.2).map fun s => pageFault e.2 3 s 0xFFFF).or <|
  (vs.findSome? (viewBinding bound)).or <|
  (vs.findSome? viewPointers).or <|
  (vs.findSome? fun v => ports.findSome? fun p => if viewControl v p then none else some ⟨6, 7, 0, 15, 0xFFFF⟩).or <|
  (ps.findSome? fun p => if pageMapsLost p then some (pageFault p 7 15 0xFFFF) else none)

/-! ### The own set -/

/-- A page with its PAGE_ID, DEGR and LANE written and its digest made anew. -/
def pageWith (id degr lane : Nat) (p : List Byte) : List Byte :=
  let w := putBits (putBits (putBits (beAt p 0 4) 0 8 id) 8 3 degr) 12 3 lane
  let q := overwrite p 0 (beBytes 4 w)
  overwrite q 8 (beBytes 8 (pageDigestOf q))

/-- The channel a logical lane transmits on: that of its physical lane's laser where it is tuned, else CH[k]. -/
def laneChan (s : State) (n : Nat) : Nat :=
  let c := (physOf s (laneOf s n).phys).txChannel
  if c ≠ 0xFFFF then c else vget s.opt.channels n 0xFFFF

/-- The port to which an own exchange tributary is bound. -/
def boundPort (s : State) (t : Nat) : Option Nat := (tribOf s t).map (·.port)

/-- PAGE_IDs that either side holds. -/
def heldPageIds (s : State) : List Nat :=
  ((s.line.lanes.toList.map fun l => ((l.active.toList ++ l.standby.toList).map pageId)).flatten) ++
    (s.line.ports.toList.map fun p => p.rxSets.map (·.id)).flatten

/-- A PAGE_ID that is not held, never 0. -/
def newPageId (s : State) : Nat :=
  let used := heldPageIds s
  let k := ((List.range 255).find? fun i => !used.contains ((s.line.nextPage + i) % 255 + 1)).getD 0
  (s.line.nextPage + k) % 255 + 1

/-- Ports that a page steers some slot to. -/
def pagePorts (g : List Byte) : List Nat :=
  (List.range 4).filter fun q => (List.range 8).any fun k => !slotDark (pageSlot g k) && slotPort (pageSlot g k) == q

/-- The standby set as a view, or the active one where nothing is staged for a lane. -/
def standbyView (s : State) : PageView :=
  (List.range 5).filterMap fun n => ((laneOf s n).standby.or (laneOf s n).active).map fun p => (n, p)

/-- The body of a PAGE-OFFER (R347). -/
def PageSet.toBytes (o : PageSet) : List Byte := [byte o.id, byte o.pages.length, byte (128 * b2n o.degrOnly), 0] ++ o.pages.flatten

/-- Offer a set to a port (R345 step 2). -/
def sendPageOffer (port : Nat) (o : PageSet) (s : State) : State :=
  sendCtl port 0x03 [] o.toBytes (updLPort port (fun x => { x with offer := some o }) s)

/-- Stage a set of standby pages by lane and offer it: every lane in service is in the set, with its active page again where it
has no standby page; all take one new PAGE_ID. -/
def stageSet (why : Nat) (pages : PageView) (s : State) : State :=
  let id := newPageId s
  let s1 := s.mapLine fun y => { y with
    nextPage := id
    autoCommit := why
    lanes := y.lanes.mapIdx fun n l =>
      let p := ((pages.find? fun e => e.1 == n).map (·.2)).or (l.standby.or l.active)
      if l.rate = 3 then l else { l with standby := p.map (pageWith id 0 n) } }
  let set := s1.line.lanes.toList.filterMap (·.standby)
  (List.range 4).foldl (fun a p =>
    let mine := set.filter fun g => (pagePorts g).contains p
    if mine.isEmpty then updLPort p (fun x => { x with offer := none, ready := none }) a
    else sendPageOffer p ⟨id, false, mine⟩ (updLPort p (fun x => { x with ready := none }) a)) s1

/-- The fault of a main page staged for a lane, together with the set it joins. -/
def stageFault (s : State) (lane : Nat) (p : List Byte) : Option PageFault :=
  let v := (standbyView s).filter (fun e => e.1 != lane)
  let ports := (pagePorts p).filter (hasPartner s)
  if pageDegr p ≠ 0 ∨ pageLane p ≠ lane then some (pageFault p 1 15 0xFFFF)
  else checkPages (laneChan s) (boundPort s) ports [p] [sortByKey (fun e => e.1) ((lane, p) :: v)]

/-- lne.page.stage: an XH lane takes no pages (R353). -/
def pageStage (lane : Nat) (p : List Byte) (s : State) : CmdRes :=
  if 4 < lane ∨ (laneOf s lane).rate = 3 then refuse stRange s
  else
    match stageFault s lane p with
    | some f => refuseD stInvalid f.reason s
    | none =>
      let s1 := stageSet 0 [(lane, p)] s
      doneWith [byte (((laneOf s1 lane).standby.map pageId).getD 0)] s1

/-- LNE_PAGE_STAGE (R345). -/
def execLnePageStage (mbx lane : Nat) (page : List Byte) (s : State) : Host.Outcome State Fault Refusal :=
  .next (runCmd mbx 0x0702 (fun _ _ a => pageStage lane page a) s)

/-- Every transmit page of the active set that steers some slot to a port, in ascending lane and DEGR (R347). -/
def activeSet (s : State) (port : Nat) (degrOnly : Bool) : List (List Byte) :=
  ((List.range 5).map fun n =>
    let l := laneOf s n
    let main := if degrOnly then [] else l.active.toList
    let ps := main ++ l.degrPages.map (·.2)
    if (l.active.any fun g => (pagePorts g).contains port) ∨ ps.any fun g => (pagePorts g).contains port then ps else []).flatten

/-- PAGE_ID of the active set. -/
def activeId (s : State) : Nat := ((s.line.lanes.toList.findSome? (·.active)).map pageId).getD 0

/-- Offer the active set to a port again (R346, R361). -/
def reoffer (port : Nat) (s : State) : State :=
  let ps := activeSet s port false
  if port < 4 ∧ ps ≠ [] then sendPageOffer port ⟨activeId s, false, ps⟩ s else s

/-- PAGE_REOFFER (R361): action 3 of LNE_PAGE_CMD. -/
def execPageReoffer (port : Nat) (s : State) : Host.Outcome State Fault Refusal := .next (reoffer port s)

/-- Discard the standby set where it steers to a port. -/
def standbyDiscard (port : Nat) (s : State) : State :=
  if ¬ standbyPort s port then s
  else s.mapLine fun y => { y with
    autoCommit := 0
    lanes := y.lanes.map fun l => { l with standby := none }
    ports := y.ports.map fun p => { p with ready := none, offer := if p.offer.any (·.degrOnly) then p.offer else none } }

/-- PAGE_STANDBY_DISCARD (R361): action 2 of LNE_PAGE_CMD. -/
def execPageStandbyDiscard (port : Nat) (s : State) : Host.Outcome State Fault Refusal := .next (standbyDiscard port s)

/-! ### Reverts (R351) -/

/-- Lanes lost toward a port: one whose degradation page is in force, and blanked ones. -/
def lostLanes (s : State) (port : Nat) : List Nat :=
  (List.range 5).filter fun k =>
    ((laneOf s k).blanked && (lanePorts (laneOf s k)).contains port) ||
      (List.range 5).any fun n => (laneOf s n).degr == k + 1 && ((laneOf s n).active.any fun g => (pagePorts g).contains port)

/-- Has the partner shown the RDI bits of every lost lane clear for 500 ticks? -/
def revertAllowed (s : State) (port : Nat) : Bool :=
  (lostLanes s port).all fun k => !bitOf (lportOf s port).rdiRx k &&
    !((mget (lportOf s port).rdiClear k).any fun t => decide (s.tick < t + 500))

/-- Request a revert: it applies at the edge after one whole frame, so that R329 holds; one that is not allowed is refused and
counted. -/
def requestRevert (port : Nat) (s : State) : State :=
  if revertAllowed s port then updLPort port (fun x => { x with revert := some (s.tick + 2) }) s else bump 0x00340054 s

/-- PAGE_REVERT (R351): action 1 of LNE_PAGE_CMD. -/
def execPageRevert (port : Nat) (s : State) : Host.Outcome State Fault Refusal :=
  .next (if port < 4 then requestRevert port s else s)

/-- A revert that firmware waits for is requested once it is allowed (R386). -/
def wantedReverts (s : State) : State :=
  (List.range 4).foldl (fun a p =>
    if (lportOf a p).revertWant && revertAllowed a p then
      requestRevert p (updLPort p (fun x => { x with revertWant := false }) a)
    else a) s

/-- Relocked lanes have 2 × RTT_P ticks from a revert to pass the far check (R386). -/
def startFarChecks (s : State) : State :=
  (List.range 5).foldl (fun a k =>
    let n := (laneOf a k).phys
    if (physOf a n).blanked ∨ (physOf a n).relockFrom.isNone then a
    else
      let r := (lanePorts (laneOf a k)).foldl (fun m p => max m (rttP a p)) 0
      updPhys n (fun y => { y with relockFrom := none, farBy := some (a.tick + 2 * r) }) a) s

/-- Reverts whose edge has come: every lane sends its main page again. -/
def applyReverts (s0 : State) : State :=
  let s := wantedReverts s0
  if s.line.ports.toList.any fun p => p.revert.any fun e => decide (e ≤ s.tick) then
    startFarChecks (s.mapLine fun y => { y with
      lanes := y.lanes.map fun l => { l with degr := 0, blanked := false }
      ports := y.ports.map fun p => { p with revert := none, doubleDue := none } })
  else s

/-! ### Offers received (R345 to R347) -/

/-- A PAGE-OFFER's set, where the body has its form. -/
def PageSet.ofBytes (b : List Byte) : Option PageSet :=
  let n := byteAt b 1
  if 1 ≤ n ∧ n ≤ 30 ∧ b.length = 4 + 1072 * n ∧ beAt b 2 2 % 2 ^ 15 = 0 then
    some ⟨byteAt b 0, bitOf (byteAt b 2) 7, (List.range n).map fun i => slice b (4 + 1072 * i) 1072⟩
  else none

/-- The main pages of a set as a view, and the view of each DEGR that it holds. -/
def PageSet.views (main : List (List Byte)) (ps : List (List Byte)) : List PageView :=
  let of := fun (k : Nat) => (List.range 5).filterMap fun n =>
    ((ps.find? fun p => pageLane p == n && pageDegr p == k).or
      (if k = n + 1 then none else main.find? fun p => pageLane p == n && pageDegr p == 0)).map fun p => (n, p)
  ((List.range 6).filter fun k => ps.any fun p => pageDegr p == k).map of

/-- The partner's port on the far end of a port, as its control blocks name it. -/
def peerPort (s : State) (port : Nat) : Nat := (lportOf s port).peer.getD port

/-- Far lane-slots in one slot: the channels of the partner lanes that the sets of all ports, with this one for its port, send
here. -/
def farChannels (s : State) (port : Nat) (main : List (List Byte)) (k : Nat) : List Nat :=
  ((List.range 4).map fun q =>
    let ps := if q = port then main else ((lportOf s q).rxSets.head?.map (·.pages)).getD []
    (ps.filter fun p => pageDegr p == 0 && !slotDark (pageSlot p k) && slotPort (pageSlot p k) == peerPort s q).map fun p => vget s.opt.channels (pageLane p) 0xFFFF).flatten

/-- Order 8 of R343: more than 5 far lane-slots in one slot, or more of a channel than receivers tuned to it (R371). -/
def noReceiver (s : State) (port : Nat) (main : List (List Byte)) : Option PageFault :=
  ((List.range 8).find? fun k =>
    let l := farChannels s port main k
    decide (5 < l.length) || l.any fun c =>
      c != 0xFFFF && decide ((s.opt.channels.toList.filter (· == c)).length < (l.filter (· == c)).length)).map
    fun k => ⟨8, 7, 0, k, 0xFFFF⟩

/-- The fault of an offered set. -/
def offerFault (s : State) (port : Nat) (o : PageSet) : Option PageFault :=
  let main := if o.degrOnly then (((lportOf s port).rxSets.find? fun r => r.id == o.id).map (·.pages)).getD [] else o.pages
  let shape := o.pages.findSome? fun p =>
    if pageId p = o.id ∧ (o.degrOnly = false ∨ pageDegr p ≠ 0) ∧ (slice p 0 1072).length = 1072 then none
    else some (pageFault p 1 15 0xFFFF)
  shape.or <|
  (if main.isEmpty then some ⟨1, 7, 0, 15, 0xFFFF⟩ else none).or <|
  (checkPages (fun n => vget s.opt.channels n n) (fun _ => none) [peerPort s port] o.pages (PageSet.views main o.pages)).or <|
  noReceiver s port main

/-- The body of a PAGE-REJECT. -/
def rejectBody (id : Nat) (f : PageFault) : List Byte :=
  [byte id, byte f.reason] ++ beBytes 2 (f.lane * 2 ^ 13 + f.degr * 2 ^ 10 + f.slot * 2 ^ 6) ++ beBytes 2 f.col ++ [0, 0]

/-- Send a PAGE-REJECT, which is counted. -/
def sendReject (port id : Nat) (f : PageFault) (s : State) : State := bump 0x00094044 (sendCtl port 0x05 [] (rejectBody id f) s)

/-- A set of the partner that no frame has used yet and that another one replaces. -/
def supersede (port : Nat) (o : PageSet) (s : State) : State :=
  let x := lportOf s port
  match x.rxSets with
  | a :: rest =>
    if ¬ o.degrOnly ∧ a.id ≠ o.id ∧ x.rxSeen.isEmpty ∧ x.rxNewTick.isNone then
      sendReject port a.id ⟨9, 7, 0, 15, 0xFFFF⟩ (updLPort port (fun y => { y with rxSets := rest }) s)
    else s
  | [] => s

/-- Hold an offered set: a new one ahead of the others; degradation pages, or a set offered again, with the one they complete. -/
def holdSet (port : Nat) (o : PageSet) (s : State) : State :=
  updLPort port (fun x =>
    if x.rxSets.any fun r => r.id == o.id then
      { x with rxSets := x.rxSets.map fun r =>
          if r.id = o.id then { r with pages := if o.degrOnly then (r.pages.filter fun p => pageDegr p == 0) ++ o.pages else o.pages }
          else r }
    else { x with rxSets := o :: x.rxSets, rxSeen := [], rxNewTick := none }) s

/-- PAGE-OFFER: checked, and answered with PAGE-READY or PAGE-REJECT (R345 step 3). -/
def offerRx (port : Nat) (b : List Byte) (s : State) : State :=
  match PageSet.ofBytes b with
  | none => sendReject port (byteAt b 0) ⟨1, 7, 0, 15, 0xFFFF⟩ s
  | some o =>
    match offerFault s port o with
    | some f => sendReject port o.id f s
    | none =>
      let body := [byte o.id, byte o.pages.length, 0, 0] ++ (o.pages.map fun p => slice p 8 8).flatten
      sendCtl port 0x04 [] body (holdSet port o (supersede port o s))

/-- PAGE_OFFER_RX (R345). -/
def execPageOfferRx (port : Nat) (body : List Byte) (s : State) : Host.Outcome State Fault Refusal :=
  .next (if port < 4 then policed port (offerRx port body) s else s)

/-! ### Answers received -/

/-- Firmware names the commit of a set it staged, 4 × RTT_P + 2,000 ticks ahead, once every port has readied it (R367, R382). -/
def autoCommit (port : Nat) (s : State) : State :=
  let ps := (List.range 4).filter (standbyPort s)
  if s.line.autoCommit ≠ 0 ∧ ps ≠ [] ∧ ps.all (fun q => (lportOf s q).ready.isSome) then
    (acceptCommit (s.tick + 4 * (ps.foldl (fun m q => max m (rttP s q)) 0) + 2000) [.page port] s).state
  else s

/-- A PAGE-REJECT with a reason: it ends the offer; UNKNOWN makes the active set be offered again. -/
def rejectRx (port id reason : Nat) (s : State) : State :=
  let s1 := bump 0x00094044 s
  if reason = 10 then reoffer port s1
  else if 1 ≤ reason ∧ reason ≤ 9 ∧ (lportOf s port).offer.any (fun o => o.id == id) then
    updLPort port (fun x => { x with offer := none }) s1
  else s1

/-- PAGE_REJECT_RX (R347). -/
def execPageRejectRx (port : Nat) (body : List Byte) (s : State) : Host.Outcome State Fault Refusal :=
  .next (if port < 4 then policed port (rejectRx port (byteAt body 0) (byteAt body 1)) s else s)

/-- A PAGE-READY whose digests are those offered allows the commit; another is a reject with reason ENCODING. -/
def readyRx (port : Nat) (b : List Byte) (s : State) : State :=
  match (lportOf s port).offer with
  | none => s
  | some o =>
    if byteAt b 0 ≠ o.id then s
    else if b.drop 4 ≠ (o.pages.map fun p => slice p 8 8).flatten ∨ byteAt b 1 ≠ o.pages.length then rejectRx port o.id 1 s
    else if o.degrOnly then updLPort port (fun x => { x with offer := none, degrReady := true }) s
    else if o.id = activeId s then
      updLPort port (fun x => { x with offer := none, degrReady := x.degrReady || o.pages.any fun p => pageDegr p != 0 }) s
    else autoCommit port (updLPort port (fun x => { x with offer := none, ready := some o.id }) s)

/-- PAGE_READY_RX (R345). -/
def execPageReadyRx (port : Nat) (body : List Byte) (s : State) : Host.Outcome State Fault Refusal :=
  .next (if port < 4 then policed port (readyRx port body) s else s)

/-! ### Degradation pages and double losses (R345 step 6, R350) -/

/-- Firmware's degradation pages of the active set, as it computed them: checked, kept and offered. -/
def degrCompute (pages : List (List Byte)) (s : State) : State :=
  let id := activeId s
  let ps := pages.map fun p => pageWith id (pageDegr p) (pageLane p) p
  let main := s.line.lanes.toList.filterMap (·.active)
  let ports := (List.range 4).filter fun p => hasPartner s p && (main.any fun g => (pagePorts g).contains p)
  let due := (List.range 4).filter fun p => (lportOf s p).degrDue.isSome
  let views := PageSet.views main ps
  if due.isEmpty ∨ ps.any (fun p => pageDegr p == 0) ∨ (checkPages (laneChan s) (boundPort s) ports ps views).isSome then s
  else
    let s1 := s.mapLine fun y => { y with
      lanes := y.lanes.mapIdx fun n l => { l with degrPages :=
        (ps.filter fun p => pageLane p == n).foldl (fun m p => mset m (pageDegr p) p) [] }
      ports := y.ports.map fun p => { p with degrDue := none } }
    (List.range 4).foldl (fun a p =>
      let mine := activeSet a p true
      if mine.isEmpty then a else sendPageOffer p ⟨id, true, mine⟩ a) s1

/-- DEGRADATION_PAGE_COMPUTE (R345 step 6). -/
def execDegradationPageCompute (pages : List (List Byte)) (s : State) : Host.Outcome State Fault Refusal := .next (degrCompute pages s)

/-- Firmware stages new main pages after two lane losses, and commits them when they are readied (R350). -/
def doubleRepage (pages : List (List Byte)) (s : State) : State :=
  let v : PageView := pages.map fun p => (pageLane p, p)
  let all := sortByKey (fun (e : Nat × List Byte) => e.1) (v ++ (standbyView s).filter fun e => !v.any fun x => x.1 == e.1)
  let ports := (List.range 4).filter fun p => hasPartner s p && (lportOf s p).doubleDue.isSome
  if pages.isEmpty ∨ ¬ (s.line.ports.toList.any fun p => p.doubleDue.isSome) ∨ pages.any (fun p => pageDegr p != 0) ∨
      (checkPages (laneChan s) (boundPort s) ports (pages.map fun p => pageWith (pageId p) 0 (pageLane p) p) [all]).isSome then s
  else stageSet 2 v s

/-- DOUBLE_LOSS_REPAGE (R350). -/
def execDoubleLossRepage (pages : List (List Byte)) (s : State) : Host.Outcome State Fault Refusal := .next (doubleRepage pages s)

/-- Two ticks after the newest set has arrived on every far lane, the sets before it go (R345 step 7). -/
def setDiscard (port : Nat) (s : State) : State :=
  if (lportOf s port).rxNewTick.any fun t => decide (t + 2 ≤ s.tick) then
    updLPort port (fun x => { x with rxSets := x.rxSets.take 1, rxNewTick := none }) s
  else s

/-- PAGE_SET_DISCARD (R345 step 7). -/
def execPageSetDiscard (port : Nat) (s : State) : Host.Outcome State Fault Refusal := .next (setDiscard port s)

/-- LANE_DEGRADE (R348): the edge after a transmit side failed, or after an RDI bit for the lane was counted. -/
def execLaneDegrade (lane : Nat) (s : State) : Host.Outcome State Fault Refusal :=
  .next (if (physOf s (laneOf s lane).phys).txFailed ∨ (List.range 4).any (fun p => bitOf (lportOf s p).rdiRx lane)
    then loseLane lane s else s)

end Sys2Proof.Machine
end

