-- ==== Sys2Proof/Machine/LineTx.lean ====
section
/-! DEFINITION. What a frame carries at its start edge: control blocks, resends, justification, data sequences, slots
(R319 to R333, R339, R371, R413). -/

namespace Sys2Proof.Machine

open Sys2Proof

/-! ### Control blocks (R333, R334, R413) -/

/-- The header fields of a control block. -/
def ctlHead (p seq len : Nat) (resent : Bool) : BlockHead :=
  { kind := 2, group := 0, epoch := 0, inst := 0, first := 0, seq := seq, hash := 0, trib := p, decl := len, chunks := 0,
    flags := b2n resent }

/-- Put a block on its way, ahead of blocks that have not begun where it is a resend. -/
def mapBlock (n : Nat) (front : Bool) (b : List Byte) (s : State) : State :=
  updTrib n (fun x =>
    { x with tx := if front then x.tx.filter (·.1) ++ [(false, b)] ++ x.tx.filter (fun y => !y.1) else x.tx ++ [(false, b)] }) s

/-- A pairing block (R413): VINTAGE 0, not encrypted, with a digest in place of its tag. -/
def pairBlock (p : Nat) (content : List Byte) : List Byte :=
  let h := lineHeader 2 0 0 0 0 0 0 0 0 0 p content.length content.length 0 0
  padTo (16 * blockUnits content.length) (h ++ content ++ shake256 (h ++ content) 16)

/-- The engine of a tributary. -/
def engineOf (s : State) (n : Nat) : Nat := ((tribOf s n).map (·.engine)).getD 0

/-- Is a message one of the pairing under way, and is it P-CONFIRM? -/
def CtlMsg.pairing (m : CtlMsg) : Bool := m.ty == 0x60
/-- P-CONFIRM, the first block under vintage count 1 (R412). -/
def CtlMsg.confirm (m : CtlMsg) : Bool := m.ty == 0x60 && byteAt m.body 0 == 3

/-- Messages from the front of a queue whose bytes fit one block. -/
def takeMsgs : Nat → List CtlMsg → List CtlMsg × List CtlMsg
  | _, [] => ([], [])
  | room, m :: l =>
    if m.toBytes.length ≤ room then
      let r := takeMsgs (room - m.toBytes.length) l
      (m :: r.1, r.2)
    else ([], m :: l)

/-- Pairing messages that wait: each leaves in a pairing block of its own, P-CONFIRM under vintage count 1. -/
def sendPairing (p : Nat) (s : State) : State :=
  let x := partnerOf s p
  let ms := x.ctlQueue.filter (·.pairing)
  let s1 := updPartner p (fun y => { y with ctlQueue := y.ctlQueue.filter fun m => !m.pairing }) s
  ms.foldl (fun a m =>
    if m.confirm then
      let b := sealBlock p (engineOf a p) (ctlHead p 0 m.toBytes.length false) m.toBytes a
      mapBlock p false b.1 b.2
    else mapBlock p false (pairBlock p m.toBytes) a) s1

/-- The messages that wait leave in one control block of a paired port, which is kept until it is acknowledged. A SITE-STATE that
leaves names the block its SITE-ACK answers. -/
def sendControl (p : Nat) (s : State) : State :=
  let x := partnerOf s p
  if (keysOf s p).st ≠ 4 ∨ ¬ vintageOpen (keysOf s p) ∨ x.ctlQueue.isEmpty ∨ (tribOf s p).isNone then s
  else
    let cut := takeMsgs 65536 x.ctlQueue
    if cut.1.isEmpty then s
    else
      let content := (cut.1.map (·.toBytes)).flatten
      let seq := x.ctlNext
      let b := sealBlock p (engineOf s p) (ctlHead p seq content.length false) content s
      let st := cut.1.findSome? fun m => if m.ty = 0x30 ∧ m.fields.head? = some 4 then some (m.fields.getD 2 0, seq) else none
      mapBlock p false b.1 (updPartner p (fun y =>
        { y with ctlQueue := cut.2, ctlRing := mset y.ctlRing seq cut.1, ctlNext := seq + 1, ctlSentTick := s.tick, ctlTopTick := s.tick,
                 await := st.or y.await }) b.2)

/-- Resend a control block that is kept (R25). -/
def resendControl (p seq : Nat) (s : State) : State :=
  match mget (partnerOf s p).ctlRing seq with
  | none => updTrib p (fun t => { t with resend := t.resend.filter (· != seq) }) s
  | some ms =>
    let content := (ms.map (·.toBytes)).flatten
    let b := sealBlock p (engineOf s p) (ctlHead p seq content.length true) content s
    let lane := (portAnchor s p).getD 0
    bump (laneReg lane 0x068) (pmAdd lane (pmRetx lane) 1 (mapBlock p true b.1
      (updPartner p (fun y => { y with
          ctlSentTick := s.tick
          ctlTopTick := if (y.ctlRing.getLast?.map (·.1)) = some seq then s.tick else y.ctlTopTick })
        (updTrib p (fun t => { t with resend := t.resend.filter (· != seq) }) b.2))))

/-- Resends that NACKs and timers have asked for, ahead of new blocks (R339). -/
def sendResends (s : State) : State :=
  s.line.tribs.foldl (fun a e =>
    (sortRising e.2.resend).reverse.foldl (fun b q =>
      if (keysOf b e.2.port).st ≠ 4 ∨ ¬ vintageOpen (keysOf b e.2.port) then b
      else if e.1 < 4 then resendControl e.1 q b else resendBlock e.1 q b) a) s

/-- ACKs due at this edge: ACK_SEQ or REL_SEQ has changed, or WINDOW has (R335). -/
def sendAcks (s : State) : State :=
  s.line.tribs.foldl (fun a e =>
    let moved := decide (4 ≤ e.1) && (match e.2.windows.head? with
      | some w => w.1 != windowOf a e.1
      | none => false)
    if (keysOf a e.2.port).st = 4 ∧ (e.2.ackDue ∨ moved) then sendTribAck e.1 a else a) s

/-! ### Data sequences (R326, R327, R329, R330, R331) -/

/-- Does a page change of a named edge follow this frame? -/
def lastFrame (s : State) : Bool :=
  (s.coll.commits.any fun c => decide (c.edge = s.tick + 1) && c.items.any fun i => match i with
    | .page _ => true
    | _ => false) ||
  s.line.ports.toList.any fun p => p.revert == some (s.tick + 1)

/-- Fill `n` units from the blocks that wait: the bytes, what is left, and the unit at which the first block begins. In the last
frame of a page no block starts that cannot end. -/
def fillUnits (last : Bool) : Nat → Nat → List (Bool × List Byte) → List Byte × List (Bool × List Byte) × Option Nat
  | n, _, [] => (List.replicate (16 * n) 0, [], none)
  | n, pos, (begun, b) :: l =>
    if n = 0 then ([], (begun, b) :: l, none)
    else if ¬ begun ∧ last ∧ n < b.length / 16 then (List.replicate (16 * n) 0, (begun, b) :: l, none)
    else if b.length ≤ 16 * n then
      let r := fillUnits last (n - b.length / 16) (pos + b.length / 16) l
      (b ++ r.1, r.2.1, if begun then r.2.2 else some pos)
    else (b.take (16 * n), (true, b.drop (16 * n)) :: l, if begun then none else some pos)

/-- The accumulator of R330 after adding, held at ±64 B (R331), in 2^−16 B; and whether it was held. -/
def justAdd (a : Int) (bytes : Nat) (delta : Int) : Int × Bool :=
  let x := a + bytes * delta / 2 ^ 24
  if x > 64 * 65536 then (64 * 65536, true) else if x < -(64 * 65536) then (-(64 * 65536), true) else (x, false)

/-- The code that an accumulator calls for (R330): positive or negative units. -/
def justUnits (a : Int) : Int :=
  let u : Int := 16 * 65536
  if a ≥ u then min 3 (a / u) else if a ≤ -u then -(min 3 (-a / u)) else 0

/-- The justification code of a number of units (R324). -/
def justCode (k : Int) : Nat := if 0 ≤ k then k.toNat else 8 + (-k).toNat

/-- What a tributary sends in a frame: its pointer entry, its container, and its first column's lane and slot. -/
structure TribFrame where
  lane : Nat
  slot : Nat
  entry : List Byte
  cols : SMap (List Byte)

/-- The key of a column. -/
def colKey (c : Nat × Nat × Nat) : Nat := (c.1 * 8 + c.2.1) * 64 + c.2.2

/-- Columns of a tributary in the frame: a control tributary's and an exchange tributary's alike. -/
def frameCols (s : State) (n : Nat) (t : Trib) : List (Nat × Nat × Nat) := tribCols s t.port n

/-- Build the data sequence of one tributary (R326 to R331). -/
def tribFrame (last : Bool) (n : Nat) (s : State) : Option TribFrame × State :=
  match tribOf s n with
  | none => (none, s)
  | some t =>
    match frameCols s n t with
    | [] => (none, s)
    | c :: cs =>
      let size := 768 * (cs.length + 1)
      let acc := justAdd t.just size (lportOf s t.port).delta
      let k : Int := if bit s 0x00094004 3 then justUnits acc.1 else 0
      let units := ((size / 16 : Nat) : Int) - k
      let f := fillUnits last units.toNat 0 t.tx
      let neg := 16 * (-k).toNat
      let njo := padTo 48 (f.1.take neg)
      let body := List.replicate (16 * k.toNat) 0 ++ f.1.drop neg
      let jc := justCode k
      let entry := beBytes 2 n ++ beBytes 2 (f.2.2.getD 0xFFFF) ++ beBytes 4 (jc + 16 * jc + 256 * jc) ++ njo
      let s1 := updTrib n (fun x => { x with tx := f.2.1, just := acc.1 - k * (16 * 65536) }) s
      let s2 := if acc.2 then raisePort 0x4803 0 [t.port, n] (bump 0x0009404C s1) else s1
      let s3 := bumpBy (laneReg c.1 0x058) k.toNat (bumpBy (laneReg c.1 0x05C) (-k).toNat s2)
      let s4 := pmAdd c.1 (pmJust c.1 0) k.toNat (pmAdd c.1 (pmJust c.1 1) (-k).toNat s3)
      let s5 := if n < 4 then s4
        else pmAdd (tribScope n) (pmJust (tribScope n) 0) k.toNat (pmAdd (tribScope n) (pmJust (tribScope n) 1) (-k).toNat s4)
      let put := (List.zip (c :: cs) (chunks 768 body)).foldl (fun (m : SMap (List Byte)) e => mset m (colKey e.1) e.2) []
      (some ⟨c.1, c.2.1, entry, put⟩, s5)

/-- Does the head of some queue of a port wait for the credit of a tributary? -/
def waitsCredit (s : State) (n : Nat) (t : Trib) : Bool :=
  decide (4 ≤ n) && (List.range 16).any fun q =>
    ((schedOf s (t.port + 1)).active.pool || t.queue == q) &&
      match lineHead s t.port q with
      | some p => decide (48 * t.credit < outstanding t + partialUnits s p)
      | none => false

/-! ### Slots (R320, R321, R371) -/

/-- The lanes of the partner that a port's receiver expects, by the newest set held. -/
def expectedLanes (s : State) (port : Nat) : List Nat :=
  ((((lportOf s port).rxSets.head?.map (·.pages)).getD []).filter fun p => (pagePorts p).contains (peerPort s port)).map pageLane

/-- RDI toward a port (R349). -/
def rdiMask (s : State) (port : Nat) : Nat :=
  maskOf 5 fun k => (laneOf s k).rdiTx && (expectedLanes s port).contains k

/-- The overhead of a slot (R321). -/
def slotOverhead (s : State) (n slot : Nat) (page : List Byte) (port : Nat) (entries : List (List Byte)) : List Byte :=
  let l := laneOf s n
  let w := slot * 2 ^ 29 + l.rate * 2 ^ 27 + n * 2 ^ 24 + pageId page * 2 ^ 16 + l.degr * 2 ^ 13 + blankMask s * 2 ^ 8 + entries.length
  let ctl := (pageColsOf page 2 port port).filter fun c => c.1 == slot
  let head := beBytes 4 (s.tick % 2 ^ 32) ++ beBytes 4 w ++ beBytes 2 (laneChan s n) ++
    ((List.range 5).map fun k => beBytes 2 (laneOf s k).rxChannel).flatten ++ beBytes 4 l.bipTx ++ beBytes 4 l.rei ++
    beBytes 4 (rdiMask s port) ++ [byte ((ctl.head?.map (·.2)).getD 0), byte ctl.length] ++ List.replicate 6 0
  let all := padTo 1020 (head ++ (entries.map fun e => padTo 56 e).flatten)
  all ++ beBytes 4 (crc32 all)

/-- Bitwise even parity over 32-bit words (BIP32). -/
def bip32 (l : List Byte) : Nat := (chunks 4 l).foldl (fun a w => a ^^^ beNat w) 0

/-- Does a lane send frames? -/
def laneSends (s : State) (n : Nat) : Bool :=
  let l := laneOf s n
  l.txUp && bit s 0x00094004 0 && bit s 0x000CA004 0 && !(physOf s l.phys).blanked && !isShadow s

/-- Does another lane of the same channel, on a lower physical lane, take this slot toward this port (R371)? -/
def slotClash (s : State) (n slot port : Nat) : Bool :=
  (List.range 5).any fun m =>
    m != n && laneSends s m && laneChan s m == laneChan s n && decide ((laneOf s m).phys < (laneOf s n).phys) &&
      match (laneOf s m).page with
      | some p => !slotDark (pageSlot p slot) && slotPort (pageSlot p slot) == port
      | none => false

/-- Send one slot. -/
def sendSlot (n slot : Nat) (page : List Byte) (tribs : List TribFrame) (s : State) : State :=
  let w := pageSlot page slot
  if slotDark w then s
  else if slotClash s n slot (slotPort w) then bump 0x000CA054 s
  else
    let mine := (tribs.filter fun t => t.lane == n && t.slot == slot).map (·.entry)
    let oh := slotOverhead s n slot page (slotPort w) mine
    let first := if slotGuard w then rateGuard (pageRate page) else 0
    let cols := if (laneOf s n).blanked then [] else ((List.range (rateCols (pageRate page) - first)).map fun i =>
      ((tribs.findSome? fun t => mget t.cols (colKey (n, slot, first + i))).getD (List.replicate 768 0))).flatten
    updLane n (fun l => { l with bipTx := bip32 (oh ++ cols) }) (s.emit (.slot n slot oh cols))

/-! ### XH mode (R353, R354) -/

/-- The 16 B header of a sheaf member. -/
def sheafHead (id sq mfi members : Nat) : List Byte :=
  let h := beBytes 12 (id * 2 ^ 88 + sq * 2 ^ 84 + mfi % 4096 * 2 ^ 72 + (members - 1) * 2 ^ 68)
  h ++ beBytes 4 (crc32 h)

/-- Cut the data of a sheaf's frame into its members' bytes, each behind its header, the first behind the pointer as well. -/
def sheafCut (id mfi members ptr : Nat) : List (Nat × Nat × Nat × Nat × Nat) → List Byte → List ((Nat × Nat × Nat) × List Byte)
  | [], _ => []
  | e :: es, l =>
    let h := sheafHead id e.1 mfi members ++ (if e.1 = 0 then beBytes 2 ptr ++ List.replicate 46 0 else [])
    let n := 768 * e.2.2.2.2 - h.length
    ((e.2.1, e.2.2.1, e.2.2.2.1), h ++ padTo n (l.take n)) :: sheafCut id mfi members ptr es (l.drop n)

/-- Build the frame of one sheaf from the blocks that wait for its tributary: its members' bytes by lane, slot and first column. -/
def sheafFrameTx (id : Nat) (s : State) : List ((Nat × Nat × Nat) × List Byte) × State :=
  let es := sheafParts s id
  let f := fillUnits false (sheafBytes s id / 16) 0 (((tribOf s id).map (·.tx)).getD [])
  (sheafCut id s.tick es.length (f.2.2.getD 0xFFFF) es f.1, updTrib id (fun x => { x with tx := f.2.1 }) s)

/-- The frames of all sheaves. -/
def sheafFrames (s : State) : List ((Nat × Nat × Nat) × List Byte) × State :=
  let ids := sortRising ((List.range 5).map fun n => if (laneOf s n).rate = 3 then (laneOf s n).xh.map (·.1) else []).flatten
  ids.foldl (fun a id => let r := sheafFrameTx id a.2; (a.1 ++ r.1, r.2)) ([], s)

/-- Lay runs of bytes over the 16 columns of a slot. -/
def layRuns (rs : List (Nat × List Byte)) : List Byte :=
  rs.foldl (fun a e => overwrite a (768 * e.1) e.2) (List.replicate (16 * 768) 0)

/-- Send one slot of an XH lane: the spec does not say what its 256 B of overhead hold. -/
def sendXhSlot (ms : List ((Nat × Nat × Nat) × List Byte)) (n slot : Nat) (s : State) : State :=
  let (v, s1) := s.takeFree
  let mine := (ms.filter fun e => e.1.1 == n && e.1.2.1 == slot).map fun e => (e.1.2.2, e.2)
  s1.emit (.slot n slot (beBytes 256 v) (layRuns mine))

/-- Send the frame of one XH lane. -/
def sendXhLane (ms : List ((Nat × Nat × Nat) × List Byte)) (n : Nat) (s : State) : State :=
  if (laneOf s n).rate ≠ 3 ∨ ¬ laneSends s n then s
  else bump (laneReg n 0x040) ((List.range 8).foldl (fun a k => sendXhSlot ms n k a) s)

/-- Send the frames of the XH lanes. -/
def sendXh (s : State) : State :=
  let r := sheafFrames s
  (List.range 5).foldl (fun a n => sendXhLane r.1 n a) r.2

/-- Send the frame of one lane. -/
def sendLane (tribs : List TribFrame) (n : Nat) (s : State) : State :=
  match (laneOf s n).page with
  | none => s
  | some p =>
    if ¬ laneSends s n ∨ (laneOf s n).rate = 3 then s
    else bump (laneReg n 0x040) ((List.range 8).foldl (fun a k => sendSlot n k p tribs a) s)

/-- A frame starts on every transmit lane (R320): reverts of this edge apply, ACKs, resends and control messages that are due go
out, every tributary fills its container, and the slots leave. -/
def frameStart (s : State) : State :=
  let s1 := sendResends (sendAcks (applyReverts s))
  let s2 := (List.range 4).foldl (fun a p => sendControl p (sendPairing p a)) s1
  let last := lastFrame s2
  let s3 := s2.line.tribs.foldl (fun a e =>
    if (frameCols a e.1 e.2).isEmpty ∨ ¬ waitsCredit a e.1 e.2 then a
    else bump (laneReg (((frameCols a e.1 e.2).head?.map (·.1)).getD 0) 0x074) a) s2
  let r := s3.line.tribs.foldl (fun (a : List TribFrame × State) e =>
    let x := tribFrame last e.1 a.2
    (a.1 ++ x.1.toList, x.2)) ([], s3)
  sendXh ((List.range 5).foldl (fun a n => sendLane r.1 n a) r.2)

/-- FRAME_START (R320). -/
def execFrameStart (s : State) : Host.Outcome State Fault Refusal := .next (frameStart s)

/-! ### Keep-alive and the timers of acknowledgement -/

/-- A port without control traffic for 50 ticks sends ALIVE (R476). -/
def keepalive (p : Nat) (s : State) : State :=
  if (partnerOf s p).ctlSentTick + 50 ≤ s.tick ∧ (keysOf s p).st = 4 then sendCtl p 0x30 [2] [] s else s

/-- CONTROL_KEEPALIVE (R476). -/
def execControlKeepalive (port : Nat) (s : State) : Host.Outcome State Fault Refusal :=
  .next (if port < 4 then keepalive port s else s)

/-- ACK_IDLE ticks have passed since the last ACK of a tributary that carried a block within 15,000 ticks (R335). -/
def ackIdle (n : Nat) (s : State) : State :=
  match tribOf s n with
  | none => s
  | some t =>
    if t.ackTick + arqAckIdle s ≤ s.tick ∧ s.tick ≤ t.blockTick + 15000 ∧ (keysOf s t.port).st = 4 then sendTribAck n s else s

/-- LINE_ACK_IDLE (R335). -/
def execLineAckIdle (trib : Nat) (s : State) : Host.Outcome State Fault Refusal := .next (ackIdle trib s)

/-- Is the repeat of an open NACK due (R338)? -/
def nackDue (s : State) (t : Trib) (e : LineNack) : Bool :=
  let period := rttP s t.port + arqMargin s
  decide (e.tick + (if e.tries < arqNackMax s then period else 8 * period) ≤ s.tick)

/-- Repeat open NACKs of one reason; each range that comes to NACK_MAX repeats is reported. -/
def nackAgain (n : Nat) (t : Trib) (due : SMap LineNack) (reason : Nat) (s : State) : State :=
  let mine := due.filter fun e => e.2.reason == reason
  let stalled := lineRuns ((mine.filter fun e => e.2.tries + 1 == arqNackMax s).map (·.1))
  let s1 := updTrib n (fun x => { x with
      rxNacks := mine.foldl (fun m e => mset m e.1 { e.2 with tries := e.2.tries + 1, tick := s.tick }) x.rxNacks })
    (nackMessages n t.port reason (mine.map (·.1)) s)
  stalled.foldl (fun a _ => raise 0x4804 [t.port, n] a) s1

/-- Repeat every open NACK of a tributary that is due. -/
def nackRepeats (n : Nat) (s : State) : State :=
  match tribOf s n with
  | none => s
  | some t =>
    let due := t.rxNacks.filter fun e => nackDue s t e.2
    (sortRising (due.map fun e => e.2.reason)).foldl (fun a r => nackAgain n t due r a) s

/-- LINE_NACK_REPEAT (R338): every open range of a tributary whose repeat is due. -/
def execLineNackRepeat (trib : Nat) (s : State) : Host.Outcome State Fault Refusal := .next (nackRepeats trib s)

/-- The highest unacknowledged block of a tributary is resent once when no ACK has covered it in time (R340). -/
def resendTimer (n : Nat) (s : State) : State :=
  match tribOf s n with
  | none => s
  | some t =>
    let late := fun (sent : Nat) => decide (sent + rttP s t.port + 2 * arqMargin s ≤ s.tick)
    if n < 4 then
      match (partnerOf s n).ctlRing.getLast? with
      | some e =>
        if late (partnerOf s n).ctlTopTick ∧ (partnerOf s n).ctlTimed ≠ some e.1 then
          updPartner n (fun x => { x with ctlTimed := some e.1 }) (updTrib n (fun x => { x with resend := insertRising e.1 x.resend }) s)
        else s
      | none => s
    else
      match t.ring.getLast? with
      | some e =>
        if late e.2.sentTick ∧ ¬ e.2.timed then
          updTrib n (fun x => { x with
            ring := mupd x.ring e.1 (fun r => { r with timed := true }), resend := insertRising e.1 x.resend }) s
        else s
      | none => s

/-- LINE_RESEND_TIMER (R340). -/
def execLineResendTimer (trib : Nat) (s : State) : Host.Outcome State Fault Refusal := .next (resendTimer trib s)

end Sys2Proof.Machine
end

