-- ==== Sys2Proof/Machine/OptOps.lean ====
section
/-! DEFINITION. What happens to optical lanes: declarations of failure, location of a loss, wrong wavelengths, and the page sets
of a spare swap (R376 to R388, R505). -/

namespace Sys2Proof.Machine

open Sys2Proof

/-! ### Loss location (R378, R379) -/

/-- The level below which a stage's relation has fallen by more than 3 dB, in 0.25 dBm, from the stages before it: stage 1 against
its nominal +14.0 dBm, stage 5 against the baseline. -/
def stageFloor (x : PhysLane) (st : Nat) : Int :=
  let v := fun i => x.stages.getD (i - 1) 0
  match st with
  | 1 => 56 - 12
  | 2 => v 1 - 48 - 12
  | 3 => v 2 - 8 - 12
  | 4 => v 3 - x.voa - 2 - 12
  | 5 => x.baseline.getD (v 5) - 12
  | _ => v 5 - 8 - 12

/-- The first stage whose relation has fallen, 0 where none has; excluded monitors are left out. -/
def lossStage (x : PhysLane) : Nat :=
  ((List.range 6).map (· + 1)).findSome? (fun st =>
    if ¬ x.excluded.contains st ∧ x.stages.getD (st - 1) 0 < stageFloor x st then some st else none) |>.getD 0

/-- Locate a loss: LOSS_STAGE shows the stage, and the event names it. -/
def locateLoss (n : Nat) (s : State) : State :=
  let st := lossStage (physOf s n)
  raise 0x4903 [n, st] (updPhys n (fun x => { x with lossStage := st }) s)

/-! ### Page sets of a swap (R382) -/

/-- A page with the word of a slot changed. -/
def setSlot (k w : Nat) (p : List Byte) : List Byte := overwrite p (16 + 4 * k) (beBytes 4 w)

/-- A page with the columns of a slot from the first up to a bound idle. -/
def idleCols (k upto : Nat) (p : List Byte) : List Byte := overwrite p (48 + 128 * k) (List.replicate (2 * min 64 upto) 0)

/-- A page whose slot 0 begins with guard columns. -/
def guardSlot0 (p : List Byte) : List Byte :=
  let w := pageSlot p 0
  if slotDark w then p else idleCols 0 (rateGuard (pageRate p)) (setSlot 0 (putBits w 5 1 1) p)

/-- Lane k's page in training: slot 7 dark, slot 0 guarded. -/
def trainLane (p : List Byte) : List Byte := guardSlot0 (idleCols 7 64 (setSlot 7 (putBits (putBits (pageSlot p 7) 6 1 1) 5 1 0) p))

/-- A page that carries nothing, at the rate of another and steered as its slots are. -/
def darkPage (p : List Byte) : List Byte :=
  (List.range 8).foldl (fun q k => idleCols k 64 (setSlot k (putBits (putBits (pageSlot p k) 6 1 1) 5 1 0) q)) p

/-- The spare's page in training: slot 7 toward k's port, guarded, with idle columns. -/
def trainSpare (p : List Byte) : List Byte :=
  let q := slotPort (pageSlot p 7)
  let d := (List.range 8).foldl (fun a k => setSlot k (putBits (pageSlot a k) 0 2 q) a) (darkPage p)
  setSlot 7 (putBits (putBits (pageSlot d 7) 6 1 0) 5 1 1) d

/-- The logical lane that bears a physical lane as a spare, or as anything. -/
def lanePhysOf (s : State) (n : Nat) : Nat := ((List.range 5).find? fun k => (laneOf s k).phys == n).getD 0

/-- Firmware offers the training set (R382 step 3). -/
def offerTraining (w : Swap) (s : State) : State :=
  let m := lanePhysOf s w.spare
  let s1 := s.mapOpt fun o => { o with swap := some { w with step := 3, tick := s.tick } }
  stageSet 3 [(w.lane, trainLane w.page), (m, trainSpare w.page)]
    (updLane m (fun l => { l with txUp := true, rate := pageRate w.page }) s1)

/-- Firmware offers the swap set: logical k in every slot, slot 0 guarded; the other lane dark (R382 step 5). -/
def offerSwap (w : Swap) (s : State) : State :=
  let m := lanePhysOf s w.spare
  let s1 := s.mapOpt fun o => { o with swap := some { w with step := 5, tick := s.tick } }
  stageSet 4 [(w.lane, guardSlot0 w.page), (m, darkPage w.page)] (updLane m (fun l => { l with txUp := true, rate := pageRate w.page }) s1)

/-- A firmware's pending page set is withdrawn: offers, standby pages and a commit that names nothing else. -/
def withdrawPages (s : State) : State :=
  let s1 := (List.range 4).foldl (fun a p => standbyDiscard p a) s
  s1.mapColl fun c => { c with commits := c.commits.filter fun k => !k.items.all fun i => match i with
    | .page _ => true
    | _ => false }

/-- A swap stops (R383): its pending set is withdrawn, the spare goes dark, and the evaluation is repeated after an hour. -/
def stopSwap (s : State) : State :=
  match s.opt.swap with
  | none => s
  | some w =>
    if w.step = 7 then s
    else
      let s1 := if s.line.autoCommit = 3 ∨ s.line.autoCommit = 4 then withdrawPages s else s
      let s2 := updLane (lanePhysOf s1 w.spare) (fun l => { l with txUp := false })
        (updPhys w.spare (fun x => { x with txChannel := 0xFFFF, loChannel := 0xFFFF }) s1)
      let s3 := s2.mapOpt fun o => { o with swap := none, retryAt := some (s.tick + 1800000000), retryLane := w.lane }
      bump 0x000CA048 (raise 0x4902 [w.lane, w.spare] s3)

/-- Start the swap of a logical lane onto the free spare; `short` leaves out steps 3 and 4 (R387, R505). -/
def startSwap (k : Nat) (short : Bool) (s : State) : State :=
  match s.opt.swap, freeSpare s, (laneOf s k).active with
  | none, some sp, some p =>
    let w : Swap := { lane := k, old := (laneOf s k).phys, spare := sp, step := 1, tick := s.tick, sum := 0, count := 0,
                      short := short, page := p }
    s.mapOpt fun o => { o with retryAt := none, swap := some w }
  | _, _, _ => s

/-! ### Declarations (R376, R384) -/

/-- The transmit side of a physical lane is declared failed: once, with its event and count; its loss is located. A failure of
the spare in a swap stops it. -/
def declareTx (n : Nat) (s : State) : State :=
  if (physOf s n).txFailed then s
  else
    let s1 := updPhys n (fun x => { x with txFailed := true, failTick := some s.tick }) s
    let s2 := pmDefect (logicalOf s n) (bump 0x000CA050 (raise 0x8901 [n, 0] s1))
    let s3 := if s2.opt.swap.any fun w => w.spare == n then stopSwap s2 else s2
    locateLoss n s3

/-- The receive side of a physical lane is declared lost: RDI is sent from now on (R349). -/
def declareRx (n : Nat) (los : Bool) (s : State) : State :=
  let x := physOf s n
  if (if los then x.rxLos else x.rxLof) then s
  else
    let k := logicalOf s n
    let s1 := updPhys n (fun y => { y with rxLos := y.rxLos || los, rxLof := y.rxLof || !los }) s
    let s2 := updLane k (fun l => { l with rxUp := false, rdiTx := true, goodFrames := 0, rxChannel := 0xFFFF, bip := none }) s1
    let s3 := if los then bump (0x000C0044 + n * 0x2000) s2 else s2
    locateLoss n (pmDefect k (bump 0x000CA050 (raise 0x8901 [n, 1] s3)))

/-- A lane on a wrong wavelength is blanked (R384), its attenuator at 40 dB or more: events, Ledger record, the declared failure, and retirement at the third time
in 24 hours (R387). A swap in progress stops, or goes on from step 5 (R388). -/
def wrongWavelength (n reported : Nat) (s : State) : State :=
  let x := physOf s n
  if x.blanked then s
  else
    let times := s.tick :: x.blankTicks.filter fun t => decide (s.tick < t + 43200000000)
    let s1 := updPhys n (fun y => { y with
      blanked := true, locked := false, voa := max y.voa 160, farRun := 0, farBy := none, relockFrom := some s.tick, blankTicks := times }) s
    let mon := twosComp 16 x.lockerOfs + twosComp 16 (x.coarseOfs / 10) * 2 ^ 16
    let s2 := declareTx n (bump 0x000CA04C (raise 0x8902 [n, mon, reported] s1))
    let s3 := match s2.opt.swap with
      | some w =>
        if w.old = n ∧ (w.step = 3 ∨ w.step = 4) then
          offerSwap w (if s2.line.autoCommit = 3 then withdrawPages s2 else s2)
        else s2
      | none => s2
    if times.length < 3 then s3
    else
      let k := logicalOf s3 n
      let s4 := updPhys n (fun y => { y with retired := true }) s3
      if k < 5 then startSwap k true s4 else s4

end Sys2Proof.Machine
end

