-- ==== Sys2Proof/Machine/LineRx.lean ====
section
/-! DEFINITION. What arrives from the line: slots and their columns, delineation, line blocks through steps 5 to 9 of R23, ACK and
NACK (R321 to R349, R373 to R397, R438, R439). -/

namespace Sys2Proof.Machine

open Sys2Proof

/-! ### Delineation (R327) -/

/-- Cut whole blocks off a stream of units: the blocks, what is left, and whether delineation holds. -/
def cutStream : Nat → List Byte → List (List Byte) × List Byte × Bool
  | 0, l => ([], l, true)
  | fuel + 1, l =>
    if l.length < 16 then ([], l, true)
    else if (l.take 16).all (· == 0) then cutStream fuel (l.drop 16)
    else if l.length < 64 then ([], l, true)
    else
      let enc := beAt l 48 4
      if 65536 < enc then ([l.take 64], [], false)
      else
        let n := 16 * blockUnits enc
        if l.length < n then ([], l, true)
        else
          let r := cutStream fuel (l.drop n)
          (l.take n :: r.1, r.2.1, r.2.2)

/-- The majority of the three copies of a justification code, where it is defined (R324). -/
def majorityCode (jc : Nat) : Option Nat :=
  let a := bitsOf jc 0 4
  let b := bitsOf jc 4 4
  let c := bitsOf jc 8 4
  let m := if a = b ∨ a = c then some a else if b = c then some b else none
  m.bind fun k => if k ≤ 3 ∨ (9 ≤ k ∧ k ≤ 11) then some k else none

/-- Blocks found on a tributary wait to be checked (R23 step 6). -/
def foundBlocks (port : Nat) (l : List (List Byte)) (s : State) : State :=
  s.mapLine fun y => { y with rxBlocks := y.rxBlocks ++ l.map fun b => (port, b) }

/-- A frame of a tributary is whole: its data sequence joins the stream (R326, R327). Code 15 stands for a pointer error, which
discards the bytes. -/
def takeFrame (port lane n frame : Nat) (container : List Byte) (s : State) : State :=
  match tribOf s n with
  | none => s
  | some t =>
    let code := ((t.rxPtr.map (·.2.1)).getD 15)
    let njo := (t.rxPtr.map (·.2.2)).getD []
    let clear := fun (st : Option (List Byte)) (a : State) =>
      updTrib n (fun x => { x with rxPieces := [], rxPtr := none, rxStream := st, rxFrame := some frame }) a
    if code = 15 then clear none s
    else
      let neg := code - 8
      let data := if code ≤ 3 then container.drop (16 * code) else njo.take (16 * neg) ++ container
      let pos := if code ≤ 3 then code else 0
      let negs := if 3 < code then neg else 0
      let ptr := (t.rxPtr.map (·.1)).getD 0xFFFF
      let follows := t.rxFrame == some ((frame + 2 ^ 32 - 1) % 2 ^ 32)
      let from_ := match (if follows then t.rxStream else none) with
        | some b => some (b ++ data)
        | none => if ptr = 0xFFFF then none else some (data.drop (16 * ptr))
      let s1 := bumpBy (laneReg lane 0x060) pos (bumpBy (laneReg lane 0x064) negs s)
      let s2 := pmAdd lane (pmJust lane 2) pos (pmAdd lane (pmJust lane 3) negs s1)
      let s3 := if n < 4 then s2
        else pmAdd (tribScope n) (pmJust (tribScope n) 2) pos (pmAdd (tribScope n) (pmJust (tribScope n) 3) negs s2)
      match from_ with
      | none => clear none s3
      | some l =>
        let r := cutStream (l.length / 16 + 1) l
        foundBlocks port r.1 (clear (if r.2.2 then some r.2.1 else none) s3)

/-! ### Slots (R321 to R324, R344, R346, R349) -/

/-- The page that a slot names among the sets held (R344). -/
def rxPage (s : State) (port id lane degr : Nat) : Option (List Byte) :=
  ((lportOf s port).rxSets.find? fun r => r.id == id).bind fun r =>
    r.pages.find? fun p => pageLane p == lane && pageDegr p == degr

/-- The columns of an exchange tributary under a set's pages, blanked lanes left out (R326). -/
def rxCols (s : State) (port id degr blank n : Nat) : List (Nat × Nat × Nat) :=
  ((List.range 5).map fun lane =>
    if bitOf blank lane then []
    else match (rxPage s port id lane degr).or (if degr = lane + 1 then none else rxPage s port id lane 0) with
      | some p => (pageColsOf p 1 n (peerPort s port)).map fun c => (lane, c)
      | none => []).flatten

/-- Store the columns of a slot for a tributary; pieces of an earlier frame are dropped, and with them delineation (R327). -/
def putPieces (n frame : Nat) (l : List (Nat × List Byte)) (s : State) : State :=
  updTrib n (fun t =>
    let old := t.rxPieces.filter fun e => decide (e.1 / 4096 ≠ frame)
    let kept := t.rxPieces.filter fun e => decide (e.1 / 4096 = frame)
    { t with
      rxStream := if old.isEmpty then t.rxStream else none
      rxPtr := if old.isEmpty then t.rxPtr else none
      rxPieces := l.foldl (fun m e => mset m (frame * 4096 + e.1) e.2) kept }) s

/-- Take over a pointer entry; a code without a majority is counted (R324). -/
def putPointer (port lane : Nat) (e : List Byte) (s : State) : State :=
  let id := bitsOf (beAt e 0 2) 0 10
  let n := if id < 4 then port else id
  let code := majorityCode (bitsOf (beAt e 4 4) 0 12)
  let s1 := if code.isNone then bump (laneReg lane 0x050) s else s
  updTrib n (fun t => if t.port = port then { t with rxPtr := some (beAt e 2 2, code.getD 15, slice e 8 48) } else t) s1

/-- One slot as it arrives: its receive lane, overhead and the columns sent. -/
structure SlotIn where
  port : Nat
  lane : Nat
  oh : List Byte
  cols : List Byte

/-- FRAME_NO. -/
def SlotIn.frame (x : SlotIn) : Nat := beAt x.oh 0 4
/-- The word at offset 4. -/
def SlotIn.word (x : SlotIn) : Nat := beAt x.oh 4 4
/-- SLOT. -/
def SlotIn.slot (x : SlotIn) : Nat := bitsOf x.word 29 3
/-- TX_LANE. -/
def SlotIn.far (x : SlotIn) : Nat := bitsOf x.word 24 3
/-- PAGE_ID. -/
def SlotIn.page (x : SlotIn) : Nat := bitsOf x.word 16 8
/-- DEGR. -/
def SlotIn.degr (x : SlotIn) : Nat := bitsOf x.word 13 3
/-- BLANK. -/
def SlotIn.blank (x : SlotIn) : Nat := bitsOf x.word 8 5
/-- CTRL_FIRST and CTRL_COUNT. -/
def SlotIn.ctrl (x : SlotIn) : Nat × Nat := (byteAt x.oh 32, byteAt x.oh 33)

/-- The columns of a slot by number: a guarded slot's begin after the guard columns. -/
def SlotIn.columns (x : SlotIn) (guard : Nat) : List (Nat × List Byte) :=
  (chunks 768 x.cols).mapIdx fun i b => ((x.far * 8 + x.slot) * 64 + guard + i, b)

/-- Guard columns that a slot has left out: as many as its rate's columns exceed those that came. -/
def SlotIn.guard (x : SlotIn) : Nat := rateCols (bitsOf x.word 27 2) - x.cols.length / 768

/-- The columns of the control tributary, found from the overhead (R326). -/
def controlPieces (x : SlotIn) (s : State) : State :=
  let c := x.ctrl
  let mine := (x.columns x.guard).filter fun e => decide (c.1 ≤ e.1 % 64) && decide (e.1 % 64 < c.1 + c.2)
  if mine.isEmpty then s else putPieces x.port x.frame mine s

/-- After slot 7 of the lane that carries it, a control tributary's frame is whole. -/
def controlFrame (x : SlotIn) (s : State) : State :=
  match tribOf s x.port with
  | none => s
  | some t =>
    let ps := t.rxPieces.filter fun e => decide (e.1 / 4096 = x.frame)
    if x.slot = 7 ∧ (ps.any fun e => decide (e.1 / 512 % 8 = x.far)) then
      takeFrame x.port x.lane x.port x.frame (ps.map (·.2)).flatten s
    else s

/-- Columns of exchange tributaries by the page named, and the frames that are whole with them. -/
def exchangePieces (x : SlotIn) (p : List Byte) (s : State) : State :=
  let cols := x.columns x.guard
  let of := fun (n : Nat) => cols.filter fun e => colUse (pageCol p x.slot (e.1 % 64)) == 1 && colTrib (pageCol p x.slot (e.1 % 64)) == n
  let ns := sortRising ((cols.filter fun e => colUse (pageCol p x.slot (e.1 % 64)) == 1).map fun e =>
    colTrib (pageCol p x.slot (e.1 % 64)))
  ns.foldl (fun a n =>
    match tribOf a n with
    | none => a
    | some t =>
      if t.port ≠ x.port ∨ n < 4 then a
      else
        let a1 := putPieces n x.frame (of n) a
        let want := rxCols a1 x.port x.page x.degr x.blank n
        let have_ := ((tribOf a1 n).map (·.rxPieces)).getD []
        if want.all fun c => mhas have_ (x.frame * 4096 + colKey c) then
          takeFrame x.port x.lane n x.frame (want.map fun c => mgetD have_ (x.frame * 4096 + colKey c) []).flatten a1
        else a1) s

/-- An unknown page (R346): counted, answered with a reject, and reported at most once a second. -/
def unknownPage (x : SlotIn) (s : State) : State :=
  let s1 := sendReject x.port x.page ⟨10, x.far, x.degr, x.slot, 0xFFFF⟩ (bump (laneReg x.lane 0x054) s)
  raisePort 0x4802 0 [x.port, x.page, x.degr] s1

/-- A frame of the newest set has arrived on a far lane (R345 step 7). -/
def noteSet (x : SlotIn) (s : State) : State :=
  updLPort x.port (fun y => match y.rxSets.head? with
    | some r =>
      if r.id ≠ x.page then y
      else
        let seen := insertRising x.far y.rxSeen
        let want := ((r.pages.filter fun p => pageDegr p == 0 && (pagePorts p).contains (y.peer.getD x.port)).map pageLane)
        { y with
          rxSeen := seen
          rxNewTick := if y.rxNewTick.isNone ∧ 1 < y.rxSets.length ∧ want.all (seen.contains ·) then some s.tick else y.rxNewTick }
    | none => y) s

/-- RDI bits of a partner (R349): a bit newly counted raises its event, one that ends starts its 500 ticks. -/
def noteRdi (x : SlotIn) (s : State) : State :=
  let now := bitsOf (beAt x.oh 28 4) 0 5
  let old := (lportOf s x.port).rdiRx
  let s1 := ((List.range 5).filter fun k => bitOf now k && !bitOf old k).foldl (fun a k => raise 0x4806 [x.port, k] a) s
  updLPort x.port (fun y => { y with
    rdiRx := now
    rdiClear := ((List.range 5).filter fun k => bitOf old k && !bitOf now k).foldl (fun m k => mset m k s.tick) y.rdiClear }) s1

/-- The far check of R384: 8 slots in a row whose report names another channel than the lane transmits. A report that agrees ends
the check after a revert (R386). -/
def noteReports (x : SlotIn) (s : State) : State :=
  (List.range 5).foldl (fun a k =>
    let rep := beAt x.oh (10 + 2 * k) 2
    let n := (laneOf a k).phys
    if ¬ (lanePorts (laneOf a k)).contains x.port ∨ (physOf a n).blanked then a
    else if rep = 0xFFFF then a
    else if rep = laneChan a k then updPhys n (fun y => { y with farRun := 0, farBy := none }) a
    else if (physOf a n).farRun + 1 < 8 then updPhys n (fun y => { y with farRun := y.farRun + 1 }) a
    else wrongWavelength n rep a) s

/-- A slot that failed acquisition or its CRC: 16 expected ones in a row are a loss of frame (R376). -/
def slotFailed (port lane : Nat) (s : State) : State :=
  let n := mgetD (lportOf s port).rxFailRuns lane 0 + 1
  let s1 := updLPort port (fun x => { x with rxFailRuns := mset x.rxFailRuns lane n })
    (updLane lane (fun l => { l with badSlots := l.badSlots + 1, goodFrames := 0, bip := none }) s)
  if n = 16 then declareRx (laneOf s lane).phys false s1 else s1

/-- A new frame of a lane begins: the one before it is good or bad (R349, R358). -/
def noteFrame (x : SlotIn) (s : State) : State :=
  let l := laneOf s x.lane
  if l.rxFrame = x.frame ∧ l.rxUp then s
  else
    let s1 := bump (laneReg x.lane 0x044) (pmFrame x.lane (decide (0 < l.badSlots)) s)
    updLane x.lane (fun y => { y with
      rxFrame := x.frame, badSlots := 0, rxUp := true, goodFrames := if y.badSlots = 0 then y.goodFrames + 1 else 0,
      rxChannel := (physOf s l.phys).loChannel }) s1

/-- BIP32 of the lane's previous slot against the one reported (R321). -/
def noteBip (x : SlotIn) (s : State) : State :=
  let l := laneOf s x.lane
  let errs := match l.bip with
    | some b => ((List.range 32).filter fun i => bitOf (b ^^^ beAt x.oh 20 4) i).length
    | none => 0
  let s1 := pmAdd x.lane 5 errs (bumpBy (laneReg x.lane 0x04C) errs s)
  updLane x.lane (fun y => { y with
    rei := errs, badSlots := y.badSlots + (if errs = 0 then 0 else 1), goodFrames := if errs = 0 then y.goodFrames else 0,
    bip := some (bip32 (x.oh ++ x.cols)) }) s1

/-- The receive stamp of a frame, taken at slot 0 of the partner's anchor lane (R468); that of a reference frame is kept. -/
def noteStamp (x : SlotIn) (off : Nat) (s : State) : State :=
  if x.slot ≠ 0 ∨ x.ctrl.2 = 0 then s
  else s.mapTime fun t =>
    let r : RxStamp := ⟨x.frame, t.counter / 2 ^ 32 + off - 24 * 65536, s.tick * 80000 + off * 10 / 16384, t.steps⟩
    { t with ports := vupd t.ports x.port fun p =>
      { p with rx := (r :: p.rx).take 16, peerRef := if x.frame % 1000 = 0 then some r else p.peerRef } }

/-- The receiver has heard a source: its context is kept, at most 8 of them, and its rate mode (R369, R373). -/
def noteSource (x : SlotIn) (s : State) : State :=
  updPhys (laneOf s x.lane).phys (fun y =>
    { y with contexts := ((x.port, x.far, s.tick) :: y.contexts.filter fun c => !(c.1 == x.port && c.2.1 == x.far)).take 8 })
    (updLane x.lane (fun l => { l with rxRate := bitsOf x.word 27 2 }) s)

/-- A slot whose overhead is right. -/
def slotGood (x : SlotIn) (off : Nat) (s : State) : State :=
  let s1 := noteReports x (noteRdi x (noteSet x (noteSource x (noteStamp x off (noteBip x (noteFrame x s))))))
  let s2 := updKeys x.port (fun k => { k with framesArrive := true })
    (updLPort x.port (fun y => { y with rxFailRuns := mdel y.rxFailRuns x.lane }) s1)
  let s3 := (List.range (byteAt x.oh 7)).foldl (fun a i => putPointer x.port x.lane (slice x.oh (40 + 56 * i) 56) a) s2
  let s4 := controlFrame x (controlPieces x s3)
  match rxPage s4 x.port x.page x.far x.degr with
  | some p => exchangePieces x p s4
  | none => unknownPage x s4

/-- SLOT_RX (R321): `acq` says whether burst acquisition succeeded, `fecBits` and `fecBad` what FEC found, `snr` what was
measured, `off` when overhead byte 0 was found, in 2^−16 ns after the edge. -/
def slotRx (port lane off : Nat) (acq : Bool) (fecBits fecBad snr : Nat) (oh cols : List Byte) (s : State) : State :=
  let x : SlotIn := ⟨port, lane, oh, cols⟩
  if ¬ bit s 0x00094004 1 ∨ 4 ≤ port ∨ 5 ≤ lane then s
  else if ¬ acq then slotFailed port lane (bump (0x000C0040 + (laneOf s lane).phys * 0x2000) s)
  else
    let s1 := updLane lane (fun l => { l with snrSum := l.snrSum + snr, snrCount := l.snrCount + 1, uncorr := l.uncorr + fecBad,
                                               badSlots := l.badSlots + (if fecBad = 0 then 0 else 1) })
      (updPhys (laneOf s lane).phys (fun y => { y with rxSnr := snr }) (pmAdd lane 3 fecBits (pmAdd lane 4 fecBad s)))
    if oh.length ≠ 1024 ∨ crc32 (oh.take 1020) ≠ beAt oh 1020 4 then slotFailed port lane (bump (laneReg lane 0x048) s1)
    else if (laneOf s lane).slip = some x.frame then s1
    else slotGood x off (updLane lane (fun l => { l with slip := none }) s1)

/-- SLOT_RX (R321). -/
def execSlotRx (port lane off : Nat) (acq : Bool) (fecBits fecBad snr : Nat) (oh cols : List Byte) (s : State) :
    Host.Outcome State Fault Refusal := .next (slotRx port lane off acq fecBits fecBad snr oh cols s)

/-- The elastic store of a lane overflows or empties: one whole frame of it is discarded (R332). -/
def elasticSlip (lane : Nat) (s : State) : State :=
  let f := (laneOf s lane).rxFrame
  let s1 := updLane lane (fun l => { l with slip := some f, goodFrames := 0, bip := none }) s
  s1.mapLine fun y => { y with tribs := mmap y.tribs fun _ t =>
    if (t.rxPieces.any fun e => decide (e.1 / 4096 = f)) then { t with rxPieces := [], rxPtr := none, rxStream := none } else t }

/-- ELASTIC_STORE_SLIP (R332). -/
def execElasticStoreSlip (lane : Nat) (s : State) : Host.Outcome State Fault Refusal := .next (elasticSlip lane s)

/-- RDI toward the partner ends after 500 ticks of good frames (R349). -/
def execRdiClear (lane : Nat) (s : State) : Host.Outcome State Fault Refusal :=
  .next (if 500 ≤ (laneOf s lane).goodFrames ∧ ¬ (physOf s (laneOf s lane).phys).rxLos then
    updPhys (laneOf s lane).phys (fun x => { x with rxLof := false }) (updLane lane (fun l => { l with rdiTx := false }) s) else s)

/-! ### Steps 8 and 9 of R23 -/

/-- The descriptor by which a block's content is read: its instance's, or its Silo record's. -/
def blkDesc (s : State) (b : LineBlk) : Option Desc :=
  ((instOf s b.group b.inst).bind (·.desc)).or ((siloOf s b.group b.inst).map (·.desc))

/-- Sites that a block of a tributary covers (R480): those of the far member less what the last SITE-STATE before it names
absent. -/
def blkSites (s : State) (b : LineBlk) (far : Member) : Nat :=
  let st := (partnerOf s b.port).states.find? fun e => decide (mgetD e.1 b.trib 0 ≤ b.seq)
  maskMinus far.coveredSites ((st.map fun e => mgetD e.2 b.group 0).getD 0)

/-- The form of a line block's content by its descriptor. -/
def lineForm (d : Desc) : Form :=
  if d.rowWise ∧ d.isCmp then .dense d.inType
  else if d.rowWise then .must (isW40 d.inType)
  else
    match d.op with
    | .setMerge => if modeVcomb d.mode = 0 ∧ d.inType ≠ 9 then .opaqueBytes else .pairs d.inType
    | .topK => .entries d.inType
    | .gather => .opaqueBytes
    | _ => .dense d.inType

/-- The tag of a source and what follows it, where the operation goes by source. -/
def cutTag (d : Desc) (l : List Byte) : Option (Option Nat × List Byte) :=
  if ¬ d.bySource then some (none, l)
  else if l.take 12 = blockHeader true false 0 4 4 4 0 then some (some (beAt l 12 4), l.drop 16)
  else none

/-- The part of one chunk: raw bytes and units, of a content cut in chunk order. -/
def cutChunk (d : Desc) (f : Form) (sites c : Nat) (l : List Byte) (n : Nat) : List Byte × Nat × List Byte :=
  match f with
  | .dense t => let k := elemsBytes t (d.chunkLen c); (l.take k, d.chunkLen c, l.drop k)
  | .must _ =>
    let rows := d.pressRows c * (if d.isRank then (sitesOf sites).length else 1)
    let us := cutUnits f rows rows l
    let k := sumNat (us.map fun u => u.2.length)
    (l.take k, us.length, l.drop k)
  | _ => (l, n, [])

/-- The far partial of one chunk from its raw bytes; none where a must row is malformed (R95, R108). -/
def farPart (d : Desc) (f : Form) (sites members c : Nat) (raw : List Byte) (n : Nat) : Option FarPart :=
  let base : FarPart :=
    { rank := 0, sites := sites, members := members, rows := [], siteRows := [], raw := [], count := n, isRestored := false, casks := [] }
  match f with
  | .must w =>
    (Must.parseRows true w (isIntType d.inType && !d.isRank) n raw).bind fun rs =>
      if d.isRank then
        let ss := sitesOf sites
        if rs.length ≠ d.pressRows c * ss.length then none
        else some { base with siteRows := List.zip ss (chunks (d.pressRows c) rs), count := d.pressRows c }
      else if rs.length = d.pressRows c then some { base with rows := rs } else none
  | _ => some { base with raw := raw }

/-- The far partials of a block's chunks: an entry of none is a chunk whose rows are malformed. -/
def cutParts (d : Desc) (f : Form) (sites members : Nat) (tag : Option Nat) (n : Nat) : Nat → Nat → List Byte →
    List (Nat × Option FarPart)
  | 0, _, _ => []
  | k + 1, c, l =>
    let x := cutChunk d f sites c l n
    let site := (tag.map fun t => t / 2 ^ 16 % 8).getD 0
    let key := match tag with
      | some t => (site * 4096 + t % 2 ^ 16 % 4096) * 2 ^ 32 + c
      | none => c
    let cover := if tag.isSome then siteBit site else sites
    (key, farPart d f cover (if tag.isSome then 1 else members) c x.1 x.2.1) :: cutParts d f sites members tag n k (c + 1) x.2.2

/-- Step 8 on a block whose descriptor is known: the checks of R225, and the content by chunks. -/
def lineDecode (s : State) (d : Desc) (far : Member) (b : LineBlk) : Except FailKind (List (Nat × Option FarPart)) :=
  let f := lineForm d
  let ids := match f.cls with
    | some c => acceptedBlends s (lIn b.port) c
    | none => []
  let must := match f with
    | .must _ => true
    | _ => false
  let sites := blkSites s b far
  match cutTag d (b.content.take b.declLen) with
  | none => .error .header
  | some (tag, l) =>
    let sealed := bitOf b.flags 1
    let r := if l = rawBlock [] then .ok ([], 0)
      else decodeBlocks f (decide (d.coding = 0) || sealed) (decide (d.coding = 2) && f.cls.any deepClass) ids none l
    match r with
    | .error k => .error k
    | .ok (raw, n) =>
      if bitOf b.flags 2 ≠ must ∨ b.chunks = 0 ∨ (1 < b.chunks ∧ (d.op = .setMerge ∨ d.op = .topK)) then .error .header
      else
        let want : Nat := match f with
          | .dense t => sumNat ((List.range b.chunks).map fun i => elemsBytes t (d.chunkLen (b.chunk + i)))
          | _ => raw.length
        if want ≠ raw.length then .error .length
        else .ok (cutParts d f sites far.coveredMembers tag n b.chunks b.chunk raw)

/-- The NEXT LINE_SEQ not passed step 8 after those done. -/
def advanceDone (t : Trib) : Trib :=
  let n := t.rxDone.foldl (fun k q => if q = k then k + 1 else k) t.rxNext
  { t with rxNext := n, rxDone := t.rxDone.filter fun q => decide (n ≤ q) }

/-- A block has passed step 8: ACK_SEQ may advance, and its NACK is closed. -/
def markDone (n seq : Nat) (s : State) : State :=
  updTrib n (fun t => advanceDone { t with
    rxDone := insertRising seq t.rxDone, rxNacks := mdel t.rxNacks seq, ackDue := true }) s

/-- Bytes of the reorder area in use (R257). -/
def reorderEval (s : State) : State :=
  let n := sumNat (s.line.tribs.map fun e => sumNat (e.2.rxHeld.map fun b => 16 * b.2.units))
  let st := areaEval s 0x00180014 n s.cellar.reorderWarn s.cellar.reorderBp
  s.mapCellar fun c => { c with reorderUsed := n, reorderWarn := st.1, reorderBp := st.2 }

/-- What step 8 comes to for a block. -/
inductive StepEight where
  /-- It waits for its descriptor. -/
  | wait
  /-- It is refused a cask and stays (R256). -/
  | stay
  /-- It has been dealt with. -/
  | gone
  deriving DecidableEq, Repr

/-- Hand the chunks of a block to counting (R23 step 9). -/
def handOver (b : LineBlk) (cask : Option Nat) (parts : List (Nat × Option FarPart)) (s : State) : State :=
  let of : Nat × Nat × Option FarPart → Arrival := fun e => match e.2.2 with
    | some p => .farPartial b.port b.group b.epoch b.inst e.2.1 b.hash { p with casks := if e.1 = 0 then cask.toList else [] }
    | none => .malformed b.port b.group b.inst (e.2.1 % 2 ^ 32)
  let items := parts.mapIdx fun i e => of (i, e)
  let late := match parts with
    | (_, none) :: _ => cask.toList
    | _ => []
  freeCasks late (s.mapHost fun h => { h with arrivals := h.arrivals ++ items })

/-- Steps 8 and 9 for one block (R225, R227, R256). A block of an unknown group, an ended instance or another descriptor is handed
on without content, to be counted as what it is. -/
def stepEight (b : LineBlk) (s : State) : StepEight × State :=
  let empty : FarPart :=
    { rank := 0, sites := 0, members := 0, rows := [], siteRows := [], raw := [], count := 0, isRestored := false, casks := [] }
  let bare := (StepEight.gone, markDone b.trib b.seq (handOver b none [(b.chunk, some empty)] s))
  let table := (groupOf s b.group).bind fun r => (versionOf r b.epoch).map (·.2)
  match table.bind fun t => farOfPort t b.port with
  | none => bare
  | some f =>
    if hasEnded s b.group b.inst ∧ (siloOf s b.group b.inst).isNone then bare
    else if (instOf s b.group b.inst).any fun x => (x.refHash.any fun h => h != b.hash) || x.phase == .aborting then bare
    else
      match blkDesc s b with
      | none => (.wait, s)
      | some d =>
        match lineDecode s d f.2 b with
        | .error k =>
          -- step 8 fails: discarded, and NACKed with reason DECODE
          (.gone, updTrib b.trib (fun t => { t with ackDue := true })
            (pmBadBlock (tribScope b.trib) (sendLineNack b.trib b.seq 3 (lineBlockFailed b.port (lineForm d).cls k s))))
        | .ok parts =>
          let size := max 1 (sumNat (parts.map fun e => (e.2.map fun p => p.raw.length +
            sumNat (p.rows.map fun r => (r.toBytes true).length) +
            sumNat (p.siteRows.map fun q => sumNat (q.2.map fun r => (r.toBytes true).length))).getD 0))
          match drawCask size false s with
          | (none, s1) => (.stay, s1)
          | (some c, s1) =>
            let s2 := match (lineForm d).cls with
              | some k => updSlot (lIn b.port) k (fun x => { x with fails := 0 }) s1
              | none => s1
            (.gone, tryRetireAcks b.port (markDone b.trib b.seq (handOver b (some c) parts s2)))

/-- Release blocks from the reorder area in LINE_SEQ order as far as they go. -/
def releaseBlocks (n : Nat) : Nat → State → State
  | 0, s => s
  | fuel + 1, s =>
    match tribOf s n with
    | none => s
    | some t =>
      match mget t.rxHeld t.rxRel with
      | none => s
      | some b =>
        let r := stepEight b s
        let out := fun (a : State) => updTrib n (fun x => { x with rxHeld := mdel x.rxHeld b.seq, rxRel := b.seq + 1, ackDue := true }) a
        match r.1 with
        | .stay => r.2
        | .wait => releaseBlocks n fuel (out (r.2.mapLine fun y => { y with rxWait := y.rxWait ++ [b] }))
        | .gone => releaseBlocks n fuel (out r.2)

/-- Release and account for a tributary. -/
def releaseTrib (n : Nat) (s : State) : State :=
  reorderEval (releaseBlocks n (((tribOf s n).map fun t => t.rxHeld.length + 1).getD 0) s)

/-- A waiting block is tried again: where no descriptor has come, the block opens its instance and gives it the reference hash
(R197). -/
def retryBlock (b : LineBlk) (s : State) : State :=
  let r := stepEight b s
  match r.1 with
  | .gone => r.2
  | _ =>
    let s1 := openInst b.group b.inst b.epoch r.2
    let s2 := updInst b.group b.inst (fun x => { x with refHash := some (x.refHash.getD b.hash) }) s1
    s2.mapLine fun y => { y with rxWait := y.rxWait ++ [b] }

/-- At an edge, blocks that wait for a descriptor or for a cask are tried again (R197, R256). -/
def lineRetry (s : State) : State :=
  let l := s.line.rxWait
  let s1 := l.foldl (fun a b => retryBlock b a) (s.mapLine fun y => { y with rxWait := [] })
  s1.line.tribs.foldl (fun a e => if (mget e.2.rxHeld e.2.rxRel).isSome then releaseTrib e.1 a else a) s1

/-! ### Step 6 (R397, R398, R413) -/

/-- Count one pairing block against 16 in 1,000 ticks; is it accepted (R413)? -/
def admitPairBlock (p : Nat) (s : State) : Bool × State :=
  let k := keysOf s p
  let fresh := decide (k.pairFrom + 1000 ≤ s.tick) || k.pairBlocks = 0
  let n := if fresh then 1 else k.pairBlocks + 1
  (decide (n ≤ 16), updKeys p (fun x => { x with pairBlocks := n, pairFrom := if fresh then s.tick else x.pairFrom }) s)

/-- Note the partner's port from a control block. -/
def notePeer (p id : Nat) (s : State) : State := if id < 4 then updLPort p (fun x => { x with peer := some id }) s else s

/-- Is a block a pairing block in form and digest (R413)? Its messages are all of TYPE 0x60. -/
def pairBlockOk (b : List Byte) : Bool :=
  let n := beAt b 48 4
  byteAt b 0 == 0x12 && byteAt b 1 == 0 && decide (4 ≤ n) && decide (n ≤ 65536) && decide (b.length = 16 * blockUnits n) &&
    byteAt b 64 == 0x60 && slice b (64 + n) 16 == shake256 (b.take (64 + n)) 16

/-- The vintage count of the receive direction that a VINTAGE byte names (R397 order 4, R405): current, next, or previous while
its window is open. -/
def rxVintage (k : PortKeys) (v : Nat) : Option Nat :=
  if k.rxCount = 0 then none
  else if v = vintageByte k.rxCount then some k.rxCount
  else if v = vintageByte (k.rxCount + 1) then some (k.rxCount + 1)
  else if k.window.isSome ∧ 1 < k.rxCount ∧ v = vintageByte (k.rxCount - 1) then some (k.rxCount - 1)
  else none

/-- The failing checks of R397, orders 1 to 3, for a block of a port. -/
def headerFault (k : PortKeys) (b : List Byte) : Bool :=
  let kind := byteAt b 0 % 16
  let nid := byteAt b 2
  byteAt b 0 / 16 != 1 || (kind != 1 && kind != 2) || byteAt b 3 != 0 || bitsOf (beAt b 42 2) 10 6 != 0 ||
    decide (8 ≤ beAt b 54 2) || beAt b 56 8 != 0 || bitsOf nid 3 4 != 0 || byteAt b 1 == 0 ||
    nid / 128 != 1 - txDir k || decide (4 < nid % 8)

/-- Check 5: the lengths. -/
def lengthFault (b : List Byte) : Bool :=
  let enc := beAt b 48 4
  let decl := beAt b 44 4
  let isSealed := bitOf (beAt b 54 2) 1
  enc == 0 || decide (65536 < enc) || (!isSealed && enc != decl) || (isSealed && (enc % 4096 != 0 || decide (enc < decl))) ||
    decide (b.length < 80 + enc)

/-- The tributary under which a received block is filed. -/
def rxTribOf (port : Nat) (b : List Byte) : Nat := if byteAt b 0 % 16 = 2 then port else beAt b 42 2 % 1024

/-- A failed block is NACKed by what its header says (R338), where the tributary is one of the port's; the NACK stays open where no
block of that number has passed. -/
def nackFailed (port : Nat) (b : List Byte) (s : State) : State :=
  let n := rxTribOf port b
  let s1 := if n < 4 then s else pmBadBlock (tribScope n) s
  let q := beAt b 16 8
  match tribOf s n with
  | none => s1
  | some t =>
    if t.port ≠ port ∨ mhas t.rxNacks q then s1
    else if q < t.rxNext ∨ t.rxDone.contains q ∨ mhas t.rxHeld q then nackMessages n port 2 [q] s1
    else sendLineNack n q 2 s1

/-- A tag failure is counted and reported in bursts (R24, R398). -/
def tagFailed (port : Nat) (b : List Byte) (s : State) : State :=
  let n := rxTribOf port b
  let s1 := bump (0x00100110 + port * 0x20) (updKeys port (fun k => { k with tagFails := k.tagFails + 1 }) s)
  let s2 := if n < 4 then s1 else pmAdd (tribScope n) pmTag 1 s1
  let k := keysOf s2 port
  let late : Bool := match k.tagTick with
    | some t => decide (t + 500000 ≤ s.tick)
    | none => true
  if fld1 s 0x00100014 16 16 ≤ k.tagFails ∧ late then
    raise 0x4A01 [port, k.tagFails] (updKeys port (fun x => { x with tagFails := 0, tagTick := some s.tick }) s2)
  else s2

/-- A block that passes check 6 under a vintage makes that vintage current; the one before it stays for its window (R406). -/
def useVintage (port c : Nat) (s : State) : State :=
  if c ≤ (keysOf s port).rxCount then s
  else updKeys port (fun k => { k with
    rxCount := c, rxNext := false, window := some (s.tick + 32768),
    rxKeys := mfilter k.rxKeys fun v _ => decide (c ≤ v + 1) }) s

/-! ### Step 7 (R333, R338, R439) -/

/-- Open NACKs for the numbers missing below one that has passed step 6. -/
def nackGaps (n seq : Nat) (s : State) : State :=
  match tribOf s n with
  | none => s
  | some t =>
    let missing := ((List.range (seq - t.rxTop)).map (· + t.rxTop)).filter fun q =>
      decide (t.rxNext ≤ q) && !mhas t.rxHeld q && !t.rxDone.contains q && !mhas t.rxNacks q
    updTrib n (fun x => { x with rxTop := max x.rxTop (seq + 1) }) (sendLineNacks n 1 missing s)

/-- Units held for a tributary above REL_SEQ. -/
def heldUnits (t : Trib) : Nat := sumNat (t.rxHeld.map fun b => b.2.units)

/-- The largest WINDOW sent in the last RTT_P + MARGIN ticks; the one in force counts with them. -/
def windowGranted (s : State) (t : Trib) : Nat :=
  let recent := t.windows.filter fun w => decide (s.tick ≤ w.2 + rttP s t.port + arqMargin s)
  (recent ++ (t.windows.head?.toList)).foldl (fun m w => max m w.1) 0

/-- An exchange block at step 7: a duplicate is discarded, one beyond its credit too (R439); else it is held and released in
order. -/
def exchangeBlock (b : LineBlk) (s : State) : State :=
  match tribOf s b.trib with
  | none => s
  | some t =>
    if t.port ≠ b.port ∨ b.trib < 4 then s
    else
      let s0 := updTrib b.trib (fun x => { x with blockTick := s.tick }) (pmFrame (tribScope b.trib) false
        (pmAdd (tribScope b.trib) pmReceived 1 s))
      let waits := s0.line.rxWait.any fun w => w.trib == b.trib && w.seq == b.seq
      if b.seq < t.rxNext ∨ t.rxDone.contains b.seq ∨ mhas t.rxHeld b.seq ∨ waits then s0
      else if b.seq < t.rxRel then
        -- the resend of a block that failed step 8
        let r := stepEight b (updTrib b.trib (fun x => { x with rxNacks := mdel x.rxNacks b.seq }) s0)
        match r.1 with
        | .gone => r.2
        | _ => r.2.mapLine fun y => { y with rxWait := y.rxWait ++ [b] }
      else if 48 * windowGranted s t < heldUnits t + b.units then
        raisePort 0x4B01 b.port [b.port] (bump (0x001C1040 + (b.port + 1) * 0x1000) s0)
      else
        let s1 := nackGaps b.trib b.seq s0
        releaseTrib b.trib (updTrib b.trib (fun x => { x with rxHeld := mset x.rxHeld b.seq b, rxNacks := mdel x.rxNacks b.seq }) s1)

/-- TYPEs of the messages of a control block's content. -/
def messageTypes : Nat → List Byte → List Nat
  | 0, _ => []
  | fuel + 1, l =>
    if l.length < 4 then []
    else byteAt l 0 :: messageTypes fuel (l.drop (4 + 4 * ceilDiv (beAt l 2 2) 4))

/-- Does a control block hold more than ACK, NACK and ALIVE (R333)? -/
def promptsAck (content : List Byte) : Bool :=
  let ts := messageTypes content.length content
  ts.any fun y => y != 1 && y != 2 && y != 0x30 || decide (y = 0x30 ∧ byteAt content 4 ≠ 5)

/-- A control block at step 7. -/
def controlBlock (port seq : Nat) (content : List Byte) (s : State) : State :=
  match tribOf s port with
  | none => s
  | some t =>
    let s0 := updTrib port (fun x => { x with blockTick := s.tick }) s
    if seq < t.rxNext ∨ t.rxDone.contains seq then s0
    else
      let s1 := nackGaps port seq s0
      updTrib port (fun x =>
        let y := advanceDone { x with rxDone := insertRising seq x.rxDone, rxNacks := mdel x.rxNacks seq }
        { y with rxRel := y.rxNext, ackDue := x.ackDue || promptsAck content }) s1

/-- A block that has passed check 6. -/
def goodBlock (port c : Nat) (b content : List Byte) (s : State) : State :=
  let kind := byteAt b 0 % 16
  let s1 := updPartner port (fun x => { x with lastGood := s.tick })
    (updKeys port (fun k => { k with framesArrive := false }) (useVintage port c s))
  if (keysOf s port).st ≠ 4 then s1
  else
    let s2 := if (partnerOf s port).paired then s1 else repair port s1
    if kind = 2 then controlBlock port (beAt b 16 8) content (notePeer port (beAt b 42 2 % 1024) s2)
    else
      exchangeBlock
        { port := port, trib := beAt b 42 2 % 1024, seq := beAt b 16 8, group := beAt b 4 2, epoch := beAt b 6 2, inst := beAt b 8 4,
          chunk := beAt b 12 4, chunks := beAt b 52 2, hash := beAt b 24 8, flags := beAt b 54 2, declLen := beAt b 44 4,
          vcount := c, units := b.length / 16, content := content } s2

/-- A line block of a port through steps 6 and 7, and on as far as it goes (R23). Its entry among the delineated blocks, where it
has one, is used up. -/
def lineBlockRx (port : Nat) (b : List Byte) (s0 : State) : State :=
  let s := s0.mapLine fun y => { y with rxBlocks := y.rxBlocks.erase (port, b) }
  if 4 ≤ port ∨ ¬ bit s 0x00100004 0 then s
  else if pairBlockOk b then (admitPairBlock port (notePeer port (beAt b 42 2 % 1024) s)).2
  else
    let k := keysOf s port
    if k.st ≠ 4 ∧ ¬ (k.st = 3 ∧ byteAt b 0 % 16 = 2) then s
    else if headerFault k b then bump 0x00100040 s
    else
      match rxVintage k (byteAt b 1) with
      | none => nackFailed port b (bump 0x00100044 s)
      | some c =>
        if lengthFault b then nackFailed port b (bump 0x00100048 s)
        else
          let s1 := if c = k.rxCount + 1 then deriveRx port s else s
          let enc := beAt b 48 4
          match gcmOpen (mgetD (keysOf s1 port).rxKeys c []) (lineNonce (byteAt b 1) (byteAt b 2) (beAt b 32 10)) (b.take 64)
              (slice b 64 enc) (slice b (64 + enc) 16) with
          | none =>
            -- P-CONFIRM is the first block under vintage count 1: its tag failure ends the pairing (R412)
            if k.st = 3 then pairFail port 7 (tagFailed port b s) else nackFailed port b (tagFailed port b s)
          | some content => goodBlock port c b content s1

/-- LINE_BLOCK_RX (R23). -/
def execLineBlockRx (port : Nat) (block : List Byte) (s : State) : Host.Outcome State Fault Refusal := .next (lineBlockRx port block s)

/-! ### ACK and NACK (R336, R339) -/

/-- "Up to" a sequence as the next one: all ones stands for none. -/
def afterSeq (n : Nat) : Nat := if n = 2 ^ 64 - 1 then 0 else n + 1

/-- An ACK frees ring copies, and tells what has left the far reorder area and the window. -/
def lineAck (port trib ackSeq relSeq window : Nat) (s : State) : State :=
  match tribOf s trib with
  | none => s
  | some t =>
    if t.port ≠ port ∨ 4 ≤ port then s
    else
      let a := afterSeq ackSeq
      let s1 := updTrib trib (fun x => { x with
        ring := mfilter x.ring fun k _ => decide (a ≤ k)
        acked := max x.acked a, rel := max x.rel (afterSeq relSeq), credit := window
        resend := x.resend.filter fun q => decide (a ≤ q) }) s
      let s2 := if trib < 4 then updPartner port (fun x => { x with ctlRing := mfilter x.ctlRing fun k _ => decide (a ≤ k) }) s1 else s1
      pruneOlder port (pruneTxKeys port (ringEval s2))

/-- LINE_ACK_RX (R336). -/
def execLineAckRx (port trib ackSeq relSeq window : Nat) (s : State) : Host.Outcome State Fault Refusal :=
  .next (lineAck port trib ackSeq relSeq window s)

/-- A NACK: every listed block held is to be resent in the next frame; one up to ACK_SEQ is only counted. -/
def lineNack (port trib : Nat) (ranges : List (Nat × Nat)) (s : State) : State :=
  match tribOf s trib with
  | none => s
  | some t =>
    if t.port ≠ port ∨ 4 ≤ port then s
    else
      let named := fun (q : Nat) => ranges.any fun r => decide (r.1 ≤ q) && decide (q < r.1 + r.2)
      let have_ := (if trib < 4 then (partnerOf s port).ctlRing.map (·.1) else t.ring.map (·.1)).filter fun q =>
        named q && decide (t.acked ≤ q)
      updTrib trib (fun x => { x with resend := have_.foldl (fun l q => insertRising q l) x.resend })
        (bump (laneReg ((portAnchor s port).getD 0) 0x070) s)

/-- LINE_NACK_RX (R339). -/
def execLineNackRx (port trib : Nat) (ranges : List (Nat × Nat)) (s : State) : Host.Outcome State Fault Refusal :=
  .next (lineNack port trib ranges s)

/-- ALIVE (R476): a control message of TYPE 0x30, which the bucket passes and which does nothing else; the block that carried it
has been counted. -/
def execAliveRx (port : Nat) (s : State) : Host.Outcome State Fault Refusal :=
  .next (if port < 4 then policed port (fun a => a) s else s)

end Sys2Proof.Machine
end

