-- ==== Sys2Proof/Machine/LineMbx.lean ====
section
/-! DEFINITION. The line's mailbox commands, XH sheaves, and seconds and bins of performance monitoring (R325, R353 to R360, R364,
R370). -/

namespace Sys2Proof.Machine

open Sys2Proof

/-! ### lne.trib (R325, R337) -/

/-- Bind an exchange tributary. Bound anew to its port it keeps its state; bound elsewhere it starts afresh, once nothing of it is
in the ring or on its way. -/
def tribBind (n port queue window : Nat) (s : State) : CmdRes :=
  if n < 4 ∨ 1024 ≤ n ∨ 4 ≤ port ∨ 16 ≤ queue then refuse stRange s
  else
    let put := fun (t : Trib) => s.mapLine fun l => { l with tribs := mset l.tribs n t }
    match tribOf s n with
    | some t =>
      if t.port = port then done (put { t with queue := queue, window := window })
      else if t.ring.isEmpty ∧ t.tx.isEmpty ∧ t.rxHeld.isEmpty then done (put (Trib.fresh port queue (n % 5) window))
      else refuse stBusy s
    | none => done (put (Trib.fresh port queue (n % 5) window))

/-- LNE_TRIB (R325). -/
def execLneTrib (mbx trib port queue window : Nat) (s : State) : Host.Outcome State Fault Refusal :=
  .next (runCmd mbx 0x0701 (fun _ _ a => tribBind trib port queue window a) s)

/-! ### Monitoring commands (R359, R360) -/

/-- Is a scope a lane or a bound exchange tributary? -/
def scopeOk (s : State) (scope : Nat) : Bool := decide (scope < 5) || (decide (20 ≤ scope) && (tribOf s (scope - 16)).isSome)

/-- The counters of a bin as they are read: the mean of Q from its sum and number. -/
def PmBin.shown (b : PmBin) : List Int :=
  if b.scope < 16 then
    let n := b.counts.getD 21 0
    (b.counts.take 20).set 12 (if n = 0 then 0 else b.counts.getD 20 0 / n)
  else b.counts

/-- A bin as a record (R359). -/
def PmBin.toBytes (b : PmBin) : List Byte :=
  leBytes 6 b.start ++ [byte b.kind, byte (b2n b.suspect)] ++ List.replicate 8 0 ++ (b.shown.map fun v => leBytes 8 (twosComp 64 v)).flatten

/-- lne.pm.read: bin `back` before the running one. -/
def pmRead (scope kind back : Nat) (s : State) : CmdRes :=
  let l := s.line.bins.filter fun b => b.scope == scope && b.kind == kind
  match l[back]? with
  | some b => doneWith b.toBytes s
  | none => refuse stRange s

/-- LNE_PM_READ (R359). -/
def execLnePmRead (mbx scope kind back : Nat) (s : State) : Host.Outcome State Fault Refusal :=
  .next (runCmd mbx 0x0703 (fun _ _ a => pmRead scope kind back a) s)

/-- lne.pm.thresh: a threshold of a scope's counter, tested at once. -/
def pmThresh (scope counter kind value : Nat) (s : State) : CmdRes :=
  if ¬ scopeOk s scope ∨ scopeCounters scope ≤ counter ∨ 2 ≤ kind then refuse stRange s
  else done (pmThreshold scope kind (s.mapLine fun l => { l with thresholds := mset l.thresholds (threshKey scope counter kind) value }))

/-- LNE_PM_THRESH (R360). -/
def execLnePmThresh (mbx scope counter kind value : Nat) (s : State) : Host.Outcome State Fault Refusal :=
  .next (runCmd mbx 0x0704 (fun _ _ a => pmThresh scope counter kind value a) s)

/-! ### XH lanes (R353 to R356) -/

/-- Members that the maps of the XH lanes give a sheaf. -/
def sheafMembers (s : State) (id : Nat) : Nat := (sheafParts s id).length

/-- Has each sheaf at most 16 members, on at most 4 lanes (R354)? -/
def sheavesOk (s : State) : Bool :=
  s.line.lanes.toList.all fun l => l.xh.all fun e =>
    decide (sheafMembers s e.1 ≤ 16) && decide ((sortRising ((sheafParts s e.1).map (·.2.1))).length ≤ 4)

/-- Is a column map of XH members in its form: members of runs within a slot's 16 columns that do not overlap? -/
def xhMapOk (m : List (Nat × Nat × Nat × Nat × Nat)) : Bool :=
  m.all (fun e => decide (e.1 < 256) && decide (e.2.1 < 16) && decide (e.2.2.1 < 8) && decide (1 ≤ e.2.2.2.2) &&
    decide (e.2.2.2.1 + e.2.2.2.2 ≤ 16)) &&
  (List.range m.length).all fun i => (List.range i).all fun j =>
    match m[i]?, m[j]? with
    | some a, some b => a.2.2.1 != b.2.2.1 || decide (a.2.2.2.1 + a.2.2.2.2 ≤ b.2.2.2.1) || decide (b.2.2.2.1 + b.2.2.2.2 ≤ a.2.2.2.1)
    | _, _ => true

/-- lne.xh: the fixed column map of a lane, which puts it in XH mode; an empty map ends the mode. A lane with pages is busy. -/
def xhSet (lane : Nat) (m : List (Nat × Nat × Nat × Nat × Nat)) (s : State) : CmdRes :=
  if 5 ≤ lane then refuse stRange s
  else if ¬ xhMapOk m then refuse stInvalid s
  else if (laneOf s lane).active.isSome ∨ (laneOf s lane).standby.isSome then refuse stBusy s
  else
    let s1 := updLane lane (fun l => { l with xh := m, rate := if m.isEmpty then 0 else 3 }) s
    if sheavesOk s1 then done s1 else refuse stInvalid s

/-- LNE_XH (R353). -/
def execLneXh (mbx lane : Nat) (map : List (Nat × Nat × Nat × Nat × Nat)) (s : State) : Host.Outcome State Fault Refusal :=
  .next (runCmd mbx 0x0705 (fun _ _ a => xhSet lane map a) s)

/-- A sheaf that nothing has come on. -/
def Sheaf.fresh (members : Nat) : Sheaf :=
  { members := members, frames := [], bad := 0, badTick := none, down := false, good := 0, firstTick := [], stream := none }

/-- A sheaf. -/
def sheafOf (s : State) (id : Nat) : Sheaf := mgetD s.line.sheaves id (Sheaf.fresh (sheafMembers s id))

/-- Store a sheaf. -/
def putSheaf (id : Nat) (x : Sheaf) (s : State) : State := s.mapLine fun l => { l with sheaves := mset l.sheaves id x }

/-- A sheaf is declared down (R356). -/
def sheafDown (id : Nat) (s : State) : State :=
  let x := sheafOf s id
  if x.down then s
  else raise 0x8802 [id] (putSheaf id { x with down := true, good := 0, bad := 0, frames := [], firstTick := [], stream := none } s)

/-- The bytes of a member in a slot of 16 columns. -/
def memberBytes (cols : List Byte) (e : Nat × Nat × Nat × Nat × Nat) : List Byte := slice cols (768 * e.2.2.2.1) (768 * e.2.2.2.2)

/-- A member's header as SQ and MFI, where it is consistent with the map (R354). -/
def memberHead (s : State) (b : List Byte) (e : Nat × Nat × Nat × Nat × Nat) : Option (Nat × Nat) :=
  let h := beAt b 0 16
  if crc32 (b.take 12) = bitsOf h 0 32 ∧ bitsOf h 120 8 = e.1 ∧ bitsOf h 116 4 = e.2.1 ∧ bitsOf h 100 4 + 1 = sheafMembers s e.1 then
    some (e.2.1, bitsOf h 104 12)
  else none

/-- The data of a complete frame of a sheaf, members in SQ order: SQ 0 begins with 48 B of pointer, JC and NJO. -/
def sheafData (fr : SMap (List Byte)) : Option Nat × List Byte :=
  let first := mgetD fr 0 []
  let code := (majorityCode (bitsOf (beAt first 2 4) 0 12)).getD 0
  let body := (fr.map fun e => if e.1 = 0 then e.2.drop 48 else e.2).flatten
  let ptr := beAt first 0 2
  (if ptr = 0xFFFF then none else some ptr,
    if code ≤ 3 then body.drop (16 * code) else (slice first 6 42).take (16 * (code - 8)) ++ body)

/-- A frame of a sheaf is complete: it is aligned, and unless the sheaf is down its bytes join the stream. -/
def sheafFrame (port id mfi : Nat) (fr : SMap (List Byte)) (s : State) : State :=
  let x := sheafOf s id
  let y := { x with frames := mdel x.frames mfi, firstTick := mdel x.firstTick mfi, bad := 0, badTick := none }
  if x.down then putSheaf id (if x.good + 1 < 16 then { y with good := x.good + 1 } else { y with down := false, good := 0 }) s
  else
    let d := sheafData fr
    let from_ := match x.stream with
      | some b => some (b ++ d.2)
      | none => d.1.map fun p => d.2.drop (16 * p)
    match from_ with
    | none => putSheaf id y s
    | some l =>
      let r := cutStream (l.length / 16 + 1) l
      foundBlocks port r.1 (putSheaf id { y with stream := if r.2.2 then some r.2.1 else none } s)

/-- One member of a slot. -/
def sheafMember (port : Nat) (cols : List Byte) (e : Nat × Nat × Nat × Nat × Nat) (s : State) : State :=
  let b := memberBytes cols e
  let x := sheafOf s e.1
  match memberHead s b e with
  | none =>
    if x.badTick = some s.tick then s
    else if 2 ≤ x.bad then sheafDown e.1 s
    else putSheaf e.1 { x with bad := x.bad + 1, badTick := some s.tick, good := 0 } s
  | some (sq, mfi) =>
    if (mget x.firstTick mfi).any fun t => decide (t + 1000 < s.tick) then sheafDown e.1 s else
    let fr := mset (mgetD x.frames mfi []) sq (b.drop 16)
    let s1 := putSheaf e.1 { x with
      frames := mset x.frames mfi fr
      firstTick := if mhas x.firstTick mfi then x.firstTick else mset x.firstTick mfi s.tick } s
    if fr.length = sheafMembers s e.1 then sheafFrame port e.1 mfi fr s1 else s1

/-- XH_SHEAF_RX (R355): the 16 columns of a slot of an XH lane. -/
def execXhSheafRx (port lane slot : Nat) (cols : List Byte) (s : State) : Host.Outcome State Fault Refusal :=
  .next (if (laneOf s lane).rate = 3 ∧ bit s 0x00094004 1 then
    ((laneOf s lane).xh.filter fun e => e.2.2.1 == slot).foldl (fun a e => sheafMember port cols e a) s else s)

/-- XH_SHEAF_DOWN (R356): a member of some frame has not come within 1,000 frames, or 3 frames were inconsistent. -/
def execXhSheafDown (sheaf : Nat) (s : State) : Host.Outcome State Fault Refusal :=
  .next (if 3 ≤ (sheafOf s sheaf).bad ∨ (sheafOf s sheaf).firstTick.any (fun e => decide (e.2 + 1000 < s.tick)) then sheafDown sheaf s
    else s)

/-! ### opt.lane.fec and opt.lane.channel (R364, R370) -/

/-- Is the measured one-way delay of a lane's ports more than 10 µs? RTT_P holds 4 ticks beyond the round trip. -/
def farAway (s : State) (lane : Nat) : Bool := (lanePorts (laneOf s lane)).any fun p => decide (10000 < (rttP s p - 4) * 1000)

/-- opt.lane.fec: the code waits for the next page commit. -/
def laneFec (lane fec : Nat) (s : State) : CmdRes :=
  if 5 ≤ lane ∨ 2 ≤ fec then refuse stRange s
  else if fec = 1 ∧ ((laneOf s lane).rate ≠ 0 ∨ farAway s lane) then refuse stInvalid s
  else done (s.mapOpt fun o => { o with fecNext := mset o.fecNext lane fec })

/-- OPT_LANE_FEC (R364). -/
def execOptLaneFec (mbx lane fec : Nat) (s : State) : Host.Outcome State Fault Refusal :=
  .next (runCmd mbx 0x0801 (fun _ _ a => laneFec lane fec a) s)

/-- opt.lane.channel: both lasers of the lane take the channel. -/
def laneChannel (lane id : Nat) (s : State) : CmdRes :=
  if 5 ≤ lane then refuse stRange s
  else if ¬ channelOk id (if (laneOf s lane).rate = 3 then 6 else 17) then refuse stInvalid s
  else
    done (updPhys (laneOf s lane).phys (fun x => { x with txChannel := id, loChannel := id })
      (s.mapOpt fun o => { o with channels := vupd o.channels lane fun _ => id }))

/-- OPT_LANE_CHANNEL (R370). -/
def execOptLaneChannel (mbx lane channel : Nat) (s : State) : Host.Outcome State Fault Refusal :=
  .next (runCmd mbx 0x0802 (fun _ _ a => laneChannel lane channel a) s)

/-! ### Seconds and bins (R357 to R359) -/

/-- The scopes that are watched: lanes and bound exchange tributaries. -/
def pmScopes (s : State) : List Nat := List.range 5 ++ (s.line.tribs.filter fun e => decide (4 ≤ e.1)).map fun e => tribScope e.1

/-- Evaluate the second of one scope that has ended: ES, SES and UAS with the ten-second rules (R358). -/
def pmSecondOf (scope : Nat) (s : State) : State :=
  let x := mgetD s.line.seconds scope PmSecond.zero
  let p := physOf s (laneOf s scope).phys
  let lost := decide (scope < 5) && (p.rxLos || p.rxLof || p.txFailed)
  let ses := x.defect || lost || (decide (0 < x.frames) && decide (15 * x.frames ≤ 100 * x.badFrames))
  let es := x.errored || ses
  let bad := if ses then x.badStreak + 1 else 0
  let good := if ses then 0 else x.goodStreak + 1
  let goodErr := if ses then 0 else x.goodErr + b2n es
  -- additions to ES, SES and UAS, and whether time is unavailable from here on
  let r : Int × Int × Int × Bool :=
    if x.unavailable then
      if good = 10 then (goodErr, 0, -9, false) else (0, 0, 1, true)
    else if bad = 10 then (-9, -9, 10, true)
    else ((b2n es : Nat), (b2n ses : Nat), 0, false)
  let next := { PmSecond.zero with badStreak := bad, goodStreak := good, goodErr := goodErr, unavailable := r.2.2.2 }
  let s1 := s.mapLine fun l => { l with seconds := mset l.seconds scope next }
  pmUpdate scope (fun l => (l.set 0 (l.getD 0 0 + r.1)).set 1 (l.getD 1 0 + r.2.1) |>.set 2 (l.getD 2 0 + r.2.2.1)) s1

/-- PM_SECOND (R358): the first edge after a second of the time counter has ended. -/
def execPmSecond (s : State) : Host.Outcome State Fault Refusal :=
  .next (if s.line.pmSec ≠ s.time.sec ∧ bit s 0x00094014 0 then
    ((pmScopes s).foldl (fun a k => pmSecondOf k a) s).mapLine fun l => { l with pmSec := s.time.sec } else s)

/-- Keep the running bin of each scope and kind and so many before it. -/
def trimBins (kind keep : Nat) (l : List PmBin) (scopes : List Nat) : List PmBin :=
  let mine := (scopes.map fun k => (l.filter fun b => b.scope == k && b.kind == kind).take keep).flatten
  mine ++ l.filter fun b => b.kind != kind

/-- A new bin of a kind starts for every scope: 96 quarters of an hour or 7 days are kept behind it (R359). -/
def binRollover (kind : Nat) (s : State) : State :=
  if 2 ≤ kind ∨ ¬ bit s 0x00094014 0 then s
  else
    let start := binStart kind s.time.sec
    let due := (pmScopes s).filter fun k => match binOf s k kind with
      | some b => b.start != start
      | none => true
    let all := (due.map fun k => PmBin.new s k kind) ++ s.line.bins
    let bins := trimBins kind (if kind = 0 then 97 else 8) all (sortRising (all.map (·.scope)))
    s.mapLine fun l => { l with bins := bins }

/-- PM_BIN_ROLLOVER (R359). -/
def execPmBinRollover (kind : Nat) (s : State) : Host.Outcome State Fault Refusal := .next (binRollover kind s)

/-- A minimum and a maximum of samples, from the number of samples taken before. -/
def minMax (n : Int) (i : Nat) (v : Int) (l : List Int) : List Int :=
  (l.set i (if n = 0 then v else min v (l.getD i 0))).set (i + 1) (if n = 0 then v else max v (l.getD (i + 1) 0))

/-- One sample of a lane's optical values (R357): Q, received and transmitted power, laser bias. -/
def pmSampleLane (k : Nat) (s : State) : State :=
  let x := physOf s (laneOf s k).phys
  pmUpdate k (fun l =>
    let n := l.getD 21 0
    let q : Int := (x.rxSnr : Nat)
    let a := (l.set 11 (if n = 0 then q else min q (l.getD 11 0))).set 13 (if n = 0 then q else max q (l.getD 13 0))
    let b := minMax n 18 (10 * (x.biasTx : Nat)) (minMax n 16 (10 * x.measPwr) (minMax n 14 (25 * x.stages.getD 5 0) a))
    (b.set 20 (l.getD 20 0 + q)).set 21 (n + 1)) s

/-- The samples of a tick edge that is a multiple of SAMPLE. -/
def pmSample (s : State) : State :=
  if s.tick % fld1 s 0x00094014 2 10 = 0 then
    ((List.range 5).filter fun k => (laneOf s k).rxUp || (laneOf s k).txUp).foldl (fun a k => pmSampleLane k a) s
  else s

end Sys2Proof.Machine
end

