-- ==== Sys2Proof/Machine/PressRows.lean ====
section
/-! DEFINITION. The commands of the Press: pressings, the Trellis, die links, power and temperature, retirement (R43 to R85,
R497, R506 to R511). -/

namespace Sys2Proof.Machine

open Sys2Proof

/-! ### Core histories and spares (R70 to R74, R508 to R511) -/

/-- The key of a core. -/
def coreKey (die cluster core : Nat) : Nat := die * 2 ^ 20 + cluster * 2 ^ 9 + core

/-- The history of a core to which nothing has happened. -/
def CoreHist.fresh : CoreHist := { events := 0, fences := [], state := 0, fenceTick := 0, spared := false, slots := [] }

/-- A core's history. -/
def coreHist (s : State) (k : Nat) : CoreHist := mgetD s.press.cores k CoreHist.fresh

/-- Change a core's history. -/
def updCore (k : Nat) (f : CoreHist → CoreHist) (s : State) : State :=
  s.mapPress fun p => { p with cores := mupdD p.cores k CoreHist.fresh f }

/-- The 64 bytes of a history entry (R508). -/
def histBytes (k : Nat) (h : CoreHist) : List Byte :=
  leBytes 4 (k / 2 ^ 20 + k / 2 ^ 9 % 2 ^ 11 * 4 + k % 2 ^ 9 * 2 ^ 13) ++
    leBytes 4 (min 65535 h.events + min 255 h.fences.length * 2 ^ 16 + h.state * 2 ^ 24) ++ leBytes 8 h.fenceTick ++
    ((List.range 4).map fun j =>
      let l := h.slots.getD j ⟨0, 0, 0, 0, 0⟩
      leBytes 4 l.tick ++ leBytes 4 (l.temp % 256 + l.kind % 256 * 256 + l.railMv % 65536 * 65536) ++ leBytes 4 l.sig).flatten

/-- Record a check failure or a spot event in the core's history (R509). -/
def recordFail (f : CheckFail) (s : State) : State :=
  updCore (coreKey f.die f.cluster f.core) (fun h => { h with
    events := min 65535 (h.events + 1)
    slots := (⟨s.tick, f.temp, f.kind, f.railMv, f.sig⟩ :: h.slots).take 4 }) s

/-- Retire a cluster into a spare cluster, or with no replacement (R72 to R74). -/
def retireCluster (die cluster : Nat) (s : State) : State :=
  let d := dieOf s die
  let s1 := s.mapBru fun b => { b with softClusters := insertRising (die * 2 ^ 11 + cluster) b.softClusters }
  if d.spareClusters = 0 then
    let s2 := updDie die (fun x => { x with lostClusters := x.lostClusters + 1, coresUsed := mdel x.coresUsed cluster }) s1
    raise 0x8202 [logicalCores s2] s2
  else updDie die (fun x => { x with spareClusters := x.spareClusters - 1, coresUsed := mdel x.coresUsed cluster }) s1

/-- A core's work moves to a spare core of its cluster; the seventeenth retires the cluster (R71, R72). -/
def takeSpare (die cluster : Nat) (s : State) : State :=
  if mgetD (dieOf s die).coresUsed cluster 0 < 16 then
    updDie die (fun x => { x with coresUsed := mupdD x.coresUsed cluster 0 (· + 1) }) s
  else retireCluster die cluster s

/-- Fence a core (R81): the second mismatch in it within 65,536 ticks. -/
def fenceCore (die cluster core : Nat) (s : State) : State :=
  let k := coreKey die cluster core
  let s1 := updCore k (fun h => { h with
    state := 1, fenceTick := s.tick, spared := true
    fences := s.tick :: h.fences }) s
  bump 0x00200048 (raise 0x4204 [die, cluster, core] (takeSpare die cluster s1))

/-- Slots of MATCH that satisfy a test from some slot as the lowest. -/
def someMatch (h : CoreHist) (n : Nat) (near : HistSlot → HistSlot → HistSlot → Bool) : Bool :=
  h.slots.any fun a => h.slots.any fun b => decide (n ≤ (h.slots.filter fun c => near a b c).length)

/-- Does R511 retire a core? -/
def mustRetire (s : State) (h : CoreHist) (spot : Bool) : Bool :=
  let reg := 0x0034000C
  let window := fld1 s reg 4 8 * 43200000000
  let n := fld s reg 16 3
  let bin := fld s reg 12 4
  bit s 0x00340004 0 && h.state != 2 &&
    (spot || decide (fld1 s reg 0 4 ≤ (h.fences.filter fun t => decide (s.tick < t + window)).length) ||
      someMatch h n (fun a _ c => c.sig == a.sig) ||
      someMatch h n fun a b c =>
        decide (a.temp ≤ c.temp) && decide (c.temp ≤ a.temp + bin) && decide (b.railMv ≤ c.railMv) && decide (c.railMv ≤ b.railMv + 10))

/-- Retire a core into the soft repair map where R511 says so, with its event and Ledger record. -/
def retireIfDue (die cluster core : Nat) (spot : Bool) (s : State) : State :=
  let k := coreKey die cluster core
  if mustRetire s (coreHist s k) spot then
    let s1 := updCore k (fun h => { h with state := 2 }) s
    let s2 := s1.mapBru fun b => { b with softCores := insertRising k b.softCores }
    bump 0x00340060 (ledgerWrite 7 0x4205 (histBytes k (coreHist s2 k)) (raise 0x4205 [die, cluster, core] s2))
  else s

/-- One failed check of a pressing: counted, recorded, fencing on the second, retiring by R511. -/
def oneFail (s : State) (f : CheckFail) : State :=
  let h := coreHist s (coreKey f.die f.cluster f.core)
  let second := h.state = 0 ∧ h.slots.any fun l => l.kind != 5 && decide (s.tick ≤ l.tick + 65536)
  let s1 := recordFail f s
  let s2 := if second then fenceCore f.die f.cluster f.core s1 else s1
  retireIfDue f.die f.cluster f.core false s2

/-! ### Pressings -/

/-- Does the re-execution of a failed row end within the window (R46)? A droop's stall takes 16 cycles of the slack (R81). -/
def fitsWindow (s : State) (f : CheckFail) : Bool :=
  decide (f.cycle + 1 + f.cost + (if (dieOf s f.die).droop then 16 else 0) ≤ 2400)

/-- Does a failed check keep a unit from committing in this pressing? -/
def heldBack (s : State) (fs : List CheckFail) (u : WorkUnit) : Bool :=
  fs.any fun f => f.die == u.die && f.cluster == u.cluster &&
    (f.sequencer || (!fitsWindow s f && f.group == u.group && f.inst == u.inst && f.chunk == u.chunk && f.row == u.row))

/-- The pressing of a tick with the checks that fail in it (R43 to R46, R81). -/
def pressingEffect (fs : List CheckFail) (s : State) : State :=
  if ¬ s.press.running then s
  else
    let s1 := runPressing (heldBack s fs) (fs.foldl oneFail s)
    bumpBy 0x00200044 (fs.filter fun f => fitsWindow s f && !f.sequencer).length s1

/-- PRESSING_START (R43). -/
def execPressingStart (fails : List CheckFail) (s : State) : Host.Outcome State Fault Refusal := .next (pressingEffect fails s)

/-- An entry of a TWIN datagram (R497). -/
def twinEntry (e : Nat × Nat × Nat × Nat) : List Byte :=
  beBytes 2 e.1 ++ [0, 0] ++ beBytes 4 e.2.1 ++ beBytes 4 e.2.2.1 ++ beBytes 8 e.2.2.2

/-- The body of one TWIN datagram (R497). -/
def twinBody (tick part : Nat) (last : Bool) (es : List (Nat × Nat × Nat × Nat)) : List Byte :=
  beBytes 8 tick ++ beBytes 2 es.length ++ [byte part, byte (128 * b2n last)] ++ List.replicate 8 0 ++ (es.map twinEntry).flatten

/-- The twin reports the digests of the local partials it committed in the tick (R497). -/
def twinReport (s : State) : State :=
  let sh := s.sites.shadow
  let s1 := s.mapSites fun x => { x with shadow := { x.shadow with fresh := [] } }
  match sh.role, sh.session with
  | 2, some sid =>
    let ps := chunks 409 sh.fresh
    (ps.mapIdx fun i p => (i, p)).foldl (fun a ip =>
      (mbxSend sid 9 0 a.sites.shadow.nextReq (twinBody s.tick ip.1 (ip.1 + 1 == ps.length) ip.2) a).mapSites fun x =>
        { x with shadow := { x.shadow with nextReq := x.shadow.nextReq + 1 } }) s1
  | _, _ => s1

/-- The end of a pressing's window (R47, R497). -/
def windowEndEffect (s : State) : State :=
  let s1 := if s.press.running then requeueUnits s else s
  let s2 := s1.mapPress fun p => { p with listed := [], dies := p.dies.map fun d => { d with droop := false } }
  twinReport s2

/-- PRESSING_WINDOW_END (R47). -/
def execPressingWindowEnd (s : State) : Host.Outcome State Fault Refusal := .next (windowEndEffect s)

/-! ### Spot checks (R82, R83, R506, R507) -/

/-- Instances a cluster has committed rows for, with the tick and rows of the latest. -/
def workedBy (s : State) (c : Nat) : List (Nat × Nat × Nat) :=
  (s.press.worked.filter fun e => e.1 / 2 ^ 48 == c).map fun e => (e.1 % 2 ^ 48, e.2)

/-- A fault that a spot check finds is masked only for the checked tick: the rows before it are reported (R507). -/
def reportSuspects (c : Nat) (s : State) : State :=
  let start := max (mgetD s.press.spotClean c 0) (s.tick - 65536)
  let l := (workedBy s c).filter fun e => decide (start ≤ e.2.1)
  let s1 := raise 0x8206 [c / 1024, c % 1024, start % 2 ^ 32] s
  let body := leBytes 4 l.length ++
    ((l.take 24).map fun e => leBytes 2 (e.1 / 2 ^ 32) ++ [0, 0] ++ leBytes 4 (e.1 % 2 ^ 32)).flatten
  let s2 := bumpBy 0x0034006C l.length (ledgerWrite 8 0x8206 body s1)
  s2.mapFlt fun f => { f with suspects := f.suspects ++ l.map fun e => (e.1 / 2 ^ 32, e.1 % 2 ^ 32) }

/-- A cluster is found faulty: its cores are recorded as spot events, and retired by R511. -/
def spotFaulty (c : Nat) (cores : List CheckFail) (s : State) : State :=
  reportSuspects c (cores.foldl (fun a f =>
    let g := { f with die := c / 1024, cluster := c % 1024, kind := 5 }
    retireIfDue g.die g.cluster g.core true (recordFail g a)) s)

/-- Three copies disagree: the rows of the tick are pressed again, and after a third round their instances are aborted
(R506). -/
def spotDisagree (c : Nat) (s : State) : State :=
  let l := (workedBy s c).filter fun e => e.2.1 == s.tick
  let n := mgetD s.press.spotRounds c 0 + 1
  if n < 3 then
    let s1 := s.mapPress fun p => { p with spotRounds := mset p.spotRounds c n }
    let s2 := l.foldl (fun a e => updInst (e.1 / 2 ^ 32) (e.1 % 2 ^ 32) (fun x => { x with
      chunks := mmap x.chunks fun _ ch => { ch with prods := ch.prods.map fun p =>
        if p.readyTick = s.tick + 1 ∧ ¬ p.issued then { p with readyTick := s.tick + 2 } else p } }) a) s1
    bumpBy 0x00200040 (sumNat (l.map (·.2.2))) s2
  else
    let s1 := s.mapPress fun p => { p with spotRounds := mdel p.spotRounds c }
    l.foldl (fun a e => askAbort (e.1 / 2 ^ 32) (e.1 % 2 ^ 32) 1 0x0403 0 0 a) s1

/-- A clean spot check. -/
def spotClean (c : Nat) (s : State) : State :=
  s.mapPress fun p => { p with
    spotClean := mset p.spotClean c s.tick, spotRounds := mdel p.spotRounds c
    worked := p.worked.filter fun e => e.1 / 2 ^ 48 != c || e.2.1 == s.tick }

/-- A spot check of a cluster against one of another die: outcome 0 agrees; 1 and 2 disagree and the third cluster names the
checked or the other cluster as faulty; 3 all disagree. -/
def spotEffect (die cluster die2 cluster2 outcome : Nat) (cores : List CheckFail) (s : State) : State :=
  if ¬ s.press.running ∨ ¬ bit s 0x00200004 16 ∨ s.tick % 16 ≠ 0 then s
  else
    let c := die * 1024 + cluster
    let s1 := bump 0x00200050 s
    if outcome = 0 then spotClean c s1
    else
      let s2 := bump 0x00200054 (raise 0x8203 [die, cluster] s1)
      if outcome = 1 then spotFaulty c cores s2
      else if outcome = 2 then spotFaulty (die2 * 1024 + cluster2) cores s2
      else spotDisagree c s2

/-- SPOT_CHECK (R82). -/
def execSpotCheck (die cluster die2 cluster2 outcome : Nat) (cores : List CheckFail) (s : State) :
    Host.Outcome State Fault Refusal := .next (spotEffect die cluster die2 cluster2 outcome cores s)

/-! ### The Trellis (R61 to R65) -/

/-- What a cluster makes of the two copies of a message. -/
structure TrellisAct where
  acts : Bool
  faultA : Bool
  faultB : Bool
  disagree : Bool

/-- The table of R61; once a tree is marked faulty the device runs on the other, protected by the CRC alone (R64). -/
def trellisAct (badA badB : Bool) (a b : Option Nat) : TrellisAct :=
  if badA then ⟨b.isSome, false, b.isNone, false⟩
  else if badB then ⟨a.isSome, a.isNone, false, false⟩
  else match a, b with
    | some x, some y => if x = y then ⟨true, false, false, false⟩ else ⟨false, false, false, true⟩
    | some _, none => ⟨true, false, true, false⟩
    | none, some _ => ⟨true, true, false, false⟩
    | none, none => ⟨false, false, false, false⟩

/-- Is a tree marked faulty? -/
def treeBad (s : State) (t : Nat) : Bool := vget s.press.treeFaulty t false

/-- A cluster reports a fault of a tree: three clusters within 16 ticks mark it faulty (R64, R65). -/
def treeReport (t cluster : Nat) (s : State) : State :=
  let rs := (t, s.tick, cluster) :: s.press.treeReports.filter fun r => decide (s.tick < r.2.1 + 16)
  let s1 := setBits 0x00200060 (2 ^ t) (s.mapPress fun p => { p with treeReports := rs })
  let n := ((rs.filter fun r => r.1 == t).map (·.2.2)).eraseDups.length
  if n < 3 ∨ treeBad s t then s1
  else
    let s2 := raise 0x4203 [t] (s1.mapPress fun p => { p with treeFaulty := vupd p.treeFaulty t fun _ => true })
    if treeBad s (1 - t) then raise 0xC202 [] s2 else s2

/-- One Trellis message at one cluster. -/
def trellisEffect (die cluster : Nat) (isEdge : Bool) (a b : Option Nat) (s : State) : State :=
  let c := die * 1024 + cluster
  let r := trellisAct (treeBad s 0) (treeBad s 1) a b
  let s1 := if r.faultA then treeReport 0 c s else s
  let s2 := if r.faultB then treeReport 1 c s1 else s1
  let s3 := if r.disagree then setBits 0x00200060 4 s2 else s2
  if r.acts then s3
  else if isEdge then
    setBits 0x00200060 8 (s3.mapPress fun p => { p with missed := insertRising c p.missed })
  else s3.mapPress fun p => { p with reissue := p.reissue ++ [c] }

/-- TRELLIS_MESSAGE (R61). -/
def execTrellisMessage (die cluster : Nat) (isEdge : Bool) (copyA copyB : Option Nat) (s : State) :
    Host.Outcome State Fault Refusal := .next (trellisEffect die cluster isEdge copyA copyB s)

/-! ### Die links (R66 to R69) -/

/-- A flit fails its CRC and is replayed; eight consecutive replays of one flit that fail start retraining (R66, R67). -/
def flitFail (die : Nat) (replayFails : Bool) (s : State) : State :=
  let n := if replayFails then (dieOf s die).replayFails + 1 else 0
  let s1 := bump (0x0100000C + die * 0x400000) s
  if 8 ≤ n then updDie die (fun d => { d with replayFails := 0, retrainEnd := some (s.tick + 2) }) s1
  else updDie die (fun d => { d with replayFails := n }) s1

/-- DIE_LINK_FLIT_CRC_FAIL (R66). -/
def execDieLinkFlitCrcFail (die : Nat) (replayFails : Bool) (s : State) : Host.Outcome State Fault Refusal :=
  .next (flitFail die replayFails s)

/-- Retraining ends when its 2 ticks have passed (R67). -/
def retrainDone (die : Nat) (s : State) : State :=
  if (dieOf s die).retrainEnd.any fun t => decide (t ≤ s.tick) then updDie die (fun d => { d with retrainEnd := none }) s else s

/-- DIE_LINK_RETRAIN_DONE (R67). -/
def execDieLinkRetrainDone (die : Nat) (s : State) : Host.Outcome State Fault Refusal := .next (retrainDone die s)

/-- A lane of a die link is replaced with a spare, or lost where none is left (R68, R69). -/
def laneSpare (die : Nat) (toDie : Bool) (s : State) : State :=
  let d := dieOf s die
  if toDie then
    if 0 < d.spareTx then raise 0x4206 [die] (updDie die (fun x => { x with spareTx := x.spareTx - 1 }) s)
    else updDie die (fun x => { x with dataTx := x.dataTx - 1 }) s
  else
    if 0 < d.spareRx then raise 0x4206 [die] (updDie die (fun x => { x with spareRx := x.spareRx - 1 }) s)
    else updDie die (fun x => { x with dataRx := x.dataRx - 1 }) s

/-- DIE_LINK_LANE_SPARE (R68). -/
def execDieLinkLaneSpare (die : Nat) (toDie : Bool) (s : State) : Host.Outcome State Fault Refusal := .next (laneSpare die toDie s)

/-! ### Power and temperature (R76, R77, R80, R81) -/

/-- INTERVAL of PRS_PWR_CAP in ticks. -/
def capInterval (s : State) : Nat := fld1 s 0x00200020 12 8

/-- A die's granted budget after an interval with mean power `p` in 0.1 W (R76); a hot die does not recover (R80). -/
def capStep (s : State) (p : Nat) (d : Die) : Nat :=
  let cap := 10 * fld s 0x00200020 0 8
  let hyst := 10 * fld s 0x00200020 8 4
  if cap < p then max (floorBudget s) (d.granted - 64)
  else if p + hyst < cap ∧ ¬ d.hot then min 1920 (d.granted + 64)
  else d.granted

/-- The power of one die over an interval. -/
def capDie (s : State) (p : Nat) (d : Die) : Die :=
  let atFloor := decide (d.granted ≤ floorBudget s) && decide (10 * fld s 0x00200020 0 8 < p)
  { d with
    measDw := p, granted := capStep s p d
    floorTicks := if atFloor then d.floorTicks + capInterval s else 0
    floorRaised := d.floorRaised && atFloor }

/-- The end of a measurement interval. -/
def powerCap (dws : List Nat) (s : State) : State :=
  if s.tick < s.press.intervalStart + capInterval s then s
  else s.mapPress fun p => { p with
    intervalStart := s.tick
    dies := p.dies.mapIdx fun i d => capDie s (dws.getD i 0) d }

/-- POWER_CAP_INTERVAL (R76). -/
def execPowerCapInterval (powerDw : List Nat) (s : State) : Host.Outcome State Fault Refusal := .next (powerCap powerDw s)

/-- A die that has run at its floor above the cap for 1,000 consecutive ticks (R77). -/
def capFloor (die : Nat) (s : State) : State :=
  let d := dieOf s die
  if 1000 ≤ d.floorTicks ∧ ¬ d.floorRaised then raise 0x4202 [die] (updDie die (fun x => { x with floorRaised := true }) s) else s

/-- CAP_FLOOR_EVENT (R77). -/
def execCapFloorEvent (die : Nat) (s : State) : Host.Outcome State Fault Refusal := .next (capFloor die s)

/-- The mesh neighbours of a sensor: the 64 sensors stand 8 by 8. -/
def meshNeighbours (i : Nat) : List Nat :=
  (if 8 ≤ i then [i - 8] else []) ++ (if i < 56 then [i + 8] else []) ++ (if i % 8 ≠ 0 then [i - 1] else []) ++
    (if i % 8 ≠ 7 then [i + 1] else [])

/-- Is a reading more than 10 °C from the mean of its valid neighbours (R81)? -/
def offMean (d : Die) (rs : List Nat) (i : Nat) : Bool :=
  let ns := (meshNeighbours i).filter fun j => !d.excluded.contains j
  let k := ns.length
  let sum := sumNat (ns.map fun j => rs.getD j 0)
  let r := k * rs.getD i 0
  k != 0 && decide (10 * k < (r - sum) + (sum - r))

/-- Compare every sensor with its neighbours: one that is off for three readings is excluded (R81). -/
def sensorStep (die : Nat) (rs : List Nat) (s : State) : State :=
  let d := dieOf s die
  let bad := (List.range 64).map fun i => if offMean d rs i then d.sensorBad.getD i 0 + 1 else 0
  let out := (List.range 64).filter fun i => decide (3 ≤ bad.getD i 0) && !d.excluded.contains i
  out.foldl (fun a i => raise 0x4207 [die, i] a)
    (updDie die (fun x => { x with sensorBad := bad, excluded := sortRising (x.excluded ++ out) }) s)

/-- The hottest valid sensor: index and reading, the lower index on a tie. -/
def hottest (d : Die) (rs : List Nat) : Nat × Nat :=
  ((List.range 64).filter fun i => !d.excluded.contains i).foldl (fun b i => if b.2 < rs.getD i 0 then (i, rs.getD i 0) else b) (0, 0)

/-- The temperature rules of R80 and the thermal trip of R519. -/
def tempStep (die : Nat) (rs : List Nat) (s : State) : State :=
  let d := dieOf s die
  let h := hottest d rs
  let stop := decide (103 ≤ h.2) && !d.overTemp
  let s1 := updDie die (fun x => { x with
    maxC := h.2, hotSensor := h.1
    hot := decide (100 ≤ h.2) || (x.hot && decide (95 < h.2))
    overTemp := decide (103 ≤ h.2) || (x.overTemp && decide (95 < h.2)) }) s
  let s2 := if stop then requeueWhere (fun u => u.die == die) (raise 0x8204 [die] s1) else s1
  if 108 ≤ h.2 ∧ d.maxC < 108 then raise 0xCF02 [die, h.1] s2 else s2

/-- TEMP_SENSOR_READ (R80): the 64 sensors of a die, in °C. -/
def execTempSensorRead (die : Nat) (readings : List Nat) (s : State) : Host.Outcome State Fault Refusal :=
  .next (tempStep die readings (sensorStep die readings s))

/-- RAIL_DROOP (R81): issue stalls for 16 cycles of this window. -/
def execRailDroop (die : Nat) (s : State) : Host.Outcome State Fault Refusal :=
  .next (updDie die (fun d => { d with droop := true }) s)

/-! ### Retirement and quarantine (R70 to R74, R510) -/

/-- A retirement takes effect: a spare takes over, and the units staged in the cluster are re-queued (R70). -/
def retirementEffect (die cluster : Nat) (core : Option Nat) (s : State) : State :=
  let requeue := requeueWhere fun u => u.die == die && u.cluster == cluster
  match core with
  | none => requeue (retireCluster die cluster s)
  | some c =>
    let k := coreKey die cluster c
    if (coreHist s k).state ≠ 2 then s
    else if (coreHist s k).spared then requeue s
    else requeue (takeSpare die cluster (updCore k (fun h => { h with spared := true }) s))

/-- RETIREMENT_APPLY (R70): of a core, or of a whole cluster. -/
def execRetirementApply (die cluster : Nat) (core : Option Nat) (s : State) : Host.Outcome State Fault Refusal :=
  .next (retirementEffect die cluster core s)

/-- FLT_QUARANTINE in ticks: a value below 500,000 is treated as 500,000. -/
def quarantineTicks (s : State) : Nat := max 500000 (regVal s 0x00340010)

/-- A fenced core returns to use when its quarantine has passed, unless it was retired (R510, R531). -/
def quarantineEnd (die cluster core : Nat) (s : State) : State :=
  let k := coreKey die cluster core
  let h := coreHist s k
  if h.state = 1 ∧ h.fenceTick + quarantineTicks s ≤ s.tick then
    updDie die (fun d => { d with coresUsed := mupdD d.coresUsed cluster 0 (· - 1) })
      (updCore k (fun x => { x with state := 0, spared := false }) s)
  else s

/-- QUARANTINE_END (R510). -/
def execQuarantineEnd (die cluster core : Nat) (s : State) : Host.Outcome State Fault Refusal :=
  .next (quarantineEnd die cluster core s)

/-- PRESS_ENABLE_WRITE (R85): pressing follows the field from the next edge. -/
def execPressEnableWrite (on : Bool) (s : State) : Host.Outcome State Fault Refusal :=
  .next (fldSet 0x00200004 0 1 (b2n on) s)

end Sys2Proof.Machine
end

