-- ==== Sys2Proof/Machine/BruRows.lean ====
section
/-! DEFINITION. Bring-up (16): starts, what each keeps, the steps and their outcomes, Press waves, stepped mode, and the boot ROM's
choice of a firmware slot (R571 to R575). -/

namespace Sys2Proof.Machine

open Sys2Proof

/-! ### Firmware images (R571, R572, R574) -/

/-- The 4 KiB header of an image. -/
def FwSlot.header (x : FwSlot) : List Byte := cellRead x.data 0 4096
/-- VERSION. -/
def FwSlot.version (x : FwSlot) : Nat := leAt x.header 8 4
/-- LENGTH. -/
def FwSlot.length (x : FwSlot) : Nat := leAt x.header 16 4
/-- IMAGE_DIGEST: SHAKE256 over header bytes 0 to 2,815. -/
def FwSlot.digest (x : FwSlot) : List Byte := shake256 (x.header.take 2816) 32

/-- The first check that an image fails, counted from 1: MAGIC, FORMAT, reserved fields, LENGTH, BODY_DIGEST, KEY_ID, signature,
CONTRACT_LEVEL. -/
def FwSlot.fault (x : FwSlot) : Option Nat :=
  let h := x.header
  let zero := fun (off n : Nat) => leAt h off n == 0
  if leAt h 0 4 ≠ 0x56464957 then some 1
  else if leAt h 4 2 ≠ 1 then some 2
  else if ¬ (zero 6 2 && zero 13 3 && zero 20 4 && zero 64 2752) then some 3
  else if x.length = 0 ∨ 134213632 < x.length then some 4
  else if slice h 24 32 ≠ shake256 (cellRead x.data 4096 x.length) 32 then some 5
  else if leAt h 56 8 ≠ Config.firmwareKey.2 then some 6
  else if ¬ Config.falconVerify Config.firmwareKey.1 (h.take 2816) (slice h 2816 1280) then some 7
  else if byteAt h 12 < 1 then some 8
  else none

/-- A firmware slot. -/
def fwSlotOf (s : State) (k : Nat) : FwSlot := vget s.mgt.slots k FwSlot.empty

/-- Set the state of a slot. -/
def fwState (k st : Nat) (s : State) : State := s.mapMgt fun g => { g with slots := vupd g.slots k fun x => { x with state := st } }

/-- The digest of the stored manifest, zero where none is stored. -/
def manifestDigest (s : State) : List Byte :=
  match s.bru.manifest with
  | some m => shake256 m 32
  | none => List.replicate 32 0

/-- The BOOT record: cause (0 cold, 1 warm, plus 2 where the start fell back), active slot, FW_DIGEST, manifest digest (R521). -/
def bootRecord (s : State) : State :=
  let cause := b2n s.bru.warm + 2 * b2n s.mgt.fellBack
  ledgerWrite 4 0 ([byte cause, byte s.mgt.active] ++ (fwSlotOf s s.mgt.active).digest ++ manifestDigest s) s

/-- Firmware starts from a slot. -/
def startFrom (k : Nat) (trial : Bool) (s : State) : State :=
  let s1 := s.mapMgt fun g => { g with active := k, trial := trial, dead := false }
  bootRecord (s1.mapMgt fun g => { g with fwVersion := (fwSlotOf s1 k).version })

/-- The boot ROM's choice at step 2: a PENDING slot on trial, else the active slot, else the other; a slot that fails its check is
BAD. None verifies: the device is dead and in recovery (R574, R575). -/
def bootRom (s : State) : State :=
  let a := s.mgt.active
  let o := 1 - a
  let ok := fun (k : Nat) => (fwSlotOf s k).fault.isNone
  let back := fun (x : State) => x.mapMgt fun g => { g with fellBack := true }
  let s1 := if (fwSlotOf s o).state = 5 ∧ ¬ ok o then back (fwState o 3 s) else s
  if (fwSlotOf s o).state = 5 ∧ ok o then startFrom o true s
  else if ok a then startFrom a false (fwState a 4 s1)
  else
    let s2 := fwState a 3 s1
    if ok o then startFrom o false (fwState o 4 s2)
    else (fwState o 3 s2).mapMgt fun g => { g with dead := true, recovery := true }

/-! ### Starts (R533) -/

/-- A start while a slot runs on trial falls back: the slot returns to VERIFIED and the previous one is active again (R574). -/
def Mgt.fallBack (g : Mgt) : Mgt :=
  if g.trial then { g with active := 1 - g.active, trial := false, fellBack := true, slots := vupd g.slots g.active fun x => { x with state := 2 } }
  else { g with fellBack := false }

/-- What every start keeps: non-volatile storage, fused values, what the model has recorded as output, and the commands that wait. -/
def startBase (s : State) : State :=
  let r := State.reset
  let g := s.mgt.fallBack
  { r with
    pending := s.pending
    free := s.free
    out := s.out
    host := { r.host with macLo := s.host.macLo, macHi := s.host.macHi }
    sec := { r.sec with anchor := s.sec.anchor, anchorKey := s.sec.anchorKey, chain := s.sec.chain, enrolled := s.sec.enrolled }
    flt := { r.flt with
      ledgerC := s.flt.ledgerC, ledgerF := s.flt.ledgerF, ledgerFFull := s.flt.ledgerFFull, barnSeq := s.flt.barnSeq
      holdUs := s.flt.holdUs, holdupPct := s.flt.holdupPct }
    opt := { r.opt with phys := r.opt.phys.mapIdx fun i x =>
      let o := vget s.opt.phys i PhysLane.fresh
      { x with bolTx := o.bolTx, bolLo := o.bolLo, retired := o.retired } }
    mgt := { r.mgt with
      deviceId := g.deviceId, boot := g.boot, ownerLock := g.ownerLock, slots := g.slots, active := g.active, fellBack := g.fellBack }
    bru := { r.bru with manifest := s.bru.manifest, softCores := s.bru.softCores, softClusters := s.bru.softClusters } }

/-- The bytes of DRAM in the Barn's window. -/
def barnWindow (m : List Host.Cell) : List Host.Cell := m.filter fun c => decide (0xD480000000 ≤ c.1) && decide (c.1 < 0xD680000000)

/-- Begin a step: for step 9 line keys are enabled and every manifest port with a partner begins to pair, and the pair wait runs
(R547); step 10 is the check. -/
def startStep (n : Nat) (s : State) : State :=
  let s1 := s.mapBru fun b => { b with step := n, stepTick := s.tick, lastStep := n, result := 1, detail := 0 }
  if n = 10 then stepTen s1
  else if n = 9 then
    let s2 := fldSet 0x00100004 0 1 1 (s1.mapBru fun b => { b with waiting := true })
    let s3 := (List.range 4).foldl (fun a p => if hasPartner a p then beginPairing p a else a) s2
    if fld s3 0x00380018 0 16 = 0 then stepTen s3 else s3
  else if n = 4 then s1.mapBru fun b => { b with wave := 0, waveDie := 0 }
  else s1

/-- A cold start: power-up, or RESET_N held low. DRAM is lost but for the VALID captures of the Barn while power is held. The device
draws a START_ID (R412). -/
def coldStart (powerHeld : Bool) (s : State) : State :=
  let s1 := startBase s
  let (v, s2) := s1.takeFree
  let s3 : State := { s2 with sec := { s2.sec with startId := v % 2 ^ 64 } }
  if ¬ powerHeld then s3
  else
    let s4 := s3.mapFlt fun f => { f with barn := s.flt.barn.map fun b => if b.valid then b else BarnSlot.empty }
    s4.mapMem fun m => { m with dram := barnWindow s.mem.dram }

/-- COLD_START (R533). -/
def execColdStart (powerHeld : Bool) (s : State) : Host.Outcome State Fault Refusal := .next (coldStart powerHeld s)

/-- The live instances end with DEVICE_FAULT at a warm start (R424, R578): every queue is empty by then, and every partner link-down,
so that their ABORTs wait for the host link and their abort notices for the pairing (R601). -/
def startAborts (s : State) : State :=
  let s0 := { s with qos := State.reset.qos }
  let s1 := (s0.mapHost fun h => { h with linkUp := false, doneWait := [] }).mapSites fun x => { x with partners := Sites.reset.partners }
  s1.coll.insts.foldl (fun a e => fatalAbort e.2 a) s1

/-- A stream context as DRAM keeps it: nothing held, refused or kept for a resend. -/
def StreamCtx.stored (tick : Nat) (c : StreamCtx) : StreamCtx :=
  { c with held := [], nack := none, refused := [], retained := [], passedLaunch := [], ackFrom := tick, ackOwed := false }

/-- The blends of a context and class as DRAM keeps them; on a line no block coded with the previous one is left. -/
def BSlot.stored (ctx : Nat) (b : BSlot) : BSlot :=
  { BSlot.zero with current := b.current, previous := if ctx < 2 then b.previous else none, staged := b.staged, retire := b.retire && decide (ctx < 2) }

/-- What the device tables and the Silo window of DRAM hold across a warm start (R274, R533): groups, ended instances, programs, streams,
blends and Silo records. -/
def keepTables (old s : State) : State :=
  let a := startAborts old
  { s with
    coll := { s.coll with
      groups := old.coll.groups, ended := a.coll.ended, programs := old.coll.programs, nextOrder := old.coll.nextOrder
      nextCommit := old.coll.nextCommit }
    host := { s.host with streams := mmap old.host.streams fun _ c => c.stored old.tick, doneWait := a.host.doneWait }
    cmp := mmap old.cmp fun k b => b.stored (k / 8)
    sites := { s.sites with silo := a.sites.silo, partners := a.sites.partners }
    flt := { s.flt with ledgerC := a.flt.ledgerC, ledgerF := a.flt.ledgerF, ledgerFFull := a.flt.ledgerFFull, seq := a.flt.seq } }

/-- A warm start at the edge that was asked for: it keeps DRAM, with the device tables in it, the region table, lane tuning, the straps
and the Barn besides, and the start counters; it begins at step 2. -/
def warmStart (s : State) : State :=
  let s1 := startBase s
  let (v, s2) := s1.takeFree
  let kept := s.regs.filter fun e => decide (0x00380040 ≤ e.1) && decide (e.1 ≤ 0x0038004C)
  let s3 : State := { s2 with
    tick := s.tick
    regs := kept
    sec := { s2.sec with startId := v % 2 ^ 64 }
    press := { s2.press with cores := s.press.cores }
    mem := { s2.mem with dram := s.mem.dram, poison := s.mem.poison, regions := s.mem.regions, channels := s.mem.channels }
    flt := { s2.flt with
      barn := s.flt.barn, vintnerActive := s.flt.vintnerActive, vintnerSingle := s.flt.vintnerSingle,
      vintnerStandby := s.flt.vintnerStandby }
    opt := { s2.opt with
      channels := s.opt.channels
      phys := s2.opt.phys.mapIdx fun i x =>
        let o := vget s.opt.phys i PhysLane.fresh
        { x with txChannel := o.txChannel, loChannel := o.loChannel, locked := o.locked } }
    line := { s2.line with pmStart := s.tick }
    time := { s2.time with outSince := some s.tick }
    mgt := { s2.mgt with boot := (s2.mgt.boot + 1) % 2 ^ 16, telemetry := s.mgt.telemetry }
    bru := { s2.bru with straps := s.bru.straps, stepped := s.bru.stepped, warm := true, memFull := s.bru.memFull, memQuick := s.bru.memQuick } }
  startStep 2 (bump 0x00380040 (keepTables s s3))

/-- WARM_START (R533): the start that sys.reset or fw.activate asked for, at the next edge. -/
def execWarmStart (s : State) : Host.Outcome State Fault Refusal := .next (if s.mgt.startNext then warmStart s else s)

/-! ### The start-up set (R546) -/

/-- The start-up page of a port's lane: steered to the port in every slot, its control tributary in column 0 of each. -/
def startPage (port lane far rate : Nat) : List Byte :=
  let head := beBytes 4 (lane * 2 ^ 12 + rate * 2 ^ 15) ++ List.replicate 12 0
  let slots := ((List.range 8).map fun _ => beBytes 4 (port + far * 4)).flatten
  let cols := ((List.range 8).map fun _ => beBytes 2 (port + 2 * 2 ^ 10) ++ List.replicate 126 0).flatten
  pageWith 0 0 lane (head ++ slots ++ cols)

/-- The start-up set takes effect on every lane that is available (R545 phase 4). -/
def startupSet (s : State) : State :=
  let m := manifestOf s
  (List.range 4).foldl (fun a p =>
    if ¬ hasPartner a p then a
    else
      let k := mfLane m p
      if ¬ a.bru.lanesUp.contains (laneOf a k).phys then a
      else
        updLane k (fun l => { l with
          active := some (startPage p k (mfFar m p) (mfRate m p)), rate := mfRate m p, fec := mfCampus m p, txUp := true }) a) s

/-- Every lane tunes to the start-up channel of its port, the spare to that of port A (R545 phase 1); a warm start keeps its tuning. -/
def tuneLanes (s : State) : State :=
  let m := manifestOf s
  let chan := fun (k : Nat) =>
    if k = 4 ∧ ¬ (List.range 4).any (fun p => hasPartner s p && mfLane m p == 4) then mfChannel m 0
    else ((List.range 4).findSome? fun p => if hasPartner s p ∧ mfLane m p = k then some (mfChannel m p) else none).getD 0xFFFF
  if s.bru.warm ∨ s.bru.manifest.isNone then s
  else
    (List.range 5).foldl (fun a k =>
      let n := (laneOf a k).phys
      if (physOf a n).retired then a
      else
        updPhys n (fun x => { x with txChannel := chan k, loChannel := chan k })
          (a.mapOpt fun o => { o with channels := vupd o.channels k fun _ => chan k })) s

/-- Step 8 is done: lanes and spare as reported, tuned, unblanked and carrying the start-up set. -/
def opticsDone (r : StepReport) (s : State) : State :=
  let s1 := s.mapBru fun b => { b with lanesUp := sortRising r.lanes, spareUp := r.spare }
  let s2 := r.lanes.foldl (fun a n => updPhys n (fun x => { x with locked := true, upTick := some s.tick }) a) (tuneLanes s1)
  let s3 := fldSet 0x000CA004 0 1 1 (fldSet 0x00094004 0 2 3 s2)
  startupSet s3

/-! ### What each step leaves -/

/-- The soft repair map applied to the dies (R539, R71 to R74). -/
def applySoftMap (s : State) : State :=
  let s1 := s.bru.softClusters.foldl (fun a c =>
    updDie (c / 2 ^ 11) (fun d => if d.spareClusters = 0 then { d with lostClusters := d.lostClusters + 1 }
      else { d with spareClusters := d.spareClusters - 1 }) a) s
  s.bru.softCores.foldl (fun a k =>
    let die := k / 2 ^ 20
    let cl := k / 2 ^ 9 % 2 ^ 11
    if s.bru.softClusters.contains (die * 2 ^ 11 + cl) then a
    else updDie die (fun d => { d with coresUsed := mupdD d.coresUsed cl 0 fun n => min 16 (n + 1) }) a) s1

/-- A core that fails the self-test is retired into the soft repair map, with its Ledger record (R539). -/
def retireTested (s : State) (c : Nat × Nat × Nat) : State :=
  let k := coreKey c.1 c.2.1 c.2.2
  if s.bru.softCores.contains k then s
  else
    let s1 := updCore k (fun h => { h with state := 2 }) s
    let s2 := s1.mapBru fun b => { b with softCores := insertRising k b.softCores }
    takeSpare c.1 c.2.1 (ledgerWrite 7 0 (histBytes k (coreHist s2 k)) s2)

/-- A cluster that fails the self-test is retired, with a Ledger record that names it (R539). -/
def retireTestedCluster (s : State) (c : Nat × Nat) : State :=
  if s.bru.softClusters.contains (c.1 * 2 ^ 11 + c.2) then s
  else retireCluster c.1 c.2 (ledgerWrite 7 0 (histBytes (coreKey c.1 c.2 0) CoreHist.fresh) s)

/-- What the self-test of step 4 found. -/
def selfTestDone (r : StepReport) (s : State) : State :=
  let s1 := r.clusters.foldl retireTestedCluster (r.cores.foldl retireTested s)
  let s2 := bumpBy 0x0038004C (r.cores.length + r.clusters.length + r.sramRows) s1
  if r.selfTestBad then s2.mapBru fun b => { b with found := b.found ++ [⟨12, 0xFF, 0, 0⟩] } else s2

/-- The memory test zeroes what it tests: everything, but for the Barn's window while some capture is VALID (R527, R542). -/
def memTestDone (r : StepReport) (s : State) : State :=
  let quick := bit s 0x00300004 1
  let held := s.flt.barn.toList.any (·.valid)
  let s1 := s.mapMem fun m => { m with
    dram := if held then barnWindow m.dram else []
    poison := if held then m.poison.filter fun a => decide (0xD480000000 ≤ a) && decide (a < 0xD680000000) else [] }
  let s2 := bumpBy 0x00380048 r.repaired s1
  s2.mapBru fun b => { b with
    memFull := !quick, memQuick := quick, quick := quick, failChannels := r.failChannels.length
    found := b.found ++ r.failChannels.map fun c => ⟨11, c, 0, 0⟩ }

/-- Step 2 done: straps act, the boot ROM loads firmware, the host port is enabled and QUICK_TEST set (R534, R536, R543). -/
def bootDone (s : State) : State :=
  let rec_ := bitOf s.bru.straps 4
  let s1 := if rec_ then s.mapMgt fun g => { g with recovery := true } else bootRom s
  let quick := bitOf s.bru.straps 3 || (s.bru.manifest.any fun m => bitOf (mfield m 6 2) 0)
  let s2 := fldSet 0x00040004 0 2 3 (if quick then fldSet 0x00300004 1 1 1 s1 else s1)
  s2.mapFlt fun f => { f with vintnerUp := !s2.mgt.recovery }

/-- Step 3 done: the preferred reference is selected where it is good, links are trained, the soft map is applied. -/
def linksDone (r : StepReport) (s : State) : State :=
  let s1 := match preferred s with
    | some p => if s.time.xtalOk then s.mapTime fun t => { t with selectNext := some (p, false) } else s
    | none => s
  let s2 := r.links.foldl (fun a l => updDie l.1 (fun d => { d with dataTx := min 64 l.2.1, dataRx := min 64 l.2.2 }) a) s1
  applySoftMap (fldSet 0x00020004 0 1 1 s2)

/-- What a step that completed leaves behind. -/
def stepEffect (n : Nat) (r : StepReport) (s : State) : State :=
  match n with
  | 1 => s.mapBru fun b => { b with
      straps := r.straps % 32, stepped := bitOf r.straps 2 || decide (r.straps % 4 ≠ 0) }
  | 2 => bootDone s
  | 3 => linksDone r s
  | 4 => selfTestDone r s
  | 5 => (s.mapBru fun b => { b with packages := r.packages, dramGb := r.dramGb }).mapMem fun m =>
      { m with channels := (List.range 64).foldl (fun c i => mupdD c i Channel.fresh fun x => { x with trained := true }) m.channels }
  | 6 => memTestDone r s
  | 7 => s.mapMem fun m => { m with gleanStart := s.tick, gleanGroups := 0 }
  | 8 => opticsDone r s
  | _ => s

/-! ### The sequence (R535 to R541) -/

/-- Bound of a step in ticks, at a cold or a warm start. -/
def stepBound (s : State) (n : Nat) : Nat :=
  match n with
  | 1 => 25000
  | 2 | 3 => 750000
  | 4 => 4000000
  | 5 => if s.bru.warm ∧ s.mem.retrainWait.isEmpty then 50000 else 2000000
  | 6 => if bit s 0x00300004 1 then 20000000 else 105000000
  | 7 => 1000000
  | 8 => if s.bru.warm then 25000 else 10000000
  | _ => 0

/-- The step after one: a warm start leaves out the memory test. -/
def stepAfter (s : State) (n : Nat) : Nat := if n = 5 ∧ s.bru.warm then 7 else n + 1

/-- A step fails: the sequence stops and the device is NOT READY with reason STEP_FAILED (R537). -/
def stepFailed (detail : Nat) (s : State) : State :=
  let r : Reason := ⟨19, s.bru.step, 0, 0⟩
  bump 0x00380044 (s.mapBru fun b => { b with
    running := false, stopped := true, notReady := true, result := 3, detail := detail
    found := b.found ++ [r], reasons := b.reasons ++ [r], happened := [] })

/-- Does a report fail its step: a bound missed, no firmware slot that verifies, a link with fewer than 60 data lanes, a channel that
failed training? -/
def reportFails (r : StepReport) (s : State) : Bool :=
  let n := s.bru.step
  !r.ok || decide (s.bru.stepTick + stepBound s n < s.tick) ||
    (n == 3 && r.links.any fun l => decide (l.2.1 < 60) || decide (l.2.2 < 60)) || (n == 5 && !r.channels.isEmpty)

/-- Waves of step 4 still to begin. -/
def wavesLeft (s : State) : Bool := s.bru.step == 4 && decide (s.bru.wave < 16)

/-- The step in progress ends; in wave mode the next begins, in stepped mode from step 2 on it waits for a command. -/
def stepDone (r : StepReport) (s : State) : State :=
  let n := s.bru.step
  if ¬ s.bru.running ∨ s.flt.fatal ∨ 8 < n ∨ s.bru.result = 2 then s
  else if reportFails r s then stepFailed r.detail s
  else if wavesLeft s then
    if s.bru.stepped then (selfTestDone r s).mapBru fun b => { b with result := 2 } else s
  else
    let s0 := (stepEffect n r s).mapBru fun b => { b with result := 2, detail := r.detail, railsOk := r.railsOk }
    let s1 := s0.mapFlt fun f => { f with holdupPct := min 100 r.holdupPct, holdUs := min 65535 r.holdUs }
    if n = 2 ∧ s1.mgt.recovery then (if s1.mgt.dead then stepFailed 2 s1 else s1.mapBru fun b => { b with running := false })
    else if s1.bru.stepped ∧ 2 ≤ n then s1
    else startStep (stepAfter s1 n) s1

/-- BRINGUP_STEP_DONE (R536). -/
def execBringupStepDone (report : StepReport) (s : State) : Host.Outcome State Fault Refusal := .next (stepDone report s)

/-- Begin a Press wave in wave mode: the next one, 2 ms after the one before, with every Press rail within ±3% for 1 ms. -/
def pressWave (w : Nat) (railsOk : Bool) (s : State) : State :=
  let b := s.bru
  if ¬ b.running ∨ b.stepped ∨ b.step ≠ 4 ∨ b.wave ≠ w ∨ 15 < w ∨ ¬ railsOk ∨ (0 < w ∧ s.tick < b.waveTick + 1000) then s
  else s.mapBru fun x => { x with wave := w + 1, waveTick := s.tick, lastWave := w }

/-- PRESS_WAVE (R538). -/
def execPressWave (wave : Nat) (railsOk : Bool) (s : State) : Host.Outcome State Fault Refusal := .next (pressWave wave railsOk s)

/-- The die after one, among those enabled: the next die of the wave, or none. -/
def nextDie (s : State) (d : Nat) : Option Nat := (List.range 4).find? fun i => decide (d < i) && bitOf (diesEnabled s) i

/-- A write to BRU_STEP_CMD in stepped mode (R541): the next step, or the next wave of step 4; any other write is left unperformed and
counted. -/
def stepCommand (v : Nat) (s : State) : State :=
  let b := s.bru
  let step := v % 16
  let w := v / 16 % 16
  let d := v / 256 % 4
  let reject := bump 0x00340054 s
  if ¬ b.stepped ∨ ¬ b.running ∨ s.flt.fatal ∨ b.result = 1 ∨ b.step < 2 then reject
  else
    let waves := wavesLeft s
    let due := if waves then 4 else stepAfter s b.step
    if step ≠ due then reject
    else if step ≠ 4 then startStep step s
    else
      let s1 := if waves then s else startStep 4 s
      let c := s1.bru
      if w ≠ c.wave ∨ d ≠ c.waveDie ∨ (0 < w ∧ d = 0 ∧ s.tick < b.waveTick + 1000) then reject
      else
        let next := nextDie s1 d
        s1.mapBru fun x => { x with
          result := 1, lastStep := 4, lastWave := w, waveTick := if d = 0 then s.tick else x.waveTick
          wave := if next.isSome then w else w + 1, waveDie := next.getD 0 }

/-- STEP_COMMAND (R541). -/
def execStepCommand (value : Nat) (s : State) : Host.Outcome State Fault Refusal := .next (stepCommand value s)

/-- PAIR_WAIT_EXPIRE (R547): BRU_PAIR_WAIT.SECONDS after step 9 began the check starts. -/
def execPairWaitExpire (s : State) : Host.Outcome State Fault Refusal :=
  .next (if s.bru.waiting ∧ s.bru.stepTick + fld s 0x00380018 0 16 * 500000 ≤ s.tick then stepTen s else s)

/-- Write 1 to BRU_CTRL.RECHECK: the check runs at the next edge where R552 allows it. -/
def askRecheck (s : State) : State := s.mapBru fun b => { b with recheckNext := true }

/-- READINESS_RECHECK (R552). -/
def execReadinessRecheck (s : State) : Host.Outcome State Fault Refusal := .next (askRecheck s)

/-- Write 1 to BRU_CTRL.END_WAIT: the pair wait ends at the next edge. -/
def endPairWait (s : State) : State := s.mapBru fun b => { b with endWaitNext := true }

/-- PAIR_WAIT_END_WRITE (R547). -/
def execPairWaitEndWrite (s : State) : Host.Outcome State Fault Refusal := .next (endPairWait s)

end Sys2Proof.Machine
end

