-- ==== Sys2Proof/Machine/RegWrite.lean ====
section
/-! DEFINITION. Register writes, and register accesses as commands make them (R10 to R14, R437, R558, R566, R595). -/

namespace Sys2Proof.Machine

open Sys2Proof

/-! ### Fields under a mask -/

/-- Does a mask hold a 1 in any bit of a field? -/
def FieldDef.touched (f : FieldDef) (mask : Nat) : Bool := bitsOf mask f.lo f.w != 0

/-- A field of `new` where the mask is 1 and of `old` elsewhere. -/
def mergeBits (old new mask : Nat) : Nat := (new &&& mask) ||| (old - (old &&& mask))

/-- One field of a write (R10): the value so far and whether the write leaves something unchanged. -/
def writeField (value mask : Nat) (acc : Nat × Bool) (f : FieldDef) : Nat × Bool :=
  let old := bitsOf acc.1 f.lo f.w
  let v := bitsOf value f.lo f.w
  let m := bitsOf mask f.lo f.w
  if m = 0 then acc
  else match f.acc with
    | .ro => (acc.1, true)
    | .rc | .wo => acc
    | .w1c => (putBits acc.1 f.lo f.w (old - (old &&& (v &&& m))), acc.2)
    | .w1s => (putBits acc.1 f.lo f.w (old ||| (v &&& m)), acc.2)
    | .rw | .rwl =>
      let n := mergeBits old v m
      if f.min ≤ n ∧ n ≤ f.max then (putBits acc.1 f.lo f.w n, acc.2) else (acc.1, true)

/-- Thresholds of a class of casks, or of the ring or reorder area, in order: WARN < BP (< REFUSE) and HYST < WARN. -/
def threshOk (three : Bool) (v : Nat) : Bool :=
  decide (bitsOf v 0 8 < bitsOf v 8 8) && (!three || decide (bitsOf v 8 8 < bitsOf v 16 8)) && decide (bitsOf v 24 8 < bitsOf v 0 8)

/-- PERIOD of a pulse output from 1,000 ns to 10^12 ns, and WIDTH below it (R471). -/
def pulseOk (width period : Nat) : Bool := decide (1000 ≤ period) && decide (period ≤ 10 ^ 12) && decide (width < period)

/-- WIDTH and PERIOD of pulse output `k` as they would stand with one of its registers changed. -/
def pulseShape (s : State) (k off new : Nat) : Nat × Nat :=
  let at_ := fun o => if o = off then new else regVal s (pulseReg k o)
  (at_ 0x14, at_ 0xC + at_ 0x10 * 2 ^ 32)

/-- A field keeps its old value. -/
def keepField (old new lo w : Nat) : Nat × Bool := (putBits new lo w (bitsOf old lo w), true)

/-- Rules of single registers: the value that stands after a write of `new` over `old`, and whether the rule left something. -/
def registerRule (s : State) (a old new : Nat) : Nat × Bool :=
  let whole := fun (ok : Bool) => if ok then (new, false) else (old, true)
  match a with
  | 0x00040018 => whole (bitsOf new 0 16 != bitsOf new 16 16)
  | 0x0004001C =>
    if 2 < ((List.range 8).filter fun i => bitOf new i).length then keepField old new 0 8 else (new, false)
  | 0x00180010 | 0x00180014 => whole (threshOk false new)
  | 0x000CA00C => whole (decide (bitsOf new 8 8 < bitsOf new 0 8))
  | _ =>
    if (regIndex a 0x00180100 0x10 8).isSome then whole (threshOk true new)
    else if (regIndex a 0x000C0008 0x2000 5).isSome then
      let p := signExt 10 (bitsOf new 0 10)
      if p < -100 ∨ 30 < p then keepField old new 0 10 else (new, false)
    else if (regIndex a 0x001C1000 0x1000 5).isSome then
      if signExt 8 (bitsOf new 0 8) < -64 then keepField old new 0 8 else (new, false)
    else
      match regWindow a 0x00020200 0x20 4 with
      | some (k, off) =>
        if off = 0xC ∨ off = 0x10 ∨ off = 0x14 then let p := pulseShape s k off new; whole (pulseOk p.1 p.2) else (new, false)
      | none => (new, false)

/-! ### Scheduler settings (R437, R443) -/

/-- Is an address one of the standby registers of a scheduler? Scheduler and offset. -/
def standbyReg (a : Nat) : Option (Nat × Nat) :=
  match regWindow a 0x001C1000 0x1000 5 with
  | some (n, off) => if off = 0 ∨ (0x100 ≤ off ∧ off < 0x300 ∧ off % 0x20 ≤ 8) then some (n, off) else none
  | none => none

/-- The standby copy as a register holds it. -/
def standbyVal (s : State) (n off : Nat) : Nat :=
  let v := (schedOf s n).standby
  let q := (off - 0x100) / 0x20
  if off = 0 then packed [(0, 8, sgnField 8 v.overhead), (8, 9, v.quantum), (17, 1, b2n v.pool)]
  else if off % 0x20 = 0 then v.rates.getD q 0
  else if off % 0x20 = 4 then v.bursts.getD q 0
  else v.weights.getD q 0

/-- Settings with one register's value. -/
def QSettings.put (v : QSettings) (off x : Nat) : QSettings :=
  let q := (off - 0x100) / 0x20
  if off = 0 then { v with overhead := signExt 8 (bitsOf x 0 8), quantum := bitsOf x 8 9, pool := bitOf x 17 }
  else if off % 0x20 = 0 then { v with rates := v.rates.set q (bitsOf x 0 24) }
  else if off % 0x20 = 4 then { v with bursts := v.bursts.set q (bitsOf x 0 24) }
  else { v with weights := v.weights.set q (bitsOf x 0 8) }

/-- Change the standby copy of a scheduler. -/
def updStandby (n : Nat) (f : QSettings → QSettings) (s : State) : State :=
  s.mapQos fun v => vupd v n fun c => { c with standby := f c.standby }

/-- Writing 1 to QOS_CTRL.APPLY: every standby copy takes effect at the next edge. -/
def askApply (s : State) : State :=
  regSet 0x001C0004 (putBits (regVal s 0x001C0004) 1 1 1) (s.mapQos fun v => v.map fun c => { c with applyNext := true })

/-- QOS_APPLY (R437). -/
def execQosApply (s : State) : Host.Outcome State Fault Refusal := .next (askApply s)

/-! ### What a write does -/

/-- The value a write works on. -/
def heldVal (s : State) (a : Nat) : Nat :=
  match standbyReg a with
  | some (n, off) => standbyVal s n off
  | none => regVal s a

/-- Hold a register's new value. -/
def holdVal (a v : Nat) (s : State) : State :=
  match standbyReg a with
  | some (n, off) => updStandby n (fun x => x.put off v) s
  | none => regSet a v s

/-- Registers whose write acts at once and judges its own value: time source, pulse control, page command, bring-up control and
stepped mode. `v` is the value of the bits the mask holds, `full` the register with them. -/
def selfWrite (a v full : Nat) (s : State) : Option State :=
  match a with
  | 0x0002000C => some (sourceWrite full s)
  | 0x0009400C =>
    let p := bitsOf v 4 2
    some (match bitsOf v 0 4 with
      | 1 => requestRevert p s
      | 2 => standbyDiscard p s
      | 3 => reoffer p s
      | _ => s)
  | 0x00380004 =>
    let s1 := if bitOf v 0 then askRecheck s else s
    some (if bitOf v 1 then endPairWait s1 else s1)
  | 0x00380010 => some (stepCommand v s)
  | _ => (regIndex a 0x00020200 0x20 4).map fun k => pulseWrite k full s

/-- What changing a register brings about: the servo's enable, the end of pausing, the choice of a frequency source, and the
schedulers' standby copies. -/
def afterWrite (a v old new : Nat) (s : State) : State :=
  match a with
  | 0x00010004 => if bitsOf v 2 2 = 0 then s else selectSource (bitsOf v 2 2 - 1) s
  | 0x00020004 => if bitOf old 0 = bitOf new 0 then s else requalify s
  | 0x00180004 => if bitOf old 0 ∧ ¬ bitOf new 0 ∧ s.host.pfcSent then sendPfc 0 s else pfcFollow s
  | 0x001C0004 => if bitOf v 1 then askApply s else s
  | _ => s

/-- A write that nothing refuses, with the bits of W1C fields that hardware sets in the same clock, which remain set (R12). -/
def regPut (a value mask hw : Nat) (fs : List FieldDef) (s : State) : State :=
  let live := fs.filter fun f => f.acc != .ro && f.acc != .rc
  let v := sumNat (live.map fun f => (bitsOf value f.lo f.w &&& bitsOf mask f.lo f.w) * 2 ^ f.lo)
  let ro := fs.any fun f => f.acc == .ro && f.touched mask
  if ¬ live.any fun f => f.touched mask then (if ro then bump 0x00340054 s else s)
  else
    let old := heldVal s a
    let full := sumNat (live.map fun f => mergeBits (bitsOf old f.lo f.w) (bitsOf value f.lo f.w) (bitsOf mask f.lo f.w) * 2 ^ f.lo)
    match selfWrite a v full s with
    | some s1 => if ro then bump 0x00340054 s1 else s1
    | none =>
      let w := fs.foldl (writeField value mask) (old, false)
      let r := registerRule s a old w.1
      let set := sumNat ((fs.filter fun f => f.acc == .w1c).map fun f => bitsOf hw f.lo f.w * 2 ^ f.lo)
      let s1 := afterWrite a v old r.1 (holdVal a (r.1 ||| set) s)
      if w.2 ∨ r.2 then bump 0x00340054 s1 else s1

/-! ### Policed accesses (R566) -/

/-- One access of a request: write or read, address, value, mask. -/
abbrev RegAccess := Nat × Nat × Nat

/-- Why a write fails, if it does: an undefined address, a field only an owner may write, a locked field after the system lock, and
a revert that is not allowed (R14, R351, R566). -/
def writeFault (s : State) (owner : Bool) (a value mask : Nat) : Option Nat :=
  match regFields a with
  | none => some stRange
  | some fs =>
    if a < 0x100 then none
    else if ¬ owner ∧ fs.any (fun f => f.owner && f.touched mask) then some stNotPermitted
    else if s.mgt.sysLock ∧ fs.any (fun f => f.acc == .rwl && f.touched mask) then some stLocked
    else if a = 0x0009400C ∧ bitsOf (value &&& mask) 0 4 = 1 ∧ ¬ revertAllowed s (bitsOf (value &&& mask) 4 2) then some stNotReady
    else none

/-- One write of the host: refused without effect, counted when locked; ignored and counted in the direct window but for
MGT_NMI_SUMMARY (R558); performed otherwise. -/
def hostWrite (owner : Bool) (a value mask hw : Nat) (s : State) : State × Option Nat :=
  match writeFault s owner a value mask with
  | some e => (if e = stLocked then bump 0x00340054 s else s, some e)
  | none =>
    if a < 0x100 ∧ a ≠ 0x10 then (bump 0x00340054 s, none)
    else (regPut a value mask hw ((regFields a).getD []) s, none)

/-- REGISTER_WRITE (R10): `hw` holds the W1C bits that hardware sets in the same clock. -/
def execRegisterWrite (addr value mask hw : Nat) (owner : Bool) (s : State) : Host.Outcome State Fault Refusal :=
  .next (hostWrite owner addr value mask hw s).1

/-- A read whose value is given out. -/
def readOut (a : Nat) (s : State) : State :=
  match regRead s a with
  | some v => readEffect a (s.emit (.answer [v]))
  | none => s.emit .nack

/-- RC_COUNTER_READ (R13): counter at an address; `coincide` says that it is incremented in the same clock, and holds 1 then. -/
def execRcCounterRead (addr : Nat) (coincide : Bool) (s : State) : Host.Outcome State Fault Refusal :=
  .next (if isRc addr then (let s1 := readOut addr s; if coincide then bump addr s1 else s1) else s)

/-- LATCHING_READ (R455). -/
def execLatchingRead (addr : Nat) (s : State) : Host.Outcome State Fault Refusal := .next (readOut addr s)

/-- The accesses of reg.read in order, up to the first that fails: values read, and the index of the failing access. -/
def readAll : Nat → List Nat → State → List Nat × Option Nat × State
  | _, [], s => ([], none, s)
  | i, a :: l, s =>
    match regRead s a with
    | none => ([], some i, s)
    | some v => let r := readAll (i + 1) l (readEffect a s); (v :: r.1, r.2.1, r.2.2)

/-- The accesses of reg.write in order, up to the first that fails: its index and status. -/
def writeAll (owner : Bool) : Nat → List RegAccess → State → Option (Nat × Nat) × State
  | _, [], s => (none, s)
  | i, (a, v, m) :: l, s =>
    match hostWrite owner a v m 0 s with
    | (s1, some e) => (some (i, e), s1)
    | (s1, none) => writeAll owner (i + 1) l s1

/-- reg.read. -/
def regReadCmd (as : List Nat) (s : State) : CmdRes :=
  if as.isEmpty ∨ 64 < as.length then refuse stMalformed s
  else
    let r := readAll 0 as s
    let data := (r.1.map (beBytes 4)).flatten
    match r.2.1 with
    | none => doneWith data r.2.2
    | some i => ⟨stRange, i, data, r.2.2, false⟩

/-- reg.write. -/
def regWriteCmd (owner : Bool) (ws : List RegAccess) (s : State) : CmdRes :=
  if ws.isEmpty ∨ 64 < ws.length then refuse stMalformed s
  else
    let r := writeAll owner 0 ws s
    match r.1 with
    | none => done r.2
    | some (i, e) => ⟨e, i, [], r.2, false⟩

/-- A reg.read inside the direct window is answered by the host port whatever the other mailboxes and the Vintner do (R558). -/
def windowRead (m : Nat) (as : List Nat) (s : State) : State :=
  let x := mbxOf s m
  if x.waiting ∧ ¬ x.deferred ∧ x.code = 0x1001 ∧ (stateForbids s 0x1001).isNone then
    let r := regReadCmd as s
    mbxAnswer m r.status r.detail r.data r.state
  else s

/-- REG_READ (R566). -/
def execRegRead (mbx : Nat) (addrs : List Nat) (s : State) : Host.Outcome State Fault Refusal :=
  .next (if addrs ≠ [] ∧ addrs.all (fun a => decide (a < 0x100)) ∧ ¬ runsNow s mbx 0x1001 then windowRead mbx addrs s
    else runCmdWith true mbx 0x1001 (fun _ _ a => regReadCmd addrs a) s)

/-- REG_WRITE (R566). -/
def execRegWrite (mbx : Nat) (writes : List RegAccess) (s : State) : Host.Outcome State Fault Refusal :=
  .next (runCmdWith true mbx 0x1002 (fun role _ a => regWriteCmd (role == 1) writes a) s)

end Sys2Proof.Machine
end

