-- ==== Sys2Proof/Machine/MbxSec.lean ====
section
/-! DEFINITION. Mailbox commands of the sec., tim., qos. and clk. families (R410, R411, R415, R417 to R421, R423, R428, R437, R442,
R447, R462). -/

namespace Sys2Proof.Machine

open Sys2Proof

/-! ### The owner anchor and enrolment (R410, R411) -/

/-- May a certificate be an anchor: KIND 1, issuing, self-signed? -/
def anchorOk (c : List Byte) : Bool := certForm c && certKind c == 1 && bitOf (certUsage c) 0 && certSigned (certKey c) c

/-- Hold an anchor: its digest, and its key for a later replacement; the change is recorded (KIND 6), and readiness may have changed. -/
def holdAnchor (c : List Byte) (s : State) : State :=
  let d := shake256 c 32
  let s1 := s.mapSec fun k => { k with anchor := some d, anchorKey := certKey c }
  happenedNow 5 (happenedNow 1 (ledgerWrite 6 0 ([2] ++ d) s1))

/-- sec.anchor.install: once. -/
def anchorInstall (cert : List Byte) (s : State) : CmdRes :=
  if s.sec.anchor.isSome then refuse stBusy s
  else if ¬ anchorOk cert then refuse stInvalid s
  else done (raise 0x1A03 [] (holdAnchor cert s))

/-- SEC_ANCHOR_INSTALL (R410). -/
def execSecAnchorInstall (mbx : Nat) (cert : List Byte) (s : State) : Host.Outcome State Fault Refusal :=
  .next (runCmd mbx 0x0901 (fun _ _ a => anchorInstall cert a) s)

/-- sec.anchor.replace: the new anchor certificate and the current anchor key's signature over it, in a region. -/
def anchorReplace (region off len : Nat) (s : State) : CmdRes :=
  match regionArg s region off len 4424 4424 with
  | .error e => refuse e s
  | .ok l =>
    let cert := l.take 3144
    if ¬ anchorOk cert ∨ ¬ Config.falconVerify s.sec.anchorKey cert (l.drop 3144) then refuse stInvalid s else done (holdAnchor cert s)

/-- SEC_ANCHOR_REPLACE (R410). -/
def execSecAnchorReplace (mbx region off len : Nat) (s : State) : Host.Outcome State Fault Refusal :=
  .next (runCmd mbx 0x0902 (fun _ _ a => anchorReplace region off len a) s)

/-- What sec.enrol.request returns: the public key and DEVICE_ID, signed. -/
def enrolData (s : State) : List Byte :=
  let m := fixLen 1793 Config.identityKey ++ ownId s
  m ++ ownSign m

/-- SEC_ENROL_REQUEST (R411). -/
def execSecEnrolRequest (mbx : Nat) (s : State) : Host.Outcome State Fault Refusal :=
  .next (runCmd mbx 0x0903 (fun _ _ a => doneWith (enrolData a) a) s)

/-- sec.enrol.install: a device certificate with its chain, in a region. -/
def enrolInstall (region off len : Nat) (s : State) : CmdRes :=
  match regionArg s region off len 1 9432 with
  | .error e => refuse e s
  | .ok l =>
    let leaf := chainLeaf l
    if (chainFault s s.sec.anchor 3 10 l).isSome ∨ certSubject leaf ≠ ownId s ∨ certKey leaf ≠ fixLen 1793 Config.identityKey then
      refuse stInvalid s
    else done (happenedNow 2 (s.mapSec fun k => { k with chain := chunks 3144 l, enrolled := true }))

/-- SEC_ENROL_INSTALL (R411). -/
def execSecEnrolInstall (mbx region off len : Nat) (s : State) : Host.Outcome State Fault Refusal :=
  .next (runCmd mbx 0x0904 (fun _ _ a => enrolInstall region off len a) s)

/-! ### Attestation (R417) -/

/-- Bytes 0 to 255 of the report. -/
def attestReport (nonce : List Byte) (s : State) : List Byte :=
  padTo 256 (beBytes 4 0x56415452 ++ beBytes 2 1 ++ [0, 0] ++ ownId s ++ fixLen 32 nonce ++ beBytes 8 s.tick ++ beBytes 12 (ledgerTime s) ++
    beBytes 4 s.mgt.fwVersion ++ (fwSlotOf s s.mgt.active).digest ++ fixLen 32 Config.bootDigest ++ manifestDigest s ++
    fixLen 32 (s.sec.anchor.getD []) ++ fixLen 32 s.flt.ledgerC.chain ++
    [1, byte (1 + 2 * b2n s.mgt.ownerLock + 4 * b2n s.bru.ready)])

/-- sec.attest: report, signature and the device certificate chain, written to a region. -/
def attest (nonce : List Byte) (region off : Nat) (s : State) : CmdRes :=
  if nonce.length ≠ 32 then refuse stMalformed s
  else
    let r := attestReport nonce s
    regionOut region off (r ++ ownSign r ++ ownChain s) s

/-- SEC_ATTEST (R417). -/
def execSecAttest (mbx : Nat) (nonce : List Byte) (region off : Nat) (s : State) : Host.Outcome State Fault Refusal :=
  .next (runCmd mbx 0x0905 (fun _ _ a => attest nonce region off a) s)

/-! ### sec.pair.restart (R415) -/

/-- A paired port starts a new pairing at the host's word. -/
def pairRestart (port : Nat) (s : State) : CmdRes :=
  if 4 ≤ port then refuse stRange s
  else if (keysOf s port).st ≠ 4 ∨ ¬ bit s 0x00100004 0 then refuse stNotReady s
  else done (beginPairing port s)

/-- SEC_PAIR_RESTART (R415). -/
def execSecPairRestart (mbx port : Nat) (s : State) : Host.Outcome State Fault Refusal :=
  .next (runCmd mbx 0x0906 (fun _ _ a => pairRestart port a) s)

/-! ### The utility engine (R418 to R421, R423) -/

/-- A range of a user region: handle, offset, length. -/
abbrev RegionRange := Nat × Nat × Nat

/-- Does a request keep the limits of R420? -/
def utilLimits (inp aad out : Nat) : Bool := decide (inp ≤ 16777216) && decide (aad ≤ 65536) && decide (1 ≤ out) && decide (out ≤ 65536)

/-- Can an output of a length be written: a region that is live, large enough, and not named by an instance in flight (R277)? -/
def outFault (s : State) (h off n : Nat) : Option Nat :=
  match regionOf s h with
  | none => some stRange
  | some r => if r.size < off + n then some stLength else if regionInUse s h then some stBusy else none

/-- What an operation makes of its input and additional data: the output and what the response carries, or none where the tag fails. -/
abbrev UtilOp := List Byte → List Byte → Option (List Byte × List Byte)

/-- One operation: input and additional data from regions, output to a region. `fault` is the engine's lockstep pair disagreeing;
`outLen` is the output's length. -/
def utilRun (inp aad : RegionRange) (outH outOff outLen : Nat) (fault : Bool) (f : UtilOp) (s : State) : CmdRes :=
  match regionArg s inp.1 inp.2.1 inp.2.2 0 16777216, regionArg s aad.1 aad.2.1 aad.2.2 0 65536, outFault s outH outOff outLen with
  | .error e, _, _ => refuse e s
  | _, .error e, _ => refuse e s
  | _, _, some e => refuse e s
  | .ok i, .ok a, none =>
    if fault then refuse 0x0902 s
    else
      match f i a with
      | none => refuse 0x0901 (bump 0x00100060 s)
      | some (o, d) => doneWith d (bump 0x0010005C (regionWrite outH outOff o s))

/-- A utility request: firmware claims the engine for one operation and releases it; while another holds it, the request waits with
its claim pending. A request outside a limit is counted and claims nothing. -/
def utilCmd (mbx code : Nat) (limits : Bool) (f : State → CmdRes) (s : State) : State :=
  if runsNow s mbx code ∧ (stateForbids s code).isNone ∧ limits ∧ s.sec.uce.owner ≠ 0 ∧ s.sec.uce.owner ≠ 3 then
    updUce (fun u => u.claim 3 s.tick) s
  else
    runCmdWith true mbx code (fun _ _ a =>
      if ¬ limits then refuse stLength (bump 0x00100068 a)
      else
        let b := if a.sec.uce.owner = 3 then a else updUce (fun u => u.claim 3 a.tick) a
        let r := f b
        { r with state := updUce (fun u => u.pass r.state.tick) r.state }) s

/-- SEC_UTIL_GCM_SEAL (R420): the tag is the response's data. -/
def execSecUtilGcmSeal (mbx : Nat) (key nonce : List Byte) (inp aad : RegionRange) (outH outOff : Nat) (fault : Bool) (s : State) :
    Host.Outcome State Fault Refusal :=
  .next (utilCmd mbx 0x0907 (utilLimits inp.2.2 aad.2.2 1) (fun a =>
    if key.length ≠ 32 ∨ nonce.length ≠ 12 then refuse stMalformed a
    else utilRun inp aad outH outOff inp.2.2 fault (fun i x => let r := gcmSeal key nonce x i; some (r.1, r.2)) a) s)

/-- SEC_UTIL_GCM_OPEN (R421). -/
def execSecUtilGcmOpen (mbx : Nat) (key nonce tag : List Byte) (inp aad : RegionRange) (outH outOff : Nat) (fault : Bool) (s : State) :
    Host.Outcome State Fault Refusal :=
  .next (utilCmd mbx 0x0908 (utilLimits inp.2.2 aad.2.2 1) (fun a =>
    if key.length ≠ 32 ∨ nonce.length ≠ 12 ∨ tag.length ≠ 16 then refuse stMalformed a
    else utilRun inp aad outH outOff inp.2.2 fault (fun i x => (gcmOpen key nonce x i tag).map fun o => (o, [])) a) s)

/-- SEC_UTIL_CTR (R420): the 16 B counter block increments as a 128-bit integer. -/
def execSecUtilCtr (mbx : Nat) (key counter : List Byte) (inp : RegionRange) (outH outOff : Nat) (fault : Bool) (s : State) :
    Host.Outcome State Fault Refusal :=
  .next (utilCmd mbx 0x0909 (utilLimits inp.2.2 0 1) (fun a =>
    if key.length ≠ 32 ∨ counter.length ≠ 16 then refuse stMalformed a
    else utilRun inp (inp.1, inp.2.1, 0) outH outOff inp.2.2 fault (fun i _ => some (ctr128 key counter i, [])) a) s)

/-- SEC_UTIL_SHAKE (R420). -/
def execSecUtilShake (mbx : Nat) (inp : RegionRange) (outH outOff outLen : Nat) (fault : Bool) (s : State) :
    Host.Outcome State Fault Refusal :=
  .next (utilCmd mbx 0x090A (utilLimits inp.2.2 0 outLen) (fun a =>
    utilRun inp (inp.1, inp.2.1, 0) outH outOff outLen fault (fun i _ => some (shake256 i outLen, [])) a) s)

/-! ### tim.step and clk.select -/

/-- tim.step (R462): to an absolute value, or by the mean of the samples held. -/
def timStep (toSource : Bool) (value : Nat) (s : State) : CmdRes :=
  if ¬ toSource then done (s.mapTime fun t => { t with stepTo := some (value % 2 ^ 64), stepBy := none })
  else if s.time.samples.length < qualCount s then refuse stNotReady s
  else done (s.mapTime fun t => { t with stepTo := none, stepBy := some (meanOf (t.samples.take (qualCount s))) })

/-- TIM_STEP (R462). -/
def execTimStep (mbx : Nat) (toSource : Bool) (value : Nat) (s : State) : Host.Outcome State Fault Refusal :=
  .next (runCmd mbx 0x0A01 (fun _ _ a => timStep toSource value a) s)

/-- clk.select (R447): 0 REFA, 1 REFB, 2 the internal clock; a source that is not good is counted. -/
def clkSelect (source : Nat) (s : State) : CmdRes :=
  if 2 < source then refuse stRange s
  else if sourceGood s source then done (selectSource source s)
  else refuse stNotReady (selectSource source s)

/-- CLK_SELECT (R447). -/
def execClkSelect (mbx source : Nat) (s : State) : Host.Outcome State Fault Refusal :=
  .next (runCmdWith true mbx 0x0F01 (fun _ _ a => clkSelect source a) s)

/-! ### qos. -/

/-- qos.group.map (R428): the queue of a group at a scheduler, in the standby copy. -/
def qosGroupMap (n group queue : Nat) (s : State) : CmdRes :=
  if 5 ≤ n ∨ 16 ≤ queue ∨ (n = 0 ∧ queue < 3) ∨ (groupOf s group).isNone then refuse stRange s
  else done (updStandby n (fun v => { v with groupMap := mset v.groupMap group queue }) s)

/-- QOS_GROUP_MAP (R428). -/
def execQosGroupMap (mbx sched group queue : Nat) (s : State) : Host.Outcome State Fault Refusal :=
  .next (runCmd mbx 0x0B01 (fun _ _ a => qosGroupMap sched group queue a) s)

/-- qos.stage (R437): a setting of the standby copy: 0 RATE, 1 BURST, 2 WEIGHT of a queue, 3 QUANTUM, 4 OVERHEAD, 5 POOL. -/
def qosStage (n what queue value : Nat) (s : State) : CmdRes :=
  let put := fun (f : QSettings → QSettings) => done (updStandby n f s)
  if 5 ≤ n ∨ (what < 3 ∧ 16 ≤ queue) then refuse stRange s
  else
    match what with
    | 0 => if 2 ^ 24 ≤ value then refuse stRange s else put fun v => { v with rates := v.rates.set queue value }
    | 1 => if 2 ^ 24 ≤ value then refuse stRange s else put fun v => { v with bursts := v.bursts.set queue value }
    | 2 => if 256 ≤ value then refuse stRange s else put fun v => { v with weights := v.weights.set queue value }
    | 3 => if 512 ≤ value then refuse stRange s else put fun v => { v with quantum := value }
    | 4 =>
      if 256 ≤ value ∨ signExt 8 value < -64 then refuse stRange s else put fun v => { v with overhead := signExt 8 value }
    | 5 => if 2 ≤ value then refuse stRange s else put fun v => { v with pool := decide (value = 1) }
    | _ => refuse stRange s

/-- QOS_STAGE (R437). -/
def execQosStage (mbx sched what queue value : Nat) (s : State) : Host.Outcome State Fault Refusal :=
  .next (runCmd mbx 0x0B02 (fun _ _ a => qosStage sched what queue value a) s)

/-- qos.hist.read (R442): both histograms of a queue, read and cleared. -/
def qosHistRead (n q : Nat) (s : State) : CmdRes :=
  if 5 ≤ n ∨ 16 ≤ q then refuse stRange s
  else
    let e := (schedOf s n).queue q
    let data := ((e.depthHist ++ e.delayHist).map (beBytes 4)).flatten
    doneWith data (s.mapQos fun v => vupd v n fun c => { c with
      queues := vupd c.queues q fun x => { x with depthHist := List.replicate 16 0, delayHist := List.replicate 16 0 } })

/-- QOS_HIST_READ (R442). -/
def execQosHistRead (mbx sched queue : Nat) (s : State) : Host.Outcome State Fault Refusal :=
  .next (runCmd mbx 0x0B03 (fun _ _ a => qosHistRead sched queue a) s)

end Sys2Proof.Machine
end

