-- ==== Sys2Proof/Machine/MbxFlt.lean ====
section
/-! DEFINITION. Mailbox commands of the flt., fw. and cmp. families (R233, R234, R237, R241, R242, R245, R516, R526, R530, R568, R572,
R573). -/

namespace Sys2Proof.Machine

open Sys2Proof

/-! ### flt. (R516, R526 to R530) -/

/-- flt.event.stat: how often each of the codes given has been raised. -/
def eventStat (codes : List Nat) (s : State) : CmdRes :=
  if 1016 < codes.length then refuse stLength s
  else doneWith ((codes.map fun c => beBytes 4 (min (2 ^ 32 - 1) (mgetD s.flt.counts c 0))).flatten) s

/-- FLT_EVENT_STAT (R516). -/
def execFltEventStat (mbx : Nat) (codes : List Nat) (s : State) : Host.Outcome State Fault Refusal :=
  .next (runCmd mbx 0x0C01 (fun _ _ a => eventStat codes a) s)

/-- flt.ledger.read: up to 7 records of a stream from an INDEX; one that is not kept is out of range. -/
def ledgerRead (stream first n : Nat) (s : State) : CmdRes :=
  if 2 ≤ stream then refuse stRange s
  else if n = 0 ∨ 7 < n then refuse stLength s
  else
    let st := if stream = 0 then s.flt.ledgerC else s.flt.ledgerF
    match st.recs.filter fun r => decide (first ≤ r.index) && decide (r.index < first + n) with
    | [] => refuse stRange s
    | r :: l => if r.index = first then doneWith (((r :: l).map LedgerRec.toBytes).flatten) s else refuse stRange s

/-- FLT_LEDGER_READ (R526). -/
def execFltLedgerRead (mbx stream first n : Nat) (s : State) : Host.Outcome State Fault Refusal :=
  .next (runCmd mbx 0x0C02 (fun _ _ a => ledgerRead stream first n a) s)

/-- A capture slot. -/
def barnSlot (s : State) (k : Nat) : BarnSlot := vget s.flt.barn k BarnSlot.empty

/-- Bytes 0 to 127 of a capture's header (R528). -/
def BarnSlot.head (b : BarnSlot) (k : Nat) : List Byte :=
  padTo 128 (leBytes 4 0x4241524E ++ leBytes 2 1 ++
    [byte k, byte (b2n b.valid + 2 * b2n b.complete + 4 * b2n b.ueSeen + 8 * b2n b.read)] ++
    leBytes 8 b.seq ++ leBytes 8 b.tick ++ leBytes 12 b.time ++ leBytes 2 b.cause ++ leBytes 2 b.boot ++ leBytes 4 b.fwVersion ++
    leBytes 4 b.sections.length ++ leBytes 8 b.length ++ leBytes 4 b.ueWords ++ leBytes 4 b.laterFatals ++ leBytes 8 b.ledgerIndex)

/-- Write the head of a slot's header into the slot. -/
def storeBarnHead (k : Nat) (s : State) : State := dramWrite (barnBase k) ((barnSlot s k).head k) s

/-- Change a capture slot and its header. -/
def updBarn (k : Nat) (f : BarnSlot → BarnSlot) (s : State) : State :=
  storeBarnHead k (s.mapFlt fun x => { x with barn := vupd x.barn k f })

/-- FLT_BARN_LIST (R530): the head of each VALID capture's header. -/
def execFltBarnList (mbx : Nat) (s : State) : Host.Outcome State Fault Refusal :=
  .next (runCmd mbx 0x0C03 (fun _ _ a =>
    doneWith (((List.range 2).filter fun k => (barnSlot a k).valid).map fun k => (barnSlot a k).head k).flatten a) s)

/-- flt.barn.read: up to 4,064 B; reading to the end sets READ. -/
def barnRead (k off len : Nat) (s : State) : CmdRes :=
  let b := barnSlot s k
  if 2 ≤ k ∨ ¬ b.valid ∨ b.length < off + len then refuse stRange s
  else if 4064 < len then refuse stLength s
  else
    let d := dramRead s (barnBase k + off) len
    doneWith d (if off + len = b.length then updBarn k (fun x => { x with read := true }) s else s)

/-- FLT_BARN_READ (R530). -/
def execFltBarnRead (mbx slot off len : Nat) (s : State) : Host.Outcome State Fault Refusal :=
  .next (runCmd mbx 0x0C04 (fun _ _ a => barnRead slot off len a) s)

/-- FLT_BARN_BULK (R530): the bulk stream with a slot in place of a region. -/
def execFltBarnBulk (mbx slot off len : Nat) (s : State) : Host.Outcome State Fault Refusal :=
  .next (runCmd mbx 0x0C05 (fun _ sid a =>
    let b := barnSlot a slot
    if 2 ≤ slot ∨ ¬ b.valid ∨ b.length < off + len then refuse stRange a else bulkOpen sid 1 slot off len true a) s)

/-- FLT_BARN_RELEASE (R530): VALID is cleared. -/
def execFltBarnRelease (mbx slot : Nat) (s : State) : Host.Outcome State Fault Refusal :=
  .next (runCmd mbx 0x0C06 (fun _ _ a =>
    if 2 ≤ slot ∨ ¬ (barnSlot a slot).valid then refuse stRange a else done (updBarn slot (fun x => { x with valid := false }) a)) s)

/-! ### fw. (R568, R572, R573) -/

/-- What fw.info gives of a slot: its state, then the header's bytes 0 to 63 and its signature; between them the header is reserved. -/
def fwInfoOf (x : FwSlot) : List Byte := [byte x.state] ++ x.header.take 64 ++ slice x.header 2816 1280

/-- FW_INFO (R572). -/
def execFwInfo (mbx : Nat) (s : State) : Host.Outcome State Fault Refusal :=
  .next (runCmd mbx 0x0D01 (fun _ _ a => doneWith (fwInfoOf (fwSlotOf a 0) ++ fwInfoOf (fwSlotOf a 1)) a) s)

/-- Size of a firmware slot: the header and the largest body. -/
def fwSlotSize : Nat := 134217728

/-- May a slot be written or verified: it is not the active one and not PENDING. -/
def fwOpen (s : State) (k : Nat) : Bool := decide (k < 2) && k != s.mgt.active && (fwSlotOf s k).state != 5

/-- fw.write. -/
def fwWrite (k off : Nat) (d : List Byte) (s : State) : CmdRes :=
  if 2 ≤ k then refuse stRange s
  else if ¬ fwOpen s k then refuse 0x0D01 s
  else if 4064 < d.length then refuse stLength s
  else if fwSlotSize < off + d.length then refuse stRange s
  else done (fwStore k off d s)

/-- FW_WRITE (R572). -/
def execFwWrite (mbx slot off : Nat) (data : List Byte) (s : State) : Host.Outcome State Fault Refusal :=
  .next (runCmd mbx 0x0D02 (fun _ _ a => fwWrite slot off data a) s)

/-- fw.bulk: the slot is WRITING from here on. -/
def fwBulk (sid k off len : Nat) (s : State) : CmdRes :=
  if 2 ≤ k then refuse stRange s
  else if ¬ fwOpen s k then refuse 0x0D01 s
  else if fwSlotSize < off + len then refuse stRange s
  else
    let r := bulkOpen sid 2 k off len false s
    { r with state := if r.status = 0 then fwState k 1 r.state else s }

/-- FW_BULK (R572). -/
def execFwBulk (mbx slot off len : Nat) (s : State) : Host.Outcome State Fault Refusal :=
  .next (runCmd mbx 0x0D03 (fun _ sid a => fwBulk sid slot off len a) s)

/-- fw.verify: VERIFIED, or BAD with the failed check in DETAIL. -/
def fwVerify (k : Nat) (s : State) : CmdRes :=
  if 2 ≤ k ∨ (fwSlotOf s k).state = 0 then refuse stRange s
  else if ¬ fwOpen s k then refuse 0x0D01 s
  else
    match (fwSlotOf s k).fault with
    | none => done (fwState k 2 s)
    | some c => refuseD stInvalid c (fwState k 3 s)

/-- FW_VERIFY (R572). -/
def execFwVerify (mbx slot : Nat) (s : State) : Host.Outcome State Fault Refusal :=
  .next (runCmdWith true mbx 0x0D04 (fun _ _ a => fwVerify slot a) s)

/-- What of a moving device forbids activation: instances, line blocks, Silo records. -/
def fwMoving (s : State) : Nat :=
  b2n (!s.coll.insts.isEmpty) + 2 * b2n (s.line.tribs.any fun e => decide (4 ≤ e.1) && !(e.2.ring.isEmpty && e.2.rxHeld.isEmpty)) +
    4 * b2n (!s.sites.silo.isEmpty)

/-- Is a version outside the stored manifest's range? -/
def fwOutside (s : State) (v : Nat) : Bool := s.bru.manifest.any fun m => decide (v < mfield m 32 4) || decide (mfield m 36 4 < v)

/-- fw.activate: checks 2 to 6 of R573 in order; accepted, the slot is PENDING and a warm start follows. -/
def fwActivate (s : State) : CmdRes :=
  let k := 1 - s.mgt.active
  let x := fwSlotOf s k
  let power := b2n (decide (s.flt.holdupPct < 95)) + 2 * b2n (!s.bru.railsOk)
  if s.flt.fatal ∨ x.state ≠ 2 then refuse 0x0D01 s
  else if fwOutside s x.version then refuse 0x0D02 s
  else if s.mgt.ownerLock then refuse 0x0D03 s
  else if fwMoving s ≠ 0 then refuseD 0x0D04 (fwMoving s) s
  else if power ≠ 0 then refuseD 0x0D05 power s
  else
    let s1 := ledgerWrite 6 0 ([1, byte k] ++ leBytes 4 x.version ++ x.digest) s
    done ((fwState k 5 s1).mapMgt fun g => { g with startNext := true })

/-- FW_ACTIVATE (R573, R574). -/
def execFwActivate (mbx : Nat) (s : State) : Host.Outcome State Fault Refusal :=
  .next (runCmd mbx 0x0D05 (fun _ _ a => fwActivate a) s)

/-- FW_OWNER_LOCK (R568). -/
def execFwOwnerLock (mbx : Nat) (s : State) : Host.Outcome State Fault Refusal :=
  .next (runCmd mbx 0x0D06 (fun _ _ a => done (a.mapMgt fun g => { g with ownerLock := true })) s)

/-- FW_OWNER_UNLOCK (R568). -/
def execFwOwnerUnlock (mbx : Nat) (s : State) : Host.Outcome State Fault Refusal :=
  .next (runCmd mbx 0x0D07 (fun _ _ a => done (a.mapMgt fun g => { g with ownerLock := false })) s)

/-! ### cmp. (R233, R234, R237, R241, R242, R245) -/

/-- Does a table serve a command: 140 B, valid, of the class named, with a host's ID? -/
def hostTable (cls : Nat) (l : List Byte) : Bool :=
  let b := Blend.ofBytes l
  blendReservedOk l && b.valid && b.cls == cls && decide (b.id ≤ 127)

/-- The status with which a blend is refused, staged or installed. -/
def blendFault (s : State) (staging : Bool) (ctx cls : Nat) (l : List Byte) : Option Nat :=
  let x := bslot s ctx cls
  let id := byteAt l 0
  if 6 ≤ ctx ∨ 8 ≤ cls then some (if ctx < 10 ∧ cls < 8 then stInvalid else stRange)
  else if ¬ hostTable cls l then some stInvalid
  else if ctx < 2 then
    if x.current.any (fun b => b.id == id) ∨ x.previous.any (fun b => b.id == id) then some stInvalid
    else if x.install.isSome ∨ x.staged.isSome ∨ (¬ staging ∧ x.previous.isSome) then some stBusy
    else none
  -- a proposal of the device that has not been offered yet gives way to the host's table (R239)
  else if x.previous.isSome ∨ x.offer.any (fun o => o.sent || o.origin != 0) then some stBusy
  else none

/-- The offer of a host's table in an L-OUT context. -/
def hostOffer (origin : Nat) (mbx : Option Nat) (b : Blend) (s : State) : Offer :=
  { blend := b, tick := s.tick, origin := origin, mbx := mbx, sent := false, accepted := false }

/-- cmp.blend.install: in a host context at the next edge; in an L-OUT context the handshake starts, and the answer waits for it. -/
def blendInstall (mbx ctx cls : Nat) (l : List Byte) (s : State) : CmdRes :=
  let b := Blend.ofBytes l
  match blendFault s false ctx cls l with
  | some e => refuse e s
  | none =>
    if ctx < 2 then done (updSlot ctx cls (fun x => { x with install := some b, candidate := none }) s)
    else later (updSlot ctx cls (fun x => { x with offer := some (hostOffer 1 (some mbx) b s), candidate := none }) s)

/-- CMP_BLEND_INSTALL (R233, R237). -/
def execCmpBlendInstall (mbx ctx cls : Nat) (table : List Byte) (s : State) : Host.Outcome State Fault Refusal :=
  .next (runCmd mbx 0x0E01 (fun _ _ a => blendInstall mbx ctx cls table a) s)

/-- cmp.blend.stage: the table waits for a commit; in an L-OUT context it is offered first. -/
def blendStage (ctx cls : Nat) (l : List Byte) (s : State) : CmdRes :=
  let b := Blend.ofBytes l
  match blendFault s true ctx cls l with
  | some e => refuse e s
  | none =>
    done (updSlot ctx cls (fun x =>
      if ctx < 2 then { x with staged := some b } else { x with staged := some b, offer := some (hostOffer 2 none b s) }) s)

/-- CMP_BLEND_STAGE (R233, R237). -/
def execCmpBlendStage (mbx ctx cls : Nat) (table : List Byte) (s : State) : Host.Outcome State Fault Refusal :=
  .next (runCmd mbx 0x0E02 (fun _ _ a => blendStage ctx cls table a) s)

/-- cmp.blend.retire: the previous blend of a host context, at the next edge. -/
def blendRetire (ctx cls : Nat) (s : State) : CmdRes :=
  if 10 ≤ ctx ∨ 8 ≤ cls then refuse stRange s
  else if 2 ≤ ctx then refuse stInvalid s
  else
    match (bslot s ctx cls).previous with
    | none => done s
    | some b =>
      if ctx = 1 ∧ (s.coll.insts.any fun e => e.2.blends.contains (cls * 256 + b.id)) then refuse stBusy s
      else done (updSlot ctx cls (fun x => { x with retire := true }) s)

/-- CMP_BLEND_RETIRE (R234). -/
def execCmpBlendRetire (mbx ctx cls : Nat) (s : State) : Host.Outcome State Fault Refusal :=
  .next (runCmd mbx 0x0E03 (fun _ _ a => blendRetire ctx cls a) s)

/-- cmp.blend.read: 0 the current table, 1 the previous, 2 the accepted-pending, 3 the staged one, 4 the kept proposal. -/
def blendRead (ctx cls which : Nat) (s : State) : CmdRes :=
  let x := bslot s ctx cls
  let t := if which = 0 then x.current else if which = 1 then x.previous else if which = 2 then x.pending
    else if which = 3 then x.staged else if which = 4 then x.candidate else none
  match t with
  | some b => doneWith b.toBytes s
  | none => refuse stRange s

/-- CMP_BLEND_READ (R245). -/
def execCmpBlendRead (mbx ctx cls which : Nat) (s : State) : Host.Outcome State Fault Refusal :=
  .next (runCmd mbx 0x0E04 (fun _ _ a => blendRead ctx cls which a) s)

/-- cmp.resync: of a stream, its raw-required state; of a port's class, the raw hold. -/
def cmpResync (line : Bool) (n cls : Nat) (s : State) : CmdRes :=
  if line then
    if 4 ≤ n ∨ 8 ≤ cls then refuse stRange s
    else
      done (updSlot (lOut n) cls (fun x =>
        if x.rawHold then { x with rawHold := false, resyncFails := 0, rawCoding := false, resync := false } else x) s)
  else if ¬ mhas s.host.streams n then refuse stRange s
  else done (updStream n (fun c => { c with rawRequired := false, decFails := 0 }) s)

/-- CMP_RESYNC (R241, R242). -/
def execCmpResync (mbx : Nat) (line : Bool) (n cls : Nat) (s : State) : Host.Outcome State Fault Refusal :=
  .next (runCmd mbx 0x0E05 (fun _ _ a => cmpResync line n cls a) s)

end Sys2Proof.Machine
end

