-- ==== Sys2Proof/Machine/BlendRows.lean ====
section
/-! DEFINITION. Blends between gateways and of the device's own making: policy windows, the messages of a handshake, and
resynchronisation (R235 to R245). -/

namespace Sys2Proof.Machine

open Sys2Proof

/-! ### Policy windows (R243 to R245) -/

/-- CMP_POLICY_WINDOW in ticks; below 1,000 it is treated as 1,000. -/
def policyWindow (s : State) : Nat := max 1000 (regVal s 0x00140014)

/-- Counts of a slot by symbol. -/
def BSlot.countList (b : BSlot) (cls : Nat) : List Nat := (List.range (classSymbols cls)).map fun i => mgetD b.counts i 0

/-- The lowest ID from 128 to 255 that a slot does not hold. -/
def freeBlendId (b : BSlot) : Option Nat :=
  let held := (b.current.toList ++ b.previous.toList ++ b.pending.toList ++ b.staged.toList ++ b.older ++
    (b.offer.map (·.blend)).toList).map (·.id)
  firstFrom 128 128 fun i => !held.contains i

/-- Does a window's candidate reach the gain threshold (R244)? -/
def gainReached (s : State) (cls : Nat) (b : BSlot) : Bool :=
  let counts := b.countList cls
  let cur := match b.current with
    | some x => codeCost x counts
    | none => Config.noBlendCost cls counts
  let cand := codeCost (candidateBlend 128 cls counts) counts
  decide (cand ≤ cur) && decide (fld s 0x00140010 8 8 * cur ≤ 1000 * (cur - cand))

/-- A context and class that qualifies: a proposal that is kept, or in an L-OUT context under MODE 3 a handshake (R245). -/
def propose (ctx cls : Nat) (s : State) : State :=
  let b := bslot s ctx cls
  match freeBlendId b with
  | none => s
  | some id =>
    let t := candidateBlend id cls (b.countList cls)
    if fld s 0x00140010 0 2 = 3 ∧ 2 ≤ ctx then
      if b.previous.isSome ∨ b.offer.isSome ∨ b.resync ∨ b.rawHold then s
      else updSlot ctx cls (fun x => { x with offer := some (hostOffer 0 none t s), qualify := 0 }) s
    else bump 0x0014006C (raise 0x1601 [ctx, cls] (updSlot ctx cls (fun x => { x with candidate := some t, qualify := 0 }) s))

/-- The window of one slot ends: its gain is judged and the counters cleared. -/
def windowOfSlot (k : Nat) (s : State) : State :=
  let ctx := k / 8
  let cls := k % 8
  let b := bslot s ctx cls
  if 6 ≤ ctx ∨ (b.current.isNone ∧ b.counts.isEmpty) then s
  else
    let n := if gainReached s cls b then b.qualify + 1 else 0
    let s1 := updSlot ctx cls (fun x => { x with qualify := n }) s
    let rested := b.lastInstall.all fun t => decide (t + regVal s 0x00140018 ≤ s.tick)
    let s2 := if 2 ≤ fld s 0x00140010 0 2 ∧ fld1 s 0x00140010 16 4 ≤ n ∧ rested then propose ctx cls s1 else s1
    updSlot ctx cls (fun x => { x with counts := [] }) s2

/-- The end of a policy window, while the policy measures and the counters are not frozen. -/
def windowEnd (s : State) : State :=
  if s.tick % policyWindow s ≠ 0 ∨ fld s 0x00140010 0 2 = 0 ∨ bit s 0x00140004 1 then s
  else (s.cmp.map (·.1)).foldl (fun a k => windowOfSlot k a) s

/-- BLEND_POLICY_WINDOW (R244). -/
def execBlendPolicyWindow (s : State) : Host.Outcome State Fault Refusal := .next (windowEnd s)

/-! ### Timeouts (R238, R241) -/

/-- An offer unanswered in time is withdrawn. -/
def offerTimeout (k : Nat) (s : State) : State :=
  let ctx := k / 8
  let cls := k % 8
  match (bslot s ctx cls).offer with
  | none => s
  | some o =>
    if o.sent ∧ ¬ o.accepted ∧ o.origin ≠ 3 ∧ o.tick + hsTimeout s ≤ s.tick then
      bump 0x00140068 (raise 0x4602 [ctx, cls] (withdrawOffer ctx cls stTimeout 0 s))
    else s

/-- BLEND_HANDSHAKE_TIMEOUT (R238). -/
def execBlendHandshakeTimeout (s : State) : Host.Outcome State Fault Refusal :=
  .next ((s.cmp.map (·.1)).foldl (fun a k => offerTimeout k a) s)

/-- At E a resynchronisation has failed to complete: the third in a row holds the class raw (R241). -/
def resyncFailed (port cls : Nat) (s : State) : State :=
  let ctx := lOut port
  let n := (bslot s ctx cls).resyncFails + 1
  let s1 := updSlot ctx cls (fun x => { x with
    resync := false, resyncFails := n, rawHold := decide (3 ≤ n), rawCoding := true
    offer := if x.offer.any (fun o => o.origin = 3) then none else x.offer }) s
  if 3 ≤ n then raise 0x8601 [ctx, cls] s1 else s1

/-- A resynchronisation not completed in time: E counts it, D begins another until three have failed. -/
def resyncTimeout (k : Nat) (s : State) : State :=
  let ctx := k / 8
  let cls := k % 8
  let b := bslot s ctx cls
  if ¬ b.resync ∨ s.tick < b.resyncTick + hsTimeout s ∨ ctx < 2 then s
  else if ctx < 6 then resyncFailed (ctx - 2) cls s
  else if 2 ≤ b.resyncFails then updSlot ctx cls (fun x => { x with resync := false, resyncFails := 0 }) s
  else startResync (ctx - 6) cls (updSlot ctx cls (fun x => { x with resyncFails := x.resyncFails + 1 }) s)

/-- RESYNC_TIMEOUT (R241). -/
def execResyncTimeout (s : State) : Host.Outcome State Fault Refusal :=
  .next ((s.cmp.map (·.1)).foldl (fun a k => resyncTimeout k a) s)

/-! ### Messages (R235 to R240) -/

/-- Why an offer without RESYNC is rejected: 1 the table is invalid, 4 the class resynchronises, 2 the previous slot is occupied, 3 the
ID is held with another digest. -/
def offerReject (b : BSlot) (l : List Byte) : Option Nat :=
  let t := Blend.ofBytes l
  let other := (b.current.toList ++ b.previous.toList ++ b.pending.toList).any fun x => x.id == t.id && x.digest != t.digest
  if ¬ blendReservedOk l ∨ ¬ t.valid then some 1
  else if b.resync then some 4
  else if b.previous.isSome then some 2
  else if other then some 3
  else none

/-- Answer an offer. -/
def answerOffer (port : Nat) (t : Blend) (reject : Option Nat) (s : State) : State :=
  match reject with
  | none => sendCtl port 0x21 [] (blendName t) s
  | some r => sendCtl port 0x22 [] (blendName t ++ [byte r]) s

/-- A BLEND-OFFER at D: held as accepted-pending; one that resynchronises replaces the current blend (R240 step 4). -/
def blendOffer (port : Nat) (rs : Bool) (l : List Byte) (s : State) : State :=
  let t := Blend.ofBytes l
  let ctx := lIn port
  if rs then
    if ¬ blendReservedOk l ∨ ¬ t.valid then answerOffer port t (some 1) s
    else
      let s1 := updSlot ctx t.cls (fun x => { x with
        current := none, previous := none, pending := none, switchSeqs := none, resync := false, resyncFails := 0, fails := 0 }) s
      answerOffer port t none (makeCurrent ctx t.cls t s1)
  else
    match offerReject (bslot s ctx t.cls) l with
    | some r => answerOffer port t (some r) s
    | none => answerOffer port t none (updSlot ctx t.cls (fun x => { x with pending := some t }) s)

/-- BLEND_OFFER_RX (R235). -/
def execBlendOfferRx (port : Nat) (resync : Bool) (table : List Byte) (s : State) : Host.Outcome State Fault Refusal :=
  .next (policed port (blendOffer port resync table) s)

/-- Does a message name the offer of a slot? -/
def namesOffer (o : Offer) (id digest : Nat) : Bool := o.sent && o.blend.id == id && o.blend.digest == digest

/-- A BLEND-ACCEPT at E: the switch follows at the next edge, or at the commit; a waiting cmp.blend.install is answered; after a
resynchronisation coding resumes. -/
def blendAccept (port cls id digest : Nat) (s : State) : State :=
  let ctx := lOut port
  match (bslot s ctx cls).offer with
  | none => s
  | some o =>
    if ¬ namesOffer o id digest then s
    else if o.origin = 3 then
      updSlot ctx cls (fun x => { x with offer := none, resync := false, rawCoding := false, resyncFails := 0 }) s
    else
      let s1 := updSlot ctx cls (fun x => { x with offer := some { o with accepted := true, mbx := none } }) s
      match o.mbx with
      | some m => mbxAnswer m stOk 0 [] s1
      | none => s1

/-- BLEND_ACCEPT_RX (R235). -/
def execBlendAcceptRx (port cls id digest : Nat) (s : State) : Host.Outcome State Fault Refusal :=
  .next (policed port (blendAccept port cls id digest) s)

/-- A BLEND-REJECT at E: the offer ends, and a waiting cmp.blend.install answers INVALID with the reason (R237). -/
def blendReject (port cls id digest reason : Nat) (s : State) : State :=
  if ((bslot s (lOut port) cls).offer).any fun o => namesOffer o id digest then withdrawOffer (lOut port) cls stInvalid reason s else s

/-- BLEND_REJECT_RX (R237). -/
def execBlendRejectRx (port cls id digest reason : Nat) (s : State) : Host.Outcome State Fault Refusal :=
  .next (policed port (blendReject port cls id digest reason) s)

/-- A BLEND-SWITCH at D: the pending blend is current, and the previous one leaves once every block below S has passed. `seqs` gives S
for each tributary. -/
def blendSwitch (port cls id : Nat) (seqs : SMap Nat) (s : State) : State :=
  let ctx := lIn port
  let s1 := if (bslot s ctx cls).pending.any fun b => b.id == id then pendingToCurrent ctx cls s else s
  if (bslot s1 ctx cls).current.any (fun b => b.id == id) ∧ (bslot s1 ctx cls).previous.isSome then
    tryRetireAck port cls (updSlot ctx cls (fun x => { x with switchSeqs := some seqs }) s1)
  else s1

/-- BLEND_SWITCH_RX (R236). -/
def execBlendSwitchRx (port cls id : Nat) (seqs : List (Nat × Nat)) (s : State) : Host.Outcome State Fault Refusal :=
  .next (policed port (blendSwitch port cls id seqs) s)

/-- A BLEND-RETIRE-ACK at E: the previous slot is free. -/
def retireAcked (port cls id : Nat) (s : State) : State :=
  if (bslot s (lOut port) cls).previous.any fun b => b.id == id then retirePrevious (lOut port) cls s else s

/-- BLEND_RETIRE_ACK_RX (R235). -/
def execBlendRetireAckRx (port cls id : Nat) (s : State) : Host.Outcome State Fault Refusal :=
  .next (policed port (retireAcked port cls id) s)

/-- A BLEND-RESYNC at E. One that comes while another runs says that the other has failed. -/
def blendResync (port cls : Nat) (s : State) : State :=
  let s1 := if (bslot s (lOut port) cls).resync then resyncFailed port cls s else s
  resyncAsked port cls s1

/-- BLEND_RESYNC_RX (R240). -/
def execBlendResyncRx (port cls : Nat) (s : State) : Host.Outcome State Fault Refusal := .next (policed port (blendResync port cls) s)

end Sys2Proof.Machine
end

