-- ==== Sys2Proof/Machine/CellarRows.lean ====
section
/-! DEFINITION. The Cellar and memory as they are used: casks granted, freed and accessed, check codes, DRAM reads, uncorrectable words,
gleaning, retraining and refresh (R249 to R281). -/

namespace Sys2Proof.Machine

open Sys2Proof

/-! ### Check codes (R264, R265) -/

/-- Ones among the low `w` bits. -/
def ones (w n : Nat) : Nat := ((List.range w).filter fun i => bitOf n i).length

/-- The columns c_0 to c_31: the 7-bit values of weight 3 in ascending order. -/
def eccCols : List Nat := ((List.range 128).filter fun n => ones 7 n = 3).take 32

/-- The seven check bits of a word. -/
def eccBits (d : Nat) : Nat := (eccCols.zipIdx.filter fun c => bitOf d c.2).foldl (fun x c => x ^^^ c.1) 0

/-- What a read word turns out to be: clean, corrected, or uncorrectable. -/
inductive WordRead where
  | clean (d : Nat)
  | fixed (d : Nat)
  | bad
  deriving DecidableEq, Repr

/-- Judge a word read as data and check bits by its syndrome. -/
def eccJudge (d check : Nat) : WordRead :=
  let syn := eccBits d ^^^ check
  if syn = 0 then .clean d
  else if ones 7 syn = 1 then .fixed d
  else
    match eccCols.findIdx? (· == syn) with
    | some i => .fixed (d ^^^ 2 ^ i)
    | none => .bad

/-- The check bits as stored: those of a poisoned word differ by 0x03 (R267). -/
def storedCheck (d : Nat) (poisoned : Bool) : Nat := eccBits d ^^^ (if poisoned then 3 else 0)

/-- Read a stored word whose bits have flipped: data in bits 0 to 31 of the mask, check bits in 32 to 38. -/
def readWord (d : Nat) (poisoned : Bool) (flip : Nat) : WordRead :=
  eccJudge (d ^^^ flip % 2 ^ 32) (storedCheck d poisoned ^^^ flip / 2 ^ 32 % 128)

/-- Channel and channel address of a device DRAM address (R268). -/
def dramChannel (a : Nat) : Nat :=
  bitsOf a 8 6 ^^^ bitsOf a 14 6 ^^^ bitsOf a 20 6 ^^^ bitsOf a 26 6 ^^^ bitsOf a 32 6 ^^^ bitsOf a 38 2
/-- The channel address L. -/
def channelAddr (a : Nat) : Nat := bitsOf a 14 26 * 256 + a % 256

/-- The address parity bit of the word at position `w` of its check group (R265). -/
def addrParity (a w : Nat) : Bool :=
  let v := channelAddr a / 256 + dramChannel a * 2 ^ 26
  ((List.range 32).filter fun k => k % 8 = w % 8 && bitOf v k).length % 2 == 1

/-! ### Uncorrectable words (R275, R281) -/

/-- The contribution that a staged packet belongs to waits for the packet again, which is NACKed; a packet that is held for a gap
falls out, and the gap's NACK brings it. -/
def restagePacket (stream seq g i chunk rank : Nat) (s : State) : State :=
  match mget s.host.streams stream with
  | none => s
  | some c =>
    match mget c.held seq with
    | some h => freeCasks h.2 (updStream stream (fun x => { x with held := mdel x.held seq }) s)
    | none =>
      let mine := fun (ch : Chunk) => decide (ch.index = chunk) && ch.locals.any fun k => k.rank = rank && k.hole.isNone
      match instOf s g i with
      | none => s
      | some x =>
        if ¬ x.chunks.any (fun e => mine e.2) then s
        else
          let hole := fun (ch : Chunk) => if mine ch then
            { ch with locals := ch.locals.map fun k => if k.rank = rank then { k with hole := some (stream, seq) } else k } else ch
          setBack stream seq 5 g i (updInst g i (fun y => { y with chunks := mmap y.chunks fun _ ch => hole ch }) s)

/-- A block of the reorder area that has not passed step 8 is dropped and NACKed (R34). -/
def renackBlock (trib seq : Nat) (s : State) : State :=
  match tribOf s trib with
  | none => s
  | some t =>
    if mhas t.rxHeld seq ∧ t.rxNext ≤ seq then
      sendLineNack trib seq 4 (reorderEval (updTrib trib (fun x => { x with
        rxHeld := mdel x.rxHeld seq, rxDone := x.rxDone.filter (· != seq) }) s))
    else s

/-- A ring block that is not yet acknowledged takes its instance with it. -/
def ringWordLost (trib seq : Nat) (s : State) : State :=
  match tribOf s trib with
  | none => s
  | some t =>
    match mget t.ring seq with
    | some r => if t.acked ≤ seq then askAbort r.part.group r.part.inst 4 0x0302 0 0 s else s
    | none => s

/-- A live instance ends with UNCORRECTABLE. -/
def wordAbort (g i : Nat) (s : State) : State := if (instOf s g i).isSome then askAbort g i 4 0x0302 0 0 s else s

/-- A group's table is lost in both copies: its instances end, and it is not VALID until it is staged again. -/
def groupLost (g : Nat) (s : State) : State :=
  let s1 := (s.coll.insts.filter fun e => e.2.group = g).foldl (fun a e => wordAbort e.2.group e.2.inst a) s
  updGroup g (fun r => { r with current := none, draining := r.current.orElse fun _ => r.draining }) s1

/-- A stream's context is lost: its numbering starts again, and what it holds is released (R305). -/
def streamLost (id : Nat) (s : State) : State :=
  match mget s.host.streams id with
  | none => s
  | some c =>
    let casks := (c.held.map fun e => e.2.2).flatten ++ (c.retained.map fun e => e.2.pkt.casks).flatten
    freeCasks casks (updStream id (fun x => { x with
      inNext := x.inInit, outNext := x.outInit, outAcked := x.outInit, held := [], retained := [], nack := none, refused := [], stalled := false }) s)

/-- A device table read as uncorrectable in copy A: copy B serves and copy A is rewritten, or the table is lost. -/
def tableRead (both : Bool) (lost : State → State) (s : State) : State := if both then lost (raise 0x8707 [] s) else raise 0x4706 [] s

/-- What becomes of what an uncorrectable word held. -/
def wordLost (u : WordUse) (s : State) : State :=
  match u with
  | .staged stream seq g i c r => restagePacket stream seq g i c r s
  | .kept stream seq =>
    match (mget s.host.streams stream).bind fun c => mget c.retained seq with
    | some r => freeCasks r.pkt.casks (updStream stream (fun x => { x with retained := mdel x.retained seq }) s)
    | none => s
  | .reorder trib seq => renackBlock trib seq s
  | .ring trib seq => ringWordLost trib seq s
  | .row g i | .region g i => wordAbort g i s
  | .groupTable g both => tableRead both (groupLost g) s
  | .streamTable id both => tableRead both (streamLost id) s
  | .otherTable both => tableRead both (fun a => a) s
  | .silo g i => updSilo g i (fun r => { r with poisoned := true }) s
  | .barn k => updBarn k (fun b => { b with ueSeen := true, ueWords := b.ueWords + 1 }) s
  | .unused => s

/-- Count a corrected DRAM word. -/
def dramFixed (a : Nat) (s : State) : State := bump (0x00301004 + dramChannel a * 16) (bump 0x00300040 s)

/-- An uncorrectable DRAM word: counted, its address kept, and the event raised. -/
def dramBad (a : Nat) (s : State) : State :=
  let s1 := bump (0x00301008 + dramChannel a * 16) (bump 0x00300044 s)
  raise 0x8704 [a % 2 ^ 32, a / 2 ^ 32] (s1.mapMem fun m => { m with lastUe := a })

/-- Poison a word (R267). -/
def poisonWord (a : Nat) (s : State) : State := s.mapMem fun m => { m with poison := insertRising a m.poison }

/-! ### DRAM reads (R266) -/

/-- The flip mask of a word among those given. -/
def flipOf (l : List (Nat × Nat)) (i : Nat) : Nat := ((l.find? fun e => e.1 == i).map (·.2)).getD 0

/-- The data word stored at an address. -/
def wordAt (s : State) (a : Nat) : Nat := leNat (dramRead s a 4)

/-- Read a burst of 16 words at a 64-byte address. `landed` is where the read lands; flips give, by word, data bits 0 to 31, check bits
32 to 38 and the address parity 39. -/
def dramBurst (addr landed : Nat) (flips : List (Nat × Nat)) (u : WordUse) (s : State) : State :=
  let at_ := fun (base i : Nat) => base / 64 * 64 + 4 * i
  let got := fun (i : Nat) => readWord (wordAt s (at_ landed i)) (s.mem.poison.contains (at_ landed i)) (flipOf flips i)
  let ap := fun (i : Nat) =>
    addrParity landed (at_ landed i % 256 / 4) != (addrParity addr (at_ addr i % 256 / 4) != bitOf (flipOf flips i) 39)
  let wrong := ((List.range 16).filter ap).length
  let astray := decide (2 ≤ wrong)
  let s1 := (List.range 16).foldl (fun a i => match got i with
    | .fixed _ => dramFixed (at_ addr i) a
    | _ => a) s
  let bad := (List.range 16).filter fun i => astray || got i == .bad
  let s2 := if wrong = 1 then bump 0x0030004C s1 else if astray then raise 0x8705 [addr % 2 ^ 32, addr / 2 ^ 32] (bump 0x00300048 s1) else s1
  let s3 := bad.foldl (fun a i => dramBad (at_ addr i) a) s2
  if bad.isEmpty then
    s3.emit (.answer ((List.range 16).map fun i => match got i with
      | .clean d | .fixed d => d
      | .bad => 0))
  else
    let keep := match u with
      | .region _ _ | .barn _ | .silo _ _ => true
      | _ => false
    wordLost u (if keep then bad.foldl (fun a i => poisonWord (at_ addr i) a) s3 else s3)

/-- DRAM_READ (R266). An address at or above the end of usable DRAM does not exist (R268). -/
def execDramRead (addr landed : Nat) (flips : List (Nat × Nat)) (use : WordUse) (s : State) : Host.Outcome State Fault Refusal :=
  if 0xD693A40000 ≤ addr then .fault .dramAddressOutside else .next (dramBurst addr landed flips use s)

/-! ### Casks (R250 to R263) -/

/-- Discard the head of a part's free list, which failed its checks (R262). -/
def CaskPart.discard (p : CaskPart) : CaskPart :=
  if p.fresh < p.size then { p with fresh := p.fresh + 1, discarded := insertRising p.fresh p.discarded }
  else
    match p.freed with
    | [] => p
    | i :: l => { p with freed := l, discarded := insertRising i p.discarded }

/-- Discard the first pointers popped from the list that a request goes to. -/
def discardHeads : Nat → Nat → Bool → State → State
  | 0, _, _, s => s
  | n + 1, c, dramOnly, s =>
    let k := caskCls s c
    let sram := !dramOnly && k.sram.hasFree
    if ¬ sram ∧ ¬ k.dram.hasFree then s
    else
      let s1 := s.mapCellar fun x => { x with classes := vupd x.classes c fun y =>
        if sram then { y with sram := y.sram.discard } else { y with dram := y.dram.discard } }
      discardHeads n c dramOnly (raise 0x8703 [c, b2n (!sram)] (bump 0x00180048 s1))

/-- CASK_REQUEST (R250): a cask for `n` bytes; `corrupt` pointers at the head of the list fail their checks. The pointer is answered, or
the request refused. -/
def execCaskRequest (n : Nat) (dramOnly : Bool) (corrupt : Nat) (s : State) : Host.Outcome State Fault Refusal :=
  let s1 := match caskClass n with
    | some c => if (caskCls s c).refuse ∧ ¬ dramOnly then s else discardHeads corrupt c dramOnly s
    | none => s
  match drawCask n dramOnly s1 with
  | (some p, s2) => .next (s2.emit (.answer [p]))
  | (none, s2) => .next (s2.emit .nack)

/-- A request that fails at the cask port is dropped (R260). -/
def badPointer (p from_ : Nat) (s : State) : State := raise 0x8701 [p, from_] (bump 0x00180040 s)

/-- CASK_FREE (R261): a pointer is checked at the port, then freed, or refused where it is not granted. -/
def execCaskFree (ptr requester : Nat) (s : State) : Host.Outcome State Fault Refusal :=
  .next (if (caskPortCheck s ptr 0 (caskSize (ptrClass ptr))).isSome then badPointer ptr requester s else poolFree ptr s)

/-- Where a cask's bytes lie: in DRAM, or in the Cellar SRAM. -/
def caskAddr (p : Nat) : Nat :=
  (if ptrPart p = 1 then caskDramBase (ptrClass p) else caskSramBase (ptrClass p)) + ptrIndex p * caskSize (ptrClass p)

/-- Read one word of a cask. -/
def caskWord (s : State) (p off flip : Nat) : WordRead :=
  let a := caskAddr p + off
  if ptrPart p = 1 then readWord (wordAt s a) (s.mem.poison.contains a) flip
  else readWord (leNat (cellRead s.mem.sram a 4)) false flip

/-- Count a corrected or an uncorrectable word of a cask. -/
def caskCounted (p off : Nat) (w : WordRead) (s : State) : State :=
  let a := caskAddr p + off
  match w with
  | .clean _ => s
  | .fixed _ => if ptrPart p = 1 then dramFixed a s else bump 0x0018004C s
  | .bad => if ptrPart p = 1 then dramBad a s else raise 0x8706 [p, off] (bump 0x00180050 s)

/-- The bytes of a word. -/
def WordRead.bytes : WordRead → List Byte
  | .clean d | .fixed d => leBytes 4 d
  | .bad => []

/-- A read of a cask: its bytes are answered, or it returns none where a word is uncorrectable, and what the cask holds is dealt with. -/
def caskRead (p off len : Nat) (flips : List (Nat × Nat)) (u : WordUse) (s : State) : State :=
  let words := (List.range ((len + 3) / 4)).map fun i => (i, caskWord s p (off + 4 * i) (flipOf flips i))
  let s1 := words.foldl (fun a w => caskCounted p (off + 4 * w.1) w.2 a) s
  if words.any fun w => w.2 == .bad then wordLost u (s1.emit .nack)
  else s1.emit (.answer ((((words.map fun w => w.2.bytes).flatten).take len).map (·.toNat)))

/-- A write of a cask: a word written in part is read first, and where that word is uncorrectable the write is not carried out (R267). -/
def caskWrite (p off : Nat) (d : List Byte) (flips : List (Nat × Nat)) (s : State) : State :=
  let n := (d.length + 3) / 4
  let last := if d.length % 4 = 0 then .clean 0 else caskWord s p (off + 4 * (n - 1)) (flipOf flips (n - 1))
  let s1 := caskCounted p (off + 4 * (n - 1)) last s
  if last = .bad then s1.emit .nack
  else if ptrPart p = 1 then dramWrite (caskAddr p + off) d s1
  else s1.mapMem fun m => { m with sram := cellWrite m.sram (caskAddr p + off) d }

/-- CASK_ACCESS (R259): a read of `len` bytes or, where data are given, their write, checked at the cask port first; a dropped read is
treated as uncorrectable (R260). -/
def execCaskAccess (ptr off len : Nat) (data : Option (List Byte)) (requester : Nat) (flips : List (Nat × Nat)) (use : WordUse)
    (s : State) : Host.Outcome State Fault Refusal :=
  .next (match data with
    | some d =>
      if (caskPortCheck s ptr off d.length).isSome then badPointer ptr requester s else caskWrite ptr off d flips s
    | none =>
      if (caskPortCheck s ptr off len).isSome then wordLost use ((badPointer ptr requester s).emit .nack)
      else caskRead ptr off len flips use s)

/-! ### Gleaning (R278 to R280) -/

/-- One word of a group: corrected and written back, or poisoned. -/
def gleanWord (a flip : Nat) (s : State) : State :=
  match readWord (wordAt s a) (s.mem.poison.contains a) flip with
  | .clean _ => s
  | .fixed d => (dramWrite a (leBytes 4 d) (dramFixed a s)).mapMem fun m => { m with gleanCe := m.gleanCe + 1 }
  | .bad => (poisonWord a (dramBad a s)).mapMem fun m => { m with gleanUe := m.gleanUe + 1 }

/-- A group of 64 words; `row` names rank, bank and row, packed. A row with WEAK_ROW corrected words in the pass is reported. -/
def gleanGroup (addr : Nat) (flips : List (Nat × Nat)) (row : Nat) (s : State) : State :=
  if ¬ bit s 0x00300004 0 ∨ 0xD693A40000 ≤ addr then s
  else
    let base := addr / 256 * 256
    let s1 := (List.range 64).foldl (fun a i => gleanWord (base + 4 * i) (flipOf flips i) a) s
    let fixed := s1.mem.gleanCe - s.mem.gleanCe
    let ch := dramChannel base
    let key := ch * 2 ^ 32 + row % 2 ^ 32
    let was := mgetD s.mem.weakRows key 0
    let lim := fld s 0x00300020 16 8
    let s2 := s1.mapMem fun m => { m with
      gleanGroups := m.gleanGroups + 1, weakRows := if fixed = 0 then m.weakRows else mset m.weakRows key (was + fixed) }
    if lim ≠ 0 ∧ was < lim ∧ lim ≤ was + fixed then raise 0x4705 [ch, row / 2 ^ 24, row % 2 ^ 24] s2 else s2

/-- GLEAN_GROUP (R279). -/
def execGleanGroup (addr : Nat) (flips : List (Nat × Nat)) (row : Nat) (s : State) : Host.Outcome State Fault Refusal :=
  .next (gleanGroup addr flips row s)

/-- GLEAN_PERIOD_ELAPSED (R278): the period of the DRAM pass has gone by. -/
def execGleanPeriodElapsed (s : State) : Host.Outcome State Fault Refusal :=
  .next (if s.mem.gleanStart + fld s 0x00300020 0 11 * 30000000 ≤ s.tick then s.mapMem fun m => { m with gleanUrgent := true } else s)

/-- The DRAM pass ends with its counts, and the next begins. -/
def gleanPassEnd (s : State) : State :=
  if s.mem.gleanGroups < gleanTotal then s
  else
    raise 0x1702 [s.mem.gleanCe, s.mem.gleanUe] (s.mapMem fun m => { m with
      gleanPasses := m.gleanPasses + 1, gleanGroups := 0, gleanCe := 0, gleanUe := 0, gleanStart := s.tick, gleanUrgent := false, weakRows := [] })

/-- GLEAN_PASS_END (R280). -/
def execGleanPassEnd (s : State) : Host.Outcome State Fault Refusal := .next (gleanPassEnd s)

/-! ### Channels (R271 to R273) -/

/-- Change a channel. -/
def updChan (c : Nat) (f : Channel → Channel) (s : State) : State :=
  s.mapMem fun m => { m with channels := mupdD m.channels c Channel.fresh f }

/-- Begin the retraining of the channel that waits longest, while none runs. -/
def startRetrain (s : State) : State :=
  if (List.range 64).any fun c => (chanOf s c).retraining then s
  else
    match s.mem.retrainWait with
    | [] => s
    | c :: l =>
      bump 0x00300050 (raise 0x1701 [c] (updChan c (fun x => { x with retraining := true }) (s.mapMem fun m => { m with retrainWait := l })))

/-- Ask for retrainings. -/
def askRetrain (cs : List Nat) (s : State) : State :=
  let new := cs.filter fun c => decide (c < 64) && !s.mem.retrainWait.contains c && !(chanOf s c).retraining && !(chanOf s c).lost
  startRetrain (s.mapMem fun m => { m with retrainWait := m.retrainWait ++ new })

/-- WCK2DQ_OSCILLATOR (R271): every 1,000 ticks; `drifted` are the channels whose drift exceeds 1/8 UI. -/
def execWck2dqOscillator (drifted : List Nat) (s : State) : Host.Outcome State Fault Refusal :=
  .next (if s.tick % 1000 = 0 then askRetrain (sortRising drifted) s else s)

/-- A retraining ends; the third failure in a row loses the channel, which is fatal (R273). -/
def retrainEnd (c : Nat) (ok : Bool) (s : State) : State :=
  let x := chanOf s c
  if ¬ x.retraining then s
  else if ok then startRetrain (updChan c (fun y => { y with retraining := false, fails := 0, retrainTemp := y.tempC }) s)
  else if 2 ≤ x.fails then
    startRetrain (raise 0xC701 [c] (updChan c (fun y => { y with retraining := false, lost := true }) s))
  else
    let s1 := updChan c (fun y => { y with retraining := false, fails := y.fails + 1 }) s
    startRetrain (s1.mapMem fun m => { m with retrainWait := m.retrainWait ++ [c] })

/-- CHANNEL_RETRAIN_DONE (R271, R273). -/
def execChannelRetrainDone (channel : Nat) (ok : Bool) (s : State) : Host.Outcome State Fault Refusal := .next (retrainEnd channel ok s)

/-- What MR4 of a package gives for its four channels: refresh multiplier and temperature. -/
def mr4Package (r : Nat × Nat × Nat) (s : State) : State :=
  let cs := [4 * r.1, 4 * r.1 + 1, 4 * r.1 + 2, 4 * r.1 + 3]
  let old := chanOf s (4 * r.1)
  let t := r.2.2
  let half := if 105 < t then true else if t ≤ 100 then false else old.halved
  let s1 := cs.foldl (fun a c => updChan c (fun x => { x with
    refresh := r.2.1 % 4, tempC := t, halved := half, retrainTemp := if x.tempC = 0 ∧ x.retrainTemp = 0 then t else x.retrainTemp }) a) s
  let s2 := if 85 ≤ t ∧ old.tempC < 85 then raise 0x4707 [r.1, t] s1 else s1
  let s3 := if 105 < t ∧ ¬ old.halved then raise 0x8708 [r.1, t] s2 else s2
  let moved := fun c => let x := chanOf s3 c; decide (10 ≤ max x.tempC x.retrainTemp - min x.tempC x.retrainTemp)
  askRetrain (cs.filter moved) s3

/-- MR4_READ (R272): every 8,000 ticks; readings by package: refresh multiplier code and temperature. -/
def execMr4Read (readings : List (Nat × Nat × Nat)) (s : State) : Host.Outcome State Fault Refusal :=
  .next (if s.tick % 8000 = 0 then (readings.filter fun r => decide (r.1 < 16)).foldl (fun a r => mr4Package r a) s else s)

end Sys2Proof.Machine
end

