-- ==== Sys2Proof/Machine/SitesRows.lean ====
section
/-! DEFINITION. The commands of sites apart: configuration digests and their fence, link-down, absence, SITE-STATE, notices and
PROMOTE (R476 to R495, R499). -/

namespace Sys2Proof.Machine

open Sys2Proof

/-! ### Configuration digests (R490 to R492) -/

/-- INTEROP: bits [31:16] of the firmware version. -/
def interop (s : State) : Nat := bitsOf s.mgt.fwVersion 16 16

/-- The lowest contract level known to the sender (R494). -/
def knownLevel (s : State) : Nat := s.sites.partners.toList.foldl (fun n p => min n p.level) 1

/-- The current blend of a context and class in SCOPE_DIGEST: ID and DIGEST, zeros for none. -/
def scopeBlend (s : State) (ctx cls : Nat) : List Byte :=
  match (bslot s ctx cls).current with
  | some b => byte b.id :: beBytes 8 b.digest
  | none => List.replicate 9 0

/-- SCOPE_DIGEST of a port. -/
def scopeDigest (s : State) (p : Nat) : List Byte :=
  let first := if (keysOf s p).initiator then lOut p else lIn p
  let second := if (keysOf s p).initiator then lIn p else lOut p
  shake256 (byte (partnerOf s p).level :: beBytes 2 (interop s) ++
    ((List.range 8).map fun c => scopeBlend s first c ++ scopeBlend s second c).flatten) 16

/-- IMAGE_DIGEST of the program a parameter set names; nothing where it names none. -/
def namedImage (s : State) (set : List Byte) : List Byte :=
  let id := (PSet.ofBytes set).programId
  if id = 0 then []
  else beBytes 32 ((((mget s.coll.programs id).bind (·.current)).map (·.digest)).getD 0)

/-- The group digest of one version (R491). -/
def groupDigest (s : State) (t : GroupTable) : List Byte :=
  let sets := (List.range 16).map fun i => regionRead s t.constRegion (64 * i) 64
  shake256 (beBytes 2 t.group ++ beBytes 2 t.epoch ++
    [byte t.sites, byte t.policy, byte t.primarySite, byte (b2n t.isSealed)] ++
    beBytes 4 (if t.timeout = 0 then 250000 else t.timeout) ++ beBytes 2 (absenceTicks t) ++ beBytes 4 (fallowTicks t) ++
    beBytes 8 t.srSeed ++ beBytes 4 (totalMembers t) ++ sets.flatten ++ (sets.map (namedImage s)).flatten) 16

/-- The groups that have a far member on a port, with the current version of each. -/
def portGroups (s : State) (p : Nat) : List (GroupRec × GroupTable) :=
  s.coll.groups.filterMap fun e => match e.2.current with
    | some t => if (farOfPort t p).isSome then some (e.2, t) else none
    | none => none

/-- GROUPS_DIGEST of a port. -/
def groupsDigest (s : State) (p : Nat) : List Byte :=
  shake256 ((portGroups s p).map fun g => beBytes 2 g.2.group ++ beBytes 2 g.2.epoch ++ groupDigest s g.2).flatten 16

/-- The body of a DIGEST. -/
def digestBody (s : State) (p : Nat) : List Byte :=
  [1, byte (knownLevel s)] ++ beBytes 2 (interop s) ++ beBytes 4 (portGroups s p).length ++ scopeDigest s p ++ padTo 16 (groupsDigest s p)

/-- The versions a record holds, the current one first, then standby and draining. -/
def heldVersions (r : GroupRec) : List GroupTable := r.current.toList ++ r.standby.toList ++ r.draining.toList

/-- The body of a DIGEST-LIST. -/
def digestList (s : State) (p : Nat) : List Byte :=
  let entries := (portGroups s p).map fun g => (heldVersions g.1).map fun t =>
    beBytes 2 t.group ++ beBytes 2 t.epoch ++ groupDigest s t
  [3, 0, 0, 0] ++ (entries.flatten.take 3200).flatten

/-- A READY gateway sends DIGEST on a paired port when it is due. -/
def digestSend (p : Nat) (s : State) : State :=
  let x := partnerOf s p
  if s.bru.ready ∧ (keysOf s p).st = 4 ∧ x.digestTick ≤ s.tick then
    updPartner p (fun y => { y with digestTick := s.tick + 1000 }) (sendCtl p 0x30 [] (digestBody s p) s)
  else s

/-- DIGEST_SEND (R490). -/
def execDigestSend (port : Nat) (s : State) : Host.Outcome State Fault Refusal := .next (digestSend port s)

/-- The level of a counted DIGEST lowers what every port knows (R494). -/
def noteLevel (level : Nat) (s : State) : State :=
  s.mapSites fun x => { x with partners := x.partners.map fun y => { y with level := min y.level level } }

/-- A comparison of SCOPE_DIGEST and GROUPS_DIGEST is noted; the partner is link-up from now on (R477). -/
def noteComparison (p : Nat) (scope groups : Bool) (s : State) : State :=
  updPartner p (fun x => { x with
    compared := true
    linkDown := false
    agreedAll := groups
    agreed := if groups then [] else x.agreed
    scopeSince := if scope then none else some (x.scopeSince.getD s.tick)
    groupSince := if groups then [] else x.groupSince }) s

/-- A partner's DIGEST on a paired port is compared. -/
def digestRx (p level : Nat) (scope groups : List Byte) (s : State) : State :=
  if (keysOf s p).st ≠ 4 ∨ ¬ (partnerOf s p).paired then s
  else
    let s1 := noteLevel level s
    let sc := scope == scopeDigest s1 p
    let gr := groups == groupsDigest s1 p
    let was := (partnerOf s1 p).linkDown
    let s2 := noteComparison p sc gr s1
    let s3 := if was then resyncAll p s2 else s2
    if sc ∧ gr then s3 else sendCtl p 0x30 [] (digestList s3 p) s3

/-- DIGEST_RX (R492). -/
def execDigestRx (port level : Nat) (scope groups : List Byte) (s : State) : Host.Outcome State Fault Refusal :=
  .next (policed port (digestRx port level scope groups) s)

/-- Does a group agree with the partner's entries for it, as epoch and digest, the current one first (R492)? -/
def groupAgrees (s : State) (r : GroupRec) (t : GroupTable) (theirs : List (Nat × List Byte)) : Bool :=
  match theirs with
  | [] => false
  | cur :: _ =>
    (decide (ringDist 16 t.epoch cur.1 ≤ 1) || decide (ringDist 16 cur.1 t.epoch ≤ 1)) &&
      (heldVersions r).any fun v => theirs.contains (v.epoch, groupDigest s v)

/-- A DIGEST-LIST is compared group by group. -/
def digestListRx (p : Nat) (entries : List (Nat × Nat × List Byte)) (s : State) : State :=
  if (keysOf s p).st ≠ 4 ∨ ¬ (partnerOf s p).paired then s
  else
    let of := fun (g : Nat) => (entries.filter fun e => e.1 == g).map (·.2)
    let gs := portGroups s p
    let ok := (gs.filter fun g => groupAgrees s g.1 g.2 (of g.2.group)).map (·.2.group)
    let bad := (gs.map (·.2.group)).filter fun g => !ok.contains g
    updPartner p (fun x => { x with
      agreed := ok
      agreedAll := bad.isEmpty
      groupSince := bad.foldl (fun m g => mset m g (mgetD x.groupSince g s.tick)) [] }) s

/-- DIGEST_LIST_RX (R492). -/
def execDigestListRx (port : Nat) (entries : List (Nat × Nat × List Byte)) (s : State) : Host.Outcome State Fault Refusal :=
  .next (policed port (digestListRx port entries) s)

/-! ### The configuration fence (R493) -/

/-- Has a difference persisted? -/
def persists (s : State) (p since : Nat) : Bool := decide (since + rttP s p + 2000 ≤ s.tick)

/-- A SCOPE_DIGEST difference that stands fences every group of the port. -/
def fenceScope (p : Nat) (s : State) : State :=
  let x := partnerOf s p
  if ¬ x.scopeFenced ∧ x.scopeSince.any (persists s p) then
    let n := (portGroups s p).length
    bumpBy 0x000940B0 n (raise 0x8E03 [p, n] (updPartner p (fun y => { y with scopeFenced := true }) s))
  else s

/-- Group differences that stand fence their groups. -/
def fenceGroups (p : Nat) (s : State) : State :=
  let x := partnerOf s p
  let gs := (x.groupSince.filter fun e => persists s p e.2 && !x.groupFenced.contains e.1).map (·.1)
  if gs.isEmpty then s
  else
    bumpBy 0x000940B0 gs.length (raise 0x8E03 [p, gs.length]
      (updPartner p (fun y => { y with groupFenced := gs.foldl (fun l g => insertRising g l) y.groupFenced }) s))

/-- CONFIG_FENCE (R493). -/
def execConfigFence (port : Nat) (s : State) : Host.Outcome State Fault Refusal := .next (fenceGroups port (fenceScope port s))

/-! ### A silent partner (R477, R479, R485) -/

/-- Does a page in force of a swap's lane steer to a port? -/
def swapUses (s : State) (p : Nat) : Bool := s.opt.swap.any fun w => (lanePorts (laneOf s w.lane)).contains p

/-- A link-up partner of which no block has passed check 6 for 250 ticks becomes link-down. -/
def linkLost (p : Nat) (s : State) : State :=
  let x := partnerOf s p
  if x.linkDown ∨ s.tick < x.lastGood + 250 then s
  else
    let s1 := updPartner p (fun y => { y with
      linkDown := true, paired := false, compared := false, agreedAll := false, agreed := [], reported := [] }) s
    let s2 := lapseOffers p (raise 0x4E01 [p] s1)
    if swapUses s2 p then stopSwap s2 else s2

/-- PARTNER_LINK_DOWN (R477). -/
def execPartnerLinkDown (port : Nat) (s : State) : Host.Outcome State Fault Refusal :=
  .next (if port < 4 then linkLost port s else s)

/-- SITE_ABSENT (R479): the absence decisions of an edge by themselves. -/
def execSiteAbsent (s : State) : Host.Outcome State Fault Refusal := .next (decideAbsence s)

/-- FALLOW_LIMIT (R485): the limit on fallow by time, for every group. -/
def execFallowLimit (s : State) : Host.Outcome State Fault Refusal :=
  .next (s.coll.groups.foldl (fun a e => match e.2.current with
    | some t => testFallowLimit e.1 t a
    | none => a) s)

/-! ### SITE-STATE and SITE-ACK (R480) -/

/-- Is every block below a state's FROM_SEQs out of the reorder area? -/
def statePassed (s : State) (e : SMap Nat × SMap Nat) : Bool :=
  e.1.all fun f => ((mget s.line.tribs f.1).all fun t => decide (f.2 ≤ t.rxRel)) &&
    s.line.rxWait.all fun b => b.trib != f.1 || decide (f.2 ≤ b.seq)

/-- States of coverage up to the newest that every block to come already falls under. -/
def keepStates (s : State) : List (SMap Nat × SMap Nat) → List (SMap Nat × SMap Nat)
  | [] => []
  | e :: l => if statePassed s e then [e] else e :: keepStates s l

/-- A SITE-STATE sets the absent sites that the far member reports and the coverage of its later blocks, and is
acknowledged. -/
def siteStateRx (p : Nat) (groups seqs : List (Nat × Nat)) (lineSeq : Nat) (s : State) : State :=
  match groups with
  | [] => s
  | g :: _ =>
    let put := fun (m : SMap Nat) (l : List (Nat × Nat)) => l.foldl (fun a e => mset a e.1 e.2) m
    sendCtl p 0x30 [5, g.1, lineSeq] [] (updPartner p (fun x =>
      let rep := put x.reported groups
      { x with reported := rep, states := (put [] seqs, rep) :: keepStates s x.states }) s)

/-- SITE_STATE_RX (R480). -/
def execSiteStateRx (port : Nat) (groups seqs : List (Nat × Nat)) (lineSeq : Nat) (s : State) :
    Host.Outcome State Fault Refusal :=
  .next (policed port (siteStateRx port groups seqs lineSeq) s)

/-- The SITE-ACK that is awaited lets exchange blocks from FROM_SEQ start. -/
def siteAckRx (p group lineSeq : Nat) (s : State) : State :=
  if (partnerOf s p).await = some (group, lineSeq) then updPartner p (fun x => { x with holds := [], await := none }) s else s

/-- SITE_ACK_RX (R480). -/
def execSiteAckRx (port group lineSeq : Nat) (s : State) : Host.Outcome State Fault Refusal :=
  .next (policed port (siteAckRx port group lineSeq) s)

/-! ### Notices (R169, R197, R202) -/

/-- An arrival waits to be counted at the next edge. -/
def arrive (a : Arrival) (s : State) : State := s.mapHost fun h => { h with arrivals := h.arrivals ++ [a] }

/-- LAUNCH_NOTICE_RX (R197): counted, checked and forwarded at step 1 of the next edge. -/
def execLaunchNoticeRx (port group epoch inst hash : Nat) (fence : Bool) (sites : Nat) (s : State) :
    Host.Outcome State Fault Refusal :=
  .next (arrive (.launchNotice port group epoch inst hash fence sites) s)

/-- ABORT_NOTICE_RX (R202). -/
def execAbortNoticeRx (port group inst code site : Nat) (s : State) : Host.Outcome State Fault Refusal :=
  .next (arrive (.abortNotice port group inst code site) s)

/-- FENCE_CLEAR_RX (R169). -/
def execFenceClearRx (port group inst : Nat) (s : State) : Host.Outcome State Fault Refusal :=
  .next (arrive (.fenceClear port group inst) s)

/-! ### PROMOTE (R499) -/

/-- A PROMOTE: the named device may pair on the port, and no absence is declared before the grace after T is over. -/
def promoteRx (p : Nat) (device : List Byte) (at_ : Nat) (s : State) : State :=
  updPartner p (fun x => { x with
    graceDevice := fixLen 8 device
    graceUntil := s.tick + ticksUntil s at_ + fld1 s 0x00094080 16 8 * 500000 }) s

/-- PROMOTE_RX (R499). -/
def execPromoteRx (port : Nat) (device : List Byte) (at_ : Nat) (s : State) : Host.Outcome State Fault Refusal :=
  .next (policed port (promoteRx port device at_) s)

end Sys2Proof.Machine
end

