-- ==== Sys2Proof/Machine/TwinRows.lean ====
section
/-! DEFINITION. The commands of the shadow join: the twin session in the shadow's role, the matching of twin ticks, and promotion
(R496 to R500). -/

namespace Sys2Proof.Machine

open Sys2Proof

/-- Change the shadow join. -/
def updShadow (f : Shadow → Shadow) (s : State) : State := s.mapSites fun x => { x with shadow := f x.shadow }

/-! ### The session (R311, R497) -/

/-- The number under which the shadow keeps the twin's session: its low 32 bits are the SESSION_ID, apart from its own. -/
def twinSid (id : Nat) : Nat := 2 ^ 32 + id

/-- Do the signature, the chain and the subject of a HELLO-REPLY hold? -/
def replyGood (s : State) (hello b : List Byte) : Bool :=
  let leaf := chainLeaf (helloChain b)
  decide (2848 ≤ b.length) && Config.falconVerify (certKey leaf) (shake256 (hello ++ helloSigned b) 64) (helloSig b) &&
    (chainFault s s.sec.anchor 3 2 (helloChain b)).isNone && certSubject leaf == s.sites.shadow.peer

/-- A complete HELLO-REPLY: the direction keys are derived, the session opens, and FINISH leaves. -/
def helloReplyIn (sid seed : Nat) (hello b : List Byte) (s : State) : State :=
  if ¬ replyGood s hello b then raise 0x4404 [s.sites.shadow.peerSrc.addr % 2 ^ 32] s
  else if maxSessions s ≤ s.host.sessions.length then s
  else
    let ss := Config.kemDecaps seed (b.take 1568)
    let h := shake256 (hello ++ b) 64
    let x : Session :=
      { src := s.sites.shadow.peerSrc, keyIn := mbxKey ss h 1, keyOut := mbxKey ss h 0, role := 255, hiIn := 0, seen := [],
        nextOut := 1, lastTick := s.tick, sub := none, bulk := none, twin := true }
    let s1 := s.mapHost fun y => { y with sessions := mset y.sessions (twinSid sid) x }
    mbxSend (twinSid sid) 3 0 0 [] (updShadow (fun y => { y with session := some (twinSid sid), hello := none }) s1)

/-- A fragment of the HELLO-REPLY that the shadow awaits. -/
def helloReply (src : Source) (udp : List Byte) (s : State) : State :=
  match s.sites.shadow.hello with
  | none => s
  | some (ident, seed, hello) =>
    if s.sites.shadow.role ≠ 1 ∨ ¬ mbxUp s ∨ ¬ mbxForm 2 udp ∨ mbxCounter udp ≠ ident ∨ src ≠ s.sites.shadow.peerSrc then s
    else
      match addFragment src udp s with
      | (some b, s1) => helloReplyIn (mbxSession udp) seed hello b s1
      | (none, s1) => s1

/-- MBX_HELLO_REPLY (R497). -/
def execMbxHelloReply (src : Source) (udp : List Byte) (s : State) : Host.Outcome State Fault Refusal :=
  .next (rxFrame (helloReply src udp) s)

/-! ### Matching (R498) -/

/-- The join ends: its session closes. -/
def endJoin (s : State) : State :=
  updShadow (fun _ => Shadow.idle) (s.sites.shadow.session.elim s fun sid => endSession sid s)

/-- A mismatch at either twin: the event, with its Ledger record; the third within 500,000 ticks ends the join as failed. -/
def noteMismatch (g i c : Nat) (s : State) : State :=
  let recent := s.tick :: s.sites.shadow.mismatches.filter fun t => decide (s.tick < t + 500000)
  let s1 := bump 0x000940B8 (raise 0x8E04 [g, i, c] (updShadow (fun x => { x with mismatches := recent }) s))
  if 3 ≤ recent.length then endJoin s1 else s1

/-- The count of consecutive matched ticks begins again after a twin tick. -/
def resetMatch (t : Nat) (s : State) : State :=
  updShadow (fun x => { x with
    base := some (max (x.base.getD 0) (t + 1))
    ticks := mfilter x.ticks fun k _ => decide (t < k)
    waiting := x.waiting.filter fun w => decide (t < w.twinTick)
    matched := 0 }) s

/-- The shadow tells the twin of a mismatch: a TWIN datagram with the entry as the shadow pressed it. -/
def reportMismatch (w : TwinEntry) (own : Nat) (s : State) : State :=
  match s.sites.shadow.session with
  | none => s
  | some sid =>
    updShadow (fun x => { x with nextReq := x.nextReq + 1 })
      (mbxSend sid 9 0 s.sites.shadow.nextReq (twinBody w.twinTick 0 true [(w.group, w.inst, w.chunk, own)]) s)

/-- Compare one waiting entry with what the shadow has pressed. -/
def matchEntry (w : TwinEntry) (s : State) : State :=
  let same := fun (e : Nat × Nat × Nat × Nat × Nat) => e.1 == w.group && e.2.1 == w.inst && e.2.2.1 == w.chunk
  match s.sites.shadow.own.find? same with
  | none => s
  | some e =>
    if w.tick + 1000 < e.2.2.2.2 then s
    else
      let s1 := updShadow (fun x => { x with own := x.own.filter fun y => !same y, waiting := x.waiting.filter (· != w) }) s
      if e.2.2.2.1 = w.digest then s1
      else noteMismatch w.group w.inst w.chunk (reportMismatch w e.2.2.2.1 (resetMatch w.twinTick s1))

/-- Has every datagram of a twin tick come, and does none of its entries wait? -/
def tickClosed (x : Shadow) (t : Nat) (p : Nat × Nat × Nat) : Bool :=
  decide (p.2.1 ≠ 0) && p.1 == p.2.1 && !(x.waiting.any fun w => w.twinTick == t)

/-- Close the twin ticks matched in full and count the run: ticks without entries are matched. -/
def countMatched (x : Shadow) : Shadow :=
  let ticks := mfilter x.ticks fun t p => !tickClosed x t p
  let upTo := match ticks with
    | [] => x.last + 1
    | e :: _ => e.1
  { x with ticks := ticks, matched := (x.base.map fun b => upTo - b).getD 0 }

/-- The shadow becomes eligible at 50,000 consecutive matched ticks. -/
def testEligible (s : State) : State :=
  if ¬ s.sites.shadow.eligible ∧ 50000 ≤ s.sites.shadow.matched then
    raise 0x1E03 [] (updShadow (fun x => { x with eligible := true }) s)
  else s

/-- Match whatever waits. -/
def matchTwin (s : State) : State :=
  if s.sites.shadow.role ≠ 1 then s
  else testEligible (updShadow countMatched (s.sites.shadow.waiting.foldl (fun a w => matchEntry w a) s))

/-! ### TWIN datagrams (R497, R500) -/

/-- The entries of a TWIN body. -/
def twinEntries (tick now : Nat) (b : List Byte) : List TwinEntry :=
  (List.range (min 409 (beAt b 8 2))).map fun k =>
    let e := slice b (20 + 20 * k) 20
    { twinTick := tick, group := beAt e 0 2, inst := beAt e 4 4, chunk := beAt e 8 4, digest := beAt e 12 8, tick := now }

/-- A datagram of digests at the shadow. -/
def twinDigests (b : List Byte) (s : State) : State :=
  let t := beAt b 0 8
  let n := if bitOf (byteAt b 11) 7 then byteAt b 10 + 1 else 0
  matchTwin (updShadow (fun x =>
    let old := mgetD x.ticks t (0, 0, s.tick)
    { x with
      base := some (x.base.getD t)
      last := max x.last t
      ticks := mset x.ticks t (old.1 + 1, max old.2.1 n, old.2.2)
      waiting := x.waiting ++ twinEntries t s.tick b }) s)

/-- A datagram that hands over OUT_NEXT values, marked by its first reserved byte: streams in the place of entries. -/
def outNextIn (b : List Byte) (s : State) : State :=
  let n := min 409 (beAt b 8 2)
  updShadow (fun x => { x with
    outNext := (List.range n).foldl (fun m k => mset m (beAt b (20 + 20 * k) 4) (beAt b (24 + 20 * k) 4)) x.outNext }) s

/-- The body of a TWIN datagram: digests and OUT_NEXT at the shadow, a mismatch at the twin. -/
def twinIn (sid : Nat) (b : List Byte) (s : State) : State :=
  if s.sites.shadow.session ≠ some sid ∨ b.length < 20 then s
  else if s.sites.shadow.role = 1 then (if byteAt b 12 = 1 then outNextIn b s else twinDigests b s)
  else (twinEntries 0 s.tick b).foldl (fun a e => noteMismatch e.group e.inst e.chunk a) s

/-- A TWIN datagram: the shadow keeps the session apart from its own. -/
def twinRx (udp : List Byte) (s : State) : State :=
  let sid := if s.sites.shadow.role = 1 then twinSid (mbxSession udp) else mbxSession udp
  openDatagramOf sid 9 udp twinIn s

/-- MBX_TWIN (R497). -/
def execMbxTwin (udp : List Byte) (s : State) : Host.Outcome State Fault Refusal := .next (rxFrame (twinRx udp) s)

/-- What has waited for 1,000 ticks unmatched resets the count, without an event. -/
def unmatchedExpiry (s : State) : State :=
  let s1 := matchTwin s
  let x := s1.sites.shadow
  let entries := (x.waiting.filter fun w => decide (w.tick + 1000 ≤ s1.tick)).map (·.twinTick)
  let parts := (x.ticks.filter fun e => decide (e.2.2.2 + 1000 ≤ s1.tick)).map (·.1)
  match entries ++ parts with
  | [] => s1
  | t :: l => testEligible (updShadow countMatched (resetMatch (l.foldl max t) s1))

/-- TWIN_UNMATCHED_EXPIRY (R498). -/
def execTwinUnmatchedExpiry (s : State) : Host.Outcome State Fault Refusal := .next (unmatchedExpiry s)

/-! ### Promotion (R500) -/

/-- The entries that hand over OUT_NEXT of streams. -/
def outNextBody (s : State) (l : List (Nat × StreamCtx)) : List Byte :=
  beBytes 8 s.tick ++ beBytes 2 l.length ++ [0, 128, 1, 0, 0, 0, 0, 0, 0, 0] ++
    (l.map fun e => beBytes 4 e.1 ++ beBytes 4 e.2.outNext ++ List.replicate 12 0).flatten

/-- Send OUT_NEXT for every open stream to the shadow. -/
def sendOutNext (s : State) : State :=
  match s.sites.shadow.session with
  | none => s
  | some sid =>
    (chunks 409 s.host.streams).foldl (fun a l =>
      updShadow (fun x => { x with nextReq := x.nextReq + 1 }) (mbxSend sid 9 0 a.sites.shadow.nextReq (outNextBody s l) a)) s

/-- The twin hands over: OUT_NEXT, its addresses, its lasers. -/
def twinHandsOver (s : State) : State :=
  let s1 := (sendOutNext s).mapHost fun h => { h with ipv4 := 0, ipv6 := 0 }
  raise 0x1E04 [] (updShadow (fun x => { x with promoteAt := none, promoted := true })
    (s1.mapLine fun l => { l with lanes := l.lanes.map fun x => { x with txUp := false } }))

/-- The shadow adopts the twin's address and announces it. -/
def adoptAddress (s : State) : State :=
  let p := s.sites.shadow.peerSrc
  enqueue 0 1 (.other (.announce p.v6 p.addr))
    (s.mapHost fun h => if p.v6 then { h with ipv6 := p.addr } else { h with ipv4 := p.addr })

/-- The shadow takes over: the address, OUT_NEXT, its lasers, and pairing. -/
def shadowTakesOver (s : State) : State :=
  let m := s.sites.shadow.outNext
  let s1 := (adoptAddress s).mapHost fun h => { h with streams := mmap h.streams fun id x => { x with outNext := mgetD m id x.outNext } }
  let s2 := s1.mapLine fun l => { l with lanes := l.lanes.map fun x => { x with txUp := x.active.isSome } }
  let s3 := updShadow (fun x => { x with role := 0, promoteAt := none, promoted := true }) s2
  (List.range 4).foldl (fun a p => if hasPartner a p ∧ (keysOf a p).st = 0 then beginPairing p a else a) (raise 0x1E04 [] s3)

/-- The first edge at or after T. -/
def promoteAtT (s : State) : State :=
  if s.sites.shadow.promoteAt.any fun t => decide (t ≤ s.time.v) then
    if s.sites.shadow.role = 2 then twinHandsOver s
    else if s.sites.shadow.role = 1 then shadowTakesOver s
    else s
  else s

/-- PROMOTION_AT_T (R500). -/
def execPromotionAtT (s : State) : Host.Outcome State Fault Refusal := .next (promoteAtT s)

end Sys2Proof.Machine
end

