-- ==== Sys2Proof/Machine/FaultRows.lean ====
section
/-! DEFINITION. The commands of faults and records: the Vintner pairs, power, Ledger seals and summaries, state capture, and the
telemetry and test ports (R503, R512, R513, R518, R523 to R529, R570, R576, R577). -/

namespace Sys2Proof.Machine

open Sys2Proof

/-! ### The Vintner (R512, R513, R569, R570) -/

/-- Two restarts within the hour that ends now. -/
def restartsSoon (s : State) : List Nat := s.flt.restarts.filter fun t => decide (s.tick < t + 1800000000)

/-- The firmware restarts: sessions end, and mailboxes stop answering. -/
def restartVintner (s : State) : State :=
  let s1 := (s.host.sessions.map (·.1)).foldl (fun a sid => endSession sid a) s
  let s2 := s1.mapHost fun h => { h with half := [], frags := [] }
  let s3 := s2.mapMgt fun g => { g with order := [], mbx := g.mbx.map fun x => { x with waiting := false, deferred := false } }
  let s4 := s3.mapSites fun x => { x with shadow := { x.shadow with session := none, hello := none } }
  let s5 := raise 0x8F01 [] (bump 0x00340068 s4)
  s5.mapFlt fun f => { f with vintnerUp := false, vintnerHeld := 0, restarts := s.tick :: restartsSoon s }

/-- The watchdog, or the failure of both pairs: a restart, or the fatal event in place of the third within an hour. -/
def watchdog (s : State) : State :=
  if ¬ s.flt.vintnerUp then s
  else if 2 ≤ (restartsSoon s).length then raise 0xCF01 [] s
  else restartVintner s

/-- VINTNER_WATCHDOG (R513). -/
def execVintnerWatchdog (s : State) : Host.Outcome State Fault Refusal := .next (watchdog s)

/-- The members of the active pair disagree: the standby pair goes on from the journal; with none, both pairs have failed. -/
def pairMismatch (s : State) : State :=
  if ¬ s.flt.vintnerUp then s
  else if s.flt.vintnerSingle ∨ ¬ s.flt.vintnerStandby then watchdog s
  else
    let k := 1 - s.flt.vintnerActive
    bump 0x00340064 (raise 0x4F01 [k] (s.mapFlt fun f => { f with vintnerActive := k, vintnerStandby := false }))

/-- VINTNER_PAIR_MISMATCH (R512). -/
def execVintnerPairMismatch (s : State) : Host.Outcome State Fault Refusal := .next (pairMismatch s)

/-- The failed pair rejoins as standby, or the device goes on with one pair. -/
def pairSelfTest (pass : Bool) (s : State) : State :=
  s.mapFlt fun f => { f with vintnerStandby := pass, vintnerSingle := !pass }

/-- VINTNER_SELF_TEST_DONE (R512). -/
def execVintnerSelfTestDone (pass : Bool) (s : State) : Host.Outcome State Fault Refusal := .next (pairSelfTest pass s)

/-- A restart completes: mailboxes answer, and a bring-up step in progress runs again from its start. -/
def restartDone (s : State) : State :=
  (s.mapFlt fun f => { f with vintnerUp := true, vintnerHeld := 0 }).mapBru fun b =>
    if b.running then { b with stepTick := s.tick } else b

/-- VINTNER_RESTART_DONE (R513). -/
def execVintnerRestartDone (s : State) : Host.Outcome State Fault Refusal :=
  .next (if s.flt.vintnerUp ∨ s.flt.restarts.isEmpty then s else restartDone s)

/-- VINTNER_HEARTBEAT_LOSS (R570). -/
def execVintnerHeartbeatLoss (s : State) : Host.Outcome State Fault Refusal := .next (raise 0xCF01 [] s)

/-! ### Power (R503, R525, R593) -/

/-- RAIL_FAULT (R503): recorded only while the input supply is good. -/
def execRailFault (rail : Nat) (s : State) : Host.Outcome State Fault Refusal :=
  .next (if s.flt.supplyLost then s else raise 0xCF03 [rail] (s.mapBru fun b => { b with railsOk := false }))

/-- The input supply has failed: the event, the POWER-LOSS record with the records still queued, and no further capture. -/
def powerLoss (queued : Nat) (s : State) : State :=
  let s1 := ledgerWrite 5 0 (leBytes 4 queued) (raise 0xFF01 [] s)
  s1.mapFlt fun f => { f with supplyLost := true, capturing := none }

/-- POWER_LOSS (R525). -/
def execPowerLoss (queued : Nat) (s : State) : Host.Outcome State Fault Refusal :=
  .next (if s.flt.supplyLost then s else powerLoss queued s)

/-! ### The Ledger (R523, R524) -/

/-- Append records of a seal to a stream. -/
def sealAppend (stream kind : Nat) (body : List Byte) (s : State) : State :=
  let r : LedgerRec :=
    { stream := stream, kind := kind, index := 0, tick := s.tick, time := ledgerTime s, code := 0, boot := s.mgt.boot,
      fwVersion := s.mgt.fwVersion, body := body, chain := [] }
  s.mapFlt fun f =>
    if stream = 0 then { f with ledgerC := f.ledgerC.append 884736 s.tick s.mgt.deviceId r }
    else { f with ledgerF := f.ledgerF.append 32768 s.tick s.mgt.deviceId r }

/-- A stream of the Ledger. -/
def ledgerStream (s : State) (stream : Nat) : LedgerStream := if stream = 0 then s.flt.ledgerC else s.flt.ledgerF

/-- SEAL_RECORDS in force. -/
def sealRecords (s : State) : Nat := fld s 0x00340014 0 13

/-- Is the seal of a stream due, and is there room for it in stream F? -/
def sealDue (s : State) (stream : Nat) : Bool :=
  let t := ledgerStream s stream
  s.flt.vintnerUp && decide (t.unsealed < t.next) &&
    (decide (t.unsealed + sealRecords s ≤ t.next) || decide (t.sealTick + 30000000 ≤ s.tick)) &&
    (stream == 0 || decide (t.next + 4 ≤ 32768))

/-- Everything up to now is sealed. -/
def LedgerStream.markSealed (t : LedgerStream) : LedgerStream := { t with unsealed := t.next }

/-- Stream F is full: the event is raised once (R520). -/
def testFull (s : State) : State :=
  if s.flt.ledgerF.next = 32768 ∧ ¬ s.flt.ledgerFFull then raise 0x4F02 [] (s.mapFlt fun f => { f with ledgerFFull := true }) else s

/-- One seal: SEAL, then the signature over its 512 bytes in three SEAL-CONT records. -/
def sealStream (stream : Nat) (s : State) : State :=
  let t := ledgerStream s stream
  let s1 := sealAppend stream 2 (leBytes 8 t.unsealed ++ leBytes 8 (t.next - 1) ++ t.chain) s
  let sig := ownSign (((ledgerStream s1 stream).recs.getLast?.map LedgerRec.toBytes).getD [])
  let s2 := (chunks 432 sig).foldl (fun a b => sealAppend stream 3 b a) s1
  let s3 := s2.mapFlt fun f =>
    if stream = 0 then { f with ledgerC := f.ledgerC.markSealed } else { f with ledgerF := f.ledgerF.markSealed }
  testFull (raise 0x1F01 [stream] s3)

/-- LEDGER_SEAL (R524). -/
def execLedgerSeal (stream : Nat) (s : State) : Host.Outcome State Fault Refusal :=
  .next (if stream < 2 ∧ sealDue s stream then sealStream stream s else s)

/-- A second is over: the records dropped in it are summarised by code, and the count of those written begins again. -/
def dropSummary (s : State) : State :=
  let s1 := if s.flt.dropped.isEmpty then s
    else ledgerWrite 9 0 (s.flt.dropped.map fun e => leBytes 2 e.1 ++ leBytes 4 e.2).flatten s
  s1.mapFlt fun f => { f with warnCount := 0, dropped := [] }

/-- LEDGER_DROP_SUMMARY (R523). -/
def execLedgerDropSummary (s : State) : Host.Outcome State Fault Refusal := .next (dropSummary s)

/-! ### The Barn (R518, R527 to R529) -/

/-- The largest size of a section. -/
def sectionLimit (id : Nat) : Nat :=
  [0, 0x20000, 0x1000000, 0x2000000, 0x800000, 0x4000000, 0x4000000, 0x80000000, 0x1000000, 0x10000000, 0x4000000,
    70 * 2 ^ 20].getD id 0

/-- Is a section part of a capture? Section 1 is the model's own. -/
def sectionTaken (s : State) (id : Nat) : Bool :=
  decide (2 ≤ id) && decide (id ≤ 11) && (id != 7 || bit s 0x00340004 2)

/-- Section 1: the event ring, oldest record first. -/
def ringSection (s : State) : List Byte := (s.flt.ring.reverse.map (EventRec.toBytes false)).flatten

/-- The sections of a capture in order of ID, each cut to its limit: ID, FLAGS, bytes. -/
def captureSections (s : State) (given : List (Nat × Bool × List Byte)) : List (Nat × Nat × List Byte) :=
  let all := (1, false, ringSection s) :: sortByKey (·.1) (given.filter fun g => sectionTaken s g.1)
  all.map fun g =>
    (g.1, b2n (decide (sectionLimit g.1 < g.2.2.length)) + 2 * b2n g.2.1, g.2.2.take (sectionLimit g.1))

/-- The bytes of a directory entry. -/
def directoryEntry (id flags off : Nat) (l : List Byte) : List Byte :=
  leBytes 2 id ++ leBytes 2 flags ++ leBytes 4 0 ++ leBytes 8 off ++ leBytes 8 l.length ++ shake256 l 8

/-- Write one section and its directory entry; the next offset comes back. -/
def writeSection (k i : Nat) (g : Nat × Nat × List Byte) (a : Nat × State) : Nat × State :=
  let s1 := dramWrite (barnBase k + a.1) g.2.2 a.2
  let s2 := dramWrite (barnBase k + 128 + 32 * i) (directoryEntry g.1 g.2.1 a.1 g.2.2) s1
  (a.1 + g.2.2.length, s2.mapFlt fun f => { f with barn := vupd f.barn k fun b =>
    { b with sections := b.sections ++ [(g.1 + g.2.1 * 2 ^ 16, a.1, g.2.2.length)] } })

/-- The capture is written into its slot. -/
def captureDone (k : Nat) (given : List (Nat × Bool × List Byte)) (complete : Bool) (ueWords : Nat) (s : State) : State :=
  let secs := captureSections s given
  let r := (secs.mapIdx fun i g => (i, g)).foldl (fun a e => writeSection k e.1 e.2 a) ((4096, s) : Nat × State)
  let s1 := updBarn k (fun b => { b with
    valid := true
    complete := complete
    ueSeen := secs.any fun g => bitOf g.2.1 1
    read := false
    length := r.1
    ueWords := ueWords }) r.2
  raise 0x1F02 [k] (s1.mapFlt fun f => { f with capturing := none })

/-- BARN_CAPTURE_DONE (R518). -/
def execBarnCaptureDone (sections : List (Nat × Bool × List Byte)) (complete : Bool) (ueWords : Nat) (s : State) :
    Host.Outcome State Fault Refusal :=
  .next (s.flt.capturing.elim s fun k => captureDone k sections complete ueWords s)

/-! ### The telemetry and test ports (R576, R577) -/

/-- TELEMETRY_WRITE (R576): every write is NACKed. -/
def execTelemetryWrite (s : State) : Host.Outcome State Fault Refusal := .next (s.emit .nack)

/-- IDCODE. -/
def idcode : Nat := 1 * 2 ^ 28 + 0x6416 * 2 ^ 12 + Config.jtagManufacturer % 2 ^ 11 * 2 + 1

/-- JTAG_INSTRUCTION (R577): a public instruction is in force, any other selects BYPASS. -/
def execJtagInstruction (ir : JtagIr) (s : State) : Host.Outcome State Fault Refusal :=
  let eff := if ir = .other then .bypass else ir
  let s1 := s.mapMgt fun g => { g with jtag := eff }
  .next (match eff with
    | .idcode => s1.emit (.jtag idcode)
    | .samplePreload | .extest => (s1.takeFree.2).emit (.jtag s1.takeFree.1)
    | _ => s1.emit (.jtag 0))

end Sys2Proof.Machine
end

