-- ==== Sys2Proof/Machine/OptRows.lean ====
section
/-! DEFINITION. The commands of the optical lanes and of line time transfer (R362 to R388, R467 to R470, R495, R505). -/

namespace Sys2Proof.Machine

open Sys2Proof

/-! ### Sending a time-transfer message (R365, R467, R468) -/

/-- SNR that a rate mode and code require, in 0.01 dB (R362, R363). -/
def requiredSnr (rate fec : Nat) : Int :=
  if rate = 0 then (if fec = 1 then 2140 else 1760) else if rate = 1 then 1390 else 1020

/-- Change the time transfer of a port. -/
def updPortTime (p : Nat) (f : PortTime → PortTime) (s : State) : State := s.mapTime fun t => { t with ports := vupd t.ports p f }

/-- The time transfer of a port. -/
def portTimeOf (s : State) (p : Nat) : PortTime := vget s.time.ports p PortTime.fresh

/-- A stamp in 2^−16 ns as V and FRAC (R454, R467). -/
def stamp80 (n : Nat) : List Byte := beBytes 10 (n % 2 ^ 80)

/-- The lane report's entry for a receive lane, all ones where it receives nothing from the port (R365). The far lane is the one
last heard from the port on the lane's receiver; the launch power is a number of the far gateway's that no overhead field
carries. -/
def reportEntry (s : State) (port k launch : Nat) : List Byte :=
  let l := laneOf s k
  match (physOf s l.phys).contexts.find? (fun c => c.1 == port) with
  | some c =>
    if l.snrCount = 0 then List.replicate 8 255
    else
      let snr := l.snrSum / l.snrCount
      beBytes 2 snr ++ beBytes 2 (twosComp 16 ((snr : Int) - requiredSnr l.rxRate l.fec)) ++
        beBytes 2 (min 4095 l.uncorr + c.2.1 * 2 ^ 12) ++ beBytes 2 launch
  | none => List.replicate 8 255

/-- The body of a time-transfer message (R467). -/
def timeBody (s : State) (port stamp launch : Nat) : List Byte :=
  let t := s.time
  let x := portTimeOf s port
  let peer := match x.peerRef with
    | some r => beBytes 4 r.frame ++ stamp80 r.stamp
    | none => beBytes 4 0xFFFFFFFF ++ stamp80 0
  [1, byte (b2n t.valid + 2 * b2n (t.servo == 2))] ++ beBytes 2 t.steps ++ beBytes 4 s.tick ++ stamp80 stamp ++ [0, 0] ++
    peer ++ List.replicate 6 0 ++ ((List.range 5).map fun k => reportEntry s port k launch).flatten

/-- Send the message of a reference frame: its send stamp is kept for 64 reference frames, and the report period of the lanes begins
anew. -/
def timeSend (port : Nat) (s : State) : State :=
  if s.tick % 2 ^ 32 % 1000 ≠ 0 then s
  else
    match portAnchor s port with
    | none => s
    | some a =>
      let guard := (laneOf s a).page.any fun p => slotGuard (pageSlot p 0)
      let stamp := s.time.counter / 2 ^ 32 + (if guard then 16 * 65536 else 0)
      let (v, s1) := s.takeFree
      let s2 := sendCtl port 0x40 [] (timeBody s port stamp (v % 2 ^ 16)) s1
      let s3 := updPortTime port (fun x =>
        let now := s.tick % 2 ^ 32
        let kept := mfilter x.tx fun f _ => decide ((now + 2 ^ 32 - f) % 2 ^ 32 < 64000)
        { x with tx := mset kept now (stamp, s.time.steps) }) s2
      (List.range 5).foldl (fun b k =>
        if (lanePorts (laneOf b k)).contains port then updLane k (fun l => { l with snrSum := 0, snrCount := 0, uncorr := 0 }) b
        else b) s3

/-- TIME_TRANSFER_SEND (R467). -/
def execTimeTransferSend (port : Nat) (s : State) : Host.Outcome State Fault Refusal := .next (timeSend port s)

/-! ### Samples (R469, R470, R495) -/

/-- A part of a time-transfer body. -/
def ttStamp (b : List Byte) (off : Nat) : Int := (beAt b off 10 : Nat)

/-- The receive stamp of a frame, where it is still kept. -/
def rxStampOf (x : PortTime) (frame : Nat) : Option RxStamp := (x.rx ++ x.peerRef.toList).find? fun r => r.frame == frame

/-- Time disagreement of a port (R495). -/
def noteDisagree (port : Nat) (theta : Int) (s : State) : State :=
  let bound : Int := (fld s 0x00094080 0 16 * 1000 * 65536 : Nat)
  let x := partnerOf s port
  if bound < theta ∨ theta < -bound then
    let s1 := updPartner port (fun y => { y with overCount := y.overCount + 1, withinCount := 0 }) s
    if x.overCount + 1 < 8 ∨ x.disagree then s1
    else raise 0x4E02 [port] (updPartner port (fun y => { y with disagree := true }) s1)
  else updPartner port (fun y => { y with
    overCount := 0, withinCount := y.withinCount + 1, disagree := y.disagree && decide (y.withinCount + 1 < 8) }) s

/-- A sample of a port: offset and round trip are shown; while the partner's time is valid the time source's goes to the servo and
another port's is compared. -/
def portSample (port : Nat) (valid : Bool) (t1 t2 t3 t4 : Int) (s : State) : State :=
  let asym : Int := signExt 32 (regVal s (0x00020100 + port * 0x10)) * 2 ^ 16 / 1000
  let theta := ((t4 - t3) - (t2 - t1) + asym) / 2
  let trip := (t4 - t1) - (t3 - t2)
  let rtt := ceilDiv trip.toNat (2000 * 65536) + 4
  let s1 := updLPort port (fun x => { x with rtt := rtt }) (updPortTime port (fun x => { x with theta := theta }) s)
  if ¬ valid then s1
  else if timeSource s = port + 2 then servoSample theta s1
  else if s.time.valid && (partnerOf s port).paired then noteDisagree port theta s1
  else s1

/-- δ of a port from its reference frame's receipt: the mean over the last 8 spans (R469). -/
def portSpan (port : Nat) (r : RxStamp) (s : State) : State :=
  let x := portTimeOf s port
  let spans := match x.spanFrom with
    | some (f, at_) =>
      let k := (r.frame + 2 ^ 32 - f) % 2 ^ 32 / 1000
      if k = 0 then x.spans
      else
        let partner : Int := (80000 * 1000 * k : Nat)
        ((((r.local_ - at_ : Nat) : Int) - partner) * 2 ^ 40 / partner :: x.spans).take 8
    | none => x.spans
  updLPort port (fun y => { y with delta := meanOf spans })
    (updPortTime port (fun y => { y with spanFrom := some (r.frame, r.local_), spans := spans }) s)

/-- The time part of a message: a sample is discarded across a step of either counter. -/
def timePart (port : Nat) (b : List Byte) (s0 : State) : State :=
  let s := notePath port s0
  let x := portTimeOf s port
  let steps := beAt b 2 2
  let valid := bitOf (byteAt b 1) 0
  let s1 := updPortTime port (fun y => { y with peerStep := some steps }) s
  match rxStampOf x (beAt b 4 4) with
  | none => s1
  | some r =>
    let s2 := portSpan port r s1
    match mget x.tx (beAt b 20 4) with
    | none => s2
    | some own =>
      if (x.peerStep.any fun n => n != steps) ∨ own.2 ≠ r.steps then s2
      else portSample port valid (own.1 : Nat) (ttStamp b 24) (ttStamp b 8) (r.stamp : Nat) s2

/-! ### Rate adaptation (R366 to R368, R388) -/

/-- The columns of one slot at another rate: guard columns, the control columns, and each exchange tributary's columns scaled to
the room of the new rate. -/
def scaleSlot (old new : Nat) (w : Nat) (cols : List Nat) : List Nat :=
  let g := if slotGuard w then rateGuard old else 0
  let g' := if slotGuard w then rateGuard new else 0
  let ctl := cols.filter fun c => colUse c == 2
  let exch := cols.filter fun c => colUse c == 1
  let room := rateCols old - g - ctl.length
  let room' := rateCols new - g' - ctl.length
  let names := exch.foldl (fun a c => if a.contains c then a else a ++ [c]) []
  let scaled := (names.map fun n => List.replicate ((exch.filter (· == n)).length * room' / max 1 room) n).flatten
  let l := List.replicate g' 0 ++ ctl ++ scaled.take room'
  l ++ List.replicate (64 - l.length) 0

/-- A main page at another rate (R367). -/
def ratePage (new : Nat) (p : List Byte) : List Byte :=
  let old := pageRate p
  let body := ((List.range 8).map fun k =>
    ((scaleSlot old new (pageSlot p k) ((List.range 64).map fun c => pageCol p k c)).take 64).map (beBytes 2)).flatten.flatten
  overwrite (overwrite p 0 (beBytes 4 (putBits (beAt p 0 4) 15 2 new))) 48 body

/-- Commits of pages that wait. -/
def dropPageCommits (s : State) : State :=
  s.mapColl fun c => { c with commits := c.commits.filter fun k => !k.items.all fun i => match i with
    | .page _ => true
    | _ => false }

/-- A downshift while a swap runs: the swap's pending set is withdrawn and offered again at the new rate (R388). -/
def rateInSwap (w : Swap) (lane new : Nat) (s : State) : State :=
  let s1 := dropPageCommits s
  if lane ≠ w.lane then
    match (laneOf s lane).standby.or (laneOf s lane).active with
    | some p => stageSet s.line.autoCommit [(lane, ratePage new p)] s1
    | none => s1
  else
    let w' := { w with page := ratePage new w.page }
    if w.step = 3 ∨ w.step = 4 then offerTraining w' s1
    else if w.step = 5 then offerSwap w' s1
    else
      stageSet 1 [(lane, w'.page)] (s1.mapOpt fun o => { o with swap := some w' })

/-- Firmware stages a lane's chosen rate. While another set waits the choice is made again at a later report; in a swap a
downshift goes through the swap's set. A lane that leaves the top rate leaves the campus code. -/
def stageRate (lane new : Nat) (s : State) : State :=
  let l := laneOf s lane
  let s1 := if new ≠ 0 ∧ l.fec = 1 then s.mapOpt fun o => { o with fecNext := mset o.fecNext lane 0 } else s
  match s.opt.swap, l.active with
  | some w, some _ =>
    if l.rate < new ∧ (s.line.autoCommit = 0 ∨ s.line.autoCommit = 3 ∨ s.line.autoCommit = 4) then rateInSwap w lane new s1 else s
  | none, some p =>
    if s.line.lanes.toList.any fun x => x.standby.isSome then s else stageSet 1 [(lane, ratePage new p)] s1
  | _, none => s

/-- The highest lower mode with a projected margin of DOWN + 1.0 dB, or low. -/
def lowerMode (rate : Nat) (snr down : Int) : Nat :=
  ((List.range 3).find? fun r => decide (rate < r ∧ down + 100 ≤ snr - requiredSnr r 0)).getD 2

/-- Reach of a rate mode in ns of one-way delay: km × 4.9 µs (R362, R366). -/
def reachNs (rate : Nat) : Nat := (if rate = 0 then 600 else if rate = 1 then 1500 else 3000) * 4900

/-- Rate adaptation of a transmit lane at a lane report. -/
def adaptRate (port lane : Nat) (s : State) : State :=
  let l := laneOf s lane
  let x := physOf s l.phys
  let up : Int := (fld s 0x000CA00C 0 8 * 10 : Nat)
  let down : Int := (fld s 0x000CA00C 8 8 * 10 : Nat)
  let hold := fld1 s 0x000CA00C 16 8
  let reports := max 500 (regVal s 0x000CA010)
  let snr : Int := (x.snr : Nat)
  let low := decide (x.margin < down)
  let higher := fun (r : Nat) => decide (up ≤ snr - requiredSnr r l.fec)
  let run := fun (r : Nat) (n : Nat) => if r < l.rate ∧ higher r then n + 1 else 0
  let y : PhysLane := { x with
    downRun := if low then x.downRun + 1 else 0, upMiddle := run 1 x.upMiddle, upTop := run 0 x.upTop }
  let s1 := updPhys l.phys (fun _ => y) s
  let near := fun (r : Nat) => decide ((rttP s port - 4) * 1000 ≤ reachNs r)
  let floorDue := low && l.rate == 2 && !(x.floorTick.any fun t => decide (s.tick < t + 500000))
  let s2 := if floorDue then raise 0x4904 [lane] (updPhys l.phys (fun z => { z with floorTick := some s.tick }) s1) else s1
  if ¬ bit s 0x000CA004 1 ∨ 3 ≤ l.rate then s2
  else if hold ≤ y.downRun ∧ l.rate < 2 then stageRate lane (lowerMode l.rate snr down) s2
  else if reports ≤ y.upTop ∧ near 0 then stageRate lane 0 s2
  else if reports ≤ y.upMiddle ∧ near 1 then stageRate lane 1 s2
  else s2

/-- One entry of a lane report, counted for the transmit lane it names. -/
def laneEntry (port : Nat) (e : List Byte) (s : State) : State :=
  let lane := beAt e 4 2 / 2 ^ 12
  if e = List.replicate 8 255 ∨ 5 ≤ lane then s
  else
    let l := laneOf s lane
    let n := l.phys
    let x := physOf s n
    let m := signExt 16 (beAt e 2 2)
    let s1 := updPhys n (fun y => { y with
      snr := beAt e 0 2, margin := m, reported := true, marginSum := y.marginSum + m, marginCount := y.marginCount + 1 }) s
    let s2 := match s1.opt.swap with
      | some w =>
        if w.step = 4 ∧ w.spare = n then s1.mapOpt fun o => { o with swap := some { w with sum := w.sum + m, count := w.count + 1 } }
        else s1
      | none => s1
    let s3 := if x.reported ∧ m + 300 ≤ x.margin then locateLoss n s2 else s2
    if l.txUp ∧ ¬ l.spare then adaptRate port lane s3 else s3

/-- A time-transfer message. -/
def timeRx (port : Nat) (b : List Byte) (s : State) : State :=
  if b.length ≠ 80 ∨ byteAt b 0 ≠ 1 then s
  else (List.range 5).foldl (fun a k => laneEntry port (slice b (40 + 8 * k) 8) a) (timePart port b s)

/-- TIME_TRANSFER_RX (R469). -/
def execTimeTransferRx (port : Nat) (body : List Byte) (s : State) : Host.Outcome State Fault Refusal :=
  .next (if port < 4 then policed port (timeRx port body) s else s)

/-! ### Lane loss and monitors (R374 to R379, R384) -/

/-- LOOP_FAIL (R375): a loop of a physical lane has been out of its lock condition for longer than its limit. -/
def execLoopFail (lane : Nat) (s : State) : Host.Outcome State Fault Refusal :=
  .next (if lane < 5 then declareTx lane s else s)

/-- LOSS_OF_SIGNAL (R376). -/
def execLossOfSignal (lane : Nat) (s : State) : Host.Outcome State Fault Refusal :=
  .next (if lane < 5 then declareRx lane true s else s)

/-- SIGNAL_RETURN (R376). -/
def execSignalReturn (lane : Nat) (s : State) : Host.Outcome State Fault Refusal :=
  .next (updPhys lane (fun x => { x with rxLos := false }) s)

/-- What a stage should read from the one before it, in 0.25 dBm (R377). -/
def stageNominal (x : PhysLane) (st : Nat) : Int := stageFloor x st + 12

/-- Does the monitor of a stage disagree by more than 6 dB with both of its neighbours? Stages 2 and 3 have two. -/
def monitorOff (x : PhysLane) (st : Nat) : Bool :=
  let far := fun (i : Nat) => let d := x.stages.getD (i - 1) 0 - stageNominal x i; decide (24 < d ∨ d < -24)
  (st == 2 || st == 3) && far st && far (st + 1)

/-- Exclude the monitors of a lane that carries frames without errors and whose readings disagree (R379). -/
def excludeMonitors (n : Nat) (s : State) : State :=
  let l := laneOf s (logicalOf s n)
  if ¬ l.rxUp ∨ l.badSlots ≠ 0 ∨ (physOf s n).txFailed then s
  else
    (List.range 4).foldl (fun a st =>
      let x := physOf a n
      if monitorOff x st && !x.excluded.contains st then
        raise 0x4906 [n, st] (updPhys n (fun y => { y with excluded := insertRising st y.excluded }) a)
      else a) s

/-- The readings of a physical lane: stages 1 and 6 and the LO always, the other stages where the chain is read. -/
def monitorRead (n : Nat) (chain : Bool) (r : LaneReading) (s : State) : State :=
  if 5 ≤ n then s
  else
    let x := physOf s n
    let st := (List.range 6).map fun i =>
      if chain ∨ i = 0 ∨ i = 5 then clampInt (r.stages.getD i 0) (-128) 127 else x.stages.getD i 0
    let due := x.baseline.isNone && x.upTick.any fun t => decide (t + 30000000 ≤ s.tick)
    excludeMonitors n (updPhys n (fun y => { y with
      stages := st, loOut := r.loOut, voa := r.voa, measPwr := r.power, biasTx := r.biasTx % 2 ^ 12, biasLo := r.biasLo % 2 ^ 12,
      biasTxSum := y.biasTxSum + r.biasTx % 2 ^ 12, biasLoSum := y.biasLoSum + r.biasLo % 2 ^ 12, biasCount := y.biasCount + 1,
      baseline := if due && chain then some (st.getD 4 0) else y.baseline }) s)

/-- MONITOR_READ (R377). -/
def execMonitorRead (lane : Nat) (chain : Bool) (reading : LaneReading) (s : State) : Host.Outcome State Fault Refusal :=
  .next (monitorRead lane chain reading s)

/-- CONTEXT_RELEARN (R374): a context whose source has not been heard for 500,000 ticks is given up. -/
def execContextRelearn (lane port far : Nat) (s : State) : Host.Outcome State Fault Refusal :=
  .next (updPhys lane (fun x => { x with
    contexts := x.contexts.filter fun c => !(c.1 == port && c.2.1 == far && decide (c.2.2 + 500000 ≤ s.tick)) }) s)

/-- Two readings of both frequency monitors, 1 µs apart, in MHz from the channel's centre: apart by more than 15 GHz both times,
they blank the lane. -/
def frequencyRead (n : Nat) (locker1 coarse1 locker2 coarse2 : Int) (s : State) : State :=
  if 5 ≤ n then s
  else
    let apart := fun (a b : Int) => decide (15000 < a - b ∨ 15000 < b - a)
    let s1 := updPhys n (fun x => { x with lockerOfs := locker2, coarseOfs := coarse2 }) s
    if apart locker1 coarse1 && apart locker2 coarse2 then wrongWavelength n 0xFFFF s1 else s1

/-- WRONG_WAVELENGTH_LOCAL (R384). -/
def execWrongWavelengthLocal (lane : Nat) (locker1 coarse1 locker2 coarse2 : Int) (s : State) : Host.Outcome State Fault Refusal :=
  .next (frequencyRead lane locker1 coarse1 locker2 coarse2 s)

/-! ### Fade prediction (R380, R381) -/

/-- Least squares over margins by the minute, newest first: does the line reach a bound within some minutes? The line is
(a × t + b) / d with t = 0 at the newest mean. -/
def lineReaches (ys : List Int) (bound minutes : Int) : Bool :=
  let n : Int := (ys.length : Nat)
  let pts := ys.mapIdx fun i y => (-(i : Int), y)
  let sx := pts.foldl (fun a p => a + p.1) 0
  let sy := pts.foldl (fun a p => a + p.2) 0
  let sxx := pts.foldl (fun a p => a + p.1 * p.1) 0
  let sxy := pts.foldl (fun a p => a + p.1 * p.2) 0
  let d := n * sxx - sx * sx
  let slope := n * sxy - sx * sy
  let at_ := fun (t : Int) => sy * d - slope * sx + n * slope * t
  decide (at_ 0 ≤ bound * n * d) || decide (at_ minutes ≤ bound * n * d)

/-- The lanes that firmware evaluates: borne by a logical lane that transmits. -/
def fadeLanes (s : State) : List Nat :=
  (List.range 5).filter fun n => (List.range 5).any fun k =>
    (laneOf s k).phys == n && !(laneOf s k).spare && (laneOf s k).txUp && (laneOf s k).rate != 3

/-- Is a fade predicted on a physical lane? -/
def fadePredicted (s : State) (n : Nat) : Bool :=
  let x := physOf s n
  let span := 60 * fld s 0x000CA014 24 8
  let ms := x.means.take span
  let bound : Int := (fld s 0x000CA014 0 8 * 10 : Nat)
  let ahead : Int := (fld s 0x000CA014 8 8 * 60 : Nat)
  let pct : Int := (100 + fld s 0x000CA014 16 8 : Nat)
  let bias := match x.means with
    | m :: _ => decide ((x.bolTx : Int) * pct < m.1 * 100) || decide ((x.bolLo : Int) * pct < m.2.1 * 100)
    | [] => false
  bias || (decide (60 ≤ ms.length) && lineReaches (ms.map (·.2.2)) bound ahead)

/-- The mean of the minute that ends joins those of a lane (R380 step 1). -/
def closeMinute (n : Nat) (s : State) : State :=
  updPhys n (fun x =>
    let tx : Int := if x.biasCount = 0 then x.biasTx else (x.biasTxSum / x.biasCount : Nat)
    let lo : Int := if x.biasCount = 0 then x.biasLo else (x.biasLoSum / x.biasCount : Nat)
    let m : Int := if x.marginCount = 0 then x.margin else x.marginSum / (x.marginCount : Nat)
    { x with means := if x.reported then ((tx, lo, m) :: x.means).take 2880 else x.means
             marginSum := 0, marginCount := 0, biasTxSum := 0, biasLoSum := 0, biasCount := 0 }) s

/-- Evaluate every active lane: predicted fades raise their events; the lane with the lowest margin swaps, any other finds no
spare (R381, R388). A lane whose swap stopped waits for its own evaluation (R383). -/
def evaluateFades (s : State) : State :=
  let found := (fadeLanes s).filter (fadePredicted s)
  let s1 := found.foldl (fun a n => raise 0x4901 [n] a) s
  let held := fun (n : Nat) => s.opt.retryAt.isSome && logicalOf s n == s.opt.retryLane
  let ranked := sortBy (fun a b => decide ((physOf s a).margin < (physOf s b).margin)) (found.filter fun n => !held n)
  let free := (freeSpare s).isSome && s.opt.swap.isNone
  match ranked with
  | [] => s1
  | n :: rest =>
    let s2 := if free then (if bit s 0x000CA004 2 then startSwap (logicalOf s1 n) false s1 else s1) else raise 0x4905 [n] s1
    rest.foldl (fun a m => raise 0x4905 [m] a) s2

/-- FADE_EVALUATION (R380). -/
def execFadeEvaluation (s : State) : Host.Outcome State Fault Refusal :=
  .next (if s.opt.fadeTick + 30000000 ≤ s.tick then
    evaluateFades ((List.range 5).foldl (fun a n => closeMinute n a) (s.mapOpt fun o => { o with fadeTick := s.tick }))
  else s)

/-- SWAP_RETRY_EVAL (R383). -/
def execSwapRetryEval (s : State) : Host.Outcome State Fault Refusal :=
  .next (if s.opt.retryAt.any fun t => decide (t ≤ s.tick) then evaluateFades (s.mapOpt fun o => { o with retryAt := none }) else s)

/-! ### The swap's steps (R382, R383, R505) -/

/-- The spare's lasers are on CH[k] and both of its monitors agree: the training set, or the swap set at once, is offered. -/
def spareTuned (s : State) : State :=
  match s.opt.swap with
  | none => s
  | some w =>
    if 2 < w.step then s
    else
      let ch := vget s.opt.channels w.lane 0xFFFF
      let s1 := updPhys w.spare (fun x => { x with txChannel := ch, loChannel := ch, locked := true, upTick := some s.tick, baseline := none }) s
      if w.short then offerSwap w s1 else offerTraining w s1

/-- SPARE_TUNE_DONE (R382). -/
def execSpareTuneDone (s : State) : Host.Outcome State Fault Refusal := .next (spareTuned s)

/-- SPARE_TUNE_TIMEOUT (R383). -/
def execSpareTuneTimeout (s : State) : Host.Outcome State Fault Refusal :=
  .next (if s.opt.swap.any fun w => decide (w.step ≤ 2 ∧ w.tick + 5000000 ≤ s.tick) then stopSwap s else s)

/-- Training has lasted 50,000 ticks: a mean margin of 2.0 dB and of lane k's own goes on to the swap set; without it for 250,000
ticks the swap stops. -/
def trainingEnd (s : State) : State :=
  match s.opt.swap with
  | none => s
  | some w =>
    if w.step ≠ 4 ∨ s.tick < w.tick + 50000 then s
    else
      let mean := w.sum / (max 1 w.count : Nat)
      if 0 < w.count ∧ 200 ≤ mean ∧ (physOf s w.old).margin ≤ mean then offerSwap w s
      else if w.tick + 250000 ≤ s.tick then stopSwap s
      else s

/-- SPARE_TRAINING_END (R382). -/
def execSpareTrainingEnd (s : State) : Host.Outcome State Fault Refusal := .next (trainingEnd s)

/-- SWAP_GUARD_RECOMMIT (R382 step 7): the set is staged again without the guard of slot 0. -/
def execSwapGuardRecommit (s : State) : Host.Outcome State Fault Refusal :=
  .next (match s.opt.swap with
    | some w =>
      if w.step = 7 ∧ ¬ (s.line.lanes.toList.any fun l => l.standby.isSome) then stageSet 5 [(w.lane, w.page)] s else s
    | none => s)

/-- FAILED_LANE_TAKEOVER (R505). -/
def execFailedLaneTakeover (lane : Nat) (s : State) : Host.Outcome State Fault Refusal :=
  .next (if (physOf s lane).txFailed ∧ ((physOf s lane).failTick.any fun t => decide (t + 500000 ≤ s.tick)) ∧ bit s 0x000CA004 2 ∧
      logicalOf s lane < 5 then startSwap (logicalOf s lane) true s else s)

/-- LANE_RECOVERY (R505): the loops of a failed lane hold again. -/
def execLaneRecovery (lane : Nat) (s : State) : Host.Outcome State Fault Refusal :=
  .next (if (physOf s lane).retired ∨ (physOf s lane).blanked then s
    else updPhys lane (fun x => { x with txFailed := false, failTick := none, upTick := some s.tick, baseline := none }) s)

/-! ### Relocks (R386) -/

/-- A blanked laser has relocked from cold: the lane is unblanked and, with AUTO_RETURN, asks for a revert on its ports. -/
def relockDone (n : Nat) (s : State) : State :=
  if ¬ bit s 0x000CA004 3 ∨ ¬ (physOf s n).blanked ∨ (physOf s n).retired then s
  else
    let back := bit s 0x000CA004 4
    let s1 := updPhys n (fun x => { x with
      blanked := false, txFailed := false, failTick := none, locked := true, upTick := some s.tick, baseline := none
      relockFrom := if back then x.relockFrom else none }) (bump (0x000C0048 + n * 0x2000) s)
    if back then
      ((laneOf s (logicalOf s n)).active.map pagePorts).toList.flatten.foldl
        (fun a p => updLPort p (fun x => { x with revertWant := true }) a) s1
    else s1

/-- RELOCK_DONE (R386). -/
def execRelockDone (lane : Nat) (s : State) : Host.Outcome State Fault Refusal := .next (relockDone lane s)

/-- RELOCK_FAR_CHECK (R386): a far check that has not passed in time blanks the lane again. -/
def execRelockFarCheck (lane : Nat) (s : State) : Host.Outcome State Fault Refusal :=
  .next (if (physOf s lane).farBy.any fun t => decide (t ≤ s.tick) then wrongWavelength lane 0xFFFF s else s)

end Sys2Proof.Machine
end

