-- ==== Sys2Proof/Machine/Tick.lean ====
section
/-! DEFINITION. The tick edge (R196 to R209, R453, R518, R551): the whole order of R198, and the commands that are one step of
it. -/

namespace Sys2Proof.Machine

open Sys2Proof

/-- SEC, NS and fractions wrap together at 2^48 seconds (R453). -/
def counterWrap : Nat := 2 ^ 48 * 10 ^ 9 * 2 ^ 48

/-- A new tick begins: the tick count and the time counter advance. -/
def advance (s : State) : State :=
  { s with
    tick := s.tick + 1
    time := { s.time with counter := (s.time.counter + tickAdvance s.time.f) % counterWrap }
    coll := { s.coll with committedNow := 0 } }

/-- What follows a fatal event at the next edge (R518): every live instance is aborted, then lasers are blanked. -/
def fatalStop (s : State) : State :=
  if ¬ s.flt.fatal ∨ s.flt.fatalDone then s
  else
    let s1 := s.coll.insts.foldl (fun a e => fatalAbort e.2 a) s
    let s2 := { s1 with flt := { s1.flt with fatalDone := true } }
    (s2.mapLine fun l => { l with lanes := l.lanes.map fun x => { x with txUp := false } }).mapBru fun b =>
      { b with ready := false, readyNext := false, running := false, stopped := b.stopped || b.running }

/-- Pressing follows PRS_CTRL.ENABLE from the edge on, and stops for good after a fatal event (R85, R518). -/
def followEnable (s : State) : State :=
  s.mapPress fun p => { p with running := bit s 0x00200004 0 && !s.flt.fatal }

/-- Step 3 of the edge: absence decisions, fences of R493, aborts in order, and finalisation. -/
def edgeAborts (s : State) : State := finaliseAborts (applyAborts (fenceAborts (liftFences (decideAbsence s))))

/-- The EDGE message carries each die's granted budget (R76); that of a hot die drops to the floor (R80). Die-ticks below 1,920
are counted. -/
def edgeBudgets (s : State) : State :=
  let s1 := s.mapPress fun p => { p with dies := p.dies.map fun d =>
    let g := if d.hot then min d.granted (floorBudget s) else d.granted
    { d with granted := g, budget := g } }
  bumpBy 0x0020004C (s1.press.dies.toList.filter fun d => decide (d.budget < 1920)).length s1

/-- Step 7 of the edge: the pressing list, and the EDGE message with what some cluster missed (R50, R62). -/
def edgeList (s : State) : State :=
  let s1 := s.mapPress fun p => { p with reissue := [], listed := [] }
  if s.press.running then buildList s1 else s1

/-- The open-drain lands READY and FATAL, true while the device pulls them low (R581). -/
def landsLow (s : State) : Bool × Bool := (s.bru.ready, s.flt.fatal || bit s 0x00340008 1)

/-- Every 500 ticks the telemetry port's values are refreshed, whatever the firmware does (R576). -/
def telemetryRefresh (s : State) : State :=
  if s.tick % 500 ≠ 0 then s
  else
    let status := b2n (landsLow s).1 + 2 * b2n s.flt.fatal + 4 * b2n (bit s 0x00340008 1) + 8 * b2n s.mgt.recovery + 16 * b2n s.mgt.dead +
      32 * b2n s.flt.vintnerUp
    let read := Config.telemetryReading s.free
    let temps := s.press.dies.toList.map fun (d : Die) => d.maxC
    let bytes := [6, 7, 8].map fun c => read c % 2 ^ 8
    let words := fun (base : Nat) => (List.range 15).map fun r => read (base + 2 * r) % 2 ^ 16
    ({ s with free := s.free + 1 } : State).mapMgt fun g =>
      { g with telemetry := [0x64, status] ++ temps ++ bytes ++ words 0x10 ++ words 0x30 }

/-- The whole of a tick edge. -/
def tickEffect (s : State) : State :=
  let s1 := discardDraining (endInstances (applySource (advance s)))
  let s2 := countArrivals (lineRetry s1)
  let s3 := applyReverts (blendEdges (applyQosNext (applyCommits s2)))
  let s4 := fatalStop (edgeAborts s3)
  let s5 := testTimeouts (evalFences (commitLaunches s4))
  telemetryRefresh (pmSample (notePaths (encodeStage (edgeList (edgeBudgets (followEnable (bruEdge (becomeReady (applyLock s5)))))))))

/-- TICK_EDGE (R198). -/
def execTickEdge (s : State) : Host.Outcome State Fault Refusal := .next (tickEffect s)

/-- COMMIT_APPLY (R178): the staged items whose edge has come take effect together. -/
def execCommitApply (s : State) : Host.Outcome State Fault Refusal := .next (applyCommits s)

/-- INSTANCE_TIMEOUT (R200): every instance that times out at this edge is aborted. -/
def execInstanceTimeout (s : State) : Host.Outcome State Fault Refusal := .next (testTimeouts s)

end Sys2Proof.Machine
end

