-- ==== Sys2Proof/Machine/Dispatch.lean ====
section
/-! DEFINITION. The dispatch of commands: one arm per row of the opcode table. -/

namespace Sys2Proof.Machine

open Sys2Proof

/-- The effect of one command on everything but the queue. -/
def exec (i : Instr) (s : State) : Host.Outcome State Fault Refusal :=
  match i with
  | .tickEdge => Sys2Proof.Machine.execTickEdge s
  | .commitApply => Sys2Proof.Machine.execCommitApply s
  | .instanceTimeout => Sys2Proof.Machine.execInstanceTimeout s
  | .pressingStart fails => Sys2Proof.Machine.execPressingStart fails s
  | .pressingWindowEnd => Sys2Proof.Machine.execPressingWindowEnd s
  | .spotCheck die cluster die2 cluster2 outcome cores => Sys2Proof.Machine.execSpotCheck die cluster die2 cluster2 outcome cores s
  | .trellisMessage die cluster isEdge copyA copyB => Sys2Proof.Machine.execTrellisMessage die cluster isEdge copyA copyB s
  | .dieLinkFlitCrcFail die replayFails => Sys2Proof.Machine.execDieLinkFlitCrcFail die replayFails s
  | .dieLinkRetrainDone die => Sys2Proof.Machine.execDieLinkRetrainDone die s
  | .dieLinkLaneSpare die toDie => Sys2Proof.Machine.execDieLinkLaneSpare die toDie s
  | .powerCapInterval powerDw => Sys2Proof.Machine.execPowerCapInterval powerDw s
  | .capFloorEvent die => Sys2Proof.Machine.execCapFloorEvent die s
  | .tempSensorRead die readings => Sys2Proof.Machine.execTempSensorRead die readings s
  | .railDroop die => Sys2Proof.Machine.execRailDroop die s
  | .retirementApply die cluster core => Sys2Proof.Machine.execRetirementApply die cluster core s
  | .quarantineEnd die cluster core => Sys2Proof.Machine.execQuarantineEnd die cluster core s
  | .pressEnableWrite on => Sys2Proof.Machine.execPressEnableWrite on s
  | .data src udp => Sys2Proof.Machine.execData src udp s
  | .launch src udp => Sys2Proof.Machine.execLaunch src udp s
  | .memberAbort src udp => Sys2Proof.Machine.execMemberAbort src udp s
  | .memberNack src udp => Sys2Proof.Machine.execMemberNack src udp s
  | .memberAck src udp => Sys2Proof.Machine.execMemberAck src udp s
  | .hostNackRepeat stream => Sys2Proof.Machine.execHostNackRepeat stream s
  | .hostAckInterval stream => Sys2Proof.Machine.execHostAckInterval stream s
  | .resultHoldExpire stream seq => Sys2Proof.Machine.execResultHoldExpire stream seq s
  | .pfcFrameRx enabled quanta => Sys2Proof.Machine.execPfcFrameRx enabled quanta s
  | .pfcPauseExpire prio => Sys2Proof.Machine.execPfcPauseExpire prio s
  | .pfcWatchdog prio => Sys2Proof.Machine.execPfcWatchdog prio s
  | .pfcRefresh => Sys2Proof.Machine.execPfcRefresh s
  | .pfcDisableWrite => Sys2Proof.Machine.execPfcDisableWrite s
  | .arpRequest target sender => Sys2Proof.Machine.execArpRequest target sender s
  | .neighbourSolicitation target sender => Sys2Proof.Machine.execNeighbourSolicitation target sender s
  | .icmpEcho src dst payload => Sys2Proof.Machine.execIcmpEcho src dst payload s
  | .otherFrameDiscard cause corrected => Sys2Proof.Machine.execOtherFrameDiscard cause corrected s
  | .hostAlignmentLoss => Sys2Proof.Machine.execHostAlignmentLoss s
  | .hostLinkDown => Sys2Proof.Machine.execHostLinkDown s
  | .hostLinkUp => Sys2Proof.Machine.execHostLinkUp s
  | .ptpAnnounce domain transport m => Sys2Proof.Machine.execPtpAnnounce domain transport m s
  | .announceReceiptTimeout => Sys2Proof.Machine.execAnnounceReceiptTimeout s
  | .ptpSync domain transport identity port seq twoStep t1 corr off => Sys2Proof.Machine.execPtpSync domain transport identity port seq twoStep t1 corr off s
  | .ptpFollowUp domain transport identity port seq t1 corr => Sys2Proof.Machine.execPtpFollowUp domain transport identity port seq t1 corr s
  | .delayReqSend => Sys2Proof.Machine.execDelayReqSend s
  | .ptpDelayResp domain transport identity port seq t4 corr => Sys2Proof.Machine.execPtpDelayResp domain transport identity port seq t4 corr s
  | .hostEgressSelect off => Sys2Proof.Machine.execHostEgressSelect off s
  | .lineBlockSelect port => Sys2Proof.Machine.execLineBlockSelect port s
  | .tokenRefill sched queue => Sys2Proof.Machine.execTokenRefill sched queue s
  | .queueSample => Sys2Proof.Machine.execQueueSample s
  | .mbxHello src udp => Sys2Proof.Machine.execMbxHello src udp s
  | .helloReassemblyTimeout => Sys2Proof.Machine.execHelloReassemblyTimeout s
  | .halfOpenExpire => Sys2Proof.Machine.execHalfOpenExpire s
  | .mbxFinish src udp => Sys2Proof.Machine.execMbxFinish src udp s
  | .mbxRequest udp => Sys2Proof.Machine.execMbxRequest udp s
  | .mbxClose udp => Sys2Proof.Machine.execMbxClose udp s
  | .sessionIdleTimeout sid => Sys2Proof.Machine.execSessionIdleTimeout sid s
  | .mbxBulk udp => Sys2Proof.Machine.execMbxBulk udp s
  | .bulkResend sid => Sys2Proof.Machine.execBulkResend sid s
  | .mbxTwin udp => Sys2Proof.Machine.execMbxTwin udp s
  | .twinUnmatchedExpiry => Sys2Proof.Machine.execTwinUnmatchedExpiry s
  | .sysIdentity mbx => Sys2Proof.Machine.execSysIdentity mbx s
  | .sysNetSet mbx ipv4 ipv6 => Sys2Proof.Machine.execSysNetSet mbx ipv4 ipv6 s
  | .sysCommit mbx byTime at_ items => Sys2Proof.Machine.execSysCommit mbx byTime at_ items s
  | .sysWithdraw mbx id => Sys2Proof.Machine.execSysWithdraw mbx id s
  | .sysEventSubscribe mbx seq cls => Sys2Proof.Machine.execSysEventSubscribe mbx seq cls s
  | .sysReset mbx => Sys2Proof.Machine.execSysReset mbx s
  | .sysReadyReasons mbx => Sys2Proof.Machine.execSysReadyReasons mbx s
  | .sysManifestInstall mbx region off len => Sys2Proof.Machine.execSysManifestInstall mbx region off len s
  | .sysManifestRead mbx region off => Sys2Proof.Machine.execSysManifestRead mbx region off s
  | .sysShadowJoin mbx peer src => Sys2Proof.Machine.execSysShadowJoin mbx peer src s
  | .sysShadowAccept mbx peer src => Sys2Proof.Machine.execSysShadowAccept mbx peer src s
  | .sysShadowPromote mbx at_ peerOk => Sys2Proof.Machine.execSysShadowPromote mbx at_ peerOk s
  | .sysLock mbx => Sys2Proof.Machine.execSysLock mbx s
  | .systemLockApply => Sys2Proof.Machine.execSystemLockApply s
  | .grpStage mbx entry members => Sys2Proof.Machine.execGrpStage mbx entry members s
  | .grpRead mbx group => Sys2Proof.Machine.execGrpRead mbx group s
  | .grpStreamOpen mbx stream endpoint v6 port addr inInit outInit => Sys2Proof.Machine.execGrpStreamOpen mbx stream endpoint v6 port addr inInit outInit s
  | .grpStreamClose mbx stream => Sys2Proof.Machine.execGrpStreamClose mbx stream s
  | .opStat mbx group inst => Sys2Proof.Machine.execOpStat mbx group inst s
  | .opList mbx first => Sys2Proof.Machine.execOpList mbx first s
  | .opAbort mbx group inst => Sys2Proof.Machine.execOpAbort mbx group inst s
  | .progLoad mbx id region off len => Sys2Proof.Machine.execProgLoad mbx id region off len s
  | .progUnload mbx id => Sys2Proof.Machine.execProgUnload mbx id s
  | .progList mbx => Sys2Proof.Machine.execProgList mbx s
  | .celRegionCreate mbx size => Sys2Proof.Machine.execCelRegionCreate mbx size s
  | .celRegionFree mbx handle => Sys2Proof.Machine.execCelRegionFree mbx handle s
  | .celRegionRead mbx handle off len => Sys2Proof.Machine.execCelRegionRead mbx handle off len s
  | .celRegionWrite mbx handle off data => Sys2Proof.Machine.execCelRegionWrite mbx handle off data s
  | .celRegionBulk mbx handle off len sending => Sys2Proof.Machine.execCelRegionBulk mbx handle off len sending s
  | .memInfo mbx => Sys2Proof.Machine.execMemInfo mbx s
  | .lneTrib mbx trib port queue window => Sys2Proof.Machine.execLneTrib mbx trib port queue window s
  | .lnePageStage mbx lane page => Sys2Proof.Machine.execLnePageStage mbx lane page s
  | .lnePmRead mbx scope kind back => Sys2Proof.Machine.execLnePmRead mbx scope kind back s
  | .lnePmThresh mbx scope counter kind value => Sys2Proof.Machine.execLnePmThresh mbx scope counter kind value s
  | .lneXh mbx lane map => Sys2Proof.Machine.execLneXh mbx lane map s
  | .optLaneFec mbx lane fec => Sys2Proof.Machine.execOptLaneFec mbx lane fec s
  | .optLaneChannel mbx lane channel => Sys2Proof.Machine.execOptLaneChannel mbx lane channel s
  | .secAnchorInstall mbx cert => Sys2Proof.Machine.execSecAnchorInstall mbx cert s
  | .secAnchorReplace mbx region off len => Sys2Proof.Machine.execSecAnchorReplace mbx region off len s
  | .secEnrolRequest mbx => Sys2Proof.Machine.execSecEnrolRequest mbx s
  | .secEnrolInstall mbx region off len => Sys2Proof.Machine.execSecEnrolInstall mbx region off len s
  | .secAttest mbx nonce region off => Sys2Proof.Machine.execSecAttest mbx nonce region off s
  | .secPairRestart mbx port => Sys2Proof.Machine.execSecPairRestart mbx port s
  | .secUtilGcmSeal mbx key nonce inp aad outH outOff fault => Sys2Proof.Machine.execSecUtilGcmSeal mbx key nonce inp aad outH outOff fault s
  | .secUtilGcmOpen mbx key nonce tag inp aad outH outOff fault => Sys2Proof.Machine.execSecUtilGcmOpen mbx key nonce tag inp aad outH outOff fault s
  | .secUtilCtr mbx key counter inp outH outOff fault => Sys2Proof.Machine.execSecUtilCtr mbx key counter inp outH outOff fault s
  | .secUtilShake mbx inp outH outOff outLen fault => Sys2Proof.Machine.execSecUtilShake mbx inp outH outOff outLen fault s
  | .timStep mbx toSource value => Sys2Proof.Machine.execTimStep mbx toSource value s
  | .timeStepApply => Sys2Proof.Machine.execTimeStepApply s
  | .qosGroupMap mbx sched group queue => Sys2Proof.Machine.execQosGroupMap mbx sched group queue s
  | .qosStage mbx sched what queue value => Sys2Proof.Machine.execQosStage mbx sched what queue value s
  | .qosHistRead mbx sched queue => Sys2Proof.Machine.execQosHistRead mbx sched queue s
  | .fltEventStat mbx codes => Sys2Proof.Machine.execFltEventStat mbx codes s
  | .fltLedgerRead mbx stream first n => Sys2Proof.Machine.execFltLedgerRead mbx stream first n s
  | .fltBarnList mbx => Sys2Proof.Machine.execFltBarnList mbx s
  | .fltBarnRead mbx slot off len => Sys2Proof.Machine.execFltBarnRead mbx slot off len s
  | .fltBarnBulk mbx slot off len => Sys2Proof.Machine.execFltBarnBulk mbx slot off len s
  | .fltBarnRelease mbx slot => Sys2Proof.Machine.execFltBarnRelease mbx slot s
  | .fwInfo mbx => Sys2Proof.Machine.execFwInfo mbx s
  | .fwWrite mbx slot off data => Sys2Proof.Machine.execFwWrite mbx slot off data s
  | .fwBulk mbx slot off len => Sys2Proof.Machine.execFwBulk mbx slot off len s
  | .fwVerify mbx slot => Sys2Proof.Machine.execFwVerify mbx slot s
  | .fwActivate mbx => Sys2Proof.Machine.execFwActivate mbx s
  | .fwOwnerLock mbx => Sys2Proof.Machine.execFwOwnerLock mbx s
  | .fwOwnerUnlock mbx => Sys2Proof.Machine.execFwOwnerUnlock mbx s
  | .cmpBlendInstall mbx ctx cls table => Sys2Proof.Machine.execCmpBlendInstall mbx ctx cls table s
  | .cmpBlendStage mbx ctx cls table => Sys2Proof.Machine.execCmpBlendStage mbx ctx cls table s
  | .cmpBlendRetire mbx ctx cls => Sys2Proof.Machine.execCmpBlendRetire mbx ctx cls s
  | .cmpBlendRead mbx ctx cls which => Sys2Proof.Machine.execCmpBlendRead mbx ctx cls which s
  | .cmpResync mbx line n cls => Sys2Proof.Machine.execCmpResync mbx line n cls s
  | .clkSelect mbx source => Sys2Proof.Machine.execClkSelect mbx source s
  | .regRead mbx addrs => Sys2Proof.Machine.execRegRead mbx addrs s
  | .regWrite mbx writes => Sys2Proof.Machine.execRegWrite mbx writes s
  | .registerWrite addr value mask hw owner => Sys2Proof.Machine.execRegisterWrite addr value mask hw owner s
  | .rcCounterRead addr coincide => Sys2Proof.Machine.execRcCounterRead addr coincide s
  | .latchingRead addr => Sys2Proof.Machine.execLatchingRead addr s
  | .sourceSelectWrite value => Sys2Proof.Machine.execSourceSelectWrite value s
  | .pageRevert port => Sys2Proof.Machine.execPageRevert port s
  | .pageStandbyDiscard port => Sys2Proof.Machine.execPageStandbyDiscard port s
  | .pageReoffer port => Sys2Proof.Machine.execPageReoffer port s
  | .qosApply => Sys2Proof.Machine.execQosApply s
  | .readinessRecheck => Sys2Proof.Machine.execReadinessRecheck s
  | .pairWaitEndWrite => Sys2Proof.Machine.execPairWaitEndWrite s
  | .stepCommand value => Sys2Proof.Machine.execStepCommand value s
  | .uceClaim claims => Sys2Proof.Machine.execUceClaim claims s
  | .uceRelease src gen => Sys2Proof.Machine.execUceRelease src gen s
  | .uceLockTimeout => Sys2Proof.Machine.execUceLockTimeout s
  | .timeSourceWrite value => Sys2Proof.Machine.execTimeSourceWrite value s
  | .pulseModeWrite k value => Sys2Proof.Machine.execPulseModeWrite k value s
  | .caskRequest n dramOnly corrupt => Sys2Proof.Machine.execCaskRequest n dramOnly corrupt s
  | .caskFree ptr requester => Sys2Proof.Machine.execCaskFree ptr requester s
  | .caskAccess ptr off len data requester flips use => Sys2Proof.Machine.execCaskAccess ptr off len data requester flips use s
  | .dramRead addr landed flips use => Sys2Proof.Machine.execDramRead addr landed flips use s
  | .gleanGroup addr flips row => Sys2Proof.Machine.execGleanGroup addr flips row s
  | .gleanPeriodElapsed => Sys2Proof.Machine.execGleanPeriodElapsed s
  | .gleanPassEnd => Sys2Proof.Machine.execGleanPassEnd s
  | .wck2dqOscillator drifted => Sys2Proof.Machine.execWck2dqOscillator drifted s
  | .channelRetrainDone channel ok => Sys2Proof.Machine.execChannelRetrainDone channel ok s
  | .mr4Read readings => Sys2Proof.Machine.execMr4Read readings s
  | .blendPolicyWindow => Sys2Proof.Machine.execBlendPolicyWindow s
  | .blendHandshakeTimeout => Sys2Proof.Machine.execBlendHandshakeTimeout s
  | .resyncTimeout => Sys2Proof.Machine.execResyncTimeout s
  | .blendOfferRx port resync table => Sys2Proof.Machine.execBlendOfferRx port resync table s
  | .blendAcceptRx port cls id digest => Sys2Proof.Machine.execBlendAcceptRx port cls id digest s
  | .blendRejectRx port cls id digest reason => Sys2Proof.Machine.execBlendRejectRx port cls id digest reason s
  | .blendSwitchRx port cls id seqs => Sys2Proof.Machine.execBlendSwitchRx port cls id seqs s
  | .blendRetireAckRx port cls id => Sys2Proof.Machine.execBlendRetireAckRx port cls id s
  | .blendResyncRx port cls => Sys2Proof.Machine.execBlendResyncRx port cls s
  | .frameStart => Sys2Proof.Machine.execFrameStart s
  | .timeTransferSend port => Sys2Proof.Machine.execTimeTransferSend port s
  | .controlKeepalive port => Sys2Proof.Machine.execControlKeepalive port s
  | .aliveRx port => Sys2Proof.Machine.execAliveRx port s
  | .slotRx port lane off acq fecBits fecBad snr oh cols => Sys2Proof.Machine.execSlotRx port lane off acq fecBits fecBad snr oh cols s
  | .elasticStoreSlip lane => Sys2Proof.Machine.execElasticStoreSlip lane s
  | .xhSheafRx port lane slot cols => Sys2Proof.Machine.execXhSheafRx port lane slot cols s
  | .xhSheafDown sheaf => Sys2Proof.Machine.execXhSheafDown sheaf s
  | .lineBlockRx port block => Sys2Proof.Machine.execLineBlockRx port block s
  | .lineAckIdle trib => Sys2Proof.Machine.execLineAckIdle trib s
  | .lineNackRepeat trib => Sys2Proof.Machine.execLineNackRepeat trib s
  | .lineResendTimer trib => Sys2Proof.Machine.execLineResendTimer trib s
  | .lineAckRx port trib ackSeq relSeq window => Sys2Proof.Machine.execLineAckRx port trib ackSeq relSeq window s
  | .lineNackRx port trib ranges => Sys2Proof.Machine.execLineNackRx port trib ranges s
  | .pageOfferRx port body => Sys2Proof.Machine.execPageOfferRx port body s
  | .pageReadyRx port body => Sys2Proof.Machine.execPageReadyRx port body s
  | .pageRejectRx port body => Sys2Proof.Machine.execPageRejectRx port body s
  | .degradationPageCompute pages => Sys2Proof.Machine.execDegradationPageCompute pages s
  | .pageSetDiscard port => Sys2Proof.Machine.execPageSetDiscard port s
  | .laneDegrade lane => Sys2Proof.Machine.execLaneDegrade lane s
  | .doubleLossRepage pages => Sys2Proof.Machine.execDoubleLossRepage pages s
  | .rdiClear lane => Sys2Proof.Machine.execRdiClear lane s
  | .pmSecond => Sys2Proof.Machine.execPmSecond s
  | .pmBinRollover kind => Sys2Proof.Machine.execPmBinRollover kind s
  | .timeTransferRx port body => Sys2Proof.Machine.execTimeTransferRx port body s
  | .loopFail lane => Sys2Proof.Machine.execLoopFail lane s
  | .lossOfSignal lane => Sys2Proof.Machine.execLossOfSignal lane s
  | .monitorRead lane chain reading => Sys2Proof.Machine.execMonitorRead lane chain reading s
  | .contextRelearn lane port far => Sys2Proof.Machine.execContextRelearn lane port far s
  | .fadeEvaluation => Sys2Proof.Machine.execFadeEvaluation s
  | .spareTuneDone => Sys2Proof.Machine.execSpareTuneDone s
  | .spareTrainingEnd => Sys2Proof.Machine.execSpareTrainingEnd s
  | .swapRetryEval => Sys2Proof.Machine.execSwapRetryEval s
  | .swapGuardRecommit => Sys2Proof.Machine.execSwapGuardRecommit s
  | .failedLaneTakeover lane => Sys2Proof.Machine.execFailedLaneTakeover lane s
  | .wrongWavelengthLocal lane locker1 coarse1 locker2 coarse2 => Sys2Proof.Machine.execWrongWavelengthLocal lane locker1 coarse1 locker2 coarse2 s
  | .relockDone lane => Sys2Proof.Machine.execRelockDone lane s
  | .relockFarCheck lane => Sys2Proof.Machine.execRelockFarCheck lane s
  | .rackingBegin port => Sys2Proof.Machine.execRackingBegin port s
  | .rackSwitch port => Sys2Proof.Machine.execRackSwitch port s
  | .announceRx port dir count kcv => Sys2Proof.Machine.execAnnounceRx port dir count kcv s
  | .rackReadyRx port => Sys2Proof.Machine.execRackReadyRx port s
  | .vintageWindowClose port => Sys2Proof.Machine.execVintageWindowClose port s
  | .pHelloRx port body => Sys2Proof.Machine.execPHelloRx port body s
  | .pHelloRepeat port => Sys2Proof.Machine.execPHelloRepeat port s
  | .pEncapRx port body => Sys2Proof.Machine.execPEncapRx port body s
  | .pConfirmRx port body => Sys2Proof.Machine.execPConfirmRx port body s
  | .pairingTimeout port => Sys2Proof.Machine.execPairingTimeout port s
  | .pairingRetry port => Sys2Proof.Machine.execPairingRetry port s
  | .repairNoBlock port => Sys2Proof.Machine.execRepairNoBlock port s
  | .refMissingEdges ref => Sys2Proof.Machine.execRefMissingEdges ref s
  | .refWindowEnd devA devB devAB => Sys2Proof.Machine.execRefWindowEnd devA devB devAB s
  | .xtalStable => Sys2Proof.Machine.execXtalStable s
  | .xtalFail => Sys2Proof.Machine.execXtalFail s
  | .holdoverEntry => Sys2Proof.Machine.execHoldoverEntry s
  | .timeInvalid => Sys2Proof.Machine.execTimeInvalid s
  | .pulseEdge k => Sys2Proof.Machine.execPulseEdge k s
  | .digestSend port => Sys2Proof.Machine.execDigestSend port s
  | .digestRx port level scope groups => Sys2Proof.Machine.execDigestRx port level scope groups s
  | .digestListRx port entries => Sys2Proof.Machine.execDigestListRx port entries s
  | .configFence port => Sys2Proof.Machine.execConfigFence port s
  | .partnerLinkDown port => Sys2Proof.Machine.execPartnerLinkDown port s
  | .siteAbsent => Sys2Proof.Machine.execSiteAbsent s
  | .siteStateRx port groups seqs lineSeq => Sys2Proof.Machine.execSiteStateRx port groups seqs lineSeq s
  | .siteAckRx port group lineSeq => Sys2Proof.Machine.execSiteAckRx port group lineSeq s
  | .fallowLimit => Sys2Proof.Machine.execFallowLimit s
  | .launchNoticeRx port group epoch inst hash fence sites => Sys2Proof.Machine.execLaunchNoticeRx port group epoch inst hash fence sites s
  | .abortNoticeRx port group inst code site => Sys2Proof.Machine.execAbortNoticeRx port group inst code site s
  | .fenceClearRx port group inst => Sys2Proof.Machine.execFenceClearRx port group inst s
  | .promoteRx port device at_ => Sys2Proof.Machine.execPromoteRx port device at_ s
  | .promotionAtT => Sys2Proof.Machine.execPromotionAtT s
  | .vintnerPairMismatch => Sys2Proof.Machine.execVintnerPairMismatch s
  | .vintnerWatchdog => Sys2Proof.Machine.execVintnerWatchdog s
  | .vintnerRestartDone => Sys2Proof.Machine.execVintnerRestartDone s
  | .vintnerHeartbeatLoss => Sys2Proof.Machine.execVintnerHeartbeatLoss s
  | .barnCaptureDone sections complete ueWords => Sys2Proof.Machine.execBarnCaptureDone sections complete ueWords s
  | .railFault rail => Sys2Proof.Machine.execRailFault rail s
  | .powerLoss queued => Sys2Proof.Machine.execPowerLoss queued s
  | .ledgerSeal stream => Sys2Proof.Machine.execLedgerSeal stream s
  | .coldStart powerHeld => Sys2Proof.Machine.execColdStart powerHeld s
  | .warmStart => Sys2Proof.Machine.execWarmStart s
  | .bringupStepDone report => Sys2Proof.Machine.execBringupStepDone report s
  | .pressWave wave railsOk => Sys2Proof.Machine.execPressWave wave railsOk s
  | .pairWaitExpire => Sys2Proof.Machine.execPairWaitExpire s
  | .telemetryWrite => Sys2Proof.Machine.execTelemetryWrite s
  | .jtagInstruction ir => Sys2Proof.Machine.execJtagInstruction ir s
  | .mbxHelloReply src udp => Sys2Proof.Machine.execMbxHelloReply src udp s
  | .pfcWatchdogIgnoreEnd prio => Sys2Proof.Machine.execPfcWatchdogIgnoreEnd prio s
  | .spareTuneTimeout => Sys2Proof.Machine.execSpareTuneTimeout s
  | .vintnerSelfTestDone pass => Sys2Proof.Machine.execVintnerSelfTestDone pass s
  | .laneRecovery lane => Sys2Proof.Machine.execLaneRecovery lane s
  | .signalReturn lane => Sys2Proof.Machine.execSignalReturn lane s
  | .servoEnWrite on => Sys2Proof.Machine.execServoEnWrite on s
  | .ledgerDropSummary => Sys2Proof.Machine.execLedgerDropSummary s

end Sys2Proof.Machine
end

