-- ==== Sys2Proof/Safety.lean ====
section
/-! DEFINITION. The terms in which the statements speak: running a command, events seen, the invariant of memory. -/

namespace Sys2Proof.Machine

open Sys2Proof

/-- The command answers a next state, and that state has the property. -/
def Runs (c : Instr) (s : State) (P : State → Prop) : Prop := ∃ t, exec c s = .next t ∧ P t

/-- How often an event of a code has been raised (R516). -/
def seen (s : State) (code : Nat) : Nat := mgetD s.flt.counts code 0

/-- What waits in a queue of a scheduler, oldest first, with the ticks of entry. -/
def queueItems (s : State) (sched queue : Nat) : List (Nat × EItem) :=
  match s.qos[sched]? with
  | none => []
  | some c => match c.queues[queue]? with
    | none => []
    | some e => e.items

/-- A request for this command stands at the head of the mailboxes, its session is open, and nothing forbids it (R410, R518, R561,
R564). -/
def Called (s : State) (m code : Nat) (ses : Session) : Prop :=
  m < 8 ∧ runsNow s m code = true ∧ mget s.host.sessions (mbxOf s m).session = some ses ∧ stateForbids s code = none ∧
    (ownerOnly code = true → ses.role = 1)

/-- The mailbox holds this response to the request it had, and is free (R559). -/
def Answered (s t : State) (m status detail : Nat) (data : List Byte) : Prop :=
  (mbxOf t m).resp = some (responseBytes (mbxOf s m).code status (mbxOf s m).token s.tick detail data) ∧
    (mbxOf t m).waiting = false ∧ m ∉ t.mgt.order

/-- An exchange frame that passes the checks of R294 in a READY device without a fatal error, on a stream whose peer it comes
from. -/
def Accepts (s : State) (src : Source) (udp : List Byte) (c : StreamCtx) : Prop :=
  rxOn s = true ∧ s.bru.ready = true ∧ s.flt.fatal = false ∧ hdrLenOk udp = true ∧ hdrFormOk udp (Pkt.ofBytes udp) = true ∧
    mget s.host.streams (Pkt.ofBytes udp).stream = some c ∧ c.v6 = src.v6 ∧ c.peerAddr = src.addr ∧ c.peerPort = src.port

/-- A PTP message of the domain and a transport that are on, while PTP is (R464). -/
def PtpTaken (s : State) (domain transport : Nat) : Prop :=
  rxOn s = true ∧ bit s 0x00020004 1 = true ∧ domain = fld s 0x00020038 0 8 ∧ bitOf (fld s 0x00020038 8 3) transport = true

/-- A mailbox datagram of a session that mailboxes hear: well formed, of the kind, with a tag that verifies over a fresh counter
(R312). -/
def Heard (s : State) (sid kind : Nat) (udp : List Byte) (x : Session) (body : List Byte) : Prop :=
  rxOn s = true ∧ mbxUp s = true ∧ mbxForm kind udp = true ∧ mget s.host.sessions sid = some x ∧
    gcmOpen x.keyIn (mbxNonce (x.twin && x.role == 255) (mbxCounter udp)) (udp.take 32) (slice udp 32 (mbxBodyLen udp))
      (udp.drop (32 + mbxBodyLen udp)) = some body ∧
    x.isFresh (mbxCounter udp) = true ∧ mbxCounter udp < 2 ^ 32

/-- One fragment of a body that came in the datagram, of so many, from a source that has sent no other under its identifier (R311). -/
def Fragment (s : State) (src : Source) (udp : List Byte) (kind index count : Nat) : Prop :=
  rxOn s = true ∧ mbxUp s = true ∧ mbxForm kind udp = true ∧ mbxCounter udp ≠ 0 ∧ mbxReqSeq udp = index + count * 2 ^ 16 ∧
    index < count ∧ count ≤ 4 ∧ ∀ f ∈ s.host.frags, ¬ (f.src = src ∧ f.ident = mbxCounter udp)

/-- The body in a datagram. -/
def fragBody (udp : List Byte) : List Byte := (udp.drop 32).take (mbxBodyLen udp)

/-- A byte of DRAM. -/
def dramByte (s : State) (a : Nat) : Byte := cellGet s.mem.dram a

/-- No byte of DRAM outside the `n` bytes at `a` differs. -/
def Elsewhere (s t : State) (a n : Nat) : Prop := ∀ k, (k < a ∨ a + n ≤ k) → dramByte t k = dramByte s k

/-- The CHAIN of a Ledger record after the one before it in its stream, or as the first of its stream (R522). -/
def chainOf (device : List Byte) (before : Option LedgerRec) (r : LedgerRec) : List Byte :=
  shake256 ((match before with
    | some p => p.chain
    | none => shake256 (ascii "VX6416 ledger" ++ device ++ [byte r.stream]) 32) ++ r.head) 32

/-- The records that a stream keeps are numbered in order, each with the CHAIN of R522, and the stream goes on from the last. -/
def Chained (device : List Byte) (st : LedgerStream) : Prop :=
  (∀ i p r, st.recs[i]? = some p → st.recs[i + 1]? = some r → r.index = p.index + 1 ∧ r.chain = chainOf device (some p) r) ∧
    (∀ r ∈ st.recs, r.index = 0 → r.chain = chainOf device none r) ∧
    (∀ r, st.recs.getLast? = some r → r.index + 1 = st.next ∧ r.chain = st.chain) ∧ (st.recs = [] → st.next = 0)

/-- Both streams of the Ledger are chained. -/
def LedgerInv (s : State) : Prop := Chained s.mgt.deviceId s.flt.ledgerC ∧ Chained s.mgt.deviceId s.flt.ledgerF

/-- Memory keeps its canonical form. -/
def Inv (s : State) : Prop := Memory.wf s.mem.dram = true ∧ Memory.wf s.mem.sram = true

end Sys2Proof.Machine
end

