-- ==== Sys2Proof/Safety/Footprint.lean ====
section
/-! DEFINITION. What each command may change: the parts of the state, what it means that a part stays, and each command's parts. The
statements about frames speak in these terms; the machine does not use them. -/

namespace Sys2Proof.Machine

open Sys2Proof

/-- A part of the state; `regs b` are the stored registers of the block at b × 2^16. -/
inductive Part where
  /-- Programs. -/
  | programs
  /-- Group tables. -/
  | groups
  /-- Commits that wait. -/
  | commits
  /-- Instances, records of ended ones and fences. -/
  | instances
  /-- Aborts requested. -/
  | aborts
  /-- Slots reserved. -/
  | reserved
  /-- The pressing list and the trellis. -/
  | units
  /-- Dies. -/
  | dies
  /-- Core histories and spot checks. -/
  | cores
  /-- Whether the Press runs. -/
  | pressing
  /-- High halves held by reads. -/
  | latches
  /-- Sessions. -/
  | sessions
  /-- Sessions that open. -/
  | opening
  /-- Host streams. -/
  | streams
  /-- Arrivals that wait for the edge. -/
  | arrivals
  /-- The host link. -/
  | hostLink
  /-- Pauses received. -/
  | pauses
  /-- The pause sent. -/
  | pauseSent
  /-- Addresses of the port. -/
  | addresses
  /-- Rate limits of the host port. -/
  | hostLimits
  /-- COMPLETION and ABORT packets that wait. -/
  | doneWait
  /-- Blend slots. -/
  | blends
  /-- Schedulers and their queues. -/
  | queues
  /-- Casks. -/
  | casks
  /-- Ring and reorder areas. -/
  | areas
  /-- DRAM. -/
  | dram
  /-- Poisoned words. -/
  | poison
  /-- Cellar SRAM. -/
  | sram
  /-- User regions. -/
  | regions
  /-- DRAM channels. -/
  | channels
  /-- Gleaning. -/
  | gleaning
  /-- The last uncorrectable address. -/
  | lastUe
  /-- Logical lanes. -/
  | lanes
  /-- Line ports. -/
  | ports
  /-- Tributaries. -/
  | tribs
  /-- Page numbering. -/
  | pages
  /-- Blocks received that wait. -/
  | rxBlocks
  /-- Sheaves. -/
  | sheaves
  /-- Monitoring. -/
  | bins
  /-- Monitoring thresholds. -/
  | thresholds
  /-- Physical lanes and channels. -/
  | optics
  /-- The spare swap. -/
  | swap
  /-- The owner anchor. -/
  | anchor
  /-- The device certificate. -/
  | identity
  /-- START_ID. -/
  | startId
  /-- Pairing and vintages. -/
  | lineKeys
  /-- The utility engine. -/
  | engine
  /-- Partners. -/
  | partners
  /-- Absence of groups. -/
  | siteGroups
  /-- The Silo. -/
  | silo
  /-- The shadow join. -/
  | shadow
  /-- Events and their counts. -/
  | events
  /-- The Ledger. -/
  | ledger
  /-- The fatal error. -/
  | fatal
  /-- The fatal stop made. -/
  | fatalDone
  /-- The Barn. -/
  | barn
  /-- Supply and hold-up. -/
  | power
  /-- The Vintner pairs. -/
  | vintner
  /-- Suspect clusters. -/
  | suspects
  /-- The time counter. -/
  | counter
  /-- A time step that waits. -/
  | stepDue
  /-- The servo. -/
  | servo
  /-- PTP. -/
  | ptp
  /-- Line time transfer. -/
  | lineTime
  /-- Pulse outputs. -/
  | pulses
  /-- Reference inputs and source. -/
  | references
  /-- Mailboxes. -/
  | mailboxes
  /-- Firmware slots and identity. -/
  | slots
  /-- The owner lock. -/
  | ownerLock
  /-- The system lock. -/
  | sysLock
  /-- A start asked for. -/
  | startNext
  /-- The test port. -/
  | jtag
  /-- The values of the telemetry port. -/
  | telemetry
  /-- The manifest. -/
  | manifest
  /-- The soft repair map. -/
  | softMap
  /-- Happenings for the check. -/
  | happened
  /-- Rails. -/
  | railsOk
  /-- What bring-up found. -/
  | found
  /-- READY. -/
  | ready
  /-- The sequence and the check. -/
  | bringUp
  /-- The tick count. -/
  | tick
  /-- Free values taken. -/
  | free
  /-- Outputs. -/
  | out
  /-- The stored registers of a block. -/
  | regs (block : Nat)
  deriving DecidableEq, Repr

/-- The block of a register's address, in units of 2^16: the Press's per-die windows belong to its block. -/
def regBlock (a : Nat) : Nat := if a < 0x40000 then a / 0x10000 else if 0x1000000 ≤ a then 0x20 else a / 0x40000 * 4

/-- A part is the same in two states. -/
def Part.Same (p : Part) (s t : State) : Prop :=
  match p with
  | .programs => t.coll.programs = s.coll.programs
  | .groups => t.coll.groups = s.coll.groups
  | .commits => t.coll.commits = s.coll.commits ∧ t.coll.nextCommit = s.coll.nextCommit
  | .instances => t.coll.insts = s.coll.insts ∧ t.coll.nextOrder = s.coll.nextOrder ∧ t.coll.committedNow = s.coll.committedNow ∧
      t.coll.fences = s.coll.fences ∧ t.coll.ended = s.coll.ended
  | .aborts => t.coll.aborts = s.coll.aborts
  | .reserved => t.coll.reserved = s.coll.reserved
  | .units => t.press.units = s.press.units ∧ t.press.listed = s.press.listed ∧ t.press.missed = s.press.missed ∧
      t.press.reissue = s.press.reissue ∧ t.press.treeFaulty = s.press.treeFaulty ∧ t.press.treeReports = s.press.treeReports
  | .dies => t.press.dies = s.press.dies ∧ t.press.intervalStart = s.press.intervalStart
  | .cores => t.press.cores = s.press.cores ∧ t.press.worked = s.press.worked ∧ t.press.spotClean = s.press.spotClean ∧
      t.press.spotRounds = s.press.spotRounds
  | .pressing => t.press.running = s.press.running
  | .latches => t.press.tickHiLatch = s.press.tickHiLatch ∧ t.flt.seqLatch = s.flt.seqLatch ∧ t.mem.lastUeLatch = s.mem.lastUeLatch ∧
      t.mgt.idHiLatch = s.mgt.idHiLatch ∧ t.time.nowSecLatch = s.time.nowSecLatch ∧ t.time.nowHiLatch = s.time.nowHiLatch
  | .sessions => t.host.sessions = s.host.sessions
  | .opening => t.host.half = s.host.half ∧ t.host.frags = s.host.frags ∧ t.host.helloCount = s.host.helloCount ∧
      t.host.helloTick = s.host.helloTick ∧ t.host.nextSession = s.host.nextSession
  | .streams => t.host.streams = s.host.streams
  | .arrivals => t.host.arrivals = s.host.arrivals
  | .hostLink => t.host.linkUp = s.host.linkUp ∧ t.host.aligned = s.host.aligned ∧ t.host.alignTicks = s.host.alignTicks
  | .pauses => t.host.pfc = s.host.pfc
  | .pauseSent => t.host.pfcSent = s.host.pfcSent ∧ t.host.pfcTick = s.host.pfcTick
  | .addresses => t.host.ipv4 = s.host.ipv4 ∧ t.host.ipv6 = s.host.ipv6 ∧ t.host.macLo = s.host.macLo ∧ t.host.macHi = s.host.macHi
  | .hostLimits => t.host.icmpTick = s.host.icmpTick ∧ t.host.icmpCount = s.host.icmpCount ∧ t.host.evTick = s.host.evTick
  | .doneWait => t.host.doneWait = s.host.doneWait
  | .blends => t.cmp = s.cmp
  | .queues => t.qos = s.qos
  | .casks => t.cellar.classes = s.cellar.classes
  | .areas => t.cellar.ringUsed = s.cellar.ringUsed ∧ t.cellar.reorderUsed = s.cellar.reorderUsed ∧ t.cellar.ringWarn = s.cellar.ringWarn ∧
      t.cellar.ringBp = s.cellar.ringBp ∧ t.cellar.reorderWarn = s.cellar.reorderWarn ∧ t.cellar.reorderBp = s.cellar.reorderBp
  | .dram => t.mem.dram = s.mem.dram
  | .poison => t.mem.poison = s.mem.poison
  | .sram => t.mem.sram = s.mem.sram
  | .regions => t.mem.regions = s.mem.regions
  | .channels => t.mem.channels = s.mem.channels ∧ t.mem.retrainWait = s.mem.retrainWait
  | .gleaning => t.mem.gleanPasses = s.mem.gleanPasses ∧ t.mem.gleanGroups = s.mem.gleanGroups ∧ t.mem.gleanCe = s.mem.gleanCe ∧
      t.mem.gleanUe = s.mem.gleanUe ∧ t.mem.gleanStart = s.mem.gleanStart ∧ t.mem.gleanUrgent = s.mem.gleanUrgent ∧
      t.mem.weakRows = s.mem.weakRows
  | .lastUe => t.mem.lastUe = s.mem.lastUe
  | .lanes => t.line.lanes = s.line.lanes
  | .ports => t.line.ports = s.line.ports
  | .tribs => t.line.tribs = s.line.tribs
  | .pages => t.line.nextPage = s.line.nextPage ∧ t.line.autoCommit = s.line.autoCommit
  | .rxBlocks => t.line.rxBlocks = s.line.rxBlocks ∧ t.line.rxWait = s.line.rxWait
  | .sheaves => t.line.sheaves = s.line.sheaves
  | .bins => t.line.bins = s.line.bins ∧ t.line.seconds = s.line.seconds ∧ t.line.pmStart = s.line.pmStart ∧ t.line.pmSec = s.line.pmSec
  | .thresholds => t.line.thresholds = s.line.thresholds
  | .optics => t.opt.phys = s.opt.phys ∧ t.opt.channels = s.opt.channels
  | .swap => t.opt.swap = s.opt.swap ∧ t.opt.retryAt = s.opt.retryAt ∧ t.opt.retryLane = s.opt.retryLane ∧ t.opt.fadeTick = s.opt.fadeTick ∧ t.opt.fecNext = s.opt.fecNext
  | .anchor => t.sec.anchor = s.sec.anchor ∧ t.sec.anchorKey = s.sec.anchorKey
  | .identity => t.sec.chain = s.sec.chain ∧ t.sec.enrolled = s.sec.enrolled
  | .startId => t.sec.startId = s.sec.startId
  | .lineKeys => t.sec.ports = s.sec.ports
  | .engine => t.sec.uce = s.sec.uce
  | .partners => t.sites.partners = s.sites.partners
  | .siteGroups => t.sites.groups = s.sites.groups
  | .silo => t.sites.silo = s.sites.silo
  | .shadow => t.sites.shadow = s.sites.shadow
  | .events => t.flt.ring = s.flt.ring ∧ t.flt.seq = s.flt.seq ∧ t.flt.counts = s.flt.counts ∧ t.flt.vintnerHeld = s.flt.vintnerHeld
  | .ledger => t.flt.ledgerC = s.flt.ledgerC ∧ t.flt.ledgerF = s.flt.ledgerF ∧ t.flt.ledgerFFull = s.flt.ledgerFFull ∧
      t.flt.warnCount = s.flt.warnCount ∧ t.flt.dropped = s.flt.dropped ∧ t.flt.dropEvTick = s.flt.dropEvTick
  | .fatal => t.flt.fatal = s.flt.fatal ∧ t.flt.fatalCause = s.flt.fatalCause ∧ t.flt.fatalTick = s.flt.fatalTick
  | .fatalDone => t.flt.fatalDone = s.flt.fatalDone
  | .barn => t.flt.barn = s.flt.barn ∧ t.flt.barnSeq = s.flt.barnSeq ∧ t.flt.capturing = s.flt.capturing
  | .power => t.flt.supplyLost = s.flt.supplyLost ∧ t.flt.holdUs = s.flt.holdUs ∧ t.flt.holdupPct = s.flt.holdupPct
  | .vintner => t.flt.vintnerActive = s.flt.vintnerActive ∧ t.flt.vintnerSingle = s.flt.vintnerSingle ∧ t.flt.vintnerUp = s.flt.vintnerUp ∧
      t.flt.vintnerStandby = s.flt.vintnerStandby ∧ t.flt.restarts = s.flt.restarts
  | .suspects => t.flt.suspects = s.flt.suspects
  | .counter => t.time.counter = s.time.counter ∧ t.time.valid = s.time.valid ∧ t.time.steps = s.time.steps
  | .stepDue => t.time.stepTo = s.time.stepTo ∧ t.time.stepBy = s.time.stepBy
  | .servo => t.time.servo = s.time.servo ∧ t.time.f = s.time.f ∧ t.time.integ = s.time.integ ∧ t.time.samples = s.time.samples ∧
      t.time.refused = s.time.refused ∧ t.time.lastAccepted = s.time.lastAccepted ∧ t.time.outSince = s.time.outSince ∧
      t.time.theta = s.time.theta
  | .ptp => t.time.masters = s.time.masters ∧ t.time.master = s.time.master ∧ t.time.ptp = s.time.ptp
  | .lineTime => t.time.ports = s.time.ports
  | .pulses => t.time.pulses = s.time.pulses
  | .references => t.time.refs = s.time.refs ∧ t.time.source = s.time.source ∧ t.time.selectNext = s.time.selectNext ∧
      t.time.xtalOk = s.time.xtalOk ∧ t.time.xtalFailed = s.time.xtalFailed
  | .mailboxes => t.mgt.mbx = s.mgt.mbx ∧ t.mgt.order = s.mgt.order
  | .slots => t.mgt.slots = s.mgt.slots ∧ t.mgt.active = s.mgt.active ∧ t.mgt.trial = s.mgt.trial ∧ t.mgt.fellBack = s.mgt.fellBack ∧
      t.mgt.dead = s.mgt.dead ∧ t.mgt.recovery = s.mgt.recovery ∧ t.mgt.fwVersion = s.mgt.fwVersion ∧ t.mgt.boot = s.mgt.boot ∧
      t.mgt.deviceId = s.mgt.deviceId
  | .ownerLock => t.mgt.ownerLock = s.mgt.ownerLock
  | .sysLock => t.mgt.sysLock = s.mgt.sysLock ∧ t.mgt.lockNext = s.mgt.lockNext
  | .startNext => t.mgt.startNext = s.mgt.startNext
  | .jtag => t.mgt.jtag = s.mgt.jtag
  | .telemetry => t.mgt.telemetry = s.mgt.telemetry
  | .manifest => t.bru.manifest = s.bru.manifest
  | .softMap => t.bru.softCores = s.bru.softCores ∧ t.bru.softClusters = s.bru.softClusters
  | .happened => t.bru.happened = s.bru.happened
  | .railsOk => t.bru.railsOk = s.bru.railsOk
  | .found => t.bru.found = s.bru.found ∧ t.bru.straps = s.bru.straps ∧ t.bru.stepped = s.bru.stepped ∧ t.bru.warm = s.bru.warm ∧
      t.bru.quick = s.bru.quick ∧ t.bru.lanesUp = s.bru.lanesUp ∧ t.bru.spareUp = s.bru.spareUp ∧ t.bru.memFull = s.bru.memFull ∧
      t.bru.memQuick = s.bru.memQuick ∧ t.bru.failChannels = s.bru.failChannels ∧ t.bru.packages = s.bru.packages ∧
      t.bru.dramGb = s.bru.dramGb
  | .ready => t.bru.ready = s.bru.ready
  | .bringUp => t.bru.step = s.bru.step ∧ t.bru.stepTick = s.bru.stepTick ∧ t.bru.running = s.bru.running ∧ t.bru.stopped = s.bru.stopped ∧
      t.bru.waiting = s.bru.waiting ∧ t.bru.notReady = s.bru.notReady ∧ t.bru.readyNext = s.bru.readyNext ∧
      t.bru.recheckNext = s.bru.recheckNext ∧ t.bru.endWaitNext = s.bru.endWaitNext ∧ t.bru.reasons = s.bru.reasons ∧
      t.bru.lastStep = s.bru.lastStep ∧ t.bru.lastWave = s.bru.lastWave ∧ t.bru.result = s.bru.result ∧ t.bru.detail = s.bru.detail ∧
      t.bru.wave = s.bru.wave ∧ t.bru.waveDie = s.bru.waveDie ∧ t.bru.waveTick = s.bru.waveTick
  | .tick => t.tick = s.tick
  | .free => t.free = s.free
  | .out => t.out = s.out
  | .regs b => ∀ a, regBlock a = b → regVal t a = regVal s a

/-- What raising an event changes, apart from the Ledger. -/
def Part.event : List Part := [.events, .sessions, .queues, .regs 0x34, .regs 0x1C]

/-- What a fatal event changes besides. -/
def Part.fatalEvent : List Part := Part.event ++ [.ledger, .fatal, .barn, .pressing]

/-- What the answer to a mailbox request changes. -/
def Part.answer : List Part := [.mailboxes, .sessions, .queues, .regs 0]

/-- Every block of registers. -/
def Part.allRegs : List Part :=
  [.regs 0, .regs 1, .regs 2, .regs 4, .regs 8, .regs 0xC, .regs 0x10, .regs 0x14, .regs 0x18, .regs 0x1C, .regs 0x20, .regs 0x30, .regs 0x34,
    .regs 0x38]

end Sys2Proof.Machine

namespace Sys2Proof

open Machine

/-- The two commands that start the device anew. -/
def Instr.isStart : Instr → Bool
  | .coldStart _ => true
  | .warmStart => true
  | _ => false

/-- The parts that a command, other than a start, may change. -/
def Instr.changes : Instr → List Part
  | .tickEdge => Part.event ++ [.servo, .telemetry, .free, .programs, .groups, .commits, .instances, .aborts, .reserved, .units, .dies, .pressing, .streams,
      .arrivals, .pauseSent, .doneWait, .blends, .casks, .areas, .lanes, .ports, .tribs, .pages, .rxBlocks, .bins, .optics, .swap,
      .partners, .siteGroups, .silo, .ledger, .fatalDone, .counter, .references, .slots, .sysLock, .happened, .ready, .bringUp, .tick,
      .out, .regs 1, .regs 4, .regs 8, .regs 0xC, .regs 0x14, .regs 0x18, .regs 0x20, .regs 0x38]
  | .commitApply => Part.event ++ [.programs, .groups, .commits, .blends, .lanes, .ports, .pages, .optics, .swap, .partners, .ledger,
      .regs 8, .regs 0xC, .regs 0x14]
  | .instanceTimeout => Part.event ++ [.instances, .units, .pauseSent, .casks, .partners, .ledger, .out, .regs 4, .regs 0x18]
  | .pressingStart .. => Part.event ++ [.instances, .aborts, .units, .dies, .cores, .pauseSent, .casks, .dram, .poison, .siteGroups,
      .silo, .shadow, .ledger, .softMap, .out, .regs 4, .regs 0x18, .regs 0x20]
  | .pressingWindowEnd => Part.event ++ [.units, .dies, .shadow, .ledger, .regs 0x20]
  | .spotCheck .. => Part.event ++ [.instances, .aborts, .cores, .ledger, .suspects, .softMap, .regs 0x20]
  | .trellisMessage .. => Part.fatalEvent ++ [.units, .regs 0x20]
  | .dieLinkFlitCrcFail .. => [.dies, .regs 0x20]
  | .dieLinkRetrainDone .. => [.dies]
  | .dieLinkLaneSpare .. => Part.event ++ [.dies, .ledger]
  | .powerCapInterval .. => [.dies]
  | .capFloorEvent .. => Part.event ++ [.dies, .ledger]
  | .tempSensorRead .. => Part.fatalEvent ++ [.units, .dies, .regs 0x20]
  | .railDroop .. => [.dies]
  | .retirementApply .. => Part.event ++ [.units, .dies, .cores, .ledger, .softMap, .regs 0x20]
  | .quarantineEnd .. => [.dies, .cores]
  | .pressEnableWrite .. => [.regs 0x20]
  | .data .. => Part.event ++ [.reserved, .streams, .arrivals, .pauseSent, .hostLimits, .blends, .casks, .ledger, .out, .regs 4, .regs
      0x18]
  | .launch .. => Part.event ++ [.reserved, .streams, .arrivals, .pauseSent, .hostLimits, .blends, .casks, .ledger, .out, .regs 4, .regs
      0x18]
  | .memberAbort .. => Part.event ++ [.reserved, .streams, .arrivals, .pauseSent, .hostLimits, .blends, .casks, .ledger, .out, .regs 4,
      .regs 0x18]
  | .memberNack .. => Part.event ++ [.reserved, .streams, .arrivals, .pauseSent, .hostLimits, .blends, .casks, .ledger, .out, .regs 4,
      .regs 0x18]
  | .memberAck .. => Part.event ++ [.reserved, .streams, .arrivals, .pauseSent, .hostLimits, .blends, .casks, .ledger, .out, .regs 4,
      .regs 0x18]
  | .hostNackRepeat .. => Part.event ++ [.aborts, .streams, .ledger, .regs 4]
  | .hostAckInterval .. => [.streams, .queues, .regs 4]
  | .resultHoldExpire .. => Part.event ++ [.streams, .pauseSent, .casks, .ledger, .out, .regs 4, .regs 0x18]
  | .pfcFrameRx .. => [.pauses, .regs 4]
  | .pfcPauseExpire .. => [.pauses]
  | .pfcWatchdog .. => Part.event ++ [.pauses, .ledger]
  | .pfcRefresh => [.pauseSent, .out, .regs 4]
  | .pfcDisableWrite => [.pauseSent, .out, .regs 4, .regs 0x18, .regs 0x34]
  | .arpRequest .. => [.queues, .regs 4]
  | .neighbourSolicitation .. => [.queues, .regs 4]
  | .icmpEcho .. => [.hostLimits, .queues, .regs 4]
  | .otherFrameDiscard .. => [.regs 4]
  | .hostAlignmentLoss => [.hostLink]
  | .hostLinkDown => Part.event ++ [.hostLink, .ledger]
  | .hostLinkUp => Part.event ++ [.hostLink, .happened]
  | .ptpAnnounce .. => Part.event ++ [.servo, .ptp, .regs 2, .regs 4]
  | .announceReceiptTimeout => Part.event ++ [.servo, .ptp, .regs 2]
  | .ptpSync .. => [.ptp, .regs 2, .regs 4]
  | .ptpFollowUp .. => [.ptp, .regs 2, .regs 4]
  | .delayReqSend => [.queues, .ptp]
  | .ptpDelayResp .. => Part.event ++ [.ledger, .servo, .ptp, .regs 2, .regs 4]
  | .hostEgressSelect .. => Part.event ++ [.instances, .streams, .pauseSent, .doneWait, .casks, .ledger, .ptp, .out, .regs 4, .regs 0x18]
  | .lineBlockSelect .. => Part.event ++ [.aborts, .blends, .areas, .tribs, .bins, .lineKeys, .ledger, .regs 0x10, .regs 0x14]
  | .tokenRefill .. => [.queues, .regs 0x1C]
  | .queueSample => [.queues]
  | .mbxHello .. => Part.event ++ [.opening, .ledger, .free, .regs 4]
  | .helloReassemblyTimeout => [.opening]
  | .halfOpenExpire => [.opening]
  | .mbxFinish .. => [.sessions, .opening, .shadow, .regs 4]
  | .mbxRequest .. => Part.event ++ Part.answer ++ [.ledger, .regs 4]
  | .mbxClose .. => Part.event ++ [.ledger, .mailboxes, .regs 4]
  | .sessionIdleTimeout .. => [.sessions, .mailboxes]
  | .mbxBulk .. => Part.event ++ [.dram, .poison, .ledger, .barn, .mailboxes, .slots, .regs 4]
  | .bulkResend .. => [.sessions, .queues]
  | .mbxTwin .. => Part.event ++ [.shadow, .ledger, .mailboxes, .regs 4, .regs 8]
  | .twinUnmatchedExpiry => Part.event ++ [.shadow, .ledger, .mailboxes, .regs 8]
  | .sysIdentity .. => Part.answer
  | .sysNetSet .. => Part.answer ++ [.addresses]
  | .sysCommit .. => Part.answer ++ [.commits, .ledger]
  | .sysWithdraw .. => Part.answer ++ [.commits]
  | .sysEventSubscribe .. => Part.answer
  | .sysReset .. => Part.answer ++ [.startNext]
  | .sysReadyReasons .. => Part.answer
  | .sysManifestInstall .. => Part.answer ++ [.manifest, .happened]
  | .sysManifestRead .. => Part.answer ++ [.dram, .poison]
  | .sysShadowJoin .. => Part.answer ++ [.lanes, .shadow, .free]
  | .sysShadowAccept .. => Part.answer ++ [.shadow]
  | .sysShadowPromote .. => Part.answer ++ [.partners, .shadow]
  | .sysLock .. => Part.answer ++ [.sysLock]
  | .systemLockApply => [.sysLock]
  | .grpStage .. => Part.answer ++ [.groups]
  | .grpRead .. => Part.answer
  | .grpStreamOpen .. => Part.answer ++ [.streams, .free]
  | .grpStreamClose .. => Part.event ++ Part.answer ++ [.streams, .pauseSent, .casks, .ledger, .out, .regs 4, .regs 0x18]
  | .opStat .. => Part.answer ++ [.instances]
  | .opList .. => Part.answer
  | .opAbort .. => Part.answer ++ [.aborts]
  | .progLoad .. => Part.answer ++ [.programs]
  | .progUnload .. => Part.answer ++ [.programs]
  | .progList .. => Part.answer
  | .celRegionCreate .. => Part.answer ++ [.dram, .poison, .regions]
  | .celRegionFree .. => Part.answer ++ [.regions]
  | .celRegionRead .. => Part.answer
  | .celRegionWrite .. => Part.answer ++ [.dram, .poison]
  | .celRegionBulk .. => Part.answer
  | .memInfo .. => Part.answer
  | .lneTrib .. => Part.answer ++ [.tribs]
  | .lnePageStage .. => Part.answer ++ [.lanes, .ports, .pages, .partners]
  | .lnePmRead .. => Part.answer
  | .lnePmThresh .. => Part.event ++ Part.answer ++ [.bins, .thresholds, .ledger]
  | .lneXh .. => Part.answer ++ [.lanes]
  | .optLaneFec .. => Part.answer ++ [.swap]
  | .optLaneChannel .. => Part.answer ++ [.optics]
  | .secAnchorInstall .. => Part.event ++ Part.answer ++ [.anchor, .ledger, .happened]
  | .secAnchorReplace .. => Part.answer ++ [.anchor, .ledger, .happened]
  | .secEnrolRequest .. => Part.answer
  | .secEnrolInstall .. => Part.answer ++ [.identity, .happened]
  | .secAttest .. => Part.answer ++ [.dram, .poison]
  | .secPairRestart .. => Part.answer ++ [.lineKeys, .partners, .free]
  | .secUtilGcmSeal .. => Part.answer ++ [.dram, .poison, .engine, .regs 0x10]
  | .secUtilGcmOpen .. => Part.answer ++ [.dram, .poison, .engine, .regs 0x10]
  | .secUtilCtr .. => Part.answer ++ [.dram, .poison, .engine, .regs 0x10]
  | .secUtilShake .. => Part.answer ++ [.dram, .poison, .engine, .regs 0x10]
  | .timStep .. => Part.answer ++ [.stepDue]
  | .timeStepApply => Part.event ++ [.bins, .ledger, .counter, .stepDue, .servo, .pulses, .regs 2]
  | .qosGroupMap .. => Part.answer
  | .qosStage .. => Part.answer
  | .qosHistRead .. => Part.answer
  | .fltEventStat .. => Part.answer
  | .fltLedgerRead .. => Part.answer
  | .fltBarnList .. => Part.answer
  | .fltBarnRead .. => Part.answer ++ [.dram, .poison, .barn]
  | .fltBarnBulk .. => Part.answer
  | .fltBarnRelease .. => Part.answer ++ [.dram, .poison, .barn]
  | .fwInfo .. => Part.answer
  | .fwWrite .. => Part.answer ++ [.slots]
  | .fwBulk .. => Part.answer ++ [.slots]
  | .fwVerify .. => Part.answer ++ [.slots]
  | .fwActivate .. => Part.answer ++ [.ledger, .slots, .startNext]
  | .fwOwnerLock .. => Part.answer ++ [.ownerLock]
  | .fwOwnerUnlock .. => Part.answer ++ [.ownerLock]
  | .cmpBlendInstall .. => Part.answer ++ [.blends]
  | .cmpBlendStage .. => Part.answer ++ [.blends]
  | .cmpBlendRetire .. => Part.answer ++ [.blends]
  | .cmpBlendRead .. => Part.answer
  | .cmpResync .. => Part.answer ++ [.streams, .blends]
  | .clkSelect .. => Part.answer ++ [.references, .regs 0x34]
  | .regRead .. => Part.answer ++ Part.allRegs ++ [.latches, .casks]
  | .regWrite .. => Part.event ++ Part.answer ++ Part.allRegs ++ [.pauseSent, .lanes, .ports, .pages, .lineKeys, .partners, .ledger,
      .servo, .pulses, .references, .slots, .happened, .bringUp, .free, .out]
  | .registerWrite .. => Part.event ++ Part.allRegs ++ [.pauseSent, .lanes, .ports, .pages, .lineKeys, .partners, .ledger, .servo,
      .pulses, .references, .slots, .happened, .bringUp, .free, .out]
  | .rcCounterRead .. => Part.allRegs ++ [.latches, .casks, .out]
  | .latchingRead .. => Part.allRegs ++ [.latches, .casks, .out]
  | .sourceSelectWrite .. => [.references, .regs 0x34]
  | .pageRevert .. => [.ports, .regs 0x34]
  | .pageStandbyDiscard .. => [.lanes, .ports, .pages]
  | .pageReoffer .. => [.ports, .partners]
  | .qosApply => [.queues, .regs 0x1C]
  | .readinessRecheck => [.bringUp]
  | .pairWaitEndWrite => [.bringUp]
  | .stepCommand .. => [.lineKeys, .partners, .slots, .happened, .bringUp, .free, .regs 0x10, .regs 0x34, .regs 0x38]
  | .uceClaim .. => [.engine, .regs 0x34]
  | .uceRelease .. => [.engine]
  | .uceLockTimeout => Part.event ++ [.engine, .ledger, .regs 0x10]
  | .timeSourceWrite .. => [.servo, .regs 2, .regs 0x34]
  | .pulseModeWrite .. => Part.event ++ [.ledger, .pulses, .regs 2]
  | .caskRequest .. => Part.event ++ [.pauseSent, .casks, .ledger, .out, .regs 4, .regs 0x18]
  | .caskFree .. => Part.event ++ [.pauseSent, .casks, .ledger, .out, .regs 4, .regs 0x18]
  | .caskAccess .. => Part.event ++ [.groups, .instances, .aborts, .streams, .pauseSent, .casks, .areas, .dram, .poison, .sram, .lastUe,
      .tribs, .partners, .silo, .ledger, .barn, .out, .regs 4, .regs 8, .regs 0x18, .regs 0x30]
  | .dramRead .. => Part.event ++ [.groups, .instances, .aborts, .streams, .pauseSent, .casks, .areas, .dram, .poison, .lastUe, .tribs,
      .partners, .silo, .ledger, .barn, .out, .regs 4, .regs 8, .regs 0x18, .regs 0x30]
  | .gleanGroup .. => Part.event ++ [.dram, .poison, .gleaning, .lastUe, .ledger, .regs 0x30]
  | .gleanPeriodElapsed => [.gleaning]
  | .gleanPassEnd => Part.event ++ [.gleaning]
  | .wck2dqOscillator .. => Part.event ++ [.channels, .regs 0x30]
  | .channelRetrainDone .. => Part.fatalEvent ++ [.channels, .regs 0x30]
  | .mr4Read .. => Part.event ++ [.channels, .ledger, .regs 0x30]
  | .blendPolicyWindow => Part.event ++ [.blends, .regs 0x14]
  | .blendHandshakeTimeout => Part.event ++ Part.answer ++ [.blends, .ledger, .regs 0x14]
  | .resyncTimeout => Part.event ++ [.blends, .partners, .ledger, .regs 0x14]
  | .blendOfferRx .. => Part.event ++ [.hostLimits, .blends, .partners, .ledger, .regs 0x14]
  | .blendAcceptRx .. => Part.event ++ Part.answer ++ [.hostLimits, .blends, .ledger]
  | .blendRejectRx .. => Part.event ++ Part.answer ++ [.hostLimits, .blends, .ledger]
  | .blendSwitchRx .. => Part.event ++ [.hostLimits, .blends, .partners, .ledger, .regs 0x14]
  | .blendRetireAckRx .. => Part.event ++ [.hostLimits, .blends, .ledger, .regs 0x14]
  | .blendResyncRx .. => Part.event ++ Part.answer ++ [.hostLimits, .blends, .ledger]
  | .frameStart => Part.event ++ [.free, .hostLimits, .lanes, .ports, .tribs, .bins, .optics, .lineKeys, .partners, .ledger, .out, .regs 8,
      .regs 0xC]
  | .timeTransferSend .. => [.lanes, .partners, .lineTime, .free]
  | .controlKeepalive .. => [.partners]
  | .aliveRx .. => Part.event ++ [.hostLimits, .ledger]
  | .slotRx .. => Part.event ++ [.commits, .lanes, .ports, .tribs, .pages, .rxBlocks, .bins, .optics, .swap, .lineKeys, .partners,
      .ledger, .lineTime, .regs 8, .regs 0xC]
  | .elasticStoreSlip .. => [.lanes, .tribs]
  | .xhSheafRx .. => Part.event ++ [.rxBlocks, .sheaves, .ledger]
  | .xhSheafDown .. => Part.event ++ [.sheaves, .ledger]
  | .lineBlockRx .. => Part.event ++ [.arrivals, .pauseSent, .hostLimits, .blends, .casks, .areas, .ports, .tribs, .rxBlocks, .bins,
      .lineKeys, .partners, .ledger, .free, .out, .regs 4, .regs 8, .regs 0x10, .regs 0x14, .regs 0x18]
  | .lineAckIdle .. => [.tribs, .partners]
  | .lineNackRepeat .. => Part.event ++ [.tribs, .partners, .ledger, .regs 8]
  | .lineResendTimer .. => [.tribs]
  | .lineAckRx .. => [.blends, .areas, .tribs, .lineKeys, .partners]
  | .lineNackRx .. => [.tribs, .regs 8]
  | .pageOfferRx .. => Part.event ++ [.hostLimits, .ports, .partners, .ledger, .regs 8]
  | .pageReadyRx .. => Part.event ++ [.commits, .hostLimits, .ports, .partners, .ledger, .regs 8]
  | .pageRejectRx .. => Part.event ++ [.hostLimits, .ports, .partners, .ledger, .regs 8]
  | .degradationPageCompute .. => [.lanes, .ports, .partners]
  | .pageSetDiscard .. => [.ports]
  | .laneDegrade .. => Part.event ++ [.lanes, .ports, .ledger, .regs 8]
  | .doubleLossRepage .. => [.lanes, .ports, .pages, .partners]
  | .rdiClear .. => [.lanes, .optics]
  | .pmSecond => Part.event ++ [.bins, .ledger]
  | .pmBinRollover .. => [.bins]
  | .timeTransferRx .. => Part.event ++ [.commits, .hostLimits, .lanes, .ports, .pages, .optics, .swap, .partners, .ledger, .servo,
      .lineTime, .regs 2]
  | .loopFail .. => Part.event ++ [.commits, .lanes, .ports, .pages, .bins, .optics, .swap, .ledger, .regs 0xC]
  | .lossOfSignal .. => Part.event ++ [.lanes, .bins, .optics, .ledger, .regs 0xC]
  | .monitorRead .. => Part.event ++ [.optics, .ledger]
  | .contextRelearn .. => [.optics]
  | .fadeEvaluation => Part.event ++ [.optics, .swap, .ledger]
  | .spareTuneDone => [.lanes, .ports, .pages, .optics, .swap, .partners]
  | .spareTrainingEnd => Part.event ++ [.commits, .lanes, .ports, .pages, .optics, .swap, .partners, .ledger, .regs 0xC]
  | .swapRetryEval => Part.event ++ [.swap, .ledger]
  | .swapGuardRecommit => [.lanes, .ports, .pages, .partners]
  | .failedLaneTakeover .. => [.swap]
  | .wrongWavelengthLocal .. => Part.event ++ [.commits, .lanes, .ports, .pages, .bins, .optics, .swap, .partners, .ledger, .regs 0xC]
  | .relockDone .. => [.ports, .optics, .regs 0xC]
  | .relockFarCheck .. => Part.event ++ [.commits, .lanes, .ports, .pages, .bins, .optics, .swap, .partners, .ledger, .regs 0xC]
  | .rackingBegin .. => [.tribs, .lineKeys, .partners]
  | .rackSwitch .. => Part.event ++ [.lineKeys, .regs 0x10]
  | .announceRx .. => Part.event ++ [.hostLimits, .lineKeys, .partners, .ledger, .free]
  | .rackReadyRx .. => Part.event ++ [.hostLimits, .ledger]
  | .vintageWindowClose .. => [.lineKeys]
  | .pHelloRx .. => Part.event ++ [.lineKeys, .partners, .ledger, .happened, .free, .regs 0x10]
  | .pHelloRepeat .. => [.lineKeys, .partners, .free]
  | .pEncapRx .. => Part.event ++ [.lineKeys, .partners, .ledger, .happened, .regs 0x10]
  | .pConfirmRx .. => Part.event ++ [.aborts, .areas, .tribs, .rxBlocks, .lineKeys, .partners, .ledger, .happened, .regs 0x10]
  | .pairingTimeout .. => Part.event ++ [.lineKeys, .ledger, .happened, .regs 0x10]
  | .pairingRetry .. => [.lineKeys, .partners, .free]
  | .repairNoBlock .. => [.lineKeys, .partners, .free]
  | .refMissingEdges .. => Part.fatalEvent ++ [.references, .regs 0, .regs 1]
  | .refWindowEnd .. => Part.fatalEvent ++ [.references, .happened, .regs 0, .regs 1]
  | .xtalStable => [.references, .regs 0x34]
  | .xtalFail => Part.fatalEvent ++ [.references]
  | .holdoverEntry => Part.event ++ [.ledger, .servo]
  | .timeInvalid => Part.event ++ [.ledger, .counter]
  | .pulseEdge .. => [.pulses, .out]
  | .digestSend .. => [.partners]
  | .digestRx .. => Part.event ++ [.hostLimits, .blends, .partners, .ledger, .regs 0x14]
  | .digestListRx .. => Part.event ++ [.hostLimits, .partners, .ledger]
  | .configFence .. => Part.event ++ [.partners, .ledger, .regs 8]
  | .partnerLinkDown .. => Part.event ++ Part.answer ++ [.commits, .blends, .lanes, .ports, .pages, .optics, .swap, .partners, .ledger,
      .regs 0xC]
  | .siteAbsent => Part.event ++ [.instances, .units, .pauseSent, .doneWait, .casks, .partners, .siteGroups, .silo, .ledger, .out,
      .regs 4, .regs 8, .regs 0x18]
  | .siteStateRx .. => Part.event ++ [.hostLimits, .partners, .ledger]
  | .siteAckRx .. => Part.event ++ [.hostLimits, .partners, .ledger]
  | .fallowLimit => Part.event ++ [.siteGroups, .ledger]
  | .launchNoticeRx .. => [.arrivals]
  | .abortNoticeRx .. => [.arrivals]
  | .fenceClearRx .. => [.arrivals]
  | .promoteRx .. => Part.event ++ [.hostLimits, .partners, .ledger]
  | .promotionAtT => Part.event ++ [.streams, .addresses, .lanes, .lineKeys, .partners, .shadow, .ledger, .free]
  | .vintnerPairMismatch => Part.fatalEvent ++ [.opening, .shadow, .vintner, .mailboxes]
  | .vintnerWatchdog => Part.fatalEvent ++ [.opening, .shadow, .vintner, .mailboxes]
  | .vintnerRestartDone => [.events, .vintner, .bringUp]
  | .vintnerHeartbeatLoss => Part.fatalEvent
  | .barnCaptureDone .. => Part.event ++ [.dram, .poison, .barn]
  | .railFault .. => Part.fatalEvent ++ [.railsOk]
  | .powerLoss .. => Part.event ++ [.ledger, .barn, .power, .regs 0]
  | .ledgerSeal .. => Part.event ++ [.ledger]
  | .coldStart .. => []
  | .warmStart => []
  | .bringupStepDone .. => Part.event ++ [.dies, .cores, .dram, .poison, .channels, .gleaning, .lanes, .optics, .lineKeys, .partners,
      .ledger, .power, .vintner, .references, .slots, .softMap, .happened, .railsOk, .found, .bringUp, .free, .regs 2, .regs 4, .regs 8,
      .regs 0xC, .regs 0x10, .regs 0x30, .regs 0x38]
  | .pressWave .. => [.bringUp]
  | .pairWaitExpire => [.slots, .happened, .bringUp, .regs 0x38]
  | .telemetryWrite => [.out]
  | .jtagInstruction .. => [.jtag, .free, .out]
  | .mbxHelloReply .. => Part.event ++ [.opening, .shadow, .ledger, .regs 4]
  | .pfcWatchdogIgnoreEnd .. => [.pauses]
  | .spareTuneTimeout => Part.event ++ [.commits, .lanes, .ports, .pages, .optics, .swap, .ledger, .regs 0xC]
  | .vintnerSelfTestDone .. => [.vintner]
  | .laneRecovery .. => [.optics]
  | .signalReturn .. => [.optics]
  | .servoEnWrite .. => [.servo, .regs 2]
  | .ledgerDropSummary => [.ledger]

end Sys2Proof
end

