-- ==== Sys2Proof/Certificates/Slice0/Obligations.lean ====
section
/-! DEFINITION. The statements for the provers. Where a statement's words name rules R<n>, they are the rules of the spec that the clause
follows; the frames of Safety/Footprint.lean hold for every command beside what the single statements say. -/

open Sys2Proof Sys2Proof.Machine

/-- A step runs the command at the front of the queue on the state with the queue's rest. On an empty queue the block idles: the model's
choice, log entry 2. -/
def Obligations.StepRunsTheFrontCommand : Prop :=
  (∀ (c : Instr) (l : List Instr) (s : State), s.pending = c :: l → step s = exec c { s with pending := l }) ∧
    ∀ (s : State), s.pending = [] → step s = .next s

/-- R19, R456, R512, R523, R524, R533: at reset lane 4 is the spare, bring-up is at its first step and the device is not READY, time is
not valid, Vintner pair A is active, no session is open and no instance lives, nothing has been raised, and registers hold their tables'
reset values. -/
def Obligations.ResetState : Prop :=
  Inv State.reset ∧ LedgerInv State.reset ∧
    (∀ k, k < 5 → ((laneOf State.reset k).spare = true ↔ k = 4)) ∧ State.reset.pending = [] ∧
    State.reset.bru.step = 1 ∧ State.reset.bru.running = true ∧ State.reset.bru.ready = false ∧
    State.reset.time.valid = false ∧ State.reset.time.servo = 0 ∧ State.reset.flt.vintnerActive = 0 ∧
    State.reset.flt.fatal = false ∧ State.reset.host.sessions = [] ∧ State.reset.coll.insts = [] ∧ State.reset.press.running = false ∧
    (∀ c, seen State.reset c = 0) ∧
    (∀ a, regVal State.reset a = regReset a) ∧ fld State.reset 0x00340014 0 13 = 1024 ∧ fld State.reset 0x00340014 16 8 = 64

/-- No command takes from the queue or adds to it: after a step the queue is what stood behind the command that ran. Readings and choices
of the model that clauses rest on: log entry 2. -/
def Obligations.StepsTakeOneCommand : Prop :=
  ∀ (c : Instr) (l : List Instr) (s t : State), s.pending = c :: l → step s = .next t → t.pending = l

/-- In every state whose memory is in canonical form, a step leaves it in canonical form. Readings and choices of the model that clauses
rest on: log entry 23. -/
def Obligations.StepsKeepTheFormOfMemory : Prop := ∀ (s t : State), Inv s → step s = .next t → Inv t

/-- R553: once READY the device stays READY through every command but a start, unless a fatal error stops it. Beside it, on the same
terms: a fatal error lasts, the system lock lasts, and a supply that has failed stays failed. -/
def Obligations.ReadyStays : Prop :=
  ∀ (c : Instr) (s t : State), c.isStart = false → exec c s = .next t →
    (s.bru.ready = true → t.flt.fatal = false → t.bru.ready = true) ∧ (s.flt.fatal = true → t.flt.fatal = true) ∧
      (s.mgt.sysLock = true → t.mgt.sysLock = true) ∧ (s.flt.supplyLost = true → t.flt.supplyLost = true)

/-- R522: the CHAIN of a Ledger record is SHAKE256 over the previous record's CHAIN of its stream followed by bytes 0 to 479 of the
record, and the first of a stream chains from the device's own seed: every step keeps this of all records kept, and keeps the records, but
for the oldest of stream C once 884,736 have followed. -/
def Obligations.LedgerChains : Prop :=
  ∀ (s t : State), LedgerInv s → step s = .next t →
    LedgerInv t ∧ (∀ r ∈ s.flt.ledgerC.recs, t.flt.ledgerC.next ≤ r.index + 884736 → r ∈ t.flt.ledgerC.recs) ∧
      (s.flt.ledgerF.next ≤ 32768 → t.flt.ledgerF.next ≤ 32768 ∧ ∀ r ∈ s.flt.ledgerF.recs, r ∈ t.flt.ledgerF.recs)

/-- What each command other than a start leaves unchanged among groups, instances and the Press, and among blends, schedulers and the
Cellar: every part that its footprint does not name. -/
def Obligations.FrameOfInstancesAndPress : Prop :=
  ∀ (c : Instr) (s t : State) (p : Part), c.isStart = false → exec c s = .next t → p ∉ c.changes →
    p ∈ [.programs, .groups, .commits, .instances, .aborts, .reserved, .units, .dies, .cores, .pressing, .blends, .queues, .casks, .areas] →
    p.Same s t

/-- What each command other than a start leaves unchanged of memory: DRAM, poisoned words, the Cellar's SRAM, user regions, channels and
gleaning. -/
def Obligations.FrameOfMemory : Prop :=
  (∀ (c : Instr) (s t : State) (p : Part), c.isStart = false → exec c s = .next t → p ∉ c.changes →
    p ∈ [.dram, .poison, .sram, .regions, .channels, .gleaning, .lastUe] → p.Same s t) ∧
  ∀ (c : Instr) (s t : State), exec c s = .next t → .dram ∉ c.changes → c.isStart = false → ∀ a, dramByte t a = dramByte s a

/-- What each command other than a start leaves unchanged of the host port, the line framer and the optical lanes. -/
def Obligations.FrameOfHostLineAndOptics : Prop :=
  ∀ (c : Instr) (s t : State) (p : Part), c.isStart = false → exec c s = .next t → p ∉ c.changes →
    p ∈ [.sessions, .opening, .streams, .arrivals, .hostLink, .pauses, .pauseSent, .addresses, .hostLimits, .doneWait, .lanes, .ports,
      .tribs, .pages, .rxBlocks, .sheaves, .bins, .thresholds, .optics, .swap] → p.Same s t

/-- What each command other than a start leaves unchanged of keys and certificates, of partners, absence, the Silo and the shadow, and of
events, Ledger, Barn, Vintner and power. -/
def Obligations.FrameOfSecuritySitesAndFaults : Prop :=
  ∀ (c : Instr) (s t : State) (p : Part), c.isStart = false → exec c s = .next t → p ∉ c.changes →
    p ∈ [.anchor, .identity, .startId, .lineKeys, .engine, .partners, .siteGroups, .silo, .shadow, .events, .ledger, .fatal, .fatalDone,
      .barn, .power, .vintner, .suspects] → p.Same s t

/-- What each command other than a start leaves unchanged of time and clocks, of management, firmware and bring-up, of the tick count, and
of the stored registers by block. -/
def Obligations.FrameOfTimeManagementAndRegisters : Prop :=
  ∀ (c : Instr) (s t : State) (p : Part), c.isStart = false → exec c s = .next t → p ∉ c.changes →
    p ∈ [.counter, .stepDue, .servo, .ptp, .lineTime, .pulses, .references, .mailboxes, .slots, .ownerLock, .sysLock, .startNext, .jtag, .telemetry,
      .manifest, .softMap, .happened, .railsOk, .found, .ready, .bringUp, .tick, .free, .out, .latches] ∨ (∃ b, p = .regs b) →
    p.Same s t

/-- R76, R77: at the end of a measurement interval each die's granted budget follows its mean power, and a die that has run at its floor
above the cap for 1,000 ticks raises EV_PRESS_CAP_FLOOR once. R80, R81: a reading of a die's sensors sets its hottest valid temperature
and the stops of R80; a droop stalls the die's issue for this window. Readings and choices of the model that clauses rest on: log entries
5, 70 and 73. -/
def Obligations.PowerAndTemperature : Prop :=
  ((∀ (dws : List Nat) (s : State) (die : Nat), die < 4 → s.press.intervalStart + capInterval s ≤ s.tick →
    Runs (.powerCapInterval dws) s fun t =>
      let d := dieOf s die
      let p := dws.getD die 0
      let cap := 10 * fld s 0x00200020 0 8
      let hyst := 10 * fld s 0x00200020 8 4
      t.press.intervalStart = s.tick ∧ (dieOf t die).measDw = p ∧
        (cap < p → (dieOf t die).granted = max (floorBudget s) (d.granted - 64)) ∧
        (p + hyst < cap → d.hot = false → (dieOf t die).granted = min 1920 (d.granted + 64)) ∧
        (p ≤ cap → cap ≤ p + hyst → (dieOf t die).granted = d.granted) ∧
        (p + hyst < cap → d.hot = true → (dieOf t die).granted = d.granted)) ∧
  ∀ (s : State) (die : Nat), die < 4 → 1000 ≤ (dieOf s die).floorTicks → (dieOf s die).floorRaised = false →
    Runs (.capFloorEvent die) s fun t => (dieOf t die).floorRaised = true ∧ seen t 0x4202 = seen s 0x4202 + 1) ∧
  ((∀ (s : State) (die : Nat) (rs : List Nat), die < 4 →
    Runs (.tempSensorRead die rs) s fun t =>
      let d := dieOf t die
      (∀ i, i < 64 → i ∉ d.excluded → rs.getD i 0 ≤ d.maxC) ∧
        (d.maxC = 0 ∨ ∃ i, i < 64 ∧ i ∉ d.excluded ∧ rs.getD i 0 = d.maxC) ∧
        (100 ≤ d.maxC → d.hot = true) ∧ (d.maxC ≤ 95 → d.hot = false) ∧
        (103 ≤ d.maxC → d.overTemp = true) ∧ (d.maxC ≤ 95 → d.overTemp = false)) ∧
  ∀ (s : State) (die : Nat), die < 4 →
    Runs (.railDroop die) s fun t =>
      (dieOf t die).droop = true ∧ ∀ k, k ≠ die → dieOf t k = dieOf s k)

/-- R66 to R69: a die link's failed flit is counted, its retraining ends after two ticks, and a spare lane takes over while one is left.
R61, R62: what a cluster makes of the two copies of a Trellis message while both trees are in use. Readings and choices of the model that
clauses rest on: log entry 5. -/
def Obligations.LinksAndTrellis : Prop :=
  ((∀ (s : State) (die : Nat) (f : Bool), die < 4 →
    Runs (.dieLinkFlitCrcFail die f) s fun t =>
      regVal t (0x0100000C + die * 0x400000) = min (2 ^ 32 - 1) (regVal s (0x0100000C + die * 0x400000) + 1) ∧
        (f = true → 7 ≤ (dieOf s die).replayFails → (dieOf t die).retrainEnd = some (s.tick + 2)) ∧
        ((f = false ∨ (dieOf s die).replayFails < 7) → (dieOf t die).retrainEnd = (dieOf s die).retrainEnd)) ∧
  (∀ (s : State) (die e : Nat), die < 4 → (dieOf s die).retrainEnd = some e → e ≤ s.tick →
    Runs (.dieLinkRetrainDone die) s fun t => (dieOf t die).retrainEnd = none) ∧
  ∀ (s : State) (die : Nat), die < 4 →
    (0 < (dieOf s die).spareTx → Runs (.dieLinkLaneSpare die true) s fun t =>
      (dieOf t die).spareTx = (dieOf s die).spareTx - 1 ∧ (dieOf t die).dataTx = (dieOf s die).dataTx ∧
        seen t 0x4206 = seen s 0x4206 + 1) ∧
      ((dieOf s die).spareTx = 0 → Runs (.dieLinkLaneSpare die true) s fun t =>
        (dieOf t die).dataTx = (dieOf s die).dataTx - 1) ∧
      (0 < (dieOf s die).spareRx → Runs (.dieLinkLaneSpare die false) s fun t =>
        (dieOf t die).spareRx = (dieOf s die).spareRx - 1 ∧ (dieOf t die).dataRx = (dieOf s die).dataRx ∧
          seen t 0x4206 = seen s 0x4206 + 1) ∧
      ((dieOf s die).spareRx = 0 → Runs (.dieLinkLaneSpare die false) s fun t =>
        (dieOf t die).dataRx = (dieOf s die).dataRx - 1)) ∧
  (∀ (s : State) (die cl : Nat) (edge : Bool), treeBad s 0 = false → treeBad s 1 = false →
    (∀ m : Nat, Runs (.trellisMessage die cl edge (some m) (some m)) s fun t => t = s) ∧
      (∀ m : Nat, Runs (.trellisMessage die cl edge (some m) none) s fun t =>
        bit t 0x00200060 1 = true ∧ t.press.missed = s.press.missed ∧ t.press.reissue = s.press.reissue) ∧
      (∀ m : Nat, Runs (.trellisMessage die cl edge none (some m)) s fun t =>
        bit t 0x00200060 0 = true ∧ t.press.missed = s.press.missed ∧ t.press.reissue = s.press.reissue) ∧
      (∀ m n : Nat, m ≠ n → Runs (.trellisMessage die cl edge (some m) (some n)) s fun t =>
        bit t 0x00200060 2 = true ∧ (edge = true → (die * 1024 + cl) ∈ t.press.missed) ∧
          (edge = false → t.press.reissue = s.press.reissue ++ [die * 1024 + cl])) ∧
      Runs (.trellisMessage die cl true none none) s fun t =>
        bit t 0x00200060 3 = true ∧ (die * 1024 + cl) ∈ t.press.missed)

/-- R70 to R74, R85, R510: a retirement moves a core or cluster to a spare and re-queues the units staged there, a fenced core comes back
when its quarantine has passed, and PRS_CTRL.ENABLE holds what was written. R82, R83: a spot check of a running Press in a tick of its own
is counted; agreement marks the cluster clean, disagreement raises EV_PRESS_SPOT_MISMATCH. Readings and choices of the model that clauses
rest on: log entries 68, 71 and 72. -/
def Obligations.RetirementAndSpotChecks : Prop :=
  ((∀ (s : State) (die cl core : Nat), die < 4 → (coreHist s (coreKey die cl core)).state = 2 →
    (coreHist s (coreKey die cl core)).spared = false → mgetD (dieOf s die).coresUsed cl 0 < 16 →
    Runs (.retirementApply die cl (some core)) s fun t =>
      (coreHist t (coreKey die cl core)).spared = true ∧
        mgetD (dieOf t die).coresUsed cl 0 = mgetD (dieOf s die).coresUsed cl 0 + 1 ∧
        t.press.units = s.press.units.map fun u =>
          if u.die == die && u.cluster == cl then { u with requeue := u.requeue + 1 } else u) ∧
  (∀ (s : State) (die cl : Nat), die < 4 → 0 < (dieOf s die).spareClusters →
    Runs (.retirementApply die cl none) s fun t =>
      (dieOf t die).spareClusters = (dieOf s die).spareClusters - 1 ∧
        t.bru.softClusters = insertRising (die * 2 ^ 11 + cl) s.bru.softClusters) ∧
  (∀ (s : State) (die cl core : Nat), die < 4 → (coreHist s (coreKey die cl core)).state = 1 →
    (coreHist s (coreKey die cl core)).fenceTick + quarantineTicks s ≤ s.tick →
    Runs (.quarantineEnd die cl core) s fun t =>
      (coreHist t (coreKey die cl core)).state = 0 ∧ (coreHist t (coreKey die cl core)).spared = false ∧
        mgetD (dieOf t die).coresUsed cl 0 = mgetD (dieOf s die).coresUsed cl 0 - 1) ∧
  ∀ (s : State) (on : Bool), Runs (.pressEnableWrite on) s fun t => bit t 0x00200004 0 = on ∧ t.press = s.press) ∧
  (∀ (s : State) (die cl die2 cl2 : Nat), s.press.running = true → bit s 0x00200004 16 = true → s.tick % 16 = 0 →
    (∀ cores : List CheckFail, Runs (.spotCheck die cl die2 cl2 0 cores) s fun t =>
      regVal t 0x00200050 = min (2 ^ 32 - 1) (regVal s 0x00200050 + 1) ∧ mget t.press.spotClean (die * 1024 + cl) = some s.tick ∧
        seen t 0x8203 = seen s 0x8203) ∧
      ∀ (k : Nat) (cores : List CheckFail), k ≠ 0 → Runs (.spotCheck die cl die2 cl2 k cores) s fun t =>
        regVal t 0x00200050 = min (2 ^ 32 - 1) (regVal s 0x00200050 + 1) ∧
          regVal t 0x00200054 = min (2 ^ 32 - 1) (regVal s 0x00200054 + 1) ∧ seen t 0x8203 = seen s 0x8203 + 1)

/-- R43 to R47: a pressing takes the row of a staged unit out of the Press when it commits, a failing check in the unit's own window
leaves an entry in the core's history, and the end of the window re-queues what is left of the listed instances. Readings and choices of
the model that clauses rest on: log entries 5 and 47. -/
def Obligations.PressingsCommitUnits : Prop :=
  (∀ (s : State) (u : WorkUnit) (x : Instance) (d : Desc) (g : GroupTable) (ch : Chunk) (w : RowSt),
    s.press.running = true → planned s = [u] → mget s.coll.insts (ikey u.group u.inst) = some x → x.desc = some d →
    instTable s x = some g → mget x.chunks u.chunk = some ch → ch.rows[u.row]? = some w → w.full = false → ch.cask = true →
    d.rowWise = true → stateLost s x d ch.index u.row (preWords x d) = false →
    (pressLocal s x d g ch u.row w u.ranks u.accs).1.acc.any Must.overBudget = false →
    Runs (.pressingStart []) s fun t => u ∉ t.press.units ∧ ∀ v, v ∈ t.press.units ↔ v ∈ s.press.units ∧ v ≠ u) ∧
  (∀ (s : State) (f : CheckFail), s.press.running = true →
    Runs (.pressingStart [f]) s fun t =>
      (coreHist t (coreKey f.die f.cluster f.core)).events = min 65535 ((coreHist s (coreKey f.die f.cluster f.core)).events + 1)) ∧
  ∀ s : State, s.press.running = true →
    Runs .pressingWindowEnd s fun t =>
      t.press.listed = [] ∧ (∀ k, k < 4 → (dieOf t k).droop = false) ∧ t.sites.shadow.fresh = [] ∧
        t.press.units = s.press.units.map fun u =>
          if s.press.listed.contains (ikey u.group u.inst) then { u with requeue := u.requeue + 1 } else u

/-- R198, R453, R567: a tick edge advances the tick count by one and the time counter by what the rate gives, and a system lock that was
asked for takes effect. R165, R175, R178, R437: at its edge a commit's item takes effect, the standby group table or scheduler settings
becoming those in force, with EV_COMMIT_APPLIED. R200: an instance that its TIMEOUT finds waiting is aborted with TIMEOUT, and its staged
work leaves the Press. Readings and choices of the model that clauses rest on: log entries 3, 44 and 227. -/
def Obligations.EdgesCommitsAndTimeouts : Prop :=
  (∀ s : State, Runs .tickEdge s fun t =>
    t.tick = s.tick + 1 ∧ t.time.counter = (s.time.counter + tickAdvance s.time.f) % counterWrap ∧
      t.mgt.sysLock = (s.mgt.sysLock || s.mgt.lockNext) ∧ t.mgt.lockNext = false) ∧
  ((∀ (s : State) (c : Commit) (g : Nat) (r : GroupRec) (b : GroupTable), s.coll.commits = [c] → c.items = [.group g] →
    c.edge ≤ s.tick → mget s.coll.groups g = some r → r.standby = some b → b.valid = true →
    Runs .commitApply s fun t =>
      t.coll.commits = [] ∧ seen t 0x1301 = seen s 0x1301 + 1 ∧
        ∃ q, mget t.coll.groups g = some q ∧ q.current = some b ∧ q.standby = none ∧ q.lastCommitted = r.lastCommitted) ∧
  (∀ (s : State) (c : Commit) (n : Nat), n < 5 → s.coll.commits = [c] → c.items = [.qos n] → c.edge ≤ s.tick →
    Runs .commitApply s fun t =>
      (schedOf t n).active = (schedOf s n).standby ∧ ∀ k, k < 5 → k ≠ n → (schedOf t k).active = (schedOf s k).active) ∧
  ∀ (s : State) (c : Commit), s.coll.commits = [c] → s.tick < c.edge → Runs .commitApply s fun t => t = s) ∧
  (∀ (s : State) (x : Instance), s.coll.insts = [(ikey x.group x.inst, x)] → timedOut s x = true →
    Runs .instanceTimeout s fun t =>
      instOf t x.group x.inst = some { x with phase := .aborting, ownCode := 0x0301, detailKind := 0, detail := 0, chunks := [] } ∧
        ∀ u ∈ t.press.units, ¬ (u.group = x.group ∧ u.inst = x.inst))

/-- R294, R297: an exchange frame that passes the checks and is next in its stream, with nothing held beyond it, is passed on to be
counted at the next edge, and IN_NEXT advances; each packet type is its own command. R303: a member's acknowledgement, in an ACK or a NACK
that names nothing missing, releases the retained packets it covers, and a NACK has a retained packet that it names sent again. Readings
and choices of the model that clauses rest on: log entries 6 and 80. -/
def Obligations.HostPackets : Prop :=
  (∀ (s : State) (src : Source) (udp : List Byte) (c : StreamCtx), Accepts s src udp c →
    let p := Pkt.ofBytes udp
    p.ty ≠ 4 → p.seq = c.inNext → c.held = [] → (wouldOpen s p = true → (freeSlot s).isSome) →
    (∃ k, (payloadCask p (bump 0x00040040 s)).1 = some k) →
    ∀ cmd ∈ [Instr.data src udp, Instr.launch src udp, Instr.memberAbort src udp],
      Runs cmd s fun t =>
        (∃ d k, t.host.arrivals = s.host.arrivals ++ [.pkt p d k]) ∧
          ∃ e, mget t.host.streams p.stream = some e ∧ e.inNext = (c.inNext + 1) % 2 ^ 32 ∧ e.outNext = c.outNext) ∧
  ((∀ (s : State) (src : Source) (udp : List Byte) (c : StreamCtx), Accepts s src udp c →
    let p := Pkt.ofBytes udp
    let cum := beAt p.payload 0 4
    p.ty = 4 → byteAt p.payload 4 = 0 → ahead 32 cum (c.outNext + 2 ^ 32 - 1) = false →
    ∀ cmd ∈ [Instr.memberNack src udp, Instr.memberAck src udp],
      Runs cmd s fun t => ∃ e, mget t.host.streams p.stream = some e ∧
        ∀ q, mhas e.retained q = (mhas c.retained q && !decide (ringDist 32 cum q < 2 ^ 31))) ∧
  ∀ (s : State) (src : Source) (udp : List Byte) (c : StreamCtx) (q : Nat) (r : Retained), Accepts s src udp c →
    let p := Pkt.ofBytes udp
    p.ty = 4 → byteAt p.payload 4 = 1 → nackRanges p.payload = [(q, 1)] → mget c.retained q = some r → q < 2 ^ 32 →
    ringDist 32 q c.outInit < ringDist 32 c.outNext c.outInit →
    ahead 32 (beAt p.payload 0 4) (c.outNext + 2 ^ 32 - 1) = true →
    Runs (.memberNack src udp) s fun t =>
      queueItems t 0 2 = queueItems s 0 2 ++ [(s.tick, .resend r.pkt q)] ∧
        regVal t 0x00040068 = min (2 ^ 32 - 1) (regVal s 0x00040068 + 1))

/-- R301 to R303: the timers of a stream: an open NACK is repeated or, its repeats spent, the stream stalls with EV_STREAM_STALLED; an
owed acknowledgement is sent; a RESULT is released when its hold is over. R254, R307: pauses that a PFC frame asks for and their ends, and
the pauses the device asks for. Readings and choices of the model that clauses rest on: log entries 4, 82, 87 and 88. -/
def Obligations.StreamTimersAndPauses : Prop :=
  ((∀ (s : State) (id : Nat) (c : StreamCtx) (n : OpenNack), mget s.host.streams id = some c → c.nack = some n →
    c.stalled = false → n.tick + nackRetry s ≤ s.tick → n.tries < nackMax s → n.reason ≠ 0 →
    Runs (.hostNackRepeat id) s fun t => ∃ e, mget t.host.streams id = some e ∧
      e.nack = some { n with tries := n.tries + 1, tick := s.tick } ∧ e.nacksTx = c.nacksTx + 1) ∧
  (∀ (s : State) (id : Nat) (c : StreamCtx) (n : OpenNack), mget s.host.streams id = some c → c.nack = some n →
    c.stalled = false → n.tick + nackRetry s ≤ s.tick → nackMax s ≤ n.tries → n.reason ≠ 5 →
    Runs (.hostNackRepeat id) s fun t => seen t 0x4403 = seen s 0x4403 + 1 ∧
      ∃ e, mget t.host.streams id = some e ∧ e.stalled = true) ∧
  (∀ (s : State) (id : Nat) (c : StreamCtx), mget s.host.streams id = some c → c.ackOwed = true →
    c.ackFrom + ackInterval s ≤ s.tick →
    Runs (.hostAckInterval id) s fun t =>
      queueItems t 0 2 = queueItems s 0 2 ++ [(s.tick, .nack id (nackPayload ((c.inNext + 2 ^ 32 - 1) % 2 ^ 32) 0 0 []))] ∧
        ∃ e, mget t.host.streams id = some e ∧ e.ackOwed = false ∧ e.ackFrom = s.tick) ∧
  ∀ (s : State) (id q : Nat) (c : StreamCtx) (r : Retained), mget s.host.streams id = some c → mget c.retained q = some r →
    r.pkt.ty = 2 → r.sentTick + outHold s ≤ s.tick →
    Runs (.resultHoldExpire id q) s fun t => ∃ e, mget t.host.streams id = some e ∧ mget e.retained q = none) ∧
  ((∀ (s : State) (en : Nat) (qs : List Nat) (i : Nat), rxOn s = true → i < 8 → bitOf en i = true → (pfcOf s i).ignored = false →
    Runs (.pfcFrameRx en qs) s fun t =>
      regVal t 0x00040078 = min (2 ^ 32 - 1) (regVal s 0x00040078 + 1) ∧ (pfcOf t i).quanta = qs.getD i 0 ∧
        (qs.getD i 0 = 0 → (pfcOf t i).since = none) ∧
        (qs.getD i 0 ≠ 0 → (pfcOf t i).since = some ((pfcOf s i).since.getD s.tick))) ∧
  (∀ (s : State) (i : Nat), i < 8 → (pfcOf s i).since.isSome = true →
    (pfcOf s i).lastFrame * 6250 + (pfcOf s i).quanta ≤ (s.tick + 1) * 6250 →
    Runs (.pfcPauseExpire i) s fun t => (pfcOf t i).since = none ∧ ∀ k, k ≠ i → pfcOf t k = pfcOf s k) ∧
  (∀ (s : State) (i w : Nat), i < 8 → (pfcOf s i).since = some w → w + pfcWd s ≤ s.tick → bit s 0x00040004 4 = true →
    Runs (.pfcWatchdog i) s fun t => (pfcOf t i).since = none ∧ (pfcOf t i).ignored = true ∧ seen t 0x4406 = seen s 0x4406 + 1) ∧
  (∀ (s : State) (i : Nat), i < 8 → (pfcOf s i).ignored = true → (pfcOf s i).lastFrame + 1000 ≤ s.tick →
    Runs (.pfcWatchdogIgnoreEnd i) s fun t => (pfcOf t i).ignored = false) ∧
  (∀ s : State, txOn s = true → s.host.pfcSent = true → hostBp s = true → bit s 0x00180004 0 = true → s.host.pfcTick + 5 ≤ s.tick →
    Runs .pfcRefresh s fun t => t.out = .pfc (fld s 0x0004001C 0 8) 0xFFFF :: s.out ∧ t.host.pfcTick = s.tick) ∧
  ∀ s : State, txOn s = true → s.mgt.sysLock = false → s.host.pfcSent = true →
    Runs .pfcDisableWrite s fun t =>
      t.out = .pfc (fld s 0x0004001C 0 8) 0 :: s.out ∧ t.host.pfcSent = false ∧ bit t 0x00180004 0 = false)

/-- R285, R287: ARP, neighbour and echo requests for the device are answered through Q1, other frames are counted, and the link goes down
and up with its alignment. Readings and choices of the model that clauses rest on: log entries 84, 85 and 90. -/
def Obligations.NeighboursAndLink : Prop :=
  (∀ (s : State) (a snd : Nat), rxOn s = true → deviceAddr s false a = true →
    Runs (.arpRequest a snd) s fun t => queueItems t 0 1 = queueItems s 0 1 ++ [(s.tick, .other (.arpReply snd))]) ∧
  (∀ (s : State) (a snd : Nat), rxOn s = true → deviceAddr s true a = true →
    Runs (.neighbourSolicitation a snd) s fun t =>
      queueItems t 0 1 = queueItems s 0 1 ++ [(s.tick, .other (.neighbourReply snd))]) ∧
  (∀ (s : State) (src : Source) (dst : Nat) (d : List Byte), rxOn s = true → bit s 0x00040004 3 = true →
    deviceAddr s src.v6 dst = true → (s.host.icmpCount < 100 ∨ s.host.icmpTick + 500000 ≤ s.tick) →
    Runs (.icmpEcho src dst d) s fun t => queueItems t 0 1 = queueItems s 0 1 ++ [(s.tick, .other (.echoReply src d))]) ∧
  (∀ (s : State) (n : Nat), rxOn s = true →
    Runs (.otherFrameDiscard 0 n) s fun t =>
      regVal t 0x0004004C = min (2 ^ 32 - 1) (regVal s 0x0004004C + 1) ∧
        regVal t 0x0004007C = min (2 ^ 32 - 1) (regVal s 0x0004007C + n)) ∧
  (∀ s : State, s.host.aligned = true →
    Runs .hostAlignmentLoss s fun t => t.host.aligned = false ∧ t.host.alignTicks = s.tick ∧ t.host.linkUp = s.host.linkUp) ∧
  (∀ s : State, s.host.linkUp = true → s.host.aligned = false → s.host.alignTicks + 5 ≤ s.tick →
    Runs .hostLinkDown s fun t => t.host.linkUp = false ∧ seen t 0x8401 = seen s 0x8401 + 1) ∧
  ∀ s : State, s.host.linkUp = false →
    Runs .hostLinkUp s fun t => t.host.linkUp = true ∧ t.host.aligned = true ∧ seen t 0x1401 = seen s 0x1401 + 1

/-- R429, R434: the host egress sends the head of the lowest eligible strict queue; a sequenced packet takes the next STREAM_SEQ and is
kept. R436, R441: a refill adds a queue's RATE up to its BURST, and a sample of every queue is taken at its period. Readings and choices
of the model that clauses rest on: log entries 7, 221, 223 and 238. -/
def Obligations.HostEgress : Prop :=
  ((∀ (s : State) (off q : Nat) (p : HostPkt) (c : StreamCtx), s.host.linkUp = true → bit s 0x00040004 1 = true → q < 4 →
    hostEligible s q = true → (∀ k, k < q → hostEligible s k = false) → headItem s 0 q = some (.host p) → isShadow s = false →
    mget s.host.streams p.stream = some c →
    Runs (.hostEgressSelect off) s fun t =>
      t.out = .exchange p.stream (p.toBytes c.outNext false) :: s.out ∧
        ∃ e, mget t.host.streams p.stream = some e ∧ e.outNext = (c.outNext + 1) % 2 ^ 32 ∧
          mget e.retained c.outNext = some ⟨p, s.tick⟩) ∧
  ∀ (s : State) (off q : Nat) (dst : Source) (b : List Byte), s.host.linkUp = true → bit s 0x00040004 1 = true → q < 4 →
    hostEligible s q = true → (∀ k, k < q → hostEligible s k = false) → headItem s 0 q = some (.other (.mailbox dst b)) →
    s.host.doneWait = [] →
    Runs (.hostEgressSelect off) s fun t =>
      t.out = .mailbox dst b :: s.out ∧ queueItems t 0 q = (queueItems s 0 q).tail) ∧
  ((∀ (s : State) (n q : Nat), n < 5 → q < 16 → (schedOf s n).active.shaped q = true →
    Runs (.tokenRefill n q) s fun t =>
      ((schedOf t n).queue q).tokens =
          min (((schedOf s n).queue q).tokens + ((schedOf s n).active.rates.getD q 0 : Nat))
            (4 * ((schedOf s n).active.bursts.getD q 65536) : Nat) ∧
        ((schedOf t n).queue q).items = ((schedOf s n).queue q).items) ∧
  ∀ s : State, s.tick % fld1 s 0x001C0008 0 16 = 0 → (∀ n, n < 5 → (schedOf s n).sampledTick ≠ s.tick) →
    Runs .queueSample s fun t => ∀ n q, n < 5 → q < 16 →
      ((schedOf t n).queue q).depthHist =
          binAdd ((schedOf s n).queue q).depthHist (histBin (queueDepth s n q) (2 ^ fld s 0x001C0008 16 5)) ∧
        (schedOf t n).sampledTick = s.tick)

/-- R430, R434, R23: a port's scheduler selects a partial, and the block made of it takes the next LINE_SEQ of the tributary picked for
it, with a copy in the ring. Readings and choices of the model that clauses rest on: log entries 9, 126, 185 and 225. -/
def Obligations.LineSelectBuildsBlock : Prop :=
  ∀ (s : State) (port q n : Nat) (c : Sched) (p : LinePartial) (b : Trib), portOpen s port = true →
    selectQueue (lineEligible s port) (lineHeadLen s port) (schedOf s (port + 1)) = (some q, c) → lineHead s port q = some p →
    pickTrib s port q (partialUnits s p) = some n → isShadow s = false → tribOf s n = some b →
    1 ≤ (encContent p (lineBody (deepOn s) (lineBlend s p) p).bytes).length → (encContent p (lineBody (deepOn s) (lineBlend s p) p).bytes).length ≤ 65536 →
    Runs (.lineBlockSelect port) s fun t => ∃ x r, tribOf t n = some x ∧ x.nextSeq = b.nextSeq + 1 ∧
      mget x.ring b.nextSeq = some r ∧ r.part = p ∧ r.content = (lineBody (deepOn s) (lineBlend s p) p).bytes ∧ r.sentTick = s.tick

/-- R464 to R466: Announce messages and their timeout change the clocks heard of, and Sync, Follow_Up, Delay_Req and Delay_Resp of the
master make one sample of the offset. Readings and choices of the model that clauses rest on: log entries 7, 228, 229, 230 and 231. -/
def Obligations.PtpExchange : Prop :=
  (∀ (s : State) (dom tr : Nat) (m : PtpMaster), PtpTaken s dom tr →
    Runs (.ptpAnnounce dom tr m) s fun t => ∃ e ∈ t.time.masters, sameClock m e = true ∧ e.announces.head? = some s.tick) ∧
  (∀ (s : State) (m e : PtpMaster), s.time.master = some m → s.time.masters.find? (sameClock m) = some e →
    e.announces.headD 0 + annTimeout s * logTicks e.logAnnounce ≤ s.tick →
    Runs .announceReceiptTimeout s fun t => ∀ x ∈ t.time.masters, sameClock m x = false) ∧
  (∀ (s : State) (dom tr ident port seq t1 : Nat) (two : Bool) (corr : Int) (off : Nat), PtpTaken s dom tr →
    fromMaster s ident port = true →
    Runs (.ptpSync dom tr ident port seq two t1 corr off) s fun t =>
      t.time.ptp.t2 = some (rxStamp s off).toNat ∧ t.time.ptp.cs = corr ∧ t.time.ptp.t1 = (if two then none else some t1) ∧
        t.time.ptp.syncSeq = (if two then some seq else none)) ∧
  (∀ (s : State) (dom tr ident port seq t1 : Nat) (corr : Int), PtpTaken s dom tr → fromMaster s ident port = true →
    s.time.ptp.syncSeq = some seq →
    Runs (.ptpFollowUp dom tr ident port seq t1 corr) s fun t =>
      t.time.ptp.t1 = some t1 ∧ t.time.ptp.cs = s.time.ptp.cs + corr ∧ t.time.ptp.t2 = s.time.ptp.t2 ∧ t.time.ptp.syncSeq = none) ∧
  (∀ (s : State) (m : PtpMaster), s.time.master = some m → bit s 0x00020004 1 = true → s.time.ptp.nextReq ≤ s.tick →
    Runs .delayReqSend s fun t =>
      t.time.ptp.reqSeq = (s.time.ptp.reqSeq + 1) % 2 ^ 16 ∧ t.time.ptp.nextReq = s.tick + logTicks m.logMinDelayReq ∧
        queueItems t 0 0 = queueItems s 0 0 ++ [(s.tick, .other (.delayReq ((s.time.ptp.reqSeq + 1) % 2 ^ 16)))]) ∧
  ∀ (s : State) (dom tr ident port seq t4 t1 t2 t3 : Nat) (corr : Int), PtpTaken s dom tr → fromMaster s ident port = true →
    s.time.ptp.reqSeq = seq → s.time.ptp.t1 = some t1 → s.time.ptp.t2 = some t2 → s.time.ptp.t3 = some t3 → timeSource s = 1 →
    Runs (.ptpDelayResp dom tr ident port seq t4 corr) s fun t =>
      let lat : Int := (fld s 0x0002003C 16 16 * 2 ^ 16 / 10 : Nat)
      let asym : Int := signExt 32 (regVal s 0x00020040) * 2 ^ 16 / 1000
      t.time.theta = (((t2 : Int) - t1 - s.time.ptp.cs) - ((t4 : Int) - (t3 + lat) - corr)) / 2 - asym / 2

/-- R457, R458, R462, R463: a step sets the counter and makes time valid; without samples the servo goes to HOLDOVER and, in time, time
stops being valid; a new source or SERVO_EN starts qualification anew. Readings and choices of the model that clauses rest on: log entries
232, 233, 234 and 240. -/
def Obligations.TimeStepsAndServo : Prop :=
  (∀ (s : State) (v : Nat), s.time.stepTo = some v →
    Runs .timeStepApply s fun t =>
      t.time.counter = v * 2 ^ 48 ∧ t.time.valid = true ∧ t.time.steps = s.time.steps + 1 ∧ t.time.samples = [] ∧
        t.time.stepTo = none ∧ seen t 0x1C01 = seen s 0x1C01 + 1) ∧
  (∀ s : State, s.time.servo = 1 ∨ s.time.servo = 2 → s.time.lastAccepted + 1500000 ≤ s.tick →
    Runs .holdoverEntry s fun t => t.time.servo = 3 ∧ t.time.f = s.time.f ∧ seen t 0x4C02 = seen s 0x4C02 + 1) ∧
  (∀ (s : State) (w : Nat), s.time.valid = true → s.time.outSince = some w → w + holdoverLimit s ≤ s.tick →
    Runs .timeInvalid s fun t => t.time.valid = false ∧ t.time.counter = s.time.counter ∧ seen t 0x8C01 = seen s 0x8C01 + 1) ∧
  (∀ (s : State) (v : Nat), v % 8 < 6 → v % 8 ≠ timeSource s →
    Runs (.timeSourceWrite v) s fun t =>
      timeSource t = v % 8 ∧ t.time.samples = [] ∧
        t.time.servo = if v % 8 = 0 ∨ bit s 0x00020004 0 = false then 0 else 1) ∧
  ∀ (s : State) (on : Bool), on ≠ bit s 0x00020004 0 →
    Runs (.servoEnWrite on) s fun t =>
      bit t 0x00020004 0 = on ∧ t.time.samples = [] ∧ t.time.servo = if timeSource s = 0 ∨ on = false then 0 else 1

/-- R471, R472: programming a pulse output finds its first pulse, and a pulse whose time has come leaves on the pin. R445 to R450: a
reference fails, is judged at the end of a window, and takes the device to the internal clock when it was the source; the crystal becomes
stable or fails; a write selects a good source. Readings and choices of the model that clauses rest on: log entries 235, 236, 237, 243 and
244. -/
def Obligations.PulsesAndReferences : Prop :=
  ((∀ (s : State) (k v : Nat), k < 4 → v % 4 ≠ 3 →
    Runs (.pulseModeWrite k v) s fun t =>
      let p : Pulse :=
        { mode := v % 4, start := regVal s (pulseReg k 4) + regVal s (pulseReg k 8) * 2 ^ 32
          period := regVal s (pulseReg k 0xC) + regVal s (pulseReg k 0x10) * 2 ^ 32, next := none }
      vget t.time.pulses k Pulse.off = { p with next := firstPulse p s.time.v }) ∧
  ∀ (s : State) (k n : Nat), k < 4 → (vget s.time.pulses k Pulse.off).next = some n →
    0 < timeDiff ((s.time.counter + tickAdvance s.time.f) / 2 ^ 48 % 2 ^ 64) n →
    (bit s (pulseReg k 0) 2 = true → s.time.valid = true) →
    Runs (.pulseEdge k) s fun t =>
      t.out = .pulse k n (regVal s (pulseReg k 0x14)) (bit s (pulseReg k 0) 3) :: s.out ∧
        (vget t.time.pulses k Pulse.off).next =
          if (vget s.time.pulses k Pulse.off).mode = 2 then some ((n + (vget s.time.pulses k Pulse.off).period) % 2 ^ 64) else none) ∧
  ((∀ (s : State) (r : Nat), r < 2 → (refOf s r).ok = true → s.time.source = r → s.time.xtalFailed = false →
    Runs (.refMissingEdges r) s fun t =>
      (refOf t r).ok = false ∧ t.time.source = 2 ∧ seen t 0xFD01 = seen s 0xFD01 + 1 ∧
        regVal t 0x00010040 = min (2 ^ 32 - 1) (regVal s 0x00010040 + 1)) ∧
  (∀ (s : State) (a b ab : Int), within200 a = true → (refOf s 0).ok = false →
    fld1 s 0x0001000C 0 16 ≤ (refOf s 0).windows + 1 → Runs (.refWindowEnd a b ab) s fun t => (refOf t 0).ok = true) ∧
  (∀ (s : State) (a b ab : Int), within200 a = false →
    ¬ ((refOf s 1).ok = true ∧ within200 ab = true ∧ within200 b = false) →
    Runs (.refWindowEnd a b ab) s fun t => (refOf t 0).ok = false) ∧
  (∀ s : State, Runs .xtalStable s fun t => t.time.xtalOk = true ∧ t.time.xtalFailed = false) ∧
  (∀ s : State, Runs .xtalFail s fun t => t.time.xtalOk = false ∧ t.time.xtalFailed = true ∧
    (s.time.source = 2 → seen t 0xCD01 = seen s 0xCD01 + 1) ∧ (s.time.source ≠ 2 → seen t 0x4D01 = seen s 0x4D01 + 1)) ∧
  ∀ (s : State) (v k : Nat), v % 4 = k + 1 → sourceGood s k = true →
    Runs (.sourceSelectWrite v) s fun t => t.time.selectNext = some (k, false) ∧ t.time.source = s.time.source)

/-- R286, R516, R554, R564: the commands that report the device or set what it uses answer OK with the data the spec gives, and have their
effect. R174, R178, R179: a commit that nothing refuses is kept for its edge under the next identifier, and one before its edge can be
withdrawn. Readings and choices of the model that clauses rest on: log entries 98, 101, 105 and 106. -/
def Obligations.SystemCommands : Prop :=
  ((∀ (s : State) (m : Nat) (ses : Session), Called s m 0x0101 ses →
    Runs (.sysIdentity m) s fun t => Answered s t m 0 0 (identityData s)) ∧
  (∀ (s : State) (m v4 v6 : Nat) (ses : Session), Called s m 0x0102 ses →
    Runs (.sysNetSet m v4 v6) s fun t => Answered s t m 0 0 [] ∧ t.host.ipv4 = v4 ∧ t.host.ipv6 = v6) ∧
  (∀ (s : State) (m from_ cls : Nat) (ses : Session), Called s m 0x0105 ses →
    Runs (.sysEventSubscribe m from_ cls) s fun t => Answered s t m 0 0 [] ∧
      ∀ x, mget t.host.sessions (mbxOf s m).session = some x → x.sub = some (cls, max from_ (s.flt.seq + 1))) ∧
  (∀ (s : State) (m : Nat) (ses : Session), Called s m 0x0107 ses →
    Runs (.sysReadyReasons m) s fun t =>
      Answered s t m 0 0 (beBytes 4 (bruStatus s) ++ (s.bru.reasons.map Reason.toBytes).flatten)) ∧
  (∀ (s : State) (m : Nat) (ses : Session), Called s m 0x0106 ses →
    Runs (.sysReset m) s fun t => Answered s t m 0 0 [] ∧ t.mgt.startNext = true) ∧
  (∀ (s : State) (m : Nat) (ses : Session), Called s m 0x010D ses →
    Runs (.sysLock m) s fun t => Answered s t m 0 0 [] ∧ t.mgt.lockNext = true ∧ t.mgt.sysLock = s.mgt.sysLock) ∧
  ∀ s : State, s.mgt.lockNext = true → Runs .systemLockApply s fun t => t.mgt.sysLock = true ∧ t.mgt.lockNext = false) ∧
  ((∀ (s : State) (m at_ : Nat) (byTime : Bool) (items : List StagedItem) (ses : Session), Called s m 0x0103 ses →
    commitFault s byTime at_ items = none →
    Runs (.sysCommit m byTime at_ items) s fun t =>
      Answered s t m 0 0 (beBytes 4 s.coll.nextCommit) ∧ t.coll.nextCommit = s.coll.nextCommit + 1 ∧
        t.coll.commits = s.coll.commits ++ [⟨s.coll.nextCommit, commitEdge s byTime at_, items⟩]) ∧
  (∀ (s : State) (m at_ : Nat) (byTime : Bool) (items : List StagedItem) (ses : Session), Called s m 0x0103 ses →
    (items = [] ∨ 16 < items.length) →
    Runs (.sysCommit m byTime at_ items) s fun t => Answered s t m 2 0 [] ∧ t.coll = s.coll) ∧
  ∀ (s : State) (m id : Nat) (c : Commit) (ses : Session), Called s m 0x0104 ses →
    (s.coll.commits.find? fun c => c.id == id) = some c → s.tick < c.edge →
    Runs (.sysWithdraw m id) s fun t => Answered s t m 0 0 [] ∧
      ∀ x, x ∈ t.coll.commits ↔ x ∈ s.coll.commits ∧ x.id ≠ id)

/-- R549: while the device is not READY, a manifest that is valid and newer is stored and any other is refused with INVALID; the stored
one is written to a region as it was stored. R496, R499: the commands of the shadow join name the shadow, its twin and the time of
promotion. Readings and choices of the model that clauses rest on: log entries 108 and 124. -/
def Obligations.ManifestAndShadowCommands : Prop :=
  ((∀ (s : State) (m region off len : Nat) (x : List Byte) (ses : Session), Called s m 0x0108 ses →
    regionArg s region off len 1 10856 = .ok x → s.bru.ready = false →
    Runs (.sysManifestInstall m region off len) s fun t =>
      let newer := ∀ o, s.bru.manifest = some o → mfield o 16 4 < mfield x 16 4
      (mfValid s x = true ∧ newer → Answered s t m 0 0 [] ∧ t.bru.manifest = some x) ∧
        (¬ (mfValid s x = true ∧ newer) → Answered s t m 6 0 [] ∧ t.bru = s.bru)) ∧
  ∀ (s : State) (m region off : Nat) (x : List Byte) (r : Region) (ses : Session), Called s m 0x0109 ses →
    s.bru.manifest = some x → regionOf s region = some r → off + x.length ≤ r.size → regionInUse s region = false →
    Runs (.sysManifestRead m region off) s fun t => Answered s t m 0 0 (beBytes 4 x.length) ∧
      (∀ i, i < x.length → dramByte t (r.base + off + i) = x.getD i 0) ∧
        ∀ a, (a < r.base + off ∨ r.base + off + x.length ≤ a) → dramByte t a = dramByte s a) ∧
  ((∀ (s : State) (m : Nat) (peer : List Byte) (src : Source) (ses : Session), Called s m 0x010A ses →
    s.sites.shadow.role = 0 → s.sec.enrolled = true →
    Runs (.sysShadowJoin m peer src) s fun t => Answered s t m 0 0 [] ∧ t.sites.shadow.role = 1 ∧
      t.sites.shadow.peer = fixLen 8 peer ∧ ∀ n, n < 5 → (laneOf t n).txUp = false) ∧
  (∀ (s : State) (m : Nat) (peer : List Byte) (src : Source) (ses : Session), Called s m 0x010B ses →
    s.sites.shadow.role = 0 → s.sec.enrolled = true →
    Runs (.sysShadowAccept m peer src) s fun t => Answered s t m 0 0 [] ∧ t.sites.shadow.role = 2 ∧
      t.sites.shadow.peer = fixLen 8 peer) ∧
  ∀ (s : State) (m at_ : Nat) (ses : Session), Called s m 0x010C ses → promoteReady s = true →
    Runs (.sysShadowPromote m at_ true) s fun t => Answered s t m 0 0 [] ∧ t.sites.shadow.promoteAt = some at_)

/-- R173, R180, R597: a group table that passes the checks is staged as the standby version and reads back. R295, R296: a stream opens
with the sequences it is given, and one that no group names closes. Readings and choices of the model that clauses rest on: log entries 67
and 100. -/
def Obligations.GroupsAndStreams : Prop :=
  ((∀ (s : State) (m : Nat) (entry : List Byte) (ms : List (List Byte)) (ses : Session), Called s m 0x0201 ses →
    let b := GroupTable.ofBytes entry ms
    let r := mgetD s.coll.groups b.group GroupRec.new
    r.standby = none → r.draining = none → tableForm entry ms = true → tableOk s b = true →
    (∀ c, r.current = some c → b.epoch = (c.epoch + 1) % 2 ^ 16) →
    Runs (.grpStage m entry ms) s fun t => Answered s t m 0 0 [] ∧
      mget t.coll.groups b.group = some { r with standby := some b }) ∧
  (∀ (s : State) (m : Nat) (entry : List Byte) (ms : List (List Byte)) (ses : Session), Called s m 0x0201 ses →
    let r := mgetD s.coll.groups (GroupTable.ofBytes entry ms).group GroupRec.new
    r.standby = none → r.draining = none → tableForm entry ms = false →
    Runs (.grpStage m entry ms) s fun t => Answered s t m 0x0101 0 [] ∧ t.coll = s.coll) ∧
  ∀ (s : State) (m g : Nat) (r : GroupRec) (b : GroupTable) (ses : Session), Called s m 0x0202 ses →
    mget s.coll.groups g = some r → r.current = some b → r.standby = none → r.draining = none →
    Runs (.grpRead m g) s fun t => Answered s t m 0 0 ([0, 0, 0, 0] ++ groupBytes r b)) ∧
  ((∀ (s : State) (m id ep port addr i o : Nat) (v6 : Bool) (ses : Session), Called s m 0x0203 ses →
    mget s.host.streams id = none → id < 2 ^ 20 → ep < 2 ^ 16 →
    Runs (.grpStreamOpen m id ep v6 port addr i o) s fun t => Answered s t m 0 0 [] ∧
      ∃ c, mget t.host.streams id = some c ∧ c.endpoint = ep ∧ c.v6 = v6 ∧ c.peerAddr = addr ∧ c.inNext = i % 2 ^ 32 ∧
        c.outNext = o % 2 ^ 32 ∧ c.held = [] ∧ c.retained = []) ∧
  ∀ (s : State) (m id : Nat) (c : StreamCtx) (ses : Session), Called s m 0x0204 ses →
    mget s.host.streams id = some c → streamNamed s id = false →
    Runs (.grpStreamClose m id) s fun t => mget t.host.streams id = none ∧
      ∀ k, k ≠ id → mget t.host.streams k = mget s.host.streams k)

/-- R130, R198, R565: a host sees the instances held, their statistics and those kept after they ended, and asks for an abort that the
next edge carries out. R162 to R166: an image that passes the checks becomes resident, and one that no instance uses is unloaded. Readings
and choices of the model that clauses rest on: log entries 40 and 53. -/
def Obligations.InstancesAndPrograms : Prop :=
  ((∀ (s : State) (m g i : Nat) (x : Instance) (ses : Session), Called s m 0x0301 ses → instOf s g i = some x →
    Runs (.opStat m g i) s fun t => t.coll = s.coll ∧ Answered s t m 0 0
      (endPayload i 0xFFFF (b2n x.fallowDone + 2 * b2n x.catchup) (sumNat (x.delivered.map (·.2))) 0xFFFF x.detailKind x.detail ++
        x.stats.toBytes)) ∧
  (∀ (s : State) (m g i : Nat) (e : EndedRec) (ses : Session), Called s m 0x0301 ses → instOf s g i = none →
    (s.coll.ended.find? fun e => e.group == g && e.inst == i) = some e →
    Runs (.opStat m g i) s fun t => (∀ y ∈ t.coll.ended, ¬ (y.group = g ∧ y.inst = i)) ∧ Answered s t m 0 0
      (endPayload i e.code (b2n e.fallow + 2 * b2n e.catchup) e.chunks e.origin e.detailKind e.detail ++ e.stats.toBytes)) ∧
  (∀ (s : State) (m first : Nat) (ses : Session), Called s m 0x0302 ses →
    Runs (.opList m first) s fun t => Answered s t m 0 0
      (((s.coll.insts.drop first).take 508).map fun e =>
        beBytes 2 e.2.group ++ [byte e.2.phase.num, 0] ++ beBytes 4 e.2.inst).flatten) ∧
  ∀ (s : State) (m g i : Nat) (x : Instance) (ses : Session), Called s m 0x0303 ses → instOf s g i = some x →
    Runs (.opAbort m g i) s fun t => Answered s t m 0 0 [] ∧
      ∃ r, t.coll.aborts = s.coll.aborts ++ [r] ∧ r.group = g ∧ r.inst = i ∧ r.code = 0x0402 ∧ t.coll.insts = s.coll.insts) ∧
  ((∀ (s : State) (m id region off len : Nat) (l : List Byte) (ses : Session), Called s m 0x0401 ses → 1 ≤ id → id ≤ 65535 →
    regionArg s region off len 1 9248 = .ok l → mget s.coll.programs id = none → checkImage shake256 l = none →
    (residentImages s).length < 16 → sumNat ((residentImages s).map (·.lowered)) + (Image.ofBytes l).lowered ≤ 12288 →
    Runs (.progLoad m id region off len) s fun t => Answered s t m 0 0 [] ∧
      mget t.coll.programs id = some ⟨some (Image.ofBytes l), none, []⟩) ∧
  (∀ (s : State) (m id : Nat) (r : ProgRec) (ses : Session), Called s m 0x0402 ses → mget s.coll.programs id = some r →
    (∀ i ∈ r.current.toList ++ r.draining, imageInUse s i = false) →
    Runs (.progUnload m id) s fun t => Answered s t m 0 0 [] ∧ mget t.coll.programs id = none ∧
      ∀ k, k ≠ id → mget t.coll.programs k = mget s.coll.programs k) ∧
  ∀ (s : State) (m : Nat) (ses : Session), Called s m 0x0403 ses →
    Runs (.progList m) s fun t => Answered s t m 0 0
      (s.coll.programs.map fun e => beBytes 2 e.1 ++ [byte (b2n e.2.standby.isSome), byte e.2.draining.length] ++
        beBytes 8 ((e.2.current.map (·.digest)).getD 0)).flatten)

/-- R276, R277, R316: a user region is created zeroed under a handle of its own, is read and written within its bounds, and is freed;
memory outside it keeps its bytes. Readings and choices of the model that clauses rest on: log entries 103 and 104. -/
def Obligations.UserRegions : Prop :=
  (∀ (s : State) (m size k b : Nat) (ses : Session), Called s m 0x0501 ses → size ≠ 0 → size % 4096 = 0 →
    freeRegionSlot s = some k → placeRegion s size = some b →
    Runs (.celRegionCreate m size) s fun t => ∃ h r, Answered s t m 0 0 (beBytes 4 h) ∧ h % 4096 = k ∧ regionOf t h = some r ∧
      r.base = b ∧ r.size = size ∧ (∀ a, b ≤ a → a < b + size → dramByte t a = 0) ∧
        ∀ a, (a < b ∨ b + size ≤ a) → dramByte t a = dramByte s a) ∧
  (∀ (s : State) (m h : Nat) (r : Region) (ses : Session), Called s m 0x0502 ses → regionOf s h = some r →
    regionInUse s h = false →
    Runs (.celRegionFree m h) s fun t => Answered s t m 0 0 [] ∧ regionOf t h = none ∧ t.mem.dram = s.mem.dram) ∧
  (∀ (s : State) (m h off len : Nat) (r : Region) (ses : Session), Called s m 0x0503 ses → regionOf s h = some r →
    len ≤ 4064 → off + len ≤ r.size → regionPoisoned s h off len = false →
    Runs (.celRegionRead m h off len) s fun t => Answered s t m 0 0 (dramRead s (r.base + off) len) ∧ t.mem = s.mem) ∧
  (∀ (s : State) (m h off : Nat) (d : List Byte) (r : Region) (ses : Session), Called s m 0x0504 ses → regionOf s h = some r →
    d.length ≤ 4064 → off + d.length ≤ r.size → regionInUse s h = false → regionTorn s h off d.length = false →
    Runs (.celRegionWrite m h off d) s fun t => Answered s t m 0 0 [] ∧
      (∀ i, i < d.length → dramByte t (r.base + off + i) = d.getD i 0) ∧
        ∀ a, (a < r.base + off ∨ r.base + off + d.length ≤ a) → dramByte t a = dramByte s a) ∧
  (∀ (s : State) (m h off len : Nat) (r : Region) (ses : Session), Called s m 0x0505 ses → regionOf s h = some r → len ≠ 0 →
    off + len ≤ r.size → regionInUse s h = false → ses.bulk = none →
    Runs (.celRegionBulk m h off len false) s fun t => Answered s t m 0 0 [] ∧
      ∀ x, mget t.host.sessions (mbxOf s m).session = some x →
        ∃ b, x.bulk = some b ∧ b.kind = 0 ∧ b.target = h ∧ b.offset = off ∧ b.len = len ∧ b.sending = false) ∧
  ∀ (s : State) (m : Nat) (ses : Session), Called s m 0x0601 ses → Runs (.memInfo m) s fun t => Answered s t m 0 0 Config.memInfo

/-- R410, R411, R415, R417: the owner anchor is installed once and replaced under its own key, the device enrols under it, attests into a
region, and a paired port starts a new pairing. Readings and choices of the model that clauses rest on: log entries 9, 111, 113 and 217.
-/
def Obligations.AnchorAndEnrolment : Prop :=
  (∀ (s : State) (m : Nat) (cert : List Byte) (ses : Session), Called s m 0x0901 ses → s.sec.anchor = none →
    Runs (.secAnchorInstall m cert) s fun t =>
      (anchorOk cert = true → Answered s t m 0 0 [] ∧ t.sec.anchor = some (shake256 cert 32) ∧ t.sec.anchorKey = certKey cert ∧
        seen t 0x1A03 = seen s 0x1A03 + 1) ∧
      (anchorOk cert = false → Answered s t m 6 0 [] ∧ t.sec = s.sec)) ∧
  (∀ (s : State) (m : Nat) (cert old : List Byte) (ses : Session), Called s m 0x0901 ses → s.sec.anchor = some old →
    Runs (.secAnchorInstall m cert) s fun t => Answered s t m 5 0 [] ∧ t.sec = s.sec) ∧
  (∀ (s : State) (m region off : Nat) (l : List Byte) (ses : Session), Called s m 0x0902 ses →
    regionArg s region off 4424 4424 4424 = .ok l →
    Runs (.secAnchorReplace m region off 4424) s fun t =>
      let good := anchorOk (l.take 3144) && Config.falconVerify s.sec.anchorKey (l.take 3144) (l.drop 3144)
      (good = true → Answered s t m 0 0 [] ∧ t.sec.anchor = some (shake256 (l.take 3144) 32) ∧
        t.sec.anchorKey = certKey (l.take 3144)) ∧
      (good = false → Answered s t m 6 0 [] ∧ t.sec = s.sec)) ∧
  (∀ (s : State) (m : Nat) (ses : Session), Called s m 0x0903 ses →
    Runs (.secEnrolRequest m) s fun t => Answered s t m 0 0 (enrolData s)) ∧
  (∀ (s : State) (m region off len : Nat) (l : List Byte) (ses : Session), Called s m 0x0904 ses →
    regionArg s region off len 1 9432 = .ok l →
    Runs (.secEnrolInstall m region off len) s fun t =>
      let good := chainFault s s.sec.anchor 3 10 l = none ∧ certSubject (chainLeaf l) = ownId s ∧
        certKey (chainLeaf l) = fixLen 1793 Config.identityKey
      (good → Answered s t m 0 0 [] ∧ t.sec.enrolled = true ∧ t.sec.chain = chunks 3144 l) ∧
        (¬ good → Answered s t m 6 0 [] ∧ t.sec = s.sec)) ∧
  (∀ (s : State) (m h off : Nat) (nonce : List Byte) (r : Region) (ses : Session), Called s m 0x0905 ses → nonce.length = 32 →
    let d := attestReport nonce s ++ ownSign (attestReport nonce s) ++ ownChain s
    regionOf s h = some r → off + d.length ≤ r.size → regionInUse s h = false →
    Runs (.secAttest m nonce h off) s fun t => Answered s t m 0 0 (beBytes 4 d.length) ∧
      Elsewhere s t (r.base + off) d.length ∧ ∀ i, i < d.length → dramByte t (r.base + off + i) = d.getD i 0) ∧
  ∀ (s : State) (m port : Nat) (ses : Session), Called s m 0x0906 ses → port < 4 → (keysOf s port).st = 4 →
    bit s 0x00100004 0 = true →
    Runs (.secPairRestart m port) s fun t => Answered s t m 0 0 [] ∧ (keysOf t port).st = 1 ∧ (partnerOf t port).paired = false

/-- R418 to R421: on a free utility engine each operation answers with what it computes and writes its output to a region, and a tag that
fails releases nothing. R418, R419: a claim is granted a free utility engine and waits for a held one, and one whose code is not its
source is counted; the owner's release with the GEN in force, and its lock's timeout, pass the engine to the waiting requester of the
lowest code. Readings and choices of the model that clauses rest on: log entries 9, 112 and 220. -/
def Obligations.UtilityEngine : Prop :=
  ((∀ (s : State) (m : Nat) (key nonce i x : List Byte) (inp aad : RegionRange) (h off : Nat) (r : Region) (ses : Session),
    Called s m 0x0907 ses → s.sec.uce.owner = 0 → utilLimits inp.2.2 aad.2.2 1 = true → key.length = 32 → nonce.length = 12 →
    regionArg s inp.1 inp.2.1 inp.2.2 0 16777216 = .ok i → regionArg s aad.1 aad.2.1 aad.2.2 0 65536 = .ok x →
    outFault s h off inp.2.2 = none → regionOf s h = some r →
    Runs (.secUtilGcmSeal m key nonce inp aad h off false) s fun t =>
      let c := gcmSeal key nonce x i
      Answered s t m 0 0 c.2 ∧ Elsewhere s t (r.base + off) c.1.length ∧ ∀ k, k < c.1.length → off + k < r.size → dramByte t (r.base + off + k) = c.1.getD k 0) ∧
  (∀ (s : State) (m : Nat) (key nonce tag i x o : List Byte) (inp aad : RegionRange) (h off : Nat) (r : Region) (ses : Session),
    Called s m 0x0908 ses → s.sec.uce.owner = 0 → utilLimits inp.2.2 aad.2.2 1 = true → key.length = 32 → nonce.length = 12 →
    tag.length = 16 → regionArg s inp.1 inp.2.1 inp.2.2 0 16777216 = .ok i →
    regionArg s aad.1 aad.2.1 aad.2.2 0 65536 = .ok x → outFault s h off inp.2.2 = none → regionOf s h = some r →
    gcmOpen key nonce x i tag = some o →
    Runs (.secUtilGcmOpen m key nonce tag inp aad h off false) s fun t => Answered s t m 0 0 [] ∧
      Elsewhere s t (r.base + off) o.length ∧ ∀ k, k < o.length → off + k < r.size → dramByte t (r.base + off + k) = o.getD k 0) ∧
  (∀ (s : State) (m : Nat) (key nonce tag i x : List Byte) (inp aad : RegionRange) (h off : Nat) (r : Region) (ses : Session),
    Called s m 0x0908 ses → s.sec.uce.owner = 0 → utilLimits inp.2.2 aad.2.2 1 = true → key.length = 32 → nonce.length = 12 →
    tag.length = 16 → regionArg s inp.1 inp.2.1 inp.2.2 0 16777216 = .ok i →
    regionArg s aad.1 aad.2.1 aad.2.2 0 65536 = .ok x → outFault s h off inp.2.2 = none → regionOf s h = some r →
    gcmOpen key nonce x i tag = none →
    Runs (.secUtilGcmOpen m key nonce tag inp aad h off false) s fun t => Answered s t m 0x0901 0 [] ∧ t.mem = s.mem ∧
      regVal t 0x00100060 = min (2 ^ 32 - 1) (regVal s 0x00100060 + 1)) ∧
  (∀ (s : State) (m : Nat) (key ctr i x : List Byte) (inp : RegionRange) (h off : Nat) (r : Region) (ses : Session),
    Called s m 0x0909 ses → s.sec.uce.owner = 0 → utilLimits inp.2.2 0 1 = true → key.length = 32 → ctr.length = 16 →
    regionArg s inp.1 inp.2.1 inp.2.2 0 16777216 = .ok i → regionArg s inp.1 inp.2.1 0 0 65536 = .ok x →
    outFault s h off inp.2.2 = none → regionOf s h = some r →
    Runs (.secUtilCtr m key ctr inp h off false) s fun t => Answered s t m 0 0 [] ∧
      Elsewhere s t (r.base + off) (ctr128 key ctr i).length ∧ ∀ k, k < (ctr128 key ctr i).length → off + k < r.size → dramByte t (r.base + off + k) = (ctr128 key ctr i).getD k 0) ∧
  ∀ (s : State) (m n : Nat) (i x : List Byte) (inp : RegionRange) (h off : Nat) (r : Region) (ses : Session),
    Called s m 0x090A ses → s.sec.uce.owner = 0 → utilLimits inp.2.2 0 n = true →
    regionArg s inp.1 inp.2.1 inp.2.2 0 16777216 = .ok i → regionArg s inp.1 inp.2.1 0 0 65536 = .ok x →
    outFault s h off n = none → regionOf s h = some r →
    Runs (.secUtilShake m inp h off n false) s fun t => Answered s t m 0 0 [] ∧
      Elsewhere s t (r.base + off) (shake256 i n).length ∧ ∀ k, k < (shake256 i n).length → off + k < r.size → dramByte t (r.base + off + k) = (shake256 i n).getD k 0) ∧
  ((∀ (s : State) (r : Nat), 1 ≤ r → r ≤ 3 →
    Runs (.uceClaim [(r, r)]) s fun t =>
      (s.sec.uce.owner = 0 → t.sec.uce.owner = r ∧ t.sec.uce.gen = (s.sec.uce.gen + 1) % 256 ∧
        bitOf t.sec.uce.pending (r - 1) = false) ∧
      (s.sec.uce.owner ≠ 0 → t.sec.uce.owner = s.sec.uce.owner ∧ t.sec.uce.gen = s.sec.uce.gen ∧
        bitOf t.sec.uce.pending (r - 1) = true)) ∧
  (∀ (s : State) (src code : Nat), src ≠ code →
    Runs (.uceClaim [(src, code)]) s fun t => t.sec = s.sec ∧
      regVal t 0x00340054 = min (2 ^ 32 - 1) (regVal s 0x00340054 + 1)) ∧
  (∀ (s : State) (src gen : Nat),
    Runs (.uceRelease src gen) s fun t =>
      let u := s.sec.uce
      let held := src ≠ 0 ∧ u.owner = src ∧ u.gen = gen
      (held → (∀ i, i < 3 → bitOf u.pending i = false) → t.sec.uce.owner = 0 ∧ t.sec.uce.gen = u.gen) ∧
        (held → ∀ i, i < 3 → bitOf u.pending i = true → (∀ j, j < i → bitOf u.pending j = false) →
          t.sec.uce.owner = i + 1 ∧ t.sec.uce.gen = (u.gen + 1) % 256 ∧ bitOf t.sec.uce.pending i = false) ∧
        (¬ held → t = s)) ∧
  ∀ s : State, s.sec.uce.owner ≠ 0 →
    let u := s.sec.uce
    let late := if u.busy then u.opTick + 2000 ≤ s.tick else u.opTick + uceLimit s ≤ s.tick
    Runs .uceLockTimeout s fun t =>
      (late → seen t 0x4A03 = seen s 0x4A03 + 1 ∧ regVal t 0x00100064 = min (2 ^ 32 - 1) (regVal s 0x00100064 + 1) ∧
        ((∀ i, i < 3 → bitOf u.pending i = false) → t.sec.uce.owner = 0)) ∧
      (¬ late → t = s))

/-- R428, R437, R442, R447, R462: the mailbox commands of time, clocks and schedulers. Readings and choices of the model that clauses rest
on: log entries 101, 114, 224 and 234. -/
def Obligations.TimeAndQosCommands : Prop :=
  (∀ (s : State) (m v : Nat) (ses : Session), Called s m 0x0A01 ses →
    Runs (.timStep m false v) s fun t => Answered s t m 0 0 [] ∧ t.time.stepTo = some (v % 2 ^ 64) ∧ t.time.counter = s.time.counter) ∧
  (∀ (s : State) (m v : Nat) (ses : Session), Called s m 0x0A01 ses → qualCount s ≤ s.time.samples.length →
    Runs (.timStep m true v) s fun t => Answered s t m 0 0 [] ∧ t.time.stepTo = none ∧
      t.time.stepBy = some (meanOf (s.time.samples.take (qualCount s)))) ∧
  (∀ (s : State) (m k : Nat) (ses : Session), Called s m 0x0F01 ses → k ≤ 2 → sourceGood s k = true →
    Runs (.clkSelect m k) s fun t => Answered s t m 0 0 [] ∧ t.time.selectNext = some (k, false)) ∧
  (∀ (s : State) (m n g q : Nat) (ses : Session), Called s m 0x0B01 ses → n < 5 → q < 16 → (n = 0 → 3 ≤ q) →
    (groupOf s g).isSome = true →
    Runs (.qosGroupMap m n g q) s fun t => Answered s t m 0 0 [] ∧ mget (schedOf t n).standby.groupMap g = some q ∧
      (schedOf t n).active = (schedOf s n).active) ∧
  (∀ (s : State) (m n q v : Nat) (ses : Session), Called s m 0x0B02 ses → n < 5 → q < 16 → v < 2 ^ 24 →
    Runs (.qosStage m n 0 q v) s fun t => Answered s t m 0 0 [] ∧
      (schedOf t n).standby.rates = (schedOf s n).standby.rates.set q v ∧ (schedOf t n).active = (schedOf s n).active) ∧
  (∀ (s : State) (m n v : Nat) (ses : Session), Called s m 0x0B02 ses → n < 5 → v < 512 →
    Runs (.qosStage m n 3 0 v) s fun t => Answered s t m 0 0 [] ∧ (schedOf t n).standby.quantum = v) ∧
  ∀ (s : State) (m n q : Nat) (ses : Session), Called s m 0x0B03 ses → n < 5 → q < 16 →
    Runs (.qosHistRead m n q) s fun t => Answered s t m 0 0
        (((((schedOf s n).queue q).depthHist ++ ((schedOf s n).queue q).delayHist).map (beBytes 4)).flatten) ∧
      ((schedOf t n).queue q).depthHist = List.replicate 16 0 ∧ ((schedOf t n).queue q).delayHist = List.replicate 16 0

/-- R516, R526, R530: events, Ledger records and captures are read through mailboxes, and a capture is released. R521 to R524: a due seal
appends to its stream one SEAL record and three SEAL-CONT records, after which all up to them is sealed, and raises EV_LEDGER_SEALED; a
stream where none is due stays. Each second the dropped records are summarised in one record of KIND 9 and the count of records written in
it begins again. Readings and choices of the model that clauses rest on: log entries 107, 123 and 277. -/
def Obligations.FaultCommandsAndSeals : Prop :=
  ((∀ (s : State) (m : Nat) (codes : List Nat) (ses : Session), Called s m 0x0C01 ses → codes.length ≤ 1016 →
    Runs (.fltEventStat m codes) s fun t => Answered s t m 0 0
      ((codes.map fun c => beBytes 4 (min (2 ^ 32 - 1) (seen s c))).flatten)) ∧
  (∀ (s : State) (m first n : Nat) (r : LedgerRec) (l : List LedgerRec) (ses : Session), Called s m 0x0C02 ses → 1 ≤ n → n ≤ 7 →
    (s.flt.ledgerC.recs.filter fun r => decide (first ≤ r.index) && decide (r.index < first + n)) = r :: l → r.index = first →
    Runs (.fltLedgerRead m 0 first n) s fun t => Answered s t m 0 0 (((r :: l).map LedgerRec.toBytes).flatten)) ∧
  (∀ (s : State) (m : Nat) (ses : Session), Called s m 0x0C03 ses →
    Runs (.fltBarnList m) s fun t => Answered s t m 0 0
      (((List.range 2).filter fun k => (barnSlot s k).valid).map fun k => (barnSlot s k).head k).flatten) ∧
  (∀ (s : State) (m k off len : Nat) (ses : Session), Called s m 0x0C04 ses → k < 2 → (barnSlot s k).valid = true → len ≤ 4064 →
    off + len ≤ (barnSlot s k).length →
    Runs (.fltBarnRead m k off len) s fun t => Answered s t m 0 0 (dramRead s (barnBase k + off) len) ∧
      (barnSlot t k).read = ((barnSlot s k).read || decide (off + len = (barnSlot s k).length)) ∧
        Elsewhere s t (barnBase k) 128) ∧
  (∀ (s : State) (m k off len : Nat) (ses : Session), Called s m 0x0C05 ses → k < 2 → (barnSlot s k).valid = true → len ≠ 0 →
    off + len ≤ (barnSlot s k).length → ses.bulk = none →
    Runs (.fltBarnBulk m k off len) s fun t => Answered s t m 0 0 [] ∧
      ∀ x, mget t.host.sessions (mbxOf s m).session = some x →
        ∃ b, x.bulk = some b ∧ b.kind = 1 ∧ b.target = k ∧ b.offset = off ∧ b.len = len ∧ b.sending = true) ∧
  ∀ (s : State) (m k : Nat) (ses : Session), Called s m 0x0C06 ses → k < 2 → (barnSlot s k).valid = true →
    Runs (.fltBarnRelease m k) s fun t => Answered s t m 0 0 [] ∧ (barnSlot t k).valid = false ∧
      barnSlot t (1 - k) = barnSlot s (1 - k) ∧ Elsewhere s t (barnBase k) 128) ∧
  ((∀ (s : State), Runs (.ledgerSeal 0) s fun t =>
    (sealDue s 0 = true → s.flt.ledgerC.next + 4 ≤ t.flt.ledgerC.next ∧ t.flt.ledgerC.unsealed = s.flt.ledgerC.next + 4 ∧
      seen t 0x1F01 = seen s 0x1F01 + 1 ∧ t.flt.ledgerF = s.flt.ledgerF ∧
      ∃ r, r ∈ t.flt.ledgerC.recs ∧ r.kind = 2 ∧ r.index = s.flt.ledgerC.next ∧
        r.body = leBytes 8 s.flt.ledgerC.unsealed ++ leBytes 8 (s.flt.ledgerC.next - 1) ++ s.flt.ledgerC.chain) ∧
      (sealDue s 0 = false → t = s)) ∧
  (∀ (s : State), Runs (.ledgerSeal 1) s fun t =>
    (sealDue s 1 = true → t.flt.ledgerF.next = s.flt.ledgerF.next + 4 ∧ t.flt.ledgerF.unsealed = s.flt.ledgerF.next + 4 ∧
      seen t 0x1F01 = seen s 0x1F01 + 1) ∧
      (sealDue s 1 = false → t = s)) ∧
  ∀ (s : State), Runs .ledgerDropSummary s fun t => t.flt.warnCount = 0 ∧ t.flt.dropped = [] ∧
    (s.flt.dropped = [] → t.flt.ledgerC = s.flt.ledgerC) ∧
    (s.flt.dropped ≠ [] → ∃ r, t.flt.ledgerC.recs.getLast? = some r ∧ r.kind = 9 ∧
      r.body = ((s.flt.dropped.map fun e => leBytes 2 e.1 ++ leBytes 4 e.2).flatten).take 432))

/-- R568, R572 to R574: firmware slots are written, verified and activated, and the owner's lock holds activation. Readings and choices of
the model that clauses rest on: log entries 115, 116, 117 and 121. -/
def Obligations.FirmwareCommands : Prop :=
  (∀ (s : State) (m : Nat) (ses : Session), Called s m 0x0D01 ses →
    Runs (.fwInfo m) s fun t => Answered s t m 0 0 (fwInfoOf (fwSlotOf s 0) ++ fwInfoOf (fwSlotOf s 1))) ∧
  (∀ (s : State) (m k off : Nat) (d : List Byte) (ses : Session), Called s m 0x0D02 ses → fwOpen s k = true → d.length ≤ 4064 →
    off + d.length ≤ fwSlotSize →
    Runs (.fwWrite m k off d) s fun t => Answered s t m 0 0 [] ∧
      ∀ i, i < d.length → cellGet (fwSlotOf t k).data (off + i) = d.getD i 0) ∧
  (∀ (s : State) (m k off len : Nat) (ses : Session), Called s m 0x0D03 ses → fwOpen s k = true → len ≠ 0 →
    off + len ≤ fwSlotSize → ses.bulk = none →
    Runs (.fwBulk m k off len) s fun t => Answered s t m 0 0 [] ∧ (fwSlotOf t k).state = 1) ∧
  (∀ (s : State) (m k : Nat) (ses : Session), Called s m 0x0D04 ses → fwOpen s k = true → (fwSlotOf s k).state ≠ 0 →
    Runs (.fwVerify m k) s fun t =>
      (∀ c, (fwSlotOf s k).fault = some c → Answered s t m 6 c [] ∧ (fwSlotOf t k).state = 3) ∧
        ((fwSlotOf s k).fault = none → Answered s t m 0 0 [] ∧ (fwSlotOf t k).state = 2)) ∧
  (∀ (s : State) (m : Nat) (ses : Session), Called s m 0x0D05 ses → s.mgt.active < 2 → s.flt.fatal = false →
    (fwSlotOf s (1 - s.mgt.active)).state = 2 → fwOutside s (fwSlotOf s (1 - s.mgt.active)).version = false →
    s.mgt.ownerLock = false → fwMoving s = 0 → 95 ≤ s.flt.holdupPct → s.bru.railsOk = true →
    Runs (.fwActivate m) s fun t => Answered s t m 0 0 [] ∧ (fwSlotOf t (1 - s.mgt.active)).state = 5 ∧ t.mgt.startNext = true) ∧
  (∀ (s : State) (m : Nat) (ses : Session), Called s m 0x0D06 ses →
    Runs (.fwOwnerLock m) s fun t => Answered s t m 0 0 [] ∧ t.mgt.ownerLock = true) ∧
  ∀ (s : State) (m : Nat) (ses : Session), Called s m 0x0D07 ses →
    Runs (.fwOwnerUnlock m) s fun t => Answered s t m 0 0 [] ∧ t.mgt.ownerLock = false

/-- R233, R234, R237, R241, R242, R245: the host's commands over blends: install, stage, retire, read, and the end of a raw state.
Readings and choices of the model that clauses rest on: log entries 99, 145 and 146. -/
def Obligations.BlendCommands : Prop :=
  (∀ (s : State) (m ctx cls : Nat) (l : List Byte) (ses : Session), Called s m 0x0E01 ses → ctx < 2 →
    blendFault s false ctx cls l = none →
    Runs (.cmpBlendInstall m ctx cls l) s fun t => Answered s t m 0 0 [] ∧ (bslot t ctx cls).install = some (Blend.ofBytes l) ∧
      (bslot t ctx cls).current = (bslot s ctx cls).current) ∧
  (∀ (s : State) (m ctx cls : Nat) (l : List Byte) (ses : Session), Called s m 0x0E01 ses → 2 ≤ ctx →
    blendFault s false ctx cls l = none →
    Runs (.cmpBlendInstall m ctx cls l) s fun t =>
      (bslot t ctx cls).offer = some (hostOffer 1 (some m) (Blend.ofBytes l) s) ∧ (mbxOf t m).deferred = true) ∧
  (∀ (s : State) (m ctx cls : Nat) (l : List Byte) (ses : Session), Called s m 0x0E02 ses → blendFault s true ctx cls l = none →
    Runs (.cmpBlendStage m ctx cls l) s fun t => Answered s t m 0 0 [] ∧ (bslot t ctx cls).staged = some (Blend.ofBytes l) ∧
      (2 ≤ ctx → (bslot t ctx cls).offer = some (hostOffer 2 none (Blend.ofBytes l) s))) ∧
  (∀ (s : State) (m ctx cls : Nat) (b : Blend) (ses : Session), Called s m 0x0E03 ses → ctx < 2 → cls < 8 →
    (bslot s ctx cls).previous = some b →
    (ctx = 1 → (s.coll.insts.any fun e => e.2.blends.contains (cls * 256 + b.id)) = false) →
    Runs (.cmpBlendRetire m ctx cls) s fun t => Answered s t m 0 0 [] ∧ (bslot t ctx cls).retire = true) ∧
  (∀ (s : State) (m ctx cls : Nat) (b : Blend) (ses : Session), Called s m 0x0E04 ses → (bslot s ctx cls).current = some b →
    Runs (.cmpBlendRead m ctx cls 0) s fun t => Answered s t m 0 0 b.toBytes ∧ t.cmp = s.cmp) ∧
  (∀ (s : State) (m n cls : Nat) (ses : Session), Called s m 0x0E05 ses → n < 4 → cls < 8 →
    (bslot s (lOut n) cls).rawHold = true →
    Runs (.cmpResync m true n cls) s fun t => Answered s t m 0 0 [] ∧ (bslot t (lOut n) cls).rawHold = false) ∧
  ∀ (s : State) (m n cls : Nat) (c : StreamCtx) (ses : Session), Called s m 0x0E05 ses → mget s.host.streams n = some c →
    Runs (.cmpResync m false n cls) s fun t => Answered s t m 0 0 [] ∧
      mget t.host.streams n = some { c with rawRequired := false, decFails := 0 }

/-- R10, R12, R14: a write through one readable and writable field changes the bits under the mask where the result lies in the field's
range and is otherwise counted and left out; a bit written 1 to clear is cleared unless hardware sets it in the same clock; a locked field
and a refused write keep every register, the locked one counted. Readings and choices of the model that clauses rest on: log entries 12,
13, 14 and 15. -/
def Obligations.RegisterWritesByField : Prop :=
  (∀ (s : State) (a value mask hw : Nat) (owner : Bool) (f : FieldDef), 0x100 ≤ a → regFields a = some [f] → f.acc = .rw →
    bitsOf mask f.lo f.w ≠ 0 → writeFault s owner a value mask = none → standbyReg a = none →
    (∀ v full, selfWrite a v full s = none) → (∀ o n, registerRule s a o n = (n, false)) → (∀ v o n x, afterWrite a v o n x = x) →
    Runs (.registerWrite a value mask hw owner) s fun t =>
      let old := fld s a f.lo f.w
      let n := mergeBits old (bitsOf value f.lo f.w) (bitsOf mask f.lo f.w)
      (f.min ≤ n → n ≤ f.max → fld t a f.lo f.w = n ∧ regVal t 0x00340054 = regVal s 0x00340054) ∧
        ((n < f.min ∨ f.max < n) → fld t a f.lo f.w = old ∧
          regVal t 0x00340054 = min (2 ^ 32 - 1) (regVal s 0x00340054 + 1)) ∧
        ∀ b, b ≠ a → b ≠ 0x00340054 → regVal t b = regVal s b) ∧
  (∀ (s : State) (value mask hw i : Nat) (owner : Bool), i < 4 → bitsOf mask 0 4 ≠ 0 →
    Runs (.registerWrite 0x00200060 value mask hw owner) s fun t =>
      bit t 0x00200060 i = ((bit s 0x00200060 i && !(bitOf value i && bitOf mask i)) || bitOf hw i)) ∧
  (∀ (s : State) (a value mask hw : Nat) (owner : Bool), writeFault s owner a value mask = some stLocked →
    Runs (.registerWrite a value mask hw owner) s fun t =>
      regVal t 0x00340054 = min (2 ^ 32 - 1) (regVal s 0x00340054 + 1) ∧ ∀ b, b ≠ 0x00340054 → regVal t b = regVal s b) ∧
  ∀ (s : State) (a value mask hw e : Nat) (owner : Bool), writeFault s owner a value mask = some e → e ≠ stLocked →
    Runs (.registerWrite a value mask hw owner) s fun t => t = s

/-- R13, R455, R558, R566: reg.read answers a register's value and reg.write performs a write as its own access does, or answers why not;
a counter that a read clears gives its value and starts again at 0, or at 1 where it is incremented in the same clock; reading PRS_TICK_LO
latches the high half; and APPLY asks for the standby settings of every scheduler. Readings and choices of the model that clauses rest on:
log entries 15, 16, 17, 18 and 19. -/
def Obligations.RegisterAccesses : Prop :=
  (∀ (s : State) (m a v : Nat) (ses : Session), Called s m 0x1001 ses → 0x100 ≤ a → regRead s a = some v →
    Runs (.regRead m [a]) s fun t => Answered s t m 0 0 (beBytes 4 v)) ∧
  (∀ (s : State) (m a : Nat) (ses : Session), Called s m 0x1001 ses → 0x100 ≤ a → regRead s a = none →
    Runs (.regRead m [a]) s fun t => Answered s t m 9 0 []) ∧
  (∀ (s : State) (m a v k : Nat) (ses : Session), Called s m 0x1002 ses → 0x100 ≤ a →
    writeFault s (ses.role == 1) a v k = none →
    Runs (.regWrite m [(a, v, k)]) s fun t => Answered s t m 0 0 [] ∧
      ∃ u, exec (.registerWrite a v k 0 (ses.role == 1)) s = .next u ∧ ∀ b, b ≠ 0x00000040 → regVal t b = regVal u b) ∧
  (∀ (s : State) (m a v k e : Nat) (ses : Session), Called s m 0x1002 ses → writeFault s (ses.role == 1) a v k = some e →
    Runs (.regWrite m [(a, v, k)]) s fun t => Answered s t m e 0 []) ∧
  (∀ (s : State) (a v : Nat) (both : Bool), isRc a = true → regRead s a = some v → regIndex a 0x00180108 0x10 8 = none →
    Runs (.rcCounterRead a both) s fun t => t.out = .answer [v] :: s.out ∧ regVal t a = b2n both ∧
      ∀ b, b ≠ a → regVal t b = regVal s b) ∧
  (∀ s : State, Runs (.latchingRead 0x00200010) s fun t => t.out = .answer [s.tick % 2 ^ 32] :: s.out ∧
    t.press.tickHiLatch = s.tick / 2 ^ 32 % 2 ^ 32) ∧
  ∀ s : State, Runs .qosApply s fun t => bit t 0x001C0004 1 = true ∧
    ∀ n, n < 5 → (schedOf t n).applyNext = true ∧ (schedOf t n).active = (schedOf s n).active

/-- R311, R313, R314, R497: a session begins with a HELLO in fragments, of which a whole one that earns a role is answered and any other
reported, and is open at its FINISH; what is not complete, and what stays half open, is given up after a second; a request waits its turn
in its mailbox; CLOSE and 60 s of silence end a session. R316: data of a bulk transfer that the device receives in order is stored in its
region and acknowledged, and one it sends ends when all of it is acknowledged; what is not acknowledged in 25,000 ticks is sent again.
Readings and choices of the model that clauses rest on: log entries 92, 93, 94, 95 and 96. -/
def Obligations.SessionsAndBulk : Prop :=
  ((∀ (s : State) (src : Source) (udp : List Byte) (i n : Nat), Fragment s src udp 1 i n → mbxSession udp = 0 → 2 ≤ n →
    Runs (.mbxHello src udp) s fun t =>
      t.host.frags = s.host.frags ++ [⟨src, mbxCounter udp, n, [(i, fragBody udp)], s.tick⟩] ∧ t.host.half = s.host.half) ∧
  (∀ (s : State) (src : Source) (udp : List Byte), Fragment s src udp 1 0 1 → mbxSession udp = 0 →
    s.host.helloTick + 500000 ≤ s.tick → s.host.sessions.length < maxSessions s →
    Runs (.mbxHello src udp) s fun t =>
      (∀ role, helloRole s (fragBody udp) = some role → ∃ x, t.host.half = s.host.half ++ [x] ∧ x.id = s.host.nextSession ∧
        x.src = src ∧ x.role = role ∧ x.tick = s.tick) ∧
      (helloRole s (fragBody udp) = none → t.host.half = s.host.half ∧ seen t 0x4404 = seen s 0x4404 + 1)) ∧
  (∀ s : State, Runs .helloReassemblyTimeout s fun t => ∀ f, f ∈ t.host.frags ↔ f ∈ s.host.frags ∧ s.tick < f.firstTick + 500000) ∧
  (∀ s : State, Runs .halfOpenExpire s fun t => ∀ f, f ∈ t.host.half ↔ f ∈ s.host.half ∧ s.tick < f.tick + 500000) ∧
  (∀ (s : State) (src : Source) (udp pt : List Byte) (x : HalfOpen), rxOn s = true → mbxUp s = true → mbxForm 3 udp = true →
    s.host.half.find? (fun x => x.id == mbxSession udp) = some x → x.src = src → s.tick < x.tick + 500000 → mbxBodyLen udp = 0 →
    mbxCounter udp ≠ 0 → s.host.sessions.length < maxSessions s →
    gcmOpen x.keyIn (mbxNonce false (mbxCounter udp)) (udp.take 32) [] (udp.drop 32) = some pt →
    Runs (.mbxFinish src udp) s fun t => (∀ y ∈ t.host.half, y.id ≠ x.id) ∧ ∃ y, mget t.host.sessions x.id = some y ∧
      y.src = src ∧ y.role = x.role ∧ y.keyIn = x.keyIn ∧ y.keyOut = x.keyOut ∧ y.hiIn = mbxCounter udp ∧ y.lastTick = s.tick) ∧
  (∀ (s : State) (src : Source) (udp : List Byte) (ident seed : Nat) (hello : List Byte), Fragment s src udp 2 0 1 →
    s.sites.shadow.hello = some (ident, seed, hello) → s.sites.shadow.role = 1 → mbxCounter udp = ident →
    src = s.sites.shadow.peerSrc → s.host.sessions.length < maxSessions s →
    Runs (.mbxHelloReply src udp) s fun t =>
      (replyGood s hello (fragBody udp) = true → t.sites.shadow.session = some (twinSid (mbxSession udp)) ∧
        t.sites.shadow.hello = none ∧ ∃ y, mget t.host.sessions (twinSid (mbxSession udp)) = some y ∧ y.role = 255 ∧ y.twin = true) ∧
      (replyGood s hello (fragBody udp) = false → t.sites = s.sites ∧ seen t 0x4404 = seen s 0x4404 + 1)) ∧
  (∀ (s : State) (udp b : List Byte) (x : Session), let m := byteAt udp 16
    Heard s (mbxSession udp) 4 udp x b → (mbxOf s m).waiting = false →
    ¬ ((mbxOf s m).session = mbxSession udp ∧ (mbxOf s m).seq = mbxReqSeq udp) → requestForm b = true →
    knownCommand (beAt b 0 2) = true →
    Runs (.mbxRequest udp) s fun t => t.mgt.order = s.mgt.order ++ [m] ∧
      mbxOf t m = { session := mbxSession udp, seq := mbxReqSeq udp, waiting := true, deferred := false, code := beAt b 0 2,
                    token := beAt b 8 8, args := b.drop 32, resp := none }) ∧
  (∀ (s : State) (udp b : List Byte) (x : Session), let m := byteAt udp 16
    Heard s (mbxSession udp) 4 udp x b → (mbxOf s m).waiting = true →
    ¬ ((mbxOf s m).session = mbxSession udp ∧ (mbxOf s m).seq = mbxReqSeq udp) →
    Runs (.mbxRequest udp) s fun t => t.mgt = s.mgt ∧ regVal t 0x00000044 = min (2 ^ 32 - 1) (regVal s 0x00000044 + 1)) ∧
  (∀ (s : State) (udp b : List Byte) (x : Session), Heard s (mbxSession udp) 8 udp x b →
    Runs (.mbxClose udp) s fun t => mget t.host.sessions (mbxSession udp) = none ∧
      ∀ m ∈ t.mgt.order, m ∈ s.mgt.order ∧ (mbxOf s m).session ≠ mbxSession udp) ∧
  ∀ (s : State) (sid : Nat) (x : Session), mget s.host.sessions sid = some x → x.lastTick + 30000000 ≤ s.tick →
    Runs (.sessionIdleTimeout sid) s fun t => mget t.host.sessions sid = none ∧
      ∀ k, k ≠ sid → mget t.host.sessions k = mget s.host.sessions k) ∧
  ((∀ (s : State) (udp body : List Byte) (x : Session) (b : Bulk) (r : Region), Heard s (mbxSession udp) 7 udp x body →
    x.bulk = some b → b.sending = false → b.kind = 0 → regionOf s b.target = some r → b.offset + b.len ≤ r.size →
    regionInUse s b.target = false → regionTorn s b.target (b.offset + b.acked) (body.length - 8) = false → 8 ≤ body.length → beAt body 0 8 = b.offset + b.acked → body.length - 8 ≤ b.len - b.acked →
    Runs (.mbxBulk udp) s fun t =>
      let a := r.base + b.offset + b.acked
      (∀ i, i < body.length - 8 → dramByte t (a + i) = body.getD (8 + i) 0) ∧
        (∀ k, (k < a ∨ a + (body.length - 8) ≤ k) → dramByte t k = dramByte s k) ∧
        ∀ y, mget t.host.sessions (mbxSession udp) = some y →
          y.bulk = if b.acked + (body.length - 8) = b.len then none
            else some { b with acked := b.acked + (body.length - 8), next := b.next + 1 }) ∧
  (∀ (s : State) (udp body : List Byte) (x : Session) (b : Bulk), Heard s (mbxSession udp) 7 udp x body →
    x.bulk = some b → b.sending = true → 8 ≤ body.length → b.acked < b.len → beAt body 0 8 = b.offset + b.len →
    b.len ≤ 8192 * (b.next - 1) →
    Runs (.mbxBulk udp) s fun t => t.mem = s.mem ∧ ∀ y, mget t.host.sessions (mbxSession udp) = some y → y.bulk = none) ∧
  ∀ (s : State) (sid : Nat) (x : Session) (b : Bulk), mget s.host.sessions sid = some x → x.bulk = some b → b.sending = true →
    b.sentTick + 25000 ≤ s.tick → b.acked < b.len →
    (let pos := 8192 * (b.acked / 8192)
     bulkPoisoned s b (b.offset + pos) (min 8192 (b.len - pos)) = false) →
    Runs (.bulkResend sid) s fun t => (queueItems s 0 1).length < (queueItems t 0 1).length ∧
      ∀ y, mget t.host.sessions sid = some y → ∃ c, y.bulk = some c ∧ c.acked = b.acked ∧ c.len = b.len)

/-- R497, R498, R500: a twin tick without entries is matched when its last datagram has come, and 50,000 in a row make the shadow
eligible; a mismatch is reported at the twin, and one that has waited 1,000 ticks begins the count again; at T the twin gives up its
addresses and its lasers and the shadow takes them. Readings and choices of the model that clauses rest on: log entries 262, 263, 265 and
266. -/
def Obligations.ShadowAndTwin : Prop :=
  (∀ (s : State) (udp b : List Byte) (x : Session), Heard s (mbxSession udp) 9 udp x b → s.sites.shadow.role = 2 →
    s.sites.shadow.session = some (mbxSession udp) → 20 ≤ b.length → beAt b 8 2 = 1 → s.sites.shadow.mismatches = [] →
    Runs (.mbxTwin udp) s fun t => seen t 0x8E04 = seen s 0x8E04 + 1 ∧ t.sites.shadow.mismatches = [s.tick] ∧
      regVal t 0x000940B8 = min (2 ^ 32 - 1) (regVal s 0x000940B8 + 1)) ∧
  (∀ (s : State) (udp b : List Byte) (x : Session), let w := s.sites.shadow
    let n := max w.last (beAt b 0 8) + 1 - w.base.getD (beAt b 0 8)
    Heard s (twinSid (mbxSession udp)) 9 udp x b → w.role = 1 → w.session = some (twinSid (mbxSession udp)) → 20 ≤ b.length →
    beAt b 8 2 = 0 → byteAt b 10 = 0 → bitOf (byteAt b 11) 7 = true → byteAt b 12 = 0 → w.ticks = [] → w.waiting = [] →
    Runs (.mbxTwin udp) s fun t => t.sites.shadow.matched = n ∧ t.sites.shadow.eligible = (w.eligible || decide (50000 ≤ n))) ∧
  (∀ (s : State) (w : TwinEntry), s.sites.shadow.role = 1 → s.sites.shadow.waiting = [w] → s.sites.shadow.own = [] →
    s.sites.shadow.ticks = [] → w.tick + 1000 ≤ s.tick →
    Runs .twinUnmatchedExpiry s fun t => t.sites.shadow.waiting = [] ∧
      t.sites.shadow.base = some (max (s.sites.shadow.base.getD 0) (w.twinTick + 1)) ∧ seen t 0x8E04 = seen s 0x8E04) ∧
  (∀ (s : State) (at_ : Nat), s.sites.shadow.promoteAt = some at_ → at_ ≤ s.time.v → s.sites.shadow.role = 2 →
    Runs .promotionAtT s fun t => t.host.ipv4 = 0 ∧ t.host.ipv6 = 0 ∧ (∀ n, n < 5 → (laneOf t n).txUp = false) ∧
      t.sites.shadow.promoted = true ∧ seen t 0x1E04 = seen s 0x1E04 + 1) ∧
  ∀ (s : State) (at_ : Nat), s.sites.shadow.promoteAt = some at_ → at_ ≤ s.time.v → s.sites.shadow.role = 1 →
    Runs .promotionAtT s fun t =>
      (s.sites.shadow.peerSrc.v6 = false → t.host.ipv4 = s.sites.shadow.peerSrc.addr ∧ t.host.ipv6 = s.host.ipv6) ∧
        (s.sites.shadow.peerSrc.v6 = true → t.host.ipv6 = s.sites.shadow.peerSrc.addr ∧ t.host.ipv4 = s.host.ipv4) ∧
        (∀ n, n < 5 → (laneOf t n).txUp = (laneOf s n).active.isSome) ∧ t.sites.shadow.role = 0 ∧
        seen t 0x1E04 = seen s 0x1E04 + 1

/-- R325, R345, R347, R353, R359, R360, R364, R370: the mailbox commands of the line and the optics: a tributary is bound, a page that
passes the checks is staged under a new PAGE_ID and any other refused with its reason, bins are read, thresholds, XH maps, codes and
channels are set. R345 step 6, R348, R350: firmware's degradation pages and its new main pages after a double loss are kept where they
pass the checks; a lane lost is taken over by the degradation pages, or blanked where degradation is off. Readings and choices of the
model that clauses rest on: log entries 169, 171 and 198. -/
def Obligations.LineCommandsAndLosses : Prop :=
  ((∀ (s : State) (m n port q w : Nat) (ses : Session), Called s m 0x0701 ses → 4 ≤ n → n < 1024 → port < 4 → q < 16 →
    Runs (.lneTrib m n port q w) s fun t =>
      (tribOf s n = none → Answered s t m 0 0 [] ∧ tribOf t n = some (Trib.fresh port q (n % 5) w)) ∧
        ∀ x, tribOf s n = some x → x.port = port → Answered s t m 0 0 [] ∧ tribOf t n = some { x with queue := q, window := w }) ∧
  (∀ (s : State) (m lane : Nat) (p : List Byte) (ses : Session), Called s m 0x0702 ses → lane ≤ 4 → (laneOf s lane).rate ≠ 3 →
    Runs (.lnePageStage m lane p) s fun t =>
      let q := pageWith (newPageId s) 0 lane p
      (stageFault s lane p = none → Answered s t m 0 0 [byte (pageId q)] ∧ (laneOf t lane).standby = some q) ∧
        ∀ f, stageFault s lane p = some f → Answered s t m 6 f.reason [] ∧ t.line = s.line) ∧
  (∀ (s : State) (m scope kind back : Nat) (b : PmBin) (ses : Session), Called s m 0x0703 ses →
    (s.line.bins.filter fun b => b.scope == scope && b.kind == kind)[back]? = some b →
    Runs (.lnePmRead m scope kind back) s fun t => Answered s t m 0 0 b.toBytes ∧ t.line = s.line) ∧
  (∀ (s : State) (m scope c kind v : Nat) (ses : Session), Called s m 0x0704 ses → scopeOk s scope = true →
    c < scopeCounters scope → kind < 2 →
    Runs (.lnePmThresh m scope c kind v) s fun t => Answered s t m 0 0 [] ∧
      mget t.line.thresholds (threshKey scope c kind) = some v) ∧
  (∀ (s : State) (m lane : Nat) (map : List (Nat × Nat × Nat × Nat × Nat)) (ses : Session), Called s m 0x0705 ses → lane < 5 →
    xhMapOk map = true → (laneOf s lane).active = none → (laneOf s lane).standby = none →
    sheavesOk (updLane lane (fun l => { l with xh := map, rate := if map.isEmpty then 0 else 3 }) s) = true →
    Runs (.lneXh m lane map) s fun t => Answered s t m 0 0 [] ∧ (laneOf t lane).xh = map ∧
      (laneOf t lane).rate = if map = [] then 0 else 3) ∧
  (∀ (s : State) (m lane fec : Nat) (ses : Session), Called s m 0x0801 ses → lane < 5 → fec < 2 →
    (fec = 1 → (laneOf s lane).rate = 0 ∧ farAway s lane = false) →
    Runs (.optLaneFec m lane fec) s fun t => Answered s t m 0 0 [] ∧ mget t.opt.fecNext lane = some fec ∧ t.line = s.line) ∧
  (∀ (s : State) (m lane : Nat) (ses : Session), Called s m 0x0801 ses → lane < 5 →
    ((laneOf s lane).rate ≠ 0 ∨ farAway s lane = true) →
    Runs (.optLaneFec m lane 1) s fun t => Answered s t m 6 0 [] ∧ t.opt = s.opt) ∧
  ∀ (s : State) (m lane id : Nat) (ses : Session), Called s m 0x0802 ses → lane < 5 → (laneOf s lane).phys < 5 →
    channelOk id (if (laneOf s lane).rate = 3 then 6 else 17) = true →
    Runs (.optLaneChannel m lane id) s fun t => Answered s t m 0 0 [] ∧ vget t.opt.channels lane 0xFFFF = id ∧
      (physOf t (laneOf s lane).phys).txChannel = id ∧ (physOf t (laneOf s lane).phys).loChannel = id) ∧
  ((∀ (s : State) (pages : List (List Byte)),
    let ps := pages.map fun p => pageWith (activeId s) (pageDegr p) (pageLane p) p
    let main := s.line.lanes.toList.filterMap (·.active)
    let ports := (List.range 4).filter fun p => hasPartner s p && (main.any fun g => (pagePorts g).contains p)
    (∃ p, p < 4 ∧ (lportOf s p).degrDue.isSome = true) → (∀ p ∈ ps, pageDegr p ≠ 0) →
    checkPages (laneChan s) (boundPort s) ports ps (PageSet.views main ps) = none →
    Runs (.degradationPageCompute pages) s fun t =>
      (∀ p, p < 4 → (lportOf t p).degrDue = none) ∧
        ∀ n, n < 5 → (laneOf t n).degrPages = (ps.filter fun p => pageLane p == n).foldl (fun m p => mset m (pageDegr p) p) []) ∧
  (∀ (s : State) (g : List Byte),
    let all := sortByKey (fun (e : Nat × List Byte) => e.1)
      ((pageLane g, g) :: (standbyView s).filter fun e => !([(pageLane g, g)].any fun x => x.1 == e.1))
    let ports := (List.range 4).filter fun p => hasPartner s p && (lportOf s p).doubleDue.isSome
    (∃ p, p < 4 ∧ (lportOf s p).doubleDue.isSome = true) → pageDegr g = 0 → pageLane g < 5 → (laneOf s (pageLane g)).rate ≠ 3 →
    checkPages (laneChan s) (boundPort s) ports [pageWith (pageId g) 0 (pageLane g) g] [all] = none →
    Runs (.doubleLossRepage [g]) s fun t => t.line.autoCommit = 2 ∧
      (laneOf t (pageLane g)).standby = some (pageWith (newPageId s) 0 (pageLane g) g)) ∧
  (∀ (s : State) (k : Nat), k < 5 → (physOf s (laneOf s k).phys).txFailed = true → (laneOf s k).blanked = false →
    (∀ n, n < 5 → (laneOf s n).degr = 0) → (∀ p, p < 4 → (lportOf s p).degrReady = true) → bit s 0x00094004 2 = true →
    Runs (.laneDegrade k) s fun t => seen t 0x8801 = seen s 0x8801 + 1 ∧
      regVal t 0x00094048 = min (2 ^ 32 - 1) (regVal s 0x00094048 + 1) ∧
      ∀ n, n < 5 → (mget (laneOf s n).degrPages (k + 1)).isSome = true → (laneOf t n).degr = k + 1) ∧
  ∀ (s : State) (k : Nat), k < 5 → (physOf s (laneOf s k).phys).txFailed = true → (laneOf s k).blanked = false →
    (∀ n, n < 5 → (laneOf s n).degr = 0) → bit s 0x00094004 2 = false →
    Runs (.laneDegrade k) s fun t => (laneOf t k).blanked = true ∧
      regVal t 0x00094048 = min (2 ^ 32 - 1) (regVal s 0x00094048 + 1) ∧ seen t 0x8801 = seen s 0x8801)

/-- R345 to R347, R351, R361: a set of the partner's that passes the checks is held and readied and any other rejected; its READY for the
set offered allows the commit, its REJECT ends the offer; sets that newer ones have replaced go after two ticks; the host's page commands
ask for a revert where one is allowed, discard the standby set and offer the active set again. Readings and choices of the model that
clauses rest on: log entries 163, 166, 168, 169 and 170. -/
def Obligations.PageExchange : Prop :=
  (∀ (s : State) (port : Nat) (body : List Byte) (o : PageSet), port < 4 → 1000 ≤ bucketNow s port →
    PageSet.ofBytes body = some o → (∀ r ∈ (lportOf s port).rxSets, r.id ≠ o.id) →
    Runs (.pageOfferRx port body) s fun t =>
      (offerFault s port o = none → (lportOf t port).rxSets.head? = some o) ∧
        ∀ f, offerFault s port o = some f → (lportOf t port).rxSets = (lportOf s port).rxSets ∧
          regVal t 0x00094044 = min (2 ^ 32 - 1) (regVal s 0x00094044 + 1)) ∧
  (∀ (s : State) (port : Nat) (body : List Byte) (o : PageSet), port < 4 → 1000 ≤ bucketNow s port →
    (lportOf s port).offer = some o → o.degrOnly = false → byteAt body 0 = o.id → byteAt body 1 = o.pages.length →
    body.drop 4 = (o.pages.map fun p => slice p 8 8).flatten → o.id ≠ activeId s →
    Runs (.pageReadyRx port body) s fun t => (lportOf t port).offer = none ∧ (lportOf t port).ready = some o.id) ∧
  (∀ (s : State) (port : Nat) (body : List Byte) (o : PageSet), port < 4 → 1000 ≤ bucketNow s port →
    (lportOf s port).offer = some o → byteAt body 0 = o.id → 1 ≤ byteAt body 1 → byteAt body 1 ≤ 9 →
    Runs (.pageRejectRx port body) s fun t => (lportOf t port).offer = none ∧
      regVal t 0x00094044 = min (2 ^ 32 - 1) (regVal s 0x00094044 + 1)) ∧
  (∀ (s : State) (port at_ : Nat), port < 4 → (lportOf s port).rxNewTick = some at_ →
    Runs (.pageSetDiscard port) s fun t =>
      (at_ + 2 ≤ s.tick → (lportOf t port).rxSets = (lportOf s port).rxSets.take 1 ∧ (lportOf t port).rxNewTick = none) ∧
        (s.tick < at_ + 2 → t = s)) ∧
  (∀ (s : State) (port : Nat), port < 4 →
    Runs (.pageRevert port) s fun t =>
      (revertAllowed s port = true → (lportOf t port).revert = some (s.tick + 2) ∧ t.regs = s.regs) ∧
        (revertAllowed s port = false → t.line = s.line ∧
          regVal t 0x00340054 = min (2 ^ 32 - 1) (regVal s 0x00340054 + 1))) ∧
  (∀ (s : State) (port : Nat),
    Runs (.pageStandbyDiscard port) s fun t =>
      (standbyPort s port = true → t.line.autoCommit = 0 ∧ ∀ n, n < 5 → (laneOf t n).standby = none ∧
        (laneOf t n).active = (laneOf s n).active) ∧
        (standbyPort s port = false → t = s)) ∧
  ∀ (s : State) (port : Nat), port < 4 → activeSet s port false ≠ [] →
    Runs (.pageReoffer port) s fun t => (lportOf t port).offer = some ⟨activeId s, false, activeSet s port false⟩

/-- R320, R321, R332, R346, R349, R376: at a frame's start every lane that sends counts its frame; a slot whose acquisition or CRC fails
is counted and leaves its lane's frame; a good one is the lane's newest, and one that names no set held is counted and rejected; a slip
discards one frame of its lane; RDI ends after 500 good frames. R354 to R356: a member of a sheaf that agrees with the map joins its
frame, one that does not is counted, and a sheaf whose members stay away, or disagree for three frames, goes down with its event. Readings
and choices of the model that clauses rest on: log entries 174, 176, 186 and 188. -/
def Obligations.FramesSlotsAndSheaves : Prop :=
  ((∀ s : State, s.line.tribs = [] → (∀ p, p < 4 → (partnerOf s p).ctlQueue = []) →
    (∀ p, p < 4 → (lportOf s p).revert = none ∧ (lportOf s p).revertWant = false) →
    Runs .frameStart s fun t => ∀ n, n < 5 →
      (laneSends s n = true → ((laneOf s n).rate = 3 ∨ (laneOf s n).page.isSome = true) →
        regVal t (0x00080040 + n * 0x4000) = min (2 ^ 32 - 1) (regVal s (0x00080040 + n * 0x4000) + 1)) ∧
      ((laneSends s n = false ∨ ((laneOf s n).rate ≠ 3 ∧ (laneOf s n).page = none)) →
        regVal t (0x00080040 + n * 0x4000) = regVal s (0x00080040 + n * 0x4000))) ∧
  (∀ (s : State) (port lane off f1 f2 snr : Nat) (oh cols : List Byte), port < 4 → lane < 5 → bit s 0x00094004 1 = true →
    mgetD (lportOf s port).rxFailRuns lane 0 < 15 →
    Runs (.slotRx port lane off false f1 f2 snr oh cols) s fun t =>
      mgetD (lportOf t port).rxFailRuns lane 0 = mgetD (lportOf s port).rxFailRuns lane 0 + 1 ∧
        (laneOf t lane).badSlots = (laneOf s lane).badSlots + 1 ∧ (laneOf t lane).rxFrame = (laneOf s lane).rxFrame ∧
        regVal t (0x000C0040 + (laneOf s lane).phys * 0x2000) =
          min (2 ^ 32 - 1) (regVal s (0x000C0040 + (laneOf s lane).phys * 0x2000) + 1)) ∧
  (∀ (s : State) (port lane off f1 snr : Nat) (oh cols : List Byte), port < 4 → lane < 5 → bit s 0x00094004 1 = true →
    oh.length = 1024 → crc32 (oh.take 1020) = beAt oh 1020 4 → byteAt oh 7 = 0 → byteAt oh 33 = 0 → (laneOf s lane).slip = none →
    (∀ k, k < 5 → port ∉ lanePorts (laneOf s k)) → (lportOf s port).rxSets = [] → tribOf s port = none →
    Runs (.slotRx port lane off true f1 0 snr oh cols) s fun t =>
      (laneOf t lane).rxUp = true ∧ (laneOf t lane).rxFrame = beAt oh 0 4 ∧ (laneOf t lane).bip = some (bip32 (oh ++ cols)) ∧
        regVal t (0x00080054 + lane * 0x4000) = min (2 ^ 32 - 1) (regVal s (0x00080054 + lane * 0x4000) + 1) ∧
        regVal t 0x00094044 = min (2 ^ 32 - 1) (regVal s 0x00094044 + 1)) ∧
  (∀ (s : State) (lane : Nat), lane < 5 →
    Runs (.elasticStoreSlip lane) s fun t => (laneOf t lane).slip = some (laneOf s lane).rxFrame ∧ (laneOf t lane).bip = none ∧
      ∀ n x, tribOf s n = some x → (x.rxPieces.any fun e => decide (e.1 / 4096 = (laneOf s lane).rxFrame)) = true →
        ∃ y, tribOf t n = some y ∧ y.rxPieces = [] ∧ y.rxStream = none) ∧
  ∀ (s : State) (lane : Nat), lane < 5 → (laneOf s lane).phys < 5 → (physOf s (laneOf s lane).phys).rxLos = false →
    Runs (.rdiClear lane) s fun t =>
      (500 ≤ (laneOf s lane).goodFrames → (laneOf t lane).rdiTx = false ∧ (physOf t (laneOf s lane).phys).rxLof = false) ∧
        ((laneOf s lane).goodFrames < 500 → t = s)) ∧
  ((∀ (s : State) (port lane slot sq mfi : Nat) (cols : List Byte) (e : Nat × Nat × Nat × Nat × Nat), (laneOf s lane).rate = 3 →
    bit s 0x00094004 1 = true → ((laneOf s lane).xh.filter fun e => e.2.2.1 == slot) = [e] →
    memberHead s (memberBytes cols e) e = some (sq, mfi) → mget (sheafOf s e.1).frames mfi = none →
    mget (sheafOf s e.1).firstTick mfi = none → 2 ≤ sheafMembers s e.1 →
    Runs (.xhSheafRx port lane slot cols) s fun t =>
      mget (sheafOf t e.1).frames mfi = some [(sq, (memberBytes cols e).drop 16)]) ∧
  (∀ (s : State) (port lane slot : Nat) (cols : List Byte) (e : Nat × Nat × Nat × Nat × Nat), (laneOf s lane).rate = 3 →
    bit s 0x00094004 1 = true → ((laneOf s lane).xh.filter fun e => e.2.2.1 == slot) = [e] →
    memberHead s (memberBytes cols e) e = none → (sheafOf s e.1).bad < 2 → (sheafOf s e.1).badTick ≠ some s.tick →
    Runs (.xhSheafRx port lane slot cols) s fun t => (sheafOf t e.1).bad = (sheafOf s e.1).bad + 1 ∧ (sheafOf t e.1).good = 0) ∧
  ∀ (s : State) (id : Nat), (sheafOf s id).down = false →
    (3 ≤ (sheafOf s id).bad ∨ ∃ e ∈ (sheafOf s id).firstTick, e.2 + 1000 < s.tick) →
    Runs (.xhSheafDown id) s fun t => (sheafOf t id).down = true ∧ (sheafOf t id).frames = [] ∧ seen t 0x8802 = seen s 0x8802 + 1)

/-- R23, R333, R397, R398: a line block whose header is malformed is counted and dropped, one whose tag fails is counted on its port, and
a control block that passes check 6 next in its sequence advances it and is the partner's latest good block. Readings and choices of the
model that clauses rest on: log entries 135, 175 and 219. -/
def Obligations.LineBlocksAreChecked : Prop :=
  (∀ (s : State) (port : Nat) (b : List Byte), port < 4 → bit s 0x00100004 0 = true → (keysOf s port).st = 4 →
    pairBlockOk b = false → headerFault (keysOf s port) b = true →
    Runs (.lineBlockRx port b) s fun t => regVal t 0x00100040 = min (2 ^ 32 - 1) (regVal s 0x00100040 + 1) ∧
      t.line.tribs = s.line.tribs ∧ t.sec = s.sec) ∧
  (∀ (s : State) (port c : Nat) (b : List Byte), port < 4 → bit s 0x00100004 0 = true → (keysOf s port).st = 4 →
    pairBlockOk b = false → headerFault (keysOf s port) b = false → rxVintage (keysOf s port) (byteAt b 1) = some c →
    c = (keysOf s port).rxCount → lengthFault b = false →
    gcmOpen (mgetD (keysOf s port).rxKeys c []) (lineNonce (byteAt b 1) (byteAt b 2) (beAt b 32 10)) (b.take 64)
      (slice b 64 (beAt b 48 4)) (slice b (64 + beAt b 48 4) 16) = none →
    Runs (.lineBlockRx port b) s fun t =>
      regVal t (0x00100110 + port * 0x20) = min (2 ^ 32 - 1) (regVal s (0x00100110 + port * 0x20) + 1)) ∧
  ∀ (s : State) (port c : Nat) (b content : List Byte) (x : Trib), port < 4 → bit s 0x00100004 0 = true →
    (keysOf s port).st = 4 → pairBlockOk b = false → headerFault (keysOf s port) b = false →
    rxVintage (keysOf s port) (byteAt b 1) = some c → c = (keysOf s port).rxCount → lengthFault b = false →
    gcmOpen (mgetD (keysOf s port).rxKeys c []) (lineNonce (byteAt b 1) (byteAt b 2) (beAt b 32 10)) (b.take 64)
      (slice b 64 (beAt b 48 4)) (slice b (64 + beAt b 48 4) 16) = some content →
    byteAt b 0 % 16 = 2 → (partnerOf s port).paired = true → tribOf s port = some x → beAt b 16 8 = x.rxNext → x.rxDone = [] →
    Runs (.lineBlockRx port b) s fun t => (partnerOf t port).lastGood = s.tick ∧
      ∃ y, tribOf t port = some y ∧ y.rxNext = x.rxNext + 1 ∧ y.blockTick = s.tick

/-- R335, R336, R338 to R340: an ACK frees what it covers and gives the window; a NACK has what it names sent again; an ACK that is due
leaves, an open NACK is repeated and at NACK_MAX reported, and the newest block without an ACK in time is sent again once. R440, R476: a
port without control traffic for 50 ticks sends ALIVE; a control message passes while its port's bucket holds one, which it takes, and is
otherwise discarded and counted. Readings and choices of the model that clauses rest on: log entries 133, 190, 192 and 223. -/
def Obligations.LineAcknowledgementAndControl : Prop :=
  ((∀ (s : State) (port n ack rel w : Nat) (x : Trib), port < 4 → 4 ≤ n → tribOf s n = some x → x.port = port →
    Runs (.lineAckRx port n ack rel w) s fun t => ∃ y, tribOf t n = some y ∧ y.credit = w ∧
      y.acked = max x.acked (afterSeq ack) ∧ y.rel = max x.rel (afterSeq rel) ∧
      ∀ e, e ∈ y.ring ↔ e ∈ x.ring ∧ afterSeq ack ≤ e.1) ∧
  (∀ (s : State) (port n q k : Nat) (x : Trib), port < 4 → 4 ≤ n → tribOf s n = some x → x.port = port →
    Runs (.lineNackRx port n [(q, k)]) s fun t => ∃ y, tribOf t n = some y ∧ y.ring = x.ring ∧
      (∀ j, q ≤ j → j < q + k → x.acked ≤ j → j ∈ x.ring.map (·.1) → j ∈ y.resend) ∧
      regVal t (laneReg ((portAnchor s port).getD 0) 0x070) =
        min (2 ^ 32 - 1) (regVal s (laneReg ((portAnchor s port).getD 0) 0x070) + 1)) ∧
  (∀ (s : State) (n : Nat) (x : Trib), tribOf s n = some x → x.port < 4 → x.ackTick + arqAckIdle s ≤ s.tick →
    s.tick ≤ x.blockTick + 15000 → (keysOf s x.port).st = 4 → (partnerOf s x.port).paired = true →
    Runs (.lineAckIdle n) s fun t => (∃ y, tribOf t n = some y ∧ y.ackTick = s.tick ∧ y.ackDue = false) ∧
      ∃ m, (partnerOf t x.port).ctlQueue = (partnerOf s x.port).ctlQueue ++ [m] ∧ m.ty = 0x01) ∧
  (∀ (s : State) (n q : Nat) (x : Trib) (e : LineNack), tribOf s n = some x → x.port < 4 → x.rxNacks = [(q, e)] →
    nackDue s x e = true →
    Runs (.lineNackRepeat n) s fun t =>
      (∃ y, tribOf t n = some y ∧ mget y.rxNacks q = some { e with tries := e.tries + 1, tick := s.tick }) ∧
        (e.tries + 1 = arqNackMax s → seen t 0x4804 = seen s 0x4804 + 1) ∧
        (e.tries + 1 ≠ arqNackMax s → seen t 0x4804 = seen s 0x4804)) ∧
  ∀ (s : State) (n q : Nat) (x : Trib) (r : RingBlock), 4 ≤ n → tribOf s n = some x → x.ring.getLast? = some (q, r) →
    r.timed = false →
    Runs (.lineResendTimer n) s fun t =>
      (r.sentTick + rttP s x.port + 2 * arqMargin s ≤ s.tick → ∃ y, tribOf t n = some y ∧ q ∈ y.resend) ∧
        (s.tick < r.sentTick + rttP s x.port + 2 * arqMargin s → t = s)) ∧
  ((∀ (s : State) (port : Nat), port < 4 → (partnerOf s port).ctlSentTick + 50 ≤ s.tick → (keysOf s port).st = 4 →
    Runs (.controlKeepalive port) s fun t =>
      (partnerOf t port).ctlQueue = (partnerOf s port).ctlQueue ++ [⟨0x30, [2], []⟩]) ∧
  (∀ (s : State) (port : Nat), port < 4 → 1000 ≤ bucketNow s port →
    ∀ cmd ∈ [Instr.aliveRx port, Instr.rackReadyRx port],
      Runs cmd s fun t => (schedOf t (port + 1)).bucket = bucketNow s port - 1000 ∧ t.sec = s.sec ∧ t.sites = s.sites ∧
        t.line = s.line ∧ t.regs = s.regs) ∧
  ∀ (s : State) (port : Nat), port < 4 → bucketNow s port < 1000 →
    ∀ cmd ∈ [Instr.aliveRx port, Instr.rackReadyRx port],
      Runs cmd s fun t => (schedOf t (port + 1)).bucket = bucketNow s port ∧ t.sec = s.sec ∧ t.sites = s.sites ∧
        regVal t (0x001C1044 + (port + 1) * 0x1000) = min (2 ^ 32 - 1) (regVal s (0x001C1044 + (port + 1) * 0x1000) + 1))

/-- R467 to R469: at a reference frame the send stamp is kept and the report period begins anew; a sample of a port that is not the time
source shows its offset and its round trip. Readings and choices of the model that clauses rest on: log entries 239, 240 and 242. -/
def Obligations.LineTimeTransfer : Prop :=
  (∀ (s : State) (port a : Nat), port < 4 → portAnchor s port = some a →
    Runs (.timeTransferSend port) s fun t =>
      (s.tick % 1000 = 0 → s.tick < 2 ^ 32 → ∃ stamp, mget (portTimeOf t port).tx s.tick = some (stamp, s.time.steps) ∧
        t.free = s.free + 1 ∧ ∀ k, k < 5 → (lanePorts (laneOf s k)).contains port = true → (laneOf t k).snrCount = 0) ∧
      (s.tick % 1000 ≠ 0 → s.tick < 2 ^ 32 → t = s)) ∧
  ∀ (s : State) (port : Nat) (b : List Byte) (r : RxStamp) (own : Nat × Nat), port < 4 → 1000 ≤ bucketNow s port → b.length = 80 →
    byteAt b 0 = 1 → bitOf (byteAt b 1) 0 = true → b.drop 40 = List.replicate 40 255 → timeSource s ≠ port + 2 →
    rxStampOf (portTimeOf s port) (beAt b 4 4) = some r → mget (portTimeOf s port).tx (beAt b 20 4) = some own →
    (∀ n, (portTimeOf s port).peerStep = some n → n = beAt b 2 2) → own.2 = r.steps →
    Runs (.timeTransferRx port b) s fun t =>
      let t1 : Int := (own.1 : Nat)
      let t2 := ttStamp b 24
      let t3 := ttStamp b 8
      let t4 : Int := (r.stamp : Nat)
      (portTimeOf t port).theta =
          ((t4 - t3) - (t2 - t1) + signExt 32 (regVal s (0x00020100 + port * 0x10)) * 2 ^ 16 / 1000) / 2 ∧
        (lportOf t port).rtt = ceilDiv ((t4 - t1) - (t3 - t2)).toNat (2000 * 65536) + 4 ∧
        (portTimeOf t port).peerStep = some (beAt b 2 2)

/-- R358, R359: when a second of the time counter has ended every scope's running second begins anew, severely errored ones counted in a
row; when a quarter of an hour or a day has ended every scope has a running bin that starts there. Readings and choices of the model that
clauses rest on: log entry 189. -/
def Obligations.MonitoringSecondsAndBins : Prop :=
  (∀ s : State, bit s 0x00094014 0 = true →
    Runs .pmSecond s fun t =>
      (s.line.pmSec < s.time.sec → t.line.pmSec = s.time.sec ∧ ∀ k, k < 5 → ∃ y, mget t.line.seconds k = some y ∧
        y.frames = 0 ∧ y.badFrames = 0 ∧
        let x := mgetD s.line.seconds k PmSecond.zero
        let p := physOf s (laneOf s k).phys
        let ses := x.defect || p.rxLos || p.rxLof || p.txFailed || (decide (0 < x.frames) && decide (15 * x.frames ≤ 100 * x.badFrames))
        y.badStreak = if ses then x.badStreak + 1 else 0) ∧
      (s.time.sec ≤ s.line.pmSec → t = s)) ∧
  ∀ (s : State) (kind : Nat), kind < 2 → bit s 0x00094014 0 = true →
    Runs (.pmBinRollover kind) s fun t => ∀ k ∈ pmScopes s, ∃ b, binOf t k kind = some b ∧ b.start = binStart kind s.time.sec

/-- R374 to R378, R384, R386, R505: a loop failure and a loss of signal declare the side of a lane failed, once, with event and count;
what the monitors read is shown; a context not heard is given up; two readings of both monitors that disagree blank the lane, and so does
a far check not passed in time; a relock unblanks it, and a lane whose loops hold again has recovered. Readings and choices of the model
that clauses rest on: log entries 5, 194, 205, 209 and 211. -/
def Obligations.OpticalLaneFaults : Prop :=
  (∀ (s : State) (n : Nat), n < 5 → (physOf s n).txFailed = false →
    Runs (.loopFail n) s fun t => (physOf t n).txFailed = true ∧ (physOf t n).failTick = some s.tick ∧
      seen t 0x8901 = seen s 0x8901 + 1 ∧ regVal t 0x000CA050 = min (2 ^ 32 - 1) (regVal s 0x000CA050 + 1)) ∧
  (∀ (s : State) (n : Nat), n < 5 → (physOf s n).rxLos = false → logicalOf s n < 5 →
    Runs (.lossOfSignal n) s fun t => (physOf t n).rxLos = true ∧ (laneOf t (logicalOf s n)).rdiTx = true ∧
      (laneOf t (logicalOf s n)).rxUp = false ∧ seen t 0x8901 = seen s 0x8901 + 1 ∧
      regVal t (0x000C0044 + n * 0x2000) = min (2 ^ 32 - 1) (regVal s (0x000C0044 + n * 0x2000) + 1)) ∧
  (∀ (s : State) (n : Nat), n < 5 → Runs (.signalReturn n) s fun t => physOf t n = { physOf s n with rxLos := false }) ∧
  (∀ (s : State) (n : Nat) (r : LaneReading), n < 5 →
    Runs (.monitorRead n true r) s fun t => (physOf t n).measPwr = r.power ∧ (physOf t n).loOut = r.loOut ∧
      (physOf t n).voa = r.voa ∧ (physOf t n).biasTx = r.biasTx % 2 ^ 12 ∧ (physOf t n).biasLo = r.biasLo % 2 ^ 12 ∧
      (physOf t n).stages = (List.range 6).map fun i => clampInt (r.stages.getD i 0) (-128) 127) ∧
  (∀ (s : State) (n port far : Nat), n < 5 →
    Runs (.contextRelearn n port far) s fun t => ∀ c, c ∈ (physOf t n).contexts ↔
      c ∈ (physOf s n).contexts ∧ ¬ (c.1 = port ∧ c.2.1 = far ∧ c.2.2 + 500000 ≤ s.tick)) ∧
  (∀ (s : State) (n : Nat) (l1 c1 l2 c2 : Int), n < 5 → (physOf s n).blanked = false →
    let apart := (15000 < l1 - c1 ∨ 15000 < c1 - l1) ∧ (15000 < l2 - c2 ∨ 15000 < c2 - l2)
    Runs (.wrongWavelengthLocal n l1 c1 l2 c2) s fun t =>
      (apart → (physOf t n).blanked = true ∧ seen t 0x8902 = seen s 0x8902 + 1 ∧
        regVal t 0x000CA04C = min (2 ^ 32 - 1) (regVal s 0x000CA04C + 1)) ∧
      (¬ apart → (physOf t n).blanked = false ∧ t.regs = s.regs ∧ t.flt = s.flt)) ∧
  (∀ (s : State) (n e : Nat), n < 5 → (physOf s n).blanked = false → (physOf s n).farBy = some e →
    Runs (.relockFarCheck n) s fun t =>
      (e ≤ s.tick → (physOf t n).blanked = true ∧ (physOf t n).farBy = none ∧ seen t 0x8902 = seen s 0x8902 + 1) ∧
        (s.tick < e → t = s)) ∧
  (∀ (s : State) (n : Nat), n < 5 → bit s 0x000CA004 3 = true → (physOf s n).blanked = true → (physOf s n).retired = false →
    Runs (.relockDone n) s fun t => (physOf t n).blanked = false ∧ (physOf t n).txFailed = false ∧ (physOf t n).locked = true ∧
      regVal t (0x000C0048 + n * 0x2000) = min (2 ^ 32 - 1) (regVal s (0x000C0048 + n * 0x2000) + 1)) ∧
  ∀ (s : State) (n : Nat), n < 5 → (physOf s n).retired = false → (physOf s n).blanked = false →
    Runs (.laneRecovery n) s fun t => (physOf t n).txFailed = false ∧ (physOf t n).failTick = none

/-- R380 to R383, R505: every minute a lane's mean joins its history; a swap goes from tuning to training, or to the swap set at once,
from a good training to the swap set, and is set again without its guard; a spare that does not tune, or does not train, ends it, and the
evaluation is repeated after an hour; a lane failed for a second is taken over. Readings and choices of the model that clauses rest on:
log entries 197, 206, 207, 208 and 212. -/
def Obligations.SpareSwaps : Prop :=
  (∀ s : State, s.opt.fadeTick + 30000000 ≤ s.tick →
    Runs .fadeEvaluation s fun t => t.opt.fadeTick = s.tick ∧ ∀ n, n < 5 → (physOf t n).marginCount = 0 ∧
      (physOf t n).biasCount = 0 ∧
      ((physOf s n).reported = true → 0 < (physOf s n).marginCount → 0 < (physOf s n).biasCount →
        (physOf t n).means = (((((physOf s n).biasTxSum / (physOf s n).biasCount : Nat) : Int),
          (((physOf s n).biasLoSum / (physOf s n).biasCount : Nat) : Int),
          (physOf s n).marginSum / ((physOf s n).marginCount : Nat)) :: (physOf s n).means).take 2880)) ∧
  (∀ (s : State) (w : Swap), s.opt.swap = some w → w.step ≤ 2 → w.spare < 5 →
    Runs .spareTuneDone s fun t => (physOf t w.spare).txChannel = vget s.opt.channels w.lane 0xFFFF ∧
      (physOf t w.spare).loChannel = vget s.opt.channels w.lane 0xFFFF ∧
      t.opt.swap = some { w with step := if w.short then 5 else 3, tick := s.tick }) ∧
  (∀ (s : State) (w : Swap), s.opt.swap = some w → w.step ≤ 2 →
    Runs .spareTuneTimeout s fun t =>
      (w.tick + 5000000 ≤ s.tick → t.opt.swap = none ∧ t.opt.retryAt = some (s.tick + 1800000000) ∧
        seen t 0x4902 = seen s 0x4902 + 1 ∧ regVal t 0x000CA048 = min (2 ^ 32 - 1) (regVal s 0x000CA048 + 1)) ∧
      (s.tick < w.tick + 5000000 → t = s)) ∧
  (∀ (s : State) (w : Swap), s.opt.swap = some w → w.step = 4 → w.tick + 50000 ≤ s.tick →
    let good := 0 < w.count ∧ 200 ≤ w.sum / (max 1 w.count : Nat) ∧ (physOf s w.old).margin ≤ w.sum / (max 1 w.count : Nat)
    Runs .spareTrainingEnd s fun t =>
      (good → t.opt.swap = some { w with step := 5, tick := s.tick }) ∧
        (¬ good → w.tick + 250000 ≤ s.tick → t.opt.swap = none ∧ seen t 0x4902 = seen s 0x4902 + 1) ∧
        (¬ good → s.tick < w.tick + 250000 → t = s)) ∧
  (∀ (s : State) (e : Nat), s.opt.retryAt = some e → e ≤ s.tick → Runs .swapRetryEval s fun t => t.opt.retryAt = none) ∧
  (∀ (s : State) (w : Swap), s.opt.swap = some w → w.step = 7 → w.lane < 5 → (laneOf s w.lane).rate ≠ 3 →
    (∀ n, n < 5 → (laneOf s n).standby = none) →
    Runs .swapGuardRecommit s fun t => t.line.autoCommit = 5 ∧
      (laneOf t w.lane).standby = some (pageWith (newPageId s) 0 w.lane w.page)) ∧
  ∀ (s : State) (n e sp : Nat) (p : List Byte), (physOf s n).txFailed = true → (physOf s n).failTick = some e →
    e + 500000 ≤ s.tick → bit s 0x000CA004 2 = true → logicalOf s n < 5 → s.opt.swap = none → freeSpare s = some sp →
    (laneOf s (logicalOf s n)).active = some p →
    Runs (.failedLaneTakeover n) s fun t => ∃ w, t.opt.swap = some w ∧ w.lane = logicalOf s n ∧
      w.old = (laneOf s (logicalOf s n)).phys ∧ w.spare = sp ∧ w.step = 1 ∧ w.tick = s.tick ∧ w.short = true ∧ w.page = p

/-- R412 to R415: pairing: P-HELLO leaves and is repeated, a partner's that passes the checks is answered with P-ENCAP, a P-ENCAP whose
signature holds with the first keys of both directions, the expected P-CONFIRM completes it, and whatever fails ends the attempt with its
reason; after the back-off, and when no block has passed for 2,000 ticks, a new attempt begins. Readings and choices of the model that
clauses rest on: log entries 9, 213, 214, 215 and 216. -/
def Obligations.Pairing : Prop :=
  (∀ (s : State) (p : Nat), p < 4 → s.flt.vintnerUp = true → bit s 0x00100004 0 = true → hasPartner s p = true →
    Runs (.pHelloRepeat p) s fun t =>
      ((keysOf s p).st = 0 → (keysOf t p).st = 1 ∧ (keysOf t p).helloTick = s.tick ∧ (partnerOf t p).paired = false ∧
        (partnerOf t p).ctlQueue = (partnerOf s p).ctlQueue ++ [⟨0x60, [], (keysOf t p).hello⟩]) ∧
      ((keysOf s p).st = 1 → (keysOf s p).helloTick + 1000 ≤ s.tick → (keysOf t p).helloTick = s.tick ∧
        (partnerOf t p).ctlQueue = (partnerOf s p).ctlQueue ++ [⟨0x60, [], (keysOf s p).hello⟩])) ∧
  (∀ (s : State) (p : Nat) (b : List Byte), p < 4 → s.flt.vintnerUp = true → bit s 0x00100004 0 = true → (keysOf s p).st = 1 →
    Runs (.pHelloRx p b) s fun t =>
      (helloFault s p b = none → (keysOf t p).st = 2 ∧ (keysOf t p).helloRx = b ∧ (keysOf t p).newId = pHelloId b ∧
        (keysOf t p).initiator = bytesLt (ownId s) (pHelloId b) ∧
        (partnerOf t p).ctlQueue = (partnerOf s p).ctlQueue ++ [⟨0x60, [], (keysOf t p).encap⟩]) ∧
      ∀ e, helloFault s p b = some e → (keysOf t p).st = 5 ∧ (keysOf t p).lastFail = e ∧ seen t 0x8A01 = seen s 0x8A01 + 1 ∧
        regVal t 0x00100054 = min (2 ^ 32 - 1) (regVal s 0x00100054 + 1)) ∧
  (∀ (s : State) (p : Nat) (b : List Byte), p < 4 → s.flt.vintnerUp = true → (keysOf s p).st = 2 →
    let k := keysOf s p
    let good := b.length = 2849 ∧ Config.falconVerify (certKey (chainLeaf (pHelloChain k.helloRx)))
      (shake256 (hellos k ++ slice b 1 1568) 64) (slice b 1569 1280) = true
    Runs (.pEncapRx p b) s fun t =>
      (good → (keysOf t p).st = 3 ∧ (keysOf t p).txCount = 1 ∧ (keysOf t p).rxCount = 1 ∧ (keysOf t p).txCounters = [] ∧
        (keysOf t p).txKeys = [(1, vintageKey (keysOf t p).txVs)] ∧ (keysOf t p).rxKeys = [(1, vintageKey (keysOf t p).rxVs)]) ∧
      (¬ good → (keysOf t p).st = 5 ∧ (keysOf t p).lastFail = 6)) ∧
  (∀ (s : State) (p : Nat) (b : List Byte), p < 4 → s.flt.vintnerUp = true → (keysOf s p).st = 3 →
    Runs (.pConfirmRx p b) s fun t =>
      (b = [3] ++ (keysOf s p).confirm → (keysOf t p).st = 4 ∧ (keysOf t p).fails = 0 ∧ (partnerOf t p).paired = true ∧
        (keysOf t p).partnerId = (keysOf s p).newId ∧ (partnerOf t p).ctlNext = 0 ∧
        regVal t 0x00100050 = min (2 ^ 32 - 1) (regVal s 0x00100050 + 1)) ∧
      (b ≠ [3] ++ (keysOf s p).confirm → (keysOf t p).st = 5 ∧ (keysOf t p).lastFail = 7)) ∧
  (∀ (s : State) (p : Nat), p < 4 → s.flt.vintnerUp = true → ((keysOf s p).st = 2 ∨ (keysOf s p).st = 3) →
    Runs (.pairingTimeout p) s fun t =>
      ((keysOf s p).stepTick + 500000 + rttP s p ≤ s.tick → (keysOf t p).st = 5 ∧ (keysOf t p).lastFail = 8 ∧
        (keysOf t p).fails = (keysOf s p).fails + 1) ∧
      (s.tick < (keysOf s p).stepTick + 500000 + rttP s p → t = s)) ∧
  (∀ (s : State) (p : Nat), p < 4 → s.flt.vintnerUp = true → bit s 0x00100004 0 = true → (keysOf s p).st = 5 →
    Runs (.pairingRetry p) s fun t =>
      ((keysOf s p).retryAt ≤ s.tick → (keysOf t p).st = 1) ∧ (s.tick < (keysOf s p).retryAt → t = s)) ∧
  ∀ (s : State) (p : Nat), p < 4 → s.flt.vintnerUp = true → bit s 0x00100004 1 = true → (keysOf s p).st = 4 →
    (keysOf s p).framesArrive = true →
    Runs (.repairNoBlock p) s fun t =>
      ((partnerOf s p).lastGood + 2000 ≤ s.tick → (keysOf t p).st = 1 ∧ (partnerOf t p).paired = false) ∧
        (s.tick < (partnerOf s p).lastGood + 2000 → t = s)

/-- R402 to R406: a racking that is due derives the next vintage and names its switch edge, at which it is current; an ANNOUNCE whose
check value agrees is readied and one that does not is reported; the previous vintage's key goes when its window closes. Readings and
choices of the model that clauses rest on: log entries 3 and 217. -/
def Obligations.Racking : Prop :=
  (∀ (s : State) (p : Nat), p < 4 → rackDue s p = true →
    Runs (.rackingBegin p) s fun t =>
      (keysOf t p).racking = some (s.tick + rttP s p + rackLead s) ∧ (keysOf t p).txCount = (keysOf s p).txCount ∧
        (keysOf t p).txVs = nextVs (keysOf s p).txVs (keysOf s p).txCount ∧
        mget (keysOf t p).txKeys ((keysOf s p).txCount + 1) = some (vintageKey (keysOf t p).txVs)) ∧
  (∀ (s : State) (p e : Nat), p < 4 → (keysOf s p).racking = some e →
    Runs (.rackSwitch p) s fun t =>
      (e ≤ s.tick → (keysOf t p).txCount = (keysOf s p).txCount + 1 ∧ (keysOf t p).txBlocks = 0 ∧ (keysOf t p).racking = none ∧
        seen t 0x1A01 = seen s 0x1A01 + 1 ∧ regVal t 0x0010004C = min (2 ^ 32 - 1) (regVal s 0x0010004C + 1)) ∧
      (s.tick < e → t = s)) ∧
  (∀ (s : State) (p kcv : Nat), p < 4 → 1000 ≤ bucketNow s p → (keysOf s p).st = 4 → (keysOf s p).rxNext = false →
    let v := nextVs (keysOf s p).rxVs (keysOf s p).rxCount
    Runs (.announceRx p (1 - txDir (keysOf s p)) ((keysOf s p).rxCount + 1) kcv) s fun t =>
      (vintageKcv v = kcv → (keysOf t p).rxNext = true ∧ (keysOf t p).rxVs = v ∧
        mget (keysOf t p).rxKeys ((keysOf s p).rxCount + 1) = some (vintageKey v) ∧
        ∃ m, (partnerOf t p).ctlQueue = (partnerOf s p).ctlQueue ++ [m] ∧ m.ty = 0x50 ∧ byteAt m.body 0 = 2) ∧
      (vintageKcv v ≠ kcv → seen t 0x8A04 = seen s 0x8A04 + 1)) ∧
  ∀ (s : State) (p e : Nat), p < 4 → (keysOf s p).window = some e →
    Runs (.vintageWindowClose p) s fun t =>
      (e ≤ s.tick → (keysOf t p).window = none ∧ ∀ x, x ∈ (keysOf t p).rxKeys ↔ x ∈ (keysOf s p).rxKeys ∧ (keysOf s p).rxCount ≤ x.1) ∧
        (s.tick < e → t = s)

/-- R477, R490 to R494: a READY gateway's DIGEST leaves every 1,000 ticks; a partner's is compared, and so is its list of groups; a
difference that stands fences the port's groups; a partner of which no block has passed for 250 ticks is link-down. Readings and choices
of the model that clauses rest on: log entries 246, 247, 248 and 249. -/
def Obligations.ConfigurationDigests : Prop :=
  (∀ (s : State) (p : Nat), p < 4 → s.bru.ready = true → (keysOf s p).st = 4 → (partnerOf s p).paired = true →
    Runs (.digestSend p) s fun t =>
      ((partnerOf s p).digestTick ≤ s.tick → (partnerOf t p).digestTick = s.tick + 1000 ∧
        (partnerOf t p).ctlQueue = (partnerOf s p).ctlQueue ++ [⟨0x30, [], digestBody s p⟩]) ∧
      (s.tick < (partnerOf s p).digestTick → t = s)) ∧
  (∀ (s : State) (p level : Nat) (scope groups : List Byte), p < 4 → 1000 ≤ bucketNow s p → (keysOf s p).st = 4 →
    (partnerOf s p).paired = true →
    Runs (.digestRx p level scope groups) s fun t =>
      let a := noteLevel level s
      (partnerOf t p).compared = true ∧ (partnerOf t p).linkDown = false ∧ (partnerOf t p).level = min (partnerOf s p).level level ∧
        (partnerOf t p).agreedAll = (groups == groupsDigest a p) ∧
        (scope = scopeDigest a p → (partnerOf t p).scopeSince = none) ∧
        (scope ≠ scopeDigest a p → (partnerOf t p).scopeSince = some ((partnerOf s p).scopeSince.getD s.tick))) ∧
  (∀ (s : State) (p : Nat) (entries : List (Nat × Nat × List Byte)), p < 4 → 1000 ≤ bucketNow s p → (keysOf s p).st = 4 →
    (partnerOf s p).paired = true →
    Runs (.digestListRx p entries) s fun t =>
      (partnerOf t p).agreed = ((portGroups s p).filter fun g =>
        groupAgrees s g.1 g.2 ((entries.filter fun e => e.1 == g.2.group).map (·.2))).map (·.2.group)) ∧
  (∀ (s : State) (p e : Nat), p < 4 → (partnerOf s p).scopeFenced = false → (partnerOf s p).scopeSince = some e →
    (partnerOf s p).groupSince = [] →
    Runs (.configFence p) s fun t =>
      (e + rttP s p + 2000 ≤ s.tick → (partnerOf t p).scopeFenced = true ∧ seen t 0x8E03 = seen s 0x8E03 + 1 ∧
        regVal t 0x000940B0 = min (2 ^ 32 - 1) (regVal s 0x000940B0 + (portGroups s p).length)) ∧
      (s.tick < e + rttP s p + 2000 → t = s)) ∧
  ∀ (s : State) (p : Nat), p < 4 → (partnerOf s p).linkDown = false →
    Runs (.partnerLinkDown p) s fun t =>
      ((partnerOf s p).lastGood + 250 ≤ s.tick → (partnerOf t p).linkDown = true ∧ (partnerOf t p).paired = false ∧
        (partnerOf t p).compared = false ∧ seen t 0x4E01 = seen s 0x4E01 + 1 ∧
        ∀ c, c < 8 → (bslot t (2 + p) c).offer = none) ∧
      (s.tick < (partnerOf s p).lastGood + 250 → t = s)

/-- R169, R197, R202, R479, R480, R485, R499: the sites behind a silent far member are declared absent, with the event for each and the
start of the episode; the limit on fallow is reached once; a SITE-STATE is taken over and acknowledged, and the awaited SITE-ACK lets
blocks start; notices wait for the next edge; a PROMOTE names the device and the grace. Readings and choices of the model that clauses
rest on: log entries 253, 254, 256 and 257. -/
def Obligations.SitesApart : Prop :=
  (∀ (s : State) (g rank : Nat) (r : GroupRec) (b : GroupTable) (m : Member), s.coll.groups = [(g, r)] → r.current = some b →
    s.coll.insts = [] → s.sites.silo = [] → farRanks b = [(rank, m)] → m.endpoint < 4 →
    g ∉ (partnerOf s m.endpoint).lost → silentPort s m.endpoint (absenceTicks b) = true →
    mgetD (partnerOf s m.endpoint).reported g 0 = 0 → absentMask s g = 0 →
    Runs .siteAbsent s fun t =>
      let now := maskMinus (m.coveredSites &&& b.sites) (siteBit b.localSite)
      absentMask t g = now ∧ g ∈ (partnerOf t m.endpoint).lost ∧ (now ≠ 0 → (groupSites t g).episode = some s.tick) ∧
        seen t 0x8E01 = seen s 0x8E01 + (sitesOf now).length) ∧
  (∀ (s : State) (g e : Nat) (r : GroupRec) (b : GroupTable), s.coll.groups = [(g, r)] → r.current = some b → b.apart = true →
    (groupSites s g).limitRaised = false → (groupSites s g).episode = some e →
    Runs .fallowLimit s fun t =>
      (e + fallowTicks b ≤ s.tick → (groupSites t g).hold = true ∧ (groupSites t g).limitRaised = true ∧
        seen t 0x8E02 = seen s 0x8E02 + 1) ∧
      (s.tick < e + fallowTicks b → t = s)) ∧
  (∀ (s : State) (p line : Nat) (g : Nat × Nat) (gs seqs : List (Nat × Nat)), p < 4 → 1000 ≤ bucketNow s p →
    (∀ x ∈ gs, x.1 ≠ g.1) →
    Runs (.siteStateRx p (g :: gs) seqs line) s fun t => mget (partnerOf t p).reported g.1 = some g.2 ∧
      (partnerOf t p).ctlQueue = (partnerOf s p).ctlQueue ++ [⟨0x30, [5, g.1, line], []⟩]) ∧
  (∀ (s : State) (p g line : Nat), p < 4 → 1000 ≤ bucketNow s p →
    Runs (.siteAckRx p g line) s fun t =>
      ((partnerOf s p).await = some (g, line) → (partnerOf t p).holds = [] ∧ (partnerOf t p).await = none) ∧
        ((partnerOf s p).await ≠ some (g, line) → t.sites = s.sites)) ∧
  (∀ (s : State) (p g ep i h sites : Nat) (f : Bool),
    Runs (.launchNoticeRx p g ep i h f sites) s fun t =>
      t.host.arrivals = s.host.arrivals ++ [.launchNotice p g ep i h f sites] ∧ t.coll = s.coll) ∧
  (∀ (s : State) (p g i c site : Nat),
    Runs (.abortNoticeRx p g i c site) s fun t =>
      t.host.arrivals = s.host.arrivals ++ [.abortNotice p g i c site] ∧ t.coll = s.coll) ∧
  (∀ (s : State) (p g i : Nat),
    Runs (.fenceClearRx p g i) s fun t => t.host.arrivals = s.host.arrivals ++ [.fenceClear p g i] ∧ t.coll = s.coll) ∧
  ∀ (s : State) (p at_ : Nat) (d : List Byte), p < 4 → 1000 ≤ bucketNow s p →
    Runs (.promoteRx p d at_) s fun t => (partnerOf t p).graceDevice = fixLen 8 d ∧
      (partnerOf t p).graceUntil = s.tick + ticksUntil s at_ + fld1 s 0x00094080 16 8 * 500000

/-- R235 to R240: the messages of a blend's handshake: a valid offer is held as pending, or replaces the current blend of a class that
resynchronises; the answer to one's own offer accepts or ends it; a switch makes the pending blend current and a retirement frees the
previous slot; a resynchronisation asked for offers the current table again. R238, R241, R244: an offer without an answer in time is
withdrawn; a resynchronisation not completed in time has failed, and the third failure in a row holds the class raw; at the end of a
policy window the counters of the encoding contexts are cleared. Readings and choices of the model that clauses rest on: log entries 137,
138, 139, 140 and 141. -/
def Obligations.BlendHandshakes : Prop :=
  ((∀ (s : State) (p : Nat) (l : List Byte), p < 4 → 1000 ≤ bucketNow s p →
    let b := Blend.ofBytes l
    Runs (.blendOfferRx p false l) s fun t =>
      (offerReject (bslot s (6 + p) b.cls) l = none → (bslot t (6 + p) b.cls).pending = some b ∧
        (bslot t (6 + p) b.cls).current = (bslot s (6 + p) b.cls).current ∧
        (partnerOf t p).ctlQueue = (partnerOf s p).ctlQueue ++ [⟨0x21, [], blendName b⟩]) ∧
      ∀ r, offerReject (bslot s (6 + p) b.cls) l = some r → t.cmp = s.cmp ∧
        (partnerOf t p).ctlQueue = (partnerOf s p).ctlQueue ++ [⟨0x22, [], blendName b ++ [byte r]⟩]) ∧
  (∀ (s : State) (p : Nat) (l : List Byte), p < 4 → 1000 ≤ bucketNow s p → blendReservedOk l = true →
    (Blend.ofBytes l).valid = true →
    Runs (.blendOfferRx p true l) s fun t =>
      let b := Blend.ofBytes l
      (bslot t (6 + p) b.cls).current = some b ∧ (bslot t (6 + p) b.cls).previous = none ∧
        (bslot t (6 + p) b.cls).pending = none ∧ (bslot t (6 + p) b.cls).resync = false ∧ seen t 0x1602 = seen s 0x1602 + 1) ∧
  (∀ (s : State) (p c id dig : Nat) (o : Offer), p < 4 → c < 8 → 1000 ≤ bucketNow s p → (bslot s (2 + p) c).offer = some o →
    namesOffer o id dig = true →
    Runs (.blendAcceptRx p c id dig) s fun t =>
      (o.origin = 3 → (bslot t (2 + p) c).offer = none ∧ (bslot t (2 + p) c).resync = false ∧
        (bslot t (2 + p) c).rawCoding = false) ∧
      (o.origin ≠ 3 → (bslot t (2 + p) c).offer = some { o with accepted := true, mbx := none } ∧
        ∀ m, m < 8 → o.mbx = some m → Answered s t m 0 0 [])) ∧
  (∀ (s : State) (p c id dig r : Nat) (o : Offer), p < 4 → c < 8 → 1000 ≤ bucketNow s p → (bslot s (2 + p) c).offer = some o →
    namesOffer o id dig = true →
    Runs (.blendRejectRx p c id dig r) s fun t => (bslot t (2 + p) c).offer = none ∧
      ∀ m, m < 8 → o.mbx = some m → Answered s t m 6 r []) ∧
  (∀ (s : State) (p c id : Nat) (seqs : List (Nat × Nat)) (b : Blend), p < 4 → c < 8 → 1000 ≤ bucketNow s p →
    (bslot s (6 + p) c).pending = some b → b.id = id →
    Runs (.blendSwitchRx p c id seqs) s fun t => (bslot t (6 + p) c).current = some b ∧ (bslot t (6 + p) c).pending = none ∧
      seen t 0x1602 = seen s 0x1602 + 1) ∧
  (∀ (s : State) (p c id : Nat) (b : Blend), p < 4 → c < 8 → 1000 ≤ bucketNow s p → (bslot s (2 + p) c).previous = some b →
    b.id = id →
    Runs (.blendRetireAckRx p c id) s fun t => (bslot t (2 + p) c).previous = none ∧
      (bslot t (2 + p) c).current = (bslot s (2 + p) c).current ∧ seen t 0x1603 = seen s 0x1603 + 1) ∧
  ∀ (s : State) (p c : Nat) (b : Blend), p < 4 → c < 8 → 1000 ≤ bucketNow s p → (bslot s (2 + p) c).current = some b →
    (bslot s (2 + p) c).resync = false → (bslot s (2 + p) c).rawHold = false →
    Runs (.blendResyncRx p c) s fun t => (bslot t (2 + p) c).resync = true ∧ (bslot t (2 + p) c).resyncTick = s.tick ∧
      (bslot t (2 + p) c).offer = some ⟨b, s.tick, 3, none, false, false⟩) ∧
  ((∀ (s : State) (c x : Nat) (b : BSlot) (o : Offer), c < 6 → x < 8 → s.cmp = [(c * 8 + x, b)] → b.offer = some o → o.sent = true →
    o.accepted = false → o.origin ≠ 3 →
    Runs .blendHandshakeTimeout s fun t =>
      (o.tick + hsTimeout s ≤ s.tick → (bslot t c x).offer = none ∧ seen t 0x4602 = seen s 0x4602 + 1 ∧
        regVal t 0x00140068 = min (2 ^ 32 - 1) (regVal s 0x00140068 + 1)) ∧
      (s.tick < o.tick + hsTimeout s → t = s)) ∧
  (∀ (s : State) (p x : Nat) (b : BSlot), p < 4 → x < 8 → s.cmp = [((2 + p) * 8 + x, b)] → b.resync = true →
    Runs .resyncTimeout s fun t =>
      (b.resyncTick + hsTimeout s ≤ s.tick → (bslot t (2 + p) x).resync = false ∧
        (bslot t (2 + p) x).resyncFails = b.resyncFails + 1 ∧ (bslot t (2 + p) x).rawHold = decide (2 ≤ b.resyncFails) ∧
        (2 ≤ b.resyncFails → seen t 0x8601 = seen s 0x8601 + 1)) ∧
      (s.tick < b.resyncTick + hsTimeout s → t = s)) ∧
  ∀ s : State, s.tick % policyWindow s = 0 → fld s 0x00140010 0 2 ≠ 0 → bit s 0x00140004 1 = false →
    Runs .blendPolicyWindow s fun t => ∀ c x, c < 6 → x < 8 → (bslot t c x).counts = [])

/-- R250, R251, R256, R259 to R261: a request is answered with a cask of the smallest class that holds it, from SRAM first and then from
DRAM, or refused; a pointer that fails the port's checks is counted and reported; a granted cask is freed once; what is written into a
cask is in its memory. Readings and choices of the model that clauses rest on: log entries 24, 25 and 157. -/
def Obligations.Casks : Prop :=
  (∀ (s : State) (n c i : Nat) (p : CaskPart), caskClass n = some c → (caskCls s c).refuse = false →
    (caskCls s c).sram.grant = some (i, p) →
    Runs (.caskRequest n false 0) s fun t => (caskCls t c).sram = p ∧ (caskCls t c).dram = (caskCls s c).dram ∧
      ∃ l, t.out = .answer [caskPtr c 0 i] :: l) ∧
  (∀ (s : State) (n c i : Nat) (d : Bool) (p : CaskPart), caskClass n = some c → ((caskCls s c).refuse = false ∨ d = true) →
    (d = true ∨ (caskCls s c).sram.grant = none) → (caskCls s c).dram.grant = some (i, p) →
    Runs (.caskRequest n d 0) s fun t => (caskCls t c).dram = p ∧ (caskCls t c).sram = (caskCls s c).sram ∧
      ∃ l, t.out = .answer [caskPtr c 1 i] :: l) ∧
  (∀ (s : State) (n c : Nat), caskClass n = some c → (caskCls s c).refuse = true →
    Runs (.caskRequest n false 0) s fun t => t.out = .nack :: s.out ∧ t.cellar = s.cellar ∧
      regVal t (0x0018010C + c * 0x10) = min (2 ^ 32 - 1) (regVal s (0x0018010C + c * 0x10) + 1)) ∧
  (∀ (s : State) (p from_ : Nat), caskPortCheck s p 0 (caskSize (ptrClass p)) = none →
    Runs (.caskFree p from_) s fun t =>
      (ptrIndex p ∈ (ptrPool s p).granted → (ptrPool t p).granted = (ptrPool s p).granted.erase (ptrIndex p) ∧
        (ptrPool t p).freed = (ptrPool s p).freed ++ [ptrIndex p]) ∧
      (ptrIndex p ∉ (ptrPool s p).granted → t.cellar = s.cellar ∧ seen t 0x8702 = seen s 0x8702 + 1 ∧
        regVal t 0x00180044 = min (2 ^ 32 - 1) (regVal s 0x00180044 + 1))) ∧
  (∀ (s : State) (p from_ k : Nat), caskPortCheck s p 0 (caskSize (ptrClass p)) = some k →
    Runs (.caskFree p from_) s fun t => t.cellar = s.cellar ∧ seen t 0x8701 = seen s 0x8701 + 1 ∧
      regVal t 0x00180040 = min (2 ^ 32 - 1) (regVal s 0x00180040 + 1)) ∧
  (∀ (s : State) (p off from_ : Nat) (d : List Byte) (u : WordUse), caskPortCheck s p off d.length = none → d.length % 4 = 0 →
    Runs (.caskAccess p off 0 (some d) from_ [] u) s fun t =>
      (ptrPart p = 1 → (∀ i, i < d.length → dramByte t (caskAddr p + off + i) = d.getD i 0) ∧
        ∀ a, (a < caskAddr p + off ∨ caskAddr p + off + d.length ≤ a) → dramByte t a = dramByte s a) ∧
      (ptrPart p ≠ 1 → (∀ i, i < d.length → cellGet t.mem.sram (caskAddr p + off + i) = d.getD i 0) ∧ t.mem.dram = s.mem.dram)) ∧
  (∀ (s : State) (p off n from_ : Nat) (u : WordUse), caskPortCheck s p off n = none →
    (∀ i, i < (n + 3) / 4 → ∃ d, caskWord s p (off + 4 * i) 0 = .clean d) →
    Runs (.caskAccess p off n none from_ [] u) s fun t => t.mem = s.mem ∧ t.regs = s.regs ∧ ∃ l, l.length = n ∧
      t.out = .answer l :: s.out) ∧
  ∀ (s : State) (p off n from_ k : Nat) (d : List Byte) (u : WordUse), caskPortCheck s p off d.length = some k →
    Runs (.caskAccess p off n (some d) from_ [] u) s fun t => t.mem = s.mem ∧ seen t 0x8701 = seen s 0x8701 + 1

/-- R264 to R268, R278 to R280: a burst of clean words is answered as it is stored, one flipped bit is corrected and counted, an address
at or above the end of usable DRAM stops; a pass of gleaning counts its groups and corrects in place, is urgent when its period has gone
by, and ends with its event. R271 to R273: a drifted channel retrains, one at a time; a retraining that ends well clears the failures, the
third failure in a row loses the channel, which is fatal; MR4 gives the refresh rate and the temperature of a package's four channels.
Readings and choices of the model that clauses rest on: log entries 23, 26, 149 and 155. -/
def Obligations.MemoryAndChannels : Prop :=
  ((∀ (s : State) (a : Nat) (u : WordUse), a < 0xD693A40000 → a % 64 = 0 →
    (∀ i, i < 16 → (a + 4 * i) ∉ s.mem.poison) →
    Runs (.dramRead a a [] u) s fun t => t.out = .answer ((List.range 16).map fun i => wordAt s (a + 4 * i)) :: s.out ∧
      t.mem = s.mem ∧ t.regs = s.regs) ∧
  (∀ (s : State) (a i k : Nat) (u : WordUse), a < 0xD693A40000 → a % 64 = 0 → i < 16 → k < 39 →
    (∀ i, i < 16 → (a + 4 * i) ∉ s.mem.poison) →
    Runs (.dramRead a a [(i, 2 ^ k)] u) s fun t =>
      t.out = .answer ((List.range 16).map fun i => wordAt s (a + 4 * i)) :: s.out ∧ t.mem = s.mem ∧
        regVal t 0x00300040 = min (2 ^ 32 - 1) (regVal s 0x00300040 + 1)) ∧
  (∀ (s : State) (a b : Nat) (f : List (Nat × Nat)) (u : WordUse), 0xD693A40000 ≤ a →
    exec (.dramRead a b f u) s = .fault .dramAddressOutside) ∧
  (∀ (s : State) (a row : Nat), bit s 0x00300004 0 = true → a < 0xD693A40000 →
    Runs (.gleanGroup a [] row) s fun t => t.mem.gleanGroups = s.mem.gleanGroups + 1 ∧ t.mem.gleanCe = s.mem.gleanCe ∧
      t.mem.dram = s.mem.dram) ∧
  (∀ (s : State) (a i k row : Nat), bit s 0x00300004 0 = true → a < 0xD693A40000 → i < 64 → k < 39 →
    (∀ j, j < 64 → (a / 256 * 256 + 4 * j) ∉ s.mem.poison) →
    Runs (.gleanGroup a [(i, 2 ^ k)] row) s fun t => t.mem.gleanGroups = s.mem.gleanGroups + 1 ∧
      t.mem.gleanCe = s.mem.gleanCe + 1 ∧ t.mem.gleanUe = s.mem.gleanUe ∧ ∀ b, dramByte t b = dramByte s b) ∧
  (∀ s : State, Runs .gleanPeriodElapsed s fun t =>
    (s.mem.gleanStart + fld s 0x00300020 0 11 * 30000000 ≤ s.tick → t.mem.gleanUrgent = true) ∧
      (s.tick < s.mem.gleanStart + fld s 0x00300020 0 11 * 30000000 → t = s)) ∧
  ∀ s : State, Runs .gleanPassEnd s fun t =>
    (gleanTotal ≤ s.mem.gleanGroups → t.mem.gleanPasses = s.mem.gleanPasses + 1 ∧ t.mem.gleanGroups = 0 ∧ t.mem.gleanCe = 0 ∧
      t.mem.gleanStart = s.tick ∧ seen t 0x1702 = seen s 0x1702 + 1) ∧
    (s.mem.gleanGroups < gleanTotal → t = s)) ∧
  ((∀ (s : State) (c : Nat), c < 64 → s.tick % 1000 = 0 → s.mem.retrainWait = [] →
    (∀ k, k < 64 → (chanOf s k).retraining = false) → (chanOf s c).lost = false →
    Runs (.wck2dqOscillator [c]) s fun t => (chanOf t c).retraining = true ∧ t.mem.retrainWait = [] ∧
      seen t 0x1701 = seen s 0x1701 + 1 ∧ regVal t 0x00300050 = min (2 ^ 32 - 1) (regVal s 0x00300050 + 1)) ∧
  (∀ (s : State) (c : Nat), (chanOf s c).retraining = true → s.mem.retrainWait = [] →
    Runs (.channelRetrainDone c true) s fun t => (chanOf t c).retraining = false ∧ (chanOf t c).fails = 0) ∧
  (∀ (s : State) (c : Nat), (chanOf s c).retraining = true → s.mem.retrainWait = [] → 2 ≤ (chanOf s c).fails →
    Runs (.channelRetrainDone c false) s fun t => (chanOf t c).lost = true ∧ (chanOf t c).retraining = false ∧
      seen t 0xC701 = seen s 0xC701 + 1 ∧ t.flt.fatal = true) ∧
  ∀ (s : State) (k code temp : Nat), k < 16 → s.tick % 8000 = 0 →
    Runs (.mr4Read [(k, code, temp)]) s fun t => ∀ c, 4 * k ≤ c → c < 4 * k + 4 →
      (chanOf t c).refresh = code % 4 ∧ (chanOf t c).tempC = temp ∧ (105 < temp → (chanOf t c).halved = true) ∧
        (temp ≤ 100 → (chanOf t c).halved = false))

/-- R512, R513, R516, R569, R570: when the members of the active Vintner pair disagree the standby pair goes on and sessions stay; a
watchdog or the failure of both pairs restarts the firmware, ending every session, and the third within the hour is the fatal event in its
place; the restart's end and the self-test's outcome follow, and a lost heartbeat is fatal. Readings and choices of the model that clauses
rest on: log entries 269, 270, 271 and 272. -/
def Obligations.VintnerPairs : Prop :=
  (∀ (s : State), s.flt.vintnerUp = true → s.flt.vintnerSingle = false → s.flt.vintnerStandby = true →
    Runs .vintnerPairMismatch s fun t => t.flt.vintnerActive = 1 - s.flt.vintnerActive ∧ t.flt.vintnerStandby = false ∧
      ((∀ e ∈ s.host.sessions, e.2.sub = none) → t.host.sessions = s.host.sessions) ∧ t.mgt = s.mgt ∧ seen t 0x4F01 = seen s 0x4F01 + 1 ∧
      regVal t 0x00340064 = min (2 ^ 32 - 1) (regVal s 0x00340064 + 1)) ∧
  (∀ (c : Instr) (s : State), c = .vintnerWatchdog ∨ (c = .vintnerPairMismatch ∧ s.flt.vintnerSingle = true) →
    s.flt.vintnerUp = true →
    Runs c s fun t =>
      ((restartsSoon s).length < 2 → t.host.sessions = [] ∧ t.mgt.order = [] ∧ t.flt.vintnerUp = false ∧
        t.sites.shadow.session = none ∧ t.flt.restarts = s.tick :: restartsSoon s ∧ seen t 0x8F01 = seen s 0x8F01 + 1 ∧
        regVal t 0x00340068 = min (2 ^ 32 - 1) (regVal s 0x00340068 + 1) ∧ t.coll = s.coll ∧ t.line = s.line) ∧
      (2 ≤ (restartsSoon s).length → t.flt.fatal = true ∧ seen t 0xCF01 = seen s 0xCF01 + 1 ∧ t.flt.vintnerUp = true)) ∧
  (∀ (s : State) (pass : Bool), Runs (.vintnerSelfTestDone pass) s fun t =>
    t.flt.vintnerStandby = pass ∧ t.flt.vintnerSingle = !pass ∧ t.mgt = s.mgt ∧ t.host = s.host) ∧
  (∀ (s : State), s.flt.vintnerUp = false → s.flt.restarts ≠ [] →
    Runs .vintnerRestartDone s fun t => t.flt.vintnerUp = true ∧
      (s.bru.running = true → t.bru.stepTick = s.tick ∧ t.bru.step = s.bru.step)) ∧
  ∀ (s : State), Runs .vintnerHeartbeatLoss s fun t =>
    t.flt.fatal = true ∧ t.press.running = false ∧ seen t 0xCF01 = seen s 0xCF01 + 1

/-- R503, R525: a rail outside its band is fatal while the input supply is good; the supply's failure raises EV_POWER_LOSS and writes one
POWER-LOSS record that counts the records still queued, as the newest of stream C. R518, R527, R528: a capture that ends is VALID in its
slot, with the outcome it had, and EV_BARN_WRITTEN is raised; with no capture under way nothing changes. R576, R577: the telemetry port
NACKs every write, and the test port takes the public instructions, any other selecting BYPASS; nothing else of the device changes.
Readings and choices of the model that clauses rest on: log entries 275, 276, 279, 281 and 282. -/
def Obligations.RailsCapturesAndTestPorts : Prop :=
  ((∀ (s : State) (r : Nat), Runs (.railFault r) s fun t =>
    (s.flt.supplyLost = false → t.flt.fatal = true ∧ t.bru.railsOk = false ∧ seen t 0xCF03 = seen s 0xCF03 + 1) ∧
      (s.flt.supplyLost = true → t = s)) ∧
  ∀ (s : State) (n : Nat), s.flt.supplyLost = false →
    Runs (.powerLoss n) s fun t => t.flt.supplyLost = true ∧ seen t 0xFF01 = seen s 0xFF01 + 1 ∧
      ∃ r, t.flt.ledgerC.recs.getLast? = some r ∧ r.kind = 5 ∧ r.body = leBytes 4 n ∧ r.tick = s.tick ∧
        r.index + 1 = t.flt.ledgerC.next) ∧
  (∀ (s : State) (l : List (Nat × Bool × List Byte)) (ok : Bool) (n : Nat),
    Runs (.barnCaptureDone l ok n) s fun t =>
      (s.flt.capturing = none → t = s) ∧
      ∀ k, s.flt.capturing = some k → k < 2 →
        (barnSlot t k).valid = true ∧ (barnSlot t k).complete = ok ∧ (barnSlot t k).read = false ∧ (barnSlot t k).ueWords = n ∧
          (barnSlot t k).cause = (barnSlot s k).cause ∧ t.flt.capturing = none ∧ barnSlot t (1 - k) = barnSlot s (1 - k) ∧
          seen t 0x1F02 = seen s 0x1F02 + 1 ∧
          (l.length ≤ 63 → Elsewhere s t (barnBase k) (barnSlot t k).length)) ∧
  ((∀ (s : State), Runs .telemetryWrite s fun t => t.out = .nack :: s.out ∧ t.regs = s.regs ∧ t.mem = s.mem ∧ t.mgt = s.mgt) ∧
  ∀ (s : State) (ir : JtagIr), Runs (.jtagInstruction ir) s fun t =>
    (ir ≠ .other → t.mgt.jtag = ir) ∧ (ir = .other → t.mgt.jtag = .bypass) ∧
      (ir = .idcode → t.out = .jtag (2 ^ 28 + 0x6416 * 2 ^ 12 + Config.jtagManufacturer % 2 ^ 11 * 2 + 1) :: s.out) ∧
      t.regs = s.regs ∧ t.mem = s.mem ∧ t.sec = s.sec)

/-- R412, R527, R533: a cold start begins bring-up from the state of reset and keeps non-volatile storage: firmware slots, manifest, soft
repair map, Ledger, anchor and enrolment; while power was held the captures that are VALID and the Barn's bytes stay, and no other byte of
DRAM. A warm start, when one is due, keeps DRAM with the group tables and programs in it, the region table and the straps besides, and
begins at step 2. Readings and choices of the model that clauses rest on: log entries 21, 283 and 284. -/
def Obligations.StartsKeepWhatTheyMust : Prop :=
  (∀ (s : State) (held : Bool), Runs (.coldStart held) s fun t =>
    t.mgt.deviceId = s.mgt.deviceId ∧ t.bru.manifest = s.bru.manifest ∧ t.bru.softCores = s.bru.softCores ∧
      t.bru.softClusters = s.bru.softClusters ∧ t.flt.ledgerC = s.flt.ledgerC ∧ t.flt.ledgerF = s.flt.ledgerF ∧
      t.sec.anchor = s.sec.anchor ∧ t.sec.enrolled = s.sec.enrolled ∧ t.pending = s.pending ∧
      t.tick = 0 ∧ t.regs = [] ∧ t.host.sessions = [] ∧ t.bru.step = 1 ∧ t.bru.running = true ∧ t.bru.ready = false ∧
      (s.mgt.trial = false → t.mgt.slots = s.mgt.slots ∧ t.mgt.active = s.mgt.active) ∧
      (∀ a, dramByte t a = if held = true ∧ 0xD480000000 ≤ a ∧ a < 0xD680000000 then dramByte s a else 0) ∧
      ∀ k, k < 2 → ((held = true ∧ (barnSlot s k).valid = true → barnSlot t k = barnSlot s k) ∧
        (held = false ∨ (barnSlot s k).valid = false → (barnSlot t k).valid = false))) ∧
  ∀ (s : State), Runs .warmStart s fun t =>
    (s.mgt.startNext = false → t = s) ∧
      (s.mgt.startNext = true → t.mem.dram = s.mem.dram ∧ t.mem.regions = s.mem.regions ∧ t.bru.straps = s.bru.straps ∧
        t.bru.manifest = s.bru.manifest ∧ (s.coll.insts = [] → t.flt.ledgerC = s.flt.ledgerC) ∧ t.flt.barn = s.flt.barn ∧
        t.sec.anchor = s.sec.anchor ∧
        t.bru.step = 2 ∧ t.bru.result = 1 ∧ t.bru.warm = true ∧ t.bru.ready = false ∧ t.mgt.boot = (s.mgt.boot + 1) % 2 ^ 16 ∧
        t.host.sessions = [] ∧ t.coll.insts = [] ∧ t.coll.groups = s.coll.groups ∧
        t.coll.programs = s.coll.programs ∧ t.cellar = Cellar.reset ∧ t.mgt.startNext = false ∧
        regVal t 0x00380040 = min (2 ^ 32 - 1) (regVal s 0x00380040 + 1) ∧ regVal t 0x00380044 = regVal s 0x00380044 ∧
        (∀ k, k < 5 → (physOf t k).txChannel = (physOf s k).txChannel ∧ (physOf t k).loChannel = (physOf s k).loChannel))

/-- R534, R536, R537, R543: a bring-up step whose report fails it stops the sequence with reason STEP_FAILED; one that completes leaves
its effect and in wave mode the next step begins, a warm start leaving out step 6. R538, R541: in wave mode the next Press wave begins
when the rails hold and 2 ms have passed since the one before; in stepped mode a write to BRU_STEP_CMD begins the next step, and any other
is left unperformed and counted. Readings and choices of the model that clauses rest on: log entries 288, 289 and 290. -/
def Obligations.BringupStepsAndWaves : Prop :=
  ((∀ (s : State) (r : StepReport), s.bru.running = true → s.flt.fatal = false → s.bru.step ≤ 8 → s.bru.result ≠ 2 →
    reportFails r s = true →
    Runs (.bringupStepDone r) s fun t => t.bru.running = false ∧ t.bru.notReady = true ∧ t.bru.result = 3 ∧ t.bru.detail = r.detail ∧
      ⟨19, s.bru.step, 0, 0⟩ ∈ t.bru.reasons ∧ regVal t 0x00380044 = min (2 ^ 32 - 1) (regVal s 0x00380044 + 1)) ∧
  (∀ (s : State) (r : StepReport), s.bru.running = true → s.flt.fatal = false → s.bru.step = 1 → s.bru.result ≠ 2 →
    reportFails r s = false →
    Runs (.bringupStepDone r) s fun t => t.bru.straps = r.straps % 32 ∧ t.bru.step = 2 ∧ t.bru.stepTick = s.tick ∧ t.bru.result = 1 ∧
      (bitOf r.straps 2 = true → t.bru.stepped = true)) ∧
  (∀ (s : State) (r : StepReport), s.bru.running = true → s.flt.fatal = false → 3 ≤ s.bru.step → s.bru.step ≤ 8 → s.bru.result ≠ 2 →
    wavesLeft s = false → reportFails r s = false →
    Runs (.bringupStepDone r) s fun t =>
      (s.bru.stepped = true → t.bru.step = s.bru.step ∧ t.bru.result = 2) ∧
      (s.bru.stepped = false → s.bru.step < 8 →
        t.bru.step = (if s.bru.step = 5 ∧ s.bru.warm = true then 7 else s.bru.step + 1) ∧ t.bru.stepTick = s.tick ∧ t.bru.result = 1)) ∧
  (∀ (s : State) (r : StepReport), s.bru.running = true → s.flt.fatal = false → s.bru.step = 6 → s.bru.result ≠ 2 →
    reportFails r s = false →
    Runs (.bringupStepDone r) s fun t =>
      (∀ a, dramByte t a = if ((barnSlot s 0).valid || (barnSlot s 1).valid) = true ∧ 0xD480000000 ≤ a ∧ a < 0xD680000000
        then dramByte s a else 0) ∧
        (∀ c ∈ r.failChannels, ⟨11, c, 0, 0⟩ ∈ t.bru.found)) ∧
  ∀ (s : State) (r : StepReport), s.bru.running = false ∨ s.flt.fatal = true ∨ 8 < s.bru.step ∨ s.bru.result = 2 →
    Runs (.bringupStepDone r) s fun t => t = s) ∧
  ((∀ (s : State) (w : Nat) (ok : Bool), Runs (.pressWave w ok) s fun t =>
    (s.bru.running = true → s.bru.stepped = false → s.bru.step = 4 → s.bru.wave = w → w < 16 → ok = true →
      (w = 0 ∨ s.bru.waveTick + 1000 ≤ s.tick) → t.bru.wave = w + 1 ∧ t.bru.lastWave = w ∧ t.bru.waveTick = s.tick) ∧
    (s.bru.stepped = true ∨ s.bru.step ≠ 4 ∨ s.bru.wave ≠ w ∨ ok = false ∨ (0 < w ∧ s.tick < s.bru.waveTick + 1000) → t = s)) ∧
  (∀ (s : State) (v : Nat), s.bru.stepped = true → s.bru.running = true → s.flt.fatal = false → s.bru.result ≠ 1 → 2 ≤ s.bru.step →
    wavesLeft s = false → v % 16 = stepAfter s s.bru.step → v % 16 ≠ 4 →
    Runs (.stepCommand v) s fun t => regVal t 0x00340054 = regVal s 0x00340054 ∧
      (v % 16 < 9 → t.bru.step = v % 16 ∧ t.bru.stepTick = s.tick ∧ t.bru.result = 1) ∧ (v % 16 = 9 → t.bru.lastStep ≥ 9)) ∧
  (∀ (s : State) (v : Nat), s.bru.stepped = true → s.bru.running = true → s.flt.fatal = false → s.bru.result ≠ 1 → s.bru.step = 4 →
    s.bru.wave < 16 → v % 16 = 4 → v / 16 % 16 = s.bru.wave → v / 256 % 4 = s.bru.waveDie →
    (0 < s.bru.waveDie ∨ s.bru.wave = 0 ∨ s.bru.waveTick + 1000 ≤ s.tick) →
    Runs (.stepCommand v) s fun t => t.bru.result = 1 ∧ t.bru.lastStep = 4 ∧ t.bru.lastWave = s.bru.wave) ∧
  (∀ (s : State) (v : Nat), s.bru.stepped = false ∨ s.bru.result = 1 ∨
      (v % 16 ≠ stepAfter s s.bru.step ∧ v % 16 ≠ 4) →
    Runs (.stepCommand v) s fun t => t = bump 0x00340054 s ∧
      regVal t 0x00340054 = min (2 ^ 32 - 1) (regVal s 0x00340054 + 1)))

/-- R547, R550 to R552: the pair wait ends after BRU_PAIR_WAIT.SECONDS with the readiness check, which records every reason that holds or
lets the device become READY at the next edge; the host may ask for both. Readings and choices of the model that clauses rest on: log
entries 4, 109 and 124. -/
def Obligations.PairWaitAndCheck : Prop :=
  (∀ (s : State), Runs .pairWaitExpire s fun t =>
    (s.bru.waiting = true → s.bru.stepTick + fld s 0x00380018 0 16 * 500000 ≤ s.tick → t.bru.step = 10 ∧ t.bru.waiting = false ∧
      t.bru.running = false ∧
      (s.bru.ready = false → s.flt.fatal = false →
        (t.bru.readyNext = true ↔ t.bru.reasons = []) ∧ (t.bru.notReady = true ↔ t.bru.reasons ≠ []) ∧
          (s.sec.anchor = none → ∃ r ∈ t.bru.reasons, r.code = 1) ∧ (s.sec.enrolled = false → ∃ r ∈ t.bru.reasons, r.code = 2) ∧
          (s.bru.manifest = none → ∃ r ∈ t.bru.reasons, r.code = 3))) ∧
    (s.bru.waiting = false ∨ s.tick < s.bru.stepTick + fld s 0x00380018 0 16 * 500000 → t = s)) ∧
  (∀ (s : State), Runs .pairWaitEndWrite s fun t => t.bru.endWaitNext = true ∧ t.bru.waiting = s.bru.waiting ∧ t.regs = s.regs) ∧
  ∀ (s : State), Runs .readinessRecheck s fun t => t.bru.recheckNext = true ∧ t.bru.reasons = s.bru.reasons ∧ t.regs = s.regs
end

