-- ==== Sys2Proof/Laws/Crypto.lean ====
section
/-! SUPPORT. AES-256: key and block lengths, and that opening what was sealed gives it back. -/

namespace Sys2Proof.Machine

open Sys2Proof

theorem chunksFuel_exact {α : Type} {n : Nat} (hn : 0 < n) :
    ∀ (m fuel : Nat) (l : List α), l.length = n * m → m ≤ fuel →
      (chunksFuel fuel n l).length = m ∧ ∀ c ∈ chunksFuel fuel n l, c.length = n ∧ ∀ x ∈ c, x ∈ l := by
  intro m
  induction m with
  | zero =>
    intro fuel l hl _
    have : l = [] := List.eq_nil_of_length_eq_zero (by simpa using hl)
    subst this
    cases fuel <;> simp [chunksFuel]
  | succ m ih =>
    intro fuel l hl hf
    obtain ⟨f, rfl⟩ : ∃ f, fuel = f + 1 := ⟨fuel - 1, by omega⟩
    have hl' : l.length = n * m + n := by rw [hl]; ring
    cases l with
    | nil => simp at hl'; omega
    | cons a t =>
      obtain ⟨h1, h2⟩ := ih f ((a :: t).drop n) (by rw [List.length_drop]; omega) (by omega)
      refine ⟨by simp only [chunksFuel, List.length_cons]; omega, ?_⟩
      intro c hc
      simp only [chunksFuel, List.mem_cons] at hc
      rcases hc with rfl | hc
      · exact ⟨by rw [List.length_take]; omega, fun x hx => List.mem_of_mem_take hx⟩
      · exact ⟨(h2 c hc).1, fun x hx => List.mem_of_mem_drop ((h2 c hc).2 x hx)⟩

theorem chunks_exact {α : Type} {n m : Nat} (hn : 0 < n) (l : List α) (h : l.length = n * m) :
    (chunks n l).length = m ∧ ∀ c ∈ chunks n l, c.length = n ∧ ∀ x ∈ c, x ∈ l := by
  have : m ≤ l.length := by rw [h]; exact Nat.le_mul_of_pos_left m hn
  simpa [chunks, Nat.ne_of_gt hn] using chunksFuel_exact hn m l.length l h this

theorem aesStep_length (i rc : Nat) {prev : List Nat} (h : prev.length = 4) : (aesStep i rc prev).length = 4 := by
  unfold aesStep
  split
  · have hm : (prev.map sbox).length = 4 := by rw [List.length_map, h]
    revert hm
    cases prev.map sbox with
    | nil => intro hm; simp at hm
    | cons a l => intro hm; simp at hm; simp [xorNats, hm]
  · split
    · rw [List.length_map, h]
    · exact h

theorem aesExpand_lengths :
    ∀ (k i rc : Nat) (ws : List (List Nat)), 8 ≤ ws.length → (∀ w ∈ ws, w.length = 4) →
      (aesExpand k i rc ws).length = ws.length + k ∧ ∀ w ∈ aesExpand k i rc ws, w.length = 4 := by
  intro k
  induction k with
  | zero => intro i rc ws _ h; exact ⟨rfl, h⟩
  | succ k ih =>
    intro i rc ws h8 h4
    have hp : (ws.headD []).length = 4 := by
      cases ws with
      | nil => simp at h8
      | cons a t => exact h4 a (by simp)
    have h7 : (ws.getD 7 []).length = 4 := by
      rw [List.getD_eq_getElem _ _ (by omega)]
      exact h4 _ (List.getElem_mem _)
    have hw : ∀ w ∈ xorNats (ws.getD 7 []) (aesStep i rc (ws.headD [])) :: ws, w.length = 4 := by
      intro w hw
      rcases List.mem_cons.mp hw with rfl | hw
      · rw [xorNats, List.length_zipWith, h7, aesStep_length i rc hp]; rfl
      · exact h4 w hw
    obtain ⟨h1, h2⟩ := ih (i + 1) (if i % 8 = 0 then xtime rc else rc) _ (by simp; omega) hw
    exact ⟨by rw [aesExpand, h1]; simp; omega, h2⟩

/-- A 32-byte key has 15 round keys of 16 bytes. -/
theorem aesKeys_lengths {key : List Byte} (h : key.length = 32) :
    (aesKeys key).length = 15 ∧ ∀ k ∈ aesKeys key, k.length = 16 := by
  obtain ⟨c1, c2⟩ := chunks_exact (n := 4) (m := 8) (by omega) (key.map (·.toNat)) (by rw [List.length_map, h])
  obtain ⟨e1, e2⟩ := aesExpand_lengths 52 8 1 (chunks 4 (key.map (·.toNat))).reverse (by simp [c1])
    (fun w hw => (c2 w (List.mem_reverse.mp hw)).1)
  have e1' : (aesExpand 52 8 1 (chunks 4 (key.map (·.toNat))).reverse).reverse.length = 4 * 15 := by
    rw [List.length_reverse, e1, List.length_reverse, c1]
  obtain ⟨d1, d2⟩ := chunks_exact (n := 4) (m := 15) (by omega) _ e1'
  refine ⟨by simp only [aesKeys, List.length_map]; exact d1, ?_⟩
  intro k hk
  simp only [aesKeys, List.mem_map] at hk
  obtain ⟨c, hc, rfl⟩ := hk
  obtain ⟨hl, hs⟩ := d2 c hc
  have h4 : ∀ w ∈ c, w.length = 4 := fun w hw => e2 w (List.mem_reverse.mp (hs w hw))
  have : ∀ (c : List (List Nat)), (∀ w ∈ c, w.length = 4) → c.flatten.length = 4 * c.length := by
    intro c
    induction c with
    | nil => intro _; rfl
    | cons a t ih =>
      intro h
      rw [List.flatten_cons, List.length_append, ih (fun w hw => h w (by simp [hw])), h a (by simp), List.length_cons]
      omega
  rw [this c h4, hl]

theorem aesRounds_length : ∀ (ks : List (List Nat)) (s : List Nat), ks ≠ [] → (∀ k ∈ ks, k.length = 16) → (aesRounds ks s).length = 16
  | [], _, h, _ => absurd rfl h
  | [k], s, _, h => by simp [aesRounds, xorNats, shiftRows, h k]
  | k :: k' :: ks, s, _, h => by
    rw [aesRounds]
    · exact aesRounds_length (k' :: ks) _ (by simp) (fun x hx => h x (by simp at hx ⊢; tauto))
    · simp

theorem aesBlock_length {key : List Byte} (h : key.length = 32) (b : List Byte) : (aesBlock (aesKeys key) b).length = 16 := by
  obtain ⟨h1, h2⟩ := aesKeys_lengths h
  revert h1 h2
  cases aesKeys key with
  | nil => intro h1; simp at h1
  | cons k r =>
    intro h1 h2
    simp only [aesBlock, List.length_map]
    exact aesRounds_length r _ (by rintro rfl; simp at h1) (fun x hx => h2 x (by simp [hx]))

theorem ctrStream_length {key : List Byte} (h : key.length = 32) (pre : List Byte) (n c : Nat) :
    (ctrStream (aesKeys key) pre n c).length = 16 * n := by
  induction n generalizing c with
  | zero => rfl
  | succ n ih => simp only [ctrStream, List.length_append, aesBlock_length h, ih]; omega

theorem xorBytes_xorBytes : ∀ (d k : List Byte), d.length ≤ k.length → xorBytes (xorBytes d k) k = d
  | [], _, _ => by simp [xorBytes]
  | a :: d, [], h => by simp at h
  | a :: d, b :: k, h => by
    have := xorBytes_xorBytes d k (by simpa using h)
    simp only [xorBytes, List.zipWith_cons_cons] at this ⊢
    rw [this, BitVec.xor_assoc, BitVec.xor_self, BitVec.xor_zero]

theorem ctrWith_length {key : List Byte} (h : key.length = 32) (pre : List Byte) (c : Nat) (d : List Byte) :
    (ctrWith (aesKeys key) pre c d).length = d.length := by
  simp only [ctrWith, xorBytes, List.length_zipWith, ctrStream_length h]; omega

theorem ctrWith_ctrWith {key : List Byte} (h : key.length = 32) (pre : List Byte) (c : Nat) (d : List Byte) :
    ctrWith (aesKeys key) pre c (ctrWith (aesKeys key) pre c d) = d := by
  rw [ctrWith, ctrWith_length h]
  exact xorBytes_xorBytes _ _ (by rw [ctrStream_length h]; omega)

theorem leBytes_length (k n : Nat) : (leBytes k n).length = k := by
  induction k generalizing n with
  | zero => rfl
  | succ k ih => simp [leBytes, ih]

theorem beBytes_length (k n : Nat) : (beBytes k n).length = k := by simp [beBytes, leBytes_length]

theorem gcmTag_length {key : List Byte} (h : key.length = 32) (nonce aad ct : List Byte) :
    (gcmTag (aesKeys key) nonce aad ct).length = 16 := by
  simp [gcmTag, xorBytes, aesBlock_length h, beBytes_length]

/-- A seal is as long as what it seals, with a tag of 16 bytes. -/
theorem gcmSeal_lengths {key : List Byte} (h : key.length = 32) (nonce aad pt : List Byte) :
    (gcmSeal key nonce aad pt).1.length = pt.length ∧ (gcmSeal key nonce aad pt).2.length = 16 :=
  ⟨ctrWith_length h _ _ _, gcmTag_length h _ _ _⟩

/-- Opening what was sealed gives it back. -/
theorem gcmOpen_gcmSeal {key : List Byte} (h : key.length = 32) (nonce aad pt : List Byte) :
    gcmOpen key nonce aad (gcmSeal key nonce aad pt).1 (gcmSeal key nonce aad pt).2 = some pt := by
  simp only [gcmOpen, gcmSeal, if_pos, ctrWith_ctrWith h]

/-- The tag of a ciphertext opens it. -/
theorem gcmOpen_tag (key nonce aad ct : List Byte) :
    gcmOpen key nonce aad ct (gcmTag (aesKeys key) nonce aad ct) = some (ctrWith (aesKeys key) nonce 2 ct) := by
  simp only [gcmOpen, if_pos]

/-- No other tag opens it. -/
theorem gcmOpen_other {key nonce aad ct tag : List Byte} (h : tag ≠ gcmTag (aesKeys key) nonce aad ct) :
    gcmOpen key nonce aad ct tag = none := by
  simp only [gcmOpen, if_neg (Ne.symm h)]

end Sys2Proof.Machine
end

