-- ==== Sys2Proof/Laws/Maps.lean ====
section
/-! SUPPORT. Sparse maps: what a read finds after an update, and that updates keep keys rising and defaults unlisted. -/

namespace Sys2Proof.Machine

variable {α : Type}

/-! ### Reading after an update -/

@[simp] theorem mget_nil (n : Nat) : mget ([] : SMap α) n = none := rfl

theorem mget_cons (k : Nat) (v : α) (m : SMap α) (n : Nat) :
    mget ((k, v) :: m) n = if k = n then some v else mget m n := rfl

theorem mget_mset (m : SMap α) (n k : Nat) (v : α) : mget (mset m n v) k = if n = k then some v else mget m k := by
  induction m with
  | nil => simp [mset, mget]
  | cons e m ih =>
    obtain ⟨j, w⟩ := e
    simp only [mset]
    split
    · simp only [mget_cons]
    · split
      · next h => subst h; simp only [mget_cons]; split <;> rfl
      · next h =>
        simp only [mget_cons, ih]
        split
        · next hj => subst hj; simp [h]
        · rfl

@[simp] theorem mget_mset_same (m : SMap α) (n : Nat) (v : α) : mget (mset m n v) n = some v := by simp [mget_mset]

@[simp] theorem mget_mset_ne (m : SMap α) {n k : Nat} (v : α) (h : n ≠ k) : mget (mset m n v) k = mget m k := by
  simp [mget_mset, h]

theorem mget_mdel (m : SMap α) (n k : Nat) : mget (mdel m n) k = if n = k then none else mget m k := by
  induction m with
  | nil => simp [mdel, mget]
  | cons e m ih =>
    obtain ⟨j, w⟩ := e
    simp only [mdel]
    split
    · next h => subst h; rw [ih]; simp only [mget_cons]; split <;> rfl
    · next h =>
      simp only [mget_cons, ih]
      split
      · next hj => subst hj; simp [Ne.symm h]
      · rfl

@[simp] theorem mget_mdel_same (m : SMap α) (n : Nat) : mget (mdel m n) n = none := by simp [mget_mdel]

@[simp] theorem mget_mdel_ne (m : SMap α) {n k : Nat} (h : n ≠ k) : mget (mdel m n) k = mget m k := by simp [mget_mdel, h]

theorem mgetD_mset (m : SMap α) (n k : Nat) (v d : α) : mgetD (mset m n v) k d = if n = k then v else mgetD m k d := by
  unfold mgetD; rw [mget_mset]; split <;> rfl

@[simp] theorem mgetD_mset_same (m : SMap α) (n : Nat) (v d : α) : mgetD (mset m n v) n d = v := by simp [mgetD_mset]

theorem mgetD_mupdD (m : SMap α) (n k : Nat) (d : α) (f : α → α) :
    mgetD (mupdD m n d f) k d = if n = k then f (mgetD m n d) else mgetD m k d := by simp [mupdD, mgetD_mset]

theorem mget_mupdD (m : SMap α) (n k : Nat) (d : α) (f : α → α) :
    mget (mupdD m n d f) k = if n = k then some (f (mgetD m n d)) else mget m k := by simp [mupdD, mget_mset]

theorem mget_mupd (m : SMap α) (n k : Nat) (f : α → α) :
    mget (mupd m n f) k = if n = k then (mget m k).map f else mget m k := by
  unfold mupd
  split
  · next v h => rw [mget_mset]; split
                · next hk => subst hk; simp [h]
                · rfl
  · next h => split
              · next hk => subst hk; simp [h]
              · rfl

@[simp] theorem mget_mupd_same (m : SMap α) (n : Nat) (f : α → α) : mget (mupd m n f) n = (mget m n).map f := by simp [mget_mupd]

theorem mget_mmap (m : SMap α) (f : Nat → α → α) (n : Nat) : mget (mmap m f) n = (mget m n).map (f n) := by
  unfold mmap
  induction m with
  | nil => rfl
  | cons e m ih =>
    obtain ⟨j, w⟩ := e
    simp only [List.map_cons, mget_cons, ih]
    split
    · next h => subst h; rfl
    · rfl

theorem mget_mput [DecidableEq α] (d : α) (m : SMap α) (n k : Nat) (v : α) :
    (mget (mput d m n v) k).getD d = if n = k then v else (mget m k).getD d := by
  unfold mput
  split
  · next h => rw [mget_mdel]; split <;> simp_all
  · rw [mget_mset]; split <;> rfl

theorem mget_mput_ne [DecidableEq α] (d : α) (m : SMap α) {n k : Nat} (v : α) (h : n ≠ k) :
    mget (mput d m n v) k = mget m k := by
  unfold mput; split
  · rw [mget_mdel]; simp [h]
  · rw [mget_mset]; simp [h]

/-! ### The canonical form -/

theorem mwfFrom_mono (m : SMap α) {b c : Nat} (h : c ≤ b) (w : mwfFrom b m = true) : mwfFrom c m = true := by
  cases m with
  | nil => rfl
  | cons e m =>
    obtain ⟨k, v⟩ := e
    simp only [mwfFrom, Bool.and_eq_true, decide_eq_true_eq] at *
    exact ⟨le_trans h w.1, w.2⟩

theorem mwfFrom_mset (m : SMap α) (b n : Nat) (v : α) (h : b ≤ n) (w : mwfFrom b m = true) : mwfFrom b (mset m n v) = true := by
  induction m generalizing b with
  | nil => simp [mset, mwfFrom, h]
  | cons e m ih =>
    obtain ⟨k, u⟩ := e
    simp only [mwfFrom, Bool.and_eq_true, decide_eq_true_eq] at w
    simp only [mset]
    split
    · next hk => simp [mwfFrom, h, w.2]; omega
    · split
      · next hk => subst hk; simp [mwfFrom, h, w.2]
      · next h1 h2 =>
        simp only [mwfFrom, Bool.and_eq_true, decide_eq_true_eq]
        exact ⟨w.1, ih (k + 1) (by omega) w.2⟩

theorem mwfFrom_mdel (m : SMap α) (b n : Nat) (w : mwfFrom b m = true) : mwfFrom b (mdel m n) = true := by
  induction m generalizing b with
  | nil => rfl
  | cons e m ih =>
    obtain ⟨k, u⟩ := e
    simp only [mwfFrom, Bool.and_eq_true, decide_eq_true_eq] at w
    simp only [mdel]
    split
    · exact ih b (mwfFrom_mono m (by omega) w.2)
    · simp only [mwfFrom, Bool.and_eq_true, decide_eq_true_eq]
      exact ⟨w.1, ih (k + 1) w.2⟩

theorem all_mset (p : Nat × α → Bool) (m : SMap α) (n : Nat) (v : α) (h : m.all p = true) (hv : p (n, v) = true) :
    (mset m n v).all p = true := by
  induction m with
  | nil => simp [mset, hv]
  | cons e m ih =>
    obtain ⟨k, u⟩ := e
    simp only [List.all_cons, Bool.and_eq_true] at h
    simp only [mset]
    split
    · simp [hv, h.1, h.2]
    · split
      · simp [hv, h.2]
      · simp [h.1, ih h.2]

theorem all_mdel (p : Nat × α → Bool) (m : SMap α) (n : Nat) (h : m.all p = true) : (mdel m n).all p = true := by
  induction m with
  | nil => rfl
  | cons e m ih =>
    obtain ⟨k, u⟩ := e
    simp only [List.all_cons, Bool.and_eq_true] at h
    simp only [mdel]
    split
    · exact ih h.2
    · simp [h.1, ih h.2]

/-- An update in canonical form keeps the canonical form. -/
theorem mcanon_mput [DecidableEq α] (d : α) (m : SMap α) (n : Nat) (v : α) (h : mcanon d m = true) :
    mcanon d (mput d m n v) = true := by
  unfold mcanon mwf at *
  simp only [Bool.and_eq_true] at *
  unfold mput
  split
  · exact ⟨mwfFrom_mdel m 0 n h.1, all_mdel _ m n h.2⟩
  · next hv => exact ⟨mwfFrom_mset m 0 n v (Nat.zero_le n) h.1, all_mset _ m n v h.2 (by simpa using hv)⟩

end Sys2Proof.Machine
end

