-- ==== Sys2Proof/Laws/State.lean ====
section
/-! SUPPORT. What each update of a block of the state leaves in every field: one lemma per field per update. -/

namespace Sys2Proof.Machine

open Sys2Proof

variable (s : State)

/-! ### mapColl -/

@[simp] theorem State.mapColl_pending (f : Coll → Coll) : (s.mapColl f).pending = s.pending := rfl
@[simp] theorem State.mapColl_tick (f : Coll → Coll) : (s.mapColl f).tick = s.tick := rfl
@[simp] theorem State.mapColl_free (f : Coll → Coll) : (s.mapColl f).free = s.free := rfl
@[simp] theorem State.mapColl_regs (f : Coll → Coll) : (s.mapColl f).regs = s.regs := rfl
@[simp] theorem State.mapColl_coll (f : Coll → Coll) : (s.mapColl f).coll = f s.coll := rfl
@[simp] theorem State.mapColl_press (f : Coll → Coll) : (s.mapColl f).press = s.press := rfl
@[simp] theorem State.mapColl_host (f : Coll → Coll) : (s.mapColl f).host = s.host := rfl
@[simp] theorem State.mapColl_cmp (f : Coll → Coll) : (s.mapColl f).cmp = s.cmp := rfl
@[simp] theorem State.mapColl_qos (f : Coll → Coll) : (s.mapColl f).qos = s.qos := rfl
@[simp] theorem State.mapColl_cellar (f : Coll → Coll) : (s.mapColl f).cellar = s.cellar := rfl
@[simp] theorem State.mapColl_mem (f : Coll → Coll) : (s.mapColl f).mem = s.mem := rfl
@[simp] theorem State.mapColl_line (f : Coll → Coll) : (s.mapColl f).line = s.line := rfl
@[simp] theorem State.mapColl_opt (f : Coll → Coll) : (s.mapColl f).opt = s.opt := rfl
@[simp] theorem State.mapColl_sec (f : Coll → Coll) : (s.mapColl f).sec = s.sec := rfl
@[simp] theorem State.mapColl_sites (f : Coll → Coll) : (s.mapColl f).sites = s.sites := rfl
@[simp] theorem State.mapColl_flt (f : Coll → Coll) : (s.mapColl f).flt = s.flt := rfl
@[simp] theorem State.mapColl_time (f : Coll → Coll) : (s.mapColl f).time = s.time := rfl
@[simp] theorem State.mapColl_mgt (f : Coll → Coll) : (s.mapColl f).mgt = s.mgt := rfl
@[simp] theorem State.mapColl_bru (f : Coll → Coll) : (s.mapColl f).bru = s.bru := rfl
@[simp] theorem State.mapColl_out (f : Coll → Coll) : (s.mapColl f).out = s.out := rfl

/-! ### mapPress -/

@[simp] theorem State.mapPress_pending (f : Press → Press) : (s.mapPress f).pending = s.pending := rfl
@[simp] theorem State.mapPress_tick (f : Press → Press) : (s.mapPress f).tick = s.tick := rfl
@[simp] theorem State.mapPress_free (f : Press → Press) : (s.mapPress f).free = s.free := rfl
@[simp] theorem State.mapPress_regs (f : Press → Press) : (s.mapPress f).regs = s.regs := rfl
@[simp] theorem State.mapPress_coll (f : Press → Press) : (s.mapPress f).coll = s.coll := rfl
@[simp] theorem State.mapPress_press (f : Press → Press) : (s.mapPress f).press = f s.press := rfl
@[simp] theorem State.mapPress_host (f : Press → Press) : (s.mapPress f).host = s.host := rfl
@[simp] theorem State.mapPress_cmp (f : Press → Press) : (s.mapPress f).cmp = s.cmp := rfl
@[simp] theorem State.mapPress_qos (f : Press → Press) : (s.mapPress f).qos = s.qos := rfl
@[simp] theorem State.mapPress_cellar (f : Press → Press) : (s.mapPress f).cellar = s.cellar := rfl
@[simp] theorem State.mapPress_mem (f : Press → Press) : (s.mapPress f).mem = s.mem := rfl
@[simp] theorem State.mapPress_line (f : Press → Press) : (s.mapPress f).line = s.line := rfl
@[simp] theorem State.mapPress_opt (f : Press → Press) : (s.mapPress f).opt = s.opt := rfl
@[simp] theorem State.mapPress_sec (f : Press → Press) : (s.mapPress f).sec = s.sec := rfl
@[simp] theorem State.mapPress_sites (f : Press → Press) : (s.mapPress f).sites = s.sites := rfl
@[simp] theorem State.mapPress_flt (f : Press → Press) : (s.mapPress f).flt = s.flt := rfl
@[simp] theorem State.mapPress_time (f : Press → Press) : (s.mapPress f).time = s.time := rfl
@[simp] theorem State.mapPress_mgt (f : Press → Press) : (s.mapPress f).mgt = s.mgt := rfl
@[simp] theorem State.mapPress_bru (f : Press → Press) : (s.mapPress f).bru = s.bru := rfl
@[simp] theorem State.mapPress_out (f : Press → Press) : (s.mapPress f).out = s.out := rfl

/-! ### mapHost -/

@[simp] theorem State.mapHost_pending (f : HostPort → HostPort) : (s.mapHost f).pending = s.pending := rfl
@[simp] theorem State.mapHost_tick (f : HostPort → HostPort) : (s.mapHost f).tick = s.tick := rfl
@[simp] theorem State.mapHost_free (f : HostPort → HostPort) : (s.mapHost f).free = s.free := rfl
@[simp] theorem State.mapHost_regs (f : HostPort → HostPort) : (s.mapHost f).regs = s.regs := rfl
@[simp] theorem State.mapHost_coll (f : HostPort → HostPort) : (s.mapHost f).coll = s.coll := rfl
@[simp] theorem State.mapHost_press (f : HostPort → HostPort) : (s.mapHost f).press = s.press := rfl
@[simp] theorem State.mapHost_host (f : HostPort → HostPort) : (s.mapHost f).host = f s.host := rfl
@[simp] theorem State.mapHost_cmp (f : HostPort → HostPort) : (s.mapHost f).cmp = s.cmp := rfl
@[simp] theorem State.mapHost_qos (f : HostPort → HostPort) : (s.mapHost f).qos = s.qos := rfl
@[simp] theorem State.mapHost_cellar (f : HostPort → HostPort) : (s.mapHost f).cellar = s.cellar := rfl
@[simp] theorem State.mapHost_mem (f : HostPort → HostPort) : (s.mapHost f).mem = s.mem := rfl
@[simp] theorem State.mapHost_line (f : HostPort → HostPort) : (s.mapHost f).line = s.line := rfl
@[simp] theorem State.mapHost_opt (f : HostPort → HostPort) : (s.mapHost f).opt = s.opt := rfl
@[simp] theorem State.mapHost_sec (f : HostPort → HostPort) : (s.mapHost f).sec = s.sec := rfl
@[simp] theorem State.mapHost_sites (f : HostPort → HostPort) : (s.mapHost f).sites = s.sites := rfl
@[simp] theorem State.mapHost_flt (f : HostPort → HostPort) : (s.mapHost f).flt = s.flt := rfl
@[simp] theorem State.mapHost_time (f : HostPort → HostPort) : (s.mapHost f).time = s.time := rfl
@[simp] theorem State.mapHost_mgt (f : HostPort → HostPort) : (s.mapHost f).mgt = s.mgt := rfl
@[simp] theorem State.mapHost_bru (f : HostPort → HostPort) : (s.mapHost f).bru = s.bru := rfl
@[simp] theorem State.mapHost_out (f : HostPort → HostPort) : (s.mapHost f).out = s.out := rfl

/-! ### mapCmp -/

@[simp] theorem State.mapCmp_pending (f : SMap BSlot → SMap BSlot) : (s.mapCmp f).pending = s.pending := rfl
@[simp] theorem State.mapCmp_tick (f : SMap BSlot → SMap BSlot) : (s.mapCmp f).tick = s.tick := rfl
@[simp] theorem State.mapCmp_free (f : SMap BSlot → SMap BSlot) : (s.mapCmp f).free = s.free := rfl
@[simp] theorem State.mapCmp_regs (f : SMap BSlot → SMap BSlot) : (s.mapCmp f).regs = s.regs := rfl
@[simp] theorem State.mapCmp_coll (f : SMap BSlot → SMap BSlot) : (s.mapCmp f).coll = s.coll := rfl
@[simp] theorem State.mapCmp_press (f : SMap BSlot → SMap BSlot) : (s.mapCmp f).press = s.press := rfl
@[simp] theorem State.mapCmp_host (f : SMap BSlot → SMap BSlot) : (s.mapCmp f).host = s.host := rfl
@[simp] theorem State.mapCmp_cmp (f : SMap BSlot → SMap BSlot) : (s.mapCmp f).cmp = f s.cmp := rfl
@[simp] theorem State.mapCmp_qos (f : SMap BSlot → SMap BSlot) : (s.mapCmp f).qos = s.qos := rfl
@[simp] theorem State.mapCmp_cellar (f : SMap BSlot → SMap BSlot) : (s.mapCmp f).cellar = s.cellar := rfl
@[simp] theorem State.mapCmp_mem (f : SMap BSlot → SMap BSlot) : (s.mapCmp f).mem = s.mem := rfl
@[simp] theorem State.mapCmp_line (f : SMap BSlot → SMap BSlot) : (s.mapCmp f).line = s.line := rfl
@[simp] theorem State.mapCmp_opt (f : SMap BSlot → SMap BSlot) : (s.mapCmp f).opt = s.opt := rfl
@[simp] theorem State.mapCmp_sec (f : SMap BSlot → SMap BSlot) : (s.mapCmp f).sec = s.sec := rfl
@[simp] theorem State.mapCmp_sites (f : SMap BSlot → SMap BSlot) : (s.mapCmp f).sites = s.sites := rfl
@[simp] theorem State.mapCmp_flt (f : SMap BSlot → SMap BSlot) : (s.mapCmp f).flt = s.flt := rfl
@[simp] theorem State.mapCmp_time (f : SMap BSlot → SMap BSlot) : (s.mapCmp f).time = s.time := rfl
@[simp] theorem State.mapCmp_mgt (f : SMap BSlot → SMap BSlot) : (s.mapCmp f).mgt = s.mgt := rfl
@[simp] theorem State.mapCmp_bru (f : SMap BSlot → SMap BSlot) : (s.mapCmp f).bru = s.bru := rfl
@[simp] theorem State.mapCmp_out (f : SMap BSlot → SMap BSlot) : (s.mapCmp f).out = s.out := rfl

/-! ### mapQos -/

@[simp] theorem State.mapQos_pending (f : Vector Sched 5 → Vector Sched 5) : (s.mapQos f).pending = s.pending := rfl
@[simp] theorem State.mapQos_tick (f : Vector Sched 5 → Vector Sched 5) : (s.mapQos f).tick = s.tick := rfl
@[simp] theorem State.mapQos_free (f : Vector Sched 5 → Vector Sched 5) : (s.mapQos f).free = s.free := rfl
@[simp] theorem State.mapQos_regs (f : Vector Sched 5 → Vector Sched 5) : (s.mapQos f).regs = s.regs := rfl
@[simp] theorem State.mapQos_coll (f : Vector Sched 5 → Vector Sched 5) : (s.mapQos f).coll = s.coll := rfl
@[simp] theorem State.mapQos_press (f : Vector Sched 5 → Vector Sched 5) : (s.mapQos f).press = s.press := rfl
@[simp] theorem State.mapQos_host (f : Vector Sched 5 → Vector Sched 5) : (s.mapQos f).host = s.host := rfl
@[simp] theorem State.mapQos_cmp (f : Vector Sched 5 → Vector Sched 5) : (s.mapQos f).cmp = s.cmp := rfl
@[simp] theorem State.mapQos_qos (f : Vector Sched 5 → Vector Sched 5) : (s.mapQos f).qos = f s.qos := rfl
@[simp] theorem State.mapQos_cellar (f : Vector Sched 5 → Vector Sched 5) : (s.mapQos f).cellar = s.cellar := rfl
@[simp] theorem State.mapQos_mem (f : Vector Sched 5 → Vector Sched 5) : (s.mapQos f).mem = s.mem := rfl
@[simp] theorem State.mapQos_line (f : Vector Sched 5 → Vector Sched 5) : (s.mapQos f).line = s.line := rfl
@[simp] theorem State.mapQos_opt (f : Vector Sched 5 → Vector Sched 5) : (s.mapQos f).opt = s.opt := rfl
@[simp] theorem State.mapQos_sec (f : Vector Sched 5 → Vector Sched 5) : (s.mapQos f).sec = s.sec := rfl
@[simp] theorem State.mapQos_sites (f : Vector Sched 5 → Vector Sched 5) : (s.mapQos f).sites = s.sites := rfl
@[simp] theorem State.mapQos_flt (f : Vector Sched 5 → Vector Sched 5) : (s.mapQos f).flt = s.flt := rfl
@[simp] theorem State.mapQos_time (f : Vector Sched 5 → Vector Sched 5) : (s.mapQos f).time = s.time := rfl
@[simp] theorem State.mapQos_mgt (f : Vector Sched 5 → Vector Sched 5) : (s.mapQos f).mgt = s.mgt := rfl
@[simp] theorem State.mapQos_bru (f : Vector Sched 5 → Vector Sched 5) : (s.mapQos f).bru = s.bru := rfl
@[simp] theorem State.mapQos_out (f : Vector Sched 5 → Vector Sched 5) : (s.mapQos f).out = s.out := rfl

/-! ### mapCellar -/

@[simp] theorem State.mapCellar_pending (f : Cellar → Cellar) : (s.mapCellar f).pending = s.pending := rfl
@[simp] theorem State.mapCellar_tick (f : Cellar → Cellar) : (s.mapCellar f).tick = s.tick := rfl
@[simp] theorem State.mapCellar_free (f : Cellar → Cellar) : (s.mapCellar f).free = s.free := rfl
@[simp] theorem State.mapCellar_regs (f : Cellar → Cellar) : (s.mapCellar f).regs = s.regs := rfl
@[simp] theorem State.mapCellar_coll (f : Cellar → Cellar) : (s.mapCellar f).coll = s.coll := rfl
@[simp] theorem State.mapCellar_press (f : Cellar → Cellar) : (s.mapCellar f).press = s.press := rfl
@[simp] theorem State.mapCellar_host (f : Cellar → Cellar) : (s.mapCellar f).host = s.host := rfl
@[simp] theorem State.mapCellar_cmp (f : Cellar → Cellar) : (s.mapCellar f).cmp = s.cmp := rfl
@[simp] theorem State.mapCellar_qos (f : Cellar → Cellar) : (s.mapCellar f).qos = s.qos := rfl
@[simp] theorem State.mapCellar_cellar (f : Cellar → Cellar) : (s.mapCellar f).cellar = f s.cellar := rfl
@[simp] theorem State.mapCellar_mem (f : Cellar → Cellar) : (s.mapCellar f).mem = s.mem := rfl
@[simp] theorem State.mapCellar_line (f : Cellar → Cellar) : (s.mapCellar f).line = s.line := rfl
@[simp] theorem State.mapCellar_opt (f : Cellar → Cellar) : (s.mapCellar f).opt = s.opt := rfl
@[simp] theorem State.mapCellar_sec (f : Cellar → Cellar) : (s.mapCellar f).sec = s.sec := rfl
@[simp] theorem State.mapCellar_sites (f : Cellar → Cellar) : (s.mapCellar f).sites = s.sites := rfl
@[simp] theorem State.mapCellar_flt (f : Cellar → Cellar) : (s.mapCellar f).flt = s.flt := rfl
@[simp] theorem State.mapCellar_time (f : Cellar → Cellar) : (s.mapCellar f).time = s.time := rfl
@[simp] theorem State.mapCellar_mgt (f : Cellar → Cellar) : (s.mapCellar f).mgt = s.mgt := rfl
@[simp] theorem State.mapCellar_bru (f : Cellar → Cellar) : (s.mapCellar f).bru = s.bru := rfl
@[simp] theorem State.mapCellar_out (f : Cellar → Cellar) : (s.mapCellar f).out = s.out := rfl

/-! ### mapMem -/

@[simp] theorem State.mapMem_pending (f : Mem → Mem) : (s.mapMem f).pending = s.pending := rfl
@[simp] theorem State.mapMem_tick (f : Mem → Mem) : (s.mapMem f).tick = s.tick := rfl
@[simp] theorem State.mapMem_free (f : Mem → Mem) : (s.mapMem f).free = s.free := rfl
@[simp] theorem State.mapMem_regs (f : Mem → Mem) : (s.mapMem f).regs = s.regs := rfl
@[simp] theorem State.mapMem_coll (f : Mem → Mem) : (s.mapMem f).coll = s.coll := rfl
@[simp] theorem State.mapMem_press (f : Mem → Mem) : (s.mapMem f).press = s.press := rfl
@[simp] theorem State.mapMem_host (f : Mem → Mem) : (s.mapMem f).host = s.host := rfl
@[simp] theorem State.mapMem_cmp (f : Mem → Mem) : (s.mapMem f).cmp = s.cmp := rfl
@[simp] theorem State.mapMem_qos (f : Mem → Mem) : (s.mapMem f).qos = s.qos := rfl
@[simp] theorem State.mapMem_cellar (f : Mem → Mem) : (s.mapMem f).cellar = s.cellar := rfl
@[simp] theorem State.mapMem_mem (f : Mem → Mem) : (s.mapMem f).mem = f s.mem := rfl
@[simp] theorem State.mapMem_line (f : Mem → Mem) : (s.mapMem f).line = s.line := rfl
@[simp] theorem State.mapMem_opt (f : Mem → Mem) : (s.mapMem f).opt = s.opt := rfl
@[simp] theorem State.mapMem_sec (f : Mem → Mem) : (s.mapMem f).sec = s.sec := rfl
@[simp] theorem State.mapMem_sites (f : Mem → Mem) : (s.mapMem f).sites = s.sites := rfl
@[simp] theorem State.mapMem_flt (f : Mem → Mem) : (s.mapMem f).flt = s.flt := rfl
@[simp] theorem State.mapMem_time (f : Mem → Mem) : (s.mapMem f).time = s.time := rfl
@[simp] theorem State.mapMem_mgt (f : Mem → Mem) : (s.mapMem f).mgt = s.mgt := rfl
@[simp] theorem State.mapMem_bru (f : Mem → Mem) : (s.mapMem f).bru = s.bru := rfl
@[simp] theorem State.mapMem_out (f : Mem → Mem) : (s.mapMem f).out = s.out := rfl

/-! ### mapRegs -/

@[simp] theorem State.mapRegs_pending (f : SMap Nat → SMap Nat) : (s.mapRegs f).pending = s.pending := rfl
@[simp] theorem State.mapRegs_tick (f : SMap Nat → SMap Nat) : (s.mapRegs f).tick = s.tick := rfl
@[simp] theorem State.mapRegs_free (f : SMap Nat → SMap Nat) : (s.mapRegs f).free = s.free := rfl
@[simp] theorem State.mapRegs_regs (f : SMap Nat → SMap Nat) : (s.mapRegs f).regs = f s.regs := rfl
@[simp] theorem State.mapRegs_coll (f : SMap Nat → SMap Nat) : (s.mapRegs f).coll = s.coll := rfl
@[simp] theorem State.mapRegs_press (f : SMap Nat → SMap Nat) : (s.mapRegs f).press = s.press := rfl
@[simp] theorem State.mapRegs_host (f : SMap Nat → SMap Nat) : (s.mapRegs f).host = s.host := rfl
@[simp] theorem State.mapRegs_cmp (f : SMap Nat → SMap Nat) : (s.mapRegs f).cmp = s.cmp := rfl
@[simp] theorem State.mapRegs_qos (f : SMap Nat → SMap Nat) : (s.mapRegs f).qos = s.qos := rfl
@[simp] theorem State.mapRegs_cellar (f : SMap Nat → SMap Nat) : (s.mapRegs f).cellar = s.cellar := rfl
@[simp] theorem State.mapRegs_mem (f : SMap Nat → SMap Nat) : (s.mapRegs f).mem = s.mem := rfl
@[simp] theorem State.mapRegs_line (f : SMap Nat → SMap Nat) : (s.mapRegs f).line = s.line := rfl
@[simp] theorem State.mapRegs_opt (f : SMap Nat → SMap Nat) : (s.mapRegs f).opt = s.opt := rfl
@[simp] theorem State.mapRegs_sec (f : SMap Nat → SMap Nat) : (s.mapRegs f).sec = s.sec := rfl
@[simp] theorem State.mapRegs_sites (f : SMap Nat → SMap Nat) : (s.mapRegs f).sites = s.sites := rfl
@[simp] theorem State.mapRegs_flt (f : SMap Nat → SMap Nat) : (s.mapRegs f).flt = s.flt := rfl
@[simp] theorem State.mapRegs_time (f : SMap Nat → SMap Nat) : (s.mapRegs f).time = s.time := rfl
@[simp] theorem State.mapRegs_mgt (f : SMap Nat → SMap Nat) : (s.mapRegs f).mgt = s.mgt := rfl
@[simp] theorem State.mapRegs_bru (f : SMap Nat → SMap Nat) : (s.mapRegs f).bru = s.bru := rfl
@[simp] theorem State.mapRegs_out (f : SMap Nat → SMap Nat) : (s.mapRegs f).out = s.out := rfl

/-! ### mapLine -/

@[simp] theorem State.mapLine_pending (f : Line → Line) : (s.mapLine f).pending = s.pending := rfl
@[simp] theorem State.mapLine_tick (f : Line → Line) : (s.mapLine f).tick = s.tick := rfl
@[simp] theorem State.mapLine_free (f : Line → Line) : (s.mapLine f).free = s.free := rfl
@[simp] theorem State.mapLine_regs (f : Line → Line) : (s.mapLine f).regs = s.regs := rfl
@[simp] theorem State.mapLine_coll (f : Line → Line) : (s.mapLine f).coll = s.coll := rfl
@[simp] theorem State.mapLine_press (f : Line → Line) : (s.mapLine f).press = s.press := rfl
@[simp] theorem State.mapLine_host (f : Line → Line) : (s.mapLine f).host = s.host := rfl
@[simp] theorem State.mapLine_cmp (f : Line → Line) : (s.mapLine f).cmp = s.cmp := rfl
@[simp] theorem State.mapLine_qos (f : Line → Line) : (s.mapLine f).qos = s.qos := rfl
@[simp] theorem State.mapLine_cellar (f : Line → Line) : (s.mapLine f).cellar = s.cellar := rfl
@[simp] theorem State.mapLine_mem (f : Line → Line) : (s.mapLine f).mem = s.mem := rfl
@[simp] theorem State.mapLine_line (f : Line → Line) : (s.mapLine f).line = f s.line := rfl
@[simp] theorem State.mapLine_opt (f : Line → Line) : (s.mapLine f).opt = s.opt := rfl
@[simp] theorem State.mapLine_sec (f : Line → Line) : (s.mapLine f).sec = s.sec := rfl
@[simp] theorem State.mapLine_sites (f : Line → Line) : (s.mapLine f).sites = s.sites := rfl
@[simp] theorem State.mapLine_flt (f : Line → Line) : (s.mapLine f).flt = s.flt := rfl
@[simp] theorem State.mapLine_time (f : Line → Line) : (s.mapLine f).time = s.time := rfl
@[simp] theorem State.mapLine_mgt (f : Line → Line) : (s.mapLine f).mgt = s.mgt := rfl
@[simp] theorem State.mapLine_bru (f : Line → Line) : (s.mapLine f).bru = s.bru := rfl
@[simp] theorem State.mapLine_out (f : Line → Line) : (s.mapLine f).out = s.out := rfl

/-! ### mapOpt -/

@[simp] theorem State.mapOpt_pending (f : Opt → Opt) : (s.mapOpt f).pending = s.pending := rfl
@[simp] theorem State.mapOpt_tick (f : Opt → Opt) : (s.mapOpt f).tick = s.tick := rfl
@[simp] theorem State.mapOpt_free (f : Opt → Opt) : (s.mapOpt f).free = s.free := rfl
@[simp] theorem State.mapOpt_regs (f : Opt → Opt) : (s.mapOpt f).regs = s.regs := rfl
@[simp] theorem State.mapOpt_coll (f : Opt → Opt) : (s.mapOpt f).coll = s.coll := rfl
@[simp] theorem State.mapOpt_press (f : Opt → Opt) : (s.mapOpt f).press = s.press := rfl
@[simp] theorem State.mapOpt_host (f : Opt → Opt) : (s.mapOpt f).host = s.host := rfl
@[simp] theorem State.mapOpt_cmp (f : Opt → Opt) : (s.mapOpt f).cmp = s.cmp := rfl
@[simp] theorem State.mapOpt_qos (f : Opt → Opt) : (s.mapOpt f).qos = s.qos := rfl
@[simp] theorem State.mapOpt_cellar (f : Opt → Opt) : (s.mapOpt f).cellar = s.cellar := rfl
@[simp] theorem State.mapOpt_mem (f : Opt → Opt) : (s.mapOpt f).mem = s.mem := rfl
@[simp] theorem State.mapOpt_line (f : Opt → Opt) : (s.mapOpt f).line = s.line := rfl
@[simp] theorem State.mapOpt_opt (f : Opt → Opt) : (s.mapOpt f).opt = f s.opt := rfl
@[simp] theorem State.mapOpt_sec (f : Opt → Opt) : (s.mapOpt f).sec = s.sec := rfl
@[simp] theorem State.mapOpt_sites (f : Opt → Opt) : (s.mapOpt f).sites = s.sites := rfl
@[simp] theorem State.mapOpt_flt (f : Opt → Opt) : (s.mapOpt f).flt = s.flt := rfl
@[simp] theorem State.mapOpt_time (f : Opt → Opt) : (s.mapOpt f).time = s.time := rfl
@[simp] theorem State.mapOpt_mgt (f : Opt → Opt) : (s.mapOpt f).mgt = s.mgt := rfl
@[simp] theorem State.mapOpt_bru (f : Opt → Opt) : (s.mapOpt f).bru = s.bru := rfl
@[simp] theorem State.mapOpt_out (f : Opt → Opt) : (s.mapOpt f).out = s.out := rfl

/-! ### mapSec -/

@[simp] theorem State.mapSec_pending (f : Sec → Sec) : (s.mapSec f).pending = s.pending := rfl
@[simp] theorem State.mapSec_tick (f : Sec → Sec) : (s.mapSec f).tick = s.tick := rfl
@[simp] theorem State.mapSec_free (f : Sec → Sec) : (s.mapSec f).free = s.free := rfl
@[simp] theorem State.mapSec_regs (f : Sec → Sec) : (s.mapSec f).regs = s.regs := rfl
@[simp] theorem State.mapSec_coll (f : Sec → Sec) : (s.mapSec f).coll = s.coll := rfl
@[simp] theorem State.mapSec_press (f : Sec → Sec) : (s.mapSec f).press = s.press := rfl
@[simp] theorem State.mapSec_host (f : Sec → Sec) : (s.mapSec f).host = s.host := rfl
@[simp] theorem State.mapSec_cmp (f : Sec → Sec) : (s.mapSec f).cmp = s.cmp := rfl
@[simp] theorem State.mapSec_qos (f : Sec → Sec) : (s.mapSec f).qos = s.qos := rfl
@[simp] theorem State.mapSec_cellar (f : Sec → Sec) : (s.mapSec f).cellar = s.cellar := rfl
@[simp] theorem State.mapSec_mem (f : Sec → Sec) : (s.mapSec f).mem = s.mem := rfl
@[simp] theorem State.mapSec_line (f : Sec → Sec) : (s.mapSec f).line = s.line := rfl
@[simp] theorem State.mapSec_opt (f : Sec → Sec) : (s.mapSec f).opt = s.opt := rfl
@[simp] theorem State.mapSec_sec (f : Sec → Sec) : (s.mapSec f).sec = f s.sec := rfl
@[simp] theorem State.mapSec_sites (f : Sec → Sec) : (s.mapSec f).sites = s.sites := rfl
@[simp] theorem State.mapSec_flt (f : Sec → Sec) : (s.mapSec f).flt = s.flt := rfl
@[simp] theorem State.mapSec_time (f : Sec → Sec) : (s.mapSec f).time = s.time := rfl
@[simp] theorem State.mapSec_mgt (f : Sec → Sec) : (s.mapSec f).mgt = s.mgt := rfl
@[simp] theorem State.mapSec_bru (f : Sec → Sec) : (s.mapSec f).bru = s.bru := rfl
@[simp] theorem State.mapSec_out (f : Sec → Sec) : (s.mapSec f).out = s.out := rfl

/-! ### mapSites -/

@[simp] theorem State.mapSites_pending (f : Sites → Sites) : (s.mapSites f).pending = s.pending := rfl
@[simp] theorem State.mapSites_tick (f : Sites → Sites) : (s.mapSites f).tick = s.tick := rfl
@[simp] theorem State.mapSites_free (f : Sites → Sites) : (s.mapSites f).free = s.free := rfl
@[simp] theorem State.mapSites_regs (f : Sites → Sites) : (s.mapSites f).regs = s.regs := rfl
@[simp] theorem State.mapSites_coll (f : Sites → Sites) : (s.mapSites f).coll = s.coll := rfl
@[simp] theorem State.mapSites_press (f : Sites → Sites) : (s.mapSites f).press = s.press := rfl
@[simp] theorem State.mapSites_host (f : Sites → Sites) : (s.mapSites f).host = s.host := rfl
@[simp] theorem State.mapSites_cmp (f : Sites → Sites) : (s.mapSites f).cmp = s.cmp := rfl
@[simp] theorem State.mapSites_qos (f : Sites → Sites) : (s.mapSites f).qos = s.qos := rfl
@[simp] theorem State.mapSites_cellar (f : Sites → Sites) : (s.mapSites f).cellar = s.cellar := rfl
@[simp] theorem State.mapSites_mem (f : Sites → Sites) : (s.mapSites f).mem = s.mem := rfl
@[simp] theorem State.mapSites_line (f : Sites → Sites) : (s.mapSites f).line = s.line := rfl
@[simp] theorem State.mapSites_opt (f : Sites → Sites) : (s.mapSites f).opt = s.opt := rfl
@[simp] theorem State.mapSites_sec (f : Sites → Sites) : (s.mapSites f).sec = s.sec := rfl
@[simp] theorem State.mapSites_sites (f : Sites → Sites) : (s.mapSites f).sites = f s.sites := rfl
@[simp] theorem State.mapSites_flt (f : Sites → Sites) : (s.mapSites f).flt = s.flt := rfl
@[simp] theorem State.mapSites_time (f : Sites → Sites) : (s.mapSites f).time = s.time := rfl
@[simp] theorem State.mapSites_mgt (f : Sites → Sites) : (s.mapSites f).mgt = s.mgt := rfl
@[simp] theorem State.mapSites_bru (f : Sites → Sites) : (s.mapSites f).bru = s.bru := rfl
@[simp] theorem State.mapSites_out (f : Sites → Sites) : (s.mapSites f).out = s.out := rfl

/-! ### mapFlt -/

@[simp] theorem State.mapFlt_pending (f : Flt → Flt) : (s.mapFlt f).pending = s.pending := rfl
@[simp] theorem State.mapFlt_tick (f : Flt → Flt) : (s.mapFlt f).tick = s.tick := rfl
@[simp] theorem State.mapFlt_free (f : Flt → Flt) : (s.mapFlt f).free = s.free := rfl
@[simp] theorem State.mapFlt_regs (f : Flt → Flt) : (s.mapFlt f).regs = s.regs := rfl
@[simp] theorem State.mapFlt_coll (f : Flt → Flt) : (s.mapFlt f).coll = s.coll := rfl
@[simp] theorem State.mapFlt_press (f : Flt → Flt) : (s.mapFlt f).press = s.press := rfl
@[simp] theorem State.mapFlt_host (f : Flt → Flt) : (s.mapFlt f).host = s.host := rfl
@[simp] theorem State.mapFlt_cmp (f : Flt → Flt) : (s.mapFlt f).cmp = s.cmp := rfl
@[simp] theorem State.mapFlt_qos (f : Flt → Flt) : (s.mapFlt f).qos = s.qos := rfl
@[simp] theorem State.mapFlt_cellar (f : Flt → Flt) : (s.mapFlt f).cellar = s.cellar := rfl
@[simp] theorem State.mapFlt_mem (f : Flt → Flt) : (s.mapFlt f).mem = s.mem := rfl
@[simp] theorem State.mapFlt_line (f : Flt → Flt) : (s.mapFlt f).line = s.line := rfl
@[simp] theorem State.mapFlt_opt (f : Flt → Flt) : (s.mapFlt f).opt = s.opt := rfl
@[simp] theorem State.mapFlt_sec (f : Flt → Flt) : (s.mapFlt f).sec = s.sec := rfl
@[simp] theorem State.mapFlt_sites (f : Flt → Flt) : (s.mapFlt f).sites = s.sites := rfl
@[simp] theorem State.mapFlt_flt (f : Flt → Flt) : (s.mapFlt f).flt = f s.flt := rfl
@[simp] theorem State.mapFlt_time (f : Flt → Flt) : (s.mapFlt f).time = s.time := rfl
@[simp] theorem State.mapFlt_mgt (f : Flt → Flt) : (s.mapFlt f).mgt = s.mgt := rfl
@[simp] theorem State.mapFlt_bru (f : Flt → Flt) : (s.mapFlt f).bru = s.bru := rfl
@[simp] theorem State.mapFlt_out (f : Flt → Flt) : (s.mapFlt f).out = s.out := rfl

/-! ### mapMgt -/

@[simp] theorem State.mapMgt_pending (f : Mgt → Mgt) : (s.mapMgt f).pending = s.pending := rfl
@[simp] theorem State.mapMgt_tick (f : Mgt → Mgt) : (s.mapMgt f).tick = s.tick := rfl
@[simp] theorem State.mapMgt_free (f : Mgt → Mgt) : (s.mapMgt f).free = s.free := rfl
@[simp] theorem State.mapMgt_regs (f : Mgt → Mgt) : (s.mapMgt f).regs = s.regs := rfl
@[simp] theorem State.mapMgt_coll (f : Mgt → Mgt) : (s.mapMgt f).coll = s.coll := rfl
@[simp] theorem State.mapMgt_press (f : Mgt → Mgt) : (s.mapMgt f).press = s.press := rfl
@[simp] theorem State.mapMgt_host (f : Mgt → Mgt) : (s.mapMgt f).host = s.host := rfl
@[simp] theorem State.mapMgt_cmp (f : Mgt → Mgt) : (s.mapMgt f).cmp = s.cmp := rfl
@[simp] theorem State.mapMgt_qos (f : Mgt → Mgt) : (s.mapMgt f).qos = s.qos := rfl
@[simp] theorem State.mapMgt_cellar (f : Mgt → Mgt) : (s.mapMgt f).cellar = s.cellar := rfl
@[simp] theorem State.mapMgt_mem (f : Mgt → Mgt) : (s.mapMgt f).mem = s.mem := rfl
@[simp] theorem State.mapMgt_line (f : Mgt → Mgt) : (s.mapMgt f).line = s.line := rfl
@[simp] theorem State.mapMgt_opt (f : Mgt → Mgt) : (s.mapMgt f).opt = s.opt := rfl
@[simp] theorem State.mapMgt_sec (f : Mgt → Mgt) : (s.mapMgt f).sec = s.sec := rfl
@[simp] theorem State.mapMgt_sites (f : Mgt → Mgt) : (s.mapMgt f).sites = s.sites := rfl
@[simp] theorem State.mapMgt_flt (f : Mgt → Mgt) : (s.mapMgt f).flt = s.flt := rfl
@[simp] theorem State.mapMgt_time (f : Mgt → Mgt) : (s.mapMgt f).time = s.time := rfl
@[simp] theorem State.mapMgt_mgt (f : Mgt → Mgt) : (s.mapMgt f).mgt = f s.mgt := rfl
@[simp] theorem State.mapMgt_bru (f : Mgt → Mgt) : (s.mapMgt f).bru = s.bru := rfl
@[simp] theorem State.mapMgt_out (f : Mgt → Mgt) : (s.mapMgt f).out = s.out := rfl

/-! ### mapTime -/

@[simp] theorem State.mapTime_pending (f : TimeSt → TimeSt) : (s.mapTime f).pending = s.pending := rfl
@[simp] theorem State.mapTime_tick (f : TimeSt → TimeSt) : (s.mapTime f).tick = s.tick := rfl
@[simp] theorem State.mapTime_free (f : TimeSt → TimeSt) : (s.mapTime f).free = s.free := rfl
@[simp] theorem State.mapTime_regs (f : TimeSt → TimeSt) : (s.mapTime f).regs = s.regs := rfl
@[simp] theorem State.mapTime_coll (f : TimeSt → TimeSt) : (s.mapTime f).coll = s.coll := rfl
@[simp] theorem State.mapTime_press (f : TimeSt → TimeSt) : (s.mapTime f).press = s.press := rfl
@[simp] theorem State.mapTime_host (f : TimeSt → TimeSt) : (s.mapTime f).host = s.host := rfl
@[simp] theorem State.mapTime_cmp (f : TimeSt → TimeSt) : (s.mapTime f).cmp = s.cmp := rfl
@[simp] theorem State.mapTime_qos (f : TimeSt → TimeSt) : (s.mapTime f).qos = s.qos := rfl
@[simp] theorem State.mapTime_cellar (f : TimeSt → TimeSt) : (s.mapTime f).cellar = s.cellar := rfl
@[simp] theorem State.mapTime_mem (f : TimeSt → TimeSt) : (s.mapTime f).mem = s.mem := rfl
@[simp] theorem State.mapTime_line (f : TimeSt → TimeSt) : (s.mapTime f).line = s.line := rfl
@[simp] theorem State.mapTime_opt (f : TimeSt → TimeSt) : (s.mapTime f).opt = s.opt := rfl
@[simp] theorem State.mapTime_sec (f : TimeSt → TimeSt) : (s.mapTime f).sec = s.sec := rfl
@[simp] theorem State.mapTime_sites (f : TimeSt → TimeSt) : (s.mapTime f).sites = s.sites := rfl
@[simp] theorem State.mapTime_flt (f : TimeSt → TimeSt) : (s.mapTime f).flt = s.flt := rfl
@[simp] theorem State.mapTime_time (f : TimeSt → TimeSt) : (s.mapTime f).time = f s.time := rfl
@[simp] theorem State.mapTime_mgt (f : TimeSt → TimeSt) : (s.mapTime f).mgt = s.mgt := rfl
@[simp] theorem State.mapTime_bru (f : TimeSt → TimeSt) : (s.mapTime f).bru = s.bru := rfl
@[simp] theorem State.mapTime_out (f : TimeSt → TimeSt) : (s.mapTime f).out = s.out := rfl

/-! ### mapBru -/

@[simp] theorem State.mapBru_pending (f : Bru → Bru) : (s.mapBru f).pending = s.pending := rfl
@[simp] theorem State.mapBru_tick (f : Bru → Bru) : (s.mapBru f).tick = s.tick := rfl
@[simp] theorem State.mapBru_free (f : Bru → Bru) : (s.mapBru f).free = s.free := rfl
@[simp] theorem State.mapBru_regs (f : Bru → Bru) : (s.mapBru f).regs = s.regs := rfl
@[simp] theorem State.mapBru_coll (f : Bru → Bru) : (s.mapBru f).coll = s.coll := rfl
@[simp] theorem State.mapBru_press (f : Bru → Bru) : (s.mapBru f).press = s.press := rfl
@[simp] theorem State.mapBru_host (f : Bru → Bru) : (s.mapBru f).host = s.host := rfl
@[simp] theorem State.mapBru_cmp (f : Bru → Bru) : (s.mapBru f).cmp = s.cmp := rfl
@[simp] theorem State.mapBru_qos (f : Bru → Bru) : (s.mapBru f).qos = s.qos := rfl
@[simp] theorem State.mapBru_cellar (f : Bru → Bru) : (s.mapBru f).cellar = s.cellar := rfl
@[simp] theorem State.mapBru_mem (f : Bru → Bru) : (s.mapBru f).mem = s.mem := rfl
@[simp] theorem State.mapBru_line (f : Bru → Bru) : (s.mapBru f).line = s.line := rfl
@[simp] theorem State.mapBru_opt (f : Bru → Bru) : (s.mapBru f).opt = s.opt := rfl
@[simp] theorem State.mapBru_sec (f : Bru → Bru) : (s.mapBru f).sec = s.sec := rfl
@[simp] theorem State.mapBru_sites (f : Bru → Bru) : (s.mapBru f).sites = s.sites := rfl
@[simp] theorem State.mapBru_flt (f : Bru → Bru) : (s.mapBru f).flt = s.flt := rfl
@[simp] theorem State.mapBru_time (f : Bru → Bru) : (s.mapBru f).time = s.time := rfl
@[simp] theorem State.mapBru_mgt (f : Bru → Bru) : (s.mapBru f).mgt = s.mgt := rfl
@[simp] theorem State.mapBru_bru (f : Bru → Bru) : (s.mapBru f).bru = f s.bru := rfl
@[simp] theorem State.mapBru_out (f : Bru → Bru) : (s.mapBru f).out = s.out := rfl

/-! ### emit and takeFree -/

@[simp] theorem State.emit_pending (o : Output) : (s.emit o).pending = s.pending := rfl
@[simp] theorem State.emit_tick (o : Output) : (s.emit o).tick = s.tick := rfl
@[simp] theorem State.emit_free (o : Output) : (s.emit o).free = s.free := rfl
@[simp] theorem State.emit_regs (o : Output) : (s.emit o).regs = s.regs := rfl
@[simp] theorem State.emit_coll (o : Output) : (s.emit o).coll = s.coll := rfl
@[simp] theorem State.emit_press (o : Output) : (s.emit o).press = s.press := rfl
@[simp] theorem State.emit_host (o : Output) : (s.emit o).host = s.host := rfl
@[simp] theorem State.emit_cmp (o : Output) : (s.emit o).cmp = s.cmp := rfl
@[simp] theorem State.emit_qos (o : Output) : (s.emit o).qos = s.qos := rfl
@[simp] theorem State.emit_cellar (o : Output) : (s.emit o).cellar = s.cellar := rfl
@[simp] theorem State.emit_mem (o : Output) : (s.emit o).mem = s.mem := rfl
@[simp] theorem State.emit_line (o : Output) : (s.emit o).line = s.line := rfl
@[simp] theorem State.emit_opt (o : Output) : (s.emit o).opt = s.opt := rfl
@[simp] theorem State.emit_sec (o : Output) : (s.emit o).sec = s.sec := rfl
@[simp] theorem State.emit_sites (o : Output) : (s.emit o).sites = s.sites := rfl
@[simp] theorem State.emit_flt (o : Output) : (s.emit o).flt = s.flt := rfl
@[simp] theorem State.emit_time (o : Output) : (s.emit o).time = s.time := rfl
@[simp] theorem State.emit_mgt (o : Output) : (s.emit o).mgt = s.mgt := rfl
@[simp] theorem State.emit_bru (o : Output) : (s.emit o).bru = s.bru := rfl
@[simp] theorem State.emit_out (o : Output) : (s.emit o).out = o :: s.out := rfl

@[simp] theorem State.takeFree_pending : s.takeFree.2.pending = s.pending := rfl
@[simp] theorem State.takeFree_tick : s.takeFree.2.tick = s.tick := rfl
@[simp] theorem State.takeFree_free : s.takeFree.2.free = s.free + 1 := rfl
@[simp] theorem State.takeFree_regs : s.takeFree.2.regs = s.regs := rfl
@[simp] theorem State.takeFree_coll : s.takeFree.2.coll = s.coll := rfl
@[simp] theorem State.takeFree_press : s.takeFree.2.press = s.press := rfl
@[simp] theorem State.takeFree_host : s.takeFree.2.host = s.host := rfl
@[simp] theorem State.takeFree_cmp : s.takeFree.2.cmp = s.cmp := rfl
@[simp] theorem State.takeFree_qos : s.takeFree.2.qos = s.qos := rfl
@[simp] theorem State.takeFree_cellar : s.takeFree.2.cellar = s.cellar := rfl
@[simp] theorem State.takeFree_mem : s.takeFree.2.mem = s.mem := rfl
@[simp] theorem State.takeFree_line : s.takeFree.2.line = s.line := rfl
@[simp] theorem State.takeFree_opt : s.takeFree.2.opt = s.opt := rfl
@[simp] theorem State.takeFree_sec : s.takeFree.2.sec = s.sec := rfl
@[simp] theorem State.takeFree_sites : s.takeFree.2.sites = s.sites := rfl
@[simp] theorem State.takeFree_flt : s.takeFree.2.flt = s.flt := rfl
@[simp] theorem State.takeFree_time : s.takeFree.2.time = s.time := rfl
@[simp] theorem State.takeFree_mgt : s.takeFree.2.mgt = s.mgt := rfl
@[simp] theorem State.takeFree_bru : s.takeFree.2.bru = s.bru := rfl
@[simp] theorem State.takeFree_out : s.takeFree.2.out = s.out := rfl
@[simp] theorem State.takeFree_val : s.takeFree.1 = Config.freeValue s.free := rfl

end Sys2Proof.Machine
end

