-- ==== Sys2Proof/Laws/Regs.lean ====
section
/-! SUPPORT. Stored registers and vectors: what a read finds after a write. -/

namespace Sys2Proof.Machine

open Sys2Proof

/-! ### Vectors -/

theorem vget_vupd {α : Type} {n : Nat} (v : Vector α n) (i j : Nat) (f : α → α) (d : α) :
    vget (vupd v i f) j d = if i = j ∧ i < n then f (vget v i d) else vget v j d := by
  unfold vget vupd
  by_cases hi : i < n
  · simp only [Vector.getElem?_eq_getElem hi, hi, and_true]
    by_cases hj : j < n
    · by_cases h : i = j
      · subst h; simp [Array.getD, hi]
      · simp [Array.getD, hj, h]
    · have : i ≠ j := by omega
      simp [Array.getD, hj, this]
  · simp [hi]

theorem vget_vupd_same {α : Type} {n : Nat} (v : Vector α n) (i : Nat) (f : α → α) (d : α) (h : i < n) :
    vget (vupd v i f) i d = f (vget v i d) := by simp [vget_vupd, h]

theorem vget_vupd_ne {α : Type} {n : Nat} (v : Vector α n) {i j : Nat} (f : α → α) (d : α) (h : i ≠ j) :
    vget (vupd v i f) j d = vget v j d := by simp [vget_vupd, h]

theorem vget_map {α : Type} {n : Nat} (v : Vector α n) (i : Nat) (f : α → α) (d : α) (h : i < n) :
    vget (v.map f) i d = f (vget v i d) := by simp [vget, Array.getD, h]

theorem vget_mapIdx {α : Type} {n : Nat} (v : Vector α n) (i : Nat) (f : Nat → α → α) (d : α) (h : i < n) :
    vget (v.mapIdx f) i d = f i (vget v i d) := by simp [vget, Array.getD, h]

/-! ### Registers -/

/-- A stored register holds what was written, every other register what it held. -/
theorem regVal_regSet (s : State) (a b v : Nat) : regVal (regSet a v s) b = if a = b then v else regVal s b := by
  unfold regVal regSet
  simp only [State.mapRegs_regs]
  by_cases h : a = b
  · subst h; rw [mget_mput]
  · simp [h, mget_mput_ne _ _ _ h]

@[simp] theorem regVal_regSet_same (s : State) (a v : Nat) : regVal (regSet a v s) a = v := by simp [regVal_regSet]

theorem regVal_bumpBy (s : State) (a b n : Nat) :
    regVal (bumpBy a n s) b = if a = b then min (2 ^ 32 - 1) (regVal s a + n) else regVal s b := by
  simp [bumpBy, regVal_regSet]

theorem regVal_bump (s : State) (a b : Nat) :
    regVal (bump a s) b = if a = b then min (2 ^ 32 - 1) (regVal s a + 1) else regVal s b := by
  simp [bump, regVal_bumpBy]

theorem regVal_setBits (s : State) (a b m : Nat) :
    regVal (setBits a m s) b = if a = b then regVal s a ||| m else regVal s b := by
  simp [setBits, regVal_regSet]

theorem regVal_fldSet (s : State) (a b lo w v : Nat) :
    regVal (fldSet a lo w v s) b = if a = b then putBits (regVal s a) lo w v else regVal s b := by
  simp [fldSet, regVal_regSet]

/-- A register's value follows from the stored registers alone. -/
theorem regVal_congr {s t : State} (h : s.regs = t.regs) (a : Nat) : regVal s a = regVal t a := by simp [regVal, h]

/-! ### Writing a register leaves the rest of the state -/

@[simp] theorem regSet_pending (a v : Nat) (s : State) : (regSet a v s).pending = s.pending := rfl
@[simp] theorem regSet_tick (a v : Nat) (s : State) : (regSet a v s).tick = s.tick := rfl
@[simp] theorem regSet_free (a v : Nat) (s : State) : (regSet a v s).free = s.free := rfl
@[simp] theorem regSet_coll (a v : Nat) (s : State) : (regSet a v s).coll = s.coll := rfl
@[simp] theorem regSet_press (a v : Nat) (s : State) : (regSet a v s).press = s.press := rfl
@[simp] theorem regSet_host (a v : Nat) (s : State) : (regSet a v s).host = s.host := rfl
@[simp] theorem regSet_cmp (a v : Nat) (s : State) : (regSet a v s).cmp = s.cmp := rfl
@[simp] theorem regSet_qos (a v : Nat) (s : State) : (regSet a v s).qos = s.qos := rfl
@[simp] theorem regSet_cellar (a v : Nat) (s : State) : (regSet a v s).cellar = s.cellar := rfl
@[simp] theorem regSet_mem (a v : Nat) (s : State) : (regSet a v s).mem = s.mem := rfl
@[simp] theorem regSet_line (a v : Nat) (s : State) : (regSet a v s).line = s.line := rfl
@[simp] theorem regSet_opt (a v : Nat) (s : State) : (regSet a v s).opt = s.opt := rfl
@[simp] theorem regSet_sec (a v : Nat) (s : State) : (regSet a v s).sec = s.sec := rfl
@[simp] theorem regSet_sites (a v : Nat) (s : State) : (regSet a v s).sites = s.sites := rfl
@[simp] theorem regSet_flt (a v : Nat) (s : State) : (regSet a v s).flt = s.flt := rfl
@[simp] theorem regSet_time (a v : Nat) (s : State) : (regSet a v s).time = s.time := rfl
@[simp] theorem regSet_mgt (a v : Nat) (s : State) : (regSet a v s).mgt = s.mgt := rfl
@[simp] theorem regSet_bru (a v : Nat) (s : State) : (regSet a v s).bru = s.bru := rfl
@[simp] theorem regSet_out (a v : Nat) (s : State) : (regSet a v s).out = s.out := rfl

@[simp] theorem fldSet_pending (a lo w v : Nat) (s : State) : (fldSet a lo w v s).pending = s.pending := rfl
@[simp] theorem fldSet_tick (a lo w v : Nat) (s : State) : (fldSet a lo w v s).tick = s.tick := rfl
@[simp] theorem fldSet_free (a lo w v : Nat) (s : State) : (fldSet a lo w v s).free = s.free := rfl
@[simp] theorem fldSet_coll (a lo w v : Nat) (s : State) : (fldSet a lo w v s).coll = s.coll := rfl
@[simp] theorem fldSet_press (a lo w v : Nat) (s : State) : (fldSet a lo w v s).press = s.press := rfl
@[simp] theorem fldSet_host (a lo w v : Nat) (s : State) : (fldSet a lo w v s).host = s.host := rfl
@[simp] theorem fldSet_cmp (a lo w v : Nat) (s : State) : (fldSet a lo w v s).cmp = s.cmp := rfl
@[simp] theorem fldSet_qos (a lo w v : Nat) (s : State) : (fldSet a lo w v s).qos = s.qos := rfl
@[simp] theorem fldSet_cellar (a lo w v : Nat) (s : State) : (fldSet a lo w v s).cellar = s.cellar := rfl
@[simp] theorem fldSet_mem (a lo w v : Nat) (s : State) : (fldSet a lo w v s).mem = s.mem := rfl
@[simp] theorem fldSet_line (a lo w v : Nat) (s : State) : (fldSet a lo w v s).line = s.line := rfl
@[simp] theorem fldSet_opt (a lo w v : Nat) (s : State) : (fldSet a lo w v s).opt = s.opt := rfl
@[simp] theorem fldSet_sec (a lo w v : Nat) (s : State) : (fldSet a lo w v s).sec = s.sec := rfl
@[simp] theorem fldSet_sites (a lo w v : Nat) (s : State) : (fldSet a lo w v s).sites = s.sites := rfl
@[simp] theorem fldSet_flt (a lo w v : Nat) (s : State) : (fldSet a lo w v s).flt = s.flt := rfl
@[simp] theorem fldSet_time (a lo w v : Nat) (s : State) : (fldSet a lo w v s).time = s.time := rfl
@[simp] theorem fldSet_mgt (a lo w v : Nat) (s : State) : (fldSet a lo w v s).mgt = s.mgt := rfl
@[simp] theorem fldSet_bru (a lo w v : Nat) (s : State) : (fldSet a lo w v s).bru = s.bru := rfl
@[simp] theorem fldSet_out (a lo w v : Nat) (s : State) : (fldSet a lo w v s).out = s.out := rfl

@[simp] theorem setBits_pending (a m : Nat) (s : State) : (setBits a m s).pending = s.pending := rfl
@[simp] theorem setBits_tick (a m : Nat) (s : State) : (setBits a m s).tick = s.tick := rfl
@[simp] theorem setBits_free (a m : Nat) (s : State) : (setBits a m s).free = s.free := rfl
@[simp] theorem setBits_coll (a m : Nat) (s : State) : (setBits a m s).coll = s.coll := rfl
@[simp] theorem setBits_press (a m : Nat) (s : State) : (setBits a m s).press = s.press := rfl
@[simp] theorem setBits_host (a m : Nat) (s : State) : (setBits a m s).host = s.host := rfl
@[simp] theorem setBits_cmp (a m : Nat) (s : State) : (setBits a m s).cmp = s.cmp := rfl
@[simp] theorem setBits_qos (a m : Nat) (s : State) : (setBits a m s).qos = s.qos := rfl
@[simp] theorem setBits_cellar (a m : Nat) (s : State) : (setBits a m s).cellar = s.cellar := rfl
@[simp] theorem setBits_mem (a m : Nat) (s : State) : (setBits a m s).mem = s.mem := rfl
@[simp] theorem setBits_line (a m : Nat) (s : State) : (setBits a m s).line = s.line := rfl
@[simp] theorem setBits_opt (a m : Nat) (s : State) : (setBits a m s).opt = s.opt := rfl
@[simp] theorem setBits_sec (a m : Nat) (s : State) : (setBits a m s).sec = s.sec := rfl
@[simp] theorem setBits_sites (a m : Nat) (s : State) : (setBits a m s).sites = s.sites := rfl
@[simp] theorem setBits_flt (a m : Nat) (s : State) : (setBits a m s).flt = s.flt := rfl
@[simp] theorem setBits_time (a m : Nat) (s : State) : (setBits a m s).time = s.time := rfl
@[simp] theorem setBits_mgt (a m : Nat) (s : State) : (setBits a m s).mgt = s.mgt := rfl
@[simp] theorem setBits_bru (a m : Nat) (s : State) : (setBits a m s).bru = s.bru := rfl
@[simp] theorem setBits_out (a m : Nat) (s : State) : (setBits a m s).out = s.out := rfl

@[simp] theorem bumpBy_pending (a n : Nat) (s : State) : (bumpBy a n s).pending = s.pending := rfl
@[simp] theorem bumpBy_tick (a n : Nat) (s : State) : (bumpBy a n s).tick = s.tick := rfl
@[simp] theorem bumpBy_free (a n : Nat) (s : State) : (bumpBy a n s).free = s.free := rfl
@[simp] theorem bumpBy_coll (a n : Nat) (s : State) : (bumpBy a n s).coll = s.coll := rfl
@[simp] theorem bumpBy_press (a n : Nat) (s : State) : (bumpBy a n s).press = s.press := rfl
@[simp] theorem bumpBy_host (a n : Nat) (s : State) : (bumpBy a n s).host = s.host := rfl
@[simp] theorem bumpBy_cmp (a n : Nat) (s : State) : (bumpBy a n s).cmp = s.cmp := rfl
@[simp] theorem bumpBy_qos (a n : Nat) (s : State) : (bumpBy a n s).qos = s.qos := rfl
@[simp] theorem bumpBy_cellar (a n : Nat) (s : State) : (bumpBy a n s).cellar = s.cellar := rfl
@[simp] theorem bumpBy_mem (a n : Nat) (s : State) : (bumpBy a n s).mem = s.mem := rfl
@[simp] theorem bumpBy_line (a n : Nat) (s : State) : (bumpBy a n s).line = s.line := rfl
@[simp] theorem bumpBy_opt (a n : Nat) (s : State) : (bumpBy a n s).opt = s.opt := rfl
@[simp] theorem bumpBy_sec (a n : Nat) (s : State) : (bumpBy a n s).sec = s.sec := rfl
@[simp] theorem bumpBy_sites (a n : Nat) (s : State) : (bumpBy a n s).sites = s.sites := rfl
@[simp] theorem bumpBy_flt (a n : Nat) (s : State) : (bumpBy a n s).flt = s.flt := rfl
@[simp] theorem bumpBy_time (a n : Nat) (s : State) : (bumpBy a n s).time = s.time := rfl
@[simp] theorem bumpBy_mgt (a n : Nat) (s : State) : (bumpBy a n s).mgt = s.mgt := rfl
@[simp] theorem bumpBy_bru (a n : Nat) (s : State) : (bumpBy a n s).bru = s.bru := rfl
@[simp] theorem bumpBy_out (a n : Nat) (s : State) : (bumpBy a n s).out = s.out := rfl

@[simp] theorem bump_pending (a : Nat) (s : State) : (bump a s).pending = s.pending := rfl
@[simp] theorem bump_tick (a : Nat) (s : State) : (bump a s).tick = s.tick := rfl
@[simp] theorem bump_free (a : Nat) (s : State) : (bump a s).free = s.free := rfl
@[simp] theorem bump_coll (a : Nat) (s : State) : (bump a s).coll = s.coll := rfl
@[simp] theorem bump_press (a : Nat) (s : State) : (bump a s).press = s.press := rfl
@[simp] theorem bump_host (a : Nat) (s : State) : (bump a s).host = s.host := rfl
@[simp] theorem bump_cmp (a : Nat) (s : State) : (bump a s).cmp = s.cmp := rfl
@[simp] theorem bump_qos (a : Nat) (s : State) : (bump a s).qos = s.qos := rfl
@[simp] theorem bump_cellar (a : Nat) (s : State) : (bump a s).cellar = s.cellar := rfl
@[simp] theorem bump_mem (a : Nat) (s : State) : (bump a s).mem = s.mem := rfl
@[simp] theorem bump_line (a : Nat) (s : State) : (bump a s).line = s.line := rfl
@[simp] theorem bump_opt (a : Nat) (s : State) : (bump a s).opt = s.opt := rfl
@[simp] theorem bump_sec (a : Nat) (s : State) : (bump a s).sec = s.sec := rfl
@[simp] theorem bump_sites (a : Nat) (s : State) : (bump a s).sites = s.sites := rfl
@[simp] theorem bump_flt (a : Nat) (s : State) : (bump a s).flt = s.flt := rfl
@[simp] theorem bump_time (a : Nat) (s : State) : (bump a s).time = s.time := rfl
@[simp] theorem bump_mgt (a : Nat) (s : State) : (bump a s).mgt = s.mgt := rfl
@[simp] theorem bump_bru (a : Nat) (s : State) : (bump a s).bru = s.bru := rfl
@[simp] theorem bump_out (a : Nat) (s : State) : (bump a s).out = s.out := rfl

end Sys2Proof.Machine
end

