-- ==== Sys2Proof/Laws/Events.lean ====
section
/-! SUPPORT. Events: what raising one leaves in every block of the state, and how it is counted. -/

namespace Sys2Proof.Machine

open Sys2Proof

/-- What every step of a fold keeps, the fold keeps. -/
theorem foldl_rel {α β : Type} (R : β → β → Prop) (hr : ∀ b, R b b) (ht : ∀ a b c, R a b → R b c → R a c)
    (f : β → α → β) (h : ∀ b a, R b (f b a)) (l : List α) (b : β) : R b (l.foldl f b) := by
  induction l generalizing b with
  | nil => exact hr b
  | cons a l ih => exact ht _ _ _ (h b a) (ih (f b a))

/-- Two states that agree on everything an event does not touch: the event machinery writes the stored registers, the Press's
`running`, the sessions, the schedulers and the fault block. -/
structure Agree (s t : State) : Prop where
  pending : t.pending = s.pending
  tick : t.tick = s.tick
  free : t.free = s.free
  coll : t.coll = s.coll
  cmp : t.cmp = s.cmp
  cellar : t.cellar = s.cellar
  mem : t.mem = s.mem
  line : t.line = s.line
  opt : t.opt = s.opt
  sec : t.sec = s.sec
  sites : t.sites = s.sites
  time : t.time = s.time
  mgt : t.mgt = s.mgt
  bru : t.bru = s.bru
  out : t.out = s.out

theorem Agree.refl (s : State) : Agree s s := by constructor <;> rfl

theorem Agree.trans {s t u : State} (a : Agree s t) (b : Agree t u) : Agree s u := by
  constructor
  · exact b.pending.trans a.pending
  · exact b.tick.trans a.tick
  · exact b.free.trans a.free
  · exact b.coll.trans a.coll
  · exact b.cmp.trans a.cmp
  · exact b.cellar.trans a.cellar
  · exact b.mem.trans a.mem
  · exact b.line.trans a.line
  · exact b.opt.trans a.opt
  · exact b.sec.trans a.sec
  · exact b.sites.trans a.sites
  · exact b.time.trans a.time
  · exact b.mgt.trans a.mgt
  · exact b.bru.trans a.bru
  · exact b.out.trans a.out

theorem Agree.foldl {α : Type} (f : State → α → State) (h : ∀ b a, Agree b (f b a)) (l : List α) (s : State) :
    Agree s (l.foldl f s) := foldl_rel Agree Agree.refl (fun _ _ _ => Agree.trans) f h l s

/-! ### The pieces -/

theorem regSet_agree (a v : Nat) (s : State) : Agree s (regSet a v s) := by constructor <;> rfl
theorem bump_agree (a : Nat) (s : State) : Agree s (bump a s) := by constructor <;> rfl
theorem setBits_agree (a m : Nat) (s : State) : Agree s (setBits a m s) := by constructor <;> rfl

theorem mbxSend_agree (sid k m r : Nat) (b : List Byte) (s : State) : Agree s (mbxSend sid k m r b s) := by
  unfold mbxSend; split <;> (constructor <;> rfl)

theorem mbxSend_flt (sid k m r : Nat) (b : List Byte) (s : State) :
    (mbxSend sid k m r b s).flt = s.flt ∧ (mbxSend sid k m r b s).press = s.press ∧ (mbxSend sid k m r b s).regs = s.regs := by
  unfold mbxSend; split <;> exact ⟨rfl, rfl, rfl⟩

theorem deliverEvent_agree (e : EventRec) (s : State) : Agree s (deliverEvent e s) := by
  unfold deliverEvent
  apply Agree.foldl
  intro b x
  split <;> split <;> first | exact mbxSend_agree .. | exact Agree.refl _

theorem deliverEvent_flt (e : EventRec) (s : State) :
    (deliverEvent e s).flt = s.flt ∧ (deliverEvent e s).press = s.press ∧ (deliverEvent e s).regs = s.regs := by
  unfold deliverEvent
  refine foldl_rel (fun a b : State => b.flt = a.flt ∧ b.press = a.press ∧ b.regs = a.regs) (fun _ => ⟨rfl, rfl, rfl⟩) ?_ _ ?_ _ _
  · intro a b c h k; exact ⟨k.1.trans h.1, k.2.1.trans h.2.1, k.2.2.trans h.2.2⟩
  · intro b x
    split <;> split <;> first | exact mbxSend_flt .. | exact ⟨rfl, rfl, rfl⟩

/-- A Ledger record changes the two streams and nothing else. -/
theorem ledgerWrite_eq (k c : Nat) (b : List Byte) (s : State) : ∃ x y, ledgerWrite k c b s = s.mapFlt (Flt.withStreams x y) := by
  unfold ledgerWrite; exact ⟨_, _, rfl⟩

theorem ledgerWrite_agree (k c : Nat) (b : List Byte) (s : State) : Agree s (ledgerWrite k c b s) := by
  obtain ⟨x, y, h⟩ := ledgerWrite_eq k c b s
  rw [h]; constructor <;> rfl

theorem ledgerWrite_rest (k c : Nat) (b : List Byte) (s : State) : (ledgerWrite k c b s).flt.counts = s.flt.counts ∧
    (ledgerWrite k c b s).press = s.press ∧ (ledgerWrite k c b s).regs = s.regs := by
  obtain ⟨x, y, h⟩ := ledgerWrite_eq k c b s
  rw [h]; exact ⟨rfl, rfl, rfl⟩

theorem beginCapture_agree (c : Nat) (s : State) : Agree s (beginCapture c s) := by
  unfold beginCapture; split
  · constructor <;> rfl
  · split <;> (constructor <;> rfl)

theorem beginCapture_rest (c : Nat) (s : State) : (beginCapture c s).flt.counts = s.flt.counts ∧
    (beginCapture c s).press = s.press ∧ (beginCapture c s).regs = s.regs := by
  unfold beginCapture; split
  · exact ⟨rfl, rfl, rfl⟩
  · split <;> exact ⟨rfl, rfl, rfl⟩

theorem noteEvent_agree (e : EventRec) (s : State) : Agree s (noteEvent e s) := by constructor <;> rfl

theorem countEvent_agree (c : Nat) (h : Bool) (s : State) : Agree s (countEvent c h s) := by
  unfold countEvent; extract_lets s2 s3
  have k : Agree s s3 := by
    show Agree s (if h = true then _ else _)
    split
    · exact (bump_agree _ _).trans (bump_agree _ _)
    · exact bump_agree _ _
  split
  · exact k.trans ((setBits_agree _ _ _).trans (setBits_agree _ _ _))
  · exact k

theorem countEvent_rest (c : Nat) (h : Bool) (s : State) : (countEvent c h s).flt = s.flt ∧ (countEvent c h s).press = s.press := by
  unfold countEvent; extract_lets s2 s3
  have k : s3.flt = s.flt ∧ s3.press = s.press := by
    show (if h = true then _ else _ : State).flt = s.flt ∧ (if h = true then _ else _ : State).press = s.press
    split <;> exact ⟨rfl, rfl⟩
  split
  · simpa using k
  · exact k

theorem stopIfFatal_agree (c : Nat) (s : State) : Agree s (stopIfFatal c s) := by
  unfold stopIfFatal; split <;> (constructor <;> rfl)

/-! ### Raising -/

theorem raiseCore_agree (c : Nat) (a : List Nat) (s : State) : Agree s (raiseCore c a s) := by
  have h : ∀ x : State, Agree s x → ∀ e b, Agree s (if b = true then deliverEvent e (stopIfFatal c (countEvent c (recordHeld x) (noteEvent e x)))
      else stopIfFatal c (countEvent c (recordHeld x) (noteEvent e x))) := by
    intro x hx e b
    have k := hx.trans ((noteEvent_agree e x).trans ((countEvent_agree c (recordHeld x) _).trans (stopIfFatal_agree c _)))
    split
    · exact k.trans (deliverEvent_agree _ _)
    · exact k
  unfold raiseCore
  apply h
  split
  · exact beginCapture_agree c s
  · exact Agree.refl s

/-- Raising an event adds one to its count. -/
theorem raiseCore_counts (c : Nat) (a : List Nat) (s : State) :
    (raiseCore c a s).flt.counts = mupdD s.flt.counts c 0 (· + 1) := by
  have h : ∀ x : State, x.flt.counts = s.flt.counts → ∀ (e : EventRec) (b : Bool), e.code = c →
      (if b = true then deliverEvent e (stopIfFatal c (countEvent c (recordHeld x) (noteEvent e x)))
      else stopIfFatal c (countEvent c (recordHeld x) (noteEvent e x))).flt.counts = mupdD s.flt.counts c 0 (· + 1) := by
    intro x hx e b he
    have k : (stopIfFatal c (countEvent c (recordHeld x) (noteEvent e x))).flt.counts = mupdD s.flt.counts c 0 (· + 1) := by
      have : ∀ y : State, (stopIfFatal c y).flt = y.flt := by intro y; unfold stopIfFatal; split <;> rfl
      rw [this, (countEvent_rest c _ _).1]
      simp [noteEvent, hx, he]
    split
    · rw [(deliverEvent_flt _ _).1]; exact k
    · exact k
  unfold raiseCore
  apply h
  · split
    · exact (beginCapture_rest c s).1
    · rfl
  · rfl

/-- Raising an event leaves the Press, but for a fatal event, which stops it. -/
theorem raiseCore_press (c : Nat) (a : List Nat) (s : State) :
    (raiseCore c a s).press = if evClass c = 12 then { s.press with running := false } else s.press := by
  have h : ∀ x : State, x.press = s.press → ∀ (e : EventRec) (b : Bool),
      (if b = true then deliverEvent e (stopIfFatal c (countEvent c (recordHeld x) (noteEvent e x)))
      else stopIfFatal c (countEvent c (recordHeld x) (noteEvent e x))).press =
        if evClass c = 12 then { s.press with running := false } else s.press := by
    intro x hx e b
    have k : (stopIfFatal c (countEvent c (recordHeld x) (noteEvent e x))).press =
        if evClass c = 12 then { s.press with running := false } else s.press := by
      unfold stopIfFatal
      split
      · simp [(countEvent_rest c _ _).2, noteEvent, hx]
      · rw [(countEvent_rest c _ _).2]; exact hx
    split
    · rw [(deliverEvent_flt _ _).2.1]; exact k
    · exact k
  unfold raiseCore
  apply h
  split
  · exact (beginCapture_rest c s).2.1
  · rfl

/-- The registers in which raising an event shows: MGT_NMI_SUMMARY, FLT_STATUS and the counters of events and records. -/
def eventRegs : List Nat :=
  [0x00000010, 0x00340008, 0x00340040, 0x00340044, 0x00340048, 0x0034004C, 0x00340050, 0x00340058, 0x0034005C]

theorem classCounter_mem (n : Nat) : classCounter n ∈ eventRegs := by
  unfold classCounter eventRegs; repeat' split
  all_goals simp

theorem countEvent_regVal (c : Nat) (h : Bool) (s : State) (r : Nat) (hr : r ∉ eventRegs) :
    regVal (countEvent c h s) r = regVal s r := by
  have h1 : classCounter (evClass c) ≠ r := fun e => hr (e ▸ classCounter_mem _)
  have h2 : (0x00340058 : Nat) ≠ r := fun e => hr (e ▸ by simp [eventRegs])
  have h3 : (0x00000010 : Nat) ≠ r := fun e => hr (e ▸ by simp [eventRegs])
  have h4 : (0x00340008 : Nat) ≠ r := fun e => hr (e ▸ by simp [eventRegs])
  unfold countEvent
  cases h <;> simp only [] <;> split <;> simp [regVal_bump, regVal_setBits, h1, h2, h3, h4]

theorem raiseCore_regVal (c : Nat) (a : List Nat) (s : State) (r : Nat) (hr : r ∉ eventRegs) :
    regVal (raiseCore c a s) r = regVal s r := by
  have h : ∀ x : State, x.regs = s.regs → ∀ (e : EventRec) (b : Bool),
      regVal (if b = true then deliverEvent e (stopIfFatal c (countEvent c (recordHeld x) (noteEvent e x)))
      else stopIfFatal c (countEvent c (recordHeld x) (noteEvent e x))) r = regVal s r := by
    intro x hx e b
    have k : regVal (stopIfFatal c (countEvent c (recordHeld x) (noteEvent e x))) r = regVal s r := by
      have : (stopIfFatal c (countEvent c (recordHeld x) (noteEvent e x))).regs = (countEvent c (recordHeld x) (noteEvent e x)).regs := by
        unfold stopIfFatal; split <;> rfl
      rw [regVal_congr this, countEvent_regVal _ _ _ _ hr]
      exact regVal_congr hx r
    split
    · rw [regVal_congr (deliverEvent_flt _ _).2.2]; exact k
    · exact k
  unfold raiseCore
  apply h
  split
  · exact (beginCapture_rest c s).2.2
  · rfl

theorem mapFlt_agree (f : Flt → Flt) (s : State) : Agree s (s.mapFlt f) := by constructor <;> rfl

theorem dropWarning_agree (c : Nat) (s : State) : Agree s (dropWarning c s) := by
  unfold dropWarning; extract_lets s1
  have k : Agree s s1 := (mapFlt_agree _ s).trans (bump_agree _ _)
  split
  · exact k.trans ((mapFlt_agree _ _).trans (raiseCore_agree ..))
  · exact k

theorem warnRecord_agree (c : Nat) (e : EventRec) (s : State) : Agree s (warnRecord c e s) := by
  unfold warnRecord
  split
  · exact Agree.refl s
  · split
    · exact (mapFlt_agree _ s).trans (ledgerWrite_agree ..)
    · exact dropWarning_agree ..

theorem ledgerEvent_agree (c : Nat) (e : EventRec) (s : State) : Agree s (ledgerEvent c e s) := by
  unfold ledgerEvent; extract_lets s1 s2
  have k : Agree s s1 := ledgerWrite_agree ..
  split
  · exact k.trans ((mapFlt_agree _ _).trans ((raiseCore_agree ..).trans (warnRecord_agree ..)))
  · exact k

theorem raiseLedger_agree (c : Nat) (a : List Nat) (s : State) : Agree s (raiseLedger c a s) := by
  unfold raiseLedger; extract_lets e
  split
  · exact ledgerEvent_agree ..
  · split
    · exact warnRecord_agree ..
    · exact Agree.refl s

theorem raise_agree (c : Nat) (a : List Nat) (s : State) : Agree s (raise c a s) :=
  (raiseCore_agree c a s).trans (raiseLedger_agree c a _)

/-- Two states that agree in the counts of events other than the Ledger's own two, in the Press and in the registers that no
event touches. -/
structure Alike (s t : State) : Prop where
  seen : ∀ d, d ≠ 0x4F02 → d ≠ 0x4F03 → seen t d = seen s d
  press : t.press = s.press
  regVal : ∀ r, r ∉ eventRegs → regVal t r = regVal s r

theorem Alike.trans {s t u : State} (a : Alike s t) (b : Alike t u) : Alike s u :=
  ⟨fun d h k => (b.seen d h k).trans (a.seen d h k), b.press.trans a.press, fun r h => (b.regVal r h).trans (a.regVal r h)⟩

theorem Alike.of_eq {s t : State} (h1 : t.flt.counts = s.flt.counts) (h2 : t.press = s.press) (h3 : t.regs = s.regs) : Alike s t :=
  ⟨fun d _ _ => by simp [Machine.seen, h1], h2, fun r _ => regVal_congr h3 r⟩

theorem mapFlt_alike (f : Flt → Flt) (h : ∀ x, (f x).counts = x.counts) (s : State) : Alike s (s.mapFlt f) :=
  Alike.of_eq (h s.flt) rfl rfl

theorem bump_alike (r : Nat) (h : r ∈ eventRegs) (s : State) : Alike s (bump r s) :=
  ⟨fun _ _ _ => rfl, rfl, fun q hq => by
    have : r ≠ q := fun e => hq (e ▸ h)
    rw [regVal_bump, if_neg this]⟩

theorem raiseCore_alike (k : Nat) (h : k = 0x4F02 ∨ k = 0x4F03) (s : State) : Alike s (raiseCore k [] s) := by
  refine ⟨?_, ?_, fun r hr => raiseCore_regVal _ _ _ _ hr⟩
  · intro d hd he
    have : k ≠ d := by rcases h with rfl | rfl <;> omega
    simp [Machine.seen, raiseCore_counts, mgetD_mupdD, this]
  · rw [raiseCore_press]; rcases h with rfl | rfl <;> simp [evClass]

theorem dropWarning_alike (c : Nat) (s : State) : Alike s (dropWarning c s) := by
  unfold dropWarning; extract_lets s1
  have k : Alike s s1 := by
    refine (mapFlt_alike _ ?_ s).trans (bump_alike 0x0034005C (by simp [eventRegs]) _)
    intro; rfl
  split
  · refine k.trans ((mapFlt_alike _ ?_ s1).trans (raiseCore_alike _ (.inr rfl) _))
    intro; rfl
  · exact k

theorem ledgerWrite_alike (k c : Nat) (b : List Byte) (s : State) : Alike s (ledgerWrite k c b s) :=
  Alike.of_eq (ledgerWrite_rest ..).1 (ledgerWrite_rest ..).2.1 (ledgerWrite_rest ..).2.2

theorem warnRecord_alike (c : Nat) (e : EventRec) (s : State) : Alike s (warnRecord c e s) := by
  unfold warnRecord
  split
  · exact Alike.of_eq rfl rfl rfl
  · split
    · refine (mapFlt_alike _ ?_ s).trans (ledgerWrite_alike ..)
      intro; rfl
    · exact dropWarning_alike ..

theorem ledgerEvent_alike (c : Nat) (e : EventRec) (s : State) : Alike s (ledgerEvent c e s) := by
  unfold ledgerEvent; extract_lets s1 s2
  have k : Alike s s1 := ledgerWrite_alike ..
  split
  · refine k.trans ((mapFlt_alike _ ?_ s1).trans ((raiseCore_alike _ (.inl rfl) _).trans (warnRecord_alike ..)))
    intro; rfl
  · exact k

theorem raiseLedger_alike (c : Nat) (a : List Nat) (s : State) : Alike s (raiseLedger c a s) := by
  unfold raiseLedger; extract_lets e
  split
  · exact ledgerEvent_alike ..
  · split
    · exact warnRecord_alike ..
    · exact Alike.of_eq rfl rfl rfl

/-- An event raised is counted once; no other count changes but the Ledger's own. -/
theorem seen_raise (c : Nat) (a : List Nat) (s : State) (d : Nat) (h1 : d ≠ 0x4F02) (h2 : d ≠ 0x4F03) :
    seen (raise c a s) d = if c = d then seen s c + 1 else seen s d := by
  unfold raise
  rw [(raiseLedger_alike c a _).seen d h1 h2]
  simp [seen, raiseCore_counts, mgetD_mupdD]

theorem raise_press (c : Nat) (a : List Nat) (s : State) :
    (raise c a s).press = if evClass c = 12 then { s.press with running := false } else s.press := by
  unfold raise; rw [(raiseLedger_alike c a _).press, raiseCore_press]

theorem raise_regVal (c : Nat) (a : List Nat) (s : State) (r : Nat) (hr : r ∉ eventRegs) :
    regVal (raise c a s) r = regVal s r := by
  unfold raise; rw [(raiseLedger_alike c a _).regVal r hr, raiseCore_regVal _ _ _ _ hr]


/-! ### Fields after raise -/

@[simp] theorem raise_pending (c : Nat) (a : List Nat) (s : State) : (raise c a s).pending = s.pending := (raise_agree _ _ s).pending
@[simp] theorem raise_tick (c : Nat) (a : List Nat) (s : State) : (raise c a s).tick = s.tick := (raise_agree _ _ s).tick
@[simp] theorem raise_free (c : Nat) (a : List Nat) (s : State) : (raise c a s).free = s.free := (raise_agree _ _ s).free
@[simp] theorem raise_coll (c : Nat) (a : List Nat) (s : State) : (raise c a s).coll = s.coll := (raise_agree _ _ s).coll
@[simp] theorem raise_cmp (c : Nat) (a : List Nat) (s : State) : (raise c a s).cmp = s.cmp := (raise_agree _ _ s).cmp
@[simp] theorem raise_cellar (c : Nat) (a : List Nat) (s : State) : (raise c a s).cellar = s.cellar := (raise_agree _ _ s).cellar
@[simp] theorem raise_mem (c : Nat) (a : List Nat) (s : State) : (raise c a s).mem = s.mem := (raise_agree _ _ s).mem
@[simp] theorem raise_line (c : Nat) (a : List Nat) (s : State) : (raise c a s).line = s.line := (raise_agree _ _ s).line
@[simp] theorem raise_opt (c : Nat) (a : List Nat) (s : State) : (raise c a s).opt = s.opt := (raise_agree _ _ s).opt
@[simp] theorem raise_sec (c : Nat) (a : List Nat) (s : State) : (raise c a s).sec = s.sec := (raise_agree _ _ s).sec
@[simp] theorem raise_sites (c : Nat) (a : List Nat) (s : State) : (raise c a s).sites = s.sites := (raise_agree _ _ s).sites
@[simp] theorem raise_time (c : Nat) (a : List Nat) (s : State) : (raise c a s).time = s.time := (raise_agree _ _ s).time
@[simp] theorem raise_mgt (c : Nat) (a : List Nat) (s : State) : (raise c a s).mgt = s.mgt := (raise_agree _ _ s).mgt
@[simp] theorem raise_bru (c : Nat) (a : List Nat) (s : State) : (raise c a s).bru = s.bru := (raise_agree _ _ s).bru
@[simp] theorem raise_out (c : Nat) (a : List Nat) (s : State) : (raise c a s).out = s.out := (raise_agree _ _ s).out

/-! ### Fields after mbxSend -/

@[simp] theorem mbxSend_pending (sid k m r : Nat) (b : List Byte) (s : State) : (mbxSend sid k m r b s).pending = s.pending := (mbxSend_agree _ _ _ _ _ s).pending
@[simp] theorem mbxSend_tick (sid k m r : Nat) (b : List Byte) (s : State) : (mbxSend sid k m r b s).tick = s.tick := (mbxSend_agree _ _ _ _ _ s).tick
@[simp] theorem mbxSend_free (sid k m r : Nat) (b : List Byte) (s : State) : (mbxSend sid k m r b s).free = s.free := (mbxSend_agree _ _ _ _ _ s).free
@[simp] theorem mbxSend_coll (sid k m r : Nat) (b : List Byte) (s : State) : (mbxSend sid k m r b s).coll = s.coll := (mbxSend_agree _ _ _ _ _ s).coll
@[simp] theorem mbxSend_cmp (sid k m r : Nat) (b : List Byte) (s : State) : (mbxSend sid k m r b s).cmp = s.cmp := (mbxSend_agree _ _ _ _ _ s).cmp
@[simp] theorem mbxSend_cellar (sid k m r : Nat) (b : List Byte) (s : State) : (mbxSend sid k m r b s).cellar = s.cellar := (mbxSend_agree _ _ _ _ _ s).cellar
@[simp] theorem mbxSend_mem (sid k m r : Nat) (b : List Byte) (s : State) : (mbxSend sid k m r b s).mem = s.mem := (mbxSend_agree _ _ _ _ _ s).mem
@[simp] theorem mbxSend_line (sid k m r : Nat) (b : List Byte) (s : State) : (mbxSend sid k m r b s).line = s.line := (mbxSend_agree _ _ _ _ _ s).line
@[simp] theorem mbxSend_opt (sid k m r : Nat) (b : List Byte) (s : State) : (mbxSend sid k m r b s).opt = s.opt := (mbxSend_agree _ _ _ _ _ s).opt
@[simp] theorem mbxSend_sec (sid k m r : Nat) (b : List Byte) (s : State) : (mbxSend sid k m r b s).sec = s.sec := (mbxSend_agree _ _ _ _ _ s).sec
@[simp] theorem mbxSend_sites (sid k m r : Nat) (b : List Byte) (s : State) : (mbxSend sid k m r b s).sites = s.sites := (mbxSend_agree _ _ _ _ _ s).sites
@[simp] theorem mbxSend_time (sid k m r : Nat) (b : List Byte) (s : State) : (mbxSend sid k m r b s).time = s.time := (mbxSend_agree _ _ _ _ _ s).time
@[simp] theorem mbxSend_mgt (sid k m r : Nat) (b : List Byte) (s : State) : (mbxSend sid k m r b s).mgt = s.mgt := (mbxSend_agree _ _ _ _ _ s).mgt
@[simp] theorem mbxSend_bru (sid k m r : Nat) (b : List Byte) (s : State) : (mbxSend sid k m r b s).bru = s.bru := (mbxSend_agree _ _ _ _ _ s).bru
@[simp] theorem mbxSend_out (sid k m r : Nat) (b : List Byte) (s : State) : (mbxSend sid k m r b s).out = s.out := (mbxSend_agree _ _ _ _ _ s).out

/-! ### Fields after deliverEvent -/

@[simp] theorem deliverEvent_pending (e : EventRec) (s : State) : (deliverEvent e s).pending = s.pending := (deliverEvent_agree _ s).pending
@[simp] theorem deliverEvent_tick (e : EventRec) (s : State) : (deliverEvent e s).tick = s.tick := (deliverEvent_agree _ s).tick
@[simp] theorem deliverEvent_free (e : EventRec) (s : State) : (deliverEvent e s).free = s.free := (deliverEvent_agree _ s).free
@[simp] theorem deliverEvent_coll (e : EventRec) (s : State) : (deliverEvent e s).coll = s.coll := (deliverEvent_agree _ s).coll
@[simp] theorem deliverEvent_cmp (e : EventRec) (s : State) : (deliverEvent e s).cmp = s.cmp := (deliverEvent_agree _ s).cmp
@[simp] theorem deliverEvent_cellar (e : EventRec) (s : State) : (deliverEvent e s).cellar = s.cellar := (deliverEvent_agree _ s).cellar
@[simp] theorem deliverEvent_mem (e : EventRec) (s : State) : (deliverEvent e s).mem = s.mem := (deliverEvent_agree _ s).mem
@[simp] theorem deliverEvent_line (e : EventRec) (s : State) : (deliverEvent e s).line = s.line := (deliverEvent_agree _ s).line
@[simp] theorem deliverEvent_opt (e : EventRec) (s : State) : (deliverEvent e s).opt = s.opt := (deliverEvent_agree _ s).opt
@[simp] theorem deliverEvent_sec (e : EventRec) (s : State) : (deliverEvent e s).sec = s.sec := (deliverEvent_agree _ s).sec
@[simp] theorem deliverEvent_sites (e : EventRec) (s : State) : (deliverEvent e s).sites = s.sites := (deliverEvent_agree _ s).sites
@[simp] theorem deliverEvent_time (e : EventRec) (s : State) : (deliverEvent e s).time = s.time := (deliverEvent_agree _ s).time
@[simp] theorem deliverEvent_mgt (e : EventRec) (s : State) : (deliverEvent e s).mgt = s.mgt := (deliverEvent_agree _ s).mgt
@[simp] theorem deliverEvent_bru (e : EventRec) (s : State) : (deliverEvent e s).bru = s.bru := (deliverEvent_agree _ s).bru
@[simp] theorem deliverEvent_out (e : EventRec) (s : State) : (deliverEvent e s).out = s.out := (deliverEvent_agree _ s).out

/-! ### Fields after ledgerWrite -/

@[simp] theorem ledgerWrite_pending (k c : Nat) (b : List Byte) (s : State) : (ledgerWrite k c b s).pending = s.pending := (ledgerWrite_agree _ _ _ s).pending
@[simp] theorem ledgerWrite_tick (k c : Nat) (b : List Byte) (s : State) : (ledgerWrite k c b s).tick = s.tick := (ledgerWrite_agree _ _ _ s).tick
@[simp] theorem ledgerWrite_free (k c : Nat) (b : List Byte) (s : State) : (ledgerWrite k c b s).free = s.free := (ledgerWrite_agree _ _ _ s).free
@[simp] theorem ledgerWrite_coll (k c : Nat) (b : List Byte) (s : State) : (ledgerWrite k c b s).coll = s.coll := (ledgerWrite_agree _ _ _ s).coll
@[simp] theorem ledgerWrite_cmp (k c : Nat) (b : List Byte) (s : State) : (ledgerWrite k c b s).cmp = s.cmp := (ledgerWrite_agree _ _ _ s).cmp
@[simp] theorem ledgerWrite_cellar (k c : Nat) (b : List Byte) (s : State) : (ledgerWrite k c b s).cellar = s.cellar := (ledgerWrite_agree _ _ _ s).cellar
@[simp] theorem ledgerWrite_mem (k c : Nat) (b : List Byte) (s : State) : (ledgerWrite k c b s).mem = s.mem := (ledgerWrite_agree _ _ _ s).mem
@[simp] theorem ledgerWrite_line (k c : Nat) (b : List Byte) (s : State) : (ledgerWrite k c b s).line = s.line := (ledgerWrite_agree _ _ _ s).line
@[simp] theorem ledgerWrite_opt (k c : Nat) (b : List Byte) (s : State) : (ledgerWrite k c b s).opt = s.opt := (ledgerWrite_agree _ _ _ s).opt
@[simp] theorem ledgerWrite_sec (k c : Nat) (b : List Byte) (s : State) : (ledgerWrite k c b s).sec = s.sec := (ledgerWrite_agree _ _ _ s).sec
@[simp] theorem ledgerWrite_sites (k c : Nat) (b : List Byte) (s : State) : (ledgerWrite k c b s).sites = s.sites := (ledgerWrite_agree _ _ _ s).sites
@[simp] theorem ledgerWrite_time (k c : Nat) (b : List Byte) (s : State) : (ledgerWrite k c b s).time = s.time := (ledgerWrite_agree _ _ _ s).time
@[simp] theorem ledgerWrite_mgt (k c : Nat) (b : List Byte) (s : State) : (ledgerWrite k c b s).mgt = s.mgt := (ledgerWrite_agree _ _ _ s).mgt
@[simp] theorem ledgerWrite_bru (k c : Nat) (b : List Byte) (s : State) : (ledgerWrite k c b s).bru = s.bru := (ledgerWrite_agree _ _ _ s).bru
@[simp] theorem ledgerWrite_out (k c : Nat) (b : List Byte) (s : State) : (ledgerWrite k c b s).out = s.out := (ledgerWrite_agree _ _ _ s).out

end Sys2Proof.Machine
end

