-- ==== Sys2Proof/Laws/Mailbox.lean ====
section
/-! SUPPORT. Mailboxes: what an answer leaves, that a called command runs, and that a datagram sealed under a session's key is heard. -/

namespace Sys2Proof.Machine

open Sys2Proof

/-! ### Answers -/

theorem mbxOf_updMbx (s : State) (f : Mbx → Mbx) {m : Nat} (h : m < 8) : mbxOf (updMbx m f s) m = f (mbxOf s m) := by
  simp [mbxOf, updMbx, vget_vupd, h]

/-- An answer leaves its response in the mailbox, which is free again. -/
theorem mbxAnswer_answered (s : State) (st d : Nat) (data : List Byte) {m : Nat} (h : m < 8) :
    Answered s (mbxAnswer m st d data s) m st d data := by
  unfold Answered mbxAnswer
  refine ⟨?_, ?_, ?_⟩
  · simp [mbxOf, updMbx, vget_vupd, h]
  · simp [mbxOf, updMbx, vget_vupd, h]
  · simp [updMbx]

/-- A command that is called and answers OK at once leaves its effect and its answer. -/
theorem runCmd_ok {s : State} {m code : Nat} {ses : Session} {f : Nat → Nat → State → CmdRes} {r : CmdRes} (h : Called s m code ses)
    (hr : f ses.role (mbxOf s m).session s = r) (h0 : r.status = 0) (hd : r.deferred = false) :
    runCmd m code f s = mbxAnswer m 0 r.detail r.data r.state := by
  obtain ⟨_, h1, h2, h3, h4⟩ := h
  unfold runCmd runCmdWith
  simp only [h1, h2, h3, hr, h0, hd]
  by_cases ho : ownerOnly code = true
  · simp [h4 ho]
  · simp [ho]

/-! ### Datagrams -/

theorem take_drop_append {l r : List Byte} {off k : Nat} (h : off + k ≤ l.length) : ((l ++ r).drop off).take k = (l.drop off).take k := by
  rw [List.drop_append_of_le_length (by omega), List.take_append_of_le_length (by rw [List.length_drop]; omega)]

theorem beAt_append {l r : List Byte} {off k : Nat} (h : off + k ≤ l.length) : beAt (l ++ r) off k = beAt l off k := by
  rw [beAt, beAt, take_drop_append h]

theorem byteAt_append {l r : List Byte} {i : Nat} (h : i < l.length) : byteAt (l ++ r) i = byteAt l i := by
  simp only [byteAt, List.getD_eq_getElem?_getD, List.getElem?_append_left h]

/-- The form of a datagram is that of its header, with its length. -/
theorem mbxForm_append {hdr r : List Byte} {kind : Nat} (hl : hdr.length = 32) (hr : r.length = mbxBodyLen hdr + (if kind ≤ 2 then 0 else 16))
    (h : mbxForm kind (hdr ++ List.replicate (mbxBodyLen hdr + (if kind ≤ 2 then 0 else 16)) 0) = true) : mbxForm kind (hdr ++ r) = true := by
  have e : ∀ l : List Byte, l.length = mbxBodyLen hdr + (if kind ≤ 2 then 0 else 16) → mbxForm kind (hdr ++ l) =
      (beAt hdr 0 2 == 0x5658 && byteAt hdr 2 == 1 && mbxKind hdr == kind && byteAt hdr 17 == 0 && beAt hdr 24 8 == 0 &&
        decide (mbxBodyLen hdr ≤ 8200) && (if kind = 4 then decide (byteAt hdr 16 < 8) else byteAt hdr 16 == 0)) := by
    intro l hl'
    have h1 : 32 ≤ (hdr ++ l).length := by rw [List.length_append]; omega
    have h2 : (hdr ++ l).length = 32 + beAt hdr 18 2 + (if kind ≤ 2 then 0 else 16) := by
      rw [List.length_append, hl', mbxBodyLen]; omega
    have b := fun (off k : Nat) (h : off + k ≤ 32) => beAt_append (l := hdr) (r := l) (off := off) (k := k) (by omega)
    have y := fun (i : Nat) (h : i < 32) => byteAt_append (l := hdr) (r := l) (i := i) (by omega)
    simp only [mbxForm, mbxKind, decide_eq_true h1, beq_iff_eq.mpr h2, Bool.true_and, Bool.and_true, mbxBodyLen, b 0 2 (by omega), b 18 2 (by omega),
      b 24 8 (by omega), y 2 (by omega), y 3 (by omega), y 16 (by omega), y 17 (by omega)]
    congr
  rw [e r hr]
  rw [e _ (by simp)] at h
  exact h

/-- A datagram sealed under a session's key with a fresh counter is heard. -/
theorem heard_of_seal {s : State} {sid kind : Nat} {hdr body : List Byte} {x : Session} (hrx : rxOn s = true) (hup : mbxUp s = true)
    (hl : hdr.length = 32) (hn : mbxBodyLen hdr = body.length) (hk : 2 < kind) (hx : mget s.host.sessions sid = some x)
    (h32 : x.keyIn.length = 32) (hf : x.isFresh (mbxCounter hdr) = true) (hc : mbxCounter hdr < 2 ^ 32)
    (h : mbxForm kind (hdr ++ List.replicate (mbxBodyLen hdr + (if kind ≤ 2 then 0 else 16)) 0) = true) :
    let c := gcmSeal x.keyIn (mbxNonce (x.twin && x.role == 255) (mbxCounter hdr)) hdr body
    Heard s sid kind (hdr ++ (c.1 ++ c.2)) x body := by
  intro c
  obtain ⟨l1, l2⟩ : c.1.length = body.length ∧ c.2.length = 16 := gcmSeal_lengths h32 _ _ _
  have hcn : mbxCounter (hdr ++ (c.1 ++ c.2)) = mbxCounter hdr := beAt_append (by omega)
  have hbl : mbxBodyLen (hdr ++ (c.1 ++ c.2)) = c.1.length := by rw [mbxBodyLen, beAt_append (by omega), ← mbxBodyLen, hn, ← l1]
  refine ⟨hrx, hup, mbxForm_append hl ?_ h, hx, ?_, hcn ▸ hf, hcn ▸ hc⟩
  · rw [List.length_append, if_neg (by omega), hn]; omega
  · rw [hcn, hbl, List.take_left' hl, slice, List.drop_left' hl, List.take_left' rfl, ← List.drop_drop, List.drop_left' hl, List.drop_left' rfl]
    exact gcmOpen_gcmSeal h32 _ _ _

end Sys2Proof.Machine
end

