-- ==== Sys2Proof/Laws/Memory.lean ====
section
/-! SUPPORT. Memory: a read after a write, and that every memory operation keeps the canonical form. -/

namespace Sys2Proof.Machine

open Sys2Proof

/-! ### Reading after a write -/

theorem cellGet_cellPut (m : List Host.Cell) (a c : Nat) (b : Byte) :
    cellGet (cellPut m a b) c = if a = c then b else cellGet m c := by
  unfold cellGet cellPut; exact mget_mput memDefault m a c b

/-- A byte after a write of several: the byte written there, or what stood there before. -/
theorem cellGet_cellWrite (m : List Host.Cell) (a c : Nat) (l : List Byte) :
    cellGet (cellWrite m a l) c = if a ≤ c ∧ c < a + l.length then l.getD (c - a) 0 else cellGet m c := by
  induction l generalizing m a with
  | nil => simp [cellWrite]
  | cons b l ih =>
    simp only [cellWrite, ih, List.length_cons, cellGet_cellPut]
    by_cases h : a = c
    · subst h; simp
    · by_cases h1 : a + 1 ≤ c ∧ c < a + 1 + l.length
      · have h2 : a ≤ c ∧ c < a + (l.length + 1) := by omega
        simp only [h1, h2, and_self, if_true]
        obtain ⟨d, rfl⟩ : ∃ d, c = a + 1 + d := ⟨c - (a + 1), by omega⟩
        rw [show a + 1 + d - (a + 1) = d by omega, show a + 1 + d - a = d + 1 by omega]
        simp
      · have h2 : ¬ (a ≤ c ∧ c < a + (l.length + 1)) := by omega
        simp only [h1, h2, h, if_false]

/-- A write leaves every byte outside it alone. -/
theorem cellGet_cellWrite_outside (m : List Host.Cell) {a c : Nat} {l : List Byte} (h : c < a ∨ a + l.length ≤ c) :
    cellGet (cellWrite m a l) c = cellGet m c := by
  rw [cellGet_cellWrite, if_neg (by omega)]

/-! ### The canonical form -/

theorem cellPut_wf {m : List Host.Cell} (a : Nat) (b : Byte) (h : Memory.wf m = true) : Memory.wf (cellPut m a b) = true :=
  mcanon_mput memDefault m a b h

theorem cellWrite_wf {m : List Host.Cell} (a : Nat) (l : List Byte) (h : Memory.wf m = true) : Memory.wf (cellWrite m a l) = true := by
  induction l generalizing m a with
  | nil => exact h
  | cons b l ih => exact ih (a + 1) (cellPut_wf a b h)

theorem dramWrite_wf (a : Nat) (l : List Byte) (s : State) (h : Memory.wf s.mem.dram = true) :
    Memory.wf (dramWrite a l s).mem.dram = true := cellWrite_wf a l h

@[simp] theorem dramWrite_sram (a : Nat) (l : List Byte) (s : State) : (dramWrite a l s).mem.sram = s.mem.sram := rfl

theorem regionWrite_wf (h off : Nat) (l : List Byte) (s : State) (w : Memory.wf s.mem.dram = true) :
    Memory.wf (regionWrite h off l s).mem.dram = true := by
  unfold regionWrite
  split
  · exact dramWrite_wf _ _ _ w
  · exact w

@[simp] theorem regionWrite_sram (h off : Nat) (l : List Byte) (s : State) : (regionWrite h off l s).mem.sram = s.mem.sram := by
  unfold regionWrite; split <;> rfl

end Sys2Proof.Machine
end

