-- ==== Sys2Proof/Laws/Pages.lean ====
section
/-! SUPPORT. Pages: the digest that a page is given is its own, and a page that steers nothing passes the checks of R343. -/

namespace Sys2Proof.Machine

open Sys2Proof

/-! ### Numbers and their bytes -/

theorem leNat_leBytes (k n : Nat) : leNat (leBytes k n) = n % 256 ^ k := by
  induction k generalizing n with
  | zero => simp [leBytes, leNat, Nat.mod_one]
  | succ k ih =>
    have hb : (byte n).toNat = n % 256 := by simp [byte]
    simp only [leBytes, leNat, ih, hb]
    rw [Nat.pow_succ', Nat.mod_mul]

theorem beNat_append (l : List Byte) (b : Byte) : beNat (l ++ [b]) = beNat l * 256 + b.toNat := by simp [beNat, List.foldl_append]

theorem beNat_reverse (l : List Byte) : beNat l.reverse = leNat l := by
  induction l with
  | nil => rfl
  | cons b l ih => rw [List.reverse_cons, beNat_append, ih, leNat]; omega

theorem beNat_beBytes (k n : Nat) : beNat (beBytes k n) = n % 256 ^ k := by rw [beBytes, beNat_reverse, leNat_leBytes]

theorem leNat_lt (l : List Byte) : leNat l < 256 ^ l.length := by
  induction l with
  | nil => simp [leNat]
  | cons b l ih =>
    have := b.isLt
    simp only [leNat, List.length_cons, Nat.pow_succ']
    omega

theorem beNat_lt (l : List Byte) : beNat l < 256 ^ l.length := by
  have := leNat_lt l.reverse
  rwa [← beNat_reverse, List.reverse_reverse, List.length_reverse] at this

theorem beNat_zeros (n : Nat) : beNat (List.replicate n 0) = 0 := by
  induction n with
  | zero => rfl
  | succ n ih => rw [List.replicate_succ', beNat_append, ih]; rfl

theorem take_drop_left {l r : List Byte} {off k : Nat} (h : off + k ≤ l.length) : ((l ++ r).drop off).take k = (l.drop off).take k := by
  rw [List.drop_append_of_le_length (by omega), List.take_append_of_le_length (by rw [List.length_drop]; omega)]

theorem beAt_take {l r : List Byte} {off k : Nat} (h : off + k ≤ l.length) : beAt (l ++ r) off k = beAt l off k := by
  rw [beAt, beAt, take_drop_left h]

/-! ### The digest of a page -/

theorem overwrite_length {l d : List Byte} {off : Nat} (h : off + d.length ≤ l.length) : (overwrite l off d).length = l.length := by
  simp only [overwrite, List.length_append, List.length_take, List.length_drop]; omega

theorem overwrite_overwrite {l d e : List Byte} {off : Nat} (h : off + d.length ≤ l.length) (he : e.length = d.length) :
    overwrite (overwrite l off d) off e = overwrite l off e := by
  have ht : (l.take off).length = off := by rw [List.length_take]; omega
  unfold overwrite
  rw [List.take_left' ht, ← List.append_assoc (l.take off) d, List.drop_left' (by rw [List.length_append, ht, he]), he]

/-- A page that was given its digest has it. -/
theorem pageDigest_pageWith {p : List Byte} (id degr lane : Nat) (h : 16 ≤ p.length) :
    pageDigest (pageWith id degr lane p) = pageDigestOf (pageWith id degr lane p) := by
  have h4 : (beBytes 4 (putBits (putBits (putBits (beAt p 0 4) 0 8 id) 8 3 degr) 12 3 lane)).length = 4 := beBytes_length _ _
  simp only [pageWith]
  generalize hq : overwrite p 0 (beBytes 4 (putBits (putBits (putBits (beAt p 0 4) 0 8 id) 8 3 degr) 12 3 lane)) = q
  have hl : 16 ≤ q.length := by rw [← hq, overwrite_length (by rw [h4]; omega)]; exact h
  have h8 : (beBytes 8 (pageDigestOf q)).length = 8 := beBytes_length _ _
  have e : pageDigestOf (overwrite q 8 (beBytes 8 (pageDigestOf q))) = pageDigestOf q := by
    conv_lhs => rw [pageDigestOf, overwrite_overwrite (by rw [h8]; omega) (by rw [h8, List.length_replicate])]
    rfl
  have hlt : pageDigestOf q < 256 ^ 8 := by
    refine Nat.lt_of_lt_of_le (beNat_lt _) (Nat.pow_le_pow_right (by omega) ?_)
    simp only [shake256, List.length_take]; omega
  have ht : (q.take 8).length = 8 := by rw [List.length_take]; omega
  have hd : ((overwrite q 8 (beBytes 8 (pageDigestOf q))).drop 8).take 8 = beBytes 8 (pageDigestOf q) := by
    rw [overwrite, List.drop_left' ht, List.take_left' h8]
  rw [e, pageDigest, beAt, hd, beNat_beBytes, Nat.mod_eq_of_lt hlt]

/-! ### A page that steers nothing -/

/-- A page of a lane all of whose slots are dark and whose columns are idle, without a digest. -/
def blankPage (id degr lane : Nat) : List Byte :=
  beBytes 4 (lane * 4096 + degr * 256 + id) ++ (List.replicate 12 0 ++ ((List.replicate 8 (beBytes 4 64)).flatten ++ List.replicate 1024 0))

/-- The page with its digest. -/
def idlePage (id degr lane : Nat) : List Byte := pageWith id degr lane (blankPage id degr lane)

/-- What such a page steers and carries. -/
def PageDark (p : List Byte) : Prop := (∀ k, k < 8 → pageSlot p k = 64) ∧ ∀ k c, pageCol p k c = 0

theorem idlePage_eq {id degr lane : Nat} (hi : id < 256) (hg : degr ≤ 5) (hl : lane ≤ 4) : ∃ d : List Byte, d.length = 8 ∧ idlePage id degr lane =
    beBytes 4 (lane * 4096 + degr * 256 + id) ++
      (List.replicate 4 0 ++ (d ++ ((List.replicate 8 (beBytes 4 64)).flatten ++ List.replicate 1024 0))) := by
  rw [idlePage, blankPage]
  generalize (List.replicate 8 (beBytes 4 64)).flatten ++ List.replicate 1024 (0 : Byte) = R
  have h4 := beBytes_length 4 (lane * 4096 + degr * 256 + id)
  have hw : putBits (putBits (putBits (beAt (beBytes 4 (lane * 4096 + degr * 256 + id) ++ (List.replicate 12 0 ++ R)) 0 4) 0 8 id) 8 3 degr)
      12 3 lane = lane * 4096 + degr * 256 + id := by
    rw [beAt_take (by omega), beAt, List.drop_zero, List.take_of_length_le (by omega), beNat_beBytes, Nat.mod_eq_of_lt (by omega)]
    simp only [putBits, Nat.shiftRight_eq_div_pow]
    omega
  have h1 : overwrite (beBytes 4 (lane * 4096 + degr * 256 + id) ++ (List.replicate 12 0 ++ R)) 0 (beBytes 4 (lane * 4096 + degr * 256 + id)) =
      beBytes 4 (lane * 4096 + degr * 256 + id) ++ (List.replicate 12 0 ++ R) := by
    rw [overwrite, h4, List.drop_left' (by omega)]; rfl
  rw [pageWith, hw, h1]
  generalize pageDigestOf (beBytes 4 (lane * 4096 + degr * 256 + id) ++ (List.replicate 12 0 ++ R)) = n
  have h8 := beBytes_length 8 n
  have hz : List.replicate 12 (0 : Byte) ++ R = List.replicate 4 0 ++ (List.replicate 8 0 ++ R) := by rw [← List.append_assoc]; rfl
  refine ⟨beBytes 8 n, h8, ?_⟩
  rw [overwrite, h8, hz, ← List.append_assoc (beBytes 4 _), List.take_left' (by simp [h4]), ← List.drop_drop, List.drop_left' (by simp [h4]),
    List.drop_left' (by simp)]
  simp only [List.append_assoc]

theorem pageDark_of_drop {p : List Byte} (h16 : p.drop 16 = (List.replicate 8 (beBytes 4 64)).flatten ++ List.replicate 1024 0) : PageDark p := by
  constructor
  · intro k hk
    rw [pageSlot, beAt, ← List.drop_drop, h16]
    have : ∀ k, k < 8 → beNat ((((List.replicate 8 (beBytes 4 64)).flatten ++ List.replicate 1024 (0 : Byte)).drop (4 * k)).take 4) = 64 := by
      intro k hk
      rw [take_drop_left (by decide +revert)]
      decide +revert
    exact this k hk
  · intro k c
    have e : 48 + 2 * (64 * k + c) = 16 + (32 + 2 * (64 * k + c)) := by omega
    rw [pageCol, beAt, e, ← List.drop_drop, h16, ← List.drop_drop, List.drop_left' (by decide), List.drop_replicate, List.take_replicate,
      beNat_zeros]

theorem blankPage_dark (id degr lane : Nat) : PageDark (blankPage id degr lane) := by
  apply pageDark_of_drop
  rw [blankPage, ← List.append_assoc, List.drop_left' (by simp [beBytes_length])]

/-- The fields of the first word of a page. -/
theorem page_fields {p : List Byte} {id degr lane : Nat} (hi : id < 256) (hg : degr ≤ 5) (hl : lane ≤ 4)
    (hw : beAt p 0 4 = lane * 4096 + degr * 256 + id) :
    pageId p = id ∧ pageDegr p = degr ∧ pageDir p = 0 ∧ pageLane p = lane ∧ pageRate p = 0 := by
  simp only [pageId, pageDegr, pageDir, pageLane, pageRate, bitsOf, hw, Nat.shiftRight_eq_div_pow]
  omega

theorem blankPage_word {id degr lane : Nat} (hi : id < 256) (hg : degr ≤ 5) (hl : lane ≤ 4) :
    beAt (blankPage id degr lane) 0 4 = lane * 4096 + degr * 256 + id := by
  have h4 := beBytes_length 4 (lane * 4096 + degr * 256 + id)
  rw [blankPage, beAt_take (by omega), beAt, List.drop_zero, List.take_of_length_le (by omega), beNat_beBytes, Nat.mod_eq_of_lt (by omega)]

/-- Such a page has the form of R342. -/
theorem idlePage_form {id degr lane : Nat} (hi : id < 256) (hg : degr ≤ 5) (hl : lane ≤ 4) :
    pageForm (idlePage id degr lane) = true ∧ PageDark (idlePage id degr lane) ∧
      beAt (idlePage id degr lane) 0 4 = lane * 4096 + degr * 256 + id := by
  obtain ⟨d, hd, he⟩ := idlePage_eq hi hg hl
  have h4 := beBytes_length 4 (lane * 4096 + degr * 256 + id)
  have hlen : (idlePage id degr lane).length = 1072 := by
    rw [he]; simp only [List.length_append, h4, hd, List.length_replicate]; decide
  have hw : beAt (idlePage id degr lane) 0 4 = lane * 4096 + degr * 256 + id := by
    rw [he, beAt_take (by omega), beAt, List.drop_zero, List.take_of_length_le (by omega), beNat_beBytes, Nat.mod_eq_of_lt (by omega)]
  have hk : PageDark (idlePage id degr lane) := by
    apply pageDark_of_drop
    rw [he, ← List.append_assoc, ← List.append_assoc, List.drop_left' (by simp [h4, hd])]
  obtain ⟨_, hdeg, hdir, hlane, hrate⟩ := page_fields hi hg hl hw
  have hz : beAt (idlePage id degr lane) 4 4 = 0 := by
    rw [he, beAt, List.drop_left' h4, List.take_left' (by simp), beNat_zeros]
  have hdig : pageDigest (idlePage id degr lane) = pageDigestOf (idlePage id degr lane) := by
    rw [idlePage]; exact pageDigest_pageWith _ _ _ (by rw [blankPage, List.length_append, List.length_append, h4, List.length_replicate]; omega)
  refine ⟨?_, hk, hw⟩
  have hw17 : beAt (idlePage id degr lane) 0 4 < 2 ^ 17 := by rw [hw]; omega
  have hall : ((List.range 8).all fun k => decide (pageSlot (idlePage id degr lane) k < 2 ^ 7) && (List.range 64).all fun c =>
      decide (pageCol (idlePage id degr lane) k c < 2 ^ 12) && decide (colUse (pageCol (idlePage id degr lane) k c) ≤ 2)) = true := by
    rw [List.all_eq_true]
    intro k h
    rw [hk.1 k (List.mem_range.mp h)]
    simp [hk.2, colUse, bitsOf]
  rw [pageForm, hall, decide_eq_true hw17]
  simp only [hlen, hz, hdeg, hdir, hlane, hrate, hdig, hl, hg, Nat.zero_le, decide_true, Bool.and_self]

theorem pageTribs_dark {p : List Byte} (h : PageDark p) : pageTribs p = [] := by
  simp [pageTribs, h.2, colUse, bitsOf]

theorem pageColsOf_dark {p : List Byte} (h : PageDark p) (use trib port : Nat) : pageColsOf p use trib port = [] := by
  rw [pageColsOf, List.flatten_eq_nil_iff]
  intro l hl
  rw [List.mem_map] at hl
  obtain ⟨k, hk, rfl⟩ := hl
  rw [h.1 k (List.mem_range.mp hk)]
  simp [slotDark, bitOf]

/-- Dark pages pass the checks of R343 where no port's control tributary is examined. -/
theorem checkPages_dark (chan : Nat → Nat) (bound : Nat → Option Nat) {ps : List (List Byte)} {vs : List PageView}
    (hp : ∀ p ∈ ps, pageForm p = true ∧ PageDark p) (hv : ∀ v ∈ vs, ∀ e ∈ v, PageDark e.2) : checkPages chan bound [] ps vs = none := by
  have n1 : (ps.findSome? fun p => if pageForm p then none else some (pageFault p 1 15 0xFFFF)) = none := by
    rw [List.findSome?_eq_none_iff]; intro p h; simp [(hp p h).1]
  have n2 : (ps.findSome? fun p => (pageBadCol p).map fun e => pageFault p 2 e.1 e.2) = none := by
    rw [List.findSome?_eq_none_iff]
    intro p h
    have : pageBadCol p = none := by
      rw [pageBadCol, List.findSome?_eq_none_iff]
      intro i _
      simp [(hp p h).2.2, colUse, bitsOf]
    simp [this]
  have n3 : (vs.findSome? fun v => v.findSome? fun e => (pageNoGuard chan v e.1 e.2).map fun s => pageFault e.2 3 s 0xFFFF) = none := by
    rw [List.findSome?_eq_none_iff]
    intro v h
    rw [List.findSome?_eq_none_iff]
    intro e he
    have : pageNoGuard chan v e.1 e.2 = none := by
      rw [pageNoGuard, List.find?_eq_none]
      intro k hk
      rw [(hv v h e he).1 k (List.mem_range.mp hk)]
      simp [slotDark, bitOf]
    simp [this]
  have t : ∀ v ∈ vs, (v.map fun e => (pageTribs e.2).map fun t => (e.2, t)).flatten = [] := by
    intro v h
    rw [List.flatten_eq_nil_iff]
    intro l hl
    rw [List.mem_map] at hl
    obtain ⟨e, he, rfl⟩ := hl
    rw [pageTribs_dark (hv v h e he)]; rfl
  have n4 : vs.findSome? (viewBinding bound) = none := by
    rw [List.findSome?_eq_none_iff]
    intro v h
    simp only [viewBinding, t v h, List.findSome?_nil]
  have n5 : vs.findSome? viewPointers = none := by
    rw [List.findSome?_eq_none_iff]
    intro v h
    have hf : ∀ (w : PageView) (a : SMap (Nat × Nat)), (∀ e ∈ w, PageDark e.2) → w.foldl (fun (a : SMap (Nat × Nat)) e =>
        (pageTribs e.2).foldl (fun b t => if mhas b t.1 then b else mset b t.1 (e.1, t.2.2 / 64)) a) a = a := by
      intro w
      induction w with
      | nil => intro a _; rfl
      | cons e w ih =>
        intro a h
        rw [List.foldl_cons, pageTribs_dark (h e (by simp)), List.foldl_nil]
        exact ih a fun x hx => h x (by simp [hx])
    simp [viewPointers, hf v [] (hv v h)]
  have n6 : (vs.findSome? fun v => ([] : List Nat).findSome? fun p => if viewControl v p then none else some (⟨6, 7, 0, 15, 0xFFFF⟩ : PageFault)) =
      none := by
    rw [List.findSome?_eq_none_iff]; intro v _; rfl
  have n7 : (ps.findSome? fun p => if pageMapsLost p then some (pageFault p 7 15 0xFFFF) else none) = none := by
    rw [List.findSome?_eq_none_iff]
    intro p h
    simp [pageMapsLost, pageTribs_dark (hp p h).2]
  simp only [checkPages, n1, n2, n3, n4, n5, n6, n7, Option.or]

end Sys2Proof.Machine
end

