-- ==== Sys2Proof/WellFormed.lean ====
section
/-! DEFINITION. Well-formed commands: every operand lies within the width or the count that the spec gives it. What firmware itself
judges of a mailbox request (R562) is no part of it. -/

namespace Sys2Proof

open Sys2Proof.Machine

/-- An index below a count. -/
def below (k n : Nat) : Bool := decide (n < k)
/-- A number of a field of `w` bits. -/
def fits (w n : Nat) : Bool := decide (n < 2 ^ w)
/-- A byte string of a fixed length. -/
def sized (n : Nat) (l : List Byte) : Bool := l.length == n

/-- Is a command well-formed? -/
def Instr.wf (i : Instr) : Bool :=
  match i with
  | .tickEdge => true
  | .commitApply => true
  | .instanceTimeout => true
  | .pressingStart _ => true
  | .pressingWindowEnd => true
  | .spotCheck die cluster die2 cluster2 outcome _ => below 4 die && below 1040 cluster && below 4 die2 && below 1040 cluster2 && below 4 outcome
  | .trellisMessage die cluster _ _ _ => below 4 die && below 1040 cluster
  | .dieLinkFlitCrcFail die _ => below 4 die
  | .dieLinkRetrainDone die => below 4 die
  | .dieLinkLaneSpare die _ => below 4 die
  | .powerCapInterval _ => true
  | .capFloorEvent die => below 4 die
  | .tempSensorRead die _ => below 4 die
  | .railDroop die => below 4 die
  | .retirementApply die cluster _ => below 4 die && below 1040 cluster
  | .quarantineEnd die cluster core => below 4 die && below 1040 cluster && below 272 core
  | .pressEnableWrite _ => true
  | .data _ _ => true
  | .launch _ _ => true
  | .memberAbort _ _ => true
  | .memberNack _ _ => true
  | .memberAck _ _ => true
  | .hostNackRepeat stream => fits 20 stream
  | .hostAckInterval stream => fits 20 stream
  | .resultHoldExpire stream seq => fits 20 stream && fits 32 seq
  | .pfcFrameRx enabled _ => fits 16 enabled
  | .pfcPauseExpire prio => below 8 prio
  | .pfcWatchdog prio => below 8 prio
  | .pfcRefresh => true
  | .pfcDisableWrite => true
  | .arpRequest target sender => fits 128 target && fits 128 sender
  | .neighbourSolicitation target sender => fits 128 target && fits 128 sender
  | .icmpEcho _ dst _ => fits 128 dst
  | .otherFrameDiscard cause corrected => fits 8 cause && fits 32 corrected
  | .hostAlignmentLoss => true
  | .hostLinkDown => true
  | .hostLinkUp => true
  | .ptpAnnounce domain transport _ => fits 8 domain && below 3 transport
  | .announceReceiptTimeout => true
  | .ptpSync domain transport identity port seq _ t1 _ off => fits 8 domain && below 3 transport && fits 64 identity && fits 16 port && fits 16 seq && fits 112 t1 && below 131072000 off
  | .ptpFollowUp domain transport identity port seq t1 _ => fits 8 domain && below 3 transport && fits 64 identity && fits 16 port && fits 16 seq && fits 112 t1
  | .delayReqSend => true
  | .ptpDelayResp domain transport identity port seq t4 _ => fits 8 domain && below 3 transport && fits 64 identity && fits 16 port && fits 16 seq && fits 112 t4
  | .hostEgressSelect off => below 131072000 off
  | .lineBlockSelect port => below 4 port
  | .tokenRefill sched queue => below 5 sched && below 8 queue
  | .queueSample => true
  | .mbxHello _ _ => true
  | .helloReassemblyTimeout => true
  | .halfOpenExpire => true
  | .mbxFinish _ _ => true
  | .mbxRequest _ => true
  | .mbxClose _ => true
  | .sessionIdleTimeout sid => fits 33 sid
  | .mbxBulk _ => true
  | .bulkResend sid => fits 33 sid
  | .mbxTwin _ => true
  | .twinUnmatchedExpiry => true
  | .sysIdentity mbx => below 8 mbx
  | .sysNetSet mbx ipv4 ipv6 => below 8 mbx && fits 32 ipv4 && fits 128 ipv6
  | .sysCommit mbx _ at_ _ => below 8 mbx && fits 64 at_
  | .sysWithdraw mbx id => below 8 mbx && fits 32 id
  | .sysEventSubscribe mbx seq cls => below 8 mbx && fits 64 seq && fits 32 cls
  | .sysReset mbx => below 8 mbx
  | .sysReadyReasons mbx => below 8 mbx
  | .sysManifestInstall mbx region off len => below 8 mbx && fits 32 region && fits 64 off && fits 64 len
  | .sysManifestRead mbx region off => below 8 mbx && fits 32 region && fits 64 off
  | .sysShadowJoin mbx peer _ => below 8 mbx && sized 8 peer
  | .sysShadowAccept mbx peer _ => below 8 mbx && sized 8 peer
  | .sysShadowPromote mbx at_ _ => below 8 mbx && fits 64 at_
  | .sysLock mbx => below 8 mbx
  | .systemLockApply => true
  | .grpStage mbx entry _ => below 8 mbx && sized 64 entry
  | .grpRead mbx group => below 8 mbx && fits 32 group
  | .grpStreamOpen mbx stream endpoint _ port addr inInit outInit => below 8 mbx && fits 32 stream && fits 32 endpoint && fits 32 port && fits 128 addr && fits 32 inInit && fits 32 outInit
  | .grpStreamClose mbx stream => below 8 mbx && fits 32 stream
  | .opStat mbx group inst => below 8 mbx && fits 32 group && fits 32 inst
  | .opList mbx first => below 8 mbx && fits 32 first
  | .opAbort mbx group inst => below 8 mbx && fits 32 group && fits 32 inst
  | .progLoad mbx id region off len => below 8 mbx && fits 32 id && fits 32 region && fits 64 off && fits 64 len
  | .progUnload mbx id => below 8 mbx && fits 32 id
  | .progList mbx => below 8 mbx
  | .celRegionCreate mbx size => below 8 mbx && fits 64 size
  | .celRegionFree mbx handle => below 8 mbx && fits 32 handle
  | .celRegionRead mbx handle off len => below 8 mbx && fits 32 handle && fits 64 off && fits 64 len
  | .celRegionWrite mbx handle off _ => below 8 mbx && fits 32 handle && fits 64 off
  | .celRegionBulk mbx handle off len _ => below 8 mbx && fits 32 handle && fits 64 off && fits 64 len
  | .memInfo mbx => below 8 mbx
  | .lneTrib mbx trib port queue window => below 8 mbx && fits 32 trib && fits 32 port && fits 32 queue && fits 32 window
  | .lnePageStage mbx lane page => below 8 mbx && fits 32 lane && sized 128 page
  | .lnePmRead mbx scope kind back => below 8 mbx && fits 32 scope && fits 32 kind && fits 32 back
  | .lnePmThresh mbx scope counter kind value => below 8 mbx && fits 32 scope && fits 32 counter && fits 32 kind && fits 64 value
  | .lneXh mbx lane _ => below 8 mbx && fits 32 lane
  | .optLaneFec mbx lane fec => below 8 mbx && fits 32 lane && fits 32 fec
  | .optLaneChannel mbx lane channel => below 8 mbx && fits 32 lane && fits 32 channel
  | .secAnchorInstall mbx cert => below 8 mbx && sized 3144 cert
  | .secAnchorReplace mbx region off len => below 8 mbx && fits 32 region && fits 64 off && fits 64 len
  | .secEnrolRequest mbx => below 8 mbx
  | .secEnrolInstall mbx region off len => below 8 mbx && fits 32 region && fits 64 off && fits 64 len
  | .secAttest mbx _ region off => below 8 mbx && fits 32 region && fits 64 off
  | .secPairRestart mbx port => below 8 mbx && fits 32 port
  | .secUtilGcmSeal mbx key _ _ _ outH outOff _ => below 8 mbx && sized 32 key && fits 32 outH && fits 64 outOff
  | .secUtilGcmOpen mbx key _ tag _ _ outH outOff _ => below 8 mbx && sized 32 key && sized 16 tag && fits 32 outH && fits 64 outOff
  | .secUtilCtr mbx key _ _ outH outOff _ => below 8 mbx && sized 32 key && fits 32 outH && fits 64 outOff
  | .secUtilShake mbx _ outH outOff outLen _ => below 8 mbx && fits 32 outH && fits 64 outOff && fits 64 outLen
  | .timStep mbx _ value => below 8 mbx && fits 64 value
  | .timeStepApply => true
  | .qosGroupMap mbx sched group queue => below 8 mbx && fits 32 sched && fits 32 group && fits 32 queue
  | .qosStage mbx sched what queue value => below 8 mbx && fits 32 sched && fits 32 what && fits 32 queue && fits 64 value
  | .qosHistRead mbx sched queue => below 8 mbx && fits 32 sched && fits 32 queue
  | .fltEventStat mbx _ => below 8 mbx
  | .fltLedgerRead mbx stream first n => below 8 mbx && fits 32 stream && fits 32 first && fits 32 n
  | .fltBarnList mbx => below 8 mbx
  | .fltBarnRead mbx slot off len => below 8 mbx && fits 32 slot && fits 64 off && fits 64 len
  | .fltBarnBulk mbx slot off len => below 8 mbx && fits 32 slot && fits 64 off && fits 64 len
  | .fltBarnRelease mbx slot => below 8 mbx && fits 32 slot
  | .fwInfo mbx => below 8 mbx
  | .fwWrite mbx slot off _ => below 8 mbx && fits 32 slot && fits 64 off
  | .fwBulk mbx slot off len => below 8 mbx && fits 32 slot && fits 64 off && fits 64 len
  | .fwVerify mbx slot => below 8 mbx && fits 32 slot
  | .fwActivate mbx => below 8 mbx
  | .fwOwnerLock mbx => below 8 mbx
  | .fwOwnerUnlock mbx => below 8 mbx
  | .cmpBlendInstall mbx ctx cls _ => below 8 mbx && fits 32 ctx && fits 32 cls
  | .cmpBlendStage mbx ctx cls _ => below 8 mbx && fits 32 ctx && fits 32 cls
  | .cmpBlendRetire mbx ctx cls => below 8 mbx && fits 32 ctx && fits 32 cls
  | .cmpBlendRead mbx ctx cls which => below 8 mbx && fits 32 ctx && fits 32 cls && fits 32 which
  | .cmpResync mbx _ n cls => below 8 mbx && fits 32 n && fits 32 cls
  | .clkSelect mbx source => below 8 mbx && fits 32 source
  | .regRead mbx _ => below 8 mbx
  | .regWrite mbx _ => below 8 mbx
  | .registerWrite addr value mask hw _ => fits 32 addr && fits 32 value && fits 32 mask && fits 32 hw
  | .rcCounterRead addr _ => fits 32 addr
  | .latchingRead addr => fits 32 addr
  | .sourceSelectWrite value => fits 32 value
  | .pageRevert port => below 4 port
  | .pageStandbyDiscard port => below 4 port
  | .pageReoffer port => below 4 port
  | .qosApply => true
  | .readinessRecheck => true
  | .pairWaitEndWrite => true
  | .stepCommand value => fits 32 value
  | .uceClaim _ => true
  | .uceRelease src gen => fits 8 src && fits 8 gen
  | .uceLockTimeout => true
  | .timeSourceWrite value => fits 32 value
  | .pulseModeWrite k value => below 4 k && fits 32 value
  | .caskRequest n _ corrupt => fits 32 n && fits 8 corrupt
  | .caskFree ptr requester => fits 32 ptr && fits 16 requester
  | .caskAccess ptr off len _ requester _ _ => fits 32 ptr && fits 32 off && fits 32 len && fits 16 requester
  | .dramRead addr landed _ _ => fits 40 addr && fits 40 landed
  | .gleanGroup addr _ row => fits 40 addr && fits 32 row
  | .gleanPeriodElapsed => true
  | .gleanPassEnd => true
  | .wck2dqOscillator _ => true
  | .channelRetrainDone channel _ => below 64 channel
  | .mr4Read _ => true
  | .blendPolicyWindow => true
  | .blendHandshakeTimeout => true
  | .resyncTimeout => true
  | .blendOfferRx port _ table => below 4 port && sized 140 table
  | .blendAcceptRx port cls id digest => below 4 port && below 8 cls && fits 8 id && fits 64 digest
  | .blendRejectRx port cls id digest reason => below 4 port && below 8 cls && fits 8 id && fits 64 digest && fits 8 reason
  | .blendSwitchRx port cls id _ => below 4 port && below 8 cls && fits 8 id
  | .blendRetireAckRx port cls id => below 4 port && below 8 cls && fits 8 id
  | .blendResyncRx port cls => below 4 port && below 8 cls
  | .frameStart => true
  | .timeTransferSend port => below 4 port
  | .controlKeepalive port => below 4 port
  | .aliveRx port => below 4 port
  | .slotRx port lane off _ fecBits fecBad snr _ _ => below 4 port && below 5 lane && below 131072000 off && fits 32 fecBits && fits 32 fecBad && fits 16 snr
  | .elasticStoreSlip lane => below 5 lane
  | .xhSheafRx port lane slot _ => below 4 port && below 5 lane && below 8 slot
  | .xhSheafDown sheaf => fits 8 sheaf
  | .lineBlockRx port _ => below 4 port
  | .lineAckIdle trib => fits 16 trib
  | .lineNackRepeat trib => fits 16 trib
  | .lineResendTimer trib => fits 16 trib
  | .lineAckRx port trib ackSeq relSeq window => below 4 port && fits 16 trib && fits 64 ackSeq && fits 64 relSeq && fits 32 window
  | .lineNackRx port trib _ => below 4 port && fits 16 trib
  | .pageOfferRx port _ => below 4 port
  | .pageReadyRx port _ => below 4 port
  | .pageRejectRx port _ => below 4 port
  | .degradationPageCompute _ => true
  | .pageSetDiscard port => below 4 port
  | .laneDegrade lane => below 5 lane
  | .doubleLossRepage _ => true
  | .rdiClear lane => below 5 lane
  | .pmSecond => true
  | .pmBinRollover kind => below 2 kind
  | .timeTransferRx port _ => below 4 port
  | .loopFail lane => below 5 lane
  | .lossOfSignal lane => below 5 lane
  | .monitorRead lane _ _ => below 5 lane
  | .contextRelearn lane port far => below 5 lane && below 4 port && below 5 far
  | .fadeEvaluation => true
  | .spareTuneDone => true
  | .spareTrainingEnd => true
  | .swapRetryEval => true
  | .swapGuardRecommit => true
  | .failedLaneTakeover lane => below 5 lane
  | .wrongWavelengthLocal lane _ _ _ _ => below 5 lane
  | .relockDone lane => below 5 lane
  | .relockFarCheck lane => below 5 lane
  | .rackingBegin port => below 4 port
  | .rackSwitch port => below 4 port
  | .announceRx port dir count kcv => below 4 port && below 2 dir && fits 64 count && fits 64 kcv
  | .rackReadyRx port => below 4 port
  | .vintageWindowClose port => below 4 port
  | .pHelloRx port _ => below 4 port
  | .pHelloRepeat port => below 4 port
  | .pEncapRx port _ => below 4 port
  | .pConfirmRx port _ => below 4 port
  | .pairingTimeout port => below 4 port
  | .pairingRetry port => below 4 port
  | .repairNoBlock port => below 4 port
  | .refMissingEdges ref => below 2 ref
  | .refWindowEnd _ _ _ => true
  | .xtalStable => true
  | .xtalFail => true
  | .holdoverEntry => true
  | .timeInvalid => true
  | .pulseEdge k => below 4 k
  | .digestSend port => below 4 port
  | .digestRx port level scope groups => below 4 port && fits 8 level && sized 16 scope && sized 16 groups
  | .digestListRx port _ => below 4 port
  | .configFence port => below 4 port
  | .partnerLinkDown port => below 4 port
  | .siteAbsent => true
  | .siteStateRx port _ _ lineSeq => below 4 port && fits 64 lineSeq
  | .siteAckRx port group lineSeq => below 4 port && fits 16 group && fits 64 lineSeq
  | .fallowLimit => true
  | .launchNoticeRx port group epoch inst hash _ sites => below 4 port && fits 16 group && fits 16 epoch && fits 32 inst && fits 64 hash && fits 8 sites
  | .abortNoticeRx port group inst code site => below 4 port && fits 16 group && fits 32 inst && fits 16 code && below 8 site
  | .fenceClearRx port group inst => below 4 port && fits 16 group && fits 32 inst
  | .promoteRx port device at_ => below 4 port && sized 8 device && fits 64 at_
  | .promotionAtT => true
  | .vintnerPairMismatch => true
  | .vintnerWatchdog => true
  | .vintnerRestartDone => true
  | .vintnerHeartbeatLoss => true
  | .barnCaptureDone _ _ ueWords => fits 32 ueWords
  | .railFault rail => below 16 rail
  | .powerLoss queued => below 65 queued
  | .ledgerSeal stream => below 2 stream
  | .coldStart _ => true
  | .warmStart => true
  | .bringupStepDone _ => true
  | .pressWave wave _ => below 16 wave
  | .pairWaitExpire => true
  | .telemetryWrite => true
  | .jtagInstruction _ => true
  | .mbxHelloReply _ _ => true
  | .pfcWatchdogIgnoreEnd prio => below 8 prio
  | .spareTuneTimeout => true
  | .vintnerSelfTestDone _ => true
  | .laneRecovery lane => below 5 lane
  | .signalReturn lane => below 5 lane
  | .servoEnWrite _ => true
  | .ledgerDropSummary => true

end Sys2Proof
end

