-- ==== Sys2Proof/Tests/Slice0.lean ====
section
/-! SUPPORT. The model's own tests: ill-formed commands, and for every statement with hypotheses a state that meets them. -/

namespace Sys2Proof.Tests

set_option Elab.async false

open Sys2Proof Sys2Proof.Machine

/-- Some answer came. -/
theorem ok_of_isSome {ε α : Type} {x : Except ε α} (h : x.toOption.isSome = true) : ∃ a, x = .ok a := by
  cases x <;> simp_all [Except.toOption]

/-! ### Small states -/

/-- A source. -/
def src0 : Source := ⟨false, 0x0A000001, 5000⟩

/-- A session with no traffic yet. -/
def ses (role : Nat) : Session :=
  { src := src0, keyIn := List.replicate 32 1, keyOut := List.replicate 32 2, role := role, hiIn := 0, seen := [], nextOut := 1, lastTick := 600000
    sub := none, bulk := none, twin := false }

/-- A device that is READY: link up, firmware up, an anchor held. -/
def up : State :=
  let s1 := fldSet 0x00040004 0 2 3 (fldSet 0x00200004 0 1 1 (fldSet 0x00020004 0 1 1 State.reset))
  { s1 with
    tick := 600000
    flt := { s1.flt with vintnerUp := true }
    host := { s1.host with linkUp := true, aligned := true }
    sec := { s1.sec with anchor := some [], enrolled := true }
    press := { s1.press with running := true }
    bru := { s1.bru with ready := true, running := false, step := 10 } }

/-- A request for a command stands in mailbox 7, alone, from a session of a role. -/
def asked (code role : Nat) : State :=
  let s1 := up.mapHost fun h => { h with sessions := [(1, ses role)] }
  s1.mapMgt fun g => { g with
    order := [7], mbx := vupd g.mbx 7 fun _ => { Mbx.idle with session := 1, waiting := true, code := code, token := 0xFFFF } }

/-- A stream context with a member at `src0`. -/
def strm : StreamCtx :=
  { endpoint := 1, v6 := false, peerPort := 5000, peerAddr := 0x0A000001, peerMac := 0, inNext := 7, inInit := 0, held := [], outNext := 3, outAcked := 0
    outInit := 0, nack := none, refused := [], stalled := false, inPkts := 0, inDups := 0, nacksTx := 0, resendsTx := 0, rawRequired := false, decFails := 0
    ackFrom := 0, ackOwed := false, retained := [], passedLaunch := [] }

/-- A member of a group at a site. -/
def member (far : Bool) (site stream : Nat) : Member :=
  { endpoint := 1, far := far, site := site, coveredSites := 2 ^ site, coveredMembers := 1, stream := stream }

/-- A group table with a local member and a far one on port A. -/
def table (g epoch : Nat) : GroupTable :=
  { group := g, epoch := epoch, valid := true, localSite := 0, sites := 3, policy := 0, primarySite := 0, isSealed := false, memberBase := 0
    timeout := 100, absenceTimeout := 1000, fallowLimit := 1000, srSeed := 0, constRegion := 0
    members := [member false 0 0, member true 1 0] }

/-- A group with a current version. -/
def grp (g epoch : Nat) : GroupRec :=
  { current := some (table g epoch), standby := none, draining := none, applyT := 0, applyP1 := 0, applyP2 := 0, lastCommitted := 0
    everCommitted := false }

/-- A page of lane 0 toward port A at top rate, all slots but the first dark: the control tributary in columns 0 to 3, tributary 4 in column 4. -/
def page0 : List Byte :=
  beBytes 4 1 ++ List.replicate 12 0 ++ beBytes 4 0 ++ (List.replicate 7 (beBytes 4 64)).flatten ++
    ((List.replicate 4 (beBytes 2 0x800)).flatten ++ beBytes 2 0x404 ++ List.replicate 1014 0)

/-- A READY device with port A paired over lane 0 and exchange tributary 4 on it. -/
def linked : State :=
  let s1 := fldSet 0x00100004 0 2 3 (updKeys 0 (fun k => { k with
    st := 4, txCount := 1, rxCount := 1, txKeys := [(1, List.replicate 32 3)], rxKeys := [(1, List.replicate 32 4)], framesArrive := true }) up)
  let s2 := updPartner 0 (fun q => { q with paired := true, linkDown := false, wasDown := false, compared := true, agreedAll := true, lastGood := 600000 }) s1
  s2.mapLine fun l => { l with
    tribs := mset l.tribs 4 { Trib.fresh 0 0 4 0 with credit := 1000 }
    lanes := vupd l.lanes 0 fun x => { x with active := some page0, txUp := true, rxUp := true }
    ports := vupd l.ports 0 fun x => { x with rtt := 2000, peer := some 1 } }

theorem meets_PowerAndTemperature :
    (3 < 4 ∧ up.press.intervalStart + capInterval up ≤ up.tick) ∧
    (let s := updDie 3 (fun d => { d with floorTicks := 1000 }) up
     3 < 4 ∧ 1000 ≤ (dieOf s 3).floorTicks ∧ (dieOf s 3).floorRaised = false) := by decide +kernel

theorem meets_LinksAndTrellis :
    (let s := updDie 3 (fun d => { d with replayFails := 7 }) up
     3 < 4 ∧ 7 ≤ (dieOf s 3).replayFails ∧ (dieOf up 0).replayFails < 7) ∧
    (let s := updDie 3 (fun d => { d with retrainEnd := some 600000 }) up
     3 < 4 ∧ (dieOf s 3).retrainEnd = some 600000 ∧ 600000 ≤ s.tick) ∧
    (0 < (dieOf up 3).spareTx ∧ 0 < (dieOf up 3).spareRx ∧
      (dieOf (updDie 3 (fun d => { d with spareTx := 0, spareRx := 0 }) up) 3).spareTx = 0 ∧
      (dieOf (updDie 3 (fun d => { d with spareTx := 0, spareRx := 0 }) up) 3).spareRx = 0) ∧
    (treeBad up 0 = false ∧ treeBad up 1 = false ∧ (1 : Nat) ≠ 2) := by decide +kernel

/-- A core history in a state. -/
def hist (st tick : Nat) : CoreHist := { events := 0, fences := [], state := st, fenceTick := tick, spared := false, slots := [] }

theorem meets_RetirementAndSpotChecks :
    (let s := up.mapPress fun p => { p with cores := mset p.cores (coreKey 3 1023 255) (hist 2 0) }
     3 < 4 ∧ (coreHist s (coreKey 3 1023 255)).state = 2 ∧ (coreHist s (coreKey 3 1023 255)).spared = false ∧
       mgetD (dieOf s 3).coresUsed 1023 0 < 16) ∧
    (3 < 4 ∧ 0 < (dieOf up 3).spareClusters) ∧
    (let s := { (up.mapPress fun p => { p with cores := mset p.cores (coreKey 0 0 0) (hist 1 0) }) with tick := 1800000000 }
     (coreHist s (coreKey 0 0 0)).state = 1 ∧ (coreHist s (coreKey 0 0 0)).fenceTick + quarantineTicks s ≤ s.tick) ∧
    (up.press.running = true ∧ bit up 0x00200004 16 = true ∧ up.tick % 16 = 0) := by decide +kernel

/-- SUM of 32 fp32 elements, one chunk of one row. -/
def sumDesc : Desc := Desc.ofBytes (beBytes 2 5 ++ beBytes 2 1 ++ [1, 0x00, 0, 0] ++ beBytes 8 32 ++ beBytes 4 32 ++ List.replicate 12 0)

/-- One work unit of instance 9 of group 5. -/
def unit0 : WorkUnit :=
  { group := 5, inst := 9, chunk := 0, row := 0, part := 0, ranks := [0], accs := 0, die := 0, cluster := 0, bytes := 128, gang := 1, cost := 64
    requeue := 0, stagedTick := 0, committed := false }

/-- A row that waits for rank 0. -/
def row0 : RowSt := { acc := [], todo := [0], fold := [], folded := 0, requeue := 0, full := false, cask := false }

/-- A chunk with the contribution of rank 0. -/
def chunk0 : Chunk :=
  { index := 0, locals := [⟨0, 32, List.replicate 128 0, 1, true, 0, [], none⟩], fars := [], rows := [row0], localDone := false, prods := [], cask := true }

/-- An instance that has committed its launch. -/
def inst0 : Instance :=
  { Instance.new 5 9 1 599900 false with phase := .committed, desc := some sumDesc, table := some (table 5 1), chunks := [(0, chunk0)] }

/-- The device with that instance, its unit listed. -/
def pressingState : State :=
  (up.mapColl fun c => { c with groups := [(5, grp 5 1)], insts := [(ikey 5 9, inst0)] }).mapPress fun p =>
    { p with units := [unit0], listed := [ikey 5 9] }

theorem meets_PressingsCommitUnits :
    (pressingState.press.running = true ∧ planned pressingState = [unit0] ∧ mget pressingState.coll.insts (ikey 5 9) = some inst0 ∧
      inst0.desc = some sumDesc ∧ instTable pressingState inst0 = some (table 5 1) ∧ mget inst0.chunks 0 = some chunk0 ∧
      chunk0.rows[0]? = some row0 ∧ row0.full = false ∧ chunk0.cask = true ∧ sumDesc.rowWise = true ∧ stateLost pressingState inst0 sumDesc chunk0.index 0 (preWords inst0 sumDesc) = false ∧
      (pressLocal pressingState inst0 sumDesc (table 5 1) chunk0 0 row0 unit0.ranks unit0.accs).1.acc.any Must.overBudget = false) ∧
    up.press.running = true := by decide +kernel

/-- A device whose only commit names an item for an edge. -/
def committing (i : StagedItem) (edge : Nat) : State :=
  up.mapColl fun c => { c with
    commits := [⟨1, edge, [i]⟩], groups := [(5, { grp 5 1 with standby := some (table 5 2) })], insts := [(ikey 5 9, inst0)] }

theorem meets_EdgesCommitsAndTimeouts :
    ((committing (.group 5) 600000).coll.commits = [⟨1, 600000, [.group 5]⟩] ∧ 600000 ≤ (committing (.group 5) 600000).tick ∧
      mget (committing (.group 5) 600000).coll.groups 5 = some { grp 5 1 with standby := some (table 5 2) } ∧ (table 5 2).valid = true) ∧
    (4 < 5 ∧ (committing (.qos 4) 0).coll.commits = [⟨1, 0, [.qos 4]⟩] ∧ 0 ≤ (committing (.qos 4) 0).tick) ∧
    ((committing (.qos 4) 600001).coll.commits = [⟨1, 600001, [.qos 4]⟩] ∧ (committing (.qos 4) 600001).tick < 600001) ∧
    (pressingState.coll.insts = [(ikey inst0.group inst0.inst, inst0)] ∧ timedOut pressingState inst0 = true) := by decide +kernel

/-- The device with stream 3 open. -/
def streaming (c : StreamCtx) : State := up.mapHost fun h => { h with streams := [(3, c)] }

/-- A DATA packet of stream 3, next in its sequence. -/
def dataPkt : List Byte := exchHeader 1 0 0 5 1 9 0 0 0 32 3 7 0 128 0 ++ List.replicate 128 0

/-- An acknowledgement of stream 3 up to sequence 2, and a NACK that names sequence 1. -/
def ackPkt : List Byte := exchHeader 4 0 0 0 0 0 0 0 0 0 3 0 0 8 0 ++ nackPayload 2 0 0 []
/-- The NACK. -/
def nackPkt : List Byte := exchHeader 4 0 0 0 0 0 0 0 0 0 3 0 0 16 0 ++ nackPayload 4 1 0 [(1, 1)]

/-- A packet sent on stream 3. -/
def result0 : HostPkt := ⟨2, 0, 0, 5, 1, 9, 0, 0, 0, 0, 0, 3, 0, [], 0, []⟩

theorem meets_HostPackets :
    (Accepts (streaming strm) src0 dataPkt strm ∧ (Pkt.ofBytes dataPkt).ty ≠ 4 ∧ (Pkt.ofBytes dataPkt).seq = strm.inNext ∧
      strm.held = [] ∧ wouldOpen (streaming strm) (Pkt.ofBytes dataPkt) = false ∧
      (payloadCask (Pkt.ofBytes dataPkt) (bump 0x00040040 (streaming strm))).1.isSome = true) ∧
    (Accepts (streaming strm) src0 ackPkt strm ∧ (Pkt.ofBytes ackPkt).ty = 4 ∧ byteAt (Pkt.ofBytes ackPkt).payload 4 = 0 ∧
      ahead 32 (beAt (Pkt.ofBytes ackPkt).payload 0 4) (strm.outNext + 2 ^ 32 - 1) = false) ∧
    (let c := { strm with retained := [(1, ⟨result0, 0⟩)] }
     Accepts (streaming c) src0 nackPkt c ∧ (Pkt.ofBytes nackPkt).ty = 4 ∧ byteAt (Pkt.ofBytes nackPkt).payload 4 = 1 ∧
       nackRanges (Pkt.ofBytes nackPkt).payload = [(1, 1)] ∧ mget c.retained 1 = some ⟨result0, 0⟩ ∧ 1 < 2 ^ 32 ∧
       ringDist 32 1 c.outInit < ringDist 32 c.outNext c.outInit ∧
       ahead 32 (beAt (Pkt.ofBytes nackPkt).payload 0 4) (c.outNext + 2 ^ 32 - 1) = true) := by
  unfold Accepts; decide +kernel

/-- An open NACK. -/
def nack0 (tries : Nat) : OpenNack := ⟨7, 1, tries, 0, 0, 0⟩

/-- Priority `i` paused, or ignored. -/
def paused (i : Nat) (ignored : Bool) : State :=
  updPfc i (fun y => { y with quanta := 6250, since := some 500000, ignored := ignored, lastFrame := 599000 }) up

/-- A class of the Cellar calls for back-pressure, and the device asks for a pause. -/
def pausing : State :=
  (up.mapHost fun h => { h with pfcSent := true, pfcTick := 599995 }).mapCellar fun c =>
    { c with classes := vupd c.classes 4 fun x => { x with bp := true } }

theorem meets_StreamTimersAndPauses :
    (let c := { strm with nack := some (nack0 0) }
     mget (streaming c).host.streams 3 = some c ∧ c.nack = some (nack0 0) ∧ c.stalled = false ∧
       (nack0 0).tick + nackRetry (streaming c) ≤ (streaming c).tick ∧ (nack0 0).tries < nackMax (streaming c) ∧ (nack0 0).reason ≠ 0) ∧
    (let c := { strm with nack := some (nack0 255) }
     c.nack = some (nack0 255) ∧ c.stalled = false ∧ (nack0 255).tick + nackRetry (streaming c) ≤ (streaming c).tick ∧
       nackMax (streaming c) ≤ (nack0 255).tries ∧ (nack0 255).reason ≠ 5) ∧
    (let c := { strm with ackOwed := true, retained := [(1, ⟨result0, 0⟩)] }
     mget (streaming c).host.streams 3 = some c ∧ c.ackOwed = true ∧ c.ackFrom + ackInterval (streaming c) ≤ (streaming c).tick ∧
       mget c.retained 1 = some ⟨result0, 0⟩ ∧ result0.ty = 2 ∧ 0 + outHold (streaming c) ≤ (streaming c).tick) ∧
    (rxOn up = true ∧ 7 < 8 ∧ bitOf 0x80 7 = true ∧ (pfcOf up 7).ignored = false) ∧
    ((pfcOf (paused 7 false) 7).since.isSome = true ∧
      (pfcOf (paused 7 false) 7).lastFrame * 6250 + (pfcOf (paused 7 false) 7).quanta ≤ ((paused 7 false).tick + 1) * 6250) ∧
    (let s := fldSet 0x00040004 4 1 1 (paused 0 false)
     (pfcOf s 0).since = some 500000 ∧ 500000 + pfcWd s ≤ s.tick ∧ bit s 0x00040004 4 = true) ∧
    ((pfcOf (paused 0 true) 0).ignored = true ∧ (pfcOf (paused 0 true) 0).lastFrame + 1000 ≤ (paused 0 true).tick) ∧
    (txOn pausing = true ∧ pausing.host.pfcSent = true ∧ hostBp pausing = true ∧ bit pausing 0x00180004 0 = true ∧ pausing.host.pfcTick + 5 ≤ pausing.tick ∧
      pausing.mgt.sysLock = false) := by decide +kernel

/-- The device with an IPv4 address. -/
def addressed : State := fldSet 0x00040004 3 1 1 (up.mapHost fun h => { h with ipv4 := 0x0A000002 })

theorem meets_NeighboursAndLink :
    (rxOn addressed = true ∧ deviceAddr addressed false 0x0A000002 = true ∧ deviceAddr addressed true (linkLocal addressed) = true ∧
      bit addressed 0x00040004 3 = true ∧ addressed.host.icmpCount < 100) ∧ up.host.aligned = true ∧
    (let s := up.mapHost fun h => { h with aligned := false, alignTicks := 599995 }
     s.host.linkUp = true ∧ s.host.aligned = false ∧ s.host.alignTicks + 5 ≤ s.tick) ∧
    (up.mapHost fun h => { h with linkUp := false }).host.linkUp = false := by decide +kernel

theorem meets_HostEgress :
    (let s := enqueue 0 3 (.host { result0 with stream := 3 }) (streaming strm)
     s.host.linkUp = true ∧ bit s 0x00040004 1 = true ∧ 3 < 4 ∧ hostEligible s 3 = true ∧ (∀ k, k < 3 → hostEligible s k = false) ∧
       headItem s 0 3 = some (.host { result0 with stream := 3 }) ∧ isShadow s = false ∧ mget s.host.streams 3 = some strm) ∧
    (let s := enqueue 0 0 (.other (.mailbox src0 [1])) up
     hostEligible s 0 = true ∧ headItem s 0 0 = some (.other (.mailbox src0 [1])) ∧ s.host.doneWait = []) ∧
    (let s := up.mapQos fun v => vupd v 4 fun c => { c with active := { c.active with rates := List.replicate 16 100 } }
     4 < 5 ∧ 15 < 16 ∧ (schedOf s 4).active.shaped 15 = true) ∧
    (let s := { up with tick := 65536 * 500 }
     s.tick % fld1 s 0x001C0008 0 16 = 0 ∧ ∀ n, n < 5 → (schedOf s n).sampledTick ≠ s.tick) := by decide +kernel

/-- A partial for the far member behind port A. -/
def partial0 : LinePartial :=
  { port := 0, group := 5, epoch := 1, inst := 9, chunk := 0, hash := 0, form := .opaqueBytes, coding := 0, isSealed := false, count := 0
    raw := [1, 2], sites := 1, members := 1, must := false, tag := none }

/-- Port A with that partial in Q0 of its scheduler. -/
def selecting : State := enqueue 1 0 (.line partial0) linked

theorem meets_LineSelectBuildsBlock :
    portOpen selecting 0 = true ∧
      (selectQueue (lineEligible selecting 0) (lineHeadLen selecting 0) (schedOf selecting 1)).1 = some 0 ∧
      lineHead selecting 0 0 = some partial0 ∧ pickTrib selecting 0 0 (partialUnits selecting partial0) = some 4 ∧
      isShadow selecting = false ∧ (tribOf selecting 4).isSome = true ∧
      1 ≤ (encContent partial0 (lineBody (deepOn selecting) (lineBlend selecting partial0) partial0).bytes).length ∧
      (encContent partial0 (lineBody (deepOn selecting) (lineBlend selecting partial0) partial0).bytes).length ≤ 65536 := by decide +kernel

/-- A clock heard of at tick 1. -/
def master0 : PtpMaster := ⟨77, 1, 128, 248, 254, 65535, 128, 77, 0, 1, 0, 1, [1]⟩

/-- The device with PTP on over IPv4, following that clock. -/
def ptpOn : State :=
  (fldSet 0x00020038 9 1 1 (fldSet 0x00020004 1 1 1 up)).mapTime fun t => { t with masters := [master0], master := some master0 }

theorem meets_PtpExchange :
    PtpTaken ptpOn 0 1 ∧
    (let s := { ptpOn with tick := 4000001 }
     s.time.master = some master0 ∧ s.time.masters.find? (sameClock master0) = some master0 ∧
       master0.announces.headD 0 + annTimeout s * logTicks master0.logAnnounce ≤ s.tick) ∧
    fromMaster ptpOn 77 1 = true ∧
    (ptpOn.mapTime fun t => { t with ptp := { t.ptp with syncSeq := some 9 } }).time.ptp.syncSeq = some 9 ∧
    (bit ptpOn 0x00020004 1 = true ∧ ptpOn.time.ptp.nextReq ≤ ptpOn.tick) ∧
    (let s := (fldSet 0x0002000C 0 3 1 ptpOn).mapTime fun t => { t with ptp := { t.ptp with reqSeq := 5, t1 := some 1, t2 := some 2, t3 := some 3 } }
     PtpTaken s 0 1 ∧ fromMaster s 77 1 = true ∧ s.time.ptp.reqSeq = 5 ∧ s.time.ptp.t1 = some 1 ∧ s.time.ptp.t2 = some 2 ∧
       s.time.ptp.t3 = some 3 ∧ timeSource s = 1) := by
  unfold PtpTaken; decide +kernel

theorem meets_TimeStepsAndServo :
    (up.mapTime fun t => { t with stepTo := some 5 }).time.stepTo = some 5 ∧
    (let s := { (up.mapTime fun t => { t with servo := 2 }) with tick := 1500000 }
     (s.time.servo = 1 ∨ s.time.servo = 2) ∧ s.time.lastAccepted + 1500000 ≤ s.tick) ∧
    (let s := up.mapTime fun t => { t with valid := true, outSince := some 0 }
     let s := { s with tick := 2 ^ 40 }
     s.time.valid = true ∧ s.time.outSince = some 0 ∧ 0 + holdoverLimit s ≤ s.tick) ∧
    (5 % 8 < 6 ∧ 5 % 8 ≠ timeSource up) ∧ false ≠ bit up 0x00020004 0 := by decide +kernel

theorem meets_PulsesAndReferences :
    (3 < 4 ∧ 2 % 4 ≠ 3) ∧
    (let s := up.mapTime fun t => { t with valid := true, pulses := vupd t.pulses 3 fun p => { p with next := some 1999 } }
     3 < 4 ∧ (vget s.time.pulses 3 Pulse.off).next = some 1999 ∧
       0 < timeDiff ((s.time.counter + tickAdvance s.time.f) / 2 ^ 48 % 2 ^ 64) 1999 ∧
       (bit s (pulseReg 3 0) 2 = true → s.time.valid = true)) ∧
    (let s := (updRef 1 (fun x => { x with ok := true }) up).mapTime fun t => { t with source := 1, xtalFailed := false }
     1 < 2 ∧ (refOf s 1).ok = true ∧ s.time.source = 1 ∧ s.time.xtalFailed = false) ∧
    (let s := updRef 0 (fun x => { x with ok := false, windows := 65535 }) up
     within200 2000 = true ∧ (refOf s 0).ok = false ∧ fld1 s 0x0001000C 0 16 ≤ (refOf s 0).windows + 1) ∧
    (let s := updRef 1 (fun x => { x with ok := true }) up
     within200 2001 = false ∧ ¬ ((refOf s 1).ok = true ∧ within200 2001 = true ∧ within200 0 = false)) ∧
    (3 % 4 = 2 + 1 ∧ sourceGood (up.mapTime fun t => { t with xtalOk := true }) 2 = true) := by decide +kernel

/-- A live region of 4 KiB. -/
def regioned (s : State) : State := s.mapMem fun m => { m with regions := [(0, ⟨1, 0xE00000000, 4096, true⟩)] }

/-- Its handle. -/
def handle0 : Nat := 4096

/-- The device answers that a session of the owner is open. -/
def owner : Session := ses 1

theorem meets_SystemCommands :
    Called (asked 0x0101 0) 7 0x0101 (ses 0) ∧ Called (asked 0x0102 0) 7 0x0102 (ses 0) ∧ Called (asked 0x0105 0) 7 0x0105 (ses 0) ∧
    Called (asked 0x0107 0) 7 0x0107 (ses 0) ∧ Called (asked 0x0106 1) 7 0x0106 owner ∧ Called (asked 0x010D 1) 7 0x010D owner ∧
    (up.mapMgt fun g => { g with lockNext := true }).mgt.lockNext = true ∧
    (let s := (asked 0x0103 0).mapColl fun c => { c with groups := [(5, { grp 5 1 with standby := some (table 5 2) })] }
     Called s 7 0x0103 (ses 0) ∧ commitFault s false 600003 [.group 5] = none) ∧
    (Called (asked 0x0103 0) 7 0x0103 (ses 0) ∧ 16 < (List.replicate 17 (StagedItem.group 5)).length) ∧
    (let s := (asked 0x0104 0).mapColl fun c => { c with commits := [⟨9, 600001, [.group 5]⟩] }
     Called s 7 0x0104 (ses 0) ∧ (s.coll.commits.find? fun c => c.id == 9) = some ⟨9, 600001, [.group 5]⟩ ∧ s.tick < 600001) := by
  unfold Called; and_intros <;> decide +kernel

theorem meets_ManifestAndShadowCommands :
    (let s := (regioned (asked 0x0108 0)).mapBru fun b => { b with ready := false }
     Called s 7 0x0108 (ses 0) ∧ regionArg s handle0 4095 1 1 10856 = .ok [0] ∧ s.bru.ready = false ∧ mfValid s [0] = false) ∧
    (let s := (regioned (asked 0x0109 0)).mapBru fun b => { b with manifest := some [1, 2] }
     Called s 7 0x0109 (ses 0) ∧ s.bru.manifest = some [1, 2] ∧ regionOf s handle0 = some ⟨1, 0xE00000000, 4096, true⟩ ∧
       4094 + [1, 2].length ≤ 4096 ∧ regionInUse s handle0 = false) ∧
    (Called (asked 0x010A 0) 7 0x010A (ses 0) ∧ Called (asked 0x010B 0) 7 0x010B (ses 0) ∧ up.sites.shadow.role = 0 ∧
      up.sec.enrolled = true) ∧
    (let s := (asked 0x010C 0).mapSites fun y => { y with shadow := { y.shadow with role := 1, eligible := true } }
     Called s 7 0x010C (ses 0) ∧ promoteReady s = true) := by
  unfold Called; and_intros <;> decide +kernel

/-- The entry of a group table of group 5 with a local member and a far one, at an epoch. -/
def entry0 (epoch : Nat) : List Byte :=
  leBytes 2 5 ++ leBytes 2 epoch ++ leBytes 4 (2 + 3 * 2 ^ 16 + 2 ^ 30) ++ leBytes 4 0 ++ leBytes 4 1000 ++ leBytes 4 1000 ++ leBytes 4 1000 ++
    List.replicate 40 0

/-- Its members: endpoint 1 on stream 3, and port B that covers site 1. -/
def members0 : List (List Byte) :=
  [leBytes 4 1 ++ leBytes 4 0 ++ leBytes 4 3 ++ leBytes 4 0, leBytes 4 (1 + 2 ^ 16 + 2 ^ 21) ++ leBytes 4 1 ++ leBytes 8 0]

/-- With stream 3 open. -/
def withStream (s : State) : State := s.mapHost fun h => { h with streams := [(3, strm)] }

theorem meets_GroupsAndStreams :
    (let s := (withStream (asked 0x0201 0)).mapColl fun c => { c with groups := [(5, grp 5 65535)] }
     let b := GroupTable.ofBytes (entry0 0) members0
     Called s 7 0x0201 (ses 0) ∧ mgetD s.coll.groups b.group GroupRec.new = grp 5 65535 ∧ (grp 5 65535).standby = none ∧
       (grp 5 65535).draining = none ∧ tableForm (entry0 0) members0 = true ∧ tableOk s b = true ∧ b.epoch = ((table 5 65535).epoch + 1) % 2 ^ 16) ∧
    tableForm (entry0 0 ++ [0]) members0 = false ∧
    (let s := (asked 0x0202 0).mapColl fun c => { c with groups := [(5, grp 5 1)] }
     Called s 7 0x0202 (ses 0) ∧ mget s.coll.groups 5 = some (grp 5 1) ∧ (grp 5 1).current = some (table 5 1)) ∧
    (Called (asked 0x0203 0) 7 0x0203 (ses 0) ∧ mget (asked 0x0203 0).host.streams 1048575 = none ∧ 1048575 < 2 ^ 20 ∧ 65535 < 2 ^ 16) ∧
    (let s := withStream (asked 0x0204 0)
     Called s 7 0x0204 (ses 0) ∧ mget s.host.streams 3 = some strm ∧ streamNamed s 3 = false) := by
  unfold Called; and_intros <;> decide +kernel

/-- A program of one instruction, END, without its digest. -/
def image0 : List Byte :=
  leBytes 4 0x47525056 ++ [0, 1, 0, 0] ++ leBytes 4 96 ++ leBytes 2 1 ++ leBytes 2 1 ++ leBytes 8 0 ++ List.replicate 8 0 ++ leBytes 8 0x5F

/-- The program with its digest. -/
def image1 : List Byte := overwrite image0 24 (leBytes 8 (imageDigest shake256 image0))

/-- An ended instance. -/
def ended0 : EndedRec := ⟨5, 9, 0, 0xFFFF, false, false, 1, 0, 0, Stats.zero⟩

theorem meets_InstancesAndPrograms :
    (let s := (asked 0x0301 0).mapColl fun c => { c with insts := [(ikey 5 9, inst0)], ended := [] }
     Called s 7 0x0301 (ses 0) ∧ instOf s 5 9 = some inst0) ∧
    (let s := (asked 0x0301 0).mapColl fun c => { c with ended := [ended0] }
     Called s 7 0x0301 (ses 0) ∧ instOf s 5 9 = none ∧ (s.coll.ended.find? fun e => e.group == 5 && e.inst == 9) = some ended0) ∧
    Called (asked 0x0302 0) 7 0x0302 (ses 0) ∧
    (let s := (asked 0x0303 0).mapColl fun c => { c with insts := [(ikey 5 9, inst0)] }
     Called s 7 0x0303 (ses 0) ∧ instOf s 5 9 = some inst0) ∧
    (let s := regionWrite handle0 0 image1 (regioned (asked 0x0401 0))
     Called s 7 0x0401 (ses 0) ∧ regionArg s handle0 0 40 1 9248 = .ok image1 ∧ mget s.coll.programs 65535 = none ∧
       checkImage shake256 image1 = none ∧ (residentImages s).length < 16 ∧
       sumNat ((residentImages s).map (·.lowered)) + (Image.ofBytes image1).lowered ≤ 12288) ∧
    (let r : ProgRec := ⟨some (Image.ofBytes image0), none, [Image.ofBytes image0]⟩
     let s := (asked 0x0402 0).mapColl fun c => { c with programs := [(65535, r)] }
     Called s 7 0x0402 (ses 0) ∧ mget s.coll.programs 65535 = some r ∧ ∀ i ∈ r.current.toList ++ r.draining, imageInUse s i = false) ∧
    Called (asked 0x0403 0) 7 0x0403 (ses 0) := by
  unfold Called; and_intros <;> decide +kernel

theorem meets_UserRegions :
    (let s := asked 0x0501 0
     Called s 7 0x0501 (ses 0) ∧ 4096 ≠ 0 ∧ 4096 % 4096 = 0 ∧ freeRegionSlot s = some 0 ∧ (placeRegion s 4096).isSome = true) ∧
    (Called (regioned (asked 0x0502 0)) 7 0x0502 (ses 0) ∧ regionOf (regioned (asked 0x0502 0)) handle0 = some ⟨1, 0xE00000000, 4096, true⟩ ∧
      regionInUse (regioned (asked 0x0502 0)) handle0 = false) ∧
    (Called (regioned (asked 0x0503 0)) 7 0x0503 (ses 0) ∧ 4064 ≤ 4064 ∧ 32 + 4064 ≤ 4096 ∧
      regionPoisoned (regioned (asked 0x0503 0)) handle0 32 4064 = false) ∧
    (Called (regioned (asked 0x0504 0)) 7 0x0504 (ses 0) ∧ (List.replicate 4064 (1 : Byte)).length ≤ 4064 ∧
      regionTorn (regioned (asked 0x0504 0)) handle0 32 4064 = false) ∧
    (Called (regioned (asked 0x0505 0)) 7 0x0505 (ses 0) ∧ 1 ≠ 0 ∧ 4095 + 1 ≤ 4096 ∧ (ses 0).bulk = none) ∧
    Called (asked 0x0601 0) 7 0x0601 (ses 0) := by
  unfold Called; and_intros <;> decide +kernel

/-- A larger region. -/
def regioned8 (n : Nat) (s : State) : State := s.mapMem fun m => { m with regions := [(0, ⟨1, 0xE00000000, n, true⟩)] }

/-- A length that a report, its signature and the chain fill exactly. -/
def attestLen : Nat :=
  let s := asked 0x0905 0
  (attestReport (List.replicate 32 0) s ++ ownSign (attestReport (List.replicate 32 0) s) ++ ownChain s).length

theorem meets_AnchorAndEnrolment :
    (let s := (asked 0x0901 0).mapSec fun k => { k with anchor := none }
     Called s 7 0x0901 (ses 0) ∧ s.sec.anchor = none) ∧
    (Called (asked 0x0901 0) 7 0x0901 (ses 0) ∧ (asked 0x0901 0).sec.anchor = some []) ∧
    (let s := regioned8 8192 (asked 0x0902 1)
     Called s 7 0x0902 owner ∧ ∃ l, regionArg s handle0 3768 4424 4424 4424 = .ok l) ∧
    Called (asked 0x0903 0) 7 0x0903 (ses 0) ∧
    (Called (regioned (asked 0x0904 0)) 7 0x0904 (ses 0) ∧ regionArg (regioned (asked 0x0904 0)) handle0 4095 1 1 9432 = .ok [0]) ∧
    (let s := linked.mapMgt fun g => { g with order := (asked 0x0906 0).mgt.order, mbx := (asked 0x0906 0).mgt.mbx }
     let s := s.mapHost fun h => { h with sessions := [(1, ses 0)] }
     Called s 7 0x0906 (ses 0) ∧ 0 < 4 ∧ (keysOf s 0).st = 4 ∧ bit s 0x00100004 0 = true) := by
  unfold Called; and_intros <;>
    first | decide +kernel | exact ok_of_isSome (by decide +kernel)

theorem meets_AnchorAndEnrolment_attest :
    let s := regioned8 attestLen (asked 0x0905 0)
    let nonce : List Byte := List.replicate 32 0
    let d := attestReport nonce s ++ ownSign (attestReport nonce s) ++ ownChain s
    Called s 7 0x0905 (ses 0) ∧ nonce.length = 32 ∧ regionOf s handle0 = some ⟨1, 0xE00000000, attestLen, true⟩ ∧ 0 + d.length ≤ attestLen ∧
      regionInUse s handle0 = false :=
  ⟨by unfold Called; decide +kernel, rfl, rfl, Nat.le_of_eq (Nat.zero_add _), rfl⟩

/-- A request for a utility command over the last byte of a region. -/
def utilAsked (code : Nat) : State := regioned (asked code 0)

/-- The key and the nonce of the utility tests. -/
def key0 : List Byte := List.replicate 32 0
/-- The nonce. -/
def nonce0 : List Byte := List.replicate 12 0

theorem meets_UtilityEngine :
    (∀ code, code ∈ [0x0907, 0x0908, 0x0909, 0x090A] →
      Called (utilAsked code) 7 code (ses 0) ∧ (utilAsked code).sec.uce.owner = 0 ∧ utilLimits 1 0 1 = true ∧ utilLimits 1 0 65536 = true ∧
        regionArg (utilAsked code) handle0 4095 1 0 16777216 = .ok [0] ∧ regionArg (utilAsked code) handle0 4095 0 0 65536 = .ok [] ∧
        outFault (utilAsked code) handle0 4095 1 = none ∧ outFault (regioned8 65536 (utilAsked code)) handle0 0 65536 = none ∧
        regionOf (utilAsked code) handle0 = some ⟨1, 0xE00000000, 4096, true⟩) ∧
    key0.length = 32 ∧ nonce0.length = 12 ∧
    (∃ tag, tag.length = 16 ∧ gcmOpen key0 nonce0 [] [0] tag = some (ctrWith (aesKeys key0) nonce0 2 [0])) ∧
    (∃ tag, tag.length = 16 ∧ gcmOpen key0 nonce0 [] [0] tag = none) ∧
    1 ≤ 3 ∧ (4 : Nat) ≠ 3 ∧
    (let s := up.mapSec fun k => { k with uce := { k.uce with owner := 3, opTick := 0 } }
     s.sec.uce.owner ≠ 0 ∧ s.sec.uce.opTick + uceLimit s ≤ s.tick) := by
  refine ⟨?_, rfl, rfl, ⟨_, gcmTag_length rfl _ _ _, gcmOpen_tag _ _ _ _⟩, ?_, by decide, by decide, by decide +kernel⟩
  · intro code h
    simp only [List.mem_cons, List.not_mem_nil, or_false] at h
    rcases h with rfl | rfl | rfl | rfl <;> unfold Called <;> and_intros <;> decide +kernel
  · by_cases h : List.replicate 16 0 = gcmTag (aesKeys key0) nonce0 [] [0]
    · exact ⟨List.replicate 16 1, rfl, gcmOpen_other (by rw [← h]; decide)⟩
    · exact ⟨List.replicate 16 0, rfl, gcmOpen_other h⟩

theorem meets_TimeAndQosCommands :
    Called (asked 0x0A01 0) 7 0x0A01 (ses 0) ∧
    (let s := (asked 0x0A01 0).mapTime fun t => { t with samples := List.replicate 256 1 }
     Called s 7 0x0A01 (ses 0) ∧ qualCount s ≤ s.time.samples.length) ∧
    (let s := (asked 0x0F01 0).mapTime fun t => { t with xtalOk := true }
     Called s 7 0x0F01 (ses 0) ∧ 2 ≤ 2 ∧ sourceGood s 2 = true) ∧
    (let s := (asked 0x0B01 0).mapColl fun c => { c with groups := [(5, grp 5 1)] }
     Called s 7 0x0B01 (ses 0) ∧ 0 < 5 ∧ 3 < 16 ∧ (0 = 0 → 3 ≤ 3) ∧ (groupOf s 5).isSome = true) ∧
    (Called (asked 0x0B02 0) 7 0x0B02 (ses 0) ∧ 4 < 5 ∧ 15 < 16 ∧ 2 ^ 24 - 1 < 2 ^ 24 ∧ 511 < 512) ∧
    (Called (asked 0x0B03 0) 7 0x0B03 (ses 0) ∧ 4 < 5 ∧ 15 < 16) := by
  unfold Called; and_intros <;> decide +kernel

/-- A Ledger record of stream C. -/
def record0 : LedgerRec := ⟨0, 1, 4, 0, 0, 0, 1, 0, [], []⟩

/-- A valid capture of 4,096 bytes in slot 1. -/
def captured (s : State) : State :=
  s.mapFlt fun x => { x with barn := vupd x.barn 1 fun b => { b with valid := true, complete := true, length := 4096 } }

theorem meets_FaultCommandsAndSeals :
    (Called (asked 0x0C01 0) 7 0x0C01 (ses 0) ∧ [0xFF01].length ≤ 1016) ∧
    (let s := (asked 0x0C02 0).mapFlt fun x => { x with ledgerC := { x.ledgerC with recs := [record0], next := 5 } }
     Called s 7 0x0C02 (ses 0) ∧ 1 ≤ 7 ∧ 7 ≤ 7 ∧
       (s.flt.ledgerC.recs.filter fun r => decide (4 ≤ r.index) && decide (r.index < 4 + 7)) = record0 :: [] ∧ record0.index = 4) ∧
    Called (asked 0x0C03 0) 7 0x0C03 (ses 0) ∧
    (Called (captured (asked 0x0C04 0)) 7 0x0C04 (ses 0) ∧ 1 < 2 ∧ (barnSlot (captured (asked 0x0C04 0)) 1).valid = true ∧ 4064 ≤ 4064 ∧
      32 + 4064 ≤ (barnSlot (captured (asked 0x0C04 0)) 1).length) ∧
    (Called (captured (asked 0x0C05 0)) 7 0x0C05 (ses 0) ∧ (barnSlot (captured (asked 0x0C05 0)) 1).valid = true ∧ 4096 ≠ 0 ∧
      0 + 4096 ≤ (barnSlot (captured (asked 0x0C05 0)) 1).length ∧ (ses 0).bulk = none) ∧
    (Called (captured (asked 0x0C06 0)) 7 0x0C06 (ses 0) ∧ (barnSlot (captured (asked 0x0C06 0)) 1).valid = true) ∧
    (let s := up.mapFlt fun x => { x with ledgerC := { x.ledgerC with next := 65536 }, ledgerF := { x.ledgerF with next := 32764 } }
     sealDue s 0 = true ∧ sealDue s 1 = true) ∧
    (sealDue up 0 = false ∧ sealDue up 1 = false) ∧
    (up.flt.dropped = [] ∧ (up.mapFlt fun x => { x with dropped := [(0x4F03, 2)] }).flt.dropped ≠ []) := by
  unfold Called; and_intros <;> decide +kernel

/-- Firmware slot `k` in a state, while slot 0 is active. -/
def slotted (k st : Nat) (s : State) : State :=
  s.mapMgt fun g => { g with active := 0, slots := vupd g.slots k fun x => { x with state := st } }

theorem meets_FirmwareCommands :
    Called (asked 0x0D01 0) 7 0x0D01 (ses 0) ∧
    (let s := slotted 1 1 (asked 0x0D02 0)
     Called s 7 0x0D02 (ses 0) ∧ fwOpen s 1 = true ∧ (List.replicate 4064 (1 : Byte)).length ≤ 4064 ∧ fwSlotSize - 4064 + 4064 ≤ fwSlotSize) ∧
    (let s := slotted 1 1 (asked 0x0D03 0)
     Called s 7 0x0D03 (ses 0) ∧ fwOpen s 1 = true ∧ 1 ≠ 0 ∧ fwSlotSize - 1 + 1 ≤ fwSlotSize ∧ (ses 0).bulk = none) ∧
    (let s := slotted 1 1 (asked 0x0D04 0)
     Called s 7 0x0D04 (ses 0) ∧ fwOpen s 1 = true ∧ (fwSlotOf s 1).state ≠ 0 ∧ (fwSlotOf s 1).fault.isSome = true) ∧
    (let s := ((slotted 1 2 (asked 0x0D05 1)).mapFlt fun x => { x with holdupPct := 95 }).mapBru fun b => { b with railsOk := true }
     Called s 7 0x0D05 owner ∧ s.mgt.active < 2 ∧ s.flt.fatal = false ∧ (fwSlotOf s (1 - s.mgt.active)).state = 2 ∧
       fwOutside s (fwSlotOf s (1 - s.mgt.active)).version = false ∧ s.mgt.ownerLock = false ∧ fwMoving s = 0 ∧ 95 ≤ s.flt.holdupPct ∧
       s.bru.railsOk = true) ∧
    Called (asked 0x0D06 1) 7 0x0D06 owner ∧ Called (asked 0x0D07 1) 7 0x0D07 owner := by
  unfold Called; and_intros <;> decide +kernel

/-- A blend of class 7, its 41 codes of 5 and 6 bits, without its digest. -/
def blend1 (id : Nat) : Blend :=
  { id := id, cls := 7, digest := 0, lens := List.replicate 23 5 ++ List.replicate 18 6 ++ List.replicate 215 0 }

/-- The same with its digest. -/
def blend0 (id : Nat) : Blend := { blend1 id with digest := (blend1 id).digestOf }

/-- Its bytes are a table of class 7 that a host may give. -/
theorem blend0_table : hostTable 7 (blend0 127).toBytes = true := by decide +kernel

/-- A host's table is taken where its slot is empty. -/
theorem fits_empty {s : State} {ctx cls : Nat} {l : List Byte} (staging : Bool) (hc : ctx < 6) (hk : cls < 8) (h : hostTable cls l = true)
    (hx : bslot s ctx cls = BSlot.zero) : blendFault s staging ctx cls l = none := by
  have h1 : ¬ (6 ≤ ctx ∨ 8 ≤ cls) := by omega
  simp [blendFault, hx, h, h1, BSlot.zero]

theorem meets_BlendCommands :
    (Called (asked 0x0E01 0) 7 0x0E01 (ses 0) ∧ 1 < 2 ∧ blendFault (asked 0x0E01 0) false 1 7 (blend0 127).toBytes = none ∧
      2 ≤ 5 ∧ blendFault (asked 0x0E01 0) false 5 7 (blend0 127).toBytes = none) ∧
    (Called (asked 0x0E02 0) 7 0x0E02 (ses 0) ∧ blendFault (asked 0x0E02 0) true 5 7 (blend0 127).toBytes = none) ∧
    (let s := updSlot 1 7 (fun x => { x with previous := some (blend1 3) }) (asked 0x0E03 0)
     Called s 7 0x0E03 (ses 0) ∧ 1 < 2 ∧ 7 < 8 ∧ (bslot s 1 7).previous = some (blend1 3) ∧
       (1 = 1 → (s.coll.insts.any fun e => e.2.blends.contains (7 * 256 + (blend1 3).id)) = false)) ∧
    (let s := updSlot 9 7 (fun x => { x with current := some (blend1 3) }) (asked 0x0E04 0)
     Called s 7 0x0E04 (ses 0) ∧ (bslot s 9 7).current = some (blend1 3)) ∧
    (let s := updSlot (lOut 3) 7 (fun x => { x with rawHold := true }) (withStream (asked 0x0E05 0))
     Called s 7 0x0E05 (ses 0) ∧ 3 < 4 ∧ 7 < 8 ∧ (bslot s (lOut 3) 7).rawHold = true ∧ mget s.host.streams 3 = some strm) := by
  unfold Called; and_intros <;>
    first | exact fits_empty _ (by decide) (by decide) blend0_table (by decide +kernel) | decide +kernel

theorem meets_RegisterWritesByField :
    (∃ f : FieldDef, 0x100 ≤ 0x0001000C ∧ regFields 0x0001000C = some [f] ∧ f.acc = .rw ∧ bitsOf 0xFFFFFFFF f.lo f.w ≠ 0 ∧
      writeFault up false 0x0001000C 0 0xFFFFFFFF = none ∧ standbyReg 0x0001000C = none ∧
      (∀ v full, selfWrite 0x0001000C v full up = none) ∧ (∀ o n, registerRule up 0x0001000C o n = (n, false)) ∧
      ∀ v o n x, afterWrite 0x0001000C v o n x = x) ∧
    bitsOf 8 0 4 ≠ 0 ∧
    (let s := up.mapMgt fun g => { g with sysLock := true }
     writeFault s true 0x00040004 4 4 = some stLocked) ∧
    (writeFault up false 0x100 0 1 = some stRange ∧ stRange ≠ stLocked) := by
  refine ⟨⟨rw 0 16 733, by decide, by decide +kernel, by decide, by decide, by decide +kernel, by decide, ?_, ?_, ?_⟩, by decide, by decide +kernel,
    by decide +kernel⟩ <;> intros <;> rfl

theorem meets_RegisterAccesses :
    (Called (asked 0x1001 0) 7 0x1001 (ses 0) ∧ regRead (asked 0x1001 0) 0x0001000C = some 733 ∧ regRead (asked 0x1001 0) 0x100 = none) ∧
    (Called (asked 0x1002 0) 7 0x1002 (ses 0) ∧ writeFault (asked 0x1002 0) false 0x0001000C 1 1 = none ∧
      writeFault (asked 0x1002 0) false 0x100 1 1 = some stRange) ∧
    (isRc 0x00040040 = true ∧ regRead up 0x00040040 = some 0 ∧ regIndex 0x00040040 0x00180108 0x10 8 = none) := by
  unfold Called; and_intros <;> decide +kernel

/-- A state with an open session. -/
def opened (x : Session) (sid : Nat) (s : State) : State := s.mapHost fun h => { h with sessions := [(sid, x)] }

/-- A datagram of a session, sealed under its key. -/
def dgram (x : Session) (hdr body : List Byte) : List Byte :=
  let c := gcmSeal x.keyIn (mbxNonce (x.twin && x.role == 255) (mbxCounter hdr)) hdr body
  hdr ++ (c.1 ++ c.2)

/-- It is heard in a state where the session is open. -/
theorem dgram_heard {s : State} {sid kind : Nat} {hdr body : List Byte} {x : Session}
    (h : rxOn s = true ∧ mbxUp s = true ∧ hdr.length = 32 ∧ mbxBodyLen hdr = body.length ∧ 2 < kind ∧ mget s.host.sessions sid = some x ∧
      x.keyIn.length = 32 ∧ x.isFresh (mbxCounter hdr) = true ∧ mbxCounter hdr < 2 ^ 32 ∧
      mbxForm kind (hdr ++ List.replicate (mbxBodyLen hdr + (if kind ≤ 2 then 0 else 16)) 0) = true) :
    Heard s sid kind (dgram x hdr body) x body := by
  obtain ⟨h1, h2, h3, h4, h5, h6, h7, h8, h9, h10⟩ := h
  exact heard_of_seal h1 h2 h3 h4 h5 h6 h7 h8 h9 h10

/-- A fragment of a HELLO, or of its reply. -/
def fragment (kind sid idx cnt : Nat) : List Byte := mbxHeader kind sid 77 0 4 (idx + cnt * 2 ^ 16) ++ [1, 2, 3, 4]

/-- A half-open session. -/
def half0 : HalfOpen := ⟨9, src0, List.replicate 32 1, List.replicate 32 2, 1, 100001⟩

/-- A FINISH of that session: its header alone, sealed. -/
def finishHdr : List Byte := mbxHeader 3 9 1 0 0 0
/-- The datagram. -/
def finish0 : List Byte := finishHdr ++ gcmTag (aesKeys half0.keyIn) (mbxNonce false 1) finishHdr []

/-- A request for sys.identity. -/
def request0 : List Byte := beBytes 2 0x0101 ++ List.replicate 6 0 ++ beBytes 8 5 ++ List.replicate 16 0
/-- Its datagram to mailbox 7, with the largest counter. -/
def requestHdr : List Byte := mbxHeader 4 1 (2 ^ 32 - 1) 7 32 6
/-- A CLOSE. -/
def closeHdr : List Byte := mbxHeader 8 1 1 0 0 0
/-- The state of the shadow while a reply is awaited. -/
def awaiting : State :=
  up.mapSites fun y => { y with shadow := { y.shadow with role := 1, peerSrc := src0, hello := some (77, 1, [9]) } }

theorem meets_SessionsAndBulk_open :
    (Fragment up src0 (fragment 1 0 3 4) 1 3 4 ∧ mbxSession (fragment 1 0 3 4) = 0 ∧ 2 ≤ 4) ∧
    (Fragment up src0 (fragment 1 0 0 1) 1 0 1 ∧ mbxSession (fragment 1 0 0 1) = 0 ∧ up.host.helloTick + 500000 ≤ up.tick ∧
      up.host.sessions.length < maxSessions up) ∧
    (let s := up.mapHost fun h => { h with half := [half0] }
     rxOn s = true ∧ mbxUp s = true ∧ mbxForm 3 finish0 = true ∧ s.host.half.find? (fun x => x.id == mbxSession finish0) = some half0 ∧
       half0.src = src0 ∧ s.tick < half0.tick + 500000 ∧ mbxBodyLen finish0 = 0 ∧ mbxCounter finish0 ≠ 0 ∧
       s.host.sessions.length < maxSessions s) ∧
    (Fragment awaiting src0 (fragment 2 5 0 1) 2 0 1 ∧ awaiting.sites.shadow.hello = some (77, 1, [9]) ∧ awaiting.sites.shadow.role = 1 ∧
      mbxCounter (fragment 2 5 0 1) = 77 ∧ src0 = awaiting.sites.shadow.peerSrc ∧ awaiting.host.sessions.length < maxSessions awaiting) ∧
    (let s := { opened (ses 0) 1 up with tick := 30600000 }
     mget s.host.sessions 1 = some (ses 0) ∧ (ses 0).lastTick + 30000000 ≤ s.tick) := by
  unfold Fragment; and_intros <;> decide +kernel

theorem meets_SessionsAndBulk_finish :
    gcmOpen half0.keyIn (mbxNonce false (mbxCounter finish0)) (finish0.take 32) [] (finish0.drop 32) = some [] := by
  rw [show mbxCounter finish0 = 1 by decide +kernel, finish0, List.take_left' (by decide), List.drop_left' (by decide), gcmOpen_tag]
  rfl

theorem meets_SessionsAndBulk_request :
    let udp := dgram (ses 0) requestHdr request0
    let s := opened (ses 0) 1 up
    let busy := opened (ses 0) 1 ((asked 0x0102 0).mapMgt fun g => g)
    (Heard s (mbxSession udp) 4 udp (ses 0) request0 ∧ (mbxOf s (byteAt udp 16)).waiting = false ∧
      ¬ ((mbxOf s (byteAt udp 16)).session = mbxSession udp ∧ (mbxOf s (byteAt udp 16)).seq = mbxReqSeq udp) ∧
      requestForm request0 = true ∧ knownCommand (beAt request0 0 2) = true) ∧
    (Heard busy (mbxSession udp) 4 udp (ses 0) request0 ∧ (mbxOf busy (byteAt udp 16)).waiting = true ∧
      ¬ ((mbxOf busy (byteAt udp 16)).session = mbxSession udp ∧ (mbxOf busy (byteAt udp 16)).seq = mbxReqSeq udp)) ∧
    (let c := dgram (ses 0) closeHdr []
     Heard s (mbxSession c) 8 c (ses 0) []) := by
  intro udp s busy
  refine ⟨⟨?_, ?_⟩, ⟨?_, ?_⟩, ?_⟩
  · rw [show mbxSession udp = 1 by decide +kernel]; exact dgram_heard (by decide +kernel)
  · decide +kernel
  · rw [show mbxSession udp = 1 by decide +kernel]; exact dgram_heard (by decide +kernel)
  · decide +kernel
  · intro c; rw [show mbxSession c = 1 by decide +kernel]; exact dgram_heard (by decide +kernel)

/-- A transfer of 8 bytes from or to the region. -/
def bulk0 (sending : Bool) : Bulk :=
  { kind := 0, target := handle0, offset := 4088, len := 8, sending := sending, next := 2, acked := 0, sentTick := 575000 }

/-- The session that runs it. -/
def bulkSes (sending : Bool) : Session := { ses 0 with bulk := some (bulk0 sending) }

/-- Its last data, and the acknowledgement of all of it. -/
def bulkBody (n : Nat) : List Byte := beBytes 8 n ++ List.replicate 8 7
/-- The header of both. -/
def bulkHdr : List Byte := mbxHeader 7 1 1 0 16 0

theorem meets_SessionsAndBulk_bulk :
    let s := regioned (opened (bulkSes false) 1 up)
    let t := regioned (opened (bulkSes true) 1 up)
    let udp := dgram (bulkSes false) bulkHdr (bulkBody 4088)
    let ack := dgram (bulkSes true) bulkHdr (bulkBody 4096)
    (Heard s (mbxSession udp) 7 udp (bulkSes false) (bulkBody 4088) ∧ (bulkSes false).bulk = some (bulk0 false) ∧
      regionOf s handle0 = some ⟨1, 0xE00000000, 4096, true⟩ ∧ (bulk0 false).offset + (bulk0 false).len ≤ 4096 ∧
      regionInUse s (bulk0 false).target = false ∧ regionTorn s (bulk0 false).target 4088 8 = false ∧ 8 ≤ (bulkBody 4088).length ∧
      beAt (bulkBody 4088) 0 8 = (bulk0 false).offset + (bulk0 false).acked ∧
      (bulkBody 4088).length - 8 ≤ (bulk0 false).len - (bulk0 false).acked) ∧
    (Heard t (mbxSession ack) 7 ack (bulkSes true) (bulkBody 4096) ∧ (bulk0 true).acked < (bulk0 true).len ∧
      beAt (bulkBody 4096) 0 8 = (bulk0 true).offset + (bulk0 true).len ∧ (bulk0 true).len ≤ 8192 * ((bulk0 true).next - 1)) ∧
    (mget t.host.sessions 1 = some (bulkSes true) ∧ (bulk0 true).sentTick + 25000 ≤ t.tick ∧ (bulk0 true).acked < (bulk0 true).len ∧
      bulkPoisoned t (bulk0 true) 4088 8 = false) := by
  intro s t udp ack
  refine ⟨⟨?_, ?_⟩, ⟨?_, ?_⟩, ?_⟩
  · rw [show mbxSession udp = 1 by decide +kernel]; exact dgram_heard (by decide +kernel)
  · decide +kernel
  · rw [show mbxSession ack = 1 by decide +kernel]; exact dgram_heard (by decide +kernel)
  · decide +kernel
  · decide +kernel

/-- The session between a shadow and its twin, and a state of either end. -/
def twinSes (role : Nat) : Session := { ses role with twin := true }

/-- The end of the join of a role, in that session. -/
def joined (role sid : Nat) (s : State) : State :=
  (opened (twinSes (if role = 1 then 255 else 2)) sid s).mapSites fun y =>
    { y with shadow := { y.shadow with role := role, session := some sid, peerSrc := src0 } }

/-- A mismatch reported to the twin, and the last datagram of a twin tick without entries. -/
def mismatchBody : List Byte := beBytes 8 0 ++ beBytes 2 1 ++ List.replicate 10 0
/-- The datagram of a tick. -/
def tickBody (n : Nat) : List Byte := beBytes 8 n ++ [0, 0, 0, 0x80] ++ List.replicate 8 0
/-- The header of both. -/
def twinHdr : List Byte := mbxHeader 9 5 1 0 20 0

theorem meets_ShadowAndTwin :
    (let udp := dgram (twinSes 2) twinHdr mismatchBody
     let s := joined 2 5 up
     Heard s (mbxSession udp) 9 udp (twinSes 2) mismatchBody ∧ s.sites.shadow.role = 2 ∧ s.sites.shadow.session = some (mbxSession udp) ∧
       20 ≤ mismatchBody.length ∧ beAt mismatchBody 8 2 = 1 ∧ s.sites.shadow.mismatches = []) ∧
    (let udp := dgram (twinSes 255) twinHdr (tickBody 49999)
     let s := (joined 1 (2 ^ 32 + 5) up).mapSites fun y => { y with shadow := { y.shadow with base := some 0 } }
     let w := s.sites.shadow
     Heard s (twinSid (mbxSession udp)) 9 udp (twinSes 255) (tickBody 49999) ∧ w.role = 1 ∧
       w.session = some (twinSid (mbxSession udp)) ∧ 20 ≤ (tickBody 49999).length ∧ beAt (tickBody 49999) 8 2 = 0 ∧
       byteAt (tickBody 49999) 10 = 0 ∧ bitOf (byteAt (tickBody 49999) 11) 7 = true ∧ byteAt (tickBody 49999) 12 = 0 ∧ w.ticks = [] ∧
       w.waiting = [] ∧ max w.last (beAt (tickBody 49999) 0 8) + 1 - w.base.getD (beAt (tickBody 49999) 0 8) = 50000) ∧
    (let w : TwinEntry := ⟨1, 5, 9, 0, 0, 599000⟩
     let s := (joined 1 (2 ^ 32 + 5) up).mapSites fun y => { y with shadow := { y.shadow with waiting := [w] } }
     s.sites.shadow.role = 1 ∧ s.sites.shadow.waiting = [w] ∧ s.sites.shadow.own = [] ∧ s.sites.shadow.ticks = [] ∧ w.tick + 1000 ≤ s.tick) ∧
    (∀ role, role ∈ [1, 2] →
     let s := (joined role 5 up).mapSites fun y => { y with shadow := { y.shadow with promoteAt := some 0 } }
     s.sites.shadow.promoteAt = some 0 ∧ 0 ≤ s.time.v ∧ s.sites.shadow.role = role) := by
  refine ⟨?_, ?_, by decide +kernel, by decide +kernel⟩
  · intro udp s
    refine ⟨?_, by decide +kernel⟩
    rw [show mbxSession udp = 5 by decide +kernel]; exact dgram_heard (by decide +kernel)
  · intro udp s w
    refine ⟨?_, by decide +kernel⟩
    rw [show twinSid (mbxSession udp) = 2 ^ 32 + 5 by decide +kernel]; exact dgram_heard (by decide +kernel)

/-- A fresh tributary bound to a port. -/
def trib0 (port : Nat) : Trib := Trib.fresh port 0 0 0

/-- With that tributary under a number. -/
def bound (n port : Nat) (s : State) : State := s.mapLine fun l => { l with tribs := [(n, trib0 port)] }

/-- A bin of a lane. -/
def bin0 (scope : Nat) : PmBin := { scope := scope, kind := 1, start := 0, suspect := false, counts := List.replicate 22 0, reported := [] }

/-- Lane `k`'s laser has failed, with degradation pages or without. -/
def laneFailed (k : Nat) (degr : Bool) : State :=
  let s := up.mapLine fun l => { l with
    lanes := l.lanes.map fun x => { x with degrPages := [(k + 1, blankPage 1 (k + 1) 0)] }
    ports := l.ports.map fun p => { p with degrReady := true } }
  fldSet 0x00094004 2 1 (b2n degr) (updPhys (laneOf s k).phys (fun x => { x with txFailed := true }) s)

theorem meets_LineCommandsAndLosses :
    (Called (asked 0x0701 0) 7 0x0701 (ses 0) ∧ 4 ≤ 1023 ∧ 1023 < 1024 ∧ 3 < 4 ∧ 15 < 16 ∧ tribOf (asked 0x0701 0) 1023 = none ∧
      tribOf (bound 1023 3 (asked 0x0701 0)) 1023 = some (trib0 3) ∧ (trib0 3).port = 3) ∧
    (Called (asked 0x0702 0) 7 0x0702 (ses 0) ∧ 4 ≤ 4 ∧ (laneOf (asked 0x0702 0) 4).rate ≠ 3 ∧ (stageFault (asked 0x0702 0) 4 []).isSome = true) ∧
    (let s := (asked 0x0703 0).mapLine fun l => { l with bins := [bin0 4] }
     Called s 7 0x0703 (ses 0) ∧ (s.line.bins.filter fun b => b.scope == 4 && b.kind == 1)[0]? = some (bin0 4)) ∧
    (Called (asked 0x0704 0) 7 0x0704 (ses 0) ∧ scopeOk (asked 0x0704 0) 4 = true ∧ 19 < scopeCounters 4 ∧ 1 < 2) ∧
    (Called (asked 0x0705 0) 7 0x0705 (ses 0) ∧ 4 < 5 ∧ xhMapOk [(255, 15, 7, 15, 1)] = true ∧ xhMapOk [] = true ∧
      sheavesOk (updLane 4 (fun l => { l with xh := [(255, 15, 7, 15, 1)], rate := 3 }) (asked 0x0705 0)) = true ∧
      (laneOf (asked 0x0705 0) 4).active = none ∧ (laneOf (asked 0x0705 0) 4).standby = none) ∧
    (Called (asked 0x0801 0) 7 0x0801 (ses 0) ∧ 4 < 5 ∧ 1 < 2 ∧ (laneOf (asked 0x0801 0) 4).rate = 0 ∧ farAway (asked 0x0801 0) 4 = false) ∧
    (let s := updLane 4 (fun x => { x with rate := 2 }) (asked 0x0801 0)
     Called s 7 0x0801 (ses 0) ∧ (laneOf s 4).rate ≠ 0) ∧
    (Called (asked 0x0802 0) 7 0x0802 (ses 0) ∧ 4 < 5 ∧ (laneOf (asked 0x0802 0) 4).phys < 5 ∧
      channelOk (484 * 32 + 30) (if (laneOf (asked 0x0802 0) 4).rate = 3 then 6 else 17) = true) ∧
    (let s := laneFailed 4 true
     4 < 5 ∧ (physOf s (laneOf s 4).phys).txFailed = true ∧ (laneOf s 4).blanked = false ∧ (∀ n, n < 5 → (laneOf s n).degr = 0) ∧
       (∀ p, p < 4 → (lportOf s p).degrReady = true) ∧ bit s 0x00094004 2 = true ∧ (mget (laneOf s 0).degrPages 5).isSome = true) ∧
    (let s := laneFailed 4 false
     (physOf s (laneOf s 4).phys).txFailed = true ∧ (laneOf s 4).blanked = false ∧ (∀ n, n < 5 → (laneOf s n).degr = 0) ∧
       bit s 0x00094004 2 = false) := by
  unfold Called; and_intros <;> decide +kernel

/-- Port D waits for degradation pages and for a new main page. -/
def repaging : State :=
  updLPort 3 (fun p => { p with degrDue := some 1, doubleDue := some 1 }) up

theorem meets_LineCommandsAndLosses_pages :
    (let s := repaging
     let ps := [blankPage 0 5 0].map fun p => pageWith (activeId s) (pageDegr p) (pageLane p) p
     let main := s.line.lanes.toList.filterMap (·.active)
     let ports := (List.range 4).filter fun p => hasPartner s p && (main.any fun g => (pagePorts g).contains p)
     (∃ p, p < 4 ∧ (lportOf s p).degrDue.isSome = true) ∧ (∀ p ∈ ps, pageDegr p ≠ 0) ∧
       checkPages (laneChan s) (boundPort s) ports ps (PageSet.views main ps) = none) ∧
    (let s := repaging
     let g := blankPage 1 0 4
     let all := sortByKey (fun (e : Nat × List Byte) => e.1)
       ((pageLane g, g) :: (standbyView s).filter fun e => !([(pageLane g, g)].any fun x => x.1 == e.1))
     let ports := (List.range 4).filter fun p => hasPartner s p && (lportOf s p).doubleDue.isSome
     (∃ p, p < 4 ∧ (lportOf s p).doubleDue.isSome = true) ∧ pageDegr g = 0 ∧ pageLane g < 5 ∧ (laneOf s (pageLane g)).rate ≠ 3 ∧
       checkPages (laneChan s) (boundPort s) ports [pageWith (pageId g) 0 (pageLane g) g] [all] = none) := by
  constructor
  · intro s ps main ports
    obtain ⟨_, b2, _, b4, _⟩ := page_fields (p := blankPage 0 5 0) (by decide) (by decide) (by decide)
      (blankPage_word (by decide) (by decide) (by decide))
    have hps : ps = [idlePage 0 5 0] := by
      simp only [ps, List.map_cons, List.map_nil, b2, b4]
      rw [show activeId s = 0 by decide +kernel]; rfl
    obtain ⟨f, k, w⟩ := idlePage_form (id := 0) (degr := 5) (lane := 0) (by decide) (by decide) (by decide)
    have hd := (page_fields (by decide) (by decide) (by decide) w).2.1
    have hm : main = [] := by decide +kernel
    have hports : ports = [] := by decide +kernel
    refine ⟨⟨3, by decide, by decide +kernel⟩, ?_, ?_⟩
    · rw [hps]; intro p h; rw [List.mem_singleton.mp h, hd]; decide
    · rw [hports, hps]
      refine checkPages_dark _ _ (fun p h => List.mem_singleton.mp h ▸ ⟨f, k⟩) ?_
      intro v hv e he
      simp only [PageSet.views, List.mem_map, List.mem_filter] at hv
      obtain ⟨j, _, rfl⟩ := hv
      rw [hm, List.mem_filterMap] at he
      obtain ⟨n, _, he⟩ := he
      simp only [List.find?_nil, ite_self, Option.or_none, Option.map_eq_some_iff] at he
      obtain ⟨q, hq, rfl⟩ := he
      exact List.mem_singleton.mp (List.mem_of_find?_eq_some hq) ▸ k
  · intro s g all ports
    obtain ⟨b1, b2, _, b4, _⟩ := page_fields (p := g) (by decide) (by decide) (by decide) (blankPage_word (by decide) (by decide) (by decide))
    obtain ⟨f, k, _⟩ := idlePage_form (id := 1) (degr := 0) (lane := 4) (by decide) (by decide) (by decide)
    have hports : ports = [] := by decide +kernel
    have hv : standbyView s = [] := by decide +kernel
    refine ⟨⟨3, by decide, by decide +kernel⟩, b2, by rw [b4]; decide, by rw [b4]; decide +kernel, ?_⟩
    rw [hports, b1, b4]
    refine checkPages_dark _ _ (fun p h => List.mem_singleton.mp h ▸ ⟨f, k⟩) ?_
    intro v h e he
    rw [List.mem_singleton.mp h] at he
    have : all = [(4, g)] := by simp only [all, hv, b4, List.filter_nil]; rfl
    rw [this] at he
    exact List.mem_singleton.mp he ▸ blankPage_dark _ _ _

/-- A set of one page, as an offer carries it. -/
def set0 : PageSet := ⟨1, false, [page0]⟩

/-- Port A has offered that set, or holds it of the partner's. -/
def offered : State := updLPort 0 (fun p => { p with offer := some set0, rxSets := [set0], rxNewTick := some 599998 }) linked

theorem meets_PageExchange :
    (0 < 4 ∧ 1000 ≤ bucketNow linked 0 ∧ PageSet.ofBytes set0.toBytes = some set0 ∧ (∀ r ∈ (lportOf linked 0).rxSets, r.id ≠ set0.id) ∧
      (offerFault linked 0 { set0 with id := 2 }).isSome = true) ∧
    (let body := [1, 1, 0, 0] ++ List.replicate 8 0
     let s := updLane 0 (fun x => { x with active := none }) offered
     1000 ≤ bucketNow s 0 ∧ (lportOf s 0).offer = some set0 ∧ set0.degrOnly = false ∧ byteAt body 0 = set0.id ∧
       byteAt body 1 = set0.pages.length ∧ body.drop 4 = (set0.pages.map fun p => slice p 8 8).flatten ∧ set0.id ≠ activeId s) ∧
    (byteAt [1, 9] 0 = set0.id ∧ 1 ≤ byteAt [1, 9] 1 ∧ byteAt [1, 9] 1 ≤ 9) ∧
    ((lportOf offered 0).rxNewTick = some 599998 ∧ 599998 + 2 ≤ offered.tick) ∧
    (revertAllowed linked 0 = true ∧ revertAllowed (updLane 0 (fun x => { x with blanked := true }) (updLPort 0 (fun p => { p with rdiRx := 31 }) linked)) 0 = false ∧
      standbyPort linked 0 = false ∧ standbyPort (updLane 0 (fun x => { x with standby := some page0 }) linked) 0 = true) ∧
    activeSet linked 0 false ≠ [] := by and_intros <;> decide +kernel

/-- An overhead of zeros with its CRC. -/
def overhead0 : List Byte := List.replicate 1020 0 ++ beBytes 4 (crc32 (List.replicate 1020 0))

theorem crc32Bits_lt : ∀ (k c : Nat), c < 2 ^ 32 → crc32Bits k c < 2 ^ 32
  | 0, _, h => h
  | k + 1, c, h => by
    rw [crc32Bits]
    refine crc32Bits_lt k _ ?_
    split
    · exact Nat.xor_lt_two_pow (by omega) (by decide)
    · omega

theorem crc32_lt (d : List Byte) : crc32 d < 2 ^ 32 := by
  have : ∀ (d : List Byte) (c : Nat), c < 2 ^ 32 → d.foldl (fun c b => crc32Bits 8 (c ^^^ b.toNat)) c < 2 ^ 32 := by
    intro d
    induction d with
    | nil => intro c h; exact h
    | cons b d ih => intro c h; exact ih _ (crc32Bits_lt 8 _ (Nat.xor_lt_two_pow h (by have := b.isLt; omega)))
  exact Nat.xor_lt_two_pow (this d _ (by decide)) (by decide)

theorem overhead0_crc : overhead0.length = 1024 ∧ crc32 (overhead0.take 1020) = beAt overhead0 1020 4 := by
  have hl : (List.replicate 1020 (0 : Byte)).length = 1020 := List.length_replicate
  have hb := beBytes_length 4 (crc32 (List.replicate 1020 0))
  refine ⟨by rw [overhead0, List.length_append, hl, hb], ?_⟩
  rw [overhead0, List.take_left' hl, beAt, List.drop_left' hl, List.take_of_length_le (by omega), beNat_beBytes, Nat.mod_eq_of_lt (show crc32 _ < 256 ^ 4 from crc32_lt _)]

theorem meets_FramesSlotsAndSheaves_slots :
    (let s := linked.mapLine fun l => { l with tribs := [] }
     let s := fldSet 0x00080004 0 1 1 s
     s.line.tribs = [] ∧ (∀ p, p < 4 → (partnerOf s p).ctlQueue = []) ∧
       (∀ p, p < 4 → (lportOf s p).revert = none ∧ (lportOf s p).revertWant = false) ∧ (laneOf s 0).page.isSome = true ∧
       (laneOf s 4).page = none) ∧
    (let s := fldSet 0x00094004 1 1 1 (updLPort 3 (fun p => { p with rxFailRuns := [(4, 14)] }) (up.mapLine fun l => { l with tribs := [] }))
     3 < 4 ∧ 4 < 5 ∧ bit s 0x00094004 1 = true ∧ mgetD (lportOf s 3).rxFailRuns 4 0 < 15 ∧ byteAt overhead0 7 = 0 ∧ byteAt overhead0 33 = 0 ∧ (laneOf s 4).slip = none ∧
       (∀ k, k < 5 → 3 ∉ lanePorts (laneOf s k)) ∧ (lportOf s 3).rxSets = [] ∧ tribOf s 3 = none) ∧
    (let s := (bound 1023 3 up).mapLine fun l => { l with tribs := [(1023, { trib0 3 with rxPieces := [(5, [1])] })] }
     4 < 5 ∧ tribOf s 1023 = some { trib0 3 with rxPieces := [(5, [1])] } ∧
       (({ trib0 3 with rxPieces := [(5, [1])] } : Trib).rxPieces.any fun e => decide (e.1 / 4096 = (laneOf s 4).rxFrame)) = true) ∧
    (let s := updLane 4 (fun x => { x with goodFrames := 500 }) up
     (laneOf s 4).phys < 5 ∧ (physOf s (laneOf s 4).phys).rxLos = false ∧ 500 ≤ (laneOf s 4).goodFrames ∧ (laneOf s 0).goodFrames < 500) := by
  and_intros <;> decide +kernel

/-- A member's column: its header, with CRC, and zeros. -/
def column0 : List Byte :=
  let h : List Byte := [255, 0x1F, 0xFF, 0x10] ++ List.replicate 8 0
  h ++ beBytes 4 (crc32 h) ++ List.replicate 752 0

/-- A lane in XH mode that carries two members of a sheaf. -/
def sheaved (f : Sheaf → Sheaf) : State :=
  let s := fldSet 0x00094004 1 1 1 (updLane 4 (fun x => { x with rate := 3, xh := [(255, 0, 0, 0, 1), (255, 1, 7, 0, 1)] }) up)
  putSheaf 255 (f (Sheaf.fresh 2)) s

theorem meets_FramesSlotsAndSheaves_sheaves :
    (let s := sheaved id
     (laneOf s 4).rate = 3 ∧ bit s 0x00094004 1 = true ∧ ((laneOf s 4).xh.filter fun e => e.2.2.1 == 7) = [(255, 1, 7, 0, 1)] ∧
       memberHead s (memberBytes column0 (255, 1, 7, 0, 1)) (255, 1, 7, 0, 1) = some (1, 4095) ∧ mget (sheafOf s 255).frames 4095 = none ∧
       mget (sheafOf s 255).firstTick 4095 = none ∧ (sheafOf s 255).badTick ≠ some s.tick ∧
       2 ≤ sheafMembers s 255 ∧ memberHead s (memberBytes [] (255, 1, 7, 0, 1)) (255, 1, 7, 0, 1) = none ∧ (sheafOf s 255).bad < 2) ∧
    (let s := sheaved fun x => { x with bad := 3 }
     (sheafOf s 255).down = false ∧ 3 ≤ (sheafOf s 255).bad) ∧
    (let s := sheaved fun x => { x with firstTick := [(1, 598999)] }
     (sheafOf s 255).down = false ∧ ∃ e ∈ (sheafOf s 255).firstTick, e.2 + 1000 < s.tick) := by
  and_intros <;> decide +kernel

/-- The header of a control block of port A with 4 bytes of content, and a block under it with a tag. -/
def blockHdr : List Byte :=
  [0x12, byte (vintageByte 1), byte (128 * (1 - txDir (keysOf linked 0))), 0] ++ List.replicate 40 0 ++ beBytes 4 4 ++ beBytes 4 4 ++
    List.replicate 12 0
/-- The block. -/
def block0 (tag : List Byte) : List Byte := blockHdr ++ (List.replicate 4 0 ++ tag)

/-- The key and the nonce under which it comes. -/
def blockKey : List Byte := List.replicate 32 4
/-- The nonce. -/
def blockNonce : List Byte := lineNonce (vintageByte 1) (128 * (1 - txDir (keysOf linked 0))) 0

/-- Port A with its control tributary. -/
def controlled : State := fldSet 0x00100004 0 1 1 (linked.mapLine fun l => { l with tribs := [(0, trib0 0)] })

theorem block0_open {tag : List Byte} (h : tag.length = 16) :
    gcmOpen (mgetD (keysOf controlled 0).rxKeys 1 []) (lineNonce (byteAt (block0 tag) 1) (byteAt (block0 tag) 2) (beAt (block0 tag) 32 10))
      ((block0 tag).take 64) (slice (block0 tag) 64 (beAt (block0 tag) 48 4)) (slice (block0 tag) (64 + beAt (block0 tag) 48 4) 16) =
    gcmOpen blockKey blockNonce blockHdr (List.replicate 4 0) tag := by
  have hk : mgetD (keysOf controlled 0).rxKeys 1 [] = blockKey := by decide +kernel
  have hl : blockHdr.length = 64 := by decide +kernel
  have h1 : byteAt (block0 tag) 1 = byteAt blockHdr 1 := byteAt_append (by omega)
  have h2 : byteAt (block0 tag) 2 = byteAt blockHdr 2 := byteAt_append (by omega)
  have h3 : beAt (block0 tag) 32 10 = 0 := by rw [block0, beAt_append (by omega)]; decide +kernel
  have h4 : beAt (block0 tag) 48 4 = 4 := by rw [block0, beAt_append (by omega)]; decide +kernel
  have hn : lineNonce (byteAt blockHdr 1) (byteAt blockHdr 2) 0 = blockNonce := by decide +kernel
  have hs : slice (block0 tag) 64 4 = List.replicate 4 0 := by rw [block0, slice, List.drop_left' hl, List.take_left' (by rfl)]
  have ht : slice (block0 tag) (64 + 4) 16 = tag := by
    rw [block0, slice, ← List.drop_drop, List.drop_left' hl, List.drop_left' (by rfl), List.take_of_length_le (by omega)]
  rw [hk, h1, h2, h3, h4, hn, hs, ht, block0, List.take_left' hl]

theorem block0_checks {tag : List Byte} (h : tag.length = 16) :
    pairBlockOk (block0 tag) = false ∧ headerFault (keysOf controlled 0) (block0 tag) = false ∧
      rxVintage (keysOf controlled 0) (byteAt (block0 tag) 1) = some 1 ∧ lengthFault (block0 tag) = false ∧ byteAt (block0 tag) 0 % 16 = 2 ∧
      beAt (block0 tag) 16 8 = 0 := by
  have hl : blockHdr.length = 64 := by decide +kernel
  have y := fun (i : Nat) (hi : i < 64) => byteAt_append (l := blockHdr) (r := List.replicate 4 0 ++ tag) (i := i) (by omega)
  have b := fun (off k : Nat) (hk : off + k ≤ 64) => beAt_append (l := blockHdr) (r := List.replicate 4 0 ++ tag) (off := off) (k := k) (by omega)
  have hn : (block0 tag).length = 84 := by simp [block0, hl, h]
  refine ⟨?_, ?_, ?_, ?_, ?_, ?_⟩
  · have : byteAt (block0 tag) 1 = 1 := (y 1 (by decide)).trans (by decide +kernel)
    simp only [pairBlockOk, this, show ((1 : Nat) == 0) = false from rfl, Bool.and_false, Bool.false_and]
  · simp only [headerFault, block0, y 0 (by decide), y 1 (by decide), y 2 (by decide), y 3 (by decide), b 42 2 (by decide), b 54 2 (by decide),
      b 56 8 (by decide)]
    decide +kernel
  · rw [block0, y 1 (by decide)]; decide +kernel
  · simp only [lengthFault, hn]
    simp only [block0, b 48 4 (by decide), b 44 4 (by decide), b 54 2 (by decide)]
    decide +kernel
  · rw [block0, y 0 (by decide)]; decide +kernel
  · rw [block0, b 16 8 (by decide)]; decide +kernel

theorem meets_LineBlocksAreChecked :
    (0 < 4 ∧ bit controlled 0x00100004 0 = true ∧ (keysOf controlled 0).st = 4 ∧ pairBlockOk [] = false ∧
      headerFault (keysOf controlled 0) [] = true ∧ 1 = (keysOf controlled 0).rxCount ∧ (partnerOf controlled 0).paired = true ∧
      tribOf controlled 0 = some (trib0 0) ∧ 0 = (trib0 0).rxNext ∧ (trib0 0).rxDone = []) ∧
    (∃ tag, tag.length = 16 ∧ gcmOpen blockKey blockNonce blockHdr (List.replicate 4 0) tag = none) ∧
    ∃ tag content, tag.length = 16 ∧ gcmOpen blockKey blockNonce blockHdr (List.replicate 4 0) tag = some content := by
  refine ⟨by decide +kernel, ?_, ⟨_, _, gcmTag_length rfl _ _ _, gcmOpen_tag _ _ _ _⟩⟩
  by_cases h : List.replicate 16 0 = gcmTag (aesKeys blockKey) blockNonce blockHdr (List.replicate 4 0)
  · exact ⟨List.replicate 16 1, rfl, gcmOpen_other (by rw [← h]; decide)⟩
  · exact ⟨List.replicate 16 0, rfl, gcmOpen_other h⟩

/-- A copy in the ring, and an open NACK. -/
def copy0 : RingBlock := { part := partial0, content := [1], encLen := 1, vcount := 1, blend := 0, sentTick := 0, timed := false }
/-- A NACK with repeats sent. -/
def lineNack0 (tries : Nat) : LineNack := { reason := 2, tries := tries, tick := 0 }

/-- A tributary with a copy in its ring and an open NACK. -/
def busyTrib (tries : Nat) : Trib :=
  { trib0 0 with nextSeq := 6, ring := [(5, copy0)], acked := 5, rel := 5, rxNacks := [(9, lineNack0 tries)], blockTick := 585000 }

/-- Port A with that tributary. -/
def acking (tries : Nat) : State := linked.mapLine fun l => { l with tribs := [(1023, busyTrib tries)] }

theorem meets_LineAcknowledgementAndControl :
    (0 < 4 ∧ 4 ≤ 1023 ∧ tribOf (acking 0) 1023 = some (busyTrib 0) ∧ (busyTrib 0).port = 0) ∧
    ((busyTrib 0).ackTick + arqAckIdle (acking 0) ≤ (acking 0).tick ∧ (acking 0).tick ≤ (busyTrib 0).blockTick + 15000 ∧
      (keysOf (acking 0) 0).st = 4 ∧ (partnerOf (acking 0) 0).paired = true) ∧
    (let n := arqNackMax (acking 0) - 1
     (busyTrib n).rxNacks = [(9, lineNack0 n)] ∧ nackDue (acking n) (busyTrib n) (lineNack0 n) = true ∧
       (lineNack0 n).tries + 1 = arqNackMax (acking n) ∧ nackDue (acking 0) (busyTrib 0) (lineNack0 0) = true ∧
       (lineNack0 0).tries + 1 ≠ arqNackMax (acking 0)) ∧
    ((busyTrib 0).ring.getLast? = some (5, copy0) ∧ copy0.timed = false ∧
      copy0.sentTick + rttP (acking 0) 0 + 2 * arqMargin (acking 0) ≤ (acking 0).tick ∧
      { acking 0 with tick := 0 }.tick < copy0.sentTick + rttP { acking 0 with tick := 0 } 0 + 2 * arqMargin { acking 0 with tick := 0 }) ∧
    ((partnerOf linked 0).ctlSentTick + 50 ≤ linked.tick ∧ (keysOf linked 0).st = 4) ∧
    (3 < 4 ∧ 1000 ≤ bucketNow up 3) ∧
    bucketNow (updSched 4 (fun c => { c with bucket := 999, policedTick := some 600000 }) up) 3 < 1000 := by
  and_intros <;> decide +kernel

/-- A time-transfer body of frame 2,000 that names reference frame 1,000. -/
def timeBody : List Byte :=
  [1, 1, 0, 7] ++ beBytes 4 2000 ++ beBytes 10 0 ++ [0, 0] ++ beBytes 4 1000 ++ beBytes 10 0 ++ List.replicate 6 0 ++ List.replicate 40 255

/-- Port A with the stamps that it needs. -/
def stamped : State :=
  linked.mapTime fun t => { t with ports := vupd t.ports 0 fun x => { x with
    tx := [(1000, (5, 0))], rx := [⟨2000, 9, 3, 0⟩], peerStep := some 7 } }

theorem meets_LineTimeTransfer :
    (0 < 4 ∧ (portAnchor linked 0).isSome = true ∧ linked.tick % 1000 = 0 ∧ linked.tick < 2 ^ 32 ∧
      { linked with tick := 4294967295 }.tick % 1000 ≠ 0) ∧
    (1000 ≤ bucketNow stamped 0 ∧ timeBody.length = 80 ∧ byteAt timeBody 0 = 1 ∧ bitOf (byteAt timeBody 1) 0 = true ∧
      timeBody.drop 40 = List.replicate 40 255 ∧ timeSource stamped ≠ 0 + 2 ∧
      rxStampOf (portTimeOf stamped 0) (beAt timeBody 4 4) = some ⟨2000, 9, 3, 0⟩ ∧
      mget (portTimeOf stamped 0).tx (beAt timeBody 20 4) = some (5, 0) ∧
      (portTimeOf stamped 0).peerStep = some (beAt timeBody 2 2) ∧ ((5, 0) : Nat × Nat).2 = (⟨2000, 9, 3, 0⟩ : RxStamp).steps) := by
  and_intros <;> decide +kernel

theorem meets_MonitoringSecondsAndBins :
    (let s := (fldSet 0x00094014 0 1 1 up).mapTime fun t => { t with counter := 900 * 10 ^ 9 * 2 ^ 48 }
     bit s 0x00094014 0 = true ∧ s.line.pmSec < s.time.sec) ∧
    (bit (fldSet 0x00094014 0 1 1 up) 0x00094014 0 = true ∧ up.time.sec ≤ up.line.pmSec ∧ 1 < 2) := by
  and_intros <;> decide +kernel

/-- A swap of lane 0 to the spare. -/
def swap0 (step tick : Nat) : Swap :=
  { lane := 0, old := 0, spare := 4, step := step, tick := tick, sum := 200, count := 1, short := false, page := page0 }

/-- With that swap under way. -/
def swapping (step tick : Nat) : State := { linked.mapOpt fun o => { o with swap := some (swap0 step tick) } with tick := 5250000 }

theorem meets_OpticalLaneFaults :
    (4 < 5 ∧ (physOf up 4).txFailed = false ∧ (physOf up 4).rxLos = false ∧ logicalOf up 4 < 5 ∧ (physOf up 4).blanked = false ∧
      (physOf up 4).retired = false) ∧
    ((15000 < (15001 : Int) - 0 ∨ 15000 < (0 : Int) - 15001) ∧ ¬ (15000 < (15000 : Int) - 0 ∨ 15000 < (0 : Int) - 15000)) ∧
    (let s := updPhys 4 (fun x => { x with farBy := some 600000 }) up
     (physOf s 4).blanked = false ∧ (physOf s 4).farBy = some 600000 ∧ 600000 ≤ s.tick ∧ { s with tick := 599999 }.tick < 600000) ∧
    (let s := fldSet 0x000CA004 3 1 1 (updPhys 4 (fun x => { x with blanked := true }) up)
     bit s 0x000CA004 3 = true ∧ (physOf s 4).blanked = true ∧ (physOf s 4).retired = false) := by and_intros <;> decide +kernel

theorem meets_SpareSwaps :
    (let s := { updPhys 4 (fun x => { x with reported := true, marginCount := 1, biasCount := 1 }) up with tick := 30000000 }
     s.opt.fadeTick + 30000000 ≤ s.tick ∧ (physOf s 4).reported = true ∧ 0 < (physOf s 4).marginCount ∧ 0 < (physOf s 4).biasCount) ∧
    ((swapping 2 250000).opt.swap = some (swap0 2 250000) ∧ (swap0 2 250000).step ≤ 2 ∧ (swap0 2 250000).spare < 5 ∧
      (swap0 2 250000).tick + 5000000 ≤ (swapping 2 250000).tick ∧ (swapping 2 250001).tick < (swap0 2 250001).tick + 5000000) ∧
    (let w := swap0 4 5200000
     let s := swapping 4 5200000
     s.opt.swap = some w ∧ w.step = 4 ∧ w.tick + 50000 ≤ s.tick ∧ 0 < w.count ∧ 200 ≤ w.sum / ((max 1 w.count : Nat) : Int) ∧
       (physOf s w.old).margin ≤ w.sum / ((max 1 w.count : Nat) : Int)) ∧
    (let w := { swap0 4 5000000 with sum := 199 }
     w.tick + 250000 ≤ (swapping 4 5000000).tick ∧ ¬ 200 ≤ w.sum / ((max 1 w.count : Nat) : Int)) ∧
    ((up.mapOpt fun o => { o with retryAt := some 600000 }).opt.retryAt = some 600000 ∧ 600000 ≤ up.tick) ∧
    (let w := swap0 7 5250000
     (swapping 7 5250000).opt.swap = some w ∧ w.step = 7 ∧ w.lane < 5 ∧ (laneOf (swapping 7 5250000) w.lane).rate ≠ 3 ∧
       ∀ n, n < 5 → (laneOf (swapping 7 5250000) n).standby = none) ∧
    (let s := fldSet 0x000CA004 2 1 1 (updPhys 0 (fun x => { x with txFailed := true, failTick := some 100000 }) linked)
     (physOf s 0).txFailed = true ∧ (physOf s 0).failTick = some 100000 ∧ 100000 + 500000 ≤ s.tick ∧ bit s 0x000CA004 2 = true ∧
       logicalOf s 0 < 5 ∧ s.opt.swap = none ∧ freeSpare s = some 4 ∧ (laneOf s (logicalOf s 0)).active = some page0) := by
  and_intros <;> decide +kernel

/-- Port D in a state of its keys, with a partner in the manifest. -/
def pairingAt (st : Nat) : State :=
  let s := fldSet 0x00100004 0 2 3 (updKeys 3 (fun k => { k with st := st, helloTick := 599000, framesArrive := true }) up)
  s.mapBru fun b => { b with manifest := some (List.replicate 120 0 ++ beBytes 8 5) }

theorem meets_Pairing :
    (∀ st, st < 6 → 3 < 4 ∧ (pairingAt st).flt.vintnerUp = true ∧ bit (pairingAt st) 0x00100004 0 = true ∧
      bit (pairingAt st) 0x00100004 1 = true ∧ hasPartner (pairingAt st) 3 = true ∧ (keysOf (pairingAt st) 3).st = st) ∧
    ((keysOf (pairingAt 1) 3).helloTick + 1000 ≤ (pairingAt 1).tick ∧ helloFault (pairingAt 1) 3 [] = some 1) ∧
    ((keysOf (pairingAt 3) 3).stepTick + 500000 + rttP (pairingAt 3) 3 ≤ (pairingAt 3).tick ∧
      (keysOf (pairingAt 5) 3).retryAt ≤ (pairingAt 5).tick ∧ (keysOf (pairingAt 4) 3).framesArrive = true ∧
      (partnerOf (pairingAt 4) 3).lastGood + 2000 ≤ (pairingAt 4).tick) ∧
    [3] ++ (keysOf (pairingAt 3) 3).confirm ≠ [4] := by and_intros <;> decide +kernel

theorem meets_Racking :
    (let s := { linked with tick := 40000000 }
     0 < 4 ∧ rackDue s 0 = true) ∧
    (let s := updKeys 0 (fun k => { k with racking := some 600000, window := some 600000 }) linked
     (keysOf s 0).racking = some 600000 ∧ 600000 ≤ s.tick ∧ { s with tick := 599999 }.tick < 600000 ∧ (keysOf s 0).window = some 600000) ∧
    (1000 ≤ bucketNow linked 0 ∧ (keysOf linked 0).st = 4 ∧ (keysOf linked 0).rxNext = false) := by and_intros <;> decide +kernel

theorem meets_ConfigurationDigests :
    (0 < 4 ∧ linked.bru.ready = true ∧ (keysOf linked 0).st = 4 ∧ (partnerOf linked 0).paired = true ∧ 1000 ≤ bucketNow linked 0 ∧
      (partnerOf linked 0).digestTick ≤ linked.tick) ∧
    (let s := updPartner 0 (fun q => { q with scopeSince := some 500000 }) linked
     (partnerOf s 0).scopeFenced = false ∧ (partnerOf s 0).scopeSince = some 500000 ∧ (partnerOf s 0).groupSince = [] ∧
       500000 + rttP s 0 + 2000 ≤ s.tick) ∧
    (let s := updPartner 0 (fun q => { q with lastGood := 599750 }) linked
     (partnerOf s 0).linkDown = false ∧ (partnerOf s 0).lastGood + 250 ≤ s.tick ∧ { s with tick := 599999 }.tick < 599750 + 250) := by
  and_intros <;> decide +kernel

/-- A group with a far member and no instance, and the policy of fallow. -/
def apartState : State := up.mapColl fun c => { c with groups := [(5, { grp 5 1 with current := some { table 5 1 with policy := 1 } })] }

theorem meets_SitesApart :
    (let s := updPartner 1 (fun q => { q with lastGood := 0 }) apartState
     s.coll.groups = [(5, { grp 5 1 with current := some { table 5 1 with policy := 1 } })] ∧ s.coll.insts = [] ∧ s.sites.silo = [] ∧
       farRanks { table 5 1 with policy := 1 } = [(1, member true 1 0)] ∧ (member true 1 0).endpoint < 4 ∧
       5 ∉ (partnerOf s (member true 1 0).endpoint).lost ∧
       silentPort s (member true 1 0).endpoint (absenceTicks { table 5 1 with policy := 1 }) = true ∧
       mgetD (partnerOf s (member true 1 0).endpoint).reported 5 0 = 0 ∧ absentMask s 5 = 0) ∧
    (let s := updGroupSites 5 (fun x => { x with absent := 2, episode := some 1 }) apartState
     ({ table 5 1 with policy := 1 } : GroupTable).apart = true ∧ (groupSites s 5).limitRaised = false ∧
       (groupSites s 5).episode = some 1 ∧ 1 + fallowTicks { table 5 1 with policy := 1 } ≤ s.tick) ∧
    (3 < 4 ∧ 1000 ≤ bucketNow up 3 ∧ ∀ x ∈ [(6, 0)], x.1 ≠ ((5, 2) : Nat × Nat).1) ∧
    (let s := updPartner 3 (fun q => { q with await := some (5, 9) }) up
     (partnerOf s 3).await = some (5, 9)) ∧
    (partnerOf up 3).await ≠ some (5, 9) := by and_intros <;> decide +kernel

/-- A host's table is a valid one. -/
theorem blend0_valid : blendReservedOk (blend0 127).toBytes = true ∧ (Blend.ofBytes (blend0 127).toBytes).valid = true := by
  have h := blend0_table
  simp only [hostTable, Bool.and_eq_true] at h
  exact ⟨h.1.1.1, h.1.1.2⟩

/-- An offer of a blend, sent, made by the policy or another origin. -/
def offer0 (origin : Nat) : Offer := ⟨blend1 9, 500000, origin, some 7, true, false⟩

/-- A slot with an offer under way. -/
def offering (ctx origin : Nat) : State := updSlot ctx 7 (fun x => { x with offer := some (offer0 origin) }) linked

theorem meets_BlendHandshakes :
    (0 < 4 ∧ 1000 ≤ bucketNow linked 0 ∧ offerReject (bslot linked 6 (Blend.ofBytes (blend0 127).toBytes).cls) (blend0 127).toBytes = none ∧
      offerReject (bslot linked 6 0) [] = some 1) ∧
    (blendReservedOk (blend0 127).toBytes = true ∧ (Blend.ofBytes (blend0 127).toBytes).valid = true) ∧
    ((bslot (offering 2 0) 2 7).offer = some (offer0 0) ∧ namesOffer (offer0 0) 9 0 = true ∧ 1000 ≤ bucketNow (offering 2 0) 0 ∧
      (bslot (offering 2 3) 2 7).offer = some (offer0 3) ∧ namesOffer (offer0 3) 9 0 = true ∧ (offer0 0).mbx = some 7) ∧
    (let s := updSlot 6 7 (fun x => { x with pending := some (blend1 9) }) linked
     (bslot s 6 7).pending = some (blend1 9) ∧ (blend1 9).id = 9 ∧ 1000 ≤ bucketNow s 0) ∧
    (let s := updSlot 2 7 (fun x => { x with previous := some (blend1 9) }) linked
     (bslot s 2 7).previous = some (blend1 9) ∧ 1000 ≤ bucketNow s 0) ∧
    (let s := updSlot 2 7 (fun x => { x with current := some (blend1 9) }) linked
     (bslot s 2 7).current = some (blend1 9) ∧ (bslot s 2 7).resync = false ∧ (bslot s 2 7).rawHold = false ∧ 1000 ≤ bucketNow s 0) ∧
    (let s := offering 2 0
     s.cmp = [(2 * 8 + 7, bslot s 2 7)] ∧ (bslot s 2 7).offer = some (offer0 0) ∧ (offer0 0).accepted = false ∧ (offer0 0).origin ≠ 3 ∧
       (offer0 0).tick + hsTimeout s ≤ s.tick ∧ { s with tick := 500000 }.tick < (offer0 0).tick + hsTimeout s) ∧
    (let s := updSlot 2 7 (fun x => { x with resync := true, resyncTick := 500000 }) linked
     s.cmp = [(2 * 8 + 7, bslot s 2 7)] ∧ (bslot s 2 7).resync = true ∧ 500000 + hsTimeout s ≤ s.tick) ∧
    (let s := fldSet 0x00140004 1 1 0 (fldSet 0x00140010 0 2 1 (fldSet 0x00140014 0 32 1000 linked))
     s.tick % policyWindow s = 0 ∧ fld s 0x00140010 0 2 ≠ 0 ∧ bit s 0x00140004 1 = false) := by
  refine ⟨⟨by decide, by decide +kernel, ?_, by decide +kernel⟩, blend0_valid, ?_⟩
  · have h := blend0_valid
    have hx : ∀ c, bslot linked 6 c = BSlot.zero := fun c => rfl
    simp [offerReject, hx, h.1, h.2, BSlot.zero]
  · and_intros <;> decide +kernel

/-- Class 0 with no free cask in SRAM. -/
def full0 : State := up.mapCellar fun c => { c with classes := vupd c.classes 0 fun k => { k with sram := { k.sram with size := 0 } } }

/-- Class 0 with its first SRAM cask granted. -/
def granted0 : State :=
  up.mapCellar fun c => { c with classes := vupd c.classes 0 fun k => { k with sram := { k.sram with fresh := 1, granted := [0] } } }

theorem meets_Casks :
    (caskClass 256 = some 0 ∧ caskClass 257 = some 1 ∧ caskClass 0x400000 = some 7) ∧
    ((caskCls up 0).refuse = false ∧ ((caskCls up 0).sram.grant.map (·.1)) = some 0) ∧
    ((caskCls full0 0).sram.grant = none ∧ ((caskCls full0 0).dram.grant.map (·.1)) = some 0) ∧
    (let s := up.mapCellar fun c => { c with classes := vupd c.classes 0 fun k => { k with refuse := true } }
     (caskCls s 0).refuse = true) ∧
    (caskPortCheck granted0 0 0 (caskSize (ptrClass 0)) = none ∧ ptrIndex 0 ∈ (ptrPool granted0 0).granted ∧
      ptrIndex 0 ∉ (ptrPool up 0).granted ∧ caskPortCheck up 0 0 (caskSize (ptrClass 0)) = none) ∧
    (caskPortCheck up (2 ^ 26) 0 (caskSize (ptrClass (2 ^ 26))) = some 1 ∧
      caskPortCheck up (2 ^ 22 - 1) 0 (caskSize (ptrClass (2 ^ 22 - 1))) = some 2) ∧
    (caskPortCheck up 0 224 [1, 2, 3, 4].length = none ∧ ptrPart 0 ≠ 1 ∧ caskPortCheck up (2 ^ 22) 224 [1, 2, 3, 4].length = none ∧
      ptrPart (2 ^ 22) = 1 ∧ caskPortCheck up 0 1 [1].length = some 3 ∧ caskPortCheck up 0 0 ([] : List Byte).length = some 4) ∧
    (caskPortCheck up 0 0 5 = none ∧ ∀ i, i < (5 + 3) / 4 → caskWord up 0 (0 + 4 * i) 0 = .clean 0) := by and_intros <;> decide +kernel

theorem meets_MemoryAndChannels :
    (0xD693A3FFC0 < 0xD693A40000 ∧ 0xD693A3FFC0 % 64 = 0 ∧ ∀ i, i < 16 → (0xD693A3FFC0 + 4 * i) ∉ up.mem.poison) ∧
    (bit up 0x00300004 0 = true ∧ ∀ j, j < 64 → (0xD693A3FFFF / 256 * 256 + 4 * j) ∉ up.mem.poison) ∧
    (let s := { up with tick := up.mem.gleanStart + fld up 0x00300020 0 11 * 30000000 }
     s.mem.gleanStart + fld s 0x00300020 0 11 * 30000000 ≤ s.tick ∧ up.tick < up.mem.gleanStart + fld up 0x00300020 0 11 * 30000000) ∧
    (let s := up.mapMem fun m => { m with gleanGroups := gleanTotal }
     gleanTotal ≤ s.mem.gleanGroups ∧ up.mem.gleanGroups < gleanTotal) ∧
    (up.tick % 1000 = 0 ∧ up.mem.retrainWait = [] ∧ (∀ k, k < 64 → (chanOf up k).retraining = false) ∧ (chanOf up 63).lost = false) ∧
    (let s := updChan 63 (fun x => { x with retraining := true, fails := 2 }) up
     (chanOf s 63).retraining = true ∧ s.mem.retrainWait = [] ∧ 2 ≤ (chanOf s 63).fails) ∧
    (15 < 16 ∧ up.tick % 8000 = 0) := by and_intros <;> decide +kernel

/-- Both Vintner pairs run. -/
def bothPairs : State := up.mapFlt fun f => { f with vintnerSingle := false, vintnerStandby := true }

theorem meets_VintnerPairs :
    (bothPairs.flt.vintnerUp = true ∧ bothPairs.flt.vintnerSingle = false ∧ bothPairs.flt.vintnerStandby = true ∧
      ∀ e ∈ ((asked 0x0C01 0).mapFlt fun f => { f with vintnerSingle := false, vintnerStandby := true }).host.sessions, e.2.sub = none) ∧
    ((up.mapFlt fun f => { f with vintnerSingle := true }).flt.vintnerSingle = true ∧ up.flt.vintnerUp = true ∧
      (restartsSoon up).length < 2) ∧
    2 ≤ (restartsSoon (up.mapFlt fun f => { f with restarts := [500000, 400000] })).length ∧
    (let s := up.mapFlt fun f => { f with vintnerUp := false, restarts := [500000] }
     s.flt.vintnerUp = false ∧ s.flt.restarts ≠ [] ∧ (s.mapBru fun b => { b with running := true }).bru.running = true) := by
  and_intros <;> decide +kernel

theorem meets_RailsCapturesAndTestPorts :
    up.flt.supplyLost = false ∧ (up.mapFlt fun f => { f with supplyLost := true }).flt.supplyLost = true ∧ up.flt.capturing = none ∧
      (up.mapFlt fun f => { f with capturing := some 1 }).flt.capturing = some 1 ∧ JtagIr.idcode ≠ .other := by
  and_intros <;> decide +kernel

/-- A report of a step that passed. -/
def passed : StepReport :=
  { ok := true, detail := 0, straps := 4, railsOk := true, holdupPct := 100, holdUs := 1000, links := [], cores := [], clusters := []
    sramRows := 0, selfTestBad := false, channels := [], packages := 16, dramGb := 1024, repaired := 0, failChannels := [3], lanes := []
    spare := true }

/-- Bring-up at a step. -/
def atStep (n result : Nat) : State :=
  State.reset.mapBru fun b => { b with step := n, stepTick := 0, running := true, result := result, wave := if n = 4 then 16 else 0 }

/-- The same in stepped mode. -/
def stepped (n : Nat) : State := (atStep n 2).mapBru fun b => { b with stepped := true }

theorem meets_StartsKeepWhatTheyMust :
    State.reset.mgt.trial = false ∧ (captured up).flt.capturing = none ∧ (barnSlot (captured up) 1).valid = true ∧
      (barnSlot (captured up) 0).valid = false ∧ up.mgt.startNext = false ∧
      (up.mapMgt fun g => { g with startNext := true }).mgt.startNext = true := by and_intros <;> decide +kernel

theorem meets_BringupStepsAndWaves :
    (∀ n, n < 9 → 0 < n → (atStep n 1).bru.running = true ∧ (atStep n 1).flt.fatal = false ∧ (atStep n 1).bru.step = n ∧
      (atStep n 1).bru.result ≠ 2 ∧ reportFails { passed with ok := false } (atStep n 1) = true ∧
      reportFails passed (atStep n 1) = false ∧ wavesLeft (atStep n 1) = false) ∧
    (let s := (atStep 5 1).mapBru fun b => { b with stepped := true, warm := true }
     s.bru.stepped = true ∧ wavesLeft s = false ∧ reportFails passed s = false) ∧
    (let s := ((atStep 4 1).mapBru fun b => { b with wave := 3, waveTick := 0 })
     s.bru.stepped = false ∧ s.bru.wave = 3 ∧ s.bru.waveTick + 1000 ≤ { s with tick := 1000 }.tick ∧ s.tick < s.bru.waveTick + 1000) ∧
    ((stepped 4).bru.stepped = true ∧ (stepped 4).bru.running = true ∧ (stepped 4).flt.fatal = false ∧ (stepped 4).bru.result ≠ 1 ∧
      wavesLeft (stepped 4) = false ∧ 5 % 16 = stepAfter (stepped 4) 4 ∧ 9 % 16 = stepAfter (stepped 8) (stepped 8).bru.step) ∧
    (let s := (stepped 4).mapBru fun b => { b with wave := 3, waveDie := 2 }
     s.bru.wave < 16 ∧ 0x234 % 16 = 4 ∧ 0x234 / 16 % 16 = s.bru.wave ∧ 0x234 / 256 % 4 = s.bru.waveDie ∧ 0 < s.bru.waveDie) ∧
    (7 % 16 ≠ stepAfter (stepped 4) (stepped 4).bru.step ∧ 7 % 16 ≠ 4) := by and_intros <;> decide +kernel

theorem meets_PairWaitAndCheck :
    (let s := { up.mapBru fun b => { b with waiting := true, stepTick := 600000, ready := false } with
        tick := 600000 + fld up 0x00380018 0 16 * 500000 }
     s.bru.waiting = true ∧ s.bru.stepTick + fld s 0x00380018 0 16 * 500000 ≤ s.tick ∧ s.bru.ready = false ∧ s.flt.fatal = false) ∧
    up.bru.waiting = false ∧ up.tick < up.bru.stepTick + fld up 0x00380018 0 16 * 500000 := by and_intros <;> decide +kernel

/-- A recheck stands at the front of the queue and a telemetry write behind it. -/
def queued : State := { up with pending := [.readinessRecheck, .telemetryWrite] }

/-- A step from there answers a next state. -/
theorem queued_steps : ∃ t, step queued = .next t := ⟨_, rfl⟩

theorem meets_StepRunsTheFrontCommand : queued.pending = .readinessRecheck :: [.telemetryWrite] ∧ up.pending = [] := by
  and_intros <;> decide +kernel

theorem meets_StepsTakeOneCommand : ∃ t, queued.pending = .readinessRecheck :: [.telemetryWrite] ∧ step queued = .next t := ⟨_, rfl, rfl⟩

theorem meets_StepsKeepTheFormOfMemory : ∃ t, Machine.Inv queued ∧ step queued = .next t :=
  ⟨_, by unfold Machine.Inv; decide +kernel, rfl⟩

theorem meets_ReadyStays : ∃ t, Instr.isStart .readinessRecheck = false ∧ exec .readinessRecheck queued = .next t ∧
    queued.bru.ready = true ∧ t.flt.fatal = false := ⟨_, rfl, rfl, by decide +kernel, by decide +kernel⟩

/-- The supply fails in the state after reset. -/
def failing : State := { State.reset with pending := [.powerLoss 3] }

theorem meets_LedgerChains : ∃ t, LedgerInv failing ∧ step failing = .next t ∧ failing.flt.ledgerF.next ≤ 32768 := by
  refine ⟨_, ?_, rfl, by decide +kernel⟩
  simp [LedgerInv, Chained, failing, State.reset, Flt.reset, LedgerStream.empty]

theorem meets_FrameOfInstancesAndPress : ∃ t, Instr.isStart .telemetryWrite = false ∧ exec .telemetryWrite up = .next t ∧
    (∀ p ∈ [Part.programs, .groups, .instances, .blends, .casks], p ∉ Instr.telemetryWrite.changes) := ⟨_, rfl, rfl, by decide +kernel⟩

theorem meets_FrameOfMemory : ∃ t, Instr.isStart .telemetryWrite = false ∧ exec .telemetryWrite up = .next t ∧
    (∀ p ∈ [Part.dram, .poison, .sram, .regions], p ∉ Instr.telemetryWrite.changes) := ⟨_, rfl, rfl, by decide +kernel⟩

theorem meets_FrameOfHostLineAndOptics : ∃ t, Instr.isStart .telemetryWrite = false ∧ exec .telemetryWrite up = .next t ∧
    (∀ p ∈ [Part.sessions, .streams, .lanes, .tribs, .optics], p ∉ Instr.telemetryWrite.changes) := ⟨_, rfl, rfl, by decide +kernel⟩

theorem meets_FrameOfSecuritySitesAndFaults : ∃ t, Instr.isStart .telemetryWrite = false ∧ exec .telemetryWrite up = .next t ∧
    (∀ p ∈ [Part.anchor, .lineKeys, .partners, .events, .ledger], p ∉ Instr.telemetryWrite.changes) := ⟨_, rfl, rfl, by decide +kernel⟩

theorem meets_FrameOfTimeManagementAndRegisters : ∃ t, Instr.isStart .telemetryWrite = false ∧ exec .telemetryWrite up = .next t ∧
    (∀ p ∈ [Part.counter, .servo, .mailboxes, .tick, .regs 5], p ∉ Instr.telemetryWrite.changes) := ⟨_, rfl, rfl, by decide +kernel⟩

/-- A byte string of zeros. -/
def zeros (n : Nat) : List Byte := List.replicate n 0

/-- Each of these commands has one operand out of its range. -/
theorem test_ill_formed_0 : ([
    .spotCheck 4 0 0 0 0 [], .spotCheck 0 1040 0 0 0 [], .spotCheck 0 0 4 0 0 [], .spotCheck 0 0 0 1040 0 [], .spotCheck 0 0 0 0 4 [],
    .trellisMessage 4 0 false none none, .trellisMessage 0 1040 false none none, .dieLinkFlitCrcFail 4 false, .dieLinkRetrainDone 4,
    .dieLinkLaneSpare 4 false, .capFloorEvent 4, .tempSensorRead 4 [], .railDroop 4, .retirementApply 4 0 none,
    .retirementApply 0 1040 none, .quarantineEnd 4 0 0, .quarantineEnd 0 1040 0, .quarantineEnd 0 0 272, .hostNackRepeat (2 ^ 20),
    .hostAckInterval (2 ^ 20), .resultHoldExpire (2 ^ 20) 0, .resultHoldExpire 0 (2 ^ 32), .pfcFrameRx (2 ^ 16) [], .pfcPauseExpire 8,
    .pfcWatchdog 8, .arpRequest (2 ^ 128) 0, .arpRequest 0 (2 ^ 128), .neighbourSolicitation (2 ^ 128) 0,
    .neighbourSolicitation 0 (2 ^ 128), .icmpEcho src0 (2 ^ 128) [], .otherFrameDiscard (2 ^ 8) 0, .otherFrameDiscard 0 (2 ^ 32),
    .ptpAnnounce (2 ^ 8) 0 master0, .ptpAnnounce 0 3 master0, .ptpSync (2 ^ 8) 0 0 0 0 false 0 0 0, .ptpSync 0 3 0 0 0 false 0 0 0,
    .ptpSync 0 0 (2 ^ 64) 0 0 false 0 0 0, .ptpSync 0 0 0 (2 ^ 16) 0 false 0 0 0, .ptpSync 0 0 0 0 (2 ^ 16) false 0 0 0,
    .ptpSync 0 0 0 0 0 false (2 ^ 112) 0 0, .ptpSync 0 0 0 0 0 false 0 0 131072000, .ptpFollowUp (2 ^ 8) 0 0 0 0 0 0,
    .ptpFollowUp 0 3 0 0 0 0 0, .ptpFollowUp 0 0 (2 ^ 64) 0 0 0 0, .ptpFollowUp 0 0 0 (2 ^ 16) 0 0 0, .ptpFollowUp 0 0 0 0 (2 ^ 16) 0 0,
    .ptpFollowUp 0 0 0 0 0 (2 ^ 112) 0, .ptpDelayResp (2 ^ 8) 0 0 0 0 0 0, .ptpDelayResp 0 3 0 0 0 0 0, .ptpDelayResp 0 0 (2 ^ 64) 0 0 0 0,
    .ptpDelayResp 0 0 0 (2 ^ 16) 0 0 0, .ptpDelayResp 0 0 0 0 (2 ^ 16) 0 0, .ptpDelayResp 0 0 0 0 0 (2 ^ 112) 0,
    .hostEgressSelect 131072000, .lineBlockSelect 4, .tokenRefill 5 0, .tokenRefill 0 8, .sessionIdleTimeout (2 ^ 33), .bulkResend (2 ^ 33),
    .sysIdentity 8] : List Instr).all (fun i => !i.wf) = true := by decide +kernel

/-- Each of these commands has one operand out of its range. -/
theorem test_ill_formed_1 : ([
    .sysNetSet 8 0 0, .sysNetSet 0 (2 ^ 32) 0, .sysNetSet 0 0 (2 ^ 128), .sysCommit 8 false 0 [], .sysCommit 0 false (2 ^ 64) [],
    .sysWithdraw 8 0, .sysWithdraw 0 (2 ^ 32), .sysEventSubscribe 8 0 0, .sysEventSubscribe 0 (2 ^ 64) 0, .sysEventSubscribe 0 0 (2 ^ 32),
    .sysReset 8, .sysReadyReasons 8, .sysManifestInstall 8 0 0 0, .sysManifestInstall 0 (2 ^ 32) 0 0, .sysManifestInstall 0 0 (2 ^ 64) 0,
    .sysManifestInstall 0 0 0 (2 ^ 64), .sysManifestRead 8 0 0, .sysManifestRead 0 (2 ^ 32) 0, .sysManifestRead 0 0 (2 ^ 64),
    .sysShadowJoin 8 (zeros 8) src0, .sysShadowJoin 0 [] src0, .sysShadowAccept 8 (zeros 8) src0, .sysShadowAccept 0 [] src0,
    .sysShadowPromote 8 0 false, .sysShadowPromote 0 (2 ^ 64) false, .sysLock 8, .grpStage 8 (zeros 64) [], .grpStage 0 [] [], .grpRead 8 0,
    .grpRead 0 (2 ^ 32), .grpStreamOpen 8 0 0 false 0 0 0 0, .grpStreamOpen 0 (2 ^ 32) 0 false 0 0 0 0,
    .grpStreamOpen 0 0 (2 ^ 32) false 0 0 0 0, .grpStreamOpen 0 0 0 false (2 ^ 32) 0 0 0, .grpStreamOpen 0 0 0 false 0 (2 ^ 128) 0 0,
    .grpStreamOpen 0 0 0 false 0 0 (2 ^ 32) 0, .grpStreamOpen 0 0 0 false 0 0 0 (2 ^ 32), .grpStreamClose 8 0, .grpStreamClose 0 (2 ^ 32),
    .opStat 8 0 0, .opStat 0 (2 ^ 32) 0, .opStat 0 0 (2 ^ 32), .opList 8 0, .opList 0 (2 ^ 32), .opAbort 8 0 0, .opAbort 0 (2 ^ 32) 0,
    .opAbort 0 0 (2 ^ 32), .progLoad 8 0 0 0 0, .progLoad 0 (2 ^ 32) 0 0 0, .progLoad 0 0 (2 ^ 32) 0 0, .progLoad 0 0 0 (2 ^ 64) 0,
    .progLoad 0 0 0 0 (2 ^ 64), .progUnload 8 0, .progUnload 0 (2 ^ 32), .progList 8, .celRegionCreate 8 0, .celRegionCreate 0 (2 ^ 64),
    .celRegionFree 8 0, .celRegionFree 0 (2 ^ 32), .celRegionRead 8 0 0 0] : List Instr).all (fun i => !i.wf) = true := by decide +kernel

/-- Each of these commands has one operand out of its range. -/
theorem test_ill_formed_2 : ([
    .celRegionRead 0 (2 ^ 32) 0 0, .celRegionRead 0 0 (2 ^ 64) 0, .celRegionRead 0 0 0 (2 ^ 64), .celRegionWrite 8 0 0 [],
    .celRegionWrite 0 (2 ^ 32) 0 [], .celRegionWrite 0 0 (2 ^ 64) [], .celRegionBulk 8 0 0 0 false, .celRegionBulk 0 (2 ^ 32) 0 0 false,
    .celRegionBulk 0 0 (2 ^ 64) 0 false, .celRegionBulk 0 0 0 (2 ^ 64) false, .memInfo 8, .lneTrib 8 0 0 0 0, .lneTrib 0 (2 ^ 32) 0 0 0,
    .lneTrib 0 0 (2 ^ 32) 0 0, .lneTrib 0 0 0 (2 ^ 32) 0, .lneTrib 0 0 0 0 (2 ^ 32), .lnePageStage 8 0 (zeros 128),
    .lnePageStage 0 (2 ^ 32) (zeros 128), .lnePageStage 0 0 [], .lnePmRead 8 0 0 0, .lnePmRead 0 (2 ^ 32) 0 0, .lnePmRead 0 0 (2 ^ 32) 0,
    .lnePmRead 0 0 0 (2 ^ 32), .lnePmThresh 8 0 0 0 0, .lnePmThresh 0 (2 ^ 32) 0 0 0, .lnePmThresh 0 0 (2 ^ 32) 0 0,
    .lnePmThresh 0 0 0 (2 ^ 32) 0, .lnePmThresh 0 0 0 0 (2 ^ 64), .lneXh 8 0 [], .lneXh 0 (2 ^ 32) [], .optLaneFec 8 0 0,
    .optLaneFec 0 (2 ^ 32) 0, .optLaneFec 0 0 (2 ^ 32), .optLaneChannel 8 0 0, .optLaneChannel 0 (2 ^ 32) 0, .optLaneChannel 0 0 (2 ^ 32),
    .secAnchorInstall 8 (zeros 3144), .secAnchorInstall 0 [], .secAnchorReplace 8 0 0 0, .secAnchorReplace 0 (2 ^ 32) 0 0,
    .secAnchorReplace 0 0 (2 ^ 64) 0, .secAnchorReplace 0 0 0 (2 ^ 64), .secEnrolRequest 8, .secEnrolInstall 8 0 0 0,
    .secEnrolInstall 0 (2 ^ 32) 0 0, .secEnrolInstall 0 0 (2 ^ 64) 0, .secEnrolInstall 0 0 0 (2 ^ 64), .secAttest 8 [] 0 0,
    .secAttest 0 [] (2 ^ 32) 0, .secAttest 0 [] 0 (2 ^ 64), .secPairRestart 8 0, .secPairRestart 0 (2 ^ 32),
    .secUtilGcmSeal 8 (zeros 32) [] (0, 0, 0) (0, 0, 0) 0 0 false, .secUtilGcmSeal 0 [] [] (0, 0, 0) (0, 0, 0) 0 0 false,
    .secUtilGcmSeal 0 (zeros 32) [] (0, 0, 0) (0, 0, 0) (2 ^ 32) 0 false,
    .secUtilGcmSeal 0 (zeros 32) [] (0, 0, 0) (0, 0, 0) 0 (2 ^ 64) false,
    .secUtilGcmOpen 8 (zeros 32) [] (zeros 16) (0, 0, 0) (0, 0, 0) 0 0 false,
    .secUtilGcmOpen 0 [] [] (zeros 16) (0, 0, 0) (0, 0, 0) 0 0 false, .secUtilGcmOpen 0 (zeros 32) [] [] (0, 0, 0) (0, 0, 0) 0 0 false,
    .secUtilGcmOpen 0 (zeros 32) [] (zeros 16) (0, 0, 0) (0, 0, 0) (2 ^ 32) 0 false] : List Instr).all (fun i => !i.wf) = true := by decide +kernel

/-- Each of these commands has one operand out of its range. -/
theorem test_ill_formed_3 : ([
    .secUtilGcmOpen 0 (zeros 32) [] (zeros 16) (0, 0, 0) (0, 0, 0) 0 (2 ^ 64) false, .secUtilCtr 8 (zeros 32) [] (0, 0, 0) 0 0 false,
    .secUtilCtr 0 [] [] (0, 0, 0) 0 0 false, .secUtilCtr 0 (zeros 32) [] (0, 0, 0) (2 ^ 32) 0 false,
    .secUtilCtr 0 (zeros 32) [] (0, 0, 0) 0 (2 ^ 64) false, .secUtilShake 8 (0, 0, 0) 0 0 0 false,
    .secUtilShake 0 (0, 0, 0) (2 ^ 32) 0 0 false, .secUtilShake 0 (0, 0, 0) 0 (2 ^ 64) 0 false,
    .secUtilShake 0 (0, 0, 0) 0 0 (2 ^ 64) false, .timStep 8 false 0, .timStep 0 false (2 ^ 64), .qosGroupMap 8 0 0 0,
    .qosGroupMap 0 (2 ^ 32) 0 0, .qosGroupMap 0 0 (2 ^ 32) 0, .qosGroupMap 0 0 0 (2 ^ 32), .qosStage 8 0 0 0 0, .qosStage 0 (2 ^ 32) 0 0 0,
    .qosStage 0 0 (2 ^ 32) 0 0, .qosStage 0 0 0 (2 ^ 32) 0, .qosStage 0 0 0 0 (2 ^ 64), .qosHistRead 8 0 0, .qosHistRead 0 (2 ^ 32) 0,
    .qosHistRead 0 0 (2 ^ 32), .fltEventStat 8 [], .fltLedgerRead 8 0 0 0, .fltLedgerRead 0 (2 ^ 32) 0 0, .fltLedgerRead 0 0 (2 ^ 32) 0,
    .fltLedgerRead 0 0 0 (2 ^ 32), .fltBarnList 8, .fltBarnRead 8 0 0 0, .fltBarnRead 0 (2 ^ 32) 0 0, .fltBarnRead 0 0 (2 ^ 64) 0,
    .fltBarnRead 0 0 0 (2 ^ 64), .fltBarnBulk 8 0 0 0, .fltBarnBulk 0 (2 ^ 32) 0 0, .fltBarnBulk 0 0 (2 ^ 64) 0,
    .fltBarnBulk 0 0 0 (2 ^ 64), .fltBarnRelease 8 0, .fltBarnRelease 0 (2 ^ 32), .fwInfo 8, .fwWrite 8 0 0 [], .fwWrite 0 (2 ^ 32) 0 [],
    .fwWrite 0 0 (2 ^ 64) [], .fwBulk 8 0 0 0, .fwBulk 0 (2 ^ 32) 0 0, .fwBulk 0 0 (2 ^ 64) 0, .fwBulk 0 0 0 (2 ^ 64), .fwVerify 8 0,
    .fwVerify 0 (2 ^ 32), .fwActivate 8, .fwOwnerLock 8, .fwOwnerUnlock 8, .cmpBlendInstall 8 0 0 [], .cmpBlendInstall 0 (2 ^ 32) 0 [],
    .cmpBlendInstall 0 0 (2 ^ 32) [], .cmpBlendStage 8 0 0 [], .cmpBlendStage 0 (2 ^ 32) 0 [], .cmpBlendStage 0 0 (2 ^ 32) [],
    .cmpBlendRetire 8 0 0, .cmpBlendRetire 0 (2 ^ 32) 0] : List Instr).all (fun i => !i.wf) = true := by decide +kernel

/-- Each of these commands has one operand out of its range. -/
theorem test_ill_formed_4 : ([
    .cmpBlendRetire 0 0 (2 ^ 32), .cmpBlendRead 8 0 0 0, .cmpBlendRead 0 (2 ^ 32) 0 0, .cmpBlendRead 0 0 (2 ^ 32) 0,
    .cmpBlendRead 0 0 0 (2 ^ 32), .cmpResync 8 false 0 0, .cmpResync 0 false (2 ^ 32) 0, .cmpResync 0 false 0 (2 ^ 32), .clkSelect 8 0,
    .clkSelect 0 (2 ^ 32), .regRead 8 [], .regWrite 8 [], .registerWrite (2 ^ 32) 0 0 0 false, .registerWrite 0 (2 ^ 32) 0 0 false,
    .registerWrite 0 0 (2 ^ 32) 0 false, .registerWrite 0 0 0 (2 ^ 32) false, .rcCounterRead (2 ^ 32) false, .latchingRead (2 ^ 32),
    .sourceSelectWrite (2 ^ 32), .pageRevert 4, .pageStandbyDiscard 4, .pageReoffer 4, .stepCommand (2 ^ 32), .uceRelease (2 ^ 8) 0,
    .uceRelease 0 (2 ^ 8), .timeSourceWrite (2 ^ 32), .pulseModeWrite 4 0, .pulseModeWrite 0 (2 ^ 32), .caskRequest (2 ^ 32) false 0,
    .caskRequest 0 false (2 ^ 8), .caskFree (2 ^ 32) 0, .caskFree 0 (2 ^ 16), .caskAccess (2 ^ 32) 0 0 none 0 [] .unused,
    .caskAccess 0 (2 ^ 32) 0 none 0 [] .unused, .caskAccess 0 0 (2 ^ 32) none 0 [] .unused, .caskAccess 0 0 0 none (2 ^ 16) [] .unused,
    .dramRead (2 ^ 40) 0 [] .unused, .dramRead 0 (2 ^ 40) [] .unused, .gleanGroup (2 ^ 40) [] 0, .gleanGroup 0 [] (2 ^ 32),
    .channelRetrainDone 64 false, .blendOfferRx 4 false (zeros 140), .blendOfferRx 0 false [], .blendAcceptRx 4 0 0 0,
    .blendAcceptRx 0 8 0 0, .blendAcceptRx 0 0 (2 ^ 8) 0, .blendAcceptRx 0 0 0 (2 ^ 64), .blendRejectRx 4 0 0 0 0, .blendRejectRx 0 8 0 0 0,
    .blendRejectRx 0 0 (2 ^ 8) 0 0, .blendRejectRx 0 0 0 (2 ^ 64) 0, .blendRejectRx 0 0 0 0 (2 ^ 8), .blendSwitchRx 4 0 0 [],
    .blendSwitchRx 0 8 0 [], .blendSwitchRx 0 0 (2 ^ 8) [], .blendRetireAckRx 4 0 0, .blendRetireAckRx 0 8 0, .blendRetireAckRx 0 0 (2 ^ 8),
    .blendResyncRx 4 0, .blendResyncRx 0 8] : List Instr).all (fun i => !i.wf) = true := by decide +kernel

/-- Each of these commands has one operand out of its range. -/
theorem test_ill_formed_5 : ([
    .timeTransferSend 4, .controlKeepalive 4, .aliveRx 4, .slotRx 4 0 0 false 0 0 0 [] [], .slotRx 0 5 0 false 0 0 0 [] [],
    .slotRx 0 0 131072000 false 0 0 0 [] [], .slotRx 0 0 0 false (2 ^ 32) 0 0 [] [], .slotRx 0 0 0 false 0 (2 ^ 32) 0 [] [],
    .slotRx 0 0 0 false 0 0 (2 ^ 16) [] [], .elasticStoreSlip 5, .xhSheafRx 4 0 0 [], .xhSheafRx 0 5 0 [], .xhSheafRx 0 0 8 [],
    .xhSheafDown (2 ^ 8), .lineBlockRx 4 [], .lineAckIdle (2 ^ 16), .lineNackRepeat (2 ^ 16), .lineResendTimer (2 ^ 16),
    .lineAckRx 4 0 0 0 0, .lineAckRx 0 (2 ^ 16) 0 0 0, .lineAckRx 0 0 (2 ^ 64) 0 0, .lineAckRx 0 0 0 (2 ^ 64) 0,
    .lineAckRx 0 0 0 0 (2 ^ 32), .lineNackRx 4 0 [], .lineNackRx 0 (2 ^ 16) [], .pageOfferRx 4 [], .pageReadyRx 4 [], .pageRejectRx 4 [],
    .pageSetDiscard 4, .laneDegrade 5, .rdiClear 5, .pmBinRollover 2, .timeTransferRx 4 [], .loopFail 5, .lossOfSignal 5,
    .monitorRead 5 false ⟨[], 0, 0, 0, 0, 0⟩, .contextRelearn 5 0 0, .contextRelearn 0 4 0, .contextRelearn 0 0 5, .failedLaneTakeover 5,
    .wrongWavelengthLocal 5 0 0 0 0, .relockDone 5, .relockFarCheck 5, .rackingBegin 4, .rackSwitch 4, .announceRx 4 0 0 0,
    .announceRx 0 2 0 0, .announceRx 0 0 (2 ^ 64) 0, .announceRx 0 0 0 (2 ^ 64), .rackReadyRx 4, .vintageWindowClose 4, .pHelloRx 4 [],
    .pHelloRepeat 4, .pEncapRx 4 [], .pConfirmRx 4 [], .pairingTimeout 4, .pairingRetry 4, .repairNoBlock 4, .refMissingEdges 2,
    .pulseEdge 4] : List Instr).all (fun i => !i.wf) = true := by decide +kernel

/-- Each of these commands has one operand out of its range. -/
theorem test_ill_formed_6 : ([
    .digestSend 4, .digestRx 4 0 (zeros 16) (zeros 16), .digestRx 0 (2 ^ 8) (zeros 16) (zeros 16), .digestRx 0 0 [] (zeros 16),
    .digestRx 0 0 (zeros 16) [], .digestListRx 4 [], .configFence 4, .partnerLinkDown 4, .siteStateRx 4 [] [] 0,
    .siteStateRx 0 [] [] (2 ^ 64), .siteAckRx 4 0 0, .siteAckRx 0 (2 ^ 16) 0, .siteAckRx 0 0 (2 ^ 64), .launchNoticeRx 4 0 0 0 0 false 0,
    .launchNoticeRx 0 (2 ^ 16) 0 0 0 false 0, .launchNoticeRx 0 0 (2 ^ 16) 0 0 false 0, .launchNoticeRx 0 0 0 (2 ^ 32) 0 false 0,
    .launchNoticeRx 0 0 0 0 (2 ^ 64) false 0, .launchNoticeRx 0 0 0 0 0 false (2 ^ 8), .abortNoticeRx 4 0 0 0 0,
    .abortNoticeRx 0 (2 ^ 16) 0 0 0, .abortNoticeRx 0 0 (2 ^ 32) 0 0, .abortNoticeRx 0 0 0 (2 ^ 16) 0, .abortNoticeRx 0 0 0 0 8,
    .fenceClearRx 4 0 0, .fenceClearRx 0 (2 ^ 16) 0, .fenceClearRx 0 0 (2 ^ 32), .promoteRx 4 (zeros 8) 0, .promoteRx 0 [] 0,
    .promoteRx 0 (zeros 8) (2 ^ 64), .barnCaptureDone [] false (2 ^ 32), .railFault 16, .powerLoss 65, .ledgerSeal 2, .pressWave 16 false,
    .pfcWatchdogIgnoreEnd 8, .laneRecovery 5, .signalReturn 5] : List Instr).all (fun i => !i.wf) = true := by decide +kernel

/-- A row of element values, in multiples of 2^-512. -/
def rowOf (e : Int) (m : List Int) : Must := { Must.empty false false with e := e, m := m ++ List.replicate (32 - m.length) 0 }

/-- The spec's example of one rounding against a fold: 1.0 + 2^-8 + 2^-8 in bf16 is 0x3F81 in any order. -/
theorem test_exact_sum_rounds_once :
    (Must.create false false [[bf16.decode 0x3F80], [bf16.decode 0x3B80], [bf16.decode 0x3B80]]).roundElem bf16 0 = (0x3F81, false, false) ∧
    (Must.create false false [[bf16.decode 0x3B80], [bf16.decode 0x3B80], [bf16.decode 0x3F80]]).roundElem bf16 0 = (0x3F81, false, false) := by
  decide +kernel

/-- The combined row of the spec's example of an escape that decides a tie. -/
def tieRow : Must := (rowOf (-40) [0x400000, 0, 0, 0, 0, 0x3A5]).combine (rowOf (-20) [0x2000, 0, 0, 0, 0, 0x404])

/-- Its fields, its one record and its bytes in device memory. -/
theorem test_escape_decides_a_tie :
    tieRow.e = -20 ∧ tieRow.m.take 6 = [0x2004, 0, 0, 0, 0, 0x404] ∧
      slice (tieRow.toBytes false) 4 4 = leBytes 4 0x13EC ∧ slice (tieRow.toBytes false) 104 16 = leBytes 8 0xFD814 ++ leBytes 8 0x3A5 := by
  decide +kernel

/-- Its roundings to bf16. -/
theorem test_escape_rounds_up : tieRow.roundElem bf16 0 = (0x3C00, false, false) ∧ tieRow.roundElem bf16 5 = (0x3A81, false, false) := by
  decide +kernel

/-- The header of the spec's example of a DATA packet. -/
def dataHeader : List Byte :=
  beBytes 4 0x11000012 ++ beBytes 4 0x0A310007 ++ beBytes 4 0x1C40 ++ beBytes 4 0 ++ beBytes 4 0x00311000 ++ beBytes 4 0x00213000 ++
    beBytes 4 0x41 ++ beBytes 8 0x5E1B07C9A2D43F86 ++ beBytes 4 0x0015C300 ++ beBytes 8 0

/-- What it carries. -/
theorem test_data_header :
    Pkt.ofBytes dataHeader =
      { ty := 1, flags := 0, blendId := 0x12, group := 0x0A31, epoch := 7, inst := 0x1C40, chunk := 0, rank := 3, dtype := 1, count := 4096
        stream := 0x213, seq := 0x41, hash := 0x5E1B07C9A2D43F86, payload := [] } := by
  decide +kernel

/-- The codes of the spec's example of justification: 387,072 B at 75.003 ppm give 1, 2, 2, 2, 2, 1. -/
theorem test_justification :
    (let d : Int := 75003 * 2 ^ 40 / 10 ^ 9
     (List.range 6).foldl (fun (p : Int × List Nat) _ =>
       let a := (justAdd p.1 387072 d).1
       (a - justUnits a * (16 * 65536), p.2 ++ [justCode (justUnits a)])) ((0 : Int), [])).2 = [1, 2, 2, 2, 2, 1] := by
  decide +kernel

/-- The tokens of the spec's example of three groups: 100 Gb/s is 25,000 B in a tick, up to 262,144 B, held in quarter bytes. -/
theorem test_token_refill :
    (let s := updSched 2 (fun c => { c with
       active := { c.active with rates := c.active.rates.set 2 100000, bursts := c.active.bursts.set 2 262144 } }) up
     let t := tokenRefill 2 2 (updSched 2 (fun c => c.updQueue 2 fun e => { e with tokens := 0 }) s)
     let u := tokenRefill 2 2 (updSched 2 (fun c => c.updQueue 2 fun e => { e with tokens := 4 * 250000 }) s)
     ((schedOf t 2).queue 2).tokens = 4 * 25000 ∧ ((schedOf u 2).queue 2).tokens = 4 * 262144) := by decide +kernel

/-- The spec's example of time transfer: an offset of 300 ns and a round trip of 2,021 ticks. -/
theorem test_time_transfer :
    (let t := portSample 0 true (300 * 65536) (2016700 * 65536) (1000700 * 65536) (3017700 * 65536) linked
     (t.line.ports[0].rtt, t.time.ports[0].theta) = (2021, 300 * 65536)) := by decide +kernel

/-- AES-256 of the example vector of FIPS 197, appendix C.3. -/
theorem test_aes256 :
    aesBlock (aesKeys ((List.range 32).map byte)) ((List.range 16).map fun i => byte (17 * i)) =
      [0x8E, 0xA2, 0xB7, 0xCA, 0x51, 0x67, 0x45, 0xBF, 0xEA, 0xFC, 0x49, 0x90, 0x4B, 0x49, 0x60, 0x89] := by decide +kernel

/-- SHAKE256 of the empty string begins as FIPS 202 has it. -/
theorem test_shake256 : (shake256 [] 8) = [0x46, 0xB9, 0xDD, 0x2B, 0x0B, 0xA8, 0x8D, 0x13] := by decide +kernel

/-- Well-formed commands at the ends of their ranges. -/
theorem test_well_formed :
    ([.lineBlockSelect 3, .laneDegrade 4, .railFault 15, .pageOfferRx 3 [], .regRead 7 [], .digestRx 3 255 (zeros 16) (zeros 16),
      .sessionIdleTimeout (2 ^ 33 - 1)] : List Instr).all Instr.wf = true := by decide +kernel

/-- A telemetry write answers nothing but its NACK. -/
theorem test_telemetry_write : ∃ t, exec .telemetryWrite up = .next t ∧ t.out.head? = some .nack := ⟨_, rfl, by decide +kernel⟩

/-- A cask for 257 bytes is of class 1. -/
theorem test_cask_request : ∃ t, exec (.caskRequest 257 false 0) up = .next t ∧ t.out.head? = some (.answer [caskPtr 1 0 0]) :=
  ⟨_, rfl, by decide +kernel⟩

/-- DRAM above its usable end stops. -/
theorem test_dram_end : exec (.dramRead 0xD693A40000 0 [] .unused) up = .fault .dramAddressOutside := rfl

end Sys2Proof.Tests
end

/-! What reset leaves: the values of State.reset as the accessors read them. -/

namespace Sys2Proof.Machine

open Sys2Proof

/-! ### Stored registers and counts of events -/

/-- Reset stores no register, so each reads its table's reset value (log entry 11). -/
@[simp] theorem regVal_reset (a : Nat) : regVal State.reset a = regReset a := by
  simp [regVal, State.reset]

theorem fld_reset (a lo w : Nat) : fld State.reset a lo w = bitsOf (regReset a) lo w := by
  simp [fld]

/-- FLT_LEDGER_CTRL: SEAL_RECORDS of R524 and WARN_RATE of R523. -/
theorem regFields_ledgerCtrl : regFields 0x00340014 = some [rwlIn 0 13 1024 16 4096, rw 16 8 64] := by
  decide +kernel

theorem regReset_ledgerCtrl : regReset 0x00340014 = 1024 + 64 * 2 ^ 16 := by
  simp [regReset, regFields_ledgerCtrl, sumNat, rwlIn, rw]

@[simp] theorem seen_reset (c : Nat) : seen State.reset c = 0 := by
  simp [seen, mgetD, State.reset, Flt.reset]

/-! ### Logical lanes -/

@[simp] theorem Lane.fresh_spare (n : Nat) : (Lane.fresh n).spare = true ↔ n = 4 := by
  simp [Lane.fresh]

@[simp] theorem laneOf_reset {k : Nat} (hk : k < 5) : laneOf State.reset k = Lane.fresh k := by
  have hlanes : State.reset.line.lanes = Vector.ofFn fun i : Fin 5 => Lane.fresh i := rfl
  simp [laneOf, vget, hlanes, Array.getD, hk]

/-! ### The two invariants -/

/-- Nothing is listed in either memory. -/
theorem inv_reset : Inv State.reset := by
  constructor <;> rfl

/-- A Ledger stream without records is chained from any device. -/
theorem chained_empty (device : List Byte) : Chained device LedgerStream.empty := by
  simp [Chained, LedgerStream.empty]

theorem ledgerInv_reset : LedgerInv State.reset :=
  ⟨chained_empty _, chained_empty _⟩

/-- Settles O2: the two invariants and the values read through an accessor (lanes, registers, counts of events) by the lemmas above; every
other clause is a field of State.reset. That the queue is empty, that no session is open, that no instance lives and that nothing has been
raised are choices of the model (log entries 2 and 21). -/
theorem resetState : Obligations.ResetState := by
  refine ⟨inv_reset, ledgerInv_reset, ?spare, rfl, rfl, rfl, rfl, rfl, rfl, rfl, rfl, rfl, rfl, rfl, seen_reset, regVal_reset, ?sealRecords, ?warnRecords⟩
  case spare =>
    intro k hk
    rw [laneOf_reset hk, Lane.fresh_spare]
  case sealRecords => rw [fld_reset, regReset_ledgerCtrl]; decide
  case warnRecords => rw [fld_reset, regReset_ledgerCtrl]; decide

end Sys2Proof.Machine

/-! How the Ledger's streams go on (R520, R522, R524): by records appended and by seals marked, and what of a chained stream that keeps. -/

namespace Sys2Proof.Machine

open Sys2Proof

/-! ### Appending to a chained stream -/

section Append

variable {device : List Byte} {st : LedgerStream} {cap tick : Nat} {r : LedgerRec}

/-- The record that an append puts at the end of a stream: the stream's next number, and the CHAIN of R522. -/
def LedgerStream.appended (st : LedgerStream) (device : List Byte) (r : LedgerRec) : LedgerRec :=
  { r with
    index := st.next
    chain := shake256 ((if st.next = 0 then shake256 (ascii "VX6416 ledger" ++ device ++ [byte r.stream]) 32 else st.chain) ++
      { r with index := st.next : LedgerRec }.head) 32 }

@[simp] theorem LedgerStream.appended_index : (st.appended device r).index = st.next := rfl

@[simp] theorem LedgerStream.append_next : (st.append cap tick device r).next = st.next + 1 := rfl

theorem LedgerStream.append_recs : (st.append cap tick device r).recs =
    (st.recs ++ [st.appended device r]).drop (st.recs.length + 1 - cap) := by
  simp [LedgerStream.append, LedgerStream.appended]

/-- The records kept end with the last number given, and are numbered without a gap. -/
theorem Chained.index_add_length (hst : Chained device st) {i : Nat} {p : LedgerRec} (hp : st.recs[i]? = some p) :
    p.index + st.recs.length = st.next + i := by
  obtain ⟨hlink, -, hlast, -⟩ := hst
  obtain ⟨hi, -⟩ := List.getElem?_eq_some_iff.mp hp
  induction hd : st.recs.length - 1 - i generalizing i p with
  | zero =>
    have hend : st.recs.getLast? = some p := by rw [List.getLast?_eq_getElem?, ← hp]; congr 1; omega
    have := (hlast p hend).1
    omega
  | succ d ih =>
    have hnext : i + 1 < st.recs.length := by omega
    have hq := List.getElem?_eq_getElem hnext
    have hidx := (hlink i p _ hp hq).1
    have := ih hq hnext (by omega)
    omega

/-- The CHAIN of the record appended is the one of R522 after the stream's last record. -/
theorem Chained.appended_chain (hst : Chained device st) :
    (st.appended device r).chain = chainOf device st.recs.getLast? (st.appended device r) := by
  obtain ⟨-, -, hlast, hempty⟩ := hst
  cases hl : st.recs.getLast? with
  | none =>
    have hnext : st.next = 0 := hempty (List.getLast?_eq_none_iff.mp hl)
    simp [LedgerStream.appended, chainOf, LedgerRec.head, hnext]
  | some p =>
    obtain ⟨hidx, hchain⟩ := hlast p hl
    have hnext : st.next ≠ 0 := by omega
    simp [LedgerStream.appended, chainOf, LedgerRec.head, hnext, hchain]

/-- The links of a chained stream go on over the record appended. -/
theorem Chained.link_append (hst : Chained device st) {i : Nat} {p q : LedgerRec}
    (hp : (st.recs ++ [st.appended device r])[i]? = some p) (hq : (st.recs ++ [st.appended device r])[i + 1]? = some q) :
    q.index = p.index + 1 ∧ q.chain = chainOf device (some p) q := by
  have hi : i < st.recs.length := by
    have := (List.getElem?_eq_some_iff.mp hq).1
    simpa using this
  rw [List.getElem?_append_left hi] at hp
  obtain ⟨hlink, -, hlast, -⟩ := id hst
  by_cases hi' : i + 1 < st.recs.length
  · rw [List.getElem?_append_left hi'] at hq
    exact hlink i p q hp hq
  · have hlen : i + 1 = st.recs.length := by omega
    have hend : st.recs.getLast? = some p := by rw [List.getLast?_eq_getElem?, ← hlen, Nat.add_sub_cancel, hp]
    obtain rfl : st.appended device r = q := by simpa [hlen] using hq
    obtain ⟨hidx, -⟩ := hlast p hend
    exact ⟨hidx.symm, by rw [hst.appended_chain, hend]⟩

/-- R522: an append keeps a stream chained. -/
theorem Chained.append (hcap : 0 < cap) (hst : Chained device st) : Chained device (st.append cap tick device r) := by
  have hdrop : st.recs.length + 1 - cap ≤ st.recs.length := by omega
  obtain ⟨-, hfirst, hlast, -⟩ := id hst
  refine ⟨fun i p q hp hq => ?link, fun q hq h0 => ?first, fun q hq => ?last, fun h => ?empty⟩
  case link =>
    rw [LedgerStream.append_recs, List.getElem?_drop] at hp hq
    exact hst.link_append hp hq
  case first =>
    rw [LedgerStream.append_recs] at hq
    rcases List.mem_append.mp (List.mem_of_mem_drop hq) with hq | hq
    · exact hfirst q hq h0
    · obtain rfl := List.mem_singleton.mp hq
      have hrecs : st.recs = [] := by
        by_contra hne
        obtain ⟨hidx, -⟩ := hlast _ (List.getLast?_eq_some_getLast hne)
        simp only [LedgerStream.appended_index] at h0
        omega
      rw [hst.appended_chain, hrecs, List.getLast?_nil]
  case last =>
    rw [LedgerStream.append_recs, List.getLast?_drop, if_neg (by simpa using hdrop), List.getLast?_concat] at hq
    obtain rfl := Option.some.inj hq
    exact ⟨rfl, rfl⟩
  case empty =>
    rw [LedgerStream.append_recs, List.drop_eq_nil_iff, List.length_append, List.length_singleton] at h
    omega

/-- R520: an append drops no record that fewer than `cap` others follow. -/
theorem Chained.mem_append (hst : Chained device st) {p : LedgerRec} (hp : p ∈ st.recs) (hkeep : st.next + 1 ≤ p.index + cap) :
    p ∈ (st.append cap tick device r).recs := by
  obtain ⟨i, hi⟩ := List.mem_iff_getElem?.mp hp
  have hidx := hst.index_add_length hi
  have hlt := (List.getElem?_eq_some_iff.mp hi).1
  have hpos : st.recs.length + 1 - cap ≤ i := by omega
  rw [LedgerStream.append_recs]
  refine List.mem_iff_getElem?.mpr ⟨i - (st.recs.length + 1 - cap), ?_⟩
  rw [List.getElem?_drop, Nat.add_sub_cancel' hpos, List.getElem?_append_left hlt, hi]

end Append

/-! ### A stream after any number of appends and seals -/

/-- What a stream of a device that keeps `cap` records can become: records are appended while there is room, and a seal is marked. -/
inductive LedgerStream.Extends (device : List Byte) (cap : Nat) (room : Nat → Prop) (st : LedgerStream) : LedgerStream → Prop
  | refl : Extends device cap room st st
  | append {st' : LedgerStream} {tick : Nat} {r : LedgerRec} : Extends device cap room st st' → room st'.next →
      Extends device cap room st (st'.append cap tick device r)
  | markSealed {st' : LedgerStream} : Extends device cap room st st' → Extends device cap room st st'.markSealed

namespace LedgerStream.Extends

variable {device : List Byte} {cap : Nat} {room : Nat → Prop} {st st' : LedgerStream}

theorem chained (h : st.Extends device cap room st') (hcap : 0 < cap) (hst : Chained device st) : Chained device st' := by
  induction h with
  | refl => exact hst
  | append _ _ ih => exact ih.append hcap
  | markSealed _ ih => exact ih

/-- Of a chained stream every record is kept that fewer than `cap` others follow. -/
theorem mem_recs (h : st.Extends device cap room st') (hcap : 0 < cap) (hst : Chained device st) {p : LedgerRec} (hp : p ∈ st.recs)
    (hkeep : st'.next ≤ p.index + cap) : p ∈ st'.recs := by
  induction h with
  | refl => exact hp
  | append hext _ ih => exact (hext.chained hcap hst).mem_append (ih ((Nat.le_succ _).trans hkeep)) hkeep
  | markSealed _ ih => exact ih hkeep

/-- A stream that is appended to only below a bound stays within it. -/
theorem next_le_of_room {bound : Nat} (h : st.Extends device cap (· < bound) st') (hst : st.next ≤ bound) : st'.next ≤ bound := by
  induction h with
  | refl => exact hst
  | append _ hroom _ => exact hroom
  | markSealed _ ih => exact ih

end LedgerStream.Extends

end Sys2Proof.Machine

/-! What a command does to the Ledger (R520 to R524), as a relation of two states that every function of the machine keeps, and the rules
for the functions that write the Ledger. -/

namespace Sys2Proof.Machine

open Sys2Proof

/-- From one state to the other the device stays the same one, and the streams of the Ledger have only been appended to and sealed:
stream C without end, stream F while it has room. -/
structure LedgerGrows (s t : State) : Prop where
  device : t.mgt.deviceId = s.mgt.deviceId
  streamC : s.flt.ledgerC.Extends s.mgt.deviceId 884736 (fun _ => True) t.flt.ledgerC
  streamF : s.flt.ledgerF.Extends s.mgt.deviceId 32768 (· < 32768) t.flt.ledgerF

section

variable {s t u : State}

theorem LedgerGrows.refl : LedgerGrows s s := ⟨rfl, .refl, .refl⟩

/-- A chained Ledger that grows stays chained and keeps its records. -/
theorem LedgerGrows.keeps (h : LedgerGrows s t) (hs : LedgerInv s) :
    LedgerInv t ∧ (∀ r ∈ s.flt.ledgerC.recs, t.flt.ledgerC.next ≤ r.index + 884736 → r ∈ t.flt.ledgerC.recs) ∧
      (s.flt.ledgerF.next ≤ 32768 → t.flt.ledgerF.next ≤ 32768 ∧ ∀ r ∈ s.flt.ledgerF.recs, r ∈ t.flt.ledgerF.recs) := by
  obtain ⟨hdev, hC, hF⟩ := h
  obtain ⟨hsC, hsF⟩ := hs
  refine ⟨?inv, fun r hr hkeep => hC.mem_recs (by decide) hsC hr hkeep, fun hroom => ?full⟩
  case inv =>
    rw [LedgerInv, hdev]
    exact ⟨hC.chained (by decide) hsC, hF.chained (by decide) hsF⟩
  case full =>
    have hle := hF.next_le_of_room hroom
    exact ⟨hle, fun r hr => hF.mem_recs (by decide) hsF hr (hle.trans (Nat.le_add_left _ _))⟩

/-! ### What writes no Ledger -/

/-- The identity and the two streams are as they were. -/
theorem LedgerGrows.same (h : LedgerGrows s t) (hdev : u.mgt.deviceId = t.mgt.deviceId := by rfl)
    (hC : u.flt.ledgerC = t.flt.ledgerC := by rfl) (hF : u.flt.ledgerF = t.flt.ledgerF := by rfl) : LedgerGrows s u := by
  obtain ⟨hd, hc, hf⟩ := h
  exact ⟨hdev.trans hd, hC ▸ hc, hF ▸ hf⟩

theorem LedgerGrows.ite {c : Prop} {_ : Decidable c} (ht : LedgerGrows s t) (hu : LedgerGrows s u) : LedgerGrows s (if c then t else u) := by
  split
  · exact ht
  · exact hu

theorem LedgerGrows.foldl {α : Type} {l : List α} {f : State → α → State} (h : LedgerGrows s t)
    (hf : ∀ u a, LedgerGrows s u → LedgerGrows s (f u a)) : LedgerGrows s (l.foldl f t) := by
  induction l generalizing t with
  | nil => exact h
  | cons a l ih => exact ih (hf t a h)

/-! ### The functions that append -/

theorem LedgerGrows.withStreams {c f : LedgerStream} (h : LedgerGrows s t)
    (hC : s.flt.ledgerC.Extends s.mgt.deviceId 884736 (fun _ => True) c)
    (hF : s.flt.ledgerF.Extends s.mgt.deviceId 32768 (· < 32768) f) : LedgerGrows s (t.mapFlt (Flt.withStreams c f)) :=
  ⟨h.device, hC, hF⟩

theorem LedgerGrows.appendC {tick : Nat} {r : LedgerRec} (h : LedgerGrows s t) :
    s.flt.ledgerC.Extends s.mgt.deviceId 884736 (fun _ => True) (t.flt.ledgerC.append 884736 tick t.mgt.deviceId r) := by
  rw [h.device]
  exact h.streamC.append trivial

theorem LedgerGrows.appendF {tick : Nat} {r : LedgerRec} (h : LedgerGrows s t) (hroom : t.flt.ledgerF.next < 32768) :
    s.flt.ledgerF.Extends s.mgt.deviceId 32768 (· < 32768) (t.flt.ledgerF.append 32768 tick t.mgt.deviceId r) := by
  rw [h.device]
  exact h.streamF.append hroom

/-- A record enters stream C, and stream F where the class asks for it and there is room (R520). -/
theorem LedgerGrows.ledgerWrite {kind code : Nat} {body : List Byte} (h : LedgerGrows s t) :
    LedgerGrows s (ledgerWrite kind code body t) := by
  unfold Machine.ledgerWrite
  refine h.withStreams h.appendC ?_
  split
  · next hin => exact h.appendF (of_decide_eq_true (Bool.and_eq_true_iff.mp hin).2)
  · exact h.streamF

theorem LedgerGrows.sealAppend {stream kind : Nat} {body : List Byte} (h : LedgerGrows s t)
    (hroom : stream ≠ 0 → t.flt.ledgerF.next < 32768) : LedgerGrows s (sealAppend stream kind body t) := by
  unfold Machine.sealAppend
  by_cases hs : stream = 0
  · refine ⟨h.device, ?_, ?_⟩ <;> simp only [State.mapFlt_flt, if_pos hs]
    · exact h.appendC
    · exact h.streamF
  · refine ⟨h.device, ?_, ?_⟩ <;> simp only [State.mapFlt_flt, if_neg hs]
    · exact h.streamC
    · exact h.appendF (hroom hs)

theorem sealAppend_next {stream kind : Nat} {body : List Byte} :
    (sealAppend stream kind body t).flt.ledgerF.next = t.flt.ledgerF.next + if stream = 0 then 0 else 1 := by
  by_cases hs : stream = 0 <;> simp [sealAppend, hs]

/-- Records of a seal are appended one after the other, as many as there is room for. -/
theorem LedgerGrows.sealAppends {stream kind : Nat} {l : List (List Byte)} (h : LedgerGrows s t)
    (hroom : stream ≠ 0 → t.flt.ledgerF.next + l.length ≤ 32768) :
    LedgerGrows s (l.foldl (fun a b => Machine.sealAppend stream kind b a) t) := by
  induction l generalizing t with
  | nil => exact h
  | cons b l ih =>
    refine ih (h.sealAppend fun hs => ?_) fun hs => ?_
    · have := hroom hs
      simp only [List.length_cons] at this
      omega
    · have := hroom hs
      simp only [List.length_cons] at this
      rw [sealAppend_next, if_neg hs]
      omega

theorem length_chunksFuel_le {α : Type} {n m fuel : Nat} {l : List α} (h : l.length ≤ n * m) : (chunksFuel fuel n l).length ≤ m := by
  induction m generalizing fuel l with
  | zero =>
    obtain rfl : l = [] := List.eq_nil_of_length_eq_zero (by simpa using h)
    cases fuel <;> simp [chunksFuel]
  | succ m ih =>
    cases fuel with
    | zero => simp [chunksFuel]
    | succ fuel =>
      cases l with
      | nil => simp [chunksFuel]
      | cons a l =>
        have hdrop : ((a :: l).drop n).length ≤ n * m := by
          rw [List.length_drop]
          rw [Nat.mul_succ] at h
          omega
        exact Nat.succ_le_succ (ih hdrop)

/-- R524: a signature of 1,280 B fills three SEAL-CONT records. -/
theorem length_chunks_ownSign (m : List Byte) : (chunks 432 (ownSign m)).length ≤ 3 := by
  have hlen : (ownSign m).length ≤ 432 * 3 := by
    simp only [ownSign, fixLen, padTo, List.length_append, List.length_take, List.length_replicate]
    omega
  exact length_chunksFuel_le hlen

end

end Sys2Proof.Machine

/-! No other function of the machine writes the Ledger itself: what each of them calls lets it only grow, and so does the function. One
rule for each, in the order of the model. -/

namespace Sys2Proof.Machine

open Sys2Proof

section

-- One proof after the other: elaborated side by side, these many short proofs take more threads than the memory limit has room for.
set_option Elab.async false

variable {s t u : State}

theorem LedgerGrows.when {c : Prop} {_ : Decidable c} (h : LedgerGrows s t) (hu : LedgerGrows s t → LedgerGrows s u) :
    LedgerGrows s (if c then u else t) := .ite (hu h) h

theorem LedgerGrows.unless {c : Prop} {_ : Decidable c} (h : LedgerGrows s t) (hu : LedgerGrows s t → LedgerGrows s u) :
    LedgerGrows s (if c then t else u) := .ite h (hu h)

/-! ### The updates of a block -/

theorem LedgerGrows.mapColl {f : Coll → Coll} (h : LedgerGrows s t) : LedgerGrows s (t.mapColl f) := ⟨h.device, h.streamC, h.streamF⟩

theorem LedgerGrows.mapPress {f : Press → Press} (h : LedgerGrows s t) : LedgerGrows s (t.mapPress f) := ⟨h.device, h.streamC, h.streamF⟩

theorem LedgerGrows.mapHost {f : HostPort → HostPort} (h : LedgerGrows s t) : LedgerGrows s (t.mapHost f) := ⟨h.device, h.streamC, h.streamF⟩

theorem LedgerGrows.mapCmp {f : SMap BSlot → SMap BSlot} (h : LedgerGrows s t) : LedgerGrows s (t.mapCmp f) := ⟨h.device, h.streamC, h.streamF⟩

theorem LedgerGrows.mapQos {f : Vector Sched 5 → Vector Sched 5} (h : LedgerGrows s t) : LedgerGrows s (t.mapQos f) := ⟨h.device, h.streamC, h.streamF⟩

theorem LedgerGrows.mapCellar {f : Cellar → Cellar} (h : LedgerGrows s t) : LedgerGrows s (t.mapCellar f) := ⟨h.device, h.streamC, h.streamF⟩

theorem LedgerGrows.mapMem {f : Mem → Mem} (h : LedgerGrows s t) : LedgerGrows s (t.mapMem f) := ⟨h.device, h.streamC, h.streamF⟩

theorem LedgerGrows.mapRegs {f : SMap Nat → SMap Nat} (h : LedgerGrows s t) : LedgerGrows s (t.mapRegs f) := ⟨h.device, h.streamC, h.streamF⟩

theorem LedgerGrows.mapLine {f : Line → Line} (h : LedgerGrows s t) : LedgerGrows s (t.mapLine f) := ⟨h.device, h.streamC, h.streamF⟩

theorem LedgerGrows.mapOpt {f : Opt → Opt} (h : LedgerGrows s t) : LedgerGrows s (t.mapOpt f) := ⟨h.device, h.streamC, h.streamF⟩

theorem LedgerGrows.mapSec {f : Sec → Sec} (h : LedgerGrows s t) : LedgerGrows s (t.mapSec f) := ⟨h.device, h.streamC, h.streamF⟩

theorem LedgerGrows.mapSites {f : Sites → Sites} (h : LedgerGrows s t) : LedgerGrows s (t.mapSites f) := ⟨h.device, h.streamC, h.streamF⟩

theorem LedgerGrows.mapTime {f : TimeSt → TimeSt} (h : LedgerGrows s t) : LedgerGrows s (t.mapTime f) := ⟨h.device, h.streamC, h.streamF⟩

theorem LedgerGrows.mapBru {f : Bru → Bru} (h : LedgerGrows s t) : LedgerGrows s (t.mapBru f) := ⟨h.device, h.streamC, h.streamF⟩

theorem LedgerGrows.mapFlt {f : Flt → Flt} (h : LedgerGrows s t) (hC : ∀ x, (f x).ledgerC = x.ledgerC := by intro; rfl)
    (hF : ∀ x, (f x).ledgerF = x.ledgerF := by intro; rfl) : LedgerGrows s (t.mapFlt f) :=
  h.same rfl (hC t.flt) (hF t.flt)

theorem LedgerGrows.mapMgt {f : Mgt → Mgt} (h : LedgerGrows s t) (hdev : ∀ x, (f x).deviceId = x.deviceId := by intro; rfl) :
    LedgerGrows s (t.mapMgt f) :=
  h.same (hdev t.mgt) rfl rfl

theorem LedgerGrows.emit {o : Output} (h : LedgerGrows s t) : LedgerGrows s (t.emit o) := ⟨h.device, h.streamC, h.streamF⟩

theorem LedgerGrows.takeFree (h : LedgerGrows s t) : LedgerGrows s t.takeFree.2 := ⟨h.device, h.streamC, h.streamF⟩

theorem LedgerGrows.foldl_fst {α β : Type} {l : List α} {p : State × β} {f : State × β → α → State × β} (h : LedgerGrows s p.1)
    (hf : ∀ p a, LedgerGrows s p.1 → LedgerGrows s (f p a).1) : LedgerGrows s (l.foldl f p).1 := by
  induction l generalizing p with
  | nil => exact h
  | cons a l ih => exact ih (hf p a h)

theorem LedgerGrows.foldl_snd {α β : Type} {l : List α} {p : β × State} {f : β × State → α → β × State} (h : LedgerGrows s p.2)
    (hf : ∀ p a, LedgerGrows s p.2 → LedgerGrows s (f p a).2) : LedgerGrows s (l.foldl f p).2 := by
  induction l generalizing p with
  | nil => exact h
  | cons a l ih => exact ih (hf p a h)

theorem LedgerGrows.ite_state {c : Prop} {_ : Decidable c} {a b : CmdRes} (ha : LedgerGrows s a.state) (hb : LedgerGrows s b.state) :
    LedgerGrows s (if c then a else b).state := by
  split
  · exact ha
  · exact hb

theorem LedgerGrows.of_snd {α : Type} {p : α × State} {a : α} (h : LedgerGrows s p.2) (he : p = (a, u)) : LedgerGrows s u := by
  subst he
  exact h

theorem LedgerGrows.of_fst {α : Type} {p : State × α} {a : α} (h : LedgerGrows s p.1) (he : p = (u, a)) : LedgerGrows s u := by
  subst he
  exact h

/-! ### The functions of Machine/Regs -/

theorem LedgerGrows.regSet {a v : Nat} (h : LedgerGrows s t) : LedgerGrows s (regSet a v t) :=
  h.mapRegs

theorem LedgerGrows.fldSet {a lo w v : Nat} (h : LedgerGrows s t) : LedgerGrows s (fldSet a lo w v t) :=
  h.regSet

theorem LedgerGrows.setBits {a mask : Nat} (h : LedgerGrows s t) : LedgerGrows s (setBits a mask t) :=
  h.regSet

theorem LedgerGrows.bumpBy {a n : Nat} (h : LedgerGrows s t) : LedgerGrows s (bumpBy a n t) :=
  h.regSet

theorem LedgerGrows.bump {a : Nat} (h : LedgerGrows s t) : LedgerGrows s (bump a t) :=
  h.bumpBy

/-! ### The functions of Machine/Ops -/

theorem LedgerGrows.enqueue {sched queue : Nat} {it : EItem} (h : LedgerGrows s t) : LedgerGrows s (enqueue sched queue it t) :=
  h.mapQos

theorem LedgerGrows.sendHost {p : HostPkt} (h : LedgerGrows s t) : LedgerGrows s (sendHost p t) :=
  h.enqueue

theorem LedgerGrows.sendLine {p : LinePartial} (h : LedgerGrows s t) : LedgerGrows s (sendLine p t) :=
  h.enqueue

theorem LedgerGrows.mbxSend {sid kind mailbox reqSeq : Nat} {body : List Byte} (h : LedgerGrows s t) :
    LedgerGrows s (mbxSend sid kind mailbox reqSeq body t) := by
  unfold Machine.mbxSend
  split
  · exact h
  · exact h.enqueue.mapHost

theorem LedgerGrows.deliverEvent {e : EventRec} (h : LedgerGrows s t) : LedgerGrows s (deliverEvent e t) := by
  unfold Machine.deliverEvent
  refine h.foldl fun u x hu => ?_
  split
  · exact .ite hu.mbxSend hu
  · exact .ite hu.mbxSend hu

theorem LedgerGrows.beginCapture {code : Nat} (h : LedgerGrows s t) : LedgerGrows s (beginCapture code t) := by
  unfold Machine.beginCapture
  split
  · exact h.same
  · exact .ite h h.same

theorem LedgerGrows.noteEvent {e : EventRec} (h : LedgerGrows s t) : LedgerGrows s (noteEvent e t) :=
  h.same

theorem LedgerGrows.countEvent {code : Nat} {held : Bool} (h : LedgerGrows s t) : LedgerGrows s (countEvent code held t) := by
  unfold Machine.countEvent
  exact (h.bump.when (·.bump)).when (·.setBits.setBits)

theorem LedgerGrows.stopIfFatal {code : Nat} (h : LedgerGrows s t) : LedgerGrows s (stopIfFatal code t) :=
  .ite h.mapPress h

theorem LedgerGrows.raiseCore {code : Nat} {args : List Nat} (h : LedgerGrows s t) : LedgerGrows s (raiseCore code args t) := by
  unfold Machine.raiseCore
  exact ((LedgerGrows.ite h.beginCapture h).noteEvent.countEvent.stopIfFatal).when (·.deliverEvent)

theorem LedgerGrows.dropWarning {code : Nat} (h : LedgerGrows s t) : LedgerGrows s (dropWarning code t) := by
  unfold Machine.dropWarning
  exact h.mapFlt.bump.when (·.mapFlt.raiseCore)

theorem LedgerGrows.warnRecord {code : Nat} {e : EventRec} (h : LedgerGrows s t) : LedgerGrows s (warnRecord code e t) :=
  .ite h (.ite h.mapFlt.ledgerWrite h.dropWarning)

theorem LedgerGrows.ledgerEvent {code : Nat} {e : EventRec} (h : LedgerGrows s t) : LedgerGrows s (ledgerEvent code e t) := by
  unfold Machine.ledgerEvent
  exact h.ledgerWrite.when (·.mapFlt.raiseCore.warnRecord)

theorem LedgerGrows.raiseLedger {code : Nat} {args : List Nat} (h : LedgerGrows s t) : LedgerGrows s (raiseLedger code args t) := by
  unfold Machine.raiseLedger
  exact .ite h.ledgerEvent (.ite h.warnRecord h)

theorem LedgerGrows.raise {code : Nat} {args : List Nat} (h : LedgerGrows s t) : LedgerGrows s (raise code args t) :=
  h.raiseCore.raiseLedger

theorem LedgerGrows.happenedNow {code : Nat} (h : LedgerGrows s t) : LedgerGrows s (happenedNow code t) :=
  h.mapBru

theorem LedgerGrows.sendPfc {quanta : Nat} (h : LedgerGrows s t) : LedgerGrows s (sendPfc quanta t) :=
  (LedgerGrows.ite h.emit.bump h).mapHost

theorem LedgerGrows.pfcFollow (h : LedgerGrows s t) : LedgerGrows s (pfcFollow t) :=
  .ite h.sendPfc (.ite h.sendPfc h)

theorem LedgerGrows.caskEval {c : Nat} (h : LedgerGrows s t) : LedgerGrows s (caskEval c t) := by
  unfold Machine.caskEval
  exact (((h.mapCellar.when (·.raise)).when (·.raise)).when (·.raise)).pfcFollow

theorem LedgerGrows.caskFrom {c : Nat} {dramOnly : Bool} (h : LedgerGrows s t) : LedgerGrows s (caskFrom c dramOnly t).2 := by
  unfold Machine.caskFrom
  extract_lets
  split
  · exact h.bump
  split
  · exact h.mapCellar.caskEval
  split
  · exact h.mapCellar.caskEval
  · exact .ite h h.bump

theorem LedgerGrows.drawCask {n : Nat} {dramOnly : Bool} (h : LedgerGrows s t) : LedgerGrows s (drawCask n dramOnly t).2 := by
  unfold Machine.drawCask
  split
  · exact h.bump
  · exact h.caskFrom

theorem LedgerGrows.poolFree {p : Nat} (h : LedgerGrows s t) : LedgerGrows s (poolFree p t) := by
  unfold Machine.poolFree
  exact .ite h.bump.raise h.mapCellar.caskEval

theorem LedgerGrows.freeCasks {ps : List Nat} (h : LedgerGrows s t) : LedgerGrows s (freeCasks ps t) :=
  h.foldl fun _ _ hu => hu.poolFree

theorem LedgerGrows.dramWrite {a : Nat} {l : List Byte} (h : LedgerGrows s t) : LedgerGrows s (dramWrite a l t) :=
  h.mapMem

theorem LedgerGrows.regionWrite {hd off : Nat} {l : List Byte} (h : LedgerGrows s t) : LedgerGrows s (regionWrite hd off l t) := by
  unfold Machine.regionWrite
  split
  · exact h.dramWrite
  · exact h

/-! ### The functions of Machine/CollBase -/

theorem LedgerGrows.putInst {x : Instance} (h : LedgerGrows s t) : LedgerGrows s (putInst x t) :=
  h.mapColl

theorem LedgerGrows.updInst {g i : Nat} {f : Instance → Instance} (h : LedgerGrows s t) : LedgerGrows s (updInst g i f t) :=
  h.mapColl

theorem LedgerGrows.updGroup {g : Nat} {f : GroupRec → GroupRec} (h : LedgerGrows s t) : LedgerGrows s (updGroup g f t) :=
  h.mapColl

theorem LedgerGrows.askAbort {g i cls code dk d : Nat} (h : LedgerGrows s t) : LedgerGrows s (askAbort g i cls code dk d t) := by
  unfold Machine.askAbort
  exact h.mapColl

theorem LedgerGrows.openInst {g i epoch : Nat} (h : LedgerGrows s t) : LedgerGrows s (openInst g i epoch t) := by
  unfold Machine.openInst
  split
  · exact h
  · exact h.putInst.mapColl.when (·.askAbort)

theorem LedgerGrows.updGroupSites {g : Nat} {f : GroupSites → GroupSites} (h : LedgerGrows s t) : LedgerGrows s (updGroupSites g f t) :=
  h.mapSites

theorem LedgerGrows.updSilo {g i : Nat} {f : SiloRec → SiloRec} (h : LedgerGrows s t) : LedgerGrows s (updSilo g i f t) :=
  h.mapSites

theorem LedgerGrows.updPartner {p : Nat} {f : Partner → Partner} (h : LedgerGrows s t) : LedgerGrows s (updPartner p f t) :=
  h.mapSites

theorem LedgerGrows.sendCtl {port ty : Nat} {fields : List Nat} {body : List Byte} (h : LedgerGrows s t) :
    LedgerGrows s (sendCtl port ty fields body t) := by
  unfold Machine.sendCtl
  exact h.updPartner

theorem LedgerGrows.toFars {gt : GroupTable} {except : Option Nat} {ty : Nat} {fields : List Nat} (h : LedgerGrows s t) :
    LedgerGrows s (toFars gt except ty fields t) :=
  h.foldl fun _ _ hu => .ite hu hu.sendCtl

/-! ### The functions of Machine/HostOps -/

theorem LedgerGrows.updStream {id : Nat} {f : StreamCtx → StreamCtx} (h : LedgerGrows s t) : LedgerGrows s (updStream id f t) :=
  h.mapHost

theorem LedgerGrows.sendNack {id reason : Nat} {ranges : List (Nat × Nat)} (h : LedgerGrows s t) :
    LedgerGrows s (sendNack id reason ranges t) := by
  unfold Machine.sendNack
  split
  · exact h
  · exact .ite h.enqueue.updStream h.enqueue.updStream.bump

theorem LedgerGrows.sendAck {id : Nat} (h : LedgerGrows s t) : LedgerGrows s (sendAck id t) :=
  h.sendNack

theorem LedgerGrows.openNack {id seq reason g i : Nat} (h : LedgerGrows s t) : LedgerGrows s (openNack id seq reason g i t) :=
  h.updStream

theorem LedgerGrows.setBack {id seq reason g i : Nat} (h : LedgerGrows s t) : LedgerGrows s (setBack id seq reason g i t) := by
  unfold Machine.setBack
  exact .ite h.updStream.updStream.sendNack.openNack h.updStream.sendNack

theorem LedgerGrows.raiseLimited {code id : Nat} {args : List Nat} (h : LedgerGrows s t) : LedgerGrows s (raiseLimited code id args t) := by
  unfold Machine.raiseLimited
  exact .ite h h.mapHost.raise

theorem LedgerGrows.updSlot {ctx cls : Nat} {f : BSlot → BSlot} (h : LedgerGrows s t) : LedgerGrows s (updSlot ctx cls f t) :=
  h.mapCmp

theorem LedgerGrows.countSymbols {ctx : Nat} {f : Form} {n : Nat} {raw : List Byte} (h : LedgerGrows s t) :
    LedgerGrows s (countSymbols ctx f n raw t) := by
  unfold Machine.countSymbols
  split
  · exact h
  · exact .ite h h.updSlot

theorem LedgerGrows.countFail {k : FailKind} (h : LedgerGrows s t) : LedgerGrows s (countFail k t) :=
  h.bump

theorem LedgerGrows.dataFailed {p : Pkt} {k : FailKind} (h : LedgerGrows s t) : LedgerGrows s (dataFailed p k t) := by
  unfold Machine.dataFailed
  extract_lets
  split
  · exact h.countFail
  · exact .ite h.countFail.updStream.raise.bump.setBack h.countFail.updStream.setBack

/-! ### The functions of Machine/MbxOps -/

theorem LedgerGrows.updMbx {m : Nat} {f : Mbx → Mbx} (h : LedgerGrows s t) : LedgerGrows s (updMbx m f t) :=
  h.mapMgt

theorem LedgerGrows.refuse {st : Nat} (h : LedgerGrows s t) : LedgerGrows s (refuse st t).state := by
  unfold Machine.refuse
  exact h

theorem LedgerGrows.refuseD {st detail : Nat} (h : LedgerGrows s t) : LedgerGrows s (refuseD st detail t).state := by
  unfold Machine.refuseD
  exact h

theorem LedgerGrows.done (h : LedgerGrows s t) : LedgerGrows s (done t).state := by
  unfold Machine.done
  exact h

theorem LedgerGrows.doneWith {data : List Byte} (h : LedgerGrows s t) : LedgerGrows s (doneWith data t).state := by
  unfold Machine.doneWith
  exact h

theorem LedgerGrows.later (h : LedgerGrows s t) : LedgerGrows s (later t).state := by
  unfold Machine.later
  exact h

theorem LedgerGrows.mbxAnswer {m status detail : Nat} {data : List Byte} (h : LedgerGrows s t) :
    LedgerGrows s (mbxAnswer m status detail data t) := by
  unfold Machine.mbxAnswer
  exact h.updMbx.mapMgt.mbxSend.bump

theorem LedgerGrows.runCmdWith {keep : Bool} {m code : Nat} {f : Nat → Nat → State → CmdRes} (h : LedgerGrows s t)
    (hf : ∀ a b u, LedgerGrows s u → LedgerGrows s (f a b u).state) : LedgerGrows s (runCmdWith keep m code f t) := by
  unfold Machine.runCmdWith
  refine .ite h ?_
  extract_lets
  split
  · exact h.updMbx.mapMgt
  split
  · exact h.mbxAnswer
  · exact .ite h.mbxAnswer (.ite ((hf _ _ _ h).updMbx) ((LedgerGrows.ite (hf _ _ _ h) h).mbxAnswer))

theorem LedgerGrows.runCmd {m code : Nat} {f : Nat → Nat → State → CmdRes} (h : LedgerGrows s t)
    (hf : ∀ a b u, LedgerGrows s u → LedgerGrows s (f a b u).state) : LedgerGrows s (runCmd m code f t) :=
  h.runCmdWith hf

/-! ### The functions of Machine/Blends -/

theorem LedgerGrows.makeCurrent {ctx cls : Nat} {b : Blend} (h : LedgerGrows s t) : LedgerGrows s (makeCurrent ctx cls b t) :=
  h.updSlot.raise.bump

theorem LedgerGrows.retirePrevious {ctx cls : Nat} (h : LedgerGrows s t) : LedgerGrows s (retirePrevious ctx cls t) := by
  unfold Machine.retirePrevious
  split
  · exact h.updSlot
  · exact h.updSlot.raise.bump

theorem LedgerGrows.withdrawOffer {ctx cls status detail : Nat} (h : LedgerGrows s t) :
    LedgerGrows s (withdrawOffer ctx cls status detail t) := by
  unfold Machine.withdrawOffer
  split
  · exact h
  extract_lets
  split
  · exact h.updSlot.mbxAnswer
  · exact h.updSlot

theorem LedgerGrows.switchOut {ctx cls : Nat} (h : LedgerGrows s t) : LedgerGrows s (switchOut ctx cls t) := by
  unfold Machine.switchOut
  split
  · exact h
  · exact h.updSlot.makeCurrent.updSlot.sendCtl

theorem LedgerGrows.sendOffer {ctx cls : Nat} {o : Offer} (h : LedgerGrows s t) : LedgerGrows s (sendOffer ctx cls o t) := by
  unfold Machine.sendOffer
  exact h.updSlot.sendCtl

theorem LedgerGrows.blendEdge {k : Nat} (h : LedgerGrows s t) : LedgerGrows s (blendEdge k t) := by
  unfold Machine.blendEdge
  extract_lets x port s1 s2
  have h1 : LedgerGrows s s1 := by
    unfold s1
    split
    · exact h.updSlot.makeCurrent
    · exact h
  have h2 : LedgerGrows s s2 := .ite h1.retirePrevious h1
  split
  · exact h2
  · exact .ite h2.sendOffer (h2.when (·.switchOut))

theorem LedgerGrows.blendEdges (h : LedgerGrows s t) : LedgerGrows s (blendEdges t) :=
  h.foldl fun _ _ hu => hu.blendEdge

theorem LedgerGrows.blendCommit {ctx cls : Nat} (h : LedgerGrows s t) : LedgerGrows s (blendCommit ctx cls t) := by
  unfold Machine.blendCommit
  refine .ite ?_ (.ite h.switchOut h)
  split
  · exact h.updSlot.makeCurrent
  · exact h

theorem LedgerGrows.pendingToCurrent {ctx cls : Nat} (h : LedgerGrows s t) : LedgerGrows s (pendingToCurrent ctx cls t) := by
  unfold Machine.pendingToCurrent
  split
  · exact h.updSlot.makeCurrent
  · exact h

theorem LedgerGrows.tryRetireAck {port cls : Nat} (h : LedgerGrows s t) : LedgerGrows s (tryRetireAck port cls t) := by
  unfold Machine.tryRetireAck
  extract_lets
  split
  · exact .ite h.retirePrevious.sendCtl h
  · exact h

theorem LedgerGrows.tryRetireAcks {port : Nat} (h : LedgerGrows s t) : LedgerGrows s (tryRetireAcks port t) :=
  h.foldl fun _ _ hu => hu.tryRetireAck

theorem LedgerGrows.startResync {port cls : Nat} (h : LedgerGrows s t) : LedgerGrows s (startResync port cls t) := by
  unfold Machine.startResync
  exact h.updSlot.raise.bump.sendCtl

theorem LedgerGrows.lineBlockFailed {port : Nat} {cls : Option Nat} {k : FailKind} (h : LedgerGrows s t) :
    LedgerGrows s (lineBlockFailed port cls k t) := by
  unfold Machine.lineBlockFailed
  extract_lets
  split
  · exact h.countFail
  · exact .ite h.countFail.startResync h.countFail.updSlot

theorem LedgerGrows.resyncAsked {port cls : Nat} (h : LedgerGrows s t) : LedgerGrows s (resyncAsked port cls t) := by
  unfold Machine.resyncAsked
  exact h.withdrawOffer.updSlot

theorem LedgerGrows.pruneOlder {port : Nat} (h : LedgerGrows s t) : LedgerGrows s (pruneOlder port t) := by
  unfold Machine.pruneOlder
  exact h.foldl fun _ _ hu => .ite hu hu.updSlot

theorem LedgerGrows.lapseOffers {port : Nat} (h : LedgerGrows s t) : LedgerGrows s (lapseOffers port t) :=
  h.foldl fun _ _ hu => hu.withdrawOffer

theorem LedgerGrows.resyncAll {port : Nat} (h : LedgerGrows s t) : LedgerGrows s (resyncAll port t) :=
  h.foldl fun _ _ hu => .ite hu.startResync hu

/-! ### The functions of Machine/LineOps -/

theorem LedgerGrows.updLane {n : Nat} {f : Lane → Lane} (h : LedgerGrows s t) : LedgerGrows s (updLane n f t) :=
  h.mapLine

theorem LedgerGrows.updLPort {p : Nat} {f : LPort → LPort} (h : LedgerGrows s t) : LedgerGrows s (updLPort p f t) :=
  h.mapLine

theorem LedgerGrows.updTrib {n : Nat} {f : Trib → Trib} (h : LedgerGrows s t) : LedgerGrows s (updTrib n f t) :=
  h.mapLine

theorem LedgerGrows.updPhys {n : Nat} {f : PhysLane → PhysLane} (h : LedgerGrows s t) : LedgerGrows s (updPhys n f t) :=
  h.mapOpt

theorem LedgerGrows.updKeys {p : Nat} {f : PortKeys → PortKeys} (h : LedgerGrows s t) : LedgerGrows s (updKeys p f t) :=
  h.mapSec

theorem LedgerGrows.sealBlock {port engine : Nat} {hd : BlockHead} {content : List Byte} (h : LedgerGrows s t) :
    LedgerGrows s (sealBlock port engine hd content t).2 := by
  unfold Machine.sealBlock
  exact h.updKeys

theorem LedgerGrows.ringEval (h : LedgerGrows s t) : LedgerGrows s (ringEval t) := by
  unfold Machine.ringEval
  exact h.mapCellar

theorem LedgerGrows.sendTribAck {trib : Nat} (h : LedgerGrows s t) : LedgerGrows s (sendTribAck trib t) := by
  unfold Machine.sendTribAck
  split
  · exact h
  · exact h.sendCtl.updTrib

theorem LedgerGrows.nackMessages {trib port reason : Nat} {seqs : List Nat} (h : LedgerGrows s t) :
    LedgerGrows s (nackMessages trib port reason seqs t) := by
  unfold Machine.nackMessages
  exact h.foldl fun _ _ hu => hu.sendCtl.bump

theorem LedgerGrows.sendLineNacks {trib reason : Nat} {seqs : List Nat} (h : LedgerGrows s t) :
    LedgerGrows s (sendLineNacks trib reason seqs t) := by
  unfold Machine.sendLineNacks
  split
  · exact h
  · exact h.nackMessages.updTrib

theorem LedgerGrows.sendLineNack {trib seq reason : Nat} (h : LedgerGrows s t) : LedgerGrows s (sendLineNack trib seq reason t) :=
  h.sendLineNacks

theorem LedgerGrows.raisePort {code port : Nat} {args : List Nat} (h : LedgerGrows s t) : LedgerGrows s (raisePort code port args t) := by
  unfold Machine.raisePort
  exact .ite h h.mapHost.raise

theorem LedgerGrows.blankLane {n : Nat} (h : LedgerGrows s t) : LedgerGrows s (blankLane n t) :=
  h.updLane.bump

theorem LedgerGrows.loseLane {k : Nat} (h : LedgerGrows s t) : LedgerGrows s (loseLane k t) := by
  unfold Machine.loseLane
  extract_lets l already twice double
  have hdouble : ∀ u, LedgerGrows s u → LedgerGrows s (double u) := fun u hu =>
    LedgerGrows.ite (hu.foldl fun _ _ hv => hv.updLPort).raise hu
  exact .ite h (.ite (hdouble _ h.blankLane) (hdouble _ h.mapLine.raise.bump))

/-! ### The functions of Machine/CollCount -/

theorem LedgerGrows.countLate (h : LedgerGrows s t) : LedgerGrows s (countLate t) :=
  h.bump

theorem LedgerGrows.streamCounted {id : Nat} (h : LedgerGrows s t) : LedgerGrows s (streamCounted id t) :=
  h.updStream

theorem LedgerGrows.countLaunch {p : Pkt} (h : LedgerGrows s t) : LedgerGrows s (countLaunch p t) := by
  unfold Machine.countLaunch
  split
  · exact h.raise.same.enqueue
  split
  · exact h
  refine .ite h.raise ?_
  refine .ite h.countLate ?_
  extract_lets
  split
  · exact h.openInst
  refine .ite h.openInst ?_
  split
  · exact h.openInst.askAbort
  · exact h.openInst.askAbort
  split
  · exact h.openInst.unless (·.askAbort)
  split
  · exact h.openInst.askAbort
  · exact .ite h.openInst.askAbort h.openInst.updInst

theorem LedgerGrows.countData {p : Pkt} {dec : Decoded} {casks : List Nat} (h : LedgerGrows s t) :
    LedgerGrows s (countData p dec casks t) := by
  unfold Machine.countData
  split
  · exact h.raise.freeCasks
  split
  · exact h.freeCasks
  refine .ite h.raise.freeCasks (.ite h.countLate.freeCasks ?_)
  extract_lets s1 s2
  have h1 : LedgerGrows s s1 := h.openInst
  have h2 : LedgerGrows s s2 := h1.updStream
  split
  · exact h1.freeCasks
  refine .ite h1.freeCasks (.ite h1.askAbort.freeCasks (.ite h1.askAbort.freeCasks ?_))
  split
  · exact h1.freeCasks
  refine .ite h1.askAbort.freeCasks ?_
  split
  · exact h1.dataFailed.freeCasks
  · exact h1.countFail.setBack.freeCasks
  · exact h1.freeCasks
  extract_lets ch old
  refine .ite h2.updInst.freeCasks (.ite h2.updStream.bump.freeCasks ?_)
  exact .ite h2.askAbort.freeCasks (.ite h2.freeCasks h2.updInst)

theorem LedgerGrows.countMemberAbort {p : Pkt} (h : LedgerGrows s t) : LedgerGrows s (countMemberAbort p t) := by
  unfold Machine.countMemberAbort
  split
  · exact h
  split
  · exact h
  · exact .ite h (.ite h.countLate h.openInst.askAbort)

theorem LedgerGrows.countLaunchNotice {port g epoch i hash : Nat} {fence : Bool} {sites : Nat} (h : LedgerGrows s t) :
    LedgerGrows s (countLaunchNotice port g epoch i hash fence sites t) := by
  unfold Machine.countLaunchNotice
  split
  · exact h.countLate.raise
  split
  · exact h
  refine .ite h.toFars.countLate ?_
  extract_lets
  split
  · exact h.toFars.openInst
  · exact .ite h.toFars.openInst.askAbort h.toFars.openInst.updInst

theorem LedgerGrows.countAbortNotice {port g i code site : Nat} (h : LedgerGrows s t) :
    LedgerGrows s (countAbortNotice port g i code site t) := by
  unfold Machine.countAbortNotice
  split
  · exact h.countLate.raise
  split
  · exact h
  · exact .ite h.toFars.countLate h.toFars.openInst.updInst.askAbort

theorem LedgerGrows.countFenceClear {port g i : Nat} (h : LedgerGrows s t) : LedgerGrows s (countFenceClear port g i t) := by
  unfold Machine.countFenceClear
  split
  · exact h.countLate.raise
  · exact .ite h.mapColl (.ite h.countLate h.openInst.updInst)

theorem LedgerGrows.countFarPartial {port g epoch i chunk hash : Nat} {part : FarPart} (h : LedgerGrows s t) :
    LedgerGrows s (countFarPartial port g epoch i chunk hash part t) := by
  unfold Machine.countFarPartial
  extract_lets drop again s1
  have h1 : LedgerGrows s s1 := h.openInst
  split
  · exact h.countLate.raise.freeCasks
  refine .ite (.ite h.mapHost h.countLate.freeCasks) ?_
  split
  · exact h.openInst.askAbort.freeCasks
  · exact h.mapHost
  split
  · exact h1.freeCasks
  refine .ite h1.freeCasks (.ite h1.askAbort.freeCasks ?_)
  exact .ite h1.countLate.freeCasks (.ite h1.freeCasks h1.updInst.freeCasks)

theorem LedgerGrows.countArrival {a : Arrival} (h : LedgerGrows s t) : LedgerGrows s (countArrival t a) := by
  unfold Machine.countArrival
  refine .ite h.mapHost ?_
  split
  · extract_lets s1 s2
    have h1 : LedgerGrows s s1 := h.streamCounted
    have h2 : LedgerGrows s s2 := .ite h1.countLaunch.freeCasks (.ite h1.countData h1.countMemberAbort.freeCasks)
    exact h2.when (·.sendAck)
  · exact h.countFarPartial
  · exact h.countLaunchNotice
  · exact h.countAbortNotice
  · exact h.countFenceClear
  · exact h.raise.askAbort

theorem LedgerGrows.countArrivals (h : LedgerGrows s t) : LedgerGrows s (countArrivals t) := by
  unfold Machine.countArrivals
  exact (LedgerGrows.ite (h.mapHost.foldl fun _ _ hu => hu.countLate) (h.mapHost.foldl fun _ _ hu => hu.countArrival)).mapColl

/-! ### The functions of Machine/PartialOps -/

theorem LedgerGrows.fallowLimit {g : Nat} (h : LedgerGrows s t) : LedgerGrows s (fallowLimit g t) := by
  unfold Machine.fallowLimit
  exact h.updGroupSites.unless (·.raise)

theorem LedgerGrows.siloWrite {g i c : Nat} {e : FarPart} (h : LedgerGrows s t) : LedgerGrows s (siloWrite g i c e t) := by
  unfold Machine.siloWrite
  split
  · exact h
  · exact .ite h.updSilo.fallowLimit h.updSilo

theorem LedgerGrows.siloAfter {x : Instance} {d : Desc} {gt : GroupTable} {k : Nat} {ch : Chunk} (h : LedgerGrows s t) :
    LedgerGrows s (siloAfter x d gt k ch t) := by
  unfold Machine.siloAfter
  exact .ite h.siloWrite h

theorem LedgerGrows.recordDigest {x : Instance} {d : Desc} {gt : GroupTable} {ch : Chunk} (h : LedgerGrows s t) :
    LedgerGrows s (recordDigest x d gt ch t) := by
  unfold Machine.recordDigest
  extract_lets
  split
  · exact h.mapSites
  · exact h.mapSites
  · exact h

/-! ### The functions of Machine/PressWork -/

theorem LedgerGrows.updDie {i : Nat} {f : Die → Die} (h : LedgerGrows s t) : LedgerGrows s (updDie i f t) :=
  h.mapPress

theorem LedgerGrows.buildList (h : LedgerGrows s t) : LedgerGrows s (buildList t) := by
  unfold Machine.buildList
  exact h.mapColl.mapPress

theorem LedgerGrows.finishRow {x : Instance} {d : Desc} {gt : GroupTable} {k j : Nat} (h : LedgerGrows s t) :
    LedgerGrows s (finishRow t x d gt k j) := by
  unfold Machine.finishRow
  split
  · exact h
  next ch _ =>
  split
  · exact h
  · refine (LedgerGrows.foldl_fst (p := (t, ch, Stats.zero)) h fun p g hp => ?_).putInst.siloAfter
    split
    · exact hp
    split
    · split
      · exact hp.askAbort
      · exact hp.foldl fun _ _ hu => hu.regionWrite
    · exact hp

theorem LedgerGrows.finishChunk {x : Instance} {d : Desc} {gt : GroupTable} {k : Nat} (h : LedgerGrows s t) :
    LedgerGrows s (finishChunk t x d gt k) := by
  unfold Machine.finishChunk
  split
  · exact h
  · exact .ite h.askAbort h.putInst.siloAfter

theorem LedgerGrows.rowCask {x : Instance} {gt : GroupTable} {ch : Chunk} {w : RowSt} (h : LedgerGrows s t) :
    LedgerGrows s (rowCask x gt ch w t).2.2 := by
  unfold Machine.rowCask
  split
  · exact h.drawCask
  split
  · exact h.drawCask
  · exact h

theorem LedgerGrows.commitUnit {w : WorkUnit} (h : LedgerGrows s t) : LedgerGrows s (commitUnit t w) := by
  unfold Machine.commitUnit
  split
  · exact h
  split
  · split
    · exact h
    refine .ite h.askAbort (.ite h.rowCask.putInst (.ite (h.rowCask.putInst.unless (·.raise)) ?_))
    extract_lets s1 others rows rs done x1 s2 s3
    have h2 : LedgerGrows s s2 := (h.rowCask.foldl fun _ _ hu => hu.regionWrite).putInst.mapPress
    have h3 : LedgerGrows s s3 := by
      unfold s3
      split
      · exact h2.when (·.recordDigest)
      · exact h2
    exact .ite h3 (.ite h3.finishRow h3.finishChunk)
  · exact h.mapPress

theorem LedgerGrows.noteWorked {w : WorkUnit} (h : LedgerGrows s t) : LedgerGrows s (noteWorked w t) :=
  h.mapPress

theorem LedgerGrows.pressUnit {w : WorkUnit} (h : LedgerGrows s t) : LedgerGrows s (pressUnit t w) := by
  unfold Machine.pressUnit
  exact h.commitUnit.unless (·.noteWorked)

theorem LedgerGrows.runPressing {held : WorkUnit → Bool} (h : LedgerGrows s t) : LedgerGrows s (runPressing held t) :=
  h.foldl fun _ _ hu => hu.pressUnit

theorem LedgerGrows.requeueWhere {hit : WorkUnit → Bool} (h : LedgerGrows s t) : LedgerGrows s (requeueWhere hit t) := by
  unfold Machine.requeueWhere
  exact h.mapPress.bumpBy.foldl fun _ _ hu => hu.raise

theorem LedgerGrows.requeueUnits (h : LedgerGrows s t) : LedgerGrows s (requeueUnits t) :=
  h.requeueWhere

/-! ### The functions of Machine/Encode -/

theorem LedgerGrows.drawPkts {l ps : List HostPkt} (h : LedgerGrows s t) (he : drawPkts l t = .ok (ps, u)) : LedgerGrows s u := by
  induction l generalizing t ps u with
  | nil =>
    cases he
    exact h
  | cons p l ih =>
    unfold Machine.drawPkts at he
    split at he
    · cases he
    · next s1 hd =>
      have h1 : LedgerGrows s s1 := .of_snd h.drawCask hd
      split at he
      · cases he
      · next hl =>
        cases he
        exact ih h1 hl

theorem LedgerGrows.countCoded {f : Form} {p : PktBody} (h : LedgerGrows s t) : LedgerGrows s (countCoded f p t) := by
  unfold Machine.countCoded
  exact h.bumpBy.bumpBy.countSymbols

theorem LedgerGrows.issueResult {x : Instance} {d : Desc} {gt : GroupTable} {k : Nat} {ch : Chunk} {p : Prod} (h : LedgerGrows s t) :
    LedgerGrows s (issueResult x d gt k ch p t).2 := by
  unfold Machine.issueResult
  extract_lets
  split
  · exact h.bump
  · next s1 he =>
    have h1 : LedgerGrows s s1 := h.drawPkts he
    exact (LedgerGrows.ite h1.updInst (h1.updInst.foldl fun _ _ hu => hu.countCoded)).foldl fun _ _ hu => hu.sendHost

theorem LedgerGrows.issuePartial {x : Instance} {d : Desc} {gt : GroupTable} {k : Nat} {ch : Chunk} {f : Nat × Member}
    (h : LedgerGrows s t) : LedgerGrows s (issuePartial x d gt k ch f t) := by
  unfold Machine.issuePartial
  exact h.sendLine

theorem LedgerGrows.sendDone {p : HostPkt} (h : LedgerGrows s t) : LedgerGrows s (sendDone p t) :=
  h.mapHost

theorem LedgerGrows.releaseDone (h : LedgerGrows s t) : LedgerGrows s (releaseDone t) := by
  unfold Machine.releaseDone
  exact h.mapHost.foldl fun _ _ hu => hu.enqueue

theorem LedgerGrows.completeMembers {x : Instance} {d : Desc} {gt : GroupTable} (h : LedgerGrows s t) :
    LedgerGrows s (completeMembers x d gt t) := by
  unfold Machine.completeMembers
  exact h.foldl fun _ _ hu => .ite hu hu.updInst.sendDone

theorem LedgerGrows.issueInst {k : Nat} (h : LedgerGrows s t) : LedgerGrows s (issueInst t k) := by
  unfold Machine.issueInst
  split
  · exact h
  split
  · refine .ite h ?_
    extract_lets s1
    have h1 : LedgerGrows s s1 := by
      unfold s1
      refine h.foldl fun _ _ hu => (hu.foldl fun u x hu' => ?_)
      extract_lets
      split
      · exact hu'.issueResult.when (·.updInst)
      split
      · exact hu'.updInst.issuePartial
      · exact hu'.updInst
    split
    · exact .ite h1 h1.completeMembers
    · exact h1
  · exact h

theorem LedgerGrows.encodeStage (h : LedgerGrows s t) : LedgerGrows s (encodeStage t) :=
  (h.foldl fun _ _ hu => hu.issueInst).releaseDone

/-! ### The functions of Machine/CollEdge -/

theorem LedgerGrows.dropQueued {g i : Nat} (h : LedgerGrows s t) : LedgerGrows s (dropQueued g i t) := by
  unfold Machine.dropQueued
  exact h.mapQos.freeCasks

theorem LedgerGrows.enterAborting {g i code dk d : Nat} {notify : Bool} (h : LedgerGrows s t) :
    LedgerGrows s (enterAborting g i code dk d notify t) := by
  unfold Machine.enterAborting
  split
  · exact h
  refine .ite h ?_
  extract_lets
  split
  · exact h.dropQueued.freeCasks.mapPress.updInst.when (·.toFars)
  · exact h.dropQueued.freeCasks.mapPress.updInst

theorem LedgerGrows.applyAborts (h : LedgerGrows s t) : LedgerGrows s (applyAborts t) := by
  unfold Machine.applyAborts
  exact h.mapColl.foldl fun _ _ hu => hu.enterAborting

theorem LedgerGrows.keepEnded {e : EndedRec} (h : LedgerGrows s t) : LedgerGrows s (keepEnded e t) :=
  h.mapColl

theorem LedgerGrows.removeInst {g i : Nat} (h : LedgerGrows s t) : LedgerGrows s (removeInst g i t) := by
  unfold Machine.removeInst
  split
  · exact h
  · exact h.freeCasks.mapColl

theorem LedgerGrows.closeSilo {x : Instance} {code : Nat} (h : LedgerGrows s t) : LedgerGrows s (closeSilo x code t) :=
  .ite h.mapSites h.updSilo

theorem LedgerGrows.finaliseOne {x : Instance} {gt : GroupTable} {code origin : Nat} (h : LedgerGrows s t) :
    LedgerGrows s (finaliseOne x gt code origin t) := by
  unfold Machine.finaliseOne
  exact (h.foldl fun _ _ hu => hu.sendDone).keepEnded.closeSilo.removeInst.raise

theorem LedgerGrows.finaliseAborts (h : LedgerGrows s t) : LedgerGrows s (finaliseAborts t) := by
  unfold Machine.finaliseAborts
  refine h.foldl fun u x hu => ?_
  split
  · exact hu
  refine .ite hu ?_
  split
  · exact hu.removeInst
  · exact .ite hu hu.finaliseOne

theorem LedgerGrows.fatalAbort {x : Instance} (h : LedgerGrows s t) : LedgerGrows s (fatalAbort x t) := by
  unfold Machine.fatalAbort
  split
  · exact h.removeInst
  · exact h.enterAborting.finaliseOne

theorem LedgerGrows.commitLaunch {x : Instance} (h : LedgerGrows s t) : LedgerGrows s (commitLaunch t x) := by
  unfold Machine.commitLaunch
  split
  · refine .ite h.enterAborting ?_
    split
    · exact h.enterAborting
    · exact h.mapColl.putInst.freeCasks.toFars
  · exact h

theorem LedgerGrows.commitLaunches (h : LedgerGrows s t) : LedgerGrows s (commitLaunches t) := by
  unfold Machine.commitLaunches
  exact h.foldl fun _ _ hu => .ite hu hu.commitLaunch

theorem LedgerGrows.evalFences (h : LedgerGrows s t) : LedgerGrows s (evalFences t) := by
  unfold Machine.evalFences
  refine h.foldl fun u f hu => .ite hu ?_
  have h1 : LedgerGrows s (if f.sent then u else f.fars.foldl (fun b p => Machine.sendCtl p ctlFence [f.group, f.inst] [] b) u) :=
    hu.unless (·.foldl fun _ _ hv => hv.sendCtl)
  exact .ite h1.mapColl h1.mapColl

theorem LedgerGrows.testTimeouts (h : LedgerGrows s t) : LedgerGrows s (testTimeouts t) :=
  h.foldl fun _ _ hu => .ite hu.enterAborting hu

theorem LedgerGrows.endInstances (h : LedgerGrows s t) : LedgerGrows s (endInstances t) := by
  unfold Machine.endInstances
  refine h.foldl fun u x hu => ?_
  split
  · exact hu
  split
  · exact .ite hu.keepEnded.closeSilo.removeInst hu
  · exact hu

theorem LedgerGrows.discardDraining (h : LedgerGrows s t) : LedgerGrows s (discardDraining t) :=
  h.mapColl

/-! ### The functions of Machine/SitesOps -/

theorem LedgerGrows.latchSilence {g : Nat} {gt : GroupTable} (h : LedgerGrows s t) : LedgerGrows s (latchSilence g gt t) :=
  h.foldl fun _ _ hu => .ite (.ite hu.updPartner hu) (.ite hu.updPartner hu)

theorem LedgerGrows.noteAbsence {g : Nat} {gt : GroupTable} {now : Nat} (h : LedgerGrows s t) : LedgerGrows s (noteAbsence g gt now t) := by
  unfold Machine.noteAbsence
  exact ((h.foldl fun _ _ hu => hu.raise.bump).foldl fun _ _ hu => hu.raise).updGroupSites

theorem LedgerGrows.sendSiteState {port : Nat} {gs : List (Nat × Nat)} (h : LedgerGrows s t) : LedgerGrows s (sendSiteState port gs t) := by
  unfold Machine.sendSiteState
  split
  · exact h
  · exact h.sendCtl.updPartner

theorem LedgerGrows.sendSiteStates {before : State} (h : LedgerGrows s t) : LedgerGrows s (sendSiteStates before t) :=
  h.foldl fun _ _ hu => hu.sendSiteState.updPartner

theorem LedgerGrows.fallowInst {hold : Bool} {absent : Nat} {x : Instance} (h : LedgerGrows s t) :
    LedgerGrows s (fallowInst hold absent x t) := by
  unfold Machine.fallowInst
  split
  · exact .ite h (.ite h (.ite h (.ite h.updInst (.ite h (h.updInst.unless (·.mapSites))))))
  · exact h

theorem LedgerGrows.fallowEntry {g : Nat} (h : LedgerGrows s t) : LedgerGrows s (fallowEntry g t) := by
  unfold Machine.fallowEntry
  exact .ite h (h.foldl fun _ _ hu => hu.fallowInst)

theorem LedgerGrows.testFallowLimit {g : Nat} {gt : GroupTable} (h : LedgerGrows s t) : LedgerGrows s (testFallowLimit g gt t) := by
  unfold Machine.testFallowLimit
  exact .ite h.fallowLimit h

theorem LedgerGrows.resumeFault {g i : Nat} {r : Option SiloRec} (h : LedgerGrows s t) : LedgerGrows s (resumeFault g i r t) :=
  .ite h.enterAborting (.ite h.enterAborting h)

theorem LedgerGrows.resumeInst {x : Instance} (h : LedgerGrows s t) : LedgerGrows s (resumeInst x t) := by
  unfold Machine.resumeInst
  split
  · exact .ite h.updInst h.updInst.resumeFault
  · exact h

theorem LedgerGrows.closeRecord {r : SiloRec} {gt : GroupTable} {ranks : List Nat} {status flags : Nat} {counted : Bool}
    (h : LedgerGrows s t) : LedgerGrows s (closeRecord r gt ranks status flags counted t) := by
  unfold Machine.closeRecord
  exact (h.foldl fun _ _ hu => hu.enqueue).mapSites

theorem LedgerGrows.resumeRecord {r : SiloRec} (h : LedgerGrows s t) : LedgerGrows s (resumeRecord r t) := by
  unfold Machine.resumeRecord
  split
  · exact h
  · exact .ite h.closeRecord h.updSilo

theorem LedgerGrows.takeSlot {r : SiloRec} (h : LedgerGrows s t) : LedgerGrows s (takeSlot r t) := by
  unfold Machine.takeSlot
  split
  · exact h
  extract_lets d res p _ x0 x s1 s2 s3
  have h3 : LedgerGrows s s3 := h.putInst.updSilo.mapColl.resumeFault
  clear_value s3 res
  split
  · exact h3
  · exact h3.enterAborting

theorem LedgerGrows.takeSlots (h : LedgerGrows s t) : LedgerGrows s (takeSlots t) :=
  h.foldl fun _ _ hu => .ite hu.takeSlot hu

theorem LedgerGrows.primaryInst {onPrimary : Bool} {x : Instance} (h : LedgerGrows s t) : LedgerGrows s (primaryInst onPrimary x t) := by
  unfold Machine.primaryInst
  refine .ite h.updInst ?_
  extract_lets
  split
  · exact h.enterAborting.finaliseOne
  · exact h.enterAborting

theorem LedgerGrows.primaryRecord {onPrimary : Bool} {r : SiloRec} (h : LedgerGrows s t) : LedgerGrows s (primaryRecord onPrimary r t) := by
  unfold Machine.primaryRecord
  split
  · exact h
  · exact h.closeRecord

theorem LedgerGrows.presenceAgain {g : Nat} {gt : GroupTable} (h : LedgerGrows s t) : LedgerGrows s (presenceAgain g gt t) := by
  unfold Machine.presenceAgain
  extract_lets live recs side
  refine .ite ?_ (.ite ?_ h)
  · exact (h.foldl fun _ _ hu => hu.resumeInst).foldl fun _ _ hu => hu.resumeRecord
  · exact (h.foldl fun _ _ hu => hu.primaryInst).foldl fun _ _ hu => hu.primaryRecord

theorem LedgerGrows.fenceAborts (h : LedgerGrows s t) : LedgerGrows s (fenceAborts t) :=
  h.foldl fun _ _ hu => .ite hu.askAbort hu

theorem LedgerGrows.liftFence {p : Nat} (h : LedgerGrows s t) : LedgerGrows s (liftFence p t) := by
  unfold Machine.liftFence
  exact .ite h h.updPartner.raise

theorem LedgerGrows.liftFences (h : LedgerGrows s t) : LedgerGrows s (liftFences t) :=
  h.foldl fun _ _ hu => hu.liftFence

theorem LedgerGrows.decideGroup {g : Nat} {gt : GroupTable} (h : LedgerGrows s t) : LedgerGrows s (decideGroup g gt t) := by
  unfold Machine.decideGroup
  exact ((h.latchSilence.unless (·.noteAbsence)).when (·.presenceAgain)).fallowEntry.testFallowLimit

theorem LedgerGrows.decideAbsence (h : LedgerGrows s t) : LedgerGrows s (decideAbsence t) := by
  unfold Machine.decideAbsence
  refine (h.foldl fun u x hu => ?_).sendSiteStates.takeSlots
  split
  · exact hu.decideGroup
  · exact hu

/-! ### The functions of Machine/Commits -/

theorem LedgerGrows.commitGroup {g : Nat} (h : LedgerGrows s t) : LedgerGrows s (commitGroup g t) :=
  h.updGroup

theorem LedgerGrows.commitProgram {id : Nat} (h : LedgerGrows s t) : LedgerGrows s (commitProgram id t) :=
  h.mapColl

theorem LedgerGrows.swapCommit {why : Nat} (h : LedgerGrows s t) : LedgerGrows s (swapCommit why t) := by
  unfold Machine.swapCommit
  split
  · exact h
  · exact .ite h.mapOpt (.ite h.mapLine.mapOpt.raise.bump (.ite h.updPhys.mapOpt h))

theorem LedgerGrows.commitPages {port : Nat} (h : LedgerGrows s t) : LedgerGrows s (commitPages port t) := by
  unfold Machine.commitPages
  refine .ite h ?_
  extract_lets changed why s1 s2 s3 ps s4 s5
  have h2 : LedgerGrows s s2 := h.mapLine.foldl fun _ _ hu => hu.updLane
  have h4 : LedgerGrows s s4 := h2.mapOpt.foldl fun _ _ hu => hu.updLPort
  have h5 : LedgerGrows s s5 := h4.foldl fun _ _ hu => hu.raise.bump
  exact h5.raise.bump.swapCommit

theorem LedgerGrows.schedSwitch {n : Nat} (h : LedgerGrows s t) : LedgerGrows s (schedSwitch n t) :=
  h.mapQos

theorem LedgerGrows.commitItem {i : StagedItem} (h : LedgerGrows s t) : LedgerGrows s (commitItem t i) := by
  unfold Machine.commitItem
  split
  · exact h.commitGroup
  · exact h.commitProgram
  · exact h.commitPages
  · exact h.blendCommit
  · exact h.schedSwitch

theorem LedgerGrows.applyCommits (h : LedgerGrows s t) : LedgerGrows s (applyCommits t) := by
  unfold Machine.applyCommits
  exact (h.mapColl.foldl fun _ _ hu => hu.commitItem).foldl fun _ _ hu => hu.raise

theorem LedgerGrows.applyQosNext (h : LedgerGrows s t) : LedgerGrows s (applyQosNext t) := by
  unfold Machine.applyQosNext
  exact (h.foldl fun _ _ hu => .ite hu.schedSwitch hu).regSet

/-! ### The functions of Machine/TimeOps -/

theorem LedgerGrows.updRef {r : Nat} {f : RefIn → RefIn} (h : LedgerGrows s t) : LedgerGrows s (updRef r f t) :=
  h.mapTime

theorem LedgerGrows.changeSource {src : Nat} {auto : Bool} (h : LedgerGrows s t) : LedgerGrows s (changeSource src auto t) := by
  unfold Machine.changeSource
  exact .ite h.mapTime (h.mapTime.bump.when (·.raise))

theorem LedgerGrows.applySource (h : LedgerGrows s t) : LedgerGrows s (applySource t) := by
  unfold Machine.applySource
  split
  · exact .ite h.changeSource h.mapTime
  · exact h

theorem LedgerGrows.selectSource {src : Nat} (h : LedgerGrows s t) : LedgerGrows s (selectSource src t) :=
  .ite h.mapTime h.bump

theorem LedgerGrows.autoRevert (h : LedgerGrows s t) : LedgerGrows s (autoRevert t) := by
  unfold Machine.autoRevert
  refine .ite ?_ h
  split
  · exact h.mapTime
  · exact h

theorem LedgerGrows.refFail {r : Nat} (h : LedgerGrows s t) : LedgerGrows s (refFail r t) := by
  unfold Machine.refFail
  exact .ite h.updRef (.ite h.updRef.bump (.ite h.updRef.bump.raise h.updRef.bump.changeSource.raise.autoRevert))

theorem LedgerGrows.setServo {st : Nat} (h : LedgerGrows s t) : LedgerGrows s (setServo st t) :=
  h.mapTime

theorem LedgerGrows.requalify (h : LedgerGrows s t) : LedgerGrows s (requalify t) := by
  unfold Machine.requalify
  exact h.mapTime.setServo

theorem LedgerGrows.notePath {port : Nat} (h : LedgerGrows s t) : LedgerGrows s (notePath port t) := by
  unfold Machine.notePath
  exact .ite h (h.updLPort.when (·.requalify))

theorem LedgerGrows.notePaths (h : LedgerGrows s t) : LedgerGrows s (notePaths t) :=
  h.foldl fun _ _ hu => hu.notePath

theorem LedgerGrows.holdSample {theta : Int} (h : LedgerGrows s t) : LedgerGrows s (holdSample theta t) :=
  h.mapTime.bump

theorem LedgerGrows.qualify (h : LedgerGrows s t) : LedgerGrows s (qualify t) := by
  unfold Machine.qualify
  exact .ite h (.ite h.mapTime.setServo.raise h.setServo.raise)

theorem LedgerGrows.steer {theta : Int} (h : LedgerGrows s t) : LedgerGrows s (steer theta t) := by
  unfold Machine.steer
  exact h.mapTime

theorem LedgerGrows.servoSample {theta : Int} (h : LedgerGrows s t) : LedgerGrows s (servoSample theta t) := by
  unfold Machine.servoSample
  extract_lets
  split
  · exact h.mapTime.holdSample.qualify
  · exact .ite (h.mapTime.mapTime.bump.when (·.setServo.raise)) h.mapTime.holdSample.steer
  · exact h.mapTime.requalify.holdSample.qualify
  · exact h.mapTime.holdSample
  · exact h.mapTime

theorem LedgerGrows.skipPulses {k n : Nat} (h : LedgerGrows s t) : LedgerGrows s (skipPulses k n t) :=
  .ite h h.bumpBy.raise

theorem LedgerGrows.replanPulses (h : LedgerGrows s t) : LedgerGrows s (replanPulses t) :=
  h.foldl fun _ _ hu => hu.mapTime.skipPulses

theorem LedgerGrows.applyStep (h : LedgerGrows s t) : LedgerGrows s (applyStep t) := by
  unfold Machine.applyStep
  extract_lets
  split
  · exact h
  · exact h.mapTime.mapLine.requalify.replanPulses.bump.raise

/-! ### The functions of Machine/HostRows -/

theorem LedgerGrows.rxFrame {f : State → State} (h : LedgerGrows s t) (hf : ∀ u, LedgerGrows s u → LedgerGrows s (f u)) :
    LedgerGrows s (rxFrame f t) :=
  .ite (hf _ h.bump) h

theorem LedgerGrows.reserveSlot {p : Pkt} (h : LedgerGrows s t) (he : reserveSlot p t = some u) : LedgerGrows s u := by
  unfold Machine.reserveSlot at he
  split at he
  · cases he
    exact h
  split at he
  · cases he
  · cases he
    exact h.mapColl

theorem LedgerGrows.passOn {p : Pkt} {casks : List Nat} (h : LedgerGrows s t) (he : passOn p casks t = some u) : LedgerGrows s u := by
  unfold Machine.passOn at he
  split at he
  · next s1 _ hr _ =>
    have h1 : LedgerGrows s s1 := h.reserveSlot hr
    extract_lets d s2 s3 at he
    have h2 : LedgerGrows s s2 := by
      unfold s2
      split
      · exact .ite h1 h1.countSymbols
      · exact h1
    have h3 : LedgerGrows s s3 := h2.when (·.updStream)
    clear_value s3
    cases he
    exact h3.mapHost
  · cases he

theorem LedgerGrows.noRoom {id seq : Nat} {atNext : Bool} (h : LedgerGrows s t) : LedgerGrows s (noRoom id seq atNext t) := by
  unfold Machine.noRoom
  exact h.sendNack.when (·.openNack)

theorem LedgerGrows.releaseHeld {fuel id : Nat} (h : LedgerGrows s t) : LedgerGrows s (releaseHeld fuel id t) := by
  induction fuel generalizing t with
  | zero => exact h
  | succ fuel ih =>
    unfold Machine.releaseHeld
    split
    · exact h
    split
    · exact h
    extract_lets s1
    have h1 : LedgerGrows s s1 := h.updStream
    split
    · exact h1.freeCasks.noRoom
    · next he => exact ih (h1.passOn he).updStream

theorem LedgerGrows.renewGap {id : Nat} (h : LedgerGrows s t) : LedgerGrows s (renewGap id t) :=
  h.updStream

theorem LedgerGrows.nackGap {id : Nat} (h : LedgerGrows s t) : LedgerGrows s (nackGap id t) := by
  unfold Machine.nackGap
  split
  · exact h
  · exact h.sendNack.openNack

theorem LedgerGrows.payloadCask {p : Pkt} (h : LedgerGrows s t) : LedgerGrows s (payloadCask p t).2 := by
  unfold Machine.payloadCask
  split
  · exact h
  · exact h.drawCask

theorem LedgerGrows.sequenceIn {p : Pkt} {c : StreamCtx} (h : LedgerGrows s t) : LedgerGrows s (sequenceIn p c t) := by
  unfold Machine.sequenceIn
  refine .ite (h.updStream.bump.when (·.sendAck)) ?_
  refine .ite h.bump.nackGap ?_
  split
  · next s1 he =>
      have h1 : LedgerGrows s s1 := .of_snd h.payloadCask he
      exact (LedgerGrows.ite h1 h1.nackGap).noRoom
  · next s1 he =>
      have h1 : LedgerGrows s s1 := .of_snd h.payloadCask he
      refine .ite ?_ h1.updStream.nackGap
      split
      · exact h1.freeCasks.noRoom
      · next s2 he =>
          have h2 : LedgerGrows s s2 := h1.passOn he
          exact h2.updStream.releaseHeld.renewGap

theorem LedgerGrows.letGo {id seq : Nat} (h : LedgerGrows s t) : LedgerGrows s (letGo id seq t) := by
  unfold Machine.letGo
  split
  · exact h
  split
  · exact h
  · exact h.freeCasks.updStream

theorem LedgerGrows.memberGaps {id : Nat} {rs : List (Nat × Nat)} (h : LedgerGrows s t) : LedgerGrows s (memberGaps id rs t) := by
  unfold Machine.memberGaps
  split
  · exact h
  extract_lets qs kept gone s1 s2
  have h1 : LedgerGrows s s1 := by
    refine h.foldl fun _ _ hu => ?_
    split
    · exact hu.enqueue.updStream.bump
    · exact hu
  exact (h1.unless (·.sendNack.bumpBy)).when (·.bump)

theorem LedgerGrows.memberCum {id cum : Nat} (h : LedgerGrows s t) : LedgerGrows s (memberCum id cum t) := by
  unfold Machine.memberCum
  split
  · exact h
  · exact .ite h.bump ((h.foldl fun _ _ hu => hu.letGo).updStream)

theorem LedgerGrows.memberNack {p : Pkt} (h : LedgerGrows s t) : LedgerGrows s (memberNack p t) := by
  unfold Machine.memberNack
  exact (LedgerGrows.ite h.bump.memberGaps h).memberCum

theorem LedgerGrows.exchangeIn {src : Source} {udp : List Byte} (h : LedgerGrows s t) : LedgerGrows s (exchangeIn src udp t) := by
  unfold Machine.exchangeIn
  refine .ite h.countLate ?_
  refine .ite h.bump ?_
  refine .ite h.bump.raiseLimited ?_
  split
  · exact h.bump.raiseLimited
  · exact .ite h.bump.raiseLimited (.ite h.memberNack h.sequenceIn)

theorem LedgerGrows.nackRepeat {id : Nat} (h : LedgerGrows s t) : LedgerGrows s (nackRepeat id t) := by
  unfold Machine.nackRepeat
  split
  · exact h
  split
  · exact h
  · exact .ite h (.ite h.updStream.sendNack (.ite h.updStream.askAbort h.updStream.raise))

theorem LedgerGrows.ackPeriodic {id : Nat} (h : LedgerGrows s t) : LedgerGrows s (ackPeriodic id t) := by
  unfold Machine.ackPeriodic
  split
  · exact h
  · exact .ite h.sendAck h

theorem LedgerGrows.holdExpire {id seq : Nat} (h : LedgerGrows s t) : LedgerGrows s (holdExpire id seq t) := by
  unfold Machine.holdExpire
  split
  · exact h
  · exact .ite h.letGo h

theorem LedgerGrows.updPfc {p : Nat} {f : PfcPrio → PfcPrio} (h : LedgerGrows s t) : LedgerGrows s (updPfc p f t) :=
  h.mapHost

theorem LedgerGrows.pfcFrame {enabled : Nat} {quanta : List Nat} (h : LedgerGrows s t) : LedgerGrows s (pfcFrame enabled quanta t) :=
  h.bump.foldl fun _ _ hu => .ite hu.updPfc hu

theorem LedgerGrows.pfcExpire {p : Nat} (h : LedgerGrows s t) : LedgerGrows s (pfcExpire p t) := by
  unfold Machine.pfcExpire
  exact .ite h.updPfc h

theorem LedgerGrows.pfcWatchdog {p : Nat} (h : LedgerGrows s t) : LedgerGrows s (pfcWatchdog p t) :=
  .ite h.updPfc.raise h

theorem LedgerGrows.pfcIgnoreEnd {p : Nat} (h : LedgerGrows s t) : LedgerGrows s (pfcIgnoreEnd p t) := by
  unfold Machine.pfcIgnoreEnd
  exact .ite h.updPfc h

theorem LedgerGrows.pfcRefresh (h : LedgerGrows s t) : LedgerGrows s (pfcRefresh t) :=
  .ite h.sendPfc h

theorem LedgerGrows.pfcDisable (h : LedgerGrows s t) : LedgerGrows s (pfcDisable t) :=
  .ite h.bump (h.fldSet.when (·.sendPfc))

theorem LedgerGrows.icmpIn {src : Source} {dst : Nat} {payload : List Byte} (h : LedgerGrows s t) :
    LedgerGrows s (icmpIn src dst payload t) :=
  .ite h (.ite h h.mapHost.enqueue)

theorem LedgerGrows.otherFrame {cause corrected : Nat} (h : LedgerGrows s t) : LedgerGrows s (otherFrame cause corrected t) :=
  h.bump.bumpBy

theorem LedgerGrows.linkDown (h : LedgerGrows s t) : LedgerGrows s (linkDown t) :=
  .ite h.mapHost.raise h

theorem LedgerGrows.linkUpEffect (h : LedgerGrows s t) : LedgerGrows s (linkUpEffect t) := by
  unfold Machine.linkUpEffect
  exact h.mapHost.unless (·.raise.happenedNow)

/-! ### The functions of Machine/EgressRows -/

theorem LedgerGrows.updSched {n : Nat} {f : Sched → Sched} (h : LedgerGrows s t) : LedgerGrows s (updSched n f t) :=
  h.mapQos

theorem LedgerGrows.takeHead {n q len : Nat} (h : LedgerGrows s t) : LedgerGrows s (takeHead n q len t) :=
  h.updSched.bump

theorem LedgerGrows.noteDelivered {p : HostPkt} (h : LedgerGrows s t) : LedgerGrows s (noteDelivered p t) :=
  .ite h.updInst h

theorem LedgerGrows.sendSequenced {p : HostPkt} (h : LedgerGrows s t) : LedgerGrows s (sendSequenced p t) := by
  unfold Machine.sendSequenced
  split
  · exact h.freeCasks
  · exact h.updStream.emit.noteDelivered

theorem LedgerGrows.sendItem {it : EItem} {off : Nat} (h : LedgerGrows s t) : LedgerGrows s (sendItem it off t) := by
  unfold Machine.sendItem
  split
  · exact .ite h.noteDelivered.freeCasks h.sendSequenced
  · exact .ite h h.emit
  · exact .ite h h.emit
  · exact h.emit.mapTime
  · exact h.emit
  · exact h

theorem LedgerGrows.hostSelect {off : Nat} (h : LedgerGrows s t) : LedgerGrows s (hostSelect off t) := by
  unfold Machine.hostSelect
  refine .ite h ?_
  split
  · exact h.updSched
  split
  · exact h
  · exact h.updSched.takeHead.sendItem.releaseDone

theorem LedgerGrows.tokenRefill {n q : Nat} (h : LedgerGrows s t) : LedgerGrows s (tokenRefill n q t) := by
  unfold Machine.tokenRefill
  exact .ite h ((LedgerGrows.ite h.bump h).updSched)

/-! ### The functions of Machine/SecOps -/

theorem LedgerGrows.addFragment {src : Source} {l : List Byte} (h : LedgerGrows s t) : LedgerGrows s (addFragment src l t).2 := by
  unfold Machine.addFragment
  extract_lets
  split
  · exact h
  split
  · exact h
  split
  · dsimp only
    exact h.mapHost
  · dsimp only
    exact h.mapHost

theorem LedgerGrows.sendFragments {kind sid ident : Nat} {dst : Source} {body : List Byte} (h : LedgerGrows s t) :
    LedgerGrows s (sendFragments kind sid ident dst body t) := by
  unfold Machine.sendFragments
  exact h.foldl fun _ _ hu => hu.enqueue

theorem LedgerGrows.helloIn {src : Source} {ident : Nat} {b : List Byte} (h : LedgerGrows s t) : LedgerGrows s (helloIn src ident b t) := by
  unfold Machine.helloIn
  refine .ite h ?_
  extract_lets
  split
  · exact h.mapHost.raise
  · exact h.same.mapHost.sendFragments

theorem LedgerGrows.helloFragment {src : Source} {udp : List Byte} (h : LedgerGrows s t) : LedgerGrows s (helloFragment src udp t) := by
  unfold Machine.helloFragment
  refine .ite h ?_
  split
  · next s1 he =>
      have h1 : LedgerGrows s s1 := .of_snd h.addFragment he
      exact h1.helloIn
  · next s1 he =>
      have h1 : LedgerGrows s s1 := .of_snd h.addFragment he
      exact h1

theorem LedgerGrows.finishIn {udp : List Byte} {x : HalfOpen} (h : LedgerGrows s t) : LedgerGrows s (finishIn udp x t) := by
  unfold Machine.finishIn
  extract_lets
  split
  · exact h.mapHost.bump
  · exact .ite h.mapHost (h.mapHost.mapHost.when (·.mapSites))

theorem LedgerGrows.finishRx {udp : List Byte} (h : LedgerGrows s t) : LedgerGrows s (finishRx udp t) := by
  unfold Machine.finishRx
  refine .ite h ?_
  split
  · exact h.finishIn
  · exact h

theorem LedgerGrows.endSession {sid : Nat} (h : LedgerGrows s t) : LedgerGrows s (endSession sid t) := by
  unfold Machine.endSession
  exact h.mapHost.mapMgt

theorem LedgerGrows.openDatagramOf {sid kind : Nat} {udp : List Byte} {f : Nat → List Byte → State → State} (h : LedgerGrows s t)
    (hf : ∀ a b u, LedgerGrows s u → LedgerGrows s (f a b u)) : LedgerGrows s (openDatagramOf sid kind udp f t) := by
  unfold Machine.openDatagramOf
  refine .ite h ?_
  split
  · exact h
  extract_lets
  split
  · exact h.bump
  · exact .ite h.bump.raise ((hf _ _ _ h.mapHost).when (·.endSession))

theorem LedgerGrows.openDatagram {kind : Nat} {udp : List Byte} {f : Nat → List Byte → State → State} (h : LedgerGrows s t)
    (hf : ∀ a b u, LedgerGrows s u → LedgerGrows s (f a b u)) : LedgerGrows s (openDatagram kind udp f t) :=
  h.openDatagramOf hf

theorem LedgerGrows.requestIn {m seq sid : Nat} {b : List Byte} (h : LedgerGrows s t) : LedgerGrows s (requestIn m seq sid b t) := by
  unfold Machine.requestIn
  exact .ite (.ite h h.mbxSend.bump) (.ite h.mbxSend (.ite h.updMbx.mbxAnswer (.ite h.updMbx.mbxAnswer h.updMbx.mapMgt)))

theorem LedgerGrows.sessionIdle {sid : Nat} (h : LedgerGrows s t) : LedgerGrows s (sessionIdle sid t) :=
  .ite h.endSession h

theorem LedgerGrows.fwStore {slot off : Nat} {l : List Byte} (h : LedgerGrows s t) : LedgerGrows s (fwStore slot off l t) :=
  h.mapMgt

theorem LedgerGrows.bulkWrite {b : Bulk} {off : Nat} {l : List Byte} (h : LedgerGrows s t) : LedgerGrows s (bulkWrite b off l t) :=
  .ite h.regionWrite (.ite h.fwStore h)

theorem LedgerGrows.updSession {sid : Nat} {f : Session → Session} (h : LedgerGrows s t) : LedgerGrows s (updSession sid f t) :=
  h.mapHost

theorem LedgerGrows.bulkPump {fuel sid : Nat} (h : LedgerGrows s t) : LedgerGrows s (bulkPump fuel sid t) := by
  induction fuel generalizing t with
  | zero => exact h
  | succ fuel ih =>
    unfold Machine.bulkPump
    split
    · exact h
    · exact .ite h (.ite h (ih h.mbxSend.updSession))

theorem LedgerGrows.bulkAcked {sid : Nat} {b : Bulk} {off : Nat} (h : LedgerGrows s t) : LedgerGrows s (bulkAcked sid b off t) := by
  unfold Machine.bulkAcked
  exact .ite (.ite (h.updSession.when (·.mapFlt)) h.updSession.bulkPump) h

theorem LedgerGrows.bulkData {sid : Nat} {b : Bulk} {seq off : Nat} {l : List Byte} (h : LedgerGrows s t) :
    LedgerGrows s (bulkData sid b seq off l t) := by
  unfold Machine.bulkData
  exact (LedgerGrows.ite h.bulkWrite h).updSession.mbxSend

theorem LedgerGrows.bulkIn {seq sid : Nat} {body : List Byte} (h : LedgerGrows s t) : LedgerGrows s (bulkIn seq sid body t) := by
  unfold Machine.bulkIn
  split
  · exact h
  · exact .ite h (.ite h.bulkAcked h.bulkData)

theorem LedgerGrows.bulkResend {sid : Nat} (h : LedgerGrows s t) : LedgerGrows s (bulkResend sid t) := by
  unfold Machine.bulkResend
  split
  · exact h
  · exact .ite h.updSession.bulkPump h

/-! ### The functions of Machine/CtlOps -/

theorem LedgerGrows.policed {port : Nat} {f : State → State} (h : LedgerGrows s t) (hf : ∀ u, LedgerGrows s u → LedgerGrows s (f u)) :
    LedgerGrows s (policed port f t) := by
  unfold Machine.policed
  exact .ite (hf _ h.updSched) h.updSched.bump.raisePort

theorem LedgerGrows.pruneTxKeys {p : Nat} (h : LedgerGrows s t) : LedgerGrows s (pruneTxKeys p t) := by
  unfold Machine.pruneTxKeys
  exact h.updKeys

theorem LedgerGrows.deriveRx {p : Nat} (h : LedgerGrows s t) : LedgerGrows s (deriveRx p t) :=
  h.updKeys

/-! ### The functions of Machine/BruOps -/

theorem LedgerGrows.runCheck (h : LedgerGrows s t) : LedgerGrows s (runCheck t) :=
  .ite h (h.mapBru.unless (·.bump))

theorem LedgerGrows.trialPassed (h : LedgerGrows s t) : LedgerGrows s (trialPassed t) :=
  .ite h h.mapMgt

theorem LedgerGrows.stepTen (h : LedgerGrows s t) : LedgerGrows s (stepTen t) := by
  unfold Machine.stepTen
  exact h.mapBru.mapBru.runCheck.trialPassed

theorem LedgerGrows.bruEdge (h : LedgerGrows s t) : LedgerGrows s (bruEdge t) :=
  .ite (.ite h.stepTen h) (.ite h.runCheck.mapBru h.mapBru)

theorem LedgerGrows.becomeReady (h : LedgerGrows s t) : LedgerGrows s (becomeReady t) :=
  .ite h.mapBru.fldSet.mapSites h

theorem LedgerGrows.applyLock (h : LedgerGrows s t) : LedgerGrows s (applyLock t) :=
  .ite h.mapMgt h

/-! ### The functions of Machine/PairRows -/

theorem LedgerGrows.sendPair {p : Nat} {body : List Byte} (h : LedgerGrows s t) : LedgerGrows s (sendPair p body t) :=
  h.updPartner

theorem LedgerGrows.sendHello {p : Nat} (h : LedgerGrows s t) : LedgerGrows s (sendHello p t) :=
  h.sendPair.updKeys

theorem LedgerGrows.beginPairing {p : Nat} (h : LedgerGrows s t) : LedgerGrows s (beginPairing p t) :=
  h.same.updKeys.updPartner.sendHello

theorem LedgerGrows.pairFail {p reason : Nat} (h : LedgerGrows s t) : LedgerGrows s (pairFail p reason t) := by
  unfold Machine.pairFail
  exact h.updKeys.raise.bump.happenedNow

theorem LedgerGrows.answerHello {p : Nat} {b : List Byte} (h : LedgerGrows s t) : LedgerGrows s (answerHello p b t) :=
  h.same.updKeys.sendPair

theorem LedgerGrows.helloRx {p : Nat} {b : List Byte} (h : LedgerGrows s t) : LedgerGrows s (helloRx p b t) := by
  unfold Machine.helloRx
  refine .ite h ?_
  extract_lets
  split
  · exact (LedgerGrows.ite h.beginPairing h).pairFail
  · exact (LedgerGrows.ite h.beginPairing h).answerHello

theorem LedgerGrows.helloRepeat {p : Nat} (h : LedgerGrows s t) : LedgerGrows s (helloRepeat p t) := by
  unfold Machine.helloRepeat
  exact .ite h (.ite h.beginPairing (.ite h.sendHello h))

theorem LedgerGrows.firstKeys {p : Nat} {encapRx ssPartner : List Byte} (h : LedgerGrows s t) :
    LedgerGrows s (firstKeys p encapRx ssPartner t) := by
  unfold Machine.firstKeys
  exact h.updKeys.sendPair

theorem LedgerGrows.encapRx {p : Nat} {b : List Byte} (h : LedgerGrows s t) : LedgerGrows s (encapRx p b t) := by
  unfold Machine.encapRx
  exact .ite h (.ite h.pairFail h.firstKeys)

theorem LedgerGrows.restartTribs {p : Nat} {keep : Bool} (h : LedgerGrows s t) : LedgerGrows s (restartTribs p keep t) := by
  unfold Machine.restartTribs
  exact .ite h.mapLine ((h.mapLine.foldl fun _ _ hu => hu.askAbort).mapLine.ringEval.updPartner)

theorem LedgerGrows.restartControl {p : Nat} (h : LedgerGrows s t) : LedgerGrows s (restartControl p t) := by
  unfold Machine.restartControl
  exact h.updPartner.updTrib

theorem LedgerGrows.paired {p : Nat} (h : LedgerGrows s t) : LedgerGrows s (paired p t) := by
  unfold Machine.paired
  exact h.updKeys.restartTribs.restartControl.updPartner.raise.bump.happenedNow

theorem LedgerGrows.confirmRx {p : Nat} {b : List Byte} (h : LedgerGrows s t) : LedgerGrows s (confirmRx p b t) := by
  unfold Machine.confirmRx
  exact .ite h (.ite h.paired h.pairFail)

theorem LedgerGrows.pairTimeout {p : Nat} (h : LedgerGrows s t) : LedgerGrows s (pairTimeout p t) := by
  unfold Machine.pairTimeout
  exact .ite h.pairFail h

theorem LedgerGrows.pairRetry {p : Nat} (h : LedgerGrows s t) : LedgerGrows s (pairRetry p t) := by
  unfold Machine.pairRetry
  exact .ite h.beginPairing h

theorem LedgerGrows.repair {p : Nat} (h : LedgerGrows s t) : LedgerGrows s (repair p t) :=
  .ite (.ite h.beginPairing h.updKeys.updPartner) h

theorem LedgerGrows.repairNoBlock {p : Nat} (h : LedgerGrows s t) : LedgerGrows s (repairNoBlock p t) :=
  .ite h.repair h

theorem LedgerGrows.reseal {p old : Nat} (h : LedgerGrows s t) : LedgerGrows s (reseal p old t) :=
  h.foldl fun _ _ hu => hu.updTrib.updKeys

theorem LedgerGrows.resealOldest {p : Nat} (h : LedgerGrows s t) : LedgerGrows s (resealOldest p t) := by
  unfold Machine.resealOldest
  split
  · exact h.reseal.pruneTxKeys
  · exact h

theorem LedgerGrows.rackBegin {p : Nat} (h : LedgerGrows s t) : LedgerGrows s (rackBegin p t) :=
  .ite h h.resealOldest.updKeys.sendCtl

theorem LedgerGrows.rackSwitch {p : Nat} (h : LedgerGrows s t) : LedgerGrows s (rackSwitch p t) := by
  unfold Machine.rackSwitch
  exact .ite h.updKeys.pruneTxKeys.raise.bump h

theorem LedgerGrows.announceRx {p dir count kcv : Nat} (h : LedgerGrows s t) : LedgerGrows s (announceRx p dir count kcv t) := by
  unfold Machine.announceRx
  exact .ite h (.ite ((LedgerGrows.ite h.deriveRx h).sendCtl) ((LedgerGrows.ite h.deriveRx h).raise.repair))

theorem LedgerGrows.windowClose {p : Nat} (h : LedgerGrows s t) : LedgerGrows s (windowClose p t) :=
  .ite h.updKeys h

theorem LedgerGrows.updUce {f : Uce → Uce} (h : LedgerGrows s t) : LedgerGrows s (updUce f t) :=
  h.mapSec

theorem LedgerGrows.uceClaims {claims : List (Nat × Nat)} (h : LedgerGrows s t) : LedgerGrows s (uceClaims claims t) := by
  unfold Machine.uceClaims
  exact h.updUce.bumpBy

theorem LedgerGrows.uceRelease {src gen : Nat} (h : LedgerGrows s t) : LedgerGrows s (uceRelease src gen t) :=
  .ite h.updUce h

theorem LedgerGrows.uceTimeout (h : LedgerGrows s t) : LedgerGrows s (uceTimeout t) := by
  unfold Machine.uceTimeout
  exact .ite h.updUce.raise.bump h

/-! ### The functions of Machine/PmOps -/

theorem LedgerGrows.putBin {b : PmBin} (h : LedgerGrows s t) : LedgerGrows s (putBin b t) := by
  unfold Machine.putBin
  exact h.mapLine

theorem LedgerGrows.pmThreshold {scope kind : Nat} (h : LedgerGrows s t) : LedgerGrows s (pmThreshold scope kind t) := by
  unfold Machine.pmThreshold
  split
  · exact h
  refine .ite h (h.foldl fun u x hu => ?_)
  split
  · refine .ite ?_ hu
    extract_lets
    split
    · exact hu.raise.putBin
    · exact hu.raise
  · exact hu

theorem LedgerGrows.pmUpdate {scope : Nat} {f : List Int → List Int} (h : LedgerGrows s t) : LedgerGrows s (pmUpdate scope f t) :=
  .ite h (h.foldl fun _ _ hu => hu.putBin.pmThreshold)

theorem LedgerGrows.pmAdd {scope i n : Nat} (h : LedgerGrows s t) : LedgerGrows s (pmAdd scope i n t) :=
  .ite h h.pmUpdate

theorem LedgerGrows.updSecond {scope : Nat} {f : PmSecond → PmSecond} (h : LedgerGrows s t) : LedgerGrows s (updSecond scope f t) :=
  h.mapLine

theorem LedgerGrows.pmFrame {scope : Nat} {bad : Bool} (h : LedgerGrows s t) : LedgerGrows s (pmFrame scope bad t) :=
  h.updSecond

theorem LedgerGrows.pmBadBlock {scope : Nat} (h : LedgerGrows s t) : LedgerGrows s (pmBadBlock scope t) :=
  h.updSecond

theorem LedgerGrows.pmDefect {scope : Nat} (h : LedgerGrows s t) : LedgerGrows s (pmDefect scope t) :=
  h.updSecond

/-! ### The functions of Machine/SelectRows -/

theorem LedgerGrows.transmit {n seq : Nat} {r : RingBlock} {resent : Bool} (h : LedgerGrows s t) :
    LedgerGrows s (transmit n seq r resent t) := by
  unfold Machine.transmit
  split
  · exact h
  · exact h.sealBlock.updTrib

theorem LedgerGrows.refuseBlock {p : LinePartial} (h : LedgerGrows s t) : LedgerGrows s (refuseBlock p t) :=
  h.raise.bump.askAbort

theorem LedgerGrows.buildBlock {n : Nat} {p : LinePartial} (h : LedgerGrows s t) : LedgerGrows s (buildBlock n p t) := by
  unfold Machine.buildBlock
  split
  · exact h
  extract_lets b body len s0 s1
  have h1 : LedgerGrows s s1 := h.bumpBy.bumpBy.unless (·.countSymbols)
  exact .ite h1.refuseBlock h1.updTrib.transmit.ringEval.pmAdd.pmFrame

theorem LedgerGrows.lineSelect {port : Nat} (h : LedgerGrows s t) : LedgerGrows s (lineSelect port t) := by
  unfold Machine.lineSelect
  refine .ite h ?_
  split
  · exact h.updSched
  split
  · exact h
  extract_lets
  split
  · exact h.updSched.takeHead.buildBlock
  · exact h.updSched.takeHead

theorem LedgerGrows.sampleQueue {n q : Nat} (h : LedgerGrows s t) : LedgerGrows s (sampleQueue n q t) := by
  unfold Machine.sampleQueue
  exact h.updSched

theorem LedgerGrows.queueSample (h : LedgerGrows s t) : LedgerGrows s (queueSample t) :=
  .ite h ((h.foldl fun _ _ hu => .ite hu hu.sampleQueue).mapQos)

theorem LedgerGrows.resendBlock {n seq : Nat} (h : LedgerGrows s t) : LedgerGrows s (resendBlock n seq t) := by
  unfold Machine.resendBlock
  split
  · exact h
  split
  · exact h
  · exact h.updTrib.transmit.pmAdd.pmAdd.pmBadBlock.bump

/-! ### The functions of Machine/TimeRows -/

theorem LedgerGrows.ptpIn {domain transport : Nat} {f : State → State} (h : LedgerGrows s t)
    (hf : ∀ u, LedgerGrows s u → LedgerGrows s (f u)) : LedgerGrows s (ptpIn domain transport f t) :=
  .ite h (.ite h.bump (hf _ h))

theorem LedgerGrows.followMaster (h : LedgerGrows s t) : LedgerGrows s (followMaster t) := by
  unfold Machine.followMaster
  exact .ite h.mapTime (h.mapTime.mapTime.bump.raise.when (·.requalify))

theorem LedgerGrows.announceIn {m : PtpMaster} (h : LedgerGrows s t) : LedgerGrows s (announceIn m t) := by
  unfold Machine.announceIn
  exact h.mapTime.followMaster

theorem LedgerGrows.announceTimeout (h : LedgerGrows s t) : LedgerGrows s (announceTimeout t) := by
  unfold Machine.announceTimeout
  split
  · exact h
  split
  · exact .ite h.mapTime.followMaster h
  · exact h.followMaster

theorem LedgerGrows.syncIn {identity port seq : Nat} {twoStep : Bool} {t1 : Nat} {corr : Int} {off : Nat} (h : LedgerGrows s t) :
    LedgerGrows s (syncIn identity port seq twoStep t1 corr off t) :=
  .ite h.bump h.mapTime

theorem LedgerGrows.followUpIn {identity port seq t1 : Nat} {corr : Int} (h : LedgerGrows s t) :
    LedgerGrows s (followUpIn identity port seq t1 corr t) :=
  .ite h.bump h.mapTime

theorem LedgerGrows.delayReq (h : LedgerGrows s t) : LedgerGrows s (delayReq t) := by
  unfold Machine.delayReq
  split
  · exact h
  · exact .ite h h.mapTime.enqueue

theorem LedgerGrows.delayRespIn {identity port seq t4 : Nat} {corr : Int} (h : LedgerGrows s t) :
    LedgerGrows s (delayRespIn identity port seq t4 corr t) := by
  unfold Machine.delayRespIn
  refine .ite h.bump ?_
  split
  · exact h.mapTime.when (·.servoSample)
  · exact h

theorem LedgerGrows.holdover (h : LedgerGrows s t) : LedgerGrows s (holdover t) :=
  .ite h.setServo.raise h

theorem LedgerGrows.timeInvalid (h : LedgerGrows s t) : LedgerGrows s (timeInvalid t) :=
  .ite h.mapTime.raise h

theorem LedgerGrows.sourceWrite {v : Nat} (h : LedgerGrows s t) : LedgerGrows s (sourceWrite v t) := by
  unfold Machine.sourceWrite
  exact .ite h.bump (.ite h h.regSet.requalify)

theorem LedgerGrows.servoEnWrite {on : Bool} (h : LedgerGrows s t) : LedgerGrows s (servoEnWrite on t) := by
  unfold Machine.servoEnWrite
  exact h.fldSet.unless (·.requalify)

theorem LedgerGrows.pulseWrite {k v : Nat} (h : LedgerGrows s t) : LedgerGrows s (pulseWrite k v t) := by
  unfold Machine.pulseWrite
  exact (h.regSet.when (·.bump)).mapTime.skipPulses

theorem LedgerGrows.pulseEdge {k : Nat} (h : LedgerGrows s t) : LedgerGrows s (pulseEdge k t) := by
  unfold Machine.pulseEdge
  extract_lets
  split
  · exact h
  · exact .ite h ((LedgerGrows.ite h h.emit).mapTime)

theorem LedgerGrows.judgeRef {r : Nat} {dev other vsOther : Int} {otherGood : Bool} (h : LedgerGrows s t) :
    LedgerGrows s (judgeRef r dev other vsOther otherGood t) := by
  unfold Machine.judgeRef
  exact .ite (.ite h.updRef (h.updRef.updRef.when (·.happenedNow.autoRevert))) (h.updRef.updRef.unless (·.refFail))

theorem LedgerGrows.refWindow {a b ab : Int} (h : LedgerGrows s t) : LedgerGrows s (refWindow a b ab t) := by
  unfold Machine.refWindow
  exact (LedgerGrows.ite h.raise.bump h).judgeRef.judgeRef

theorem LedgerGrows.xtalStable (h : LedgerGrows s t) : LedgerGrows s (xtalStable t) := by
  unfold Machine.xtalStable
  extract_lets
  split
  · exact h.mapTime.when (·.selectSource)
  · exact h.mapTime

theorem LedgerGrows.xtalFail (h : LedgerGrows s t) : LedgerGrows s (xtalFail t) := by
  unfold Machine.xtalFail
  exact .ite h.mapTime.raise h.mapTime.raise

/-! ### The functions of Machine/RegRead -/

theorem LedgerGrows.latchRead {a : Nat} (h : LedgerGrows s t) : LedgerGrows s (latchRead a t) := by
  unfold Machine.latchRead
  split
  · exact h.mapMgt
  · exact h.mapTime
  · exact h.mapPress
  · exact h.mapMem
  · exact h.mapFlt
  · exact h

theorem LedgerGrows.clearRead {a : Nat} (h : LedgerGrows s t) : LedgerGrows s (clearRead a t) := by
  unfold Machine.clearRead
  refine .ite h ?_
  split
  · exact h.mapCellar
  · exact h.regSet

theorem LedgerGrows.readEffect {a : Nat} (h : LedgerGrows s t) : LedgerGrows s (readEffect a t) :=
  h.latchRead.clearRead

/-! ### The functions of Machine/MbxSys -/

theorem LedgerGrows.regionOut {hd off : Nat} {d : List Byte} (h : LedgerGrows s t) : LedgerGrows s (regionOut hd off d t).state := by
  unfold Machine.regionOut
  split
  · exact h.refuse
  split
  · exact h.refuse
  split
  · exact h.refuse
  · exact h.regionWrite.doneWith

theorem LedgerGrows.subscribe {sid from_ cls : Nat} (h : LedgerGrows s t) : LedgerGrows s (subscribe sid from_ cls t) := by
  unfold Machine.subscribe
  exact (h.foldl fun _ _ hu => hu.mbxSend).updSession

theorem LedgerGrows.acceptCommit {edge : Nat} {items : List StagedItem} (h : LedgerGrows s t) :
    LedgerGrows s (acceptCommit edge items t).state := by
  unfold Machine.acceptCommit
  exact h.mapColl.ledgerWrite.doneWith

theorem LedgerGrows.sysCommit {byTime : Bool} {at_ : Nat} {items : List StagedItem} (h : LedgerGrows s t) :
    LedgerGrows s (sysCommit byTime at_ items t).state := by
  unfold Machine.sysCommit
  split
  · exact h.refuse
  · exact h.acceptCommit

theorem LedgerGrows.sysWithdraw {id : Nat} (h : LedgerGrows s t) : LedgerGrows s (sysWithdraw id t).state := by
  unfold Machine.sysWithdraw
  split
  · split
    · exact h.refuse
    · exact h.mapColl.done
  · exact h.refuse

theorem LedgerGrows.manifestInstall {region off len : Nat} (h : LedgerGrows s t) :
    LedgerGrows s (manifestInstall region off len t).state := by
  unfold Machine.manifestInstall
  split
  · exact h.refuse
  split
  · exact h.refuse
  split
  · exact h.refuse
  · exact (h.mapBru.foldl fun _ _ hu => hu.happenedNow).done

theorem LedgerGrows.twinHello (h : LedgerGrows s t) : LedgerGrows s (twinHello t) := by
  unfold Machine.twinHello
  exact h.takeFree.mapSites.sendFragments

theorem LedgerGrows.shadowJoin {peer : List Byte} {src : Source} (h : LedgerGrows s t) : LedgerGrows s (shadowJoin peer src t).state := by
  unfold Machine.shadowJoin
  split
  · exact h.refuse
  split
  · exact h.refuse
  · exact h.mapSites.mapLine.twinHello.done

theorem LedgerGrows.shadowAccept {peer : List Byte} {src : Source} (h : LedgerGrows s t) :
    LedgerGrows s (shadowAccept peer src t).state := by
  unfold Machine.shadowAccept
  split
  · exact h.refuse
  split
  · exact h.refuse
  · exact h.mapSites.done

theorem LedgerGrows.shadowPromote {at_ : Nat} {peerOk : Bool} (h : LedgerGrows s t) : LedgerGrows s (shadowPromote at_ peerOk t).state := by
  unfold Machine.shadowPromote
  split
  · exact h.refuse
  extract_lets
  split
  · exact (h.mapSites.foldl fun _ _ hu => .ite hu.sendCtl hu).done
  · exact h.mapSites.done

/-! ### The functions of Machine/MbxColl -/

theorem LedgerGrows.groupStage {entry : List Byte} {members : List (List Byte)} (h : LedgerGrows s t) :
    LedgerGrows s (groupStage entry members t).state := by
  unfold Machine.groupStage
  extract_lets
  split
  · exact h.refuse
  split
  · exact h.refuse
  · exact h.mapColl.done

theorem LedgerGrows.groupRead {g : Nat} (h : LedgerGrows s t) : LedgerGrows s (groupRead g t).state := by
  unfold Machine.groupRead
  split
  · exact h.refuse
  extract_lets
  split
  · exact h.refuse
  · exact h.doneWith

theorem LedgerGrows.streamOpen {id endpoint : Nat} {v6 : Bool} {port addr inInit outInit : Nat} (h : LedgerGrows s t) :
    LedgerGrows s (streamOpen id endpoint v6 port addr inInit outInit t).state := by
  unfold Machine.streamOpen
  split
  · exact h.refuse
  split
  · exact h.refuse
  · exact h.same.mapHost.done

theorem LedgerGrows.streamClose {id : Nat} (h : LedgerGrows s t) : LedgerGrows s (streamClose id t).state := by
  unfold Machine.streamClose
  split
  · exact h.refuse
  split
  · exact h.refuse
  · exact h.mapHost.freeCasks.done

theorem LedgerGrows.opStat {g i : Nat} (h : LedgerGrows s t) : LedgerGrows s (opStat g i t).state := by
  unfold Machine.opStat
  split
  · exact h.doneWith
  split
  · exact h.mapColl.doneWith
  · exact h.refuse

theorem LedgerGrows.opList {first : Nat} (h : LedgerGrows s t) : LedgerGrows s (opList first t).state := by
  unfold Machine.opList
  exact h.doneWith

theorem LedgerGrows.opAbort {g i : Nat} (h : LedgerGrows s t) : LedgerGrows s (opAbort g i t).state := by
  unfold Machine.opAbort
  split
  · exact h.askAbort.done
  · exact h.refuse

theorem LedgerGrows.progLoad {id region off len : Nat} (h : LedgerGrows s t) : LedgerGrows s (progLoad id region off len t).state := by
  unfold Machine.progLoad
  split
  · exact h.refuse
  extract_lets
  split
  · exact h.refuse
  extract_lets
  split
  · exact h.refuse
  split
  · exact h.refuse
  split
  · exact h.refuse
  · exact h.mapColl.done

theorem LedgerGrows.progUnload {id : Nat} (h : LedgerGrows s t) : LedgerGrows s (progUnload id t).state := by
  unfold Machine.progUnload
  split
  · exact h.refuse
  split
  · exact h.refuse
  · exact h.mapColl.done

theorem LedgerGrows.progList (h : LedgerGrows s t) : LedgerGrows s (progList t).state := by
  unfold Machine.progList
  exact h.doneWith

theorem LedgerGrows.dramClear {a n : Nat} (h : LedgerGrows s t) : LedgerGrows s (dramClear a n t) :=
  h.mapMem

theorem LedgerGrows.regionCreate {size : Nat} (h : LedgerGrows s t) : LedgerGrows s (regionCreate size t).state := by
  unfold Machine.regionCreate
  split
  · exact h.refuse
  split
  · exact h.mapMem.dramClear.doneWith
  · exact h.refuse

theorem LedgerGrows.regionFree {hd : Nat} (h : LedgerGrows s t) : LedgerGrows s (regionFree hd t).state := by
  unfold Machine.regionFree
  split
  · exact h.refuse
  split
  · exact h.refuse
  · exact h.mapMem.done

theorem LedgerGrows.regionPut {hd off : Nat} {d : List Byte} (h : LedgerGrows s t) : LedgerGrows s (regionPut hd off d t).state := by
  unfold Machine.regionPut
  split
  · exact h.refuse
  split
  · exact h.refuse
  refine .ite_state h.refuse (.ite_state h.refuse ?_)
  exact .ite_state h.refuse h.regionWrite.done

theorem LedgerGrows.bulkOpen {sid kind target off len : Nat} {sending : Bool} (h : LedgerGrows s t) :
    LedgerGrows s (bulkOpen sid kind target off len sending t).state := by
  unfold Machine.bulkOpen
  split
  · exact h.refuse
  split
  · exact h.refuse
  · exact LedgerGrows.done (LedgerGrows.bulkPump h.updSession)

/-! ### The functions of Machine/LinePages -/

theorem LedgerGrows.sendPageOffer {port : Nat} {o : PageSet} (h : LedgerGrows s t) : LedgerGrows s (sendPageOffer port o t) :=
  h.updLPort.sendCtl

theorem LedgerGrows.stageSet {why : Nat} {pages : PageView} (h : LedgerGrows s t) : LedgerGrows s (stageSet why pages t) := by
  unfold Machine.stageSet
  exact h.mapLine.foldl fun _ _ hu => .ite hu.updLPort hu.updLPort.sendPageOffer

theorem LedgerGrows.pageStage {lane : Nat} {p : List Byte} (h : LedgerGrows s t) : LedgerGrows s (pageStage lane p t).state := by
  unfold Machine.pageStage
  split
  · exact h.refuse
  split
  · exact h.refuseD
  · exact h.stageSet.doneWith

theorem LedgerGrows.reoffer {port : Nat} (h : LedgerGrows s t) : LedgerGrows s (reoffer port t) := by
  unfold Machine.reoffer
  exact .ite h.sendPageOffer h

theorem LedgerGrows.standbyDiscard {port : Nat} (h : LedgerGrows s t) : LedgerGrows s (standbyDiscard port t) :=
  .ite h h.mapLine

theorem LedgerGrows.requestRevert {port : Nat} (h : LedgerGrows s t) : LedgerGrows s (requestRevert port t) :=
  .ite h.updLPort h.bump

theorem LedgerGrows.wantedReverts (h : LedgerGrows s t) : LedgerGrows s (wantedReverts t) :=
  h.foldl fun _ _ hu => .ite hu.updLPort.requestRevert hu

theorem LedgerGrows.startFarChecks (h : LedgerGrows s t) : LedgerGrows s (startFarChecks t) :=
  h.foldl fun _ _ hu => .ite hu hu.updPhys

theorem LedgerGrows.applyReverts (h : LedgerGrows s t) : LedgerGrows s (applyReverts t) := by
  unfold Machine.applyReverts
  exact h.wantedReverts.when (·.mapLine.startFarChecks)

theorem LedgerGrows.sendReject {port id : Nat} {f : PageFault} (h : LedgerGrows s t) : LedgerGrows s (sendReject port id f t) :=
  h.sendCtl.bump

theorem LedgerGrows.supersede {port : Nat} {o : PageSet} (h : LedgerGrows s t) : LedgerGrows s (supersede port o t) := by
  unfold Machine.supersede
  extract_lets
  split
  · exact .ite h.updLPort.sendReject h
  · exact h

theorem LedgerGrows.holdSet {port : Nat} {o : PageSet} (h : LedgerGrows s t) : LedgerGrows s (holdSet port o t) :=
  h.updLPort

theorem LedgerGrows.offerRx {port : Nat} {b : List Byte} (h : LedgerGrows s t) : LedgerGrows s (offerRx port b t) := by
  unfold Machine.offerRx
  split
  · exact h.sendReject
  split
  · exact h.sendReject
  · exact h.supersede.holdSet.sendCtl

theorem LedgerGrows.autoCommit {port : Nat} (h : LedgerGrows s t) : LedgerGrows s (autoCommit port t) := by
  unfold Machine.autoCommit
  exact .ite h.acceptCommit h

theorem LedgerGrows.rejectRx {port id reason : Nat} (h : LedgerGrows s t) : LedgerGrows s (rejectRx port id reason t) := by
  unfold Machine.rejectRx
  exact .ite h.bump.reoffer (h.bump.when (·.updLPort))

theorem LedgerGrows.readyRx {port : Nat} {b : List Byte} (h : LedgerGrows s t) : LedgerGrows s (readyRx port b t) := by
  unfold Machine.readyRx
  split
  · exact h
  · exact .ite h (.ite h.rejectRx (.ite h.updLPort (.ite h.updLPort h.updLPort.autoCommit)))

theorem LedgerGrows.degrCompute {pages : List (List Byte)} (h : LedgerGrows s t) : LedgerGrows s (degrCompute pages t) := by
  unfold Machine.degrCompute
  exact .ite h (h.mapLine.foldl fun _ _ hu => .ite hu hu.sendPageOffer)

theorem LedgerGrows.doubleRepage {pages : List (List Byte)} (h : LedgerGrows s t) : LedgerGrows s (doubleRepage pages t) := by
  unfold Machine.doubleRepage
  exact .ite h h.stageSet

theorem LedgerGrows.setDiscard {port : Nat} (h : LedgerGrows s t) : LedgerGrows s (setDiscard port t) :=
  .ite h.updLPort h

/-! ### The functions of Machine/LineTx -/

theorem LedgerGrows.mapBlock {n : Nat} {front : Bool} {b : List Byte} (h : LedgerGrows s t) : LedgerGrows s (mapBlock n front b t) :=
  h.updTrib

theorem LedgerGrows.sendPairing {p : Nat} (h : LedgerGrows s t) : LedgerGrows s (sendPairing p t) := by
  unfold Machine.sendPairing
  exact h.updPartner.foldl fun _ _ hu => .ite hu.sealBlock.mapBlock hu.mapBlock

theorem LedgerGrows.sendControl {p : Nat} (h : LedgerGrows s t) : LedgerGrows s (sendControl p t) := by
  unfold Machine.sendControl
  exact .ite h (.ite h h.sealBlock.updPartner.mapBlock)

theorem LedgerGrows.resendControl {p seq : Nat} (h : LedgerGrows s t) : LedgerGrows s (resendControl p seq t) := by
  unfold Machine.resendControl
  split
  · exact h.updTrib
  · exact h.sealBlock.updTrib.updPartner.mapBlock.pmAdd.bump

theorem LedgerGrows.sendResends (h : LedgerGrows s t) : LedgerGrows s (sendResends t) :=
  h.foldl fun _ _ hu => (hu.foldl fun _ _ hu' => (.ite hu' (.ite hu'.resendControl hu'.resendBlock)))

theorem LedgerGrows.sendAcks (h : LedgerGrows s t) : LedgerGrows s (sendAcks t) :=
  h.foldl fun _ _ hu => .ite hu.sendTribAck hu

theorem LedgerGrows.tribFrame {last : Bool} {n : Nat} (h : LedgerGrows s t) : LedgerGrows s (tribFrame last n t).2 := by
  unfold Machine.tribFrame
  split
  · exact h
  split
  · exact h
  · exact ((h.updTrib.when (·.bump.raisePort)).bumpBy.bumpBy.pmAdd.pmAdd).unless (·.pmAdd.pmAdd)

theorem LedgerGrows.sendSlot {n slot : Nat} {page : List Byte} {tribs : List TribFrame} (h : LedgerGrows s t) :
    LedgerGrows s (sendSlot n slot page tribs t) := by
  unfold Machine.sendSlot
  exact .ite h (.ite h.bump h.emit.updLane)

theorem LedgerGrows.sheafFrameTx {id : Nat} (h : LedgerGrows s t) : LedgerGrows s (sheafFrameTx id t).2 := by
  unfold Machine.sheafFrameTx
  exact h.updTrib

theorem LedgerGrows.sheafFrames (h : LedgerGrows s t) : LedgerGrows s (sheafFrames t).2 := by
  unfold Machine.sheafFrames
  exact LedgerGrows.foldl_snd (p := ([], t)) h fun _ _ hp => hp.sheafFrameTx

theorem LedgerGrows.sendXhSlot {ms : List ((Nat × Nat × Nat) × List Byte)} {n slot : Nat} (h : LedgerGrows s t) :
    LedgerGrows s (sendXhSlot ms n slot t) :=
  h.same.emit

theorem LedgerGrows.sendXhLane {ms : List ((Nat × Nat × Nat) × List Byte)} {n : Nat} (h : LedgerGrows s t) :
    LedgerGrows s (sendXhLane ms n t) :=
  .ite h ((h.foldl fun _ _ hu => hu.sendXhSlot).bump)

theorem LedgerGrows.sendXh (h : LedgerGrows s t) : LedgerGrows s (sendXh t) := by
  unfold Machine.sendXh
  extract_lets r
  exact LedgerGrows.foldl (t := r.2) h.sheafFrames fun _ _ hu => hu.sendXhLane

theorem LedgerGrows.sendLane {tribs : List TribFrame} {n : Nat} (h : LedgerGrows s t) : LedgerGrows s (sendLane tribs n t) := by
  unfold Machine.sendLane
  split
  · exact h
  · exact .ite h ((h.foldl fun _ _ hu => hu.sendSlot).bump)

theorem LedgerGrows.frameStart (h : LedgerGrows s t) : LedgerGrows s (frameStart t) := by
  unfold Machine.frameStart
  extract_lets s1 s2 last s3 r
  have h1 : LedgerGrows s s1 := h.applyReverts.sendAcks.sendResends
  have h2 : LedgerGrows s s2 := h1.foldl fun _ _ hu => hu.sendPairing.sendControl
  have h3 : LedgerGrows s s3 := h2.foldl fun _ _ hu => hu.unless (·.bump)
  clear_value s3
  have hr : LedgerGrows s r.2 := by
    refine LedgerGrows.foldl_snd ?_ fun _ _ hp => hp.tribFrame
    exact h3
  exact (hr.foldl fun _ _ hu => hu.sendLane).sendXh

theorem LedgerGrows.keepalive {p : Nat} (h : LedgerGrows s t) : LedgerGrows s (keepalive p t) :=
  .ite h.sendCtl h

theorem LedgerGrows.ackIdle {n : Nat} (h : LedgerGrows s t) : LedgerGrows s (ackIdle n t) := by
  unfold Machine.ackIdle
  split
  · exact h
  · exact .ite h.sendTribAck h

theorem LedgerGrows.nackAgain {n : Nat} {tr : Trib} {due : SMap LineNack} {reason : Nat} (h : LedgerGrows s t) :
    LedgerGrows s (nackAgain n tr due reason t) := by
  unfold Machine.nackAgain
  exact h.nackMessages.updTrib.foldl fun _ _ hu => hu.raise

theorem LedgerGrows.nackRepeats {n : Nat} (h : LedgerGrows s t) : LedgerGrows s (nackRepeats n t) := by
  unfold Machine.nackRepeats
  split
  · exact h
  · exact h.foldl fun _ _ hu => hu.nackAgain

theorem LedgerGrows.resendTimer {n : Nat} (h : LedgerGrows s t) : LedgerGrows s (resendTimer n t) := by
  unfold Machine.resendTimer
  split
  · exact h
  extract_lets
  split
  · split
    · exact .ite h.updTrib.updPartner h
    · exact h
  split
  · exact .ite h.updTrib h
  · exact h

/-! ### The functions of Machine/OptOps -/

theorem LedgerGrows.locateLoss {n : Nat} (h : LedgerGrows s t) : LedgerGrows s (locateLoss n t) := by
  unfold Machine.locateLoss
  exact h.updPhys.raise

theorem LedgerGrows.offerTraining {w : Swap} (h : LedgerGrows s t) : LedgerGrows s (offerTraining w t) := by
  unfold Machine.offerTraining
  exact h.mapOpt.updLane.stageSet

theorem LedgerGrows.offerSwap {w : Swap} (h : LedgerGrows s t) : LedgerGrows s (offerSwap w t) := by
  unfold Machine.offerSwap
  exact h.mapOpt.updLane.stageSet

theorem LedgerGrows.withdrawPages (h : LedgerGrows s t) : LedgerGrows s (withdrawPages t) := by
  unfold Machine.withdrawPages
  exact (h.foldl fun _ _ hu => hu.standbyDiscard).mapColl

theorem LedgerGrows.stopSwap (h : LedgerGrows s t) : LedgerGrows s (stopSwap t) := by
  unfold Machine.stopSwap
  split
  · exact h
  · exact .ite h ((LedgerGrows.ite h.withdrawPages h).updPhys.updLane.mapOpt.raise.bump)

theorem LedgerGrows.startSwap {k : Nat} {short : Bool} (h : LedgerGrows s t) : LedgerGrows s (startSwap k short t) := by
  unfold Machine.startSwap
  split
  · exact h.mapOpt
  · exact h

theorem LedgerGrows.declareTx {n : Nat} (h : LedgerGrows s t) : LedgerGrows s (declareTx n t) :=
  .ite h ((h.updPhys.raise.bump.pmDefect.when (·.stopSwap)).locateLoss)

theorem LedgerGrows.declareRx {n : Nat} {los : Bool} (h : LedgerGrows s t) : LedgerGrows s (declareRx n los t) := by
  unfold Machine.declareRx
  exact .ite h ((h.updPhys.updLane.when (·.bump)).raise.bump.pmDefect.locateLoss)

theorem LedgerGrows.wrongWavelength {n reported : Nat} (h : LedgerGrows s t) : LedgerGrows s (wrongWavelength n reported t) := by
  unfold Machine.wrongWavelength
  refine .ite h ?_
  extract_lets _ s1 _ s2 s3
  have h3 : LedgerGrows s s3 := by
    unfold s3
    split
    · exact .ite ((h.updPhys.raise.bump.declareTx.when (·.withdrawPages)).offerSwap) h.updPhys.raise.bump.declareTx
    · exact h.updPhys.raise.bump.declareTx
  exact .ite h3 (h3.updPhys.when (·.startSwap))

/-! ### The functions of Machine/LineRx -/

theorem LedgerGrows.foundBlocks {port : Nat} {l : List (List Byte)} (h : LedgerGrows s t) : LedgerGrows s (foundBlocks port l t) :=
  h.mapLine

theorem LedgerGrows.takeFrame {port lane n frame : Nat} {container : List Byte} (h : LedgerGrows s t) :
    LedgerGrows s (takeFrame port lane n frame container t) := by
  unfold Machine.takeFrame
  split
  · exact h
  refine .ite h.updTrib ?_
  extract_lets neg data pos negs ptr follows from_ s1 s2 s3
  have h2 : LedgerGrows s s2 := h.bumpBy.bumpBy.pmAdd.pmAdd
  have h3 : LedgerGrows s s3 := h2.unless (·.pmAdd.pmAdd)
  clear_value s3 from_
  split
  · exact h3.updTrib
  · exact h3.updTrib.foundBlocks

theorem LedgerGrows.putPieces {n frame : Nat} {l : List (Nat × List Byte)} (h : LedgerGrows s t) : LedgerGrows s (putPieces n frame l t) :=
  h.updTrib

theorem LedgerGrows.putPointer {port lane : Nat} {e : List Byte} (h : LedgerGrows s t) : LedgerGrows s (putPointer port lane e t) := by
  unfold Machine.putPointer
  exact (LedgerGrows.ite h.bump h).updTrib

theorem LedgerGrows.controlPieces {x : SlotIn} (h : LedgerGrows s t) : LedgerGrows s (controlPieces x t) := by
  unfold Machine.controlPieces
  exact .ite h h.putPieces

theorem LedgerGrows.controlFrame {x : SlotIn} (h : LedgerGrows s t) : LedgerGrows s (controlFrame x t) := by
  unfold Machine.controlFrame
  split
  · exact h
  · exact .ite h.takeFrame h

theorem LedgerGrows.exchangePieces {x : SlotIn} {p : List Byte} (h : LedgerGrows s t) : LedgerGrows s (exchangePieces x p t) := by
  unfold Machine.exchangePieces
  refine h.foldl fun u x hu => ?_
  split
  · exact hu
  · exact .ite hu (hu.putPieces.when (·.takeFrame))

theorem LedgerGrows.unknownPage {x : SlotIn} (h : LedgerGrows s t) : LedgerGrows s (unknownPage x t) := by
  unfold Machine.unknownPage
  exact h.bump.sendReject.raisePort

theorem LedgerGrows.noteSet {x : SlotIn} (h : LedgerGrows s t) : LedgerGrows s (noteSet x t) :=
  h.updLPort

theorem LedgerGrows.noteRdi {x : SlotIn} (h : LedgerGrows s t) : LedgerGrows s (noteRdi x t) := by
  unfold Machine.noteRdi
  exact (h.foldl fun _ _ hu => hu.raise).updLPort

theorem LedgerGrows.noteReports {x : SlotIn} (h : LedgerGrows s t) : LedgerGrows s (noteReports x t) :=
  h.foldl fun _ _ hu => .ite hu (.ite hu (.ite hu.updPhys (.ite hu.updPhys hu.wrongWavelength)))

theorem LedgerGrows.slotFailed {port lane : Nat} (h : LedgerGrows s t) : LedgerGrows s (slotFailed port lane t) := by
  unfold Machine.slotFailed
  exact h.updLane.updLPort.when (·.declareRx)

theorem LedgerGrows.noteFrame {x : SlotIn} (h : LedgerGrows s t) : LedgerGrows s (noteFrame x t) := by
  unfold Machine.noteFrame
  exact .ite h h.pmFrame.bump.updLane

theorem LedgerGrows.noteBip {x : SlotIn} (h : LedgerGrows s t) : LedgerGrows s (noteBip x t) := by
  unfold Machine.noteBip
  exact h.bumpBy.pmAdd.updLane

theorem LedgerGrows.noteStamp {x : SlotIn} {off : Nat} (h : LedgerGrows s t) : LedgerGrows s (noteStamp x off t) :=
  .ite h h.mapTime

theorem LedgerGrows.noteSource {x : SlotIn} (h : LedgerGrows s t) : LedgerGrows s (noteSource x t) :=
  h.updLane.updPhys

theorem LedgerGrows.slotGood {x : SlotIn} {off : Nat} (h : LedgerGrows s t) : LedgerGrows s (slotGood x off t) := by
  unfold Machine.slotGood
  extract_lets s1 s2 s3 s4
  have h1 : LedgerGrows s s1 := h.noteFrame.noteBip.noteStamp.noteSource.noteSet.noteRdi.noteReports
  have h3 : LedgerGrows s s3 := h1.updLPort.updKeys.foldl fun _ _ hu => hu.putPointer
  have h4 : LedgerGrows s s4 := h3.controlPieces.controlFrame
  split
  · exact h4.exchangePieces
  · exact h4.unknownPage

theorem LedgerGrows.slotRx {port lane off : Nat} {acq : Bool} {fecBits fecBad snr : Nat} {oh cols : List Byte} (h : LedgerGrows s t) :
    LedgerGrows s (slotRx port lane off acq fecBits fecBad snr oh cols t) := by
  unfold Machine.slotRx
  extract_lets x s1
  have h1 : LedgerGrows s s1 := h.pmAdd.pmAdd.updPhys.updLane
  exact .ite h (.ite h.bump.slotFailed (.ite h1.bump.slotFailed (h1.unless (·.updLane.slotGood))))

theorem LedgerGrows.elasticSlip {lane : Nat} (h : LedgerGrows s t) : LedgerGrows s (elasticSlip lane t) := by
  unfold Machine.elasticSlip
  exact h.updLane.mapLine

theorem LedgerGrows.markDone {n seq : Nat} (h : LedgerGrows s t) : LedgerGrows s (markDone n seq t) :=
  h.updTrib

theorem LedgerGrows.reorderEval (h : LedgerGrows s t) : LedgerGrows s (reorderEval t) := by
  unfold Machine.reorderEval
  exact h.mapCellar

theorem LedgerGrows.handOver {b : LineBlk} {cask : Option Nat} {parts : List (Nat × Option FarPart)} (h : LedgerGrows s t) :
    LedgerGrows s (handOver b cask parts t) := by
  unfold Machine.handOver
  exact h.mapHost.freeCasks

theorem LedgerGrows.stepEight {b : LineBlk} (h : LedgerGrows s t) : LedgerGrows s (stepEight b t).2 := by
  unfold Machine.stepEight
  extract_lets empty bare table
  have hbare : LedgerGrows s bare.2 := h.handOver.markDone
  clear_value bare table
  split
  · exact hbare
  split
  · exact hbare
  split
  · exact hbare
  split
  · exact h
  split
  · exact h.lineBlockFailed.sendLineNack.pmBadBlock.updTrib
  extract_lets size
  clear_value size
  split
  · next s1 hd => exact .of_snd h.drawCask hd
  · next s1 hd =>
    have h1 : LedgerGrows s s1 := .of_snd h.drawCask hd
    extract_lets s2
    have h2 : LedgerGrows s s2 := by
      unfold s2
      split
      · exact h1.updSlot
      · exact h1
    clear_value s2
    dsimp only
    exact h2.handOver.markDone.tryRetireAcks

theorem LedgerGrows.releaseBlocks {n fuel : Nat} (h : LedgerGrows s t) : LedgerGrows s (releaseBlocks n fuel t) := by
  induction fuel generalizing t with
  | zero => exact h
  | succ fuel ih =>
    unfold Machine.releaseBlocks
    split
    · exact h
    split
    · exact h
    extract_lets r out
    have h1 : LedgerGrows s r.2 := h.stepEight
    split
    · exact h1
    · exact ih h1.mapLine.updTrib
    · exact ih h1.updTrib

theorem LedgerGrows.releaseTrib {n : Nat} (h : LedgerGrows s t) : LedgerGrows s (releaseTrib n t) :=
  h.releaseBlocks.reorderEval

theorem LedgerGrows.retryBlock {b : LineBlk} (h : LedgerGrows s t) : LedgerGrows s (retryBlock b t) := by
  unfold Machine.retryBlock
  extract_lets
  split
  · exact h.stepEight
  · exact h.stepEight.openInst.updInst.mapLine

theorem LedgerGrows.lineRetry (h : LedgerGrows s t) : LedgerGrows s (lineRetry t) := by
  unfold Machine.lineRetry
  exact (h.mapLine.foldl fun _ _ hu => hu.retryBlock).foldl fun _ _ hu => .ite hu.releaseTrib hu

theorem LedgerGrows.admitPairBlock {p : Nat} (h : LedgerGrows s t) : LedgerGrows s (admitPairBlock p t).2 := by
  unfold Machine.admitPairBlock
  exact h.updKeys

theorem LedgerGrows.notePeer {p id : Nat} (h : LedgerGrows s t) : LedgerGrows s (notePeer p id t) :=
  .ite h.updLPort h

theorem LedgerGrows.nackFailed {port : Nat} {b : List Byte} (h : LedgerGrows s t) : LedgerGrows s (nackFailed port b t) := by
  unfold Machine.nackFailed
  extract_lets n s1 q
  have h1 : LedgerGrows s s1 := h.unless (·.pmBadBlock)
  split
  · exact h1
  · exact .ite h1 (.ite h1.nackMessages h1.sendLineNack)

theorem LedgerGrows.tagFailed {port : Nat} {b : List Byte} (h : LedgerGrows s t) : LedgerGrows s (tagFailed port b t) := by
  unfold Machine.tagFailed
  exact (h.updKeys.bump.unless (·.pmAdd)).when (·.updKeys.raise)

theorem LedgerGrows.useVintage {port c : Nat} (h : LedgerGrows s t) : LedgerGrows s (useVintage port c t) :=
  .ite h h.updKeys

theorem LedgerGrows.nackGaps {n seq : Nat} (h : LedgerGrows s t) : LedgerGrows s (nackGaps n seq t) := by
  unfold Machine.nackGaps
  split
  · exact h
  · exact h.sendLineNacks.updTrib

theorem LedgerGrows.exchangeBlock {b : LineBlk} (h : LedgerGrows s t) : LedgerGrows s (exchangeBlock b t) := by
  unfold Machine.exchangeBlock
  split
  · exact h
  refine .ite h ?_
  refine .ite h.pmAdd.pmFrame.updTrib ?_
  refine .ite ?_ (.ite h.pmAdd.pmFrame.updTrib.bump.raisePort h.pmAdd.pmFrame.updTrib.nackGaps.updTrib.releaseTrib)
  extract_lets
  split
  · exact h.pmAdd.pmFrame.updTrib.updTrib.stepEight
  · exact h.pmAdd.pmFrame.updTrib.updTrib.stepEight.mapLine

theorem LedgerGrows.controlBlock {port seq : Nat} {content : List Byte} (h : LedgerGrows s t) :
    LedgerGrows s (controlBlock port seq content t) := by
  unfold Machine.controlBlock
  split
  · exact h
  · exact h.updTrib.unless (·.nackGaps.updTrib)

theorem LedgerGrows.goodBlock {port c : Nat} {b content : List Byte} (h : LedgerGrows s t) :
    LedgerGrows s (goodBlock port c b content t) := by
  unfold Machine.goodBlock
  extract_lets kind s1 s2
  have h1 : LedgerGrows s s1 := h.useVintage.updKeys.updPartner
  have h2 : LedgerGrows s s2 := h1.unless (·.repair)
  exact .ite h1 (.ite h2.notePeer.controlBlock h2.exchangeBlock)

theorem LedgerGrows.lineBlockRx {port : Nat} {b : List Byte} (h : LedgerGrows s t) : LedgerGrows s (lineBlockRx port b t) := by
  unfold Machine.lineBlockRx
  refine .ite h.mapLine ?_
  refine .ite h.mapLine.notePeer.admitPairBlock ?_
  refine .ite h.mapLine ?_
  refine .ite h.mapLine.bump ?_
  split
  · exact h.mapLine.bump.nackFailed
  refine .ite h.mapLine.bump.nackFailed ?_
  extract_lets
  split
  · exact .ite h.mapLine.tagFailed.pairFail h.mapLine.tagFailed.nackFailed
  · exact (h.mapLine.when (·.deriveRx)).goodBlock

theorem LedgerGrows.lineAck {port trib ackSeq relSeq window : Nat} (h : LedgerGrows s t) :
    LedgerGrows s (lineAck port trib ackSeq relSeq window t) := by
  unfold Machine.lineAck
  split
  · exact h
  · exact .ite h ((h.updTrib.when (·.updPartner)).ringEval.pruneTxKeys.pruneOlder)

theorem LedgerGrows.lineNack {port trib : Nat} {ranges : List (Nat × Nat)} (h : LedgerGrows s t) :
    LedgerGrows s (lineNack port trib ranges t) := by
  unfold Machine.lineNack
  split
  · exact h
  · exact .ite h h.bump.updTrib

/-! ### The functions of Machine/LineMbx -/

theorem LedgerGrows.tribBind {n port queue window : Nat} (h : LedgerGrows s t) : LedgerGrows s (tribBind n port queue window t).state := by
  unfold Machine.tribBind
  split
  · exact h.refuse
  extract_lets
  split
  · split
    · exact h.mapLine.done
    split
    · exact h.mapLine.done
    · exact h.refuse
  · exact h.mapLine.done

theorem LedgerGrows.pmRead {scope kind back : Nat} (h : LedgerGrows s t) : LedgerGrows s (pmRead scope kind back t).state := by
  unfold Machine.pmRead
  extract_lets
  split
  · exact h.doneWith
  · exact h.refuse

theorem LedgerGrows.pmThresh {scope counter kind value : Nat} (h : LedgerGrows s t) :
    LedgerGrows s (pmThresh scope counter kind value t).state := by
  unfold Machine.pmThresh
  split
  · exact h.refuse
  · exact h.mapLine.pmThreshold.done

theorem LedgerGrows.xhSet {lane : Nat} {m : List (Nat × Nat × Nat × Nat × Nat)} (h : LedgerGrows s t) :
    LedgerGrows s (xhSet lane m t).state := by
  unfold Machine.xhSet
  split
  · exact h.refuse
  split
  · exact h.refuse
  split
  · exact h.refuse
  extract_lets
  split
  · exact h.updLane.done
  · exact h.refuse

theorem LedgerGrows.putSheaf {id : Nat} {x : Sheaf} (h : LedgerGrows s t) : LedgerGrows s (putSheaf id x t) :=
  h.mapLine

theorem LedgerGrows.sheafDown {id : Nat} (h : LedgerGrows s t) : LedgerGrows s (sheafDown id t) := by
  unfold Machine.sheafDown
  exact .ite h h.putSheaf.raise

theorem LedgerGrows.sheafFrame {port id mfi : Nat} {fr : SMap (List Byte)} (h : LedgerGrows s t) :
    LedgerGrows s (sheafFrame port id mfi fr t) := by
  unfold Machine.sheafFrame
  refine .ite h.putSheaf ?_
  extract_lets d from_
  clear_value from_
  split
  · exact h.putSheaf
  · exact h.putSheaf.foundBlocks

theorem LedgerGrows.sheafMember {port : Nat} {cols : List Byte} {e : Nat × Nat × Nat × Nat × Nat} (h : LedgerGrows s t) :
    LedgerGrows s (sheafMember port cols e t) := by
  unfold Machine.sheafMember
  extract_lets
  split
  · exact .ite h (.ite h.sheafDown h.putSheaf)
  · exact .ite h.sheafDown (h.putSheaf.when (·.sheafFrame))

theorem LedgerGrows.laneFec {lane fec : Nat} (h : LedgerGrows s t) : LedgerGrows s (laneFec lane fec t).state := by
  unfold Machine.laneFec
  split
  · exact h.refuse
  split
  · exact h.refuse
  · exact h.mapOpt.done

theorem LedgerGrows.laneChannel {lane id : Nat} (h : LedgerGrows s t) : LedgerGrows s (laneChannel lane id t).state := by
  unfold Machine.laneChannel
  by_cases hl : 5 ≤ lane
  · rw [if_pos hl]
    exact h.refuse
  rw [if_neg hl]
  generalize (if (laneOf t lane).rate = 3 then 6 else 17) = n
  split
  · exact h.refuse
  · exact h.mapOpt.updPhys.done

theorem LedgerGrows.pmSecondOf {scope : Nat} (h : LedgerGrows s t) : LedgerGrows s (pmSecondOf scope t) := by
  unfold Machine.pmSecondOf
  exact h.mapLine.pmUpdate

theorem LedgerGrows.binRollover {kind : Nat} (h : LedgerGrows s t) : LedgerGrows s (binRollover kind t) :=
  .ite h h.mapLine

theorem LedgerGrows.pmSampleLane {k : Nat} (h : LedgerGrows s t) : LedgerGrows s (pmSampleLane k t) := by
  unfold Machine.pmSampleLane
  exact h.pmUpdate

theorem LedgerGrows.pmSample (h : LedgerGrows s t) : LedgerGrows s (pmSample t) :=
  .ite (h.foldl fun _ _ hu => hu.pmSampleLane) h

/-! ### The functions of Machine/PressRows -/

theorem LedgerGrows.updCore {k : Nat} {f : CoreHist → CoreHist} (h : LedgerGrows s t) : LedgerGrows s (updCore k f t) :=
  h.mapPress

theorem LedgerGrows.recordFail {f : CheckFail} (h : LedgerGrows s t) : LedgerGrows s (recordFail f t) :=
  h.updCore

theorem LedgerGrows.retireCluster {die cluster : Nat} (h : LedgerGrows s t) : LedgerGrows s (retireCluster die cluster t) := by
  unfold Machine.retireCluster
  exact .ite h.mapBru.updDie.raise h.mapBru.updDie

theorem LedgerGrows.takeSpare {die cluster : Nat} (h : LedgerGrows s t) : LedgerGrows s (takeSpare die cluster t) :=
  .ite h.updDie h.retireCluster

theorem LedgerGrows.fenceCore {die cluster core : Nat} (h : LedgerGrows s t) : LedgerGrows s (fenceCore die cluster core t) := by
  unfold Machine.fenceCore
  exact h.updCore.takeSpare.raise.bump

theorem LedgerGrows.retireIfDue {die cluster core : Nat} {spot : Bool} (h : LedgerGrows s t) :
    LedgerGrows s (retireIfDue die cluster core spot t) := by
  unfold Machine.retireIfDue
  exact .ite h.updCore.mapBru.raise.ledgerWrite.bump h

theorem LedgerGrows.oneFail {f : CheckFail} (h : LedgerGrows s t) : LedgerGrows s (oneFail t f) := by
  unfold Machine.oneFail
  exact (h.recordFail.when (·.fenceCore)).retireIfDue

theorem LedgerGrows.pressingEffect {fs : List CheckFail} (h : LedgerGrows s t) : LedgerGrows s (pressingEffect fs t) :=
  .ite h ((h.foldl fun _ _ hu => hu.oneFail).runPressing.bumpBy)

theorem LedgerGrows.twinReport (h : LedgerGrows s t) : LedgerGrows s (twinReport t) := by
  unfold Machine.twinReport
  extract_lets
  split
  · exact h.mapSites.foldl fun _ _ hu => hu.mbxSend.mapSites
  · exact h.mapSites

theorem LedgerGrows.windowEndEffect (h : LedgerGrows s t) : LedgerGrows s (windowEndEffect t) := by
  unfold Machine.windowEndEffect
  exact (LedgerGrows.ite h.requeueUnits h).mapPress.twinReport

theorem LedgerGrows.reportSuspects {c : Nat} (h : LedgerGrows s t) : LedgerGrows s (reportSuspects c t) := by
  unfold Machine.reportSuspects
  exact h.raise.ledgerWrite.bumpBy.mapFlt

theorem LedgerGrows.spotFaulty {c : Nat} {cores : List CheckFail} (h : LedgerGrows s t) : LedgerGrows s (spotFaulty c cores t) :=
  (h.foldl fun _ _ hu => hu.recordFail.retireIfDue).reportSuspects

theorem LedgerGrows.spotDisagree {c : Nat} (h : LedgerGrows s t) : LedgerGrows s (spotDisagree c t) := by
  unfold Machine.spotDisagree
  exact .ite ((h.mapPress.foldl fun _ _ hu => hu.updInst).bumpBy) (h.mapPress.foldl fun _ _ hu => hu.askAbort)

theorem LedgerGrows.spotClean {c : Nat} (h : LedgerGrows s t) : LedgerGrows s (spotClean c t) :=
  h.mapPress

theorem LedgerGrows.spotEffect {die cluster die2 cluster2 outcome : Nat} {cores : List CheckFail} (h : LedgerGrows s t) :
    LedgerGrows s (spotEffect die cluster die2 cluster2 outcome cores t) := by
  unfold Machine.spotEffect
  refine .ite h (.ite h.bump.spotClean ?_)
  exact .ite h.bump.raise.bump.spotFaulty (.ite h.bump.raise.bump.spotFaulty h.bump.raise.bump.spotDisagree)

theorem LedgerGrows.treeReport {tree cluster : Nat} (h : LedgerGrows s t) : LedgerGrows s (treeReport tree cluster t) := by
  unfold Machine.treeReport
  exact .ite h.mapPress.setBits (h.mapPress.setBits.mapPress.raise.when (·.raise))

theorem LedgerGrows.trellisEffect {die cluster : Nat} {isEdge : Bool} {a b : Option Nat} (h : LedgerGrows s t) :
    LedgerGrows s (trellisEffect die cluster isEdge a b t) := by
  unfold Machine.trellisEffect
  extract_lets c r s1 s2 s3
  have h3 : LedgerGrows s s3 := ((LedgerGrows.ite h.treeReport h).when (·.treeReport)).when (·.setBits)
  exact .ite h3 (.ite h3.mapPress.setBits h3.mapPress)

theorem LedgerGrows.flitFail {die : Nat} {replayFails : Bool} (h : LedgerGrows s t) : LedgerGrows s (flitFail die replayFails t) := by
  unfold Machine.flitFail
  exact .ite h.bump.updDie h.bump.updDie

theorem LedgerGrows.retrainDone {die : Nat} (h : LedgerGrows s t) : LedgerGrows s (retrainDone die t) :=
  .ite h.updDie h

theorem LedgerGrows.laneSpare {die : Nat} {toDie : Bool} (h : LedgerGrows s t) : LedgerGrows s (laneSpare die toDie t) := by
  unfold Machine.laneSpare
  exact .ite (.ite h.updDie.raise h.updDie) (.ite h.updDie.raise h.updDie)

theorem LedgerGrows.powerCap {dws : List Nat} (h : LedgerGrows s t) : LedgerGrows s (powerCap dws t) :=
  .ite h h.mapPress

theorem LedgerGrows.capFloor {die : Nat} (h : LedgerGrows s t) : LedgerGrows s (capFloor die t) := by
  unfold Machine.capFloor
  exact .ite h.updDie.raise h

theorem LedgerGrows.sensorStep {die : Nat} {rs : List Nat} (h : LedgerGrows s t) : LedgerGrows s (sensorStep die rs t) := by
  unfold Machine.sensorStep
  exact h.updDie.foldl fun _ _ hu => hu.raise

theorem LedgerGrows.tempStep {die : Nat} {rs : List Nat} (h : LedgerGrows s t) : LedgerGrows s (tempStep die rs t) := by
  unfold Machine.tempStep
  exact (h.updDie.when (·.raise.requeueWhere)).when (·.raise)

theorem LedgerGrows.retirementEffect {die cluster : Nat} {core : Option Nat} (h : LedgerGrows s t) :
    LedgerGrows s (retirementEffect die cluster core t) := by
  unfold Machine.retirementEffect
  extract_lets
  split
  · exact h.retireCluster.requeueWhere
  · exact .ite h (.ite h.requeueWhere h.updCore.takeSpare.requeueWhere)

theorem LedgerGrows.quarantineEnd {die cluster core : Nat} (h : LedgerGrows s t) : LedgerGrows s (quarantineEnd die cluster core t) := by
  unfold Machine.quarantineEnd
  exact .ite h.updCore.updDie h

/-! ### The functions of Machine/BruRows -/

theorem LedgerGrows.fwState {k st : Nat} (h : LedgerGrows s t) : LedgerGrows s (fwState k st t) :=
  h.mapMgt

theorem LedgerGrows.bootRecord (h : LedgerGrows s t) : LedgerGrows s (bootRecord t) := by
  unfold Machine.bootRecord
  exact h.ledgerWrite

theorem LedgerGrows.startFrom {k : Nat} {trial : Bool} (h : LedgerGrows s t) : LedgerGrows s (startFrom k trial t) := by
  unfold Machine.startFrom
  exact h.mapMgt.mapMgt.bootRecord

theorem LedgerGrows.bootRom (h : LedgerGrows s t) : LedgerGrows s (bootRom t) := by
  unfold Machine.bootRom
  extract_lets a o ok back s1
  have h1 : LedgerGrows s s1 := .ite h.fwState.mapMgt h
  refine .ite h.startFrom (.ite h1.fwState.startFrom ?_)
  exact .ite h1.fwState.fwState.startFrom h1.fwState.fwState.mapMgt

/-- A start keeps the Ledger, and the identity with the copy of the owner's records that it falls back to. -/
theorem LedgerGrows.startBase (h : LedgerGrows s t) : LedgerGrows s (startBase t) := by
  obtain ⟨hdev, hC, hF⟩ := h
  refine ⟨?_, hC, hF⟩
  rw [← hdev]
  unfold Machine.startBase Mgt.fallBack
  dsimp only
  split
  · rfl
  · rfl

theorem LedgerGrows.startStep {n : Nat} (h : LedgerGrows s t) : LedgerGrows s (startStep n t) := by
  unfold Machine.startStep
  extract_lets s1 s2 s3
  have h1 : LedgerGrows s s1 := h.mapBru
  have h3 : LedgerGrows s s3 := h1.mapBru.fldSet.foldl fun _ _ hu => .ite hu.beginPairing hu
  exact .ite h1.stepTen (.ite (h3.when (·.stepTen)) (h1.when (·.mapBru)))

theorem LedgerGrows.coldStart {powerHeld : Bool} (h : LedgerGrows s t) : LedgerGrows s (coldStart powerHeld t) := by
  unfold Machine.coldStart
  extract_lets s1
  have h1 : LedgerGrows s s1.takeFree.2 := h.startBase.takeFree
  split
  next he =>
  rw [he] at h1
  split
  · exact .same h1
  · exact .mapMem (.mapFlt (.same h1))

theorem LedgerGrows.startAborts (h : LedgerGrows s t) : LedgerGrows s (startAborts t) := by
  unfold Machine.startAborts
  exact h.same.mapHost.mapSites.foldl fun _ _ hu => hu.fatalAbort

/-- A warm start takes the Ledger over from the state it left, with the aborts of the start in it. -/
theorem LedgerGrows.keepTables {old : State} (h : LedgerGrows s t) (hold : LedgerGrows s old) : LedgerGrows s (keepTables old t) :=
  ⟨h.device, hold.startAborts.streamC, hold.startAborts.streamF⟩

theorem LedgerGrows.warmStart (h : LedgerGrows s t) : LedgerGrows s (warmStart t) := by
  unfold Machine.warmStart
  extract_lets s1
  have h1 : LedgerGrows s s1.takeFree.2 := h.startBase.takeFree
  split
  next he =>
  rw [he] at h1
  exact .startStep (.bump (.keepTables (.same h1) h))

theorem LedgerGrows.startupSet (h : LedgerGrows s t) : LedgerGrows s (startupSet t) := by
  unfold Machine.startupSet
  exact h.foldl fun _ _ hu => .ite hu (.ite hu hu.updLane)

theorem LedgerGrows.tuneLanes (h : LedgerGrows s t) : LedgerGrows s (tuneLanes t) := by
  unfold Machine.tuneLanes
  exact .ite h (h.foldl fun _ _ hu => .ite hu hu.mapOpt.updPhys)

theorem LedgerGrows.opticsDone {r : StepReport} (h : LedgerGrows s t) : LedgerGrows s (opticsDone r t) := by
  unfold Machine.opticsDone
  exact (h.mapBru.tuneLanes.foldl fun _ _ hu => hu.updPhys).fldSet.fldSet.startupSet

theorem LedgerGrows.applySoftMap (h : LedgerGrows s t) : LedgerGrows s (applySoftMap t) := by
  unfold Machine.applySoftMap
  exact (h.foldl fun _ _ hu => hu.updDie).foldl fun _ _ hu => .ite hu hu.updDie

theorem LedgerGrows.retireTested {c : Nat × Nat × Nat} (h : LedgerGrows s t) : LedgerGrows s (retireTested t c) := by
  unfold Machine.retireTested
  exact .ite h h.updCore.mapBru.ledgerWrite.takeSpare

theorem LedgerGrows.retireTestedCluster {c : Nat × Nat} (h : LedgerGrows s t) : LedgerGrows s (retireTestedCluster t c) :=
  .ite h h.ledgerWrite.retireCluster

theorem LedgerGrows.selfTestDone {r : StepReport} (h : LedgerGrows s t) : LedgerGrows s (selfTestDone r t) := by
  unfold Machine.selfTestDone
  exact (((h.foldl fun _ _ hu => hu.retireTested).foldl fun _ _ hu => hu.retireTestedCluster).bumpBy).when (·.mapBru)

theorem LedgerGrows.memTestDone {r : StepReport} (h : LedgerGrows s t) : LedgerGrows s (memTestDone r t) := by
  unfold Machine.memTestDone
  exact h.mapMem.bumpBy.mapBru

theorem LedgerGrows.bootDone (h : LedgerGrows s t) : LedgerGrows s (bootDone t) := by
  unfold Machine.bootDone
  exact ((LedgerGrows.ite h.mapMgt h.bootRom).when (·.fldSet)).fldSet.mapFlt

theorem LedgerGrows.linksDone {r : StepReport} (h : LedgerGrows s t) : LedgerGrows s (linksDone r t) := by
  unfold Machine.linksDone
  extract_lets s1 s2
  have h1 : LedgerGrows s s1 := by
    unfold s1
    split
    · exact .ite h.mapTime h
    · exact h
  exact (h1.foldl fun _ _ hu => hu.updDie).fldSet.applySoftMap

theorem LedgerGrows.stepEffect {n : Nat} {r : StepReport} (h : LedgerGrows s t) : LedgerGrows s (stepEffect n r t) := by
  unfold Machine.stepEffect
  split
  · exact h.mapBru
  · exact h.bootDone
  · exact h.linksDone
  · exact h.selfTestDone
  · exact h.mapBru.mapMem
  · exact h.memTestDone
  · exact h.mapMem
  · exact h.opticsDone
  · exact h

theorem LedgerGrows.stepFailed {detail : Nat} (h : LedgerGrows s t) : LedgerGrows s (stepFailed detail t) := by
  unfold Machine.stepFailed
  exact h.mapBru.bump

theorem LedgerGrows.stepDone {r : StepReport} (h : LedgerGrows s t) : LedgerGrows s (stepDone r t) := by
  unfold Machine.stepDone
  extract_lets n s0 s1
  have h1 : LedgerGrows s s1 := h.stepEffect.mapBru.mapFlt
  refine .ite h (.ite h.stepFailed (.ite (.ite h.selfTestDone.mapBru h) ?_))
  exact .ite (.ite h1.stepFailed h1.mapBru) (h1.unless (·.startStep))

theorem LedgerGrows.pressWave {w : Nat} {railsOk : Bool} (h : LedgerGrows s t) : LedgerGrows s (pressWave w railsOk t) := by
  unfold Machine.pressWave
  exact .ite h h.mapBru

theorem LedgerGrows.stepCommand {v : Nat} (h : LedgerGrows s t) : LedgerGrows s (stepCommand v t) := by
  unfold Machine.stepCommand
  exact .ite h.bump (.ite h.bump (.ite h.startStep (.ite h.bump ((LedgerGrows.ite h h.startStep).mapBru))))

theorem LedgerGrows.askRecheck (h : LedgerGrows s t) : LedgerGrows s (askRecheck t) :=
  h.mapBru

theorem LedgerGrows.endPairWait (h : LedgerGrows s t) : LedgerGrows s (endPairWait t) :=
  h.mapBru

/-! ### The functions of Machine/RegWrite -/

theorem LedgerGrows.updStandby {n : Nat} {f : QSettings → QSettings} (h : LedgerGrows s t) : LedgerGrows s (updStandby n f t) :=
  h.mapQos

theorem LedgerGrows.askApply (h : LedgerGrows s t) : LedgerGrows s (askApply t) :=
  h.mapQos.regSet

theorem LedgerGrows.holdVal {a v : Nat} (h : LedgerGrows s t) : LedgerGrows s (holdVal a v t) := by
  unfold Machine.holdVal
  split
  · exact h.updStandby
  · exact h.regSet

theorem LedgerGrows.selfWrite {a v full : Nat} (h : LedgerGrows s t) (he : selfWrite a v full t = some u) : LedgerGrows s u := by
  unfold Machine.selfWrite at he
  split at he
  · cases he
    exact h.sourceWrite
  · cases he
    split
    · exact h.requestRevert
    · exact h.standbyDiscard
    · exact h.reoffer
    · exact h
  · cases he
    exact (h.when (·.askRecheck)).when (·.endPairWait)
  · cases he
    exact h.stepCommand
  · obtain ⟨k, -, rfl⟩ := Option.map_eq_some_iff.mp he
    exact h.pulseWrite

theorem LedgerGrows.afterWrite {a v old new : Nat} (h : LedgerGrows s t) : LedgerGrows s (afterWrite a v old new t) := by
  unfold Machine.afterWrite
  split
  · exact .ite h h.selectSource
  · exact .ite h h.requalify
  · exact .ite h.sendPfc h.pfcFollow
  · exact .ite h.askApply h
  · exact h

theorem LedgerGrows.regPut {a value mask hw : Nat} {fs : List FieldDef} (h : LedgerGrows s t) :
    LedgerGrows s (regPut a value mask hw fs t) := by
  unfold Machine.regPut
  refine .ite (.ite h.bump h) ?_
  extract_lets
  split
  · next s1 he =>
      have h1 : LedgerGrows s s1 := h.selfWrite he
      exact .ite h1.bump h1
  · exact h.holdVal.afterWrite.when (·.bump)

theorem LedgerGrows.hostWrite {owner : Bool} {a value mask hw : Nat} (h : LedgerGrows s t) :
    LedgerGrows s (hostWrite owner a value mask hw t).1 := by
  unfold Machine.hostWrite
  split
  · exact .ite h.bump h
  split
  · exact h.bump
  · exact h.regPut

theorem LedgerGrows.readOut {a : Nat} (h : LedgerGrows s t) : LedgerGrows s (readOut a t) := by
  unfold Machine.readOut
  split
  · exact h.emit.readEffect
  · exact h.emit

theorem LedgerGrows.readAll {i : Nat} {l : List Nat} (h : LedgerGrows s t) : LedgerGrows s (readAll i l t).2.2 := by
  induction l generalizing i t with
  | nil => exact h
  | cons a l ih =>
    unfold Machine.readAll
    split
    · exact h
    · exact ih h.readEffect

theorem LedgerGrows.writeAll {owner : Bool} {i : Nat} {l : List RegAccess} (h : LedgerGrows s t) :
    LedgerGrows s (writeAll owner i l t).2 := by
  induction l generalizing i t with
  | nil => exact h
  | cons e l ih =>
    obtain ⟨a, v, m⟩ := e
    unfold Machine.writeAll
    split
    · next he => exact .of_fst h.hostWrite he
    · next he => exact ih (.of_fst h.hostWrite he)

theorem LedgerGrows.regReadCmd {as : List Nat} (h : LedgerGrows s t) : LedgerGrows s (regReadCmd as t).state := by
  unfold Machine.regReadCmd
  split
  · exact h.refuse
  extract_lets
  split
  · exact h.readAll.doneWith
  · exact h.readAll

theorem LedgerGrows.regWriteCmd {owner : Bool} {ws : List RegAccess} (h : LedgerGrows s t) :
    LedgerGrows s (regWriteCmd owner ws t).state := by
  unfold Machine.regWriteCmd
  split
  · exact h.refuse
  extract_lets
  split
  · exact h.writeAll.done
  · exact h.writeAll

theorem LedgerGrows.windowRead {m : Nat} {as : List Nat} (h : LedgerGrows s t) : LedgerGrows s (windowRead m as t) := by
  unfold Machine.windowRead
  exact .ite h.regReadCmd.mbxAnswer h

/-! ### The functions of Machine/MbxSec -/

theorem LedgerGrows.holdAnchor {c : List Byte} (h : LedgerGrows s t) : LedgerGrows s (holdAnchor c t) := by
  unfold Machine.holdAnchor
  exact h.mapSec.ledgerWrite.happenedNow.happenedNow

theorem LedgerGrows.anchorInstall {cert : List Byte} (h : LedgerGrows s t) : LedgerGrows s (anchorInstall cert t).state := by
  unfold Machine.anchorInstall
  split
  · exact h.refuse
  split
  · exact h.refuse
  · exact h.holdAnchor.raise.done

theorem LedgerGrows.anchorReplace {region off len : Nat} (h : LedgerGrows s t) : LedgerGrows s (anchorReplace region off len t).state := by
  unfold Machine.anchorReplace
  split
  · exact h.refuse
  extract_lets
  split
  · exact h.refuse
  · exact h.holdAnchor.done

theorem LedgerGrows.enrolInstall {region off len : Nat} (h : LedgerGrows s t) : LedgerGrows s (enrolInstall region off len t).state := by
  unfold Machine.enrolInstall
  split
  · exact h.refuse
  extract_lets
  split
  · exact h.refuse
  · exact h.mapSec.happenedNow.done

theorem LedgerGrows.attest {nonce : List Byte} {region off : Nat} (h : LedgerGrows s t) :
    LedgerGrows s (attest nonce region off t).state := by
  unfold Machine.attest
  split
  · exact h.refuse
  · exact h.regionOut

theorem LedgerGrows.pairRestart {port : Nat} (h : LedgerGrows s t) : LedgerGrows s (pairRestart port t).state := by
  unfold Machine.pairRestart
  split
  · exact h.refuse
  split
  · exact h.refuse
  · exact h.beginPairing.done

theorem LedgerGrows.utilRun {inp aad : RegionRange} {outH outOff outLen : Nat} {fault : Bool} {f : UtilOp} (h : LedgerGrows s t) :
    LedgerGrows s (utilRun inp aad outH outOff outLen fault f t).state := by
  unfold Machine.utilRun
  split
  · exact h.refuse
  · exact h.refuse
  · exact h.refuse
  split
  · exact h.refuse
  split
  · exact h.bump.refuse
  · exact h.regionWrite.bump.doneWith

theorem LedgerGrows.utilCmd {mbx code : Nat} {limits : Bool} {f : State → CmdRes} (h : LedgerGrows s t)
    (hf : ∀ u, LedgerGrows s u → LedgerGrows s (f u).state) : LedgerGrows s (utilCmd mbx code limits f t) := by
  unfold Machine.utilCmd
  refine .ite h.updUce (h.runCmdWith fun _ _ u hu => ?_)
  split
  · exact hu.bump.refuse
  extract_lets b r
  have hb : LedgerGrows s b := hu.unless (·.updUce)
  dsimp only
  exact (hf b hb).updUce

theorem LedgerGrows.timStep {toSource : Bool} {value : Nat} (h : LedgerGrows s t) : LedgerGrows s (timStep toSource value t).state := by
  unfold Machine.timStep
  split
  · exact h.mapTime.done
  split
  · exact h.refuse
  · exact h.mapTime.done

theorem LedgerGrows.clkSelect {source : Nat} (h : LedgerGrows s t) : LedgerGrows s (clkSelect source t).state := by
  unfold Machine.clkSelect
  split
  · exact h.refuse
  split
  · exact h.selectSource.done
  · exact h.selectSource.refuse

theorem LedgerGrows.qosGroupMap {n group queue : Nat} (h : LedgerGrows s t) : LedgerGrows s (qosGroupMap n group queue t).state := by
  unfold Machine.qosGroupMap
  split
  · exact h.refuse
  · exact h.updStandby.done

theorem LedgerGrows.qosStage {n what queue value : Nat} (h : LedgerGrows s t) : LedgerGrows s (qosStage n what queue value t).state := by
  unfold Machine.qosStage
  extract_lets
  split
  · exact h.refuse
  split
  · exact .ite_state h.refuse h.updStandby.done
  · exact .ite_state h.refuse h.updStandby.done
  · exact .ite_state h.refuse h.updStandby.done
  · exact .ite_state h.refuse h.updStandby.done
  · exact .ite_state h.refuse h.updStandby.done
  · exact .ite_state h.refuse h.updStandby.done
  · exact h.refuse

theorem LedgerGrows.qosHistRead {n q : Nat} (h : LedgerGrows s t) : LedgerGrows s (qosHistRead n q t).state := by
  unfold Machine.qosHistRead
  split
  · exact h.refuse
  · exact h.mapQos.doneWith

/-! ### The functions of Machine/MbxFlt -/

theorem LedgerGrows.eventStat {codes : List Nat} (h : LedgerGrows s t) : LedgerGrows s (eventStat codes t).state := by
  unfold Machine.eventStat
  split
  · exact h.refuse
  · exact h.doneWith

theorem LedgerGrows.ledgerRead {stream first n : Nat} (h : LedgerGrows s t) : LedgerGrows s (ledgerRead stream first n t).state := by
  unfold Machine.ledgerRead
  split
  · exact h.refuse
  split
  · exact h.refuse
  extract_lets
  split
  · exact h.refuse
  split
  · exact h.doneWith
  · exact h.refuse

theorem LedgerGrows.storeBarnHead {k : Nat} (h : LedgerGrows s t) : LedgerGrows s (storeBarnHead k t) :=
  h.dramWrite

theorem LedgerGrows.updBarn {k : Nat} {f : BarnSlot → BarnSlot} (h : LedgerGrows s t) : LedgerGrows s (updBarn k f t) :=
  h.mapFlt.storeBarnHead

theorem LedgerGrows.barnRead {k off len : Nat} (h : LedgerGrows s t) : LedgerGrows s (barnRead k off len t).state := by
  unfold Machine.barnRead
  extract_lets
  split
  · exact h.refuse
  split
  · exact h.refuse
  · exact (LedgerGrows.ite h.updBarn h).doneWith

theorem LedgerGrows.fwWrite {k off : Nat} {d : List Byte} (h : LedgerGrows s t) : LedgerGrows s (fwWrite k off d t).state := by
  unfold Machine.fwWrite
  split
  · exact h.refuse
  split
  · exact h.refuse
  split
  · exact h.refuse
  split
  · exact h.refuse
  · exact h.fwStore.done

theorem LedgerGrows.fwBulk {sid k off len : Nat} (h : LedgerGrows s t) : LedgerGrows s (fwBulk sid k off len t).state := by
  unfold Machine.fwBulk
  split
  · exact h.refuse
  split
  · exact h.refuse
  split
  · exact h.refuse
  · exact .ite h.bulkOpen.fwState h

theorem LedgerGrows.fwVerify {k : Nat} (h : LedgerGrows s t) : LedgerGrows s (fwVerify k t).state := by
  unfold Machine.fwVerify
  split
  · exact h.refuse
  split
  · exact h.refuse
  split
  · exact h.fwState.done
  · exact h.fwState.refuseD

theorem LedgerGrows.fwActivate (h : LedgerGrows s t) : LedgerGrows s (fwActivate t).state := by
  unfold Machine.fwActivate
  extract_lets
  refine .ite_state h.refuse (.ite_state h.refuse (.ite_state h.refuse ?_))
  exact .ite_state h.refuseD (.ite_state h.refuseD h.ledgerWrite.fwState.mapMgt.done)

theorem LedgerGrows.blendInstall {mbx ctx cls : Nat} {l : List Byte} (h : LedgerGrows s t) :
    LedgerGrows s (blendInstall mbx ctx cls l t).state := by
  unfold Machine.blendInstall
  extract_lets
  split
  · exact h.refuse
  split
  · exact h.updSlot.done
  · exact h.updSlot.later

theorem LedgerGrows.blendStage {ctx cls : Nat} {l : List Byte} (h : LedgerGrows s t) : LedgerGrows s (blendStage ctx cls l t).state := by
  unfold Machine.blendStage
  extract_lets
  split
  · exact h.refuse
  · exact h.updSlot.done

theorem LedgerGrows.blendRetire {ctx cls : Nat} (h : LedgerGrows s t) : LedgerGrows s (blendRetire ctx cls t).state := by
  unfold Machine.blendRetire
  split
  · exact h.refuse
  split
  · exact h.refuse
  split
  · exact h.done
  split
  · exact h.refuse
  · exact h.updSlot.done

theorem LedgerGrows.blendRead {ctx cls which : Nat} (h : LedgerGrows s t) : LedgerGrows s (blendRead ctx cls which t).state := by
  unfold Machine.blendRead
  extract_lets x b
  clear_value b
  split
  · exact h.doneWith
  · exact h.refuse

theorem LedgerGrows.cmpResync {line : Bool} {n cls : Nat} (h : LedgerGrows s t) : LedgerGrows s (cmpResync line n cls t).state := by
  unfold Machine.cmpResync
  split
  · split
    · exact h.refuse
    · exact h.updSlot.done
  split
  · exact h.refuse
  · exact h.updStream.done

/-! ### The functions of Machine/BlendRows -/

theorem LedgerGrows.propose {ctx cls : Nat} (h : LedgerGrows s t) : LedgerGrows s (propose ctx cls t) := by
  unfold Machine.propose
  extract_lets
  split
  · exact h
  · exact .ite (.ite h h.updSlot) h.updSlot.raise.bump

theorem LedgerGrows.windowOfSlot {k : Nat} (h : LedgerGrows s t) : LedgerGrows s (windowOfSlot k t) := by
  unfold Machine.windowOfSlot
  exact .ite h ((h.updSlot.when (·.propose)).updSlot)

theorem LedgerGrows.windowEnd (h : LedgerGrows s t) : LedgerGrows s (windowEnd t) :=
  .ite h (h.foldl fun _ _ hu => hu.windowOfSlot)

theorem LedgerGrows.offerTimeout {k : Nat} (h : LedgerGrows s t) : LedgerGrows s (offerTimeout k t) := by
  unfold Machine.offerTimeout
  extract_lets
  split
  · exact h
  · exact .ite h.withdrawOffer.raise.bump h

theorem LedgerGrows.resyncFailed {port cls : Nat} (h : LedgerGrows s t) : LedgerGrows s (resyncFailed port cls t) := by
  unfold Machine.resyncFailed
  exact h.updSlot.when (·.raise)

theorem LedgerGrows.resyncTimeout {k : Nat} (h : LedgerGrows s t) : LedgerGrows s (resyncTimeout k t) := by
  unfold Machine.resyncTimeout
  exact .ite h (.ite h.resyncFailed (.ite h.updSlot h.updSlot.startResync))

theorem LedgerGrows.answerOffer {port : Nat} {b : Blend} {reject : Option Nat} (h : LedgerGrows s t) :
    LedgerGrows s (answerOffer port b reject t) := by
  unfold Machine.answerOffer
  split
  · exact h.sendCtl
  · exact h.sendCtl

theorem LedgerGrows.blendOffer {port : Nat} {rs : Bool} {l : List Byte} (h : LedgerGrows s t) : LedgerGrows s (blendOffer port rs l t) := by
  unfold Machine.blendOffer
  refine .ite (.ite h.answerOffer h.updSlot.makeCurrent.answerOffer) ?_
  split
  · exact h.answerOffer
  · exact h.updSlot.answerOffer

theorem LedgerGrows.blendAccept {port cls id digest : Nat} (h : LedgerGrows s t) : LedgerGrows s (blendAccept port cls id digest t) := by
  unfold Machine.blendAccept
  extract_lets
  split
  · exact h
  refine .ite h ?_
  refine .ite h.updSlot ?_
  extract_lets
  split
  · exact h.updSlot.mbxAnswer
  · exact h.updSlot

theorem LedgerGrows.blendReject {port cls id digest reason : Nat} (h : LedgerGrows s t) :
    LedgerGrows s (blendReject port cls id digest reason t) :=
  .ite h.withdrawOffer h

theorem LedgerGrows.blendSwitch {port cls id : Nat} {seqs : SMap Nat} (h : LedgerGrows s t) :
    LedgerGrows s (blendSwitch port cls id seqs t) := by
  unfold Machine.blendSwitch
  exact (LedgerGrows.ite h.pendingToCurrent h).when (·.updSlot.tryRetireAck)

theorem LedgerGrows.retireAcked {port cls id : Nat} (h : LedgerGrows s t) : LedgerGrows s (retireAcked port cls id t) :=
  .ite h.retirePrevious h

theorem LedgerGrows.blendResync {port cls : Nat} (h : LedgerGrows s t) : LedgerGrows s (blendResync port cls t) := by
  unfold Machine.blendResync
  exact (LedgerGrows.ite h.resyncFailed h).resyncAsked

/-! ### The functions of Machine/CellarRows -/

theorem LedgerGrows.restagePacket {stream seq g i chunk rank : Nat} (h : LedgerGrows s t) :
    LedgerGrows s (restagePacket stream seq g i chunk rank t) := by
  unfold Machine.restagePacket
  split
  · exact h
  split
  · exact h.updStream.freeCasks
  extract_lets
  split
  · exact h
  · exact .ite h h.updInst.setBack

theorem LedgerGrows.renackBlock {trib seq : Nat} (h : LedgerGrows s t) : LedgerGrows s (renackBlock trib seq t) := by
  unfold Machine.renackBlock
  split
  · exact h
  · exact .ite h.updTrib.reorderEval.sendLineNack h

theorem LedgerGrows.ringWordLost {trib seq : Nat} (h : LedgerGrows s t) : LedgerGrows s (ringWordLost trib seq t) := by
  unfold Machine.ringWordLost
  split
  · exact h
  split
  · exact .ite h.askAbort h
  · exact h

theorem LedgerGrows.wordAbort {g i : Nat} (h : LedgerGrows s t) : LedgerGrows s (wordAbort g i t) :=
  .ite h.askAbort h

theorem LedgerGrows.groupLost {g : Nat} (h : LedgerGrows s t) : LedgerGrows s (groupLost g t) := by
  unfold Machine.groupLost
  exact (h.foldl fun _ _ hu => hu.wordAbort).updGroup

theorem LedgerGrows.streamLost {id : Nat} (h : LedgerGrows s t) : LedgerGrows s (streamLost id t) := by
  unfold Machine.streamLost
  split
  · exact h
  · exact h.updStream.freeCasks

theorem LedgerGrows.tableRead {both : Bool} {lost : State → State} (h : LedgerGrows s t)
    (hf : ∀ u, LedgerGrows s u → LedgerGrows s (lost u)) : LedgerGrows s (tableRead both lost t) :=
  .ite (hf _ h.raise) h.raise

theorem LedgerGrows.wordLost {w : WordUse} (h : LedgerGrows s t) : LedgerGrows s (wordLost w t) := by
  unfold Machine.wordLost
  split
  · exact h.restagePacket
  · split
    · exact h.updStream.freeCasks
    · exact h
  · exact h.renackBlock
  · exact h.ringWordLost
  · exact h.wordAbort
  · exact h.wordAbort
  · exact h.tableRead fun _ hu => hu.groupLost
  · exact h.tableRead fun _ hu => hu.streamLost
  · exact h.tableRead fun _ hu => hu
  · exact h.updSilo
  · exact h.updBarn
  · exact h

theorem LedgerGrows.dramFixed {a : Nat} (h : LedgerGrows s t) : LedgerGrows s (dramFixed a t) :=
  h.bump.bump

theorem LedgerGrows.dramBad {a : Nat} (h : LedgerGrows s t) : LedgerGrows s (dramBad a t) := by
  unfold Machine.dramBad
  exact h.bump.bump.mapMem.raise

theorem LedgerGrows.poisonWord {a : Nat} (h : LedgerGrows s t) : LedgerGrows s (poisonWord a t) :=
  h.mapMem

theorem LedgerGrows.dramBurst {addr landed : Nat} {flips : List (Nat × Nat)} {w : WordUse} (h : LedgerGrows s t) :
    LedgerGrows s (dramBurst addr landed flips w t) := by
  unfold Machine.dramBurst
  extract_lets at_ got ap wrong astray s1 bad s2 s3
  have h1 : LedgerGrows s s1 := by
    refine h.foldl fun _ _ hu => ?_
    split
    · exact hu.dramFixed
    · exact hu
  have h2 : LedgerGrows s s2 := .ite h1.bump (h1.when (·.bump.raise))
  have h3 : LedgerGrows s s3 := h2.foldl fun _ _ hu => hu.dramBad
  exact .ite h3.emit (LedgerGrows.ite (h3.foldl fun _ _ hu => hu.poisonWord) h3).wordLost

theorem LedgerGrows.discardHeads {n c : Nat} {dramOnly : Bool} (h : LedgerGrows s t) : LedgerGrows s (discardHeads n c dramOnly t) := by
  induction n generalizing t with
  | zero => exact h
  | succ n ih =>
    unfold Machine.discardHeads
    exact .ite h (ih h.mapCellar.bump.raise)

theorem LedgerGrows.badPointer {p from_ : Nat} (h : LedgerGrows s t) : LedgerGrows s (badPointer p from_ t) :=
  h.bump.raise

theorem LedgerGrows.caskCounted {p off : Nat} {w : WordRead} (h : LedgerGrows s t) : LedgerGrows s (caskCounted p off w t) := by
  unfold Machine.caskCounted
  extract_lets
  split
  · exact h
  · exact .ite h.dramFixed h.bump
  · exact .ite h.dramBad h.bump.raise

theorem LedgerGrows.caskRead {p off len : Nat} {flips : List (Nat × Nat)} {w : WordUse} (h : LedgerGrows s t) :
    LedgerGrows s (caskRead p off len flips w t) := by
  unfold Machine.caskRead
  exact .ite ((h.foldl fun _ _ hu => hu.caskCounted).emit.wordLost) ((h.foldl fun _ _ hu => hu.caskCounted).emit)

theorem LedgerGrows.caskWrite {p off : Nat} {d : List Byte} {flips : List (Nat × Nat)} (h : LedgerGrows s t) :
    LedgerGrows s (caskWrite p off d flips t) := by
  unfold Machine.caskWrite
  exact .ite h.caskCounted.emit (.ite h.caskCounted.dramWrite h.caskCounted.mapMem)

theorem LedgerGrows.gleanWord {a flip : Nat} (h : LedgerGrows s t) : LedgerGrows s (gleanWord a flip t) := by
  unfold Machine.gleanWord
  split
  · exact h
  · exact h.dramFixed.dramWrite.mapMem
  · exact h.dramBad.poisonWord.mapMem

theorem LedgerGrows.gleanGroup {addr : Nat} {flips : List (Nat × Nat)} {row : Nat} (h : LedgerGrows s t) :
    LedgerGrows s (gleanGroup addr flips row t) :=
  .ite h (((h.foldl fun _ _ hu => hu.gleanWord).mapMem).when (·.raise))

theorem LedgerGrows.gleanPassEnd (h : LedgerGrows s t) : LedgerGrows s (gleanPassEnd t) :=
  .ite h h.mapMem.raise

theorem LedgerGrows.updChan {c : Nat} {f : Channel → Channel} (h : LedgerGrows s t) : LedgerGrows s (updChan c f t) :=
  h.mapMem

theorem LedgerGrows.startRetrain (h : LedgerGrows s t) : LedgerGrows s (startRetrain t) := by
  unfold Machine.startRetrain
  refine .ite h ?_
  split
  · exact h
  · exact h.mapMem.updChan.raise.bump

theorem LedgerGrows.askRetrain {cs : List Nat} (h : LedgerGrows s t) : LedgerGrows s (askRetrain cs t) := by
  unfold Machine.askRetrain
  exact h.mapMem.startRetrain

theorem LedgerGrows.retrainEnd {c : Nat} {ok : Bool} (h : LedgerGrows s t) : LedgerGrows s (retrainEnd c ok t) := by
  unfold Machine.retrainEnd
  exact .ite h (.ite h.updChan.startRetrain (.ite h.updChan.raise.startRetrain h.updChan.mapMem.startRetrain))

theorem LedgerGrows.mr4Package {r : Nat × Nat × Nat} (h : LedgerGrows s t) : LedgerGrows s (mr4Package r t) := by
  unfold Machine.mr4Package
  exact (((h.foldl fun _ _ hu => hu.updChan).when (·.raise)).when (·.raise)).askRetrain

/-! ### The functions of Machine/SitesRows -/

theorem LedgerGrows.digestSend {p : Nat} (h : LedgerGrows s t) : LedgerGrows s (digestSend p t) := by
  unfold Machine.digestSend
  exact .ite h.sendCtl.updPartner h

theorem LedgerGrows.noteLevel {level : Nat} (h : LedgerGrows s t) : LedgerGrows s (noteLevel level t) :=
  h.mapSites

theorem LedgerGrows.noteComparison {p : Nat} {scope groups : Bool} (h : LedgerGrows s t) :
    LedgerGrows s (noteComparison p scope groups t) :=
  h.updPartner

theorem LedgerGrows.digestRx {p level : Nat} {scope groups : List Byte} (h : LedgerGrows s t) :
    LedgerGrows s (digestRx p level scope groups t) :=
  .ite h ((h.noteLevel.noteComparison.when (·.resyncAll)).unless (·.sendCtl))

theorem LedgerGrows.digestListRx {p : Nat} {entries : List (Nat × Nat × List Byte)} (h : LedgerGrows s t) :
    LedgerGrows s (digestListRx p entries t) :=
  .ite h h.updPartner

theorem LedgerGrows.fenceScope {p : Nat} (h : LedgerGrows s t) : LedgerGrows s (fenceScope p t) := by
  unfold Machine.fenceScope
  exact .ite h.updPartner.raise.bumpBy h

theorem LedgerGrows.fenceGroups {p : Nat} (h : LedgerGrows s t) : LedgerGrows s (fenceGroups p t) := by
  unfold Machine.fenceGroups
  exact .ite h h.updPartner.raise.bumpBy

theorem LedgerGrows.linkLost {p : Nat} (h : LedgerGrows s t) : LedgerGrows s (linkLost p t) := by
  unfold Machine.linkLost
  exact .ite h (h.updPartner.raise.lapseOffers.when (·.stopSwap))

theorem LedgerGrows.siteStateRx {p : Nat} {groups seqs : List (Nat × Nat)} {lineSeq : Nat} (h : LedgerGrows s t) :
    LedgerGrows s (siteStateRx p groups seqs lineSeq t) := by
  unfold Machine.siteStateRx
  split
  · exact h
  · exact h.updPartner.sendCtl

theorem LedgerGrows.siteAckRx {p group lineSeq : Nat} (h : LedgerGrows s t) : LedgerGrows s (siteAckRx p group lineSeq t) :=
  .ite h.updPartner h

theorem LedgerGrows.arrive {a : Arrival} (h : LedgerGrows s t) : LedgerGrows s (arrive a t) :=
  h.mapHost

theorem LedgerGrows.promoteRx {p : Nat} {device : List Byte} {at_ : Nat} (h : LedgerGrows s t) : LedgerGrows s (promoteRx p device at_ t) :=
  h.updPartner

/-! ### The functions of Machine/TwinRows -/

theorem LedgerGrows.updShadow {f : Shadow → Shadow} (h : LedgerGrows s t) : LedgerGrows s (updShadow f t) :=
  h.mapSites

theorem LedgerGrows.helloReplyIn {sid seed : Nat} {hello b : List Byte} (h : LedgerGrows s t) :
    LedgerGrows s (helloReplyIn sid seed hello b t) :=
  .ite h.raise (.ite h h.mapHost.updShadow.mbxSend)

theorem LedgerGrows.helloReply {src : Source} {udp : List Byte} (h : LedgerGrows s t) : LedgerGrows s (helloReply src udp t) := by
  unfold Machine.helloReply
  split
  · exact h
  refine .ite h ?_
  split
  · next s1 he =>
      have h1 : LedgerGrows s s1 := .of_snd h.addFragment he
      exact h1.helloReplyIn
  · next s1 he =>
      have h1 : LedgerGrows s s1 := .of_snd h.addFragment he
      exact h1

theorem LedgerGrows.endJoin (h : LedgerGrows s t) : LedgerGrows s (endJoin t) := by
  unfold Machine.endJoin
  cases t.sites.shadow.session with
  | none => exact h.updShadow
  | some sid => exact h.endSession.updShadow

theorem LedgerGrows.noteMismatch {g i c : Nat} (h : LedgerGrows s t) : LedgerGrows s (noteMismatch g i c t) := by
  unfold Machine.noteMismatch
  exact h.updShadow.raise.bump.when (·.endJoin)

theorem LedgerGrows.resetMatch {at_ : Nat} (h : LedgerGrows s t) : LedgerGrows s (resetMatch at_ t) :=
  h.updShadow

theorem LedgerGrows.reportMismatch {w : TwinEntry} {own : Nat} (h : LedgerGrows s t) : LedgerGrows s (reportMismatch w own t) := by
  unfold Machine.reportMismatch
  split
  · exact h
  · exact h.mbxSend.updShadow

theorem LedgerGrows.matchEntry {w : TwinEntry} (h : LedgerGrows s t) : LedgerGrows s (matchEntry w t) := by
  unfold Machine.matchEntry
  extract_lets
  split
  · exact h
  · exact .ite h (h.updShadow.unless (·.resetMatch.reportMismatch.noteMismatch))

theorem LedgerGrows.testEligible (h : LedgerGrows s t) : LedgerGrows s (testEligible t) :=
  .ite h.updShadow.raise h

theorem LedgerGrows.matchTwin (h : LedgerGrows s t) : LedgerGrows s (matchTwin t) :=
  .ite h ((h.foldl fun _ _ hu => hu.matchEntry).updShadow.testEligible)

theorem LedgerGrows.twinDigests {b : List Byte} (h : LedgerGrows s t) : LedgerGrows s (twinDigests b t) := by
  unfold Machine.twinDigests
  exact h.updShadow.matchTwin

theorem LedgerGrows.outNextIn {b : List Byte} (h : LedgerGrows s t) : LedgerGrows s (outNextIn b t) := by
  unfold Machine.outNextIn
  exact h.updShadow

theorem LedgerGrows.twinIn {sid : Nat} {b : List Byte} (h : LedgerGrows s t) : LedgerGrows s (twinIn sid b t) :=
  .ite h (.ite (.ite h.outNextIn h.twinDigests) (h.foldl fun _ _ hu => hu.noteMismatch))

theorem LedgerGrows.twinRx {udp : List Byte} (h : LedgerGrows s t) : LedgerGrows s (twinRx udp t) := by
  unfold Machine.twinRx
  exact h.openDatagramOf fun _ _ _ hu => hu.twinIn

theorem LedgerGrows.unmatchedExpiry (h : LedgerGrows s t) : LedgerGrows s (unmatchedExpiry t) := by
  unfold Machine.unmatchedExpiry
  extract_lets
  split
  · exact h.matchTwin
  · exact h.matchTwin.resetMatch.updShadow.testEligible

theorem LedgerGrows.sendOutNext (h : LedgerGrows s t) : LedgerGrows s (sendOutNext t) := by
  unfold Machine.sendOutNext
  split
  · exact h
  · exact h.foldl fun _ _ hu => hu.mbxSend.updShadow

theorem LedgerGrows.twinHandsOver (h : LedgerGrows s t) : LedgerGrows s (twinHandsOver t) := by
  unfold Machine.twinHandsOver
  exact h.sendOutNext.mapHost.mapLine.updShadow.raise

theorem LedgerGrows.adoptAddress (h : LedgerGrows s t) : LedgerGrows s (adoptAddress t) := by
  unfold Machine.adoptAddress
  exact h.mapHost.enqueue

theorem LedgerGrows.shadowTakesOver (h : LedgerGrows s t) : LedgerGrows s (shadowTakesOver t) := by
  unfold Machine.shadowTakesOver
  exact h.adoptAddress.mapHost.mapLine.updShadow.raise.foldl fun _ _ hu => .ite hu.beginPairing hu

theorem LedgerGrows.promoteAtT (h : LedgerGrows s t) : LedgerGrows s (promoteAtT t) :=
  .ite (.ite h.twinHandsOver (.ite h.shadowTakesOver h)) h

/-! ### The functions of Machine/FaultRows -/

theorem LedgerGrows.restartVintner (h : LedgerGrows s t) : LedgerGrows s (restartVintner t) := by
  unfold Machine.restartVintner
  exact (h.foldl fun _ _ hu => hu.endSession).mapHost.mapMgt.mapSites.bump.raise.mapFlt

theorem LedgerGrows.watchdog (h : LedgerGrows s t) : LedgerGrows s (watchdog t) :=
  .ite h (.ite h.raise h.restartVintner)

theorem LedgerGrows.pairMismatch (h : LedgerGrows s t) : LedgerGrows s (pairMismatch t) :=
  .ite h (.ite h.watchdog h.mapFlt.raise.bump)

theorem LedgerGrows.pairSelfTest {pass : Bool} (h : LedgerGrows s t) : LedgerGrows s (pairSelfTest pass t) :=
  h.mapFlt

theorem LedgerGrows.restartDone (h : LedgerGrows s t) : LedgerGrows s (restartDone t) :=
  h.mapFlt.mapBru

theorem LedgerGrows.powerLoss {queued : Nat} (h : LedgerGrows s t) : LedgerGrows s (powerLoss queued t) := by
  unfold Machine.powerLoss
  exact h.raise.ledgerWrite.mapFlt

theorem LedgerGrows.testFull (h : LedgerGrows s t) : LedgerGrows s (testFull t) :=
  .ite h.mapFlt.raise h

theorem LedgerGrows.markSealed {stream : Nat} (h : LedgerGrows s t) : LedgerGrows s (t.mapFlt fun f =>
      if stream = 0 then { f with ledgerC := f.ledgerC.markSealed }
      else { f with ledgerF := f.ledgerF.markSealed }) := by
  by_cases hs : stream = 0
  · simp only [if_pos hs]
    exact ⟨h.device, h.streamC.markSealed, h.streamF⟩
  · simp only [if_neg hs]
    exact ⟨h.device, h.streamC, h.streamF.markSealed⟩

theorem room_of_sealDue {stream : Nat} (hdue : sealDue t stream = true) (hs : stream ≠ 0) : (ledgerStream t stream).next + 4 ≤ 32768 := by
  have hroom := (Bool.and_eq_true_iff.mp hdue).2
  simpa [hs] using hroom

/-- R524: a seal is four records at the most, which a seal that is due has room for. -/
theorem LedgerGrows.sealStream {stream : Nat} (h : LedgerGrows s t) (hdue : sealDue t stream = true) :
    LedgerGrows s (sealStream stream t) := by
  have hroom : stream ≠ 0 → t.flt.ledgerF.next + 4 ≤ 32768 := fun hs => by
    simpa [ledgerStream, hs] using room_of_sealDue hdue hs
  unfold Machine.sealStream
  extract_lets old s1 sig s2 s3
  have h1 : LedgerGrows s s1 := h.sealAppend fun hs => by
    have := hroom hs
    omega
  have h2 : LedgerGrows s s2 := h1.sealAppends fun hs => by
    have := hroom hs
    have hlen : (chunks 432 sig).length ≤ 3 := length_chunks_ownSign _
    rw [sealAppend_next, if_neg hs]
    omega
  exact h2.markSealed.raise.testFull

theorem LedgerGrows.dropSummary (h : LedgerGrows s t) : LedgerGrows s (dropSummary t) := by
  unfold Machine.dropSummary
  exact (LedgerGrows.ite h h.ledgerWrite).mapFlt

theorem LedgerGrows.writeSection {k i : Nat} {g : Nat × Nat × List Byte} {a : Nat × State} (h : LedgerGrows s a.2) :
    LedgerGrows s (writeSection k i g a).2 := by
  unfold Machine.writeSection
  dsimp only
  exact h.dramWrite.dramWrite.mapFlt

theorem LedgerGrows.captureDone {k : Nat} {given : List (Nat × Bool × List Byte)} {complete : Bool} {ueWords : Nat} (h : LedgerGrows s t) :
    LedgerGrows s (captureDone k given complete ueWords t) := by
  unfold Machine.captureDone
  extract_lets secs r s1
  have hr : LedgerGrows s r.2 := LedgerGrows.foldl_snd (p := ((4096 : Nat), t)) h fun _ _ hp => hp.writeSection
  exact hr.updBarn.mapFlt.raise

/-! ### The functions of Machine/OptRows -/

theorem LedgerGrows.updPortTime {p : Nat} {f : PortTime → PortTime} (h : LedgerGrows s t) : LedgerGrows s (updPortTime p f t) :=
  h.mapTime

theorem LedgerGrows.timeSend {port : Nat} (h : LedgerGrows s t) : LedgerGrows s (timeSend port t) := by
  unfold Machine.timeSend
  refine .ite h ?_
  split
  · exact h
  · exact h.same.sendCtl.updPortTime.foldl fun _ _ hu => .ite hu.updLane hu

theorem LedgerGrows.noteDisagree {port : Nat} {theta : Int} (h : LedgerGrows s t) : LedgerGrows s (noteDisagree port theta t) := by
  unfold Machine.noteDisagree
  exact .ite (h.updPartner.unless (·.updPartner.raise)) h.updPartner

theorem LedgerGrows.portSample {port : Nat} {valid : Bool} {t1 t2 t3 t4 : Int} (h : LedgerGrows s t) :
    LedgerGrows s (portSample port valid t1 t2 t3 t4 t) := by
  unfold Machine.portSample
  exact .ite h.updPortTime.updLPort (.ite h.updPortTime.updLPort.servoSample (h.updPortTime.updLPort.when (·.noteDisagree)))

theorem LedgerGrows.portSpan {port : Nat} {r : RxStamp} (h : LedgerGrows s t) : LedgerGrows s (portSpan port r t) := by
  unfold Machine.portSpan
  exact h.updPortTime.updLPort

theorem LedgerGrows.timePart {port : Nat} {b : List Byte} (h : LedgerGrows s t) : LedgerGrows s (timePart port b t) := by
  unfold Machine.timePart
  extract_lets
  split
  · exact h.notePath.updPortTime
  extract_lets
  split
  · exact h.notePath.updPortTime.portSpan
  · exact h.notePath.updPortTime.portSpan.unless (·.portSample)

theorem LedgerGrows.dropPageCommits (h : LedgerGrows s t) : LedgerGrows s (dropPageCommits t) :=
  h.mapColl

theorem LedgerGrows.rateInSwap {w : Swap} {lane new : Nat} (h : LedgerGrows s t) : LedgerGrows s (rateInSwap w lane new t) := by
  unfold Machine.rateInSwap
  refine .ite ?_ (.ite h.dropPageCommits.offerTraining (.ite h.dropPageCommits.offerSwap h.dropPageCommits.mapOpt.stageSet))
  split
  · exact h.dropPageCommits.stageSet
  · exact h.dropPageCommits

theorem LedgerGrows.stageRate {lane new : Nat} (h : LedgerGrows s t) : LedgerGrows s (stageRate lane new t) := by
  unfold Machine.stageRate
  extract_lets
  split
  · exact .ite ((LedgerGrows.ite h.mapOpt h).rateInSwap) h
  · exact .ite h ((LedgerGrows.ite h.mapOpt h).stageSet)
  · exact h

theorem LedgerGrows.adaptRate {port lane : Nat} (h : LedgerGrows s t) : LedgerGrows s (adaptRate port lane t) := by
  unfold Machine.adaptRate
  extract_lets l x up down hold reports snr low higher run y s1 near floorDue s2
  have h2 : LedgerGrows s s2 := h.updPhys.when (·.updPhys.raise)
  exact .ite h2 (.ite h2.stageRate (.ite h2.stageRate (h2.when (·.stageRate))))

theorem LedgerGrows.laneEntry {port : Nat} {e : List Byte} (h : LedgerGrows s t) : LedgerGrows s (laneEntry port e t) := by
  unfold Machine.laneEntry
  refine .ite h ?_
  extract_lets _ _ _ _ s1 s2 s3
  have h2 : LedgerGrows s s2 := by
    unfold s2
    split
    · exact h.updPhys.when (·.mapOpt)
    · exact h.updPhys
  exact (LedgerGrows.ite h2.locateLoss h2).when (·.adaptRate)

theorem LedgerGrows.timeRx {port : Nat} {b : List Byte} (h : LedgerGrows s t) : LedgerGrows s (timeRx port b t) :=
  .ite h (h.timePart.foldl fun _ _ hu => hu.laneEntry)

theorem LedgerGrows.excludeMonitors {n : Nat} (h : LedgerGrows s t) : LedgerGrows s (excludeMonitors n t) := by
  unfold Machine.excludeMonitors
  exact .ite h (h.foldl fun _ _ hu => .ite hu.updPhys.raise hu)

theorem LedgerGrows.monitorRead {n : Nat} {chain : Bool} {r : LaneReading} (h : LedgerGrows s t) :
    LedgerGrows s (monitorRead n chain r t) :=
  .ite h h.updPhys.excludeMonitors

theorem LedgerGrows.frequencyRead {n : Nat} {locker1 coarse1 locker2 coarse2 : Int} (h : LedgerGrows s t) :
    LedgerGrows s (frequencyRead n locker1 coarse1 locker2 coarse2 t) :=
  .ite h (h.updPhys.when (·.wrongWavelength))

theorem LedgerGrows.closeMinute {n : Nat} (h : LedgerGrows s t) : LedgerGrows s (closeMinute n t) :=
  h.updPhys

theorem LedgerGrows.evaluateFades (h : LedgerGrows s t) : LedgerGrows s (evaluateFades t) := by
  unfold Machine.evaluateFades
  extract_lets found s1 held ranked free
  have h1 : LedgerGrows s s1 := h.foldl fun _ _ hu => hu.raise
  clear_value ranked
  split
  · exact h1
  · exact (LedgerGrows.ite (h1.when (·.startSwap)) h1.raise).foldl fun _ _ hu => hu.raise

theorem LedgerGrows.spareTuned (h : LedgerGrows s t) : LedgerGrows s (spareTuned t) := by
  unfold Machine.spareTuned
  split
  · exact h
  · exact .ite h (.ite h.updPhys.offerSwap h.updPhys.offerTraining)

theorem LedgerGrows.trainingEnd (h : LedgerGrows s t) : LedgerGrows s (trainingEnd t) := by
  unfold Machine.trainingEnd
  split
  · exact h
  · exact .ite h (.ite h.offerSwap (.ite h.stopSwap h))

theorem LedgerGrows.relockDone {n : Nat} (h : LedgerGrows s t) : LedgerGrows s (relockDone n t) :=
  .ite h (.ite (h.bump.updPhys.foldl fun _ _ hu => hu.updLPort) h.bump.updPhys)

/-! ### The functions of Machine/Tick -/

theorem LedgerGrows.advance (h : LedgerGrows s t) : LedgerGrows s (advance t) :=
  h.same

theorem LedgerGrows.fatalStop (h : LedgerGrows s t) : LedgerGrows s (fatalStop t) :=
  .ite h ((h.foldl fun _ _ hu => hu.fatalAbort).same.mapLine.mapBru)

theorem LedgerGrows.followEnable (h : LedgerGrows s t) : LedgerGrows s (followEnable t) :=
  h.mapPress

theorem LedgerGrows.edgeAborts (h : LedgerGrows s t) : LedgerGrows s (edgeAborts t) :=
  h.decideAbsence.liftFences.fenceAborts.applyAborts.finaliseAborts

theorem LedgerGrows.edgeBudgets (h : LedgerGrows s t) : LedgerGrows s (edgeBudgets t) := by
  unfold Machine.edgeBudgets
  exact h.mapPress.bumpBy

theorem LedgerGrows.edgeList (h : LedgerGrows s t) : LedgerGrows s (edgeList t) := by
  unfold Machine.edgeList
  exact h.mapPress.when (·.buildList)

theorem LedgerGrows.telemetryRefresh (h : LedgerGrows s t) : LedgerGrows s (telemetryRefresh t) :=
  .ite h h.same.mapMgt

theorem LedgerGrows.tickEffect (h : LedgerGrows s t) : LedgerGrows s (tickEffect t) := by
  unfold Machine.tickEffect
  extract_lets s1 s2 s3 s4 s5
  have h2 : LedgerGrows s s2 := h.advance.applySource.endInstances.discardDraining.lineRetry.countArrivals
  have h3 : LedgerGrows s s3 := h2.applyCommits.applyQosNext.blendEdges.applyReverts
  have h5 : LedgerGrows s s5 := h3.edgeAborts.fatalStop.commitLaunches.evalFences.testTimeouts
  exact h5.applyLock.becomeReady.bruEdge.followEnable.edgeBudgets.edgeList.encodeStage.notePaths.pmSample.telemetryRefresh

end

end Sys2Proof.Machine

/-! Every command, and so every step, lets the Ledger only grow; the obligation on its chains. -/

namespace Sys2Proof.Machine

open Sys2Proof

section

set_option Elab.async false

variable {s t : State}

/-- Where a command's outcome is a next state, the Ledger has only grown. -/
def KeepsLedger (s : State) (o : Host.Outcome State Fault Refusal) : Prop := ∀ t, o = .next t → LedgerGrows s t

theorem KeepsLedger.next (h : LedgerGrows s t) : KeepsLedger s (.next t) := fun _ ht => Host.Outcome.next.inj ht ▸ h

theorem KeepsLedger.fault {r : Fault} : KeepsLedger s (.fault r) := fun _ ht => nomatch ht

theorem LedgerGrows.execMbxFinish {src : Source} {udp : List Byte} (h : LedgerGrows s t) : KeepsLedger s (execMbxFinish src udp t) := by
  unfold Machine.execMbxFinish
  refine .next (h.rxFrame fun _ hu => ?_)
  split
  · exact .ite hu.finishRx hu
  · exact hu

theorem LedgerGrows.execSysManifestRead {mbx region off : Nat} (h : LedgerGrows s t) :
    KeepsLedger s (execSysManifestRead mbx region off t) := by
  unfold Machine.execSysManifestRead
  refine .next (h.runCmd fun _ _ _ hu => ?_)
  split
  · exact hu.refuse
  · exact hu.regionOut

theorem LedgerGrows.execCelRegionRead {mbx handle off len : Nat} (h : LedgerGrows s t) :
    KeepsLedger s (execCelRegionRead mbx handle off len t) := by
  unfold Machine.execCelRegionRead
  refine .next (h.runCmd fun _ _ _ hu => ?_)
  split
  · exact hu.refuse
  · exact hu.doneWith

theorem LedgerGrows.execCelRegionBulk {mbx handle off len : Nat} {sending : Bool} (h : LedgerGrows s t) :
    KeepsLedger s (execCelRegionBulk mbx handle off len sending t) := by
  unfold Machine.execCelRegionBulk
  refine .next (h.runCmd fun _ _ _ hu => ?_)
  split
  · exact hu.refuse
  split
  · exact hu.refuse
  split
  · exact hu.refuse
  · exact hu.bulkOpen

theorem LedgerGrows.execSecUtilGcmSeal {mbx : Nat} {key nonce : List Byte} {inp aad : RegionRange} {outH outOff : Nat} {fault : Bool}
    (h : LedgerGrows s t) : KeepsLedger s (execSecUtilGcmSeal mbx key nonce inp aad outH outOff fault t) := by
  unfold Machine.execSecUtilGcmSeal
  refine .next (h.utilCmd fun _ hu => ?_)
  split
  · exact hu.refuse
  · exact hu.utilRun

theorem LedgerGrows.execSecUtilGcmOpen {mbx : Nat} {key nonce tag : List Byte} {inp aad : RegionRange} {outH outOff : Nat} {fault : Bool}
    (h : LedgerGrows s t) : KeepsLedger s (execSecUtilGcmOpen mbx key nonce tag inp aad outH outOff fault t) := by
  unfold Machine.execSecUtilGcmOpen
  refine .next (h.utilCmd fun _ hu => ?_)
  split
  · exact hu.refuse
  · exact hu.utilRun

theorem LedgerGrows.execSecUtilCtr {mbx : Nat} {key counter : List Byte} {inp : RegionRange} {outH outOff : Nat} {fault : Bool}
    (h : LedgerGrows s t) : KeepsLedger s (execSecUtilCtr mbx key counter inp outH outOff fault t) := by
  unfold Machine.execSecUtilCtr
  refine .next (h.utilCmd fun _ hu => ?_)
  split
  · exact hu.refuse
  · exact hu.utilRun

theorem LedgerGrows.execFltBarnBulk {mbx slot off len : Nat} (h : LedgerGrows s t) :
    KeepsLedger s (execFltBarnBulk mbx slot off len t) := by
  unfold Machine.execFltBarnBulk
  refine .next (h.runCmd fun _ _ _ hu => ?_)
  extract_lets b
  split
  · exact hu.refuse
  · exact hu.bulkOpen

theorem LedgerGrows.execFltBarnRelease {mbx slot : Nat} (h : LedgerGrows s t) : KeepsLedger s (execFltBarnRelease mbx slot t) := by
  unfold Machine.execFltBarnRelease
  refine .next (h.runCmd fun _ _ _ hu => ?_)
  split
  · exact hu.refuse
  · exact hu.updBarn.done

theorem LedgerGrows.execCaskRequest {n : Nat} {dramOnly : Bool} {corrupt : Nat} (h : LedgerGrows s t) :
    KeepsLedger s (execCaskRequest n dramOnly corrupt t) := by
  unfold Machine.execCaskRequest
  extract_lets s1
  have h1 : LedgerGrows s s1 := by
    unfold s1
    split
    · exact h.unless (·.discardHeads)
    · exact h
  clear_value s1
  split
  · next hd => exact .next (.emit (.of_snd h1.drawCask hd))
  · next hd => exact .next (.emit (.of_snd h1.drawCask hd))

theorem LedgerGrows.execCaskAccess {ptr off len : Nat} {data : Option (List Byte)} {requester : Nat} {flips : List (Nat × Nat)}
    {use : WordUse} (h : LedgerGrows s t) : KeepsLedger s (execCaskAccess ptr off len data requester flips use t) := by
  unfold Machine.execCaskAccess
  refine .next ?_
  split
  · exact .ite h.badPointer h.caskWrite
  · exact .ite h.badPointer.emit.wordLost h.caskRead

theorem LedgerGrows.execDramRead {addr landed : Nat} {flips : List (Nat × Nat)} {use : WordUse} (h : LedgerGrows s t) :
    KeepsLedger s (execDramRead addr landed flips use t) := by
  unfold Machine.execDramRead
  split
  · exact .fault
  · exact .next h.dramBurst

theorem LedgerGrows.execSwapGuardRecommit (h : LedgerGrows s t) : KeepsLedger s (execSwapGuardRecommit t) := by
  unfold Machine.execSwapGuardRecommit
  refine .next ?_
  split
  · exact .ite h.stageSet h
  · exact h

theorem LedgerGrows.execFallowLimit (h : LedgerGrows s t) : KeepsLedger s (execFallowLimit t) := by
  unfold Machine.execFallowLimit
  refine .next (h.foldl fun _ _ hu => ?_)
  split
  · exact hu.testFallowLimit
  · exact hu

theorem LedgerGrows.execBarnCaptureDone {sections : List (Nat × Bool × List Byte)} {complete : Bool} {ueWords : Nat} (h : LedgerGrows s t) :
    KeepsLedger s (execBarnCaptureDone sections complete ueWords t) := by
  unfold Machine.execBarnCaptureDone
  refine .next ?_
  cases hk : t.flt.capturing with
  | none => exact h
  | some k => exact h.captureDone

theorem LedgerGrows.execLedgerSeal {stream : Nat} (h : LedgerGrows s t) : KeepsLedger s (execLedgerSeal stream t) := by
  unfold Machine.execLedgerSeal
  refine .next ?_
  split
  · next hdue => exact h.sealStream hdue.2
  · exact h

theorem LedgerGrows.execJtagInstruction {ir : JtagIr} (h : LedgerGrows s t) : KeepsLedger s (execJtagInstruction ir t) := by
  unfold Machine.execJtagInstruction
  refine .next ?_
  split
  · exact h.mapMgt.emit
  · exact h.mapMgt.takeFree.emit
  · exact h.mapMgt.takeFree.emit
  · exact h.mapMgt.emit

/-- Every command only lets the Ledger grow. -/
theorem exec_keepsLedger {c : Instr} (h : LedgerGrows s t) : KeepsLedger s (exec c t) := by
  cases c with
  | tickEdge => exact .next h.tickEffect
  | commitApply => exact .next h.applyCommits
  | instanceTimeout => exact .next h.testTimeouts
  | pressingStart => exact .next h.pressingEffect
  | pressingWindowEnd => exact .next h.windowEndEffect
  | spotCheck => exact .next h.spotEffect
  | trellisMessage => exact .next h.trellisEffect
  | dieLinkFlitCrcFail => exact .next h.flitFail
  | dieLinkRetrainDone => exact .next h.retrainDone
  | dieLinkLaneSpare => exact .next h.laneSpare
  | powerCapInterval => exact .next h.powerCap
  | capFloorEvent => exact .next h.capFloor
  | tempSensorRead => exact .next h.sensorStep.tempStep
  | railDroop => exact .next h.updDie
  | retirementApply => exact .next h.retirementEffect
  | quarantineEnd => exact .next h.quarantineEnd
  | pressEnableWrite => exact .next h.fldSet
  | data => exact .next (h.rxFrame fun _ hu => hu.exchangeIn)
  | launch => exact .next (h.rxFrame fun _ hu => hu.exchangeIn)
  | memberAbort => exact .next (h.rxFrame fun _ hu => hu.exchangeIn)
  | memberNack => exact .next (h.rxFrame fun _ hu => hu.exchangeIn)
  | memberAck => exact .next (h.rxFrame fun _ hu => hu.exchangeIn)
  | hostNackRepeat => exact .next h.nackRepeat
  | hostAckInterval => exact .next h.ackPeriodic
  | resultHoldExpire => exact .next h.holdExpire
  | pfcFrameRx => exact .next (h.rxFrame fun _ hu => hu.pfcFrame)
  | pfcPauseExpire => exact .next h.pfcExpire
  | pfcWatchdog => exact .next h.pfcWatchdog
  | pfcRefresh => exact .next h.pfcRefresh
  | pfcDisableWrite => exact .next h.pfcDisable
  | arpRequest => exact .next (h.rxFrame fun _ hu => .ite hu.enqueue hu)
  | neighbourSolicitation => exact .next (h.rxFrame fun _ hu => .ite hu.enqueue hu)
  | icmpEcho => exact .next (h.rxFrame fun _ hu => hu.icmpIn)
  | otherFrameDiscard => exact .next (h.rxFrame fun _ hu => hu.otherFrame)
  | hostAlignmentLoss => exact .next (.ite h.mapHost h)
  | hostLinkDown => exact .next h.linkDown
  | hostLinkUp => exact .next h.linkUpEffect
  | ptpAnnounce => exact .next (h.rxFrame (fun _ hu => (hu.ptpIn (fun _ hu' => hu'.announceIn))))
  | announceReceiptTimeout => exact .next h.announceTimeout
  | ptpSync => exact .next (h.rxFrame (fun _ hu => (hu.ptpIn (fun _ hu' => hu'.syncIn))))
  | ptpFollowUp => exact .next (h.rxFrame (fun _ hu => (hu.ptpIn (fun _ hu' => hu'.followUpIn))))
  | delayReqSend => exact .next h.delayReq
  | ptpDelayResp => exact .next (h.rxFrame (fun _ hu => (hu.ptpIn (fun _ hu' => hu'.delayRespIn))))
  | hostEgressSelect => exact .next h.hostSelect
  | lineBlockSelect => exact .next h.lineSelect
  | tokenRefill => exact .next h.tokenRefill
  | queueSample => exact .next h.queueSample
  | mbxHello => exact .next (h.rxFrame fun _ hu => hu.helloFragment)
  | helloReassemblyTimeout => exact .next h.mapHost
  | halfOpenExpire => exact .next h.mapHost
  | mbxFinish => exact h.execMbxFinish
  | mbxRequest => exact .next (h.rxFrame (fun _ hu => (hu.openDatagram (fun _ _ _ hu' => hu'.requestIn))))
  | mbxClose => exact .next (h.rxFrame (fun _ hu => (hu.openDatagram (fun _ _ _ hu' => hu'.endSession))))
  | sessionIdleTimeout => exact .next h.sessionIdle
  | mbxBulk => exact .next (h.rxFrame (fun _ hu => (hu.openDatagram (fun _ _ _ hu' => hu'.bulkIn))))
  | bulkResend => exact .next h.bulkResend
  | mbxTwin => exact .next (h.rxFrame fun _ hu => hu.twinRx)
  | twinUnmatchedExpiry => exact .next h.unmatchedExpiry
  | sysIdentity => exact .next (h.runCmd fun _ _ _ hu => hu.doneWith)
  | sysNetSet => exact .next (h.runCmd fun _ _ _ hu => hu.mapHost.done)
  | sysCommit => exact .next (h.runCmd fun _ _ _ hu => hu.sysCommit)
  | sysWithdraw => exact .next (h.runCmd fun _ _ _ hu => hu.sysWithdraw)
  | sysEventSubscribe => exact .next (h.runCmd fun _ _ _ hu => hu.subscribe.done)
  | sysReset => exact .next (h.runCmd fun _ _ _ hu => hu.mapMgt.done)
  | sysReadyReasons => exact .next (h.runCmd fun _ _ _ hu => hu.doneWith)
  | sysManifestInstall => exact .next (h.runCmd fun _ _ _ hu => hu.manifestInstall)
  | sysManifestRead => exact h.execSysManifestRead
  | sysShadowJoin => exact .next (h.runCmd fun _ _ _ hu => hu.shadowJoin)
  | sysShadowAccept => exact .next (h.runCmd fun _ _ _ hu => hu.shadowAccept)
  | sysShadowPromote => exact .next (h.runCmd fun _ _ _ hu => hu.shadowPromote)
  | sysLock => exact .next (h.runCmd fun _ _ _ hu => hu.mapMgt.done)
  | systemLockApply => exact .next h.applyLock
  | grpStage => exact .next (h.runCmd fun _ _ _ hu => hu.groupStage)
  | grpRead => exact .next (h.runCmd fun _ _ _ hu => hu.groupRead)
  | grpStreamOpen => exact .next (h.runCmd fun _ _ _ hu => hu.streamOpen)
  | grpStreamClose => exact .next (h.runCmd fun _ _ _ hu => hu.streamClose)
  | opStat => exact .next (h.runCmd fun _ _ _ hu => hu.opStat)
  | opList => exact .next (h.runCmd fun _ _ _ hu => hu.opList)
  | opAbort => exact .next (h.runCmd fun _ _ _ hu => hu.opAbort)
  | progLoad => exact .next (h.runCmd fun _ _ _ hu => hu.progLoad)
  | progUnload => exact .next (h.runCmd fun _ _ _ hu => hu.progUnload)
  | progList => exact .next (h.runCmd fun _ _ _ hu => hu.progList)
  | celRegionCreate => exact .next (h.runCmd fun _ _ _ hu => hu.regionCreate)
  | celRegionFree => exact .next (h.runCmd fun _ _ _ hu => hu.regionFree)
  | celRegionRead => exact h.execCelRegionRead
  | celRegionWrite => exact .next (h.runCmd fun _ _ _ hu => hu.regionPut)
  | celRegionBulk => exact h.execCelRegionBulk
  | memInfo => exact .next (h.runCmd fun _ _ _ hu => hu.doneWith)
  | lneTrib => exact .next (h.runCmd fun _ _ _ hu => hu.tribBind)
  | lnePageStage => exact .next (h.runCmd fun _ _ _ hu => hu.pageStage)
  | lnePmRead => exact .next (h.runCmd fun _ _ _ hu => hu.pmRead)
  | lnePmThresh => exact .next (h.runCmd fun _ _ _ hu => hu.pmThresh)
  | lneXh => exact .next (h.runCmd fun _ _ _ hu => hu.xhSet)
  | optLaneFec => exact .next (h.runCmd fun _ _ _ hu => hu.laneFec)
  | optLaneChannel => exact .next (h.runCmd fun _ _ _ hu => hu.laneChannel)
  | secAnchorInstall => exact .next (h.runCmd fun _ _ _ hu => hu.anchorInstall)
  | secAnchorReplace => exact .next (h.runCmd fun _ _ _ hu => hu.anchorReplace)
  | secEnrolRequest => exact .next (h.runCmd fun _ _ _ hu => hu.doneWith)
  | secEnrolInstall => exact .next (h.runCmd fun _ _ _ hu => hu.enrolInstall)
  | secAttest => exact .next (h.runCmd fun _ _ _ hu => hu.attest)
  | secPairRestart => exact .next (h.runCmd fun _ _ _ hu => hu.pairRestart)
  | secUtilGcmSeal => exact h.execSecUtilGcmSeal
  | secUtilGcmOpen => exact h.execSecUtilGcmOpen
  | secUtilCtr => exact h.execSecUtilCtr
  | secUtilShake => exact .next (h.utilCmd fun _ hu => hu.utilRun)
  | timStep => exact .next (h.runCmd fun _ _ _ hu => hu.timStep)
  | timeStepApply => exact .next h.applyStep
  | qosGroupMap => exact .next (h.runCmd fun _ _ _ hu => hu.qosGroupMap)
  | qosStage => exact .next (h.runCmd fun _ _ _ hu => hu.qosStage)
  | qosHistRead => exact .next (h.runCmd fun _ _ _ hu => hu.qosHistRead)
  | fltEventStat => exact .next (h.runCmd fun _ _ _ hu => hu.eventStat)
  | fltLedgerRead => exact .next (h.runCmd fun _ _ _ hu => hu.ledgerRead)
  | fltBarnList => exact .next (h.runCmd fun _ _ _ hu => hu.doneWith)
  | fltBarnRead => exact .next (h.runCmd fun _ _ _ hu => hu.barnRead)
  | fltBarnBulk => exact h.execFltBarnBulk
  | fltBarnRelease => exact h.execFltBarnRelease
  | fwInfo => exact .next (h.runCmd fun _ _ _ hu => hu.doneWith)
  | fwWrite => exact .next (h.runCmd fun _ _ _ hu => hu.fwWrite)
  | fwBulk => exact .next (h.runCmd fun _ _ _ hu => hu.fwBulk)
  | fwVerify => exact .next (h.runCmdWith fun _ _ _ hu => hu.fwVerify)
  | fwActivate => exact .next (h.runCmd fun _ _ _ hu => hu.fwActivate)
  | fwOwnerLock => exact .next (h.runCmd fun _ _ _ hu => hu.mapMgt.done)
  | fwOwnerUnlock => exact .next (h.runCmd fun _ _ _ hu => hu.mapMgt.done)
  | cmpBlendInstall => exact .next (h.runCmd fun _ _ _ hu => hu.blendInstall)
  | cmpBlendStage => exact .next (h.runCmd fun _ _ _ hu => hu.blendStage)
  | cmpBlendRetire => exact .next (h.runCmd fun _ _ _ hu => hu.blendRetire)
  | cmpBlendRead => exact .next (h.runCmd fun _ _ _ hu => hu.blendRead)
  | cmpResync => exact .next (h.runCmd fun _ _ _ hu => hu.cmpResync)
  | clkSelect => exact .next (h.runCmdWith fun _ _ _ hu => hu.clkSelect)
  | regRead => exact .next (.ite h.windowRead (h.runCmdWith (fun _ _ _ hu => hu.regReadCmd)))
  | regWrite => exact .next (h.runCmdWith fun _ _ _ hu => hu.regWriteCmd)
  | registerWrite => exact .next h.hostWrite
  | rcCounterRead => exact .next (.ite (h.readOut.when (·.bump)) h)
  | latchingRead => exact .next h.readOut
  | sourceSelectWrite => exact .next (.ite h h.selectSource)
  | pageRevert => exact .next (.ite h.requestRevert h)
  | pageStandbyDiscard => exact .next h.standbyDiscard
  | pageReoffer => exact .next h.reoffer
  | qosApply => exact .next h.askApply
  | readinessRecheck => exact .next h.askRecheck
  | pairWaitEndWrite => exact .next h.endPairWait
  | stepCommand => exact .next h.stepCommand
  | uceClaim => exact .next h.uceClaims
  | uceRelease => exact .next h.uceRelease
  | uceLockTimeout => exact .next h.uceTimeout
  | timeSourceWrite => exact .next h.sourceWrite
  | pulseModeWrite => exact .next h.pulseWrite
  | caskRequest => exact h.execCaskRequest
  | caskFree => exact .next (.ite h.badPointer h.poolFree)
  | caskAccess => exact h.execCaskAccess
  | dramRead => exact h.execDramRead
  | gleanGroup => exact .next h.gleanGroup
  | gleanPeriodElapsed => exact .next (.ite h.mapMem h)
  | gleanPassEnd => exact .next h.gleanPassEnd
  | wck2dqOscillator => exact .next (.ite h.askRetrain h)
  | channelRetrainDone => exact .next h.retrainEnd
  | mr4Read => exact .next (.ite (h.foldl fun _ _ hu => hu.mr4Package) h)
  | blendPolicyWindow => exact .next h.windowEnd
  | blendHandshakeTimeout => exact .next (h.foldl fun _ _ hu => hu.offerTimeout)
  | resyncTimeout => exact .next (h.foldl fun _ _ hu => hu.resyncTimeout)
  | blendOfferRx => exact .next (h.policed fun _ hu => hu.blendOffer)
  | blendAcceptRx => exact .next (h.policed fun _ hu => hu.blendAccept)
  | blendRejectRx => exact .next (h.policed fun _ hu => hu.blendReject)
  | blendSwitchRx => exact .next (h.policed fun _ hu => hu.blendSwitch)
  | blendRetireAckRx => exact .next (h.policed fun _ hu => hu.retireAcked)
  | blendResyncRx => exact .next (h.policed fun _ hu => hu.blendResync)
  | frameStart => exact .next h.frameStart
  | timeTransferSend => exact .next h.timeSend
  | controlKeepalive => exact .next (.ite h.keepalive h)
  | aliveRx => exact .next (.ite (h.policed (fun _ hu => hu)) h)
  | slotRx => exact .next h.slotRx
  | elasticStoreSlip => exact .next h.elasticSlip
  | xhSheafRx => exact .next (.ite (h.foldl fun _ _ hu => hu.sheafMember) h)
  | xhSheafDown => exact .next (.ite h.sheafDown h)
  | lineBlockRx => exact .next h.lineBlockRx
  | lineAckIdle => exact .next h.ackIdle
  | lineNackRepeat => exact .next h.nackRepeats
  | lineResendTimer => exact .next h.resendTimer
  | lineAckRx => exact .next h.lineAck
  | lineNackRx => exact .next h.lineNack
  | pageOfferRx => exact .next (.ite (h.policed (fun _ hu => hu.offerRx)) h)
  | pageReadyRx => exact .next (.ite (h.policed (fun _ hu => hu.readyRx)) h)
  | pageRejectRx => exact .next (.ite (h.policed (fun _ hu => hu.rejectRx)) h)
  | degradationPageCompute => exact .next h.degrCompute
  | pageSetDiscard => exact .next h.setDiscard
  | laneDegrade => exact .next (.ite h.loseLane h)
  | doubleLossRepage => exact .next h.doubleRepage
  | rdiClear => exact .next (.ite h.updLane.updPhys h)
  | pmSecond => exact .next (.ite ((h.foldl fun _ _ hu => hu.pmSecondOf).mapLine) h)
  | pmBinRollover => exact .next h.binRollover
  | timeTransferRx => exact .next (.ite (h.policed (fun _ hu => hu.timeRx)) h)
  | loopFail => exact .next (.ite h.declareTx h)
  | lossOfSignal => exact .next (.ite h.declareRx h)
  | monitorRead => exact .next h.monitorRead
  | contextRelearn => exact .next h.updPhys
  | fadeEvaluation => exact .next (.ite ((h.mapOpt.foldl fun _ _ hu => hu.closeMinute).evaluateFades) h)
  | spareTuneDone => exact .next h.spareTuned
  | spareTrainingEnd => exact .next h.trainingEnd
  | swapRetryEval => exact .next (.ite h.mapOpt.evaluateFades h)
  | swapGuardRecommit => exact h.execSwapGuardRecommit
  | failedLaneTakeover => exact .next (.ite h.startSwap h)
  | wrongWavelengthLocal => exact .next h.frequencyRead
  | relockDone => exact .next h.relockDone
  | relockFarCheck => exact .next (.ite h.wrongWavelength h)
  | rackingBegin => exact .next h.rackBegin
  | rackSwitch => exact .next h.rackSwitch
  | announceRx => exact .next (h.policed fun _ hu => hu.announceRx)
  | rackReadyRx => exact .next (h.policed fun _ hu => hu)
  | vintageWindowClose => exact .next h.windowClose
  | pHelloRx => exact .next h.helloRx
  | pHelloRepeat => exact .next h.helloRepeat
  | pEncapRx => exact .next h.encapRx
  | pConfirmRx => exact .next h.confirmRx
  | pairingTimeout => exact .next h.pairTimeout
  | pairingRetry => exact .next h.pairRetry
  | repairNoBlock => exact .next h.repairNoBlock
  | refMissingEdges => exact .next h.updRef.refFail
  | refWindowEnd => exact .next h.refWindow
  | xtalStable => exact .next h.xtalStable
  | xtalFail => exact .next h.xtalFail
  | holdoverEntry => exact .next h.holdover
  | timeInvalid => exact .next h.timeInvalid
  | pulseEdge => exact .next h.pulseEdge
  | digestSend => exact .next h.digestSend
  | digestRx => exact .next (h.policed fun _ hu => hu.digestRx)
  | digestListRx => exact .next (h.policed fun _ hu => hu.digestListRx)
  | configFence => exact .next h.fenceScope.fenceGroups
  | partnerLinkDown => exact .next (.ite h.linkLost h)
  | siteAbsent => exact .next h.decideAbsence
  | siteStateRx => exact .next (h.policed fun _ hu => hu.siteStateRx)
  | siteAckRx => exact .next (h.policed fun _ hu => hu.siteAckRx)
  | fallowLimit => exact h.execFallowLimit
  | launchNoticeRx => exact .next h.arrive
  | abortNoticeRx => exact .next h.arrive
  | fenceClearRx => exact .next h.arrive
  | promoteRx => exact .next (h.policed fun _ hu => hu.promoteRx)
  | promotionAtT => exact .next h.promoteAtT
  | vintnerPairMismatch => exact .next h.pairMismatch
  | vintnerWatchdog => exact .next h.watchdog
  | vintnerRestartDone => exact .next (.ite h h.restartDone)
  | vintnerHeartbeatLoss => exact .next h.raise
  | barnCaptureDone => exact h.execBarnCaptureDone
  | railFault => exact .next (.ite h h.mapBru.raise)
  | powerLoss => exact .next (.ite h h.powerLoss)
  | ledgerSeal => exact h.execLedgerSeal
  | coldStart => exact .next h.coldStart
  | warmStart => exact .next (.ite h.warmStart h)
  | bringupStepDone => exact .next h.stepDone
  | pressWave => exact .next h.pressWave
  | pairWaitExpire => exact .next (.ite h.stepTen h)
  | telemetryWrite => exact .next h.emit
  | jtagInstruction => exact h.execJtagInstruction
  | mbxHelloReply => exact .next (h.rxFrame fun _ hu => hu.helloReply)
  | pfcWatchdogIgnoreEnd => exact .next h.pfcIgnoreEnd
  | spareTuneTimeout => exact .next (.ite h.stopSwap h)
  | vintnerSelfTestDone => exact .next h.pairSelfTest
  | laneRecovery => exact .next (.ite h h.updPhys)
  | signalReturn => exact .next h.updPhys
  | servoEnWrite => exact .next h.servoEnWrite
  | ledgerDropSummary => exact .next h.dropSummary

/-- A step takes its command off the queue, which holds no part of the Ledger. -/
theorem step_keepsLedger : KeepsLedger s (step s) := by
  unfold Machine.step
  split
  · exact .next .refl
  · exact exec_keepsLedger ⟨rfl, .refl, .refl⟩

end

/-- Settles O6: a step lets the Ledger only grow, and a chained Ledger that grows stays chained and keeps its records. -/
theorem ledgerChains : Obligations.LedgerChains := by
  unfold Obligations.LedgerChains
  intro s t hs ht
  exact (step_keepsLedger t ht).keeps hs

end Sys2Proof.Machine

/-! What no command but a start takes back (R518, R553, R567, and the model's own supplyLost), as a relation of two states that every
function of the machine keeps, and the rules for the updates of one block and for the updates that set one of the four. -/

namespace Sys2Proof.Machine

open Sys2Proof

/-- From one state to the other, READY has lasted unless a fatal error stops the device, and a fatal error, the system lock and the loss
of the supply have lasted. -/
structure Lasts (s t : State) : Prop where
  ready : s.bru.ready = true → t.flt.fatal = false → t.bru.ready = true
  fatal : s.flt.fatal = true → t.flt.fatal = true
  sysLock : s.mgt.sysLock = true → t.mgt.sysLock = true
  supplyLost : s.flt.supplyLost = true → t.flt.supplyLost = true

section

variable {s t u : State}

theorem Lasts.refl : Lasts s s := ⟨fun hready _ => hready, id, id, id⟩

theorem Lasts.trans (h : Lasts s t) (hu : Lasts t u) : Lasts s u where
  ready hs hf := hu.ready (h.ready hs (Bool.eq_false_of_not_eq_true fun ht => Bool.eq_false_iff.mp hf (hu.fatal ht))) hf
  fatal := hu.fatal ∘ h.fatal
  sysLock := hu.sysLock ∘ h.sysLock
  supplyLost := hu.supplyLost ∘ h.supplyLost

/-- The four are as they were. -/
theorem Lasts.same (h : Lasts s t) (hready : u.bru.ready = t.bru.ready := by rfl) (hfatal : u.flt.fatal = t.flt.fatal := by rfl)
    (hlock : u.mgt.sysLock = t.mgt.sysLock := by rfl) (hsupply : u.flt.supplyLost = t.flt.supplyLost := by rfl) : Lasts s u :=
  h.trans ⟨fun hr _ => hready ▸ hr, fun hf => hfatal ▸ hf, fun hl => hlock ▸ hl, fun hl => hsupply ▸ hl⟩

theorem Lasts.ite {c : Prop} {_ : Decidable c} (ht : Lasts s t) (hu : Lasts s u) : Lasts s (if c then t else u) := by
  split
  · exact ht
  · exact hu

theorem Lasts.when {c : Prop} {_ : Decidable c} (h : Lasts s t) (hu : Lasts s t → Lasts s u) : Lasts s (if c then u else t) :=
  .ite (hu h) h
theorem Lasts.unless {c : Prop} {_ : Decidable c} (h : Lasts s t) (hu : Lasts s t → Lasts s u) : Lasts s (if c then t else u) :=
  .ite h (hu h)

theorem Lasts.foldl {α : Type} {l : List α} {f : State → α → State} (h : Lasts s t) (hf : ∀ u a, Lasts s u → Lasts s (f u a)) :
    Lasts s (l.foldl f t) :=
  List.foldlRecOn l f h fun u hu a _ => hf u a hu

theorem Lasts.foldl_fst {α β : Type} {l : List α} {p : State × β} {f : State × β → α → State × β} (h : Lasts s p.1)
    (hf : ∀ p a, Lasts s p.1 → Lasts s (f p a).1) : Lasts s (l.foldl f p).1 :=
  List.foldlRecOn (motive := (Lasts s ·.1)) l f h fun p hp a _ => hf p a hp

theorem Lasts.foldl_snd {α β : Type} {l : List α} {p : β × State} {f : β × State → α → β × State} (h : Lasts s p.2)
    (hf : ∀ p a, Lasts s p.2 → Lasts s (f p a).2) : Lasts s (l.foldl f p).2 :=
  List.foldlRecOn (motive := (Lasts s ·.2)) l f h fun p hp a _ => hf p a hp

theorem Lasts.ite_state {c : Prop} {_ : Decidable c} {a b : CmdRes} (ha : Lasts s a.state) (hb : Lasts s b.state) :
    Lasts s (if c then a else b).state := by
  split
  · exact ha
  · exact hb

theorem Lasts.of_snd {α : Type} {p : α × State} {a : α} (h : Lasts s p.2) (he : p = (a, u)) : Lasts s u := by
  subst he
  exact h

theorem Lasts.of_fst {α : Type} {p : State × α} {a : α} (h : Lasts s p.1) (he : p = (u, a)) : Lasts s u := by
  subst he
  exact h

/-! ### The updates of a block -/

variable (h : Lasts s t)

include h

theorem Lasts.mapColl {f : Coll → Coll} : Lasts s (t.mapColl f) := h.same
theorem Lasts.mapPress {f : Press → Press} : Lasts s (t.mapPress f) := h.same
theorem Lasts.mapHost {f : HostPort → HostPort} : Lasts s (t.mapHost f) := h.same
theorem Lasts.mapCmp {f : SMap BSlot → SMap BSlot} : Lasts s (t.mapCmp f) := h.same
theorem Lasts.mapQos {f : Vector Sched 5 → Vector Sched 5} : Lasts s (t.mapQos f) := h.same
theorem Lasts.mapCellar {f : Cellar → Cellar} : Lasts s (t.mapCellar f) := h.same
theorem Lasts.mapMem {f : Mem → Mem} : Lasts s (t.mapMem f) := h.same
theorem Lasts.mapRegs {f : SMap Nat → SMap Nat} : Lasts s (t.mapRegs f) := h.same
theorem Lasts.mapLine {f : Line → Line} : Lasts s (t.mapLine f) := h.same
theorem Lasts.mapOpt {f : Opt → Opt} : Lasts s (t.mapOpt f) := h.same
theorem Lasts.mapSec {f : Sec → Sec} : Lasts s (t.mapSec f) := h.same
theorem Lasts.mapSites {f : Sites → Sites} : Lasts s (t.mapSites f) := h.same
theorem Lasts.mapTime {f : TimeSt → TimeSt} : Lasts s (t.mapTime f) := h.same

theorem Lasts.mapBru {f : Bru → Bru} (hready : ∀ x, (f x).ready = x.ready := by intro; rfl) : Lasts s (t.mapBru f) :=
  h.same (hready t.bru)

theorem Lasts.mapMgt {f : Mgt → Mgt} (hlock : ∀ x, (f x).sysLock = x.sysLock := by intro; rfl) : Lasts s (t.mapMgt f) :=
  h.same rfl rfl (hlock t.mgt)

theorem Lasts.mapFlt {f : Flt → Flt} (hfatal : ∀ x, (f x).fatal = x.fatal := by intro; rfl)
    (hsupply : ∀ x, (f x).supplyLost = x.supplyLost := by intro; rfl) : Lasts s (t.mapFlt f) :=
  h.same rfl (hfatal t.flt) rfl (hsupply t.flt)

theorem Lasts.emit {o : Output} : Lasts s (t.emit o) := h.same
theorem Lasts.takeFree : Lasts s t.takeFree.2 := h.same

/-! ### The updates that set one of the four -/

/-- A fatal event is kept (R518). -/
theorem Lasts.noteEvent {e : EventRec} : Lasts s (noteEvent e t) :=
  h.trans ⟨fun hr _ => hr, fun hf => by simp [Machine.noteEvent, hf], id, id⟩

/-- The device becomes READY (R551). -/
theorem Lasts.setReady {f : Bru → Bru} (hready : ∀ x, (f x).ready = true) : Lasts s (t.mapBru f) :=
  h.trans ⟨fun _ _ => hready t.bru, id, id, id⟩

/-- READY ends where a fatal error has stopped the device (R518). -/
theorem Lasts.mapBru_of_fatal {f : Bru → Bru} (hfatal : t.flt.fatal = true) : Lasts s (t.mapBru f) :=
  h.trans ⟨fun _ hf => absurd hfatal (Bool.eq_false_iff.mp hf), id, id, id⟩

/-- The system lock takes effect (R567). -/
theorem Lasts.setSysLock {f : Mgt → Mgt} (hlock : ∀ x, (f x).sysLock = true) : Lasts s (t.mapMgt f) :=
  h.trans ⟨fun hr _ => hr, id, fun _ => hlock t.mgt, id⟩

/-- The input supply fails (R525). -/
theorem Lasts.setSupplyLost {f : Flt → Flt} (hfatal : ∀ x, (f x).fatal = x.fatal) (hsupply : ∀ x, (f x).supplyLost = true) :
    Lasts s (t.mapFlt f) :=
  h.trans ⟨fun hr _ => hr, fun hf => (hfatal t.flt).trans hf, id, fun _ => hsupply t.flt⟩

end

end Sys2Proof.Machine

/-! No function of the machine that a command other than a start runs takes back what lasts: one rule for each, in the order of the
model. -/

namespace Sys2Proof.Machine

open Sys2Proof

section

-- One proof after the other: elaborated side by side, these many short proofs take more threads than the memory limit has room for.
set_option Elab.async false

variable {s t u : State} (h : Lasts s t)

include h

/-! ### The functions of Machine/Regs -/

theorem Lasts.regSet {a v : Nat} : Lasts s (regSet a v t) := h.mapRegs
theorem Lasts.fldSet {a lo w v : Nat} : Lasts s (fldSet a lo w v t) := h.regSet
theorem Lasts.setBits {a mask : Nat} : Lasts s (setBits a mask t) := h.regSet
theorem Lasts.bumpBy {a n : Nat} : Lasts s (bumpBy a n t) := h.regSet
theorem Lasts.bump {a : Nat} : Lasts s (bump a t) := h.bumpBy

/-! ### The functions of Machine/Ops -/

theorem Lasts.enqueue {sched queue : Nat} {it : EItem} : Lasts s (enqueue sched queue it t) := h.mapQos
theorem Lasts.sendHost {p : HostPkt} : Lasts s (sendHost p t) := h.enqueue
theorem Lasts.sendLine {p : LinePartial} : Lasts s (sendLine p t) := h.enqueue

theorem Lasts.mbxSend {sid kind mailbox reqSeq : Nat} {body : List Byte} : Lasts s (mbxSend sid kind mailbox reqSeq body t) := by
  unfold Machine.mbxSend
  split
  · exact h
  · exact h.enqueue.mapHost

theorem Lasts.withStreams {c f : LedgerStream} : Lasts s (t.mapFlt (Flt.withStreams c f)) := h.mapFlt
theorem Lasts.ledgerWrite {kind code : Nat} {body : List Byte} : Lasts s (ledgerWrite kind code body t) := h.withStreams

theorem Lasts.deliverEvent {e : EventRec} : Lasts s (deliverEvent e t) := by
  unfold Machine.deliverEvent
  refine h.foldl fun u x hu => ?_
  split
  · exact .ite hu.mbxSend hu
  · exact .ite hu.mbxSend hu

theorem Lasts.beginCapture {code : Nat} : Lasts s (beginCapture code t) := by
  unfold Machine.beginCapture
  split
  · exact h.same
  · exact .ite h h.same

theorem Lasts.countEvent {code : Nat} {held : Bool} : Lasts s (countEvent code held t) := (h.bump.when (·.bump)).when (·.setBits.setBits)
theorem Lasts.stopIfFatal {code : Nat} : Lasts s (stopIfFatal code t) := .ite h.mapPress h
theorem Lasts.raiseCore {code : Nat} {args : List Nat} : Lasts s (raiseCore code args t) :=
  ((Lasts.ite h.beginCapture h).noteEvent.countEvent.stopIfFatal).when (·.deliverEvent)
theorem Lasts.dropWarning {code : Nat} : Lasts s (dropWarning code t) := h.mapFlt.bump.when (·.mapFlt.raiseCore)
theorem Lasts.warnRecord {code : Nat} {e : EventRec} : Lasts s (warnRecord code e t) := .ite h (.ite h.mapFlt.ledgerWrite h.dropWarning)
theorem Lasts.ledgerEvent {code : Nat} {e : EventRec} : Lasts s (ledgerEvent code e t) :=
  h.ledgerWrite.when (·.mapFlt.raiseCore.warnRecord)
theorem Lasts.raiseLedger {code : Nat} {args : List Nat} : Lasts s (raiseLedger code args t) := .ite h.ledgerEvent (.ite h.warnRecord h)
theorem Lasts.raise {code : Nat} {args : List Nat} : Lasts s (raise code args t) := h.raiseCore.raiseLedger
theorem Lasts.happenedNow {code : Nat} : Lasts s (happenedNow code t) := h.mapBru
theorem Lasts.sendPfc {quanta : Nat} : Lasts s (sendPfc quanta t) := (Lasts.ite h.emit.bump h).mapHost
theorem Lasts.pfcFollow : Lasts s (pfcFollow t) := .ite h.sendPfc (.ite h.sendPfc h)
theorem Lasts.caskEval {c : Nat} : Lasts s (caskEval c t) := (((h.mapCellar.when (·.raise)).when (·.raise)).when (·.raise)).pfcFollow

theorem Lasts.caskFrom {c : Nat} {dramOnly : Bool} : Lasts s (caskFrom c dramOnly t).2 := by
  unfold Machine.caskFrom
  extract_lets
  split
  · exact h.bump
  split
  · exact h.mapCellar.caskEval
  split
  · exact h.mapCellar.caskEval
  · exact .ite h h.bump

theorem Lasts.drawCask {n : Nat} {dramOnly : Bool} : Lasts s (drawCask n dramOnly t).2 := by
  unfold Machine.drawCask
  split
  · exact h.bump
  · exact h.caskFrom

theorem Lasts.poolFree {p : Nat} : Lasts s (poolFree p t) := .ite h.bump.raise h.mapCellar.caskEval
theorem Lasts.freeCasks {ps : List Nat} : Lasts s (freeCasks ps t) := h.foldl fun _ _ hu => hu.poolFree
theorem Lasts.dramWrite {a : Nat} {l : List Byte} : Lasts s (dramWrite a l t) := h.mapMem

theorem Lasts.regionWrite {hd off : Nat} {l : List Byte} : Lasts s (regionWrite hd off l t) := by
  unfold Machine.regionWrite
  split
  · exact h.dramWrite
  · exact h

/-! ### The functions of Machine/CollBase -/

theorem Lasts.putInst {x : Instance} : Lasts s (putInst x t) := h.mapColl
theorem Lasts.updInst {g i : Nat} {f : Instance → Instance} : Lasts s (updInst g i f t) := h.mapColl
theorem Lasts.updGroup {g : Nat} {f : GroupRec → GroupRec} : Lasts s (updGroup g f t) := h.mapColl

theorem Lasts.askAbort {g i cls code dk d : Nat} : Lasts s (askAbort g i cls code dk d t) := by
  unfold Machine.askAbort
  exact h.mapColl

theorem Lasts.openInst {g i epoch : Nat} : Lasts s (openInst g i epoch t) := by
  unfold Machine.openInst
  split
  · exact h
  · exact h.putInst.mapColl.when (·.askAbort)

theorem Lasts.updGroupSites {g : Nat} {f : GroupSites → GroupSites} : Lasts s (updGroupSites g f t) := h.mapSites
theorem Lasts.updSilo {g i : Nat} {f : SiloRec → SiloRec} : Lasts s (updSilo g i f t) := h.mapSites
theorem Lasts.updPartner {p : Nat} {f : Partner → Partner} : Lasts s (updPartner p f t) := h.mapSites
theorem Lasts.sendCtl {port ty : Nat} {fields : List Nat} {body : List Byte} : Lasts s (sendCtl port ty fields body t) := h.updPartner
theorem Lasts.toFars {gt : GroupTable} {except : Option Nat} {ty : Nat} {fields : List Nat} : Lasts s (toFars gt except ty fields t) :=
  h.foldl fun _ _ hu => .ite hu hu.sendCtl

/-! ### The functions of Machine/HostOps -/

theorem Lasts.updStream {id : Nat} {f : StreamCtx → StreamCtx} : Lasts s (updStream id f t) := h.mapHost

theorem Lasts.sendNack {id reason : Nat} {ranges : List (Nat × Nat)} : Lasts s (sendNack id reason ranges t) := by
  unfold Machine.sendNack
  split
  · exact h
  · exact .ite h.enqueue.updStream h.enqueue.updStream.bump

theorem Lasts.sendAck {id : Nat} : Lasts s (sendAck id t) := h.sendNack
theorem Lasts.openNack {id seq reason g i : Nat} : Lasts s (openNack id seq reason g i t) := h.updStream
theorem Lasts.setBack {id seq reason g i : Nat} : Lasts s (setBack id seq reason g i t) :=
  .ite h.updStream.updStream.sendNack.openNack h.updStream.sendNack
theorem Lasts.raiseLimited {code id : Nat} {args : List Nat} : Lasts s (raiseLimited code id args t) := .ite h h.mapHost.raise
theorem Lasts.updSlot {ctx cls : Nat} {f : BSlot → BSlot} : Lasts s (updSlot ctx cls f t) := h.mapCmp

theorem Lasts.countSymbols {ctx : Nat} {f : Form} {n : Nat} {raw : List Byte} : Lasts s (countSymbols ctx f n raw t) := by
  unfold Machine.countSymbols
  split
  · exact h
  · exact .ite h h.updSlot

theorem Lasts.countFail {k : FailKind} : Lasts s (countFail k t) := h.bump

theorem Lasts.dataFailed {p : Pkt} {k : FailKind} : Lasts s (dataFailed p k t) := by
  unfold Machine.dataFailed
  extract_lets
  split
  · exact h.countFail
  · exact .ite h.countFail.updStream.raise.bump.setBack h.countFail.updStream.setBack

/-! ### The functions of Machine/MbxOps -/

theorem Lasts.updMbx {m : Nat} {f : Mbx → Mbx} : Lasts s (updMbx m f t) := h.mapMgt
theorem Lasts.refuse {st : Nat} : Lasts s (refuse st t).state := h
theorem Lasts.refuseD {st detail : Nat} : Lasts s (refuseD st detail t).state := h
theorem Lasts.done : Lasts s (done t).state := h
theorem Lasts.doneWith {data : List Byte} : Lasts s (doneWith data t).state := h
theorem Lasts.later : Lasts s (later t).state := h
theorem Lasts.mbxAnswer {m status detail : Nat} {data : List Byte} : Lasts s (mbxAnswer m status detail data t) :=
  h.updMbx.mapMgt.mbxSend.bump

theorem Lasts.runCmdWith {keep : Bool} {m code : Nat} {f : Nat → Nat → State → CmdRes}
    (hf : ∀ a b u, Lasts s u → Lasts s (f a b u).state) : Lasts s (runCmdWith keep m code f t) := by
  unfold Machine.runCmdWith
  refine .ite h ?_
  extract_lets
  split
  · exact h.updMbx.mapMgt
  split
  · exact h.mbxAnswer
  · exact .ite h.mbxAnswer (.ite ((hf _ _ _ h).updMbx) ((Lasts.ite (hf _ _ _ h) h).mbxAnswer))

theorem Lasts.runCmd {m code : Nat} {f : Nat → Nat → State → CmdRes}
    (hf : ∀ a b u, Lasts s u → Lasts s (f a b u).state) : Lasts s (runCmd m code f t) :=
  h.runCmdWith hf

/-! ### The functions of Machine/Blends -/

theorem Lasts.makeCurrent {ctx cls : Nat} {b : Blend} : Lasts s (makeCurrent ctx cls b t) := h.updSlot.raise.bump

theorem Lasts.retirePrevious {ctx cls : Nat} : Lasts s (retirePrevious ctx cls t) := by
  unfold Machine.retirePrevious
  split
  · exact h.updSlot
  · exact h.updSlot.raise.bump

theorem Lasts.withdrawOffer {ctx cls status detail : Nat} : Lasts s (withdrawOffer ctx cls status detail t) := by
  unfold Machine.withdrawOffer
  split
  · exact h
  extract_lets
  split
  · exact h.updSlot.mbxAnswer
  · exact h.updSlot

theorem Lasts.switchOut {ctx cls : Nat} : Lasts s (switchOut ctx cls t) := by
  unfold Machine.switchOut
  split
  · exact h
  · exact h.updSlot.makeCurrent.updSlot.sendCtl

theorem Lasts.sendOffer {ctx cls : Nat} {o : Offer} : Lasts s (sendOffer ctx cls o t) := h.updSlot.sendCtl

theorem Lasts.blendEdge {k : Nat} : Lasts s (blendEdge k t) := by
  unfold Machine.blendEdge
  extract_lets x port s1 s2
  have h1 : Lasts s s1 := by
    unfold s1
    split
    · exact h.updSlot.makeCurrent
    · exact h
  have h2 : Lasts s s2 := .ite h1.retirePrevious h1
  split
  · exact h2
  · exact .ite h2.sendOffer (h2.when (·.switchOut))

theorem Lasts.blendEdges : Lasts s (blendEdges t) := h.foldl fun _ _ hu => hu.blendEdge

theorem Lasts.blendCommit {ctx cls : Nat} : Lasts s (blendCommit ctx cls t) := by
  unfold Machine.blendCommit
  refine .ite ?_ (.ite h.switchOut h)
  split
  · exact h.updSlot.makeCurrent
  · exact h

theorem Lasts.pendingToCurrent {ctx cls : Nat} : Lasts s (pendingToCurrent ctx cls t) := by
  unfold Machine.pendingToCurrent
  split
  · exact h.updSlot.makeCurrent
  · exact h

theorem Lasts.tryRetireAck {port cls : Nat} : Lasts s (tryRetireAck port cls t) := by
  unfold Machine.tryRetireAck
  extract_lets
  split
  · exact .ite h.retirePrevious.sendCtl h
  · exact h

theorem Lasts.tryRetireAcks {port : Nat} : Lasts s (tryRetireAcks port t) := h.foldl fun _ _ hu => hu.tryRetireAck
theorem Lasts.startResync {port cls : Nat} : Lasts s (startResync port cls t) := h.updSlot.raise.bump.sendCtl

theorem Lasts.lineBlockFailed {port : Nat} {cls : Option Nat} {k : FailKind} : Lasts s (lineBlockFailed port cls k t) := by
  unfold Machine.lineBlockFailed
  extract_lets
  split
  · exact h.countFail
  · exact .ite h.countFail.startResync h.countFail.updSlot

theorem Lasts.resyncAsked {port cls : Nat} : Lasts s (resyncAsked port cls t) := h.withdrawOffer.updSlot
theorem Lasts.pruneOlder {port : Nat} : Lasts s (pruneOlder port t) := h.foldl fun _ _ hu => .ite hu hu.updSlot
theorem Lasts.lapseOffers {port : Nat} : Lasts s (lapseOffers port t) := h.foldl fun _ _ hu => hu.withdrawOffer
theorem Lasts.resyncAll {port : Nat} : Lasts s (resyncAll port t) := h.foldl fun _ _ hu => .ite hu.startResync hu

/-! ### The functions of Machine/LineOps -/

theorem Lasts.updLane {n : Nat} {f : Lane → Lane} : Lasts s (updLane n f t) := h.mapLine
theorem Lasts.updLPort {p : Nat} {f : LPort → LPort} : Lasts s (updLPort p f t) := h.mapLine
theorem Lasts.updTrib {n : Nat} {f : Trib → Trib} : Lasts s (updTrib n f t) := h.mapLine
theorem Lasts.updPhys {n : Nat} {f : PhysLane → PhysLane} : Lasts s (updPhys n f t) := h.mapOpt
theorem Lasts.updKeys {p : Nat} {f : PortKeys → PortKeys} : Lasts s (updKeys p f t) := h.mapSec

theorem Lasts.sealBlock {port engine : Nat} {hd : BlockHead} {content : List Byte} :
    Lasts s (sealBlock port engine hd content t).2 :=
  h.updKeys

theorem Lasts.ringEval : Lasts s (ringEval t) := by
  unfold Machine.ringEval
  exact h.mapCellar

theorem Lasts.sendTribAck {trib : Nat} : Lasts s (sendTribAck trib t) := by
  unfold Machine.sendTribAck
  split
  · exact h
  · exact h.sendCtl.updTrib

theorem Lasts.nackMessages {trib port reason : Nat} {seqs : List Nat} : Lasts s (nackMessages trib port reason seqs t) :=
  h.foldl fun _ _ hu => hu.sendCtl.bump

theorem Lasts.sendLineNacks {trib reason : Nat} {seqs : List Nat} : Lasts s (sendLineNacks trib reason seqs t) := by
  unfold Machine.sendLineNacks
  split
  · exact h
  · exact h.nackMessages.updTrib

theorem Lasts.sendLineNack {trib seq reason : Nat} : Lasts s (sendLineNack trib seq reason t) := h.sendLineNacks
theorem Lasts.raisePort {code port : Nat} {args : List Nat} : Lasts s (raisePort code port args t) := .ite h h.mapHost.raise
theorem Lasts.blankLane {n : Nat} : Lasts s (blankLane n t) := h.updLane.bump

theorem Lasts.loseLane {k : Nat} : Lasts s (loseLane k t) := by
  unfold Machine.loseLane
  extract_lets l already twice double
  have hdouble : ∀ u, Lasts s u → Lasts s (double u) := fun u hu =>
    Lasts.ite (hu.foldl fun _ _ hv => hv.updLPort).raise hu
  exact .ite h (.ite (hdouble _ h.blankLane) (hdouble _ h.mapLine.raise.bump))

/-! ### The functions of Machine/CollCount -/

theorem Lasts.countLate : Lasts s (countLate t) := h.bump
theorem Lasts.streamCounted {id : Nat} : Lasts s (streamCounted id t) := h.updStream

theorem Lasts.countLaunch {p : Pkt} : Lasts s (countLaunch p t) := by
  unfold Machine.countLaunch
  split
  · exact h.raise.same.enqueue
  split
  · exact h
  refine .ite h.raise ?_
  refine .ite h.countLate ?_
  extract_lets
  split
  · exact h.openInst
  refine .ite h.openInst ?_
  split
  · exact h.openInst.askAbort
  · exact h.openInst.askAbort
  split
  · exact h.openInst.unless (·.askAbort)
  split
  · exact h.openInst.askAbort
  · exact .ite h.openInst.askAbort h.openInst.updInst

theorem Lasts.countData {p : Pkt} {dec : Decoded} {casks : List Nat} : Lasts s (countData p dec casks t) := by
  unfold Machine.countData
  split
  · exact h.raise.freeCasks
  split
  · exact h.freeCasks
  refine .ite h.raise.freeCasks (.ite h.countLate.freeCasks ?_)
  extract_lets s1 s2
  have h1 : Lasts s s1 := h.openInst
  have h2 : Lasts s s2 := h1.updStream
  split
  · exact h1.freeCasks
  refine .ite h1.freeCasks (.ite h1.askAbort.freeCasks (.ite h1.askAbort.freeCasks ?_))
  split
  · exact h1.freeCasks
  refine .ite h1.askAbort.freeCasks ?_
  split
  · exact h1.dataFailed.freeCasks
  · exact h1.countFail.setBack.freeCasks
  · exact h1.freeCasks
  extract_lets ch old
  refine .ite h2.updInst.freeCasks (.ite h2.updStream.bump.freeCasks ?_)
  exact .ite h2.askAbort.freeCasks (.ite h2.freeCasks h2.updInst)

theorem Lasts.countMemberAbort {p : Pkt} : Lasts s (countMemberAbort p t) := by
  unfold Machine.countMemberAbort
  split
  · exact h
  split
  · exact h
  · exact .ite h (.ite h.countLate h.openInst.askAbort)

theorem Lasts.countLaunchNotice {port g epoch i hash : Nat} {fence : Bool} {sites : Nat} :
    Lasts s (countLaunchNotice port g epoch i hash fence sites t) := by
  unfold Machine.countLaunchNotice
  split
  · exact h.countLate.raise
  split
  · exact h
  refine .ite h.toFars.countLate ?_
  extract_lets
  split
  · exact h.toFars.openInst
  · exact .ite h.toFars.openInst.askAbort h.toFars.openInst.updInst

theorem Lasts.countAbortNotice {port g i code site : Nat} : Lasts s (countAbortNotice port g i code site t) := by
  unfold Machine.countAbortNotice
  split
  · exact h.countLate.raise
  split
  · exact h
  · exact .ite h.toFars.countLate h.toFars.openInst.updInst.askAbort

theorem Lasts.countFenceClear {port g i : Nat} : Lasts s (countFenceClear port g i t) := by
  unfold Machine.countFenceClear
  split
  · exact h.countLate.raise
  · exact .ite h.mapColl (.ite h.countLate h.openInst.updInst)

theorem Lasts.countFarPartial {port g epoch i chunk hash : Nat} {part : FarPart} :
    Lasts s (countFarPartial port g epoch i chunk hash part t) := by
  unfold Machine.countFarPartial
  extract_lets drop again s1
  have h1 : Lasts s s1 := h.openInst
  split
  · exact h.countLate.raise.freeCasks
  refine .ite (.ite h.mapHost h.countLate.freeCasks) ?_
  split
  · exact h.openInst.askAbort.freeCasks
  · exact h.mapHost
  split
  · exact h1.freeCasks
  refine .ite h1.freeCasks (.ite h1.askAbort.freeCasks ?_)
  exact .ite h1.countLate.freeCasks (.ite h1.freeCasks h1.updInst.freeCasks)

theorem Lasts.countArrival {a : Arrival} : Lasts s (countArrival t a) := by
  unfold Machine.countArrival
  refine .ite h.mapHost ?_
  split
  · extract_lets s1 s2
    have h1 : Lasts s s1 := h.streamCounted
    have h2 : Lasts s s2 := .ite h1.countLaunch.freeCasks (.ite h1.countData h1.countMemberAbort.freeCasks)
    exact h2.when (·.sendAck)
  · exact h.countFarPartial
  · exact h.countLaunchNotice
  · exact h.countAbortNotice
  · exact h.countFenceClear
  · exact h.raise.askAbort

theorem Lasts.countArrivals : Lasts s (countArrivals t) := by
  unfold Machine.countArrivals
  exact (Lasts.ite (h.mapHost.foldl fun _ _ hu => hu.countLate) (h.mapHost.foldl fun _ _ hu => hu.countArrival)).mapColl

/-! ### The functions of Machine/PartialOps -/

theorem Lasts.fallowLimit {g : Nat} : Lasts s (fallowLimit g t) := h.updGroupSites.unless (·.raise)

theorem Lasts.siloWrite {g i c : Nat} {e : FarPart} : Lasts s (siloWrite g i c e t) := by
  unfold Machine.siloWrite
  split
  · exact h
  · exact .ite h.updSilo.fallowLimit h.updSilo

theorem Lasts.siloAfter {x : Instance} {d : Desc} {gt : GroupTable} {k : Nat} {ch : Chunk} : Lasts s (siloAfter x d gt k ch t) :=
  .ite h.siloWrite h

theorem Lasts.recordDigest {x : Instance} {d : Desc} {gt : GroupTable} {ch : Chunk} : Lasts s (recordDigest x d gt ch t) := by
  unfold Machine.recordDigest
  extract_lets
  split
  · exact h.mapSites
  · exact h.mapSites
  · exact h

/-! ### The functions of Machine/PressWork -/

theorem Lasts.updDie {i : Nat} {f : Die → Die} : Lasts s (updDie i f t) := h.mapPress

theorem Lasts.buildList : Lasts s (buildList t) := by
  unfold Machine.buildList
  exact h.mapColl.mapPress

theorem Lasts.finishRow {x : Instance} {d : Desc} {gt : GroupTable} {k j : Nat} : Lasts s (finishRow t x d gt k j) := by
  unfold Machine.finishRow
  split
  · exact h
  next ch _ =>
  split
  · exact h
  · refine (Lasts.foldl_fst (p := (t, ch, Stats.zero)) h fun p g hp => ?_).putInst.siloAfter
    split
    · exact hp
    split
    · split
      · exact hp.askAbort
      · exact hp.foldl fun _ _ hu => hu.regionWrite
    · exact hp

theorem Lasts.finishChunk {x : Instance} {d : Desc} {gt : GroupTable} {k : Nat} : Lasts s (finishChunk t x d gt k) := by
  unfold Machine.finishChunk
  split
  · exact h
  · exact .ite h.askAbort h.putInst.siloAfter

theorem Lasts.rowCask {x : Instance} {gt : GroupTable} {ch : Chunk} {w : RowSt} : Lasts s (rowCask x gt ch w t).2.2 := by
  unfold Machine.rowCask
  split
  · exact h.drawCask
  split
  · exact h.drawCask
  · exact h

theorem Lasts.commitUnit {w : WorkUnit} : Lasts s (commitUnit t w) := by
  unfold Machine.commitUnit
  split
  · exact h
  split
  · split
    · exact h
    refine .ite h.askAbort (.ite h.rowCask.putInst (.ite (h.rowCask.putInst.unless (·.raise)) ?_))
    extract_lets s1 others rows rs done x1 s2 s3
    have h2 : Lasts s s2 := (h.rowCask.foldl fun _ _ hu => hu.regionWrite).putInst.mapPress
    have h3 : Lasts s s3 := by
      unfold s3
      split
      · exact h2.when (·.recordDigest)
      · exact h2
    exact .ite h3 (.ite h3.finishRow h3.finishChunk)
  · exact h.mapPress

theorem Lasts.noteWorked {w : WorkUnit} : Lasts s (noteWorked w t) := h.mapPress
theorem Lasts.pressUnit {w : WorkUnit} : Lasts s (pressUnit t w) := h.commitUnit.unless (·.noteWorked)
theorem Lasts.runPressing {held : WorkUnit → Bool} : Lasts s (runPressing held t) := h.foldl fun _ _ hu => hu.pressUnit
theorem Lasts.requeueWhere {hit : WorkUnit → Bool} : Lasts s (requeueWhere hit t) := h.mapPress.bumpBy.foldl fun _ _ hu => hu.raise
theorem Lasts.requeueUnits : Lasts s (requeueUnits t) := h.requeueWhere

/-! ### The functions of Machine/Encode -/

theorem Lasts.drawPkts {l ps : List HostPkt} (he : drawPkts l t = .ok (ps, u)) : Lasts s u := by
  induction l generalizing t ps u with
  | nil =>
    cases he
    exact h
  | cons p l ih =>
    unfold Machine.drawPkts at he
    split at he
    · cases he
    · next s1 hd =>
      have h1 : Lasts s s1 := .of_snd h.drawCask hd
      split at he
      · cases he
      · next hl =>
        cases he
        exact ih h1 hl

theorem Lasts.countCoded {f : Form} {p : PktBody} : Lasts s (countCoded f p t) := h.bumpBy.bumpBy.countSymbols

theorem Lasts.issueResult {x : Instance} {d : Desc} {gt : GroupTable} {k : Nat} {ch : Chunk} {p : Prod} :
    Lasts s (issueResult x d gt k ch p t).2 := by
  unfold Machine.issueResult
  extract_lets
  split
  · exact h.bump
  · next s1 he =>
    have h1 : Lasts s s1 := h.drawPkts he
    exact (Lasts.ite h1.updInst (h1.updInst.foldl fun _ _ hu => hu.countCoded)).foldl fun _ _ hu => hu.sendHost

theorem Lasts.issuePartial {x : Instance} {d : Desc} {gt : GroupTable} {k : Nat} {ch : Chunk} {f : Nat × Member} :
    Lasts s (issuePartial x d gt k ch f t) :=
  h.sendLine
theorem Lasts.sendDone {p : HostPkt} : Lasts s (sendDone p t) := h.mapHost
theorem Lasts.releaseDone : Lasts s (releaseDone t) := h.mapHost.foldl fun _ _ hu => hu.enqueue
theorem Lasts.completeMembers {x : Instance} {d : Desc} {gt : GroupTable} : Lasts s (completeMembers x d gt t) :=
  h.foldl fun _ _ hu => .ite hu hu.updInst.sendDone

theorem Lasts.issueInst {k : Nat} : Lasts s (issueInst t k) := by
  unfold Machine.issueInst
  split
  · exact h
  split
  · refine .ite h ?_
    extract_lets s1
    have h1 : Lasts s s1 := by
      unfold s1
      refine h.foldl fun _ _ hu => (hu.foldl fun u x hu' => ?_)
      extract_lets
      split
      · exact hu'.issueResult.when (·.updInst)
      split
      · exact hu'.updInst.issuePartial
      · exact hu'.updInst
    split
    · exact .ite h1 h1.completeMembers
    · exact h1
  · exact h

theorem Lasts.encodeStage : Lasts s (encodeStage t) := (h.foldl fun _ _ hu => hu.issueInst).releaseDone

/-! ### The functions of Machine/CollEdge -/

theorem Lasts.dropQueued {g i : Nat} : Lasts s (dropQueued g i t) := h.mapQos.freeCasks

theorem Lasts.enterAborting {g i code dk d : Nat} {notify : Bool} : Lasts s (enterAborting g i code dk d notify t) := by
  unfold Machine.enterAborting
  split
  · exact h
  refine .ite h ?_
  extract_lets
  split
  · exact h.dropQueued.freeCasks.mapPress.updInst.when (·.toFars)
  · exact h.dropQueued.freeCasks.mapPress.updInst

theorem Lasts.applyAborts : Lasts s (applyAborts t) := h.mapColl.foldl fun _ _ hu => hu.enterAborting
theorem Lasts.keepEnded {e : EndedRec} : Lasts s (keepEnded e t) := h.mapColl

theorem Lasts.removeInst {g i : Nat} : Lasts s (removeInst g i t) := by
  unfold Machine.removeInst
  split
  · exact h
  · exact h.freeCasks.mapColl

theorem Lasts.closeSilo {x : Instance} {code : Nat} : Lasts s (closeSilo x code t) := .ite h.mapSites h.updSilo
theorem Lasts.finaliseOne {x : Instance} {gt : GroupTable} {code origin : Nat} : Lasts s (finaliseOne x gt code origin t) :=
  (h.foldl fun _ _ hu => hu.sendDone).keepEnded.closeSilo.removeInst.raise

theorem Lasts.finaliseAborts : Lasts s (finaliseAborts t) := by
  unfold Machine.finaliseAborts
  refine h.foldl fun u x hu => ?_
  split
  · exact hu
  refine .ite hu ?_
  split
  · exact hu.removeInst
  · exact .ite hu hu.finaliseOne

theorem Lasts.fatalAbort {x : Instance} : Lasts s (fatalAbort x t) := by
  unfold Machine.fatalAbort
  split
  · exact h.removeInst
  · exact h.enterAborting.finaliseOne

theorem Lasts.commitLaunch {x : Instance} : Lasts s (commitLaunch t x) := by
  unfold Machine.commitLaunch
  split
  · refine .ite h.enterAborting ?_
    split
    · exact h.enterAborting
    · exact h.mapColl.putInst.freeCasks.toFars
  · exact h

theorem Lasts.commitLaunches : Lasts s (commitLaunches t) := h.foldl fun _ _ hu => .ite hu hu.commitLaunch

theorem Lasts.evalFences : Lasts s (evalFences t) := by
  unfold Machine.evalFences
  refine h.foldl fun u f hu => .ite hu ?_
  have h1 : Lasts s (if f.sent then u else f.fars.foldl (fun b p => Machine.sendCtl p ctlFence [f.group, f.inst] [] b) u) :=
    hu.unless (·.foldl fun _ _ hv => hv.sendCtl)
  exact .ite h1.mapColl h1.mapColl

theorem Lasts.testTimeouts : Lasts s (testTimeouts t) := h.foldl fun _ _ hu => .ite hu.enterAborting hu

theorem Lasts.endInstances : Lasts s (endInstances t) := by
  unfold Machine.endInstances
  refine h.foldl fun u x hu => ?_
  split
  · exact hu
  split
  · exact .ite hu.keepEnded.closeSilo.removeInst hu
  · exact hu

theorem Lasts.discardDraining : Lasts s (discardDraining t) := h.mapColl

/-! ### The functions of Machine/SitesOps -/

theorem Lasts.latchSilence {g : Nat} {gt : GroupTable} : Lasts s (latchSilence g gt t) :=
  h.foldl fun _ _ hu => .ite (.ite hu.updPartner hu) (.ite hu.updPartner hu)
theorem Lasts.noteAbsence {g : Nat} {gt : GroupTable} {now : Nat} : Lasts s (noteAbsence g gt now t) :=
  ((h.foldl fun _ _ hu => hu.raise.bump).foldl fun _ _ hu => hu.raise).updGroupSites

theorem Lasts.sendSiteState {port : Nat} {gs : List (Nat × Nat)} : Lasts s (sendSiteState port gs t) := by
  unfold Machine.sendSiteState
  split
  · exact h
  · exact h.sendCtl.updPartner

theorem Lasts.sendSiteStates {before : State} : Lasts s (sendSiteStates before t) := h.foldl fun _ _ hu => hu.sendSiteState.updPartner

theorem Lasts.fallowInst {hold : Bool} {absent : Nat} {x : Instance} : Lasts s (fallowInst hold absent x t) := by
  unfold Machine.fallowInst
  split
  · exact .ite h (.ite h (.ite h (.ite h.updInst (.ite h (h.updInst.unless (·.mapSites))))))
  · exact h

theorem Lasts.fallowEntry {g : Nat} : Lasts s (fallowEntry g t) := .ite h (h.foldl fun _ _ hu => hu.fallowInst)
theorem Lasts.testFallowLimit {g : Nat} {gt : GroupTable} : Lasts s (testFallowLimit g gt t) := .ite h.fallowLimit h
theorem Lasts.resumeFault {g i : Nat} {r : Option SiloRec} : Lasts s (resumeFault g i r t) :=
  .ite h.enterAborting (.ite h.enterAborting h)

theorem Lasts.resumeInst {x : Instance} : Lasts s (resumeInst x t) := by
  unfold Machine.resumeInst
  split
  · exact .ite h.updInst h.updInst.resumeFault
  · exact h

theorem Lasts.closeRecord {r : SiloRec} {gt : GroupTable} {ranks : List Nat} {status flags : Nat} {counted : Bool} :
    Lasts s (closeRecord r gt ranks status flags counted t) := by
  unfold Machine.closeRecord
  exact (h.foldl fun _ _ hu => hu.enqueue).mapSites

theorem Lasts.resumeRecord {r : SiloRec} : Lasts s (resumeRecord r t) := by
  unfold Machine.resumeRecord
  split
  · exact h
  · exact .ite h.closeRecord h.updSilo

theorem Lasts.takeSlot {r : SiloRec} : Lasts s (takeSlot r t) := by
  unfold Machine.takeSlot
  split
  · exact h
  extract_lets d res p _ x0 x s1 s2 s3
  have h3 : Lasts s s3 := h.putInst.updSilo.mapColl.resumeFault
  clear_value s3 res
  split
  · exact h3
  · exact h3.enterAborting

theorem Lasts.takeSlots : Lasts s (takeSlots t) := h.foldl fun _ _ hu => .ite hu.takeSlot hu

theorem Lasts.primaryInst {onPrimary : Bool} {x : Instance} : Lasts s (primaryInst onPrimary x t) := by
  unfold Machine.primaryInst
  refine .ite h.updInst ?_
  extract_lets
  split
  · exact h.enterAborting.finaliseOne
  · exact h.enterAborting

theorem Lasts.primaryRecord {onPrimary : Bool} {r : SiloRec} : Lasts s (primaryRecord onPrimary r t) := by
  unfold Machine.primaryRecord
  split
  · exact h
  · exact h.closeRecord

theorem Lasts.presenceAgain {g : Nat} {gt : GroupTable} : Lasts s (presenceAgain g gt t) := by
  unfold Machine.presenceAgain
  extract_lets live recs side
  refine .ite ?_ (.ite ?_ h)
  · exact (h.foldl fun _ _ hu => hu.resumeInst).foldl fun _ _ hu => hu.resumeRecord
  · exact (h.foldl fun _ _ hu => hu.primaryInst).foldl fun _ _ hu => hu.primaryRecord

theorem Lasts.fenceAborts : Lasts s (fenceAborts t) := h.foldl fun _ _ hu => .ite hu.askAbort hu
theorem Lasts.liftFence {p : Nat} : Lasts s (liftFence p t) := .ite h h.updPartner.raise
theorem Lasts.liftFences : Lasts s (liftFences t) := h.foldl fun _ _ hu => hu.liftFence
theorem Lasts.decideGroup {g : Nat} {gt : GroupTable} : Lasts s (decideGroup g gt t) :=
  ((h.latchSilence.unless (·.noteAbsence)).when (·.presenceAgain)).fallowEntry.testFallowLimit

theorem Lasts.decideAbsence : Lasts s (decideAbsence t) := by
  unfold Machine.decideAbsence
  refine (h.foldl fun u x hu => ?_).sendSiteStates.takeSlots
  split
  · exact hu.decideGroup
  · exact hu

/-! ### The functions of Machine/Commits -/

theorem Lasts.commitGroup {g : Nat} : Lasts s (commitGroup g t) := h.updGroup
theorem Lasts.commitProgram {id : Nat} : Lasts s (commitProgram id t) := h.mapColl

theorem Lasts.swapCommit {why : Nat} : Lasts s (swapCommit why t) := by
  unfold Machine.swapCommit
  split
  · exact h
  · exact .ite h.mapOpt (.ite h.mapLine.mapOpt.raise.bump (.ite h.updPhys.mapOpt h))

theorem Lasts.commitPages {port : Nat} : Lasts s (commitPages port t) := by
  unfold Machine.commitPages
  refine .ite h ?_
  extract_lets changed why s1 s2 s3 ps s4 s5
  have h2 : Lasts s s2 := h.mapLine.foldl fun _ _ hu => hu.updLane
  have h4 : Lasts s s4 := h2.mapOpt.foldl fun _ _ hu => hu.updLPort
  have h5 : Lasts s s5 := h4.foldl fun _ _ hu => hu.raise.bump
  exact h5.raise.bump.swapCommit

theorem Lasts.schedSwitch {n : Nat} : Lasts s (schedSwitch n t) := h.mapQos

theorem Lasts.commitItem {i : StagedItem} : Lasts s (commitItem t i) := by
  unfold Machine.commitItem
  split
  · exact h.commitGroup
  · exact h.commitProgram
  · exact h.commitPages
  · exact h.blendCommit
  · exact h.schedSwitch

theorem Lasts.applyCommits : Lasts s (applyCommits t) := (h.mapColl.foldl fun _ _ hu => hu.commitItem).foldl fun _ _ hu => hu.raise
theorem Lasts.applyQosNext : Lasts s (applyQosNext t) := (h.foldl fun _ _ hu => .ite hu.schedSwitch hu).regSet

/-! ### The functions of Machine/TimeOps -/

theorem Lasts.updRef {r : Nat} {f : RefIn → RefIn} : Lasts s (updRef r f t) := h.mapTime
theorem Lasts.changeSource {src : Nat} {auto : Bool} : Lasts s (changeSource src auto t) := .ite h.mapTime (h.mapTime.bump.when (·.raise))

theorem Lasts.applySource : Lasts s (applySource t) := by
  unfold Machine.applySource
  split
  · exact .ite h.changeSource h.mapTime
  · exact h

theorem Lasts.selectSource {src : Nat} : Lasts s (selectSource src t) := .ite h.mapTime h.bump

theorem Lasts.autoRevert : Lasts s (autoRevert t) := by
  unfold Machine.autoRevert
  refine .ite ?_ h
  split
  · exact h.mapTime
  · exact h

theorem Lasts.refFail {r : Nat} : Lasts s (refFail r t) :=
  .ite h.updRef (.ite h.updRef.bump (.ite h.updRef.bump.raise h.updRef.bump.changeSource.raise.autoRevert))
theorem Lasts.setServo {st : Nat} : Lasts s (setServo st t) := h.mapTime
theorem Lasts.requalify : Lasts s (requalify t) := h.mapTime.setServo
theorem Lasts.notePath {port : Nat} : Lasts s (notePath port t) := .ite h (h.updLPort.when (·.requalify))
theorem Lasts.notePaths : Lasts s (notePaths t) := h.foldl fun _ _ hu => hu.notePath
theorem Lasts.holdSample {theta : Int} : Lasts s (holdSample theta t) := h.mapTime.bump
theorem Lasts.qualify : Lasts s (qualify t) := .ite h (.ite h.mapTime.setServo.raise h.setServo.raise)

theorem Lasts.steer {theta : Int} : Lasts s (steer theta t) := by
  unfold Machine.steer
  exact h.mapTime

theorem Lasts.servoSample {theta : Int} : Lasts s (servoSample theta t) := by
  unfold Machine.servoSample
  extract_lets
  split
  · exact h.mapTime.holdSample.qualify
  · exact .ite (h.mapTime.mapTime.bump.when (·.setServo.raise)) h.mapTime.holdSample.steer
  · exact h.mapTime.requalify.holdSample.qualify
  · exact h.mapTime.holdSample
  · exact h.mapTime

theorem Lasts.skipPulses {k n : Nat} : Lasts s (skipPulses k n t) := .ite h h.bumpBy.raise
theorem Lasts.replanPulses : Lasts s (replanPulses t) := h.foldl fun _ _ hu => hu.mapTime.skipPulses

theorem Lasts.applyStep : Lasts s (applyStep t) := by
  unfold Machine.applyStep
  extract_lets
  split
  · exact h
  · exact h.mapTime.mapLine.requalify.replanPulses.bump.raise

/-! ### The functions of Machine/HostRows -/

theorem Lasts.rxFrame {f : State → State} (hf : ∀ u, Lasts s u → Lasts s (f u)) : Lasts s (rxFrame f t) := .ite (hf _ h.bump) h

theorem Lasts.reserveSlot {p : Pkt} (he : reserveSlot p t = some u) : Lasts s u := by
  unfold Machine.reserveSlot at he
  split at he
  · cases he
    exact h
  split at he
  · cases he
  · cases he
    exact h.mapColl

theorem Lasts.passOn {p : Pkt} {casks : List Nat} (he : passOn p casks t = some u) : Lasts s u := by
  unfold Machine.passOn at he
  split at he
  · next s1 _ hr _ =>
    have h1 : Lasts s s1 := h.reserveSlot hr
    extract_lets d s2 s3 at he
    have h2 : Lasts s s2 := by
      unfold s2
      split
      · exact .ite h1 h1.countSymbols
      · exact h1
    have h3 : Lasts s s3 := h2.when (·.updStream)
    clear_value s3
    cases he
    exact h3.mapHost
  · cases he

theorem Lasts.noRoom {id seq : Nat} {atNext : Bool} : Lasts s (noRoom id seq atNext t) := h.sendNack.when (·.openNack)

theorem Lasts.releaseHeld {fuel id : Nat} : Lasts s (releaseHeld fuel id t) := by
  induction fuel generalizing t with
  | zero => exact h
  | succ fuel ih =>
    unfold Machine.releaseHeld
    split
    · exact h
    split
    · exact h
    extract_lets s1
    have h1 : Lasts s s1 := h.updStream
    split
    · exact h1.freeCasks.noRoom
    · next he => exact ih (h1.passOn he).updStream

theorem Lasts.renewGap {id : Nat} : Lasts s (renewGap id t) := h.updStream

theorem Lasts.nackGap {id : Nat} : Lasts s (nackGap id t) := by
  unfold Machine.nackGap
  split
  · exact h
  · exact h.sendNack.openNack

theorem Lasts.payloadCask {p : Pkt} : Lasts s (payloadCask p t).2 := by
  unfold Machine.payloadCask
  split
  · exact h
  · exact h.drawCask

theorem Lasts.sequenceIn {p : Pkt} {c : StreamCtx} : Lasts s (sequenceIn p c t) := by
  unfold Machine.sequenceIn
  refine .ite (h.updStream.bump.when (·.sendAck)) ?_
  refine .ite h.bump.nackGap ?_
  split
  · next s1 he =>
      have h1 : Lasts s s1 := .of_snd h.payloadCask he
      exact (Lasts.ite h1 h1.nackGap).noRoom
  · next s1 he =>
      have h1 : Lasts s s1 := .of_snd h.payloadCask he
      refine .ite ?_ h1.updStream.nackGap
      split
      · exact h1.freeCasks.noRoom
      · next s2 he =>
          have h2 : Lasts s s2 := h1.passOn he
          exact h2.updStream.releaseHeld.renewGap

theorem Lasts.letGo {id seq : Nat} : Lasts s (letGo id seq t) := by
  unfold Machine.letGo
  split
  · exact h
  split
  · exact h
  · exact h.freeCasks.updStream

theorem Lasts.memberGaps {id : Nat} {rs : List (Nat × Nat)} : Lasts s (memberGaps id rs t) := by
  unfold Machine.memberGaps
  split
  · exact h
  extract_lets qs kept gone s1 s2
  have h1 : Lasts s s1 := by
    refine h.foldl fun _ _ hu => ?_
    split
    · exact hu.enqueue.updStream.bump
    · exact hu
  exact (h1.unless (·.sendNack.bumpBy)).when (·.bump)

theorem Lasts.memberCum {id cum : Nat} : Lasts s (memberCum id cum t) := by
  unfold Machine.memberCum
  split
  · exact h
  · exact .ite h.bump ((h.foldl fun _ _ hu => hu.letGo).updStream)

theorem Lasts.memberNack {p : Pkt} : Lasts s (memberNack p t) := (Lasts.ite h.bump.memberGaps h).memberCum

theorem Lasts.exchangeIn {src : Source} {udp : List Byte} : Lasts s (exchangeIn src udp t) := by
  unfold Machine.exchangeIn
  refine .ite h.countLate ?_
  refine .ite h.bump ?_
  refine .ite h.bump.raiseLimited ?_
  split
  · exact h.bump.raiseLimited
  · exact .ite h.bump.raiseLimited (.ite h.memberNack h.sequenceIn)

theorem Lasts.nackRepeat {id : Nat} : Lasts s (nackRepeat id t) := by
  unfold Machine.nackRepeat
  split
  · exact h
  split
  · exact h
  · exact .ite h (.ite h.updStream.sendNack (.ite h.updStream.askAbort h.updStream.raise))

theorem Lasts.ackPeriodic {id : Nat} : Lasts s (ackPeriodic id t) := by
  unfold Machine.ackPeriodic
  split
  · exact h
  · exact .ite h.sendAck h

theorem Lasts.holdExpire {id seq : Nat} : Lasts s (holdExpire id seq t) := by
  unfold Machine.holdExpire
  split
  · exact h
  · exact .ite h.letGo h

theorem Lasts.updPfc {p : Nat} {f : PfcPrio → PfcPrio} : Lasts s (updPfc p f t) := h.mapHost
theorem Lasts.pfcFrame {enabled : Nat} {quanta : List Nat} : Lasts s (pfcFrame enabled quanta t) :=
  h.bump.foldl fun _ _ hu => .ite hu.updPfc hu
theorem Lasts.pfcExpire {p : Nat} : Lasts s (pfcExpire p t) := .ite h.updPfc h
theorem Lasts.pfcWatchdog {p : Nat} : Lasts s (pfcWatchdog p t) := .ite h.updPfc.raise h
theorem Lasts.pfcIgnoreEnd {p : Nat} : Lasts s (pfcIgnoreEnd p t) := .ite h.updPfc h
theorem Lasts.pfcRefresh : Lasts s (pfcRefresh t) := .ite h.sendPfc h
theorem Lasts.pfcDisable : Lasts s (pfcDisable t) := .ite h.bump (h.fldSet.when (·.sendPfc))
theorem Lasts.icmpIn {src : Source} {dst : Nat} {payload : List Byte} : Lasts s (icmpIn src dst payload t) :=
  .ite h (.ite h h.mapHost.enqueue)
theorem Lasts.otherFrame {cause corrected : Nat} : Lasts s (otherFrame cause corrected t) := h.bump.bumpBy
theorem Lasts.linkDown : Lasts s (linkDown t) := .ite h.mapHost.raise h
theorem Lasts.linkUpEffect : Lasts s (linkUpEffect t) := h.mapHost.unless (·.raise.happenedNow)

/-! ### The functions of Machine/EgressRows -/

theorem Lasts.updSched {n : Nat} {f : Sched → Sched} : Lasts s (updSched n f t) := h.mapQos
theorem Lasts.takeHead {n q len : Nat} : Lasts s (takeHead n q len t) := h.updSched.bump
theorem Lasts.noteDelivered {p : HostPkt} : Lasts s (noteDelivered p t) := .ite h.updInst h

theorem Lasts.sendSequenced {p : HostPkt} : Lasts s (sendSequenced p t) := by
  unfold Machine.sendSequenced
  split
  · exact h.freeCasks
  · exact h.updStream.emit.noteDelivered

theorem Lasts.sendItem {it : EItem} {off : Nat} : Lasts s (sendItem it off t) := by
  unfold Machine.sendItem
  split
  · exact .ite h.noteDelivered.freeCasks h.sendSequenced
  · exact .ite h h.emit
  · exact .ite h h.emit
  · exact h.emit.mapTime
  · exact h.emit
  · exact h

theorem Lasts.hostSelect {off : Nat} : Lasts s (hostSelect off t) := by
  unfold Machine.hostSelect
  refine .ite h ?_
  split
  · exact h.updSched
  split
  · exact h
  · exact h.updSched.takeHead.sendItem.releaseDone

theorem Lasts.tokenRefill {n q : Nat} : Lasts s (tokenRefill n q t) := .ite h ((Lasts.ite h.bump h).updSched)

/-! ### The functions of Machine/SecOps -/

theorem Lasts.addFragment {src : Source} {l : List Byte} : Lasts s (addFragment src l t).2 := by
  unfold Machine.addFragment
  extract_lets
  split
  · exact h
  split
  · exact h
  split
  · dsimp only
    exact h.mapHost
  · dsimp only
    exact h.mapHost

theorem Lasts.sendFragments {kind sid ident : Nat} {dst : Source} {body : List Byte} :
    Lasts s (sendFragments kind sid ident dst body t) :=
  h.foldl fun _ _ hu => hu.enqueue

theorem Lasts.helloIn {src : Source} {ident : Nat} {b : List Byte} : Lasts s (helloIn src ident b t) := by
  unfold Machine.helloIn
  extract_lets fresh n s1
  have h1 : Lasts s s1 := h.mapHost
  clear_value s1
  refine .ite h ?_
  split
  · exact h1.raise
  split
  next he => exact (h1.takeFree.of_snd he).mapHost.sendFragments

theorem Lasts.helloFragment {src : Source} {udp : List Byte} : Lasts s (helloFragment src udp t) := by
  unfold Machine.helloFragment
  refine .ite h ?_
  split
  · next s1 he =>
      have h1 : Lasts s s1 := .of_snd h.addFragment he
      exact h1.helloIn
  · next s1 he =>
      have h1 : Lasts s s1 := .of_snd h.addFragment he
      exact h1

theorem Lasts.finishIn {udp : List Byte} {x : HalfOpen} : Lasts s (finishIn udp x t) := by
  unfold Machine.finishIn
  extract_lets
  split
  · exact h.mapHost.bump
  · exact .ite h.mapHost (h.mapHost.mapHost.when (·.mapSites))

theorem Lasts.finishRx {udp : List Byte} : Lasts s (finishRx udp t) := by
  unfold Machine.finishRx
  refine .ite h ?_
  split
  · exact h.finishIn
  · exact h

theorem Lasts.endSession {sid : Nat} : Lasts s (endSession sid t) := by
  unfold Machine.endSession
  exact h.mapHost.mapMgt

theorem Lasts.openDatagramOf {sid kind : Nat} {udp : List Byte} {f : Nat → List Byte → State → State}
    (hf : ∀ a b u, Lasts s u → Lasts s (f a b u)) : Lasts s (openDatagramOf sid kind udp f t) := by
  unfold Machine.openDatagramOf
  refine .ite h ?_
  split
  · exact h
  extract_lets
  split
  · exact h.bump
  · exact .ite h.bump.raise ((hf _ _ _ h.mapHost).when (·.endSession))

theorem Lasts.openDatagram {kind : Nat} {udp : List Byte} {f : Nat → List Byte → State → State}
    (hf : ∀ a b u, Lasts s u → Lasts s (f a b u)) : Lasts s (openDatagram kind udp f t) :=
  h.openDatagramOf hf

theorem Lasts.requestIn {m seq sid : Nat} {b : List Byte} : Lasts s (requestIn m seq sid b t) :=
  .ite (.ite h h.mbxSend.bump) (.ite h.mbxSend (.ite h.updMbx.mbxAnswer (.ite h.updMbx.mbxAnswer h.updMbx.mapMgt)))
theorem Lasts.sessionIdle {sid : Nat} : Lasts s (sessionIdle sid t) := .ite h.endSession h
theorem Lasts.fwStore {slot off : Nat} {l : List Byte} : Lasts s (fwStore slot off l t) := h.mapMgt
theorem Lasts.bulkWrite {b : Bulk} {off : Nat} {l : List Byte} : Lasts s (bulkWrite b off l t) := .ite h.regionWrite (.ite h.fwStore h)
theorem Lasts.updSession {sid : Nat} {f : Session → Session} : Lasts s (updSession sid f t) := h.mapHost

theorem Lasts.bulkPump {fuel sid : Nat} : Lasts s (bulkPump fuel sid t) := by
  induction fuel generalizing t with
  | zero => exact h
  | succ fuel ih =>
    unfold Machine.bulkPump
    split
    · exact h
    · exact .ite h (.ite h (ih h.mbxSend.updSession))

theorem Lasts.bulkAcked {sid : Nat} {b : Bulk} {off : Nat} : Lasts s (bulkAcked sid b off t) :=
  .ite (.ite (h.updSession.when (·.mapFlt)) h.updSession.bulkPump) h
theorem Lasts.bulkData {sid : Nat} {b : Bulk} {seq off : Nat} {l : List Byte} : Lasts s (bulkData sid b seq off l t) :=
  (Lasts.ite h.bulkWrite h).updSession.mbxSend

theorem Lasts.bulkIn {seq sid : Nat} {body : List Byte} : Lasts s (bulkIn seq sid body t) := by
  unfold Machine.bulkIn
  split
  · exact h
  · exact .ite h (.ite h.bulkAcked h.bulkData)

theorem Lasts.bulkResend {sid : Nat} : Lasts s (bulkResend sid t) := by
  unfold Machine.bulkResend
  split
  · exact h
  · exact .ite h.updSession.bulkPump h

/-! ### The functions of Machine/CtlOps -/

theorem Lasts.policed {port : Nat} {f : State → State} (hf : ∀ u, Lasts s u → Lasts s (f u)) : Lasts s (policed port f t) :=
  .ite (hf _ h.updSched) h.updSched.bump.raisePort
theorem Lasts.pruneTxKeys {p : Nat} : Lasts s (pruneTxKeys p t) := h.updKeys
theorem Lasts.deriveRx {p : Nat} : Lasts s (deriveRx p t) := h.updKeys

/-! ### The functions of Machine/BruOps -/

theorem Lasts.runCheck : Lasts s (runCheck t) := .ite h (h.mapBru.unless (·.bump))
theorem Lasts.trialPassed : Lasts s (trialPassed t) := .ite h h.mapMgt
theorem Lasts.stepTen : Lasts s (stepTen t) := h.mapBru.mapBru.runCheck.trialPassed
theorem Lasts.bruEdge : Lasts s (bruEdge t) := .ite (.ite h.stepTen h) (.ite h.runCheck.mapBru h.mapBru)
theorem Lasts.becomeReady : Lasts s (becomeReady t) := .ite (h.setReady fun _ => rfl).fldSet.mapSites h
theorem Lasts.applyLock : Lasts s (applyLock t) := .ite (h.setSysLock fun _ => rfl) h

/-! ### The functions of Machine/PairRows -/

theorem Lasts.sendPair {p : Nat} {body : List Byte} : Lasts s (sendPair p body t) := h.updPartner
theorem Lasts.sendHello {p : Nat} : Lasts s (sendHello p t) := h.sendPair.updKeys
theorem Lasts.beginPairing {p : Nat} : Lasts s (beginPairing p t) := h.same.updKeys.updPartner.sendHello
theorem Lasts.pairFail {p reason : Nat} : Lasts s (pairFail p reason t) := h.updKeys.raise.bump.happenedNow
theorem Lasts.answerHello {p : Nat} {b : List Byte} : Lasts s (answerHello p b t) := h.same.updKeys.sendPair

theorem Lasts.helloRx {p : Nat} {b : List Byte} : Lasts s (helloRx p b t) := by
  unfold Machine.helloRx
  refine .ite h ?_
  extract_lets
  split
  · exact (Lasts.ite h.beginPairing h).pairFail
  · exact (Lasts.ite h.beginPairing h).answerHello

theorem Lasts.helloRepeat {p : Nat} : Lasts s (helloRepeat p t) := .ite h (.ite h.beginPairing (.ite h.sendHello h))
theorem Lasts.firstKeys {p : Nat} {encapRx ssPartner : List Byte} : Lasts s (firstKeys p encapRx ssPartner t) := h.updKeys.sendPair
theorem Lasts.encapRx {p : Nat} {b : List Byte} : Lasts s (encapRx p b t) := .ite h (.ite h.pairFail h.firstKeys)
theorem Lasts.restartTribs {p : Nat} {keep : Bool} : Lasts s (restartTribs p keep t) :=
  .ite h.mapLine ((h.mapLine.foldl fun _ _ hu => hu.askAbort).mapLine.ringEval.updPartner)
theorem Lasts.restartControl {p : Nat} : Lasts s (restartControl p t) := h.updPartner.updTrib
theorem Lasts.paired {p : Nat} : Lasts s (paired p t) := h.updKeys.restartTribs.restartControl.updPartner.raise.bump.happenedNow
theorem Lasts.confirmRx {p : Nat} {b : List Byte} : Lasts s (confirmRx p b t) := .ite h (.ite h.paired h.pairFail)
theorem Lasts.pairTimeout {p : Nat} : Lasts s (pairTimeout p t) := .ite h.pairFail h
theorem Lasts.pairRetry {p : Nat} : Lasts s (pairRetry p t) := .ite h.beginPairing h
theorem Lasts.repair {p : Nat} : Lasts s (repair p t) := .ite (.ite h.beginPairing h.updKeys.updPartner) h
theorem Lasts.repairNoBlock {p : Nat} : Lasts s (repairNoBlock p t) := .ite h.repair h
theorem Lasts.reseal {p old : Nat} : Lasts s (reseal p old t) := h.foldl fun _ _ hu => hu.updTrib.updKeys

theorem Lasts.resealOldest {p : Nat} : Lasts s (resealOldest p t) := by
  unfold Machine.resealOldest
  split
  · exact h.reseal.pruneTxKeys
  · exact h

theorem Lasts.rackBegin {p : Nat} : Lasts s (rackBegin p t) := .ite h h.resealOldest.updKeys.sendCtl
theorem Lasts.rackSwitch {p : Nat} : Lasts s (rackSwitch p t) := .ite h.updKeys.pruneTxKeys.raise.bump h
theorem Lasts.announceRx {p dir count kcv : Nat} : Lasts s (announceRx p dir count kcv t) :=
  .ite h (.ite ((Lasts.ite h.deriveRx h).sendCtl) ((Lasts.ite h.deriveRx h).raise.repair))
theorem Lasts.windowClose {p : Nat} : Lasts s (windowClose p t) := .ite h.updKeys h
theorem Lasts.updUce {f : Uce → Uce} : Lasts s (updUce f t) := h.mapSec
theorem Lasts.uceClaims {claims : List (Nat × Nat)} : Lasts s (uceClaims claims t) := h.updUce.bumpBy
theorem Lasts.uceRelease {src gen : Nat} : Lasts s (uceRelease src gen t) := .ite h.updUce h
theorem Lasts.uceTimeout : Lasts s (uceTimeout t) := .ite h.updUce.raise.bump h

/-! ### The functions of Machine/PmOps -/

theorem Lasts.putBin {b : PmBin} : Lasts s (putBin b t) := by
  unfold Machine.putBin
  exact h.mapLine

theorem Lasts.pmThreshold {scope kind : Nat} : Lasts s (pmThreshold scope kind t) := by
  unfold Machine.pmThreshold
  split
  · exact h
  refine .ite h (h.foldl fun u x hu => ?_)
  split
  · refine .ite ?_ hu
    extract_lets
    split
    · exact hu.raise.putBin
    · exact hu.raise
  · exact hu

theorem Lasts.pmUpdate {scope : Nat} {f : List Int → List Int} : Lasts s (pmUpdate scope f t) :=
  .ite h (h.foldl fun _ _ hu => hu.putBin.pmThreshold)
theorem Lasts.pmAdd {scope i n : Nat} : Lasts s (pmAdd scope i n t) := .ite h h.pmUpdate
theorem Lasts.updSecond {scope : Nat} {f : PmSecond → PmSecond} : Lasts s (updSecond scope f t) := h.mapLine
theorem Lasts.pmFrame {scope : Nat} {bad : Bool} : Lasts s (pmFrame scope bad t) := h.updSecond
theorem Lasts.pmBadBlock {scope : Nat} : Lasts s (pmBadBlock scope t) := h.updSecond
theorem Lasts.pmDefect {scope : Nat} : Lasts s (pmDefect scope t) := h.updSecond

/-! ### The functions of Machine/SelectRows -/

theorem Lasts.transmit {n seq : Nat} {r : RingBlock} {resent : Bool} : Lasts s (transmit n seq r resent t) := by
  unfold Machine.transmit
  split
  · exact h
  · exact h.sealBlock.updTrib

theorem Lasts.refuseBlock {p : LinePartial} : Lasts s (refuseBlock p t) := h.raise.bump.askAbort

theorem Lasts.buildBlock {n : Nat} {p : LinePartial} : Lasts s (buildBlock n p t) := by
  unfold Machine.buildBlock
  split
  · exact h
  extract_lets b body len s0 s1
  have h1 : Lasts s s1 := h.bumpBy.bumpBy.unless (·.countSymbols)
  exact .ite h1.refuseBlock h1.updTrib.transmit.ringEval.pmAdd.pmFrame

theorem Lasts.lineSelect {port : Nat} : Lasts s (lineSelect port t) := by
  unfold Machine.lineSelect
  refine .ite h ?_
  split
  · exact h.updSched
  split
  · exact h
  extract_lets
  split
  · exact h.updSched.takeHead.buildBlock
  · exact h.updSched.takeHead

theorem Lasts.sampleQueue {n q : Nat} : Lasts s (sampleQueue n q t) := h.updSched
theorem Lasts.queueSample : Lasts s (queueSample t) := .ite h ((h.foldl fun _ _ hu => .ite hu hu.sampleQueue).mapQos)

theorem Lasts.resendBlock {n seq : Nat} : Lasts s (resendBlock n seq t) := by
  unfold Machine.resendBlock
  split
  · exact h
  split
  · exact h
  · exact h.updTrib.transmit.pmAdd.pmAdd.pmBadBlock.bump

/-! ### The functions of Machine/TimeRows -/

theorem Lasts.ptpIn {domain transport : Nat} {f : State → State}
    (hf : ∀ u, Lasts s u → Lasts s (f u)) : Lasts s (ptpIn domain transport f t) :=
  .ite h (.ite h.bump (hf _ h))

theorem Lasts.followMaster : Lasts s (followMaster t) := .ite h.mapTime (h.mapTime.mapTime.bump.raise.when (·.requalify))
theorem Lasts.announceIn {m : PtpMaster} : Lasts s (announceIn m t) := h.mapTime.followMaster

theorem Lasts.announceTimeout : Lasts s (announceTimeout t) := by
  unfold Machine.announceTimeout
  split
  · exact h
  split
  · exact .ite h.mapTime.followMaster h
  · exact h.followMaster

theorem Lasts.syncIn {identity port seq : Nat} {twoStep : Bool} {t1 : Nat} {corr : Int} {off : Nat} :
    Lasts s (syncIn identity port seq twoStep t1 corr off t) :=
  .ite h.bump h.mapTime

theorem Lasts.followUpIn {identity port seq t1 : Nat} {corr : Int} : Lasts s (followUpIn identity port seq t1 corr t) :=
  .ite h.bump h.mapTime

theorem Lasts.delayReq : Lasts s (delayReq t) := by
  unfold Machine.delayReq
  split
  · exact h
  · exact .ite h h.mapTime.enqueue

theorem Lasts.delayRespIn {identity port seq t4 : Nat} {corr : Int} : Lasts s (delayRespIn identity port seq t4 corr t) := by
  unfold Machine.delayRespIn
  refine .ite h.bump ?_
  split
  · exact h.mapTime.when (·.servoSample)
  · exact h

theorem Lasts.holdover : Lasts s (holdover t) := .ite h.setServo.raise h
theorem Lasts.timeInvalid : Lasts s (timeInvalid t) := .ite h.mapTime.raise h
theorem Lasts.sourceWrite {v : Nat} : Lasts s (sourceWrite v t) := .ite h.bump (.ite h h.regSet.requalify)
theorem Lasts.servoEnWrite {on : Bool} : Lasts s (servoEnWrite on t) := h.fldSet.unless (·.requalify)
theorem Lasts.pulseWrite {k v : Nat} : Lasts s (pulseWrite k v t) := (h.regSet.when (·.bump)).mapTime.skipPulses

theorem Lasts.pulseEdge {k : Nat} : Lasts s (pulseEdge k t) := by
  unfold Machine.pulseEdge
  extract_lets
  split
  · exact h
  · exact .ite h ((Lasts.ite h h.emit).mapTime)

theorem Lasts.judgeRef {r : Nat} {dev other vsOther : Int} {otherGood : Bool} : Lasts s (judgeRef r dev other vsOther otherGood t) :=
  .ite (.ite h.updRef (h.updRef.updRef.when (·.happenedNow.autoRevert))) (h.updRef.updRef.unless (·.refFail))
theorem Lasts.refWindow {a b ab : Int} : Lasts s (refWindow a b ab t) := (Lasts.ite h.raise.bump h).judgeRef.judgeRef

theorem Lasts.xtalStable : Lasts s (xtalStable t) := by
  unfold Machine.xtalStable
  extract_lets
  split
  · exact h.mapTime.when (·.selectSource)
  · exact h.mapTime

theorem Lasts.xtalFail : Lasts s (xtalFail t) := .ite h.mapTime.raise h.mapTime.raise

/-! ### The functions of Machine/RegRead -/

theorem Lasts.latchRead {a : Nat} : Lasts s (latchRead a t) := by
  unfold Machine.latchRead
  split
  · exact h.mapMgt
  · exact h.mapTime
  · exact h.mapPress
  · exact h.mapMem
  · exact h.mapFlt
  · exact h

theorem Lasts.clearRead {a : Nat} : Lasts s (clearRead a t) := by
  unfold Machine.clearRead
  refine .ite h ?_
  split
  · exact h.mapCellar
  · exact h.regSet

theorem Lasts.readEffect {a : Nat} : Lasts s (readEffect a t) := h.latchRead.clearRead

/-! ### The functions of Machine/MbxSys -/

theorem Lasts.regionOut {hd off : Nat} {d : List Byte} : Lasts s (regionOut hd off d t).state := by
  unfold Machine.regionOut
  split
  · exact h.refuse
  split
  · exact h.refuse
  split
  · exact h.refuse
  · exact h.regionWrite.doneWith

theorem Lasts.subscribe {sid from_ cls : Nat} : Lasts s (subscribe sid from_ cls t) := (h.foldl fun _ _ hu => hu.mbxSend).updSession
theorem Lasts.acceptCommit {edge : Nat} {items : List StagedItem} : Lasts s (acceptCommit edge items t).state :=
  h.mapColl.ledgerWrite.doneWith

theorem Lasts.sysCommit {byTime : Bool} {at_ : Nat} {items : List StagedItem} : Lasts s (sysCommit byTime at_ items t).state := by
  unfold Machine.sysCommit
  split
  · exact h.refuse
  · exact h.acceptCommit

theorem Lasts.sysWithdraw {id : Nat} : Lasts s (sysWithdraw id t).state := by
  unfold Machine.sysWithdraw
  split
  · split
    · exact h.refuse
    · exact h.mapColl.done
  · exact h.refuse

theorem Lasts.manifestInstall {region off len : Nat} : Lasts s (manifestInstall region off len t).state := by
  unfold Machine.manifestInstall
  split
  · exact h.refuse
  split
  · exact h.refuse
  split
  · exact h.refuse
  · exact (h.mapBru.foldl fun _ _ hu => hu.happenedNow).done

theorem Lasts.twinHello : Lasts s (twinHello t) := h.takeFree.mapSites.sendFragments

theorem Lasts.shadowJoin {peer : List Byte} {src : Source} : Lasts s (shadowJoin peer src t).state := by
  unfold Machine.shadowJoin
  split
  · exact h.refuse
  split
  · exact h.refuse
  · exact h.mapSites.mapLine.twinHello.done

theorem Lasts.shadowAccept {peer : List Byte} {src : Source} : Lasts s (shadowAccept peer src t).state := by
  unfold Machine.shadowAccept
  split
  · exact h.refuse
  split
  · exact h.refuse
  · exact h.mapSites.done

theorem Lasts.shadowPromote {at_ : Nat} {peerOk : Bool} : Lasts s (shadowPromote at_ peerOk t).state := by
  unfold Machine.shadowPromote
  split
  · exact h.refuse
  extract_lets
  split
  · exact (h.mapSites.foldl fun _ _ hu => .ite hu.sendCtl hu).done
  · exact h.mapSites.done

/-! ### The functions of Machine/MbxColl -/

theorem Lasts.groupStage {entry : List Byte} {members : List (List Byte)} : Lasts s (groupStage entry members t).state := by
  unfold Machine.groupStage
  extract_lets
  split
  · exact h.refuse
  split
  · exact h.refuse
  · exact h.mapColl.done

theorem Lasts.groupRead {g : Nat} : Lasts s (groupRead g t).state := by
  unfold Machine.groupRead
  split
  · exact h.refuse
  extract_lets
  split
  · exact h.refuse
  · exact h.doneWith

theorem Lasts.streamOpen {id endpoint : Nat} {v6 : Bool} {port addr inInit outInit : Nat} :
    Lasts s (streamOpen id endpoint v6 port addr inInit outInit t).state := by
  unfold Machine.streamOpen
  split
  · exact h.refuse
  split
  · exact h.refuse
  · exact h.same.mapHost.done

theorem Lasts.streamClose {id : Nat} : Lasts s (streamClose id t).state := by
  unfold Machine.streamClose
  split
  · exact h.refuse
  split
  · exact h.refuse
  · exact h.mapHost.freeCasks.done

theorem Lasts.opStat {g i : Nat} : Lasts s (opStat g i t).state := by
  unfold Machine.opStat
  split
  · exact h.doneWith
  split
  · exact h.mapColl.doneWith
  · exact h.refuse

theorem Lasts.opList {first : Nat} : Lasts s (opList first t).state := h.doneWith

theorem Lasts.opAbort {g i : Nat} : Lasts s (opAbort g i t).state := by
  unfold Machine.opAbort
  split
  · exact h.askAbort.done
  · exact h.refuse

theorem Lasts.progLoad {id region off len : Nat} : Lasts s (progLoad id region off len t).state := by
  unfold Machine.progLoad
  split
  · exact h.refuse
  extract_lets
  split
  · exact h.refuse
  extract_lets
  split
  · exact h.refuse
  split
  · exact h.refuse
  split
  · exact h.refuse
  · exact h.mapColl.done

theorem Lasts.progUnload {id : Nat} : Lasts s (progUnload id t).state := by
  unfold Machine.progUnload
  split
  · exact h.refuse
  split
  · exact h.refuse
  · exact h.mapColl.done

theorem Lasts.progList : Lasts s (progList t).state := h.doneWith
theorem Lasts.dramClear {a n : Nat} : Lasts s (dramClear a n t) := h.mapMem

theorem Lasts.regionCreate {size : Nat} : Lasts s (regionCreate size t).state := by
  unfold Machine.regionCreate
  split
  · exact h.refuse
  split
  · exact h.mapMem.dramClear.doneWith
  · exact h.refuse

theorem Lasts.regionFree {hd : Nat} : Lasts s (regionFree hd t).state := by
  unfold Machine.regionFree
  split
  · exact h.refuse
  split
  · exact h.refuse
  · exact h.mapMem.done

theorem Lasts.regionPut {hd off : Nat} {d : List Byte} : Lasts s (regionPut hd off d t).state := by
  unfold Machine.regionPut
  split
  · exact h.refuse
  split
  · exact h.refuse
  refine .ite_state h.refuse (.ite_state h.refuse ?_)
  exact .ite_state h.refuse h.regionWrite.done

theorem Lasts.bulkOpen {sid kind target off len : Nat} {sending : Bool} :
    Lasts s (bulkOpen sid kind target off len sending t).state := by
  unfold Machine.bulkOpen
  split
  · exact h.refuse
  split
  · exact h.refuse
  · exact Lasts.done (Lasts.bulkPump h.updSession)

/-! ### The functions of Machine/LinePages -/

theorem Lasts.sendPageOffer {port : Nat} {o : PageSet} : Lasts s (sendPageOffer port o t) := h.updLPort.sendCtl
theorem Lasts.stageSet {why : Nat} {pages : PageView} : Lasts s (stageSet why pages t) :=
  h.mapLine.foldl fun _ _ hu => .ite hu.updLPort hu.updLPort.sendPageOffer

theorem Lasts.pageStage {lane : Nat} {p : List Byte} : Lasts s (pageStage lane p t).state := by
  unfold Machine.pageStage
  split
  · exact h.refuse
  split
  · exact h.refuseD
  · exact h.stageSet.doneWith

theorem Lasts.reoffer {port : Nat} : Lasts s (reoffer port t) := .ite h.sendPageOffer h
theorem Lasts.standbyDiscard {port : Nat} : Lasts s (standbyDiscard port t) := .ite h h.mapLine
theorem Lasts.requestRevert {port : Nat} : Lasts s (requestRevert port t) := .ite h.updLPort h.bump
theorem Lasts.wantedReverts : Lasts s (wantedReverts t) := h.foldl fun _ _ hu => .ite hu.updLPort.requestRevert hu
theorem Lasts.startFarChecks : Lasts s (startFarChecks t) := h.foldl fun _ _ hu => .ite hu hu.updPhys

theorem Lasts.applyReverts : Lasts s (applyReverts t) := by
  unfold Machine.applyReverts
  exact h.wantedReverts.when (·.mapLine.startFarChecks)

theorem Lasts.sendReject {port id : Nat} {f : PageFault} : Lasts s (sendReject port id f t) := h.sendCtl.bump

theorem Lasts.supersede {port : Nat} {o : PageSet} : Lasts s (supersede port o t) := by
  unfold Machine.supersede
  extract_lets
  split
  · exact .ite h.updLPort.sendReject h
  · exact h

theorem Lasts.holdSet {port : Nat} {o : PageSet} : Lasts s (holdSet port o t) := h.updLPort

theorem Lasts.offerRx {port : Nat} {b : List Byte} : Lasts s (offerRx port b t) := by
  unfold Machine.offerRx
  split
  · exact h.sendReject
  split
  · exact h.sendReject
  · exact h.supersede.holdSet.sendCtl

theorem Lasts.autoCommit {port : Nat} : Lasts s (autoCommit port t) := .ite h.acceptCommit h
theorem Lasts.rejectRx {port id reason : Nat} : Lasts s (rejectRx port id reason t) := .ite h.bump.reoffer (h.bump.when (·.updLPort))

theorem Lasts.readyRx {port : Nat} {b : List Byte} : Lasts s (readyRx port b t) := by
  unfold Machine.readyRx
  split
  · exact h
  · exact .ite h (.ite h.rejectRx (.ite h.updLPort (.ite h.updLPort h.updLPort.autoCommit)))

theorem Lasts.degrCompute {pages : List (List Byte)} : Lasts s (degrCompute pages t) :=
  .ite h (h.mapLine.foldl fun _ _ hu => .ite hu hu.sendPageOffer)
theorem Lasts.doubleRepage {pages : List (List Byte)} : Lasts s (doubleRepage pages t) := .ite h h.stageSet
theorem Lasts.setDiscard {port : Nat} : Lasts s (setDiscard port t) := .ite h.updLPort h

/-! ### The functions of Machine/LineTx -/

theorem Lasts.mapBlock {n : Nat} {front : Bool} {b : List Byte} : Lasts s (mapBlock n front b t) := h.updTrib
theorem Lasts.sendPairing {p : Nat} : Lasts s (sendPairing p t) := h.updPartner.foldl fun _ _ hu => .ite hu.sealBlock.mapBlock hu.mapBlock
theorem Lasts.sendControl {p : Nat} : Lasts s (sendControl p t) := .ite h (.ite h h.sealBlock.updPartner.mapBlock)

theorem Lasts.resendControl {p seq : Nat} : Lasts s (resendControl p seq t) := by
  unfold Machine.resendControl
  split
  · exact h.updTrib
  · exact h.sealBlock.updTrib.updPartner.mapBlock.pmAdd.bump

theorem Lasts.sendResends : Lasts s (sendResends t) :=
  h.foldl fun _ _ hu => (hu.foldl fun _ _ hu' => (.ite hu' (.ite hu'.resendControl hu'.resendBlock)))
theorem Lasts.sendAcks : Lasts s (sendAcks t) := h.foldl fun _ _ hu => .ite hu.sendTribAck hu

theorem Lasts.tribFrame {last : Bool} {n : Nat} : Lasts s (tribFrame last n t).2 := by
  unfold Machine.tribFrame
  split
  · exact h
  split
  · exact h
  · exact ((h.updTrib.when (·.bump.raisePort)).bumpBy.bumpBy.pmAdd.pmAdd).unless (·.pmAdd.pmAdd)

theorem Lasts.sendSlot {n slot : Nat} {page : List Byte} {tribs : List TribFrame} : Lasts s (sendSlot n slot page tribs t) :=
  .ite h (.ite h.bump h.emit.updLane)
theorem Lasts.sheafFrameTx {id : Nat} : Lasts s (sheafFrameTx id t).2 := h.updTrib
theorem Lasts.sheafFrames : Lasts s (sheafFrames t).2 := Lasts.foldl_snd (p := ([], t)) h fun _ _ hp => hp.sheafFrameTx
theorem Lasts.sendXhSlot {ms : List ((Nat × Nat × Nat) × List Byte)} {n slot : Nat} : Lasts s (sendXhSlot ms n slot t) := h.same.emit
theorem Lasts.sendXhLane {ms : List ((Nat × Nat × Nat) × List Byte)} {n : Nat} : Lasts s (sendXhLane ms n t) :=
  .ite h ((h.foldl fun _ _ hu => hu.sendXhSlot).bump)

theorem Lasts.sendXh : Lasts s (sendXh t) := by
  unfold Machine.sendXh
  extract_lets r
  exact Lasts.foldl (t := r.2) h.sheafFrames fun _ _ hu => hu.sendXhLane

theorem Lasts.sendLane {tribs : List TribFrame} {n : Nat} : Lasts s (sendLane tribs n t) := by
  unfold Machine.sendLane
  split
  · exact h
  · exact .ite h ((h.foldl fun _ _ hu => hu.sendSlot).bump)

theorem Lasts.frameStart : Lasts s (frameStart t) := by
  unfold Machine.frameStart
  extract_lets s1 s2 last s3 r
  have h1 : Lasts s s1 := h.applyReverts.sendAcks.sendResends
  have h2 : Lasts s s2 := h1.foldl fun _ _ hu => hu.sendPairing.sendControl
  have h3 : Lasts s s3 := h2.foldl fun _ _ hu => hu.unless (·.bump)
  clear_value s3
  have hr : Lasts s r.2 := by
    refine Lasts.foldl_snd ?_ fun _ _ hp => hp.tribFrame
    exact h3
  exact (hr.foldl fun _ _ hu => hu.sendLane).sendXh

theorem Lasts.keepalive {p : Nat} : Lasts s (keepalive p t) := .ite h.sendCtl h

theorem Lasts.ackIdle {n : Nat} : Lasts s (ackIdle n t) := by
  unfold Machine.ackIdle
  split
  · exact h
  · exact .ite h.sendTribAck h

theorem Lasts.nackAgain {n : Nat} {tr : Trib} {due : SMap LineNack} {reason : Nat} : Lasts s (nackAgain n tr due reason t) :=
  h.nackMessages.updTrib.foldl fun _ _ hu => hu.raise

theorem Lasts.nackRepeats {n : Nat} : Lasts s (nackRepeats n t) := by
  unfold Machine.nackRepeats
  split
  · exact h
  · exact h.foldl fun _ _ hu => hu.nackAgain

theorem Lasts.resendTimer {n : Nat} : Lasts s (resendTimer n t) := by
  unfold Machine.resendTimer
  split
  · exact h
  extract_lets
  split
  · split
    · exact .ite h.updTrib.updPartner h
    · exact h
  split
  · exact .ite h.updTrib h
  · exact h

/-! ### The functions of Machine/OptOps -/

theorem Lasts.locateLoss {n : Nat} : Lasts s (locateLoss n t) := h.updPhys.raise

theorem Lasts.offerTraining {w : Swap} : Lasts s (offerTraining w t) := by
  unfold Machine.offerTraining
  exact h.mapOpt.updLane.stageSet

theorem Lasts.offerSwap {w : Swap} : Lasts s (offerSwap w t) := by
  unfold Machine.offerSwap
  exact h.mapOpt.updLane.stageSet

theorem Lasts.withdrawPages : Lasts s (withdrawPages t) := by
  unfold Machine.withdrawPages
  exact (h.foldl fun _ _ hu => hu.standbyDiscard).mapColl

theorem Lasts.stopSwap : Lasts s (stopSwap t) := by
  unfold Machine.stopSwap
  split
  · exact h
  · exact .ite h ((Lasts.ite h.withdrawPages h).updPhys.updLane.mapOpt.raise.bump)

theorem Lasts.startSwap {k : Nat} {short : Bool} : Lasts s (startSwap k short t) := by
  unfold Machine.startSwap
  split
  · exact h.mapOpt
  · exact h

theorem Lasts.declareTx {n : Nat} : Lasts s (declareTx n t) := .ite h ((h.updPhys.raise.bump.pmDefect.when (·.stopSwap)).locateLoss)
theorem Lasts.declareRx {n : Nat} {los : Bool} : Lasts s (declareRx n los t) :=
  .ite h ((h.updPhys.updLane.when (·.bump)).raise.bump.pmDefect.locateLoss)

theorem Lasts.wrongWavelength {n reported : Nat} : Lasts s (wrongWavelength n reported t) := by
  unfold Machine.wrongWavelength
  refine .ite h ?_
  extract_lets _ s1 _ s2 s3
  have h3 : Lasts s s3 := by
    unfold s3
    split
    · exact .ite ((h.updPhys.raise.bump.declareTx.when (·.withdrawPages)).offerSwap) h.updPhys.raise.bump.declareTx
    · exact h.updPhys.raise.bump.declareTx
  exact .ite h3 (h3.updPhys.when (·.startSwap))

/-! ### The functions of Machine/LineRx -/

theorem Lasts.foundBlocks {port : Nat} {l : List (List Byte)} : Lasts s (foundBlocks port l t) := h.mapLine

theorem Lasts.takeFrame {port lane n frame : Nat} {container : List Byte} : Lasts s (takeFrame port lane n frame container t) := by
  unfold Machine.takeFrame
  split
  · exact h
  refine .ite h.updTrib ?_
  extract_lets neg data pos negs ptr follows from_ s1 s2 s3
  have h2 : Lasts s s2 := h.bumpBy.bumpBy.pmAdd.pmAdd
  have h3 : Lasts s s3 := h2.unless (·.pmAdd.pmAdd)
  clear_value s3 from_
  split
  · exact h3.updTrib
  · exact h3.updTrib.foundBlocks

theorem Lasts.putPieces {n frame : Nat} {l : List (Nat × List Byte)} : Lasts s (putPieces n frame l t) := h.updTrib
theorem Lasts.putPointer {port lane : Nat} {e : List Byte} : Lasts s (putPointer port lane e t) := (Lasts.ite h.bump h).updTrib
theorem Lasts.controlPieces {x : SlotIn} : Lasts s (controlPieces x t) := .ite h h.putPieces

theorem Lasts.controlFrame {x : SlotIn} : Lasts s (controlFrame x t) := by
  unfold Machine.controlFrame
  split
  · exact h
  · exact .ite h.takeFrame h

theorem Lasts.exchangePieces {x : SlotIn} {p : List Byte} : Lasts s (exchangePieces x p t) := by
  unfold Machine.exchangePieces
  refine h.foldl fun u x hu => ?_
  split
  · exact hu
  · exact .ite hu (hu.putPieces.when (·.takeFrame))

theorem Lasts.unknownPage {x : SlotIn} : Lasts s (unknownPage x t) := h.bump.sendReject.raisePort
theorem Lasts.noteSet {x : SlotIn} : Lasts s (noteSet x t) := h.updLPort
theorem Lasts.noteRdi {x : SlotIn} : Lasts s (noteRdi x t) := (h.foldl fun _ _ hu => hu.raise).updLPort
theorem Lasts.noteReports {x : SlotIn} : Lasts s (noteReports x t) :=
  h.foldl fun _ _ hu => .ite hu (.ite hu (.ite hu.updPhys (.ite hu.updPhys hu.wrongWavelength)))
theorem Lasts.slotFailed {port lane : Nat} : Lasts s (slotFailed port lane t) := h.updLane.updLPort.when (·.declareRx)
theorem Lasts.noteFrame {x : SlotIn} : Lasts s (noteFrame x t) := .ite h h.pmFrame.bump.updLane
theorem Lasts.noteBip {x : SlotIn} : Lasts s (noteBip x t) := h.bumpBy.pmAdd.updLane
theorem Lasts.noteStamp {x : SlotIn} {off : Nat} : Lasts s (noteStamp x off t) := .ite h h.mapTime
theorem Lasts.noteSource {x : SlotIn} : Lasts s (noteSource x t) := h.updLane.updPhys

theorem Lasts.slotGood {x : SlotIn} {off : Nat} : Lasts s (slotGood x off t) := by
  unfold Machine.slotGood
  extract_lets s1 s2 s3 s4
  have h1 : Lasts s s1 := h.noteFrame.noteBip.noteStamp.noteSource.noteSet.noteRdi.noteReports
  have h3 : Lasts s s3 := h1.updLPort.updKeys.foldl fun _ _ hu => hu.putPointer
  have h4 : Lasts s s4 := h3.controlPieces.controlFrame
  split
  · exact h4.exchangePieces
  · exact h4.unknownPage

theorem Lasts.slotRx {port lane off : Nat} {acq : Bool} {fecBits fecBad snr : Nat} {oh cols : List Byte} :
    Lasts s (slotRx port lane off acq fecBits fecBad snr oh cols t) := by
  unfold Machine.slotRx
  extract_lets x s1
  have h1 : Lasts s s1 := h.pmAdd.pmAdd.updPhys.updLane
  exact .ite h (.ite h.bump.slotFailed (.ite h1.bump.slotFailed (h1.unless (·.updLane.slotGood))))

theorem Lasts.elasticSlip {lane : Nat} : Lasts s (elasticSlip lane t) := by
  unfold Machine.elasticSlip
  exact h.updLane.mapLine

theorem Lasts.markDone {n seq : Nat} : Lasts s (markDone n seq t) := h.updTrib

theorem Lasts.reorderEval : Lasts s (reorderEval t) := by
  unfold Machine.reorderEval
  exact h.mapCellar

theorem Lasts.handOver {b : LineBlk} {cask : Option Nat} {parts : List (Nat × Option FarPart)} : Lasts s (handOver b cask parts t) :=
  h.mapHost.freeCasks

theorem Lasts.stepEight {b : LineBlk} : Lasts s (stepEight b t).2 := by
  unfold Machine.stepEight
  extract_lets empty bare table
  have hbare : Lasts s bare.2 := h.handOver.markDone
  clear_value bare table
  split
  · exact hbare
  split
  · exact hbare
  split
  · exact hbare
  split
  · exact h
  split
  · exact h.lineBlockFailed.sendLineNack.pmBadBlock.updTrib
  extract_lets size
  clear_value size
  split
  · next s1 hd => exact .of_snd h.drawCask hd
  · next s1 hd =>
    have h1 : Lasts s s1 := .of_snd h.drawCask hd
    extract_lets s2
    have h2 : Lasts s s2 := by
      unfold s2
      split
      · exact h1.updSlot
      · exact h1
    clear_value s2
    dsimp only
    exact h2.handOver.markDone.tryRetireAcks

theorem Lasts.releaseBlocks {n fuel : Nat} : Lasts s (releaseBlocks n fuel t) := by
  induction fuel generalizing t with
  | zero => exact h
  | succ fuel ih =>
    unfold Machine.releaseBlocks
    split
    · exact h
    split
    · exact h
    extract_lets r out
    have h1 : Lasts s r.2 := h.stepEight
    split
    · exact h1
    · exact ih h1.mapLine.updTrib
    · exact ih h1.updTrib

theorem Lasts.releaseTrib {n : Nat} : Lasts s (releaseTrib n t) := h.releaseBlocks.reorderEval

theorem Lasts.retryBlock {b : LineBlk} : Lasts s (retryBlock b t) := by
  unfold Machine.retryBlock
  extract_lets
  split
  · exact h.stepEight
  · exact h.stepEight.openInst.updInst.mapLine

theorem Lasts.lineRetry : Lasts s (lineRetry t) :=
  (h.mapLine.foldl fun _ _ hu => hu.retryBlock).foldl fun _ _ hu => .ite hu.releaseTrib hu
theorem Lasts.admitPairBlock {p : Nat} : Lasts s (admitPairBlock p t).2 := h.updKeys
theorem Lasts.notePeer {p id : Nat} : Lasts s (notePeer p id t) := .ite h.updLPort h

theorem Lasts.nackFailed {port : Nat} {b : List Byte} : Lasts s (nackFailed port b t) := by
  unfold Machine.nackFailed
  extract_lets n s1 q
  have h1 : Lasts s s1 := h.unless (·.pmBadBlock)
  split
  · exact h1
  · exact .ite h1 (.ite h1.nackMessages h1.sendLineNack)

theorem Lasts.tagFailed {port : Nat} {b : List Byte} : Lasts s (tagFailed port b t) :=
  (h.updKeys.bump.unless (·.pmAdd)).when (·.updKeys.raise)
theorem Lasts.useVintage {port c : Nat} : Lasts s (useVintage port c t) := .ite h h.updKeys

theorem Lasts.nackGaps {n seq : Nat} : Lasts s (nackGaps n seq t) := by
  unfold Machine.nackGaps
  split
  · exact h
  · exact h.sendLineNacks.updTrib

theorem Lasts.exchangeBlock {b : LineBlk} : Lasts s (exchangeBlock b t) := by
  unfold Machine.exchangeBlock
  split
  · exact h
  refine .ite h ?_
  refine .ite h.pmAdd.pmFrame.updTrib ?_
  refine .ite ?_ (.ite h.pmAdd.pmFrame.updTrib.bump.raisePort h.pmAdd.pmFrame.updTrib.nackGaps.updTrib.releaseTrib)
  extract_lets
  split
  · exact h.pmAdd.pmFrame.updTrib.updTrib.stepEight
  · exact h.pmAdd.pmFrame.updTrib.updTrib.stepEight.mapLine

theorem Lasts.controlBlock {port seq : Nat} {content : List Byte} : Lasts s (controlBlock port seq content t) := by
  unfold Machine.controlBlock
  split
  · exact h
  · exact h.updTrib.unless (·.nackGaps.updTrib)

theorem Lasts.goodBlock {port c : Nat} {b content : List Byte} : Lasts s (goodBlock port c b content t) := by
  unfold Machine.goodBlock
  extract_lets kind s1 s2
  have h1 : Lasts s s1 := h.useVintage.updKeys.updPartner
  have h2 : Lasts s s2 := h1.unless (·.repair)
  exact .ite h1 (.ite h2.notePeer.controlBlock h2.exchangeBlock)

theorem Lasts.lineBlockRx {port : Nat} {b : List Byte} : Lasts s (lineBlockRx port b t) := by
  unfold Machine.lineBlockRx
  refine .ite h.mapLine ?_
  refine .ite h.mapLine.notePeer.admitPairBlock ?_
  refine .ite h.mapLine ?_
  refine .ite h.mapLine.bump ?_
  split
  · exact h.mapLine.bump.nackFailed
  refine .ite h.mapLine.bump.nackFailed ?_
  extract_lets
  split
  · exact .ite h.mapLine.tagFailed.pairFail h.mapLine.tagFailed.nackFailed
  · exact (h.mapLine.when (·.deriveRx)).goodBlock

theorem Lasts.lineAck {port trib ackSeq relSeq window : Nat} : Lasts s (lineAck port trib ackSeq relSeq window t) := by
  unfold Machine.lineAck
  split
  · exact h
  · exact .ite h ((h.updTrib.when (·.updPartner)).ringEval.pruneTxKeys.pruneOlder)

theorem Lasts.lineNack {port trib : Nat} {ranges : List (Nat × Nat)} : Lasts s (lineNack port trib ranges t) := by
  unfold Machine.lineNack
  split
  · exact h
  · exact .ite h h.bump.updTrib

/-! ### The functions of Machine/LineMbx -/

theorem Lasts.tribBind {n port queue window : Nat} : Lasts s (tribBind n port queue window t).state := by
  unfold Machine.tribBind
  split
  · exact h.refuse
  extract_lets
  split
  · split
    · exact h.mapLine.done
    split
    · exact h.mapLine.done
    · exact h.refuse
  · exact h.mapLine.done

theorem Lasts.pmRead {scope kind back : Nat} : Lasts s (pmRead scope kind back t).state := by
  unfold Machine.pmRead
  extract_lets
  split
  · exact h.doneWith
  · exact h.refuse

theorem Lasts.pmThresh {scope counter kind value : Nat} : Lasts s (pmThresh scope counter kind value t).state := by
  unfold Machine.pmThresh
  split
  · exact h.refuse
  · exact h.mapLine.pmThreshold.done

theorem Lasts.xhSet {lane : Nat} {m : List (Nat × Nat × Nat × Nat × Nat)} : Lasts s (xhSet lane m t).state := by
  unfold Machine.xhSet
  split
  · exact h.refuse
  split
  · exact h.refuse
  split
  · exact h.refuse
  extract_lets
  split
  · exact h.updLane.done
  · exact h.refuse

theorem Lasts.putSheaf {id : Nat} {x : Sheaf} : Lasts s (putSheaf id x t) := h.mapLine
theorem Lasts.sheafDown {id : Nat} : Lasts s (sheafDown id t) := .ite h h.putSheaf.raise

theorem Lasts.sheafFrame {port id mfi : Nat} {fr : SMap (List Byte)} : Lasts s (sheafFrame port id mfi fr t) := by
  unfold Machine.sheafFrame
  refine .ite h.putSheaf ?_
  extract_lets d from_
  clear_value from_
  split
  · exact h.putSheaf
  · exact h.putSheaf.foundBlocks

theorem Lasts.sheafMember {port : Nat} {cols : List Byte} {e : Nat × Nat × Nat × Nat × Nat} : Lasts s (sheafMember port cols e t) := by
  unfold Machine.sheafMember
  extract_lets
  split
  · exact .ite h (.ite h.sheafDown h.putSheaf)
  · exact .ite h.sheafDown (h.putSheaf.when (·.sheafFrame))

theorem Lasts.laneFec {lane fec : Nat} : Lasts s (laneFec lane fec t).state := by
  unfold Machine.laneFec
  split
  · exact h.refuse
  split
  · exact h.refuse
  · exact h.mapOpt.done

theorem Lasts.laneChannel {lane id : Nat} : Lasts s (laneChannel lane id t).state := by
  unfold Machine.laneChannel
  by_cases hl : 5 ≤ lane
  · rw [if_pos hl]
    exact h.refuse
  rw [if_neg hl]
  generalize (if (laneOf t lane).rate = 3 then 6 else 17) = n
  split
  · exact h.refuse
  · exact h.mapOpt.updPhys.done

theorem Lasts.pmSecondOf {scope : Nat} : Lasts s (pmSecondOf scope t) := by
  unfold Machine.pmSecondOf
  exact h.mapLine.pmUpdate

theorem Lasts.binRollover {kind : Nat} : Lasts s (binRollover kind t) := .ite h h.mapLine

theorem Lasts.pmSampleLane {k : Nat} : Lasts s (pmSampleLane k t) := by
  unfold Machine.pmSampleLane
  exact h.pmUpdate

theorem Lasts.pmSample : Lasts s (pmSample t) := .ite (h.foldl fun _ _ hu => hu.pmSampleLane) h

/-! ### The functions of Machine/PressRows -/

theorem Lasts.updCore {k : Nat} {f : CoreHist → CoreHist} : Lasts s (updCore k f t) := h.mapPress
theorem Lasts.recordFail {f : CheckFail} : Lasts s (recordFail f t) := h.updCore
theorem Lasts.retireCluster {die cluster : Nat} : Lasts s (retireCluster die cluster t) := .ite h.mapBru.updDie.raise h.mapBru.updDie
theorem Lasts.takeSpare {die cluster : Nat} : Lasts s (takeSpare die cluster t) := .ite h.updDie h.retireCluster
theorem Lasts.fenceCore {die cluster core : Nat} : Lasts s (fenceCore die cluster core t) := h.updCore.takeSpare.raise.bump
theorem Lasts.retireIfDue {die cluster core : Nat} {spot : Bool} : Lasts s (retireIfDue die cluster core spot t) :=
  .ite h.updCore.mapBru.raise.ledgerWrite.bump h
theorem Lasts.oneFail {f : CheckFail} : Lasts s (oneFail t f) := (h.recordFail.when (·.fenceCore)).retireIfDue
theorem Lasts.pressingEffect {fs : List CheckFail} : Lasts s (pressingEffect fs t) :=
  .ite h ((h.foldl fun _ _ hu => hu.oneFail).runPressing.bumpBy)

theorem Lasts.twinReport : Lasts s (twinReport t) := by
  unfold Machine.twinReport
  extract_lets
  split
  · exact h.mapSites.foldl fun _ _ hu => hu.mbxSend.mapSites
  · exact h.mapSites

theorem Lasts.windowEndEffect : Lasts s (windowEndEffect t) := (Lasts.ite h.requeueUnits h).mapPress.twinReport

theorem Lasts.reportSuspects {c : Nat} : Lasts s (reportSuspects c t) := by
  unfold Machine.reportSuspects
  exact h.raise.ledgerWrite.bumpBy.mapFlt

theorem Lasts.spotFaulty {c : Nat} {cores : List CheckFail} : Lasts s (spotFaulty c cores t) :=
  (h.foldl fun _ _ hu => hu.recordFail.retireIfDue).reportSuspects
theorem Lasts.spotDisagree {c : Nat} : Lasts s (spotDisagree c t) :=
  .ite ((h.mapPress.foldl fun _ _ hu => hu.updInst).bumpBy) (h.mapPress.foldl fun _ _ hu => hu.askAbort)
theorem Lasts.spotClean {c : Nat} : Lasts s (spotClean c t) := h.mapPress

theorem Lasts.spotEffect {die cluster die2 cluster2 outcome : Nat} {cores : List CheckFail} :
    Lasts s (spotEffect die cluster die2 cluster2 outcome cores t) := by
  unfold Machine.spotEffect
  refine .ite h (.ite h.bump.spotClean ?_)
  exact .ite h.bump.raise.bump.spotFaulty (.ite h.bump.raise.bump.spotFaulty h.bump.raise.bump.spotDisagree)

theorem Lasts.treeReport {tree cluster : Nat} : Lasts s (treeReport tree cluster t) :=
  .ite h.mapPress.setBits (h.mapPress.setBits.mapPress.raise.when (·.raise))

theorem Lasts.trellisEffect {die cluster : Nat} {isEdge : Bool} {a b : Option Nat} :
    Lasts s (trellisEffect die cluster isEdge a b t) := by
  unfold Machine.trellisEffect
  extract_lets c r s1 s2 s3
  have h3 : Lasts s s3 := ((Lasts.ite h.treeReport h).when (·.treeReport)).when (·.setBits)
  exact .ite h3 (.ite h3.mapPress.setBits h3.mapPress)

theorem Lasts.flitFail {die : Nat} {replayFails : Bool} : Lasts s (flitFail die replayFails t) := .ite h.bump.updDie h.bump.updDie
theorem Lasts.retrainDone {die : Nat} : Lasts s (retrainDone die t) := .ite h.updDie h
theorem Lasts.laneSpare {die : Nat} {toDie : Bool} : Lasts s (laneSpare die toDie t) :=
  .ite (.ite h.updDie.raise h.updDie) (.ite h.updDie.raise h.updDie)
theorem Lasts.powerCap {dws : List Nat} : Lasts s (powerCap dws t) := .ite h h.mapPress
theorem Lasts.capFloor {die : Nat} : Lasts s (capFloor die t) := .ite h.updDie.raise h
theorem Lasts.sensorStep {die : Nat} {rs : List Nat} : Lasts s (sensorStep die rs t) := h.updDie.foldl fun _ _ hu => hu.raise
theorem Lasts.tempStep {die : Nat} {rs : List Nat} : Lasts s (tempStep die rs t) := (h.updDie.when (·.raise.requeueWhere)).when (·.raise)

theorem Lasts.retirementEffect {die cluster : Nat} {core : Option Nat} : Lasts s (retirementEffect die cluster core t) := by
  unfold Machine.retirementEffect
  extract_lets
  split
  · exact h.retireCluster.requeueWhere
  · exact .ite h (.ite h.requeueWhere h.updCore.takeSpare.requeueWhere)

theorem Lasts.quarantineEnd {die cluster core : Nat} : Lasts s (quarantineEnd die cluster core t) := .ite h.updCore.updDie h

/-! ### The functions of Machine/BruRows -/

theorem Lasts.fwState {k st : Nat} : Lasts s (fwState k st t) := h.mapMgt
theorem Lasts.bootRecord : Lasts s (bootRecord t) := h.ledgerWrite
theorem Lasts.startFrom {k : Nat} {trial : Bool} : Lasts s (startFrom k trial t) := h.mapMgt.mapMgt.bootRecord

theorem Lasts.bootRom : Lasts s (bootRom t) := by
  unfold Machine.bootRom
  extract_lets a o ok back s1
  have h1 : Lasts s s1 := .ite h.fwState.mapMgt h
  refine .ite h.startFrom (.ite h1.fwState.startFrom ?_)
  exact .ite h1.fwState.fwState.startFrom h1.fwState.fwState.mapMgt

theorem Lasts.startStep {n : Nat} : Lasts s (startStep n t) := by
  unfold Machine.startStep
  extract_lets s1 s2 s3
  have h1 : Lasts s s1 := h.mapBru
  have h3 : Lasts s s3 := h1.mapBru.fldSet.foldl fun _ _ hu => .ite hu.beginPairing hu
  exact .ite h1.stepTen (.ite (h3.when (·.stepTen)) (h1.when (·.mapBru)))

theorem Lasts.startupSet : Lasts s (startupSet t) := h.foldl fun _ _ hu => .ite hu (.ite hu hu.updLane)
theorem Lasts.tuneLanes : Lasts s (tuneLanes t) := .ite h (h.foldl fun _ _ hu => .ite hu hu.mapOpt.updPhys)

theorem Lasts.opticsDone {r : StepReport} : Lasts s (opticsDone r t) := by
  unfold Machine.opticsDone
  exact (h.mapBru.tuneLanes.foldl fun _ _ hu => hu.updPhys).fldSet.fldSet.startupSet

theorem Lasts.applySoftMap : Lasts s (applySoftMap t) := (h.foldl fun _ _ hu => hu.updDie).foldl fun _ _ hu => .ite hu hu.updDie
theorem Lasts.retireTested {c : Nat × Nat × Nat} : Lasts s (retireTested t c) := .ite h h.updCore.mapBru.ledgerWrite.takeSpare
theorem Lasts.retireTestedCluster {c : Nat × Nat} : Lasts s (retireTestedCluster t c) := .ite h h.ledgerWrite.retireCluster
theorem Lasts.selfTestDone {r : StepReport} : Lasts s (selfTestDone r t) :=
  (((h.foldl fun _ _ hu => hu.retireTested).foldl fun _ _ hu => hu.retireTestedCluster).bumpBy).when (·.mapBru)

theorem Lasts.memTestDone {r : StepReport} : Lasts s (memTestDone r t) := by
  unfold Machine.memTestDone
  exact h.mapMem.bumpBy.mapBru

theorem Lasts.bootDone : Lasts s (bootDone t) := by
  unfold Machine.bootDone
  exact ((Lasts.ite h.mapMgt h.bootRom).when (·.fldSet)).fldSet.mapFlt

theorem Lasts.linksDone {r : StepReport} : Lasts s (linksDone r t) := by
  unfold Machine.linksDone
  extract_lets s1 s2
  have h1 : Lasts s s1 := by
    unfold s1
    split
    · exact .ite h.mapTime h
    · exact h
  exact (h1.foldl fun _ _ hu => hu.updDie).fldSet.applySoftMap

theorem Lasts.stepEffect {n : Nat} {r : StepReport} : Lasts s (stepEffect n r t) := by
  unfold Machine.stepEffect
  split
  · exact h.mapBru
  · exact h.bootDone
  · exact h.linksDone
  · exact h.selfTestDone
  · exact h.mapBru.mapMem
  · exact h.memTestDone
  · exact h.mapMem
  · exact h.opticsDone
  · exact h

theorem Lasts.stepFailed {detail : Nat} : Lasts s (stepFailed detail t) := h.mapBru.bump

theorem Lasts.stepDone {r : StepReport} : Lasts s (stepDone r t) := by
  unfold Machine.stepDone
  extract_lets n s0 s1
  have h1 : Lasts s s1 := h.stepEffect.mapBru.mapFlt
  refine .ite h (.ite h.stepFailed (.ite (.ite h.selfTestDone.mapBru h) ?_))
  exact .ite (.ite h1.stepFailed h1.mapBru) (h1.unless (·.startStep))

theorem Lasts.pressWave {w : Nat} {railsOk : Bool} : Lasts s (pressWave w railsOk t) := .ite h h.mapBru
theorem Lasts.stepCommand {v : Nat} : Lasts s (stepCommand v t) :=
  .ite h.bump (.ite h.bump (.ite h.startStep (.ite h.bump ((Lasts.ite h h.startStep).mapBru))))
theorem Lasts.askRecheck : Lasts s (askRecheck t) := h.mapBru
theorem Lasts.endPairWait : Lasts s (endPairWait t) := h.mapBru

/-! ### The functions of Machine/RegWrite -/

theorem Lasts.updStandby {n : Nat} {f : QSettings → QSettings} : Lasts s (updStandby n f t) := h.mapQos
theorem Lasts.askApply : Lasts s (askApply t) := h.mapQos.regSet

theorem Lasts.holdVal {a v : Nat} : Lasts s (holdVal a v t) := by
  unfold Machine.holdVal
  split
  · exact h.updStandby
  · exact h.regSet

theorem Lasts.selfWrite {a v full : Nat} (he : selfWrite a v full t = some u) : Lasts s u := by
  unfold Machine.selfWrite at he
  split at he
  · cases he
    exact h.sourceWrite
  · cases he
    split
    · exact h.requestRevert
    · exact h.standbyDiscard
    · exact h.reoffer
    · exact h
  · cases he
    exact (h.when (·.askRecheck)).when (·.endPairWait)
  · cases he
    exact h.stepCommand
  · obtain ⟨k, -, rfl⟩ := Option.map_eq_some_iff.mp he
    exact h.pulseWrite

theorem Lasts.afterWrite {a v old new : Nat} : Lasts s (afterWrite a v old new t) := by
  unfold Machine.afterWrite
  split
  · exact .ite h h.selectSource
  · exact .ite h h.requalify
  · exact .ite h.sendPfc h.pfcFollow
  · exact .ite h.askApply h
  · exact h

theorem Lasts.regPut {a value mask hw : Nat} {fs : List FieldDef} : Lasts s (regPut a value mask hw fs t) := by
  unfold Machine.regPut
  refine .ite (.ite h.bump h) ?_
  extract_lets
  split
  · next s1 he =>
      have h1 : Lasts s s1 := h.selfWrite he
      exact .ite h1.bump h1
  · exact h.holdVal.afterWrite.when (·.bump)

theorem Lasts.hostWrite {owner : Bool} {a value mask hw : Nat} : Lasts s (hostWrite owner a value mask hw t).1 := by
  unfold Machine.hostWrite
  split
  · exact .ite h.bump h
  split
  · exact h.bump
  · exact h.regPut

theorem Lasts.readOut {a : Nat} : Lasts s (readOut a t) := by
  unfold Machine.readOut
  split
  · exact h.emit.readEffect
  · exact h.emit

theorem Lasts.readAll {i : Nat} {l : List Nat} : Lasts s (readAll i l t).2.2 := by
  induction l generalizing i t with
  | nil => exact h
  | cons a l ih =>
    unfold Machine.readAll
    split
    · exact h
    · exact ih h.readEffect

theorem Lasts.writeAll {owner : Bool} {i : Nat} {l : List RegAccess} : Lasts s (writeAll owner i l t).2 := by
  induction l generalizing i t with
  | nil => exact h
  | cons e l ih =>
    obtain ⟨a, v, m⟩ := e
    unfold Machine.writeAll
    split
    · next he => exact .of_fst h.hostWrite he
    · next he => exact ih (.of_fst h.hostWrite he)

theorem Lasts.regReadCmd {as : List Nat} : Lasts s (regReadCmd as t).state := by
  unfold Machine.regReadCmd
  split
  · exact h.refuse
  extract_lets
  split
  · exact h.readAll.doneWith
  · exact h.readAll

theorem Lasts.regWriteCmd {owner : Bool} {ws : List RegAccess} : Lasts s (regWriteCmd owner ws t).state := by
  unfold Machine.regWriteCmd
  split
  · exact h.refuse
  extract_lets
  split
  · exact h.writeAll.done
  · exact h.writeAll

theorem Lasts.windowRead {m : Nat} {as : List Nat} : Lasts s (windowRead m as t) := .ite h.regReadCmd.mbxAnswer h

/-! ### The functions of Machine/MbxSec -/

theorem Lasts.holdAnchor {c : List Byte} : Lasts s (holdAnchor c t) := h.mapSec.ledgerWrite.happenedNow.happenedNow

theorem Lasts.anchorInstall {cert : List Byte} : Lasts s (anchorInstall cert t).state := by
  unfold Machine.anchorInstall
  split
  · exact h.refuse
  split
  · exact h.refuse
  · exact h.holdAnchor.raise.done

theorem Lasts.anchorReplace {region off len : Nat} : Lasts s (anchorReplace region off len t).state := by
  unfold Machine.anchorReplace
  split
  · exact h.refuse
  extract_lets
  split
  · exact h.refuse
  · exact h.holdAnchor.done

theorem Lasts.enrolInstall {region off len : Nat} : Lasts s (enrolInstall region off len t).state := by
  unfold Machine.enrolInstall
  split
  · exact h.refuse
  extract_lets
  split
  · exact h.refuse
  · exact h.mapSec.happenedNow.done

theorem Lasts.attest {nonce : List Byte} {region off : Nat} : Lasts s (attest nonce region off t).state := by
  unfold Machine.attest
  split
  · exact h.refuse
  · exact h.regionOut

theorem Lasts.pairRestart {port : Nat} : Lasts s (pairRestart port t).state := by
  unfold Machine.pairRestart
  split
  · exact h.refuse
  split
  · exact h.refuse
  · exact h.beginPairing.done

theorem Lasts.utilRun {inp aad : RegionRange} {outH outOff outLen : Nat} {fault : Bool} {f : UtilOp} :
    Lasts s (utilRun inp aad outH outOff outLen fault f t).state := by
  unfold Machine.utilRun
  split
  · exact h.refuse
  · exact h.refuse
  · exact h.refuse
  split
  · exact h.refuse
  split
  · exact h.bump.refuse
  · exact h.regionWrite.bump.doneWith

theorem Lasts.utilCmd {mbx code : Nat} {limits : Bool} {f : State → CmdRes}
    (hf : ∀ u, Lasts s u → Lasts s (f u).state) : Lasts s (utilCmd mbx code limits f t) := by
  unfold Machine.utilCmd
  refine .ite h.updUce (h.runCmdWith fun _ _ u hu => ?_)
  split
  · exact hu.bump.refuse
  extract_lets b r
  have hb : Lasts s b := hu.unless (·.updUce)
  dsimp only
  exact (hf b hb).updUce

theorem Lasts.timStep {toSource : Bool} {value : Nat} : Lasts s (timStep toSource value t).state := by
  unfold Machine.timStep
  split
  · exact h.mapTime.done
  split
  · exact h.refuse
  · exact h.mapTime.done

theorem Lasts.clkSelect {source : Nat} : Lasts s (clkSelect source t).state := by
  unfold Machine.clkSelect
  split
  · exact h.refuse
  split
  · exact h.selectSource.done
  · exact h.selectSource.refuse

theorem Lasts.qosGroupMap {n group queue : Nat} : Lasts s (qosGroupMap n group queue t).state := by
  unfold Machine.qosGroupMap
  split
  · exact h.refuse
  · exact h.updStandby.done

theorem Lasts.qosStage {n what queue value : Nat} : Lasts s (qosStage n what queue value t).state := by
  unfold Machine.qosStage
  extract_lets
  split
  · exact h.refuse
  split
  · exact .ite_state h.refuse h.updStandby.done
  · exact .ite_state h.refuse h.updStandby.done
  · exact .ite_state h.refuse h.updStandby.done
  · exact .ite_state h.refuse h.updStandby.done
  · exact .ite_state h.refuse h.updStandby.done
  · exact .ite_state h.refuse h.updStandby.done
  · exact h.refuse

theorem Lasts.qosHistRead {n q : Nat} : Lasts s (qosHistRead n q t).state := by
  unfold Machine.qosHistRead
  split
  · exact h.refuse
  · exact h.mapQos.doneWith

/-! ### The functions of Machine/MbxFlt -/

theorem Lasts.eventStat {codes : List Nat} : Lasts s (eventStat codes t).state := by
  unfold Machine.eventStat
  split
  · exact h.refuse
  · exact h.doneWith

theorem Lasts.ledgerRead {stream first n : Nat} : Lasts s (ledgerRead stream first n t).state := by
  unfold Machine.ledgerRead
  split
  · exact h.refuse
  split
  · exact h.refuse
  extract_lets
  split
  · exact h.refuse
  split
  · exact h.doneWith
  · exact h.refuse

theorem Lasts.storeBarnHead {k : Nat} : Lasts s (storeBarnHead k t) := h.dramWrite
theorem Lasts.updBarn {k : Nat} {f : BarnSlot → BarnSlot} : Lasts s (updBarn k f t) := h.mapFlt.storeBarnHead

theorem Lasts.barnRead {k off len : Nat} : Lasts s (barnRead k off len t).state := by
  unfold Machine.barnRead
  extract_lets
  split
  · exact h.refuse
  split
  · exact h.refuse
  · exact (Lasts.ite h.updBarn h).doneWith

theorem Lasts.fwWrite {k off : Nat} {d : List Byte} : Lasts s (fwWrite k off d t).state := by
  unfold Machine.fwWrite
  split
  · exact h.refuse
  split
  · exact h.refuse
  split
  · exact h.refuse
  split
  · exact h.refuse
  · exact h.fwStore.done

theorem Lasts.fwBulk {sid k off len : Nat} : Lasts s (fwBulk sid k off len t).state := by
  unfold Machine.fwBulk
  split
  · exact h.refuse
  split
  · exact h.refuse
  split
  · exact h.refuse
  · exact .ite h.bulkOpen.fwState h

theorem Lasts.fwVerify {k : Nat} : Lasts s (fwVerify k t).state := by
  unfold Machine.fwVerify
  split
  · exact h.refuse
  split
  · exact h.refuse
  split
  · exact h.fwState.done
  · exact h.fwState.refuseD

theorem Lasts.fwActivate : Lasts s (fwActivate t).state := by
  unfold Machine.fwActivate
  extract_lets
  refine .ite_state h.refuse (.ite_state h.refuse (.ite_state h.refuse ?_))
  exact .ite_state h.refuseD (.ite_state h.refuseD h.ledgerWrite.fwState.mapMgt.done)

theorem Lasts.blendInstall {mbx ctx cls : Nat} {l : List Byte} : Lasts s (blendInstall mbx ctx cls l t).state := by
  unfold Machine.blendInstall
  extract_lets
  split
  · exact h.refuse
  split
  · exact h.updSlot.done
  · exact h.updSlot.later

theorem Lasts.blendStage {ctx cls : Nat} {l : List Byte} : Lasts s (blendStage ctx cls l t).state := by
  unfold Machine.blendStage
  extract_lets
  split
  · exact h.refuse
  · exact h.updSlot.done

theorem Lasts.blendRetire {ctx cls : Nat} : Lasts s (blendRetire ctx cls t).state := by
  unfold Machine.blendRetire
  split
  · exact h.refuse
  split
  · exact h.refuse
  split
  · exact h.done
  split
  · exact h.refuse
  · exact h.updSlot.done

theorem Lasts.blendRead {ctx cls which : Nat} : Lasts s (blendRead ctx cls which t).state := by
  unfold Machine.blendRead
  extract_lets x b
  clear_value b
  split
  · exact h.doneWith
  · exact h.refuse

theorem Lasts.cmpResync {line : Bool} {n cls : Nat} : Lasts s (cmpResync line n cls t).state := by
  unfold Machine.cmpResync
  split
  · split
    · exact h.refuse
    · exact h.updSlot.done
  split
  · exact h.refuse
  · exact h.updStream.done

/-! ### The functions of Machine/BlendRows -/

theorem Lasts.propose {ctx cls : Nat} : Lasts s (propose ctx cls t) := by
  unfold Machine.propose
  extract_lets
  split
  · exact h
  · exact .ite (.ite h h.updSlot) h.updSlot.raise.bump

theorem Lasts.windowOfSlot {k : Nat} : Lasts s (windowOfSlot k t) := .ite h ((h.updSlot.when (·.propose)).updSlot)
theorem Lasts.windowEnd : Lasts s (windowEnd t) := .ite h (h.foldl fun _ _ hu => hu.windowOfSlot)

theorem Lasts.offerTimeout {k : Nat} : Lasts s (offerTimeout k t) := by
  unfold Machine.offerTimeout
  extract_lets
  split
  · exact h
  · exact .ite h.withdrawOffer.raise.bump h

theorem Lasts.resyncFailed {port cls : Nat} : Lasts s (resyncFailed port cls t) := h.updSlot.when (·.raise)
theorem Lasts.resyncTimeout {k : Nat} : Lasts s (resyncTimeout k t) := .ite h (.ite h.resyncFailed (.ite h.updSlot h.updSlot.startResync))

theorem Lasts.answerOffer {port : Nat} {b : Blend} {reject : Option Nat} : Lasts s (answerOffer port b reject t) := by
  unfold Machine.answerOffer
  split
  · exact h.sendCtl
  · exact h.sendCtl

theorem Lasts.blendOffer {port : Nat} {rs : Bool} {l : List Byte} : Lasts s (blendOffer port rs l t) := by
  unfold Machine.blendOffer
  refine .ite (.ite h.answerOffer h.updSlot.makeCurrent.answerOffer) ?_
  split
  · exact h.answerOffer
  · exact h.updSlot.answerOffer

theorem Lasts.blendAccept {port cls id digest : Nat} : Lasts s (blendAccept port cls id digest t) := by
  unfold Machine.blendAccept
  extract_lets
  split
  · exact h
  refine .ite h ?_
  refine .ite h.updSlot ?_
  extract_lets
  split
  · exact h.updSlot.mbxAnswer
  · exact h.updSlot

theorem Lasts.blendReject {port cls id digest reason : Nat} : Lasts s (blendReject port cls id digest reason t) := .ite h.withdrawOffer h
theorem Lasts.blendSwitch {port cls id : Nat} {seqs : SMap Nat} : Lasts s (blendSwitch port cls id seqs t) :=
  (Lasts.ite h.pendingToCurrent h).when (·.updSlot.tryRetireAck)
theorem Lasts.retireAcked {port cls id : Nat} : Lasts s (retireAcked port cls id t) := .ite h.retirePrevious h
theorem Lasts.blendResync {port cls : Nat} : Lasts s (blendResync port cls t) := (Lasts.ite h.resyncFailed h).resyncAsked

/-! ### The functions of Machine/CellarRows -/

theorem Lasts.restagePacket {stream seq g i chunk rank : Nat} : Lasts s (restagePacket stream seq g i chunk rank t) := by
  unfold Machine.restagePacket
  split
  · exact h
  split
  · exact h.updStream.freeCasks
  extract_lets
  split
  · exact h
  · exact .ite h h.updInst.setBack

theorem Lasts.renackBlock {trib seq : Nat} : Lasts s (renackBlock trib seq t) := by
  unfold Machine.renackBlock
  split
  · exact h
  · exact .ite h.updTrib.reorderEval.sendLineNack h

theorem Lasts.ringWordLost {trib seq : Nat} : Lasts s (ringWordLost trib seq t) := by
  unfold Machine.ringWordLost
  split
  · exact h
  split
  · exact .ite h.askAbort h
  · exact h

theorem Lasts.wordAbort {g i : Nat} : Lasts s (wordAbort g i t) := .ite h.askAbort h
theorem Lasts.groupLost {g : Nat} : Lasts s (groupLost g t) := (h.foldl fun _ _ hu => hu.wordAbort).updGroup

theorem Lasts.streamLost {id : Nat} : Lasts s (streamLost id t) := by
  unfold Machine.streamLost
  split
  · exact h
  · exact h.updStream.freeCasks

theorem Lasts.tableRead {both : Bool} {lost : State → State}
    (hf : ∀ u, Lasts s u → Lasts s (lost u)) : Lasts s (tableRead both lost t) :=
  .ite (hf _ h.raise) h.raise

theorem Lasts.wordLost {w : WordUse} : Lasts s (wordLost w t) := by
  unfold Machine.wordLost
  split
  · exact h.restagePacket
  · split
    · exact h.updStream.freeCasks
    · exact h
  · exact h.renackBlock
  · exact h.ringWordLost
  · exact h.wordAbort
  · exact h.wordAbort
  · exact h.tableRead fun _ hu => hu.groupLost
  · exact h.tableRead fun _ hu => hu.streamLost
  · exact h.tableRead fun _ hu => hu
  · exact h.updSilo
  · exact h.updBarn
  · exact h

theorem Lasts.dramFixed {a : Nat} : Lasts s (dramFixed a t) := h.bump.bump
theorem Lasts.dramBad {a : Nat} : Lasts s (dramBad a t) := h.bump.bump.mapMem.raise
theorem Lasts.poisonWord {a : Nat} : Lasts s (poisonWord a t) := h.mapMem

theorem Lasts.dramBurst {addr landed : Nat} {flips : List (Nat × Nat)} {w : WordUse} : Lasts s (dramBurst addr landed flips w t) := by
  unfold Machine.dramBurst
  extract_lets at_ got ap wrong astray s1 bad s2 s3
  have h1 : Lasts s s1 := by
    refine h.foldl fun _ _ hu => ?_
    split
    · exact hu.dramFixed
    · exact hu
  have h2 : Lasts s s2 := .ite h1.bump (h1.when (·.bump.raise))
  have h3 : Lasts s s3 := h2.foldl fun _ _ hu => hu.dramBad
  exact .ite h3.emit (Lasts.ite (h3.foldl fun _ _ hu => hu.poisonWord) h3).wordLost

theorem Lasts.discardHeads {n c : Nat} {dramOnly : Bool} : Lasts s (discardHeads n c dramOnly t) := by
  induction n generalizing t with
  | zero => exact h
  | succ n ih =>
    unfold Machine.discardHeads
    exact .ite h (ih h.mapCellar.bump.raise)

theorem Lasts.badPointer {p from_ : Nat} : Lasts s (badPointer p from_ t) := h.bump.raise

theorem Lasts.caskCounted {p off : Nat} {w : WordRead} : Lasts s (caskCounted p off w t) := by
  unfold Machine.caskCounted
  extract_lets
  split
  · exact h
  · exact .ite h.dramFixed h.bump
  · exact .ite h.dramBad h.bump.raise

theorem Lasts.caskRead {p off len : Nat} {flips : List (Nat × Nat)} {w : WordUse} : Lasts s (caskRead p off len flips w t) :=
  .ite ((h.foldl fun _ _ hu => hu.caskCounted).emit.wordLost) ((h.foldl fun _ _ hu => hu.caskCounted).emit)
theorem Lasts.caskWrite {p off : Nat} {d : List Byte} {flips : List (Nat × Nat)} : Lasts s (caskWrite p off d flips t) :=
  .ite h.caskCounted.emit (.ite h.caskCounted.dramWrite h.caskCounted.mapMem)

theorem Lasts.gleanWord {a flip : Nat} : Lasts s (gleanWord a flip t) := by
  unfold Machine.gleanWord
  split
  · exact h
  · exact h.dramFixed.dramWrite.mapMem
  · exact h.dramBad.poisonWord.mapMem

theorem Lasts.gleanGroup {addr : Nat} {flips : List (Nat × Nat)} {row : Nat} : Lasts s (gleanGroup addr flips row t) :=
  .ite h (((h.foldl fun _ _ hu => hu.gleanWord).mapMem).when (·.raise))
theorem Lasts.gleanPassEnd : Lasts s (gleanPassEnd t) := .ite h h.mapMem.raise
theorem Lasts.updChan {c : Nat} {f : Channel → Channel} : Lasts s (updChan c f t) := h.mapMem

theorem Lasts.startRetrain : Lasts s (startRetrain t) := by
  unfold Machine.startRetrain
  refine .ite h ?_
  split
  · exact h
  · exact h.mapMem.updChan.raise.bump

theorem Lasts.askRetrain {cs : List Nat} : Lasts s (askRetrain cs t) := h.mapMem.startRetrain
theorem Lasts.retrainEnd {c : Nat} {ok : Bool} : Lasts s (retrainEnd c ok t) :=
  .ite h (.ite h.updChan.startRetrain (.ite h.updChan.raise.startRetrain h.updChan.mapMem.startRetrain))
theorem Lasts.mr4Package {r : Nat × Nat × Nat} : Lasts s (mr4Package r t) :=
  (((h.foldl fun _ _ hu => hu.updChan).when (·.raise)).when (·.raise)).askRetrain

/-! ### The functions of Machine/SitesRows -/

theorem Lasts.digestSend {p : Nat} : Lasts s (digestSend p t) := .ite h.sendCtl.updPartner h
theorem Lasts.noteLevel {level : Nat} : Lasts s (noteLevel level t) := h.mapSites
theorem Lasts.noteComparison {p : Nat} {scope groups : Bool} : Lasts s (noteComparison p scope groups t) := h.updPartner
theorem Lasts.digestRx {p level : Nat} {scope groups : List Byte} : Lasts s (digestRx p level scope groups t) :=
  .ite h ((h.noteLevel.noteComparison.when (·.resyncAll)).unless (·.sendCtl))
theorem Lasts.digestListRx {p : Nat} {entries : List (Nat × Nat × List Byte)} : Lasts s (digestListRx p entries t) := .ite h h.updPartner
theorem Lasts.fenceScope {p : Nat} : Lasts s (fenceScope p t) := .ite h.updPartner.raise.bumpBy h
theorem Lasts.fenceGroups {p : Nat} : Lasts s (fenceGroups p t) := .ite h h.updPartner.raise.bumpBy
theorem Lasts.linkLost {p : Nat} : Lasts s (linkLost p t) := .ite h (h.updPartner.raise.lapseOffers.when (·.stopSwap))

theorem Lasts.siteStateRx {p : Nat} {groups seqs : List (Nat × Nat)} {lineSeq : Nat} :
    Lasts s (siteStateRx p groups seqs lineSeq t) := by
  unfold Machine.siteStateRx
  split
  · exact h
  · exact h.updPartner.sendCtl

theorem Lasts.siteAckRx {p group lineSeq : Nat} : Lasts s (siteAckRx p group lineSeq t) := .ite h.updPartner h
theorem Lasts.arrive {a : Arrival} : Lasts s (arrive a t) := h.mapHost
theorem Lasts.promoteRx {p : Nat} {device : List Byte} {at_ : Nat} : Lasts s (promoteRx p device at_ t) := h.updPartner

/-! ### The functions of Machine/TwinRows -/

theorem Lasts.updShadow {f : Shadow → Shadow} : Lasts s (updShadow f t) := h.mapSites
theorem Lasts.helloReplyIn {sid seed : Nat} {hello b : List Byte} : Lasts s (helloReplyIn sid seed hello b t) :=
  .ite h.raise (.ite h h.mapHost.updShadow.mbxSend)

theorem Lasts.helloReply {src : Source} {udp : List Byte} : Lasts s (helloReply src udp t) := by
  unfold Machine.helloReply
  split
  · exact h
  refine .ite h ?_
  split
  · next s1 he =>
      have h1 : Lasts s s1 := .of_snd h.addFragment he
      exact h1.helloReplyIn
  · next s1 he =>
      have h1 : Lasts s s1 := .of_snd h.addFragment he
      exact h1

theorem Lasts.endJoin : Lasts s (endJoin t) := by
  unfold Machine.endJoin
  cases t.sites.shadow.session with
  | none => exact h.updShadow
  | some sid => exact h.endSession.updShadow

theorem Lasts.noteMismatch {g i c : Nat} : Lasts s (noteMismatch g i c t) := h.updShadow.raise.bump.when (·.endJoin)
theorem Lasts.resetMatch {at_ : Nat} : Lasts s (resetMatch at_ t) := h.updShadow

theorem Lasts.reportMismatch {w : TwinEntry} {own : Nat} : Lasts s (reportMismatch w own t) := by
  unfold Machine.reportMismatch
  split
  · exact h
  · exact h.mbxSend.updShadow

theorem Lasts.matchEntry {w : TwinEntry} : Lasts s (matchEntry w t) := by
  unfold Machine.matchEntry
  extract_lets
  split
  · exact h
  · exact .ite h (h.updShadow.unless (·.resetMatch.reportMismatch.noteMismatch))

theorem Lasts.testEligible : Lasts s (testEligible t) := .ite h.updShadow.raise h
theorem Lasts.matchTwin : Lasts s (matchTwin t) := .ite h ((h.foldl fun _ _ hu => hu.matchEntry).updShadow.testEligible)
theorem Lasts.twinDigests {b : List Byte} : Lasts s (twinDigests b t) := h.updShadow.matchTwin

theorem Lasts.outNextIn {b : List Byte} : Lasts s (outNextIn b t) := by
  unfold Machine.outNextIn
  exact h.updShadow

theorem Lasts.twinIn {sid : Nat} {b : List Byte} : Lasts s (twinIn sid b t) :=
  .ite h (.ite (.ite h.outNextIn h.twinDigests) (h.foldl fun _ _ hu => hu.noteMismatch))

theorem Lasts.twinRx {udp : List Byte} : Lasts s (twinRx udp t) := by
  unfold Machine.twinRx
  exact h.openDatagramOf fun _ _ _ hu => hu.twinIn

theorem Lasts.unmatchedExpiry : Lasts s (unmatchedExpiry t) := by
  unfold Machine.unmatchedExpiry
  extract_lets
  split
  · exact h.matchTwin
  · exact h.matchTwin.resetMatch.updShadow.testEligible

theorem Lasts.sendOutNext : Lasts s (sendOutNext t) := by
  unfold Machine.sendOutNext
  split
  · exact h
  · exact h.foldl fun _ _ hu => hu.mbxSend.updShadow

theorem Lasts.twinHandsOver : Lasts s (twinHandsOver t) := h.sendOutNext.mapHost.mapLine.updShadow.raise
theorem Lasts.adoptAddress : Lasts s (adoptAddress t) := h.mapHost.enqueue
theorem Lasts.shadowTakesOver : Lasts s (shadowTakesOver t) :=
  h.adoptAddress.mapHost.mapLine.updShadow.raise.foldl fun _ _ hu => .ite hu.beginPairing hu
theorem Lasts.promoteAtT : Lasts s (promoteAtT t) := .ite (.ite h.twinHandsOver (.ite h.shadowTakesOver h)) h

/-! ### The functions of Machine/FaultRows -/

theorem Lasts.restartVintner : Lasts s (restartVintner t) := by
  unfold Machine.restartVintner
  exact (h.foldl fun _ _ hu => hu.endSession).mapHost.mapMgt.mapSites.bump.raise.mapFlt

theorem Lasts.watchdog : Lasts s (watchdog t) := .ite h (.ite h.raise h.restartVintner)
theorem Lasts.pairMismatch : Lasts s (pairMismatch t) := .ite h (.ite h.watchdog h.mapFlt.raise.bump)
theorem Lasts.pairSelfTest {pass : Bool} : Lasts s (pairSelfTest pass t) := h.mapFlt

theorem Lasts.restartDone : Lasts s (restartDone t) := by
  refine h.mapFlt.mapBru fun _ => ?_
  split
  · rfl
  · rfl

theorem Lasts.powerLoss {queued : Nat} : Lasts s (powerLoss queued t) := by
  unfold Machine.powerLoss
  exact h.raise.ledgerWrite.setSupplyLost (fun _ => rfl) fun _ => rfl

theorem Lasts.testFull : Lasts s (testFull t) := .ite h.mapFlt.raise h

theorem Lasts.sealAppend {stream kind : Nat} {body : List Byte} : Lasts s (sealAppend stream kind body t) := by
  unfold Machine.sealAppend
  split
  · exact h.mapFlt
  · exact h.mapFlt

theorem Lasts.sealStream {stream : Nat} : Lasts s (sealStream stream t) := by
  unfold Machine.sealStream
  extract_lets old s1 sig s2 s3
  have h2 : Lasts s s2 := h.sealAppend.foldl fun _ _ hu => hu.sealAppend
  have h3 : Lasts s s3 := by
    unfold s3
    split
    · exact h2.mapFlt
    · exact h2.mapFlt
  exact h3.raise.testFull

theorem Lasts.dropSummary : Lasts s (dropSummary t) := by
  unfold Machine.dropSummary
  exact (Lasts.ite h h.ledgerWrite).mapFlt

omit h in
theorem Lasts.writeSection {k i : Nat} {g : Nat × Nat × List Byte} {a : Nat × State} (h : Lasts s a.2) :
    Lasts s (writeSection k i g a).2 := by
  unfold Machine.writeSection
  dsimp only
  exact h.dramWrite.dramWrite.mapFlt

theorem Lasts.captureDone {k : Nat} {given : List (Nat × Bool × List Byte)} {complete : Bool} {ueWords : Nat} :
    Lasts s (captureDone k given complete ueWords t) := by
  unfold Machine.captureDone
  extract_lets secs r s1
  have hr : Lasts s r.2 := Lasts.foldl_snd (p := ((4096 : Nat), t)) h fun _ _ hp => hp.writeSection
  exact hr.updBarn.mapFlt.raise

/-! ### The functions of Machine/OptRows -/

theorem Lasts.updPortTime {p : Nat} {f : PortTime → PortTime} : Lasts s (updPortTime p f t) := h.mapTime

theorem Lasts.timeSend {port : Nat} : Lasts s (timeSend port t) := by
  unfold Machine.timeSend
  refine .ite h ?_
  split
  · exact h
  · exact h.same.sendCtl.updPortTime.foldl fun _ _ hu => .ite hu.updLane hu

theorem Lasts.noteDisagree {port : Nat} {theta : Int} : Lasts s (noteDisagree port theta t) :=
  .ite (h.updPartner.unless (·.updPartner.raise)) h.updPartner
theorem Lasts.portSample {port : Nat} {valid : Bool} {t1 t2 t3 t4 : Int} : Lasts s (portSample port valid t1 t2 t3 t4 t) :=
  .ite h.updPortTime.updLPort (.ite h.updPortTime.updLPort.servoSample (h.updPortTime.updLPort.when (·.noteDisagree)))
theorem Lasts.portSpan {port : Nat} {r : RxStamp} : Lasts s (portSpan port r t) := h.updPortTime.updLPort

theorem Lasts.timePart {port : Nat} {b : List Byte} : Lasts s (timePart port b t) := by
  unfold Machine.timePart
  extract_lets
  split
  · exact h.notePath.updPortTime
  extract_lets
  split
  · exact h.notePath.updPortTime.portSpan
  · exact h.notePath.updPortTime.portSpan.unless (·.portSample)

theorem Lasts.dropPageCommits : Lasts s (dropPageCommits t) := h.mapColl

theorem Lasts.rateInSwap {w : Swap} {lane new : Nat} : Lasts s (rateInSwap w lane new t) := by
  unfold Machine.rateInSwap
  refine .ite ?_ (.ite h.dropPageCommits.offerTraining (.ite h.dropPageCommits.offerSwap h.dropPageCommits.mapOpt.stageSet))
  split
  · exact h.dropPageCommits.stageSet
  · exact h.dropPageCommits

theorem Lasts.stageRate {lane new : Nat} : Lasts s (stageRate lane new t) := by
  unfold Machine.stageRate
  extract_lets
  split
  · exact .ite ((Lasts.ite h.mapOpt h).rateInSwap) h
  · exact .ite h ((Lasts.ite h.mapOpt h).stageSet)
  · exact h

theorem Lasts.adaptRate {port lane : Nat} : Lasts s (adaptRate port lane t) := by
  unfold Machine.adaptRate
  extract_lets l x up down hold reports snr low higher run y s1 near floorDue s2
  have h2 : Lasts s s2 := h.updPhys.when (·.updPhys.raise)
  exact .ite h2 (.ite h2.stageRate (.ite h2.stageRate (h2.when (·.stageRate))))

theorem Lasts.laneEntry {port : Nat} {e : List Byte} : Lasts s (laneEntry port e t) := by
  unfold Machine.laneEntry
  refine .ite h ?_
  extract_lets _ _ _ _ s1 s2 s3
  have h2 : Lasts s s2 := by
    unfold s2
    split
    · exact h.updPhys.when (·.mapOpt)
    · exact h.updPhys
  exact (Lasts.ite h2.locateLoss h2).when (·.adaptRate)

theorem Lasts.timeRx {port : Nat} {b : List Byte} : Lasts s (timeRx port b t) := .ite h (h.timePart.foldl fun _ _ hu => hu.laneEntry)
theorem Lasts.excludeMonitors {n : Nat} : Lasts s (excludeMonitors n t) := .ite h (h.foldl fun _ _ hu => .ite hu.updPhys.raise hu)
theorem Lasts.monitorRead {n : Nat} {chain : Bool} {r : LaneReading} : Lasts s (monitorRead n chain r t) :=
  .ite h h.updPhys.excludeMonitors

theorem Lasts.frequencyRead {n : Nat} {locker1 coarse1 locker2 coarse2 : Int} :
    Lasts s (frequencyRead n locker1 coarse1 locker2 coarse2 t) :=
  .ite h (h.updPhys.when (·.wrongWavelength))

theorem Lasts.closeMinute {n : Nat} : Lasts s (closeMinute n t) := h.updPhys

theorem Lasts.evaluateFades : Lasts s (evaluateFades t) := by
  unfold Machine.evaluateFades
  extract_lets found s1 held ranked free
  have h1 : Lasts s s1 := h.foldl fun _ _ hu => hu.raise
  clear_value ranked
  split
  · exact h1
  · exact (Lasts.ite (h1.when (·.startSwap)) h1.raise).foldl fun _ _ hu => hu.raise

theorem Lasts.spareTuned : Lasts s (spareTuned t) := by
  unfold Machine.spareTuned
  split
  · exact h
  · exact .ite h (.ite h.updPhys.offerSwap h.updPhys.offerTraining)

theorem Lasts.trainingEnd : Lasts s (trainingEnd t) := by
  unfold Machine.trainingEnd
  split
  · exact h
  · exact .ite h (.ite h.offerSwap (.ite h.stopSwap h))

theorem Lasts.relockDone {n : Nat} : Lasts s (relockDone n t) :=
  .ite h (.ite (h.bump.updPhys.foldl fun _ _ hu => hu.updLPort) h.bump.updPhys)

/-! ### The functions of Machine/Tick -/

theorem Lasts.advance : Lasts s (advance t) := h.same

/-- The one function that ends READY acts where a fatal error has been raised, and the aborts before it let that error last. -/
theorem Lasts.fatalStop : Lasts s (fatalStop t) := by
  unfold Machine.fatalStop
  split
  · exact h
  · next hgo =>
    have hf : t.flt.fatal = true := not_not.mp (not_or.mp hgo).1
    have hstop : Lasts t (t.coll.insts.foldl (fun a e => Machine.fatalAbort e.2 a) t) := Lasts.refl.foldl fun _ _ hu => hu.fatalAbort
    exact (h.trans hstop).same.mapLine.mapBru_of_fatal (hstop.fatal hf)

theorem Lasts.followEnable : Lasts s (followEnable t) := h.mapPress
theorem Lasts.edgeAborts : Lasts s (edgeAborts t) := h.decideAbsence.liftFences.fenceAborts.applyAborts.finaliseAborts
theorem Lasts.edgeBudgets : Lasts s (edgeBudgets t) := h.mapPress.bumpBy
theorem Lasts.edgeList : Lasts s (edgeList t) := h.mapPress.when (·.buildList)
theorem Lasts.telemetryRefresh : Lasts s (telemetryRefresh t) := .ite h h.same.mapMgt

theorem Lasts.tickEffect : Lasts s (tickEffect t) := by
  unfold Machine.tickEffect
  extract_lets s1 s2 s3 s4 s5
  have h2 : Lasts s s2 := h.advance.applySource.endInstances.discardDraining.lineRetry.countArrivals
  have h3 : Lasts s s3 := h2.applyCommits.applyQosNext.blendEdges.applyReverts
  have h5 : Lasts s s5 := h3.edgeAborts.fatalStop.commitLaunches.evalFences.testTimeouts
  exact h5.applyLock.becomeReady.bruEdge.followEnable.edgeBudgets.edgeList.encodeStage.notePaths.pmSample.telemetryRefresh

end

end Sys2Proof.Machine

/-! Every command but a start, and what of READY, a fatal error, the system lock and a lost supply lasts. -/

namespace Sys2Proof.Machine

open Sys2Proof

section

set_option Elab.async false

variable {s t : State}

/-- Where a command's outcome is a next state, what lasts has lasted. -/
def LastsThrough (s : State) (o : Host.Outcome State Fault Refusal) : Prop := ∀ t, o = .next t → Lasts s t

theorem LastsThrough.next (h : Lasts s t) : LastsThrough s (.next t) := fun _ ht => Host.Outcome.next.inj ht ▸ h
theorem LastsThrough.fault {r : Fault} : LastsThrough s (.fault r) := fun _ ht => nomatch ht

variable (h : Lasts s t)

include h

theorem Lasts.execMbxFinish {src : Source} {udp : List Byte} : LastsThrough s (execMbxFinish src udp t) := by
  unfold Machine.execMbxFinish
  refine .next (h.rxFrame fun _ hu => ?_)
  split
  · exact .ite hu.finishRx hu
  · exact hu

theorem Lasts.execSysManifestRead {mbx region off : Nat} : LastsThrough s (execSysManifestRead mbx region off t) := by
  unfold Machine.execSysManifestRead
  refine .next (h.runCmd fun _ _ _ hu => ?_)
  split
  · exact hu.refuse
  · exact hu.regionOut

theorem Lasts.execCelRegionRead {mbx handle off len : Nat} : LastsThrough s (execCelRegionRead mbx handle off len t) := by
  unfold Machine.execCelRegionRead
  refine .next (h.runCmd fun _ _ _ hu => ?_)
  split
  · exact hu.refuse
  · exact hu.doneWith

theorem Lasts.execCelRegionBulk {mbx handle off len : Nat} {sending : Bool} :
    LastsThrough s (execCelRegionBulk mbx handle off len sending t) := by
  unfold Machine.execCelRegionBulk
  refine .next (h.runCmd fun _ _ _ hu => ?_)
  split
  · exact hu.refuse
  split
  · exact hu.refuse
  split
  · exact hu.refuse
  · exact hu.bulkOpen

theorem Lasts.execSecUtilGcmSeal {mbx : Nat} {key nonce : List Byte} {inp aad : RegionRange} {outH outOff : Nat} {fault : Bool} :
    LastsThrough s (execSecUtilGcmSeal mbx key nonce inp aad outH outOff fault t) := by
  unfold Machine.execSecUtilGcmSeal
  refine .next (h.utilCmd fun _ hu => ?_)
  split
  · exact hu.refuse
  · exact hu.utilRun

theorem Lasts.execSecUtilGcmOpen {mbx : Nat} {key nonce tag : List Byte} {inp aad : RegionRange} {outH outOff : Nat} {fault : Bool} :
    LastsThrough s (execSecUtilGcmOpen mbx key nonce tag inp aad outH outOff fault t) := by
  unfold Machine.execSecUtilGcmOpen
  refine .next (h.utilCmd fun _ hu => ?_)
  split
  · exact hu.refuse
  · exact hu.utilRun

theorem Lasts.execSecUtilCtr {mbx : Nat} {key counter : List Byte} {inp : RegionRange} {outH outOff : Nat} {fault : Bool} :
    LastsThrough s (execSecUtilCtr mbx key counter inp outH outOff fault t) := by
  unfold Machine.execSecUtilCtr
  refine .next (h.utilCmd fun _ hu => ?_)
  split
  · exact hu.refuse
  · exact hu.utilRun

theorem Lasts.execFltBarnBulk {mbx slot off len : Nat} : LastsThrough s (execFltBarnBulk mbx slot off len t) := by
  unfold Machine.execFltBarnBulk
  refine .next (h.runCmd fun _ _ _ hu => ?_)
  extract_lets b
  split
  · exact hu.refuse
  · exact hu.bulkOpen

theorem Lasts.execFltBarnRelease {mbx slot : Nat} : LastsThrough s (execFltBarnRelease mbx slot t) := by
  unfold Machine.execFltBarnRelease
  refine .next (h.runCmd fun _ _ _ hu => ?_)
  split
  · exact hu.refuse
  · exact hu.updBarn.done

theorem Lasts.execCaskRequest {n : Nat} {dramOnly : Bool} {corrupt : Nat} : LastsThrough s (execCaskRequest n dramOnly corrupt t) := by
  unfold Machine.execCaskRequest
  extract_lets s1
  have h1 : Lasts s s1 := by
    unfold s1
    split
    · exact h.unless (·.discardHeads)
    · exact h
  clear_value s1
  split
  · next hd => exact .next (.emit (.of_snd h1.drawCask hd))
  · next hd => exact .next (.emit (.of_snd h1.drawCask hd))

theorem Lasts.execCaskAccess {ptr off len : Nat} {data : Option (List Byte)} {requester : Nat} {flips : List (Nat × Nat)}
    {use : WordUse} : LastsThrough s (execCaskAccess ptr off len data requester flips use t) := by
  unfold Machine.execCaskAccess
  refine .next ?_
  split
  · exact .ite h.badPointer h.caskWrite
  · exact .ite h.badPointer.emit.wordLost h.caskRead

theorem Lasts.execDramRead {addr landed : Nat} {flips : List (Nat × Nat)} {use : WordUse} :
    LastsThrough s (execDramRead addr landed flips use t) := by
  unfold Machine.execDramRead
  split
  · exact .fault
  · exact .next h.dramBurst

theorem Lasts.execSwapGuardRecommit : LastsThrough s (execSwapGuardRecommit t) := by
  unfold Machine.execSwapGuardRecommit
  refine .next ?_
  split
  · exact .ite h.stageSet h
  · exact h

theorem Lasts.execFallowLimit : LastsThrough s (execFallowLimit t) := by
  unfold Machine.execFallowLimit
  refine .next (h.foldl fun _ _ hu => ?_)
  split
  · exact hu.testFallowLimit
  · exact hu

theorem Lasts.execBarnCaptureDone {sections : List (Nat × Bool × List Byte)} {complete : Bool} {ueWords : Nat} :
    LastsThrough s (execBarnCaptureDone sections complete ueWords t) := by
  unfold Machine.execBarnCaptureDone
  refine .next ?_
  cases hk : t.flt.capturing with
  | none => exact h
  | some k => exact h.captureDone

theorem Lasts.execLedgerSeal {stream : Nat} : LastsThrough s (execLedgerSeal stream t) := by
  unfold Machine.execLedgerSeal
  refine .next ?_
  split
  · exact h.sealStream
  · exact h

theorem Lasts.execJtagInstruction {ir : JtagIr} : LastsThrough s (execJtagInstruction ir t) := by
  unfold Machine.execJtagInstruction
  refine .next ?_
  split
  · exact h.mapMgt.emit
  · exact h.mapMgt.takeFree.emit
  · exact h.mapMgt.takeFree.emit
  · exact h.mapMgt.emit

/-- No command but a start takes back what lasts. -/
theorem Lasts.exec {c : Instr} (hc : c.isStart = false) : LastsThrough s (exec c t) := by
  cases c with
  | tickEdge => exact .next h.tickEffect
  | commitApply => exact .next h.applyCommits
  | instanceTimeout => exact .next h.testTimeouts
  | pressingStart => exact .next h.pressingEffect
  | pressingWindowEnd => exact .next h.windowEndEffect
  | spotCheck => exact .next h.spotEffect
  | trellisMessage => exact .next h.trellisEffect
  | dieLinkFlitCrcFail => exact .next h.flitFail
  | dieLinkRetrainDone => exact .next h.retrainDone
  | dieLinkLaneSpare => exact .next h.laneSpare
  | powerCapInterval => exact .next h.powerCap
  | capFloorEvent => exact .next h.capFloor
  | tempSensorRead => exact .next h.sensorStep.tempStep
  | railDroop => exact .next h.updDie
  | retirementApply => exact .next h.retirementEffect
  | quarantineEnd => exact .next h.quarantineEnd
  | pressEnableWrite => exact .next h.fldSet
  | data => exact .next (h.rxFrame fun _ hu => hu.exchangeIn)
  | launch => exact .next (h.rxFrame fun _ hu => hu.exchangeIn)
  | memberAbort => exact .next (h.rxFrame fun _ hu => hu.exchangeIn)
  | memberNack => exact .next (h.rxFrame fun _ hu => hu.exchangeIn)
  | memberAck => exact .next (h.rxFrame fun _ hu => hu.exchangeIn)
  | hostNackRepeat => exact .next h.nackRepeat
  | hostAckInterval => exact .next h.ackPeriodic
  | resultHoldExpire => exact .next h.holdExpire
  | pfcFrameRx => exact .next (h.rxFrame fun _ hu => hu.pfcFrame)
  | pfcPauseExpire => exact .next h.pfcExpire
  | pfcWatchdog => exact .next h.pfcWatchdog
  | pfcRefresh => exact .next h.pfcRefresh
  | pfcDisableWrite => exact .next h.pfcDisable
  | arpRequest => exact .next (h.rxFrame fun _ hu => .ite hu.enqueue hu)
  | neighbourSolicitation => exact .next (h.rxFrame fun _ hu => .ite hu.enqueue hu)
  | icmpEcho => exact .next (h.rxFrame fun _ hu => hu.icmpIn)
  | otherFrameDiscard => exact .next (h.rxFrame fun _ hu => hu.otherFrame)
  | hostAlignmentLoss => exact .next (.ite h.mapHost h)
  | hostLinkDown => exact .next h.linkDown
  | hostLinkUp => exact .next h.linkUpEffect
  | ptpAnnounce => exact .next (h.rxFrame (fun _ hu => (hu.ptpIn (fun _ hu' => hu'.announceIn))))
  | announceReceiptTimeout => exact .next h.announceTimeout
  | ptpSync => exact .next (h.rxFrame (fun _ hu => (hu.ptpIn (fun _ hu' => hu'.syncIn))))
  | ptpFollowUp => exact .next (h.rxFrame (fun _ hu => (hu.ptpIn (fun _ hu' => hu'.followUpIn))))
  | delayReqSend => exact .next h.delayReq
  | ptpDelayResp => exact .next (h.rxFrame (fun _ hu => (hu.ptpIn (fun _ hu' => hu'.delayRespIn))))
  | hostEgressSelect => exact .next h.hostSelect
  | lineBlockSelect => exact .next h.lineSelect
  | tokenRefill => exact .next h.tokenRefill
  | queueSample => exact .next h.queueSample
  | mbxHello => exact .next (h.rxFrame fun _ hu => hu.helloFragment)
  | helloReassemblyTimeout => exact .next h.mapHost
  | halfOpenExpire => exact .next h.mapHost
  | mbxFinish => exact h.execMbxFinish
  | mbxRequest => exact .next (h.rxFrame (fun _ hu => (hu.openDatagram (fun _ _ _ hu' => hu'.requestIn))))
  | mbxClose => exact .next (h.rxFrame (fun _ hu => (hu.openDatagram (fun _ _ _ hu' => hu'.endSession))))
  | sessionIdleTimeout => exact .next h.sessionIdle
  | mbxBulk => exact .next (h.rxFrame (fun _ hu => (hu.openDatagram (fun _ _ _ hu' => hu'.bulkIn))))
  | bulkResend => exact .next h.bulkResend
  | mbxTwin => exact .next (h.rxFrame fun _ hu => hu.twinRx)
  | twinUnmatchedExpiry => exact .next h.unmatchedExpiry
  | sysIdentity => exact .next (h.runCmd fun _ _ _ hu => hu.doneWith)
  | sysNetSet => exact .next (h.runCmd fun _ _ _ hu => hu.mapHost.done)
  | sysCommit => exact .next (h.runCmd fun _ _ _ hu => hu.sysCommit)
  | sysWithdraw => exact .next (h.runCmd fun _ _ _ hu => hu.sysWithdraw)
  | sysEventSubscribe => exact .next (h.runCmd fun _ _ _ hu => hu.subscribe.done)
  | sysReset => exact .next (h.runCmd fun _ _ _ hu => hu.mapMgt.done)
  | sysReadyReasons => exact .next (h.runCmd fun _ _ _ hu => hu.doneWith)
  | sysManifestInstall => exact .next (h.runCmd fun _ _ _ hu => hu.manifestInstall)
  | sysManifestRead => exact h.execSysManifestRead
  | sysShadowJoin => exact .next (h.runCmd fun _ _ _ hu => hu.shadowJoin)
  | sysShadowAccept => exact .next (h.runCmd fun _ _ _ hu => hu.shadowAccept)
  | sysShadowPromote => exact .next (h.runCmd fun _ _ _ hu => hu.shadowPromote)
  | sysLock => exact .next (h.runCmd fun _ _ _ hu => hu.mapMgt.done)
  | systemLockApply => exact .next h.applyLock
  | grpStage => exact .next (h.runCmd fun _ _ _ hu => hu.groupStage)
  | grpRead => exact .next (h.runCmd fun _ _ _ hu => hu.groupRead)
  | grpStreamOpen => exact .next (h.runCmd fun _ _ _ hu => hu.streamOpen)
  | grpStreamClose => exact .next (h.runCmd fun _ _ _ hu => hu.streamClose)
  | opStat => exact .next (h.runCmd fun _ _ _ hu => hu.opStat)
  | opList => exact .next (h.runCmd fun _ _ _ hu => hu.opList)
  | opAbort => exact .next (h.runCmd fun _ _ _ hu => hu.opAbort)
  | progLoad => exact .next (h.runCmd fun _ _ _ hu => hu.progLoad)
  | progUnload => exact .next (h.runCmd fun _ _ _ hu => hu.progUnload)
  | progList => exact .next (h.runCmd fun _ _ _ hu => hu.progList)
  | celRegionCreate => exact .next (h.runCmd fun _ _ _ hu => hu.regionCreate)
  | celRegionFree => exact .next (h.runCmd fun _ _ _ hu => hu.regionFree)
  | celRegionRead => exact h.execCelRegionRead
  | celRegionWrite => exact .next (h.runCmd fun _ _ _ hu => hu.regionPut)
  | celRegionBulk => exact h.execCelRegionBulk
  | memInfo => exact .next (h.runCmd fun _ _ _ hu => hu.doneWith)
  | lneTrib => exact .next (h.runCmd fun _ _ _ hu => hu.tribBind)
  | lnePageStage => exact .next (h.runCmd fun _ _ _ hu => hu.pageStage)
  | lnePmRead => exact .next (h.runCmd fun _ _ _ hu => hu.pmRead)
  | lnePmThresh => exact .next (h.runCmd fun _ _ _ hu => hu.pmThresh)
  | lneXh => exact .next (h.runCmd fun _ _ _ hu => hu.xhSet)
  | optLaneFec => exact .next (h.runCmd fun _ _ _ hu => hu.laneFec)
  | optLaneChannel => exact .next (h.runCmd fun _ _ _ hu => hu.laneChannel)
  | secAnchorInstall => exact .next (h.runCmd fun _ _ _ hu => hu.anchorInstall)
  | secAnchorReplace => exact .next (h.runCmd fun _ _ _ hu => hu.anchorReplace)
  | secEnrolRequest => exact .next (h.runCmd fun _ _ _ hu => hu.doneWith)
  | secEnrolInstall => exact .next (h.runCmd fun _ _ _ hu => hu.enrolInstall)
  | secAttest => exact .next (h.runCmd fun _ _ _ hu => hu.attest)
  | secPairRestart => exact .next (h.runCmd fun _ _ _ hu => hu.pairRestart)
  | secUtilGcmSeal => exact h.execSecUtilGcmSeal
  | secUtilGcmOpen => exact h.execSecUtilGcmOpen
  | secUtilCtr => exact h.execSecUtilCtr
  | secUtilShake => exact .next (h.utilCmd fun _ hu => hu.utilRun)
  | timStep => exact .next (h.runCmd fun _ _ _ hu => hu.timStep)
  | timeStepApply => exact .next h.applyStep
  | qosGroupMap => exact .next (h.runCmd fun _ _ _ hu => hu.qosGroupMap)
  | qosStage => exact .next (h.runCmd fun _ _ _ hu => hu.qosStage)
  | qosHistRead => exact .next (h.runCmd fun _ _ _ hu => hu.qosHistRead)
  | fltEventStat => exact .next (h.runCmd fun _ _ _ hu => hu.eventStat)
  | fltLedgerRead => exact .next (h.runCmd fun _ _ _ hu => hu.ledgerRead)
  | fltBarnList => exact .next (h.runCmd fun _ _ _ hu => hu.doneWith)
  | fltBarnRead => exact .next (h.runCmd fun _ _ _ hu => hu.barnRead)
  | fltBarnBulk => exact h.execFltBarnBulk
  | fltBarnRelease => exact h.execFltBarnRelease
  | fwInfo => exact .next (h.runCmd fun _ _ _ hu => hu.doneWith)
  | fwWrite => exact .next (h.runCmd fun _ _ _ hu => hu.fwWrite)
  | fwBulk => exact .next (h.runCmd fun _ _ _ hu => hu.fwBulk)
  | fwVerify => exact .next (h.runCmdWith fun _ _ _ hu => hu.fwVerify)
  | fwActivate => exact .next (h.runCmd fun _ _ _ hu => hu.fwActivate)
  | fwOwnerLock => exact .next (h.runCmd fun _ _ _ hu => hu.mapMgt.done)
  | fwOwnerUnlock => exact .next (h.runCmd fun _ _ _ hu => hu.mapMgt.done)
  | cmpBlendInstall => exact .next (h.runCmd fun _ _ _ hu => hu.blendInstall)
  | cmpBlendStage => exact .next (h.runCmd fun _ _ _ hu => hu.blendStage)
  | cmpBlendRetire => exact .next (h.runCmd fun _ _ _ hu => hu.blendRetire)
  | cmpBlendRead => exact .next (h.runCmd fun _ _ _ hu => hu.blendRead)
  | cmpResync => exact .next (h.runCmd fun _ _ _ hu => hu.cmpResync)
  | clkSelect => exact .next (h.runCmdWith fun _ _ _ hu => hu.clkSelect)
  | regRead => exact .next (.ite h.windowRead (h.runCmdWith (fun _ _ _ hu => hu.regReadCmd)))
  | regWrite => exact .next (h.runCmdWith fun _ _ _ hu => hu.regWriteCmd)
  | registerWrite => exact .next h.hostWrite
  | rcCounterRead => exact .next (.ite (h.readOut.when (·.bump)) h)
  | latchingRead => exact .next h.readOut
  | sourceSelectWrite => exact .next (.ite h h.selectSource)
  | pageRevert => exact .next (.ite h.requestRevert h)
  | pageStandbyDiscard => exact .next h.standbyDiscard
  | pageReoffer => exact .next h.reoffer
  | qosApply => exact .next h.askApply
  | readinessRecheck => exact .next h.askRecheck
  | pairWaitEndWrite => exact .next h.endPairWait
  | stepCommand => exact .next h.stepCommand
  | uceClaim => exact .next h.uceClaims
  | uceRelease => exact .next h.uceRelease
  | uceLockTimeout => exact .next h.uceTimeout
  | timeSourceWrite => exact .next h.sourceWrite
  | pulseModeWrite => exact .next h.pulseWrite
  | caskRequest => exact h.execCaskRequest
  | caskFree => exact .next (.ite h.badPointer h.poolFree)
  | caskAccess => exact h.execCaskAccess
  | dramRead => exact h.execDramRead
  | gleanGroup => exact .next h.gleanGroup
  | gleanPeriodElapsed => exact .next (.ite h.mapMem h)
  | gleanPassEnd => exact .next h.gleanPassEnd
  | wck2dqOscillator => exact .next (.ite h.askRetrain h)
  | channelRetrainDone => exact .next h.retrainEnd
  | mr4Read => exact .next (.ite (h.foldl fun _ _ hu => hu.mr4Package) h)
  | blendPolicyWindow => exact .next h.windowEnd
  | blendHandshakeTimeout => exact .next (h.foldl fun _ _ hu => hu.offerTimeout)
  | resyncTimeout => exact .next (h.foldl fun _ _ hu => hu.resyncTimeout)
  | blendOfferRx => exact .next (h.policed fun _ hu => hu.blendOffer)
  | blendAcceptRx => exact .next (h.policed fun _ hu => hu.blendAccept)
  | blendRejectRx => exact .next (h.policed fun _ hu => hu.blendReject)
  | blendSwitchRx => exact .next (h.policed fun _ hu => hu.blendSwitch)
  | blendRetireAckRx => exact .next (h.policed fun _ hu => hu.retireAcked)
  | blendResyncRx => exact .next (h.policed fun _ hu => hu.blendResync)
  | frameStart => exact .next h.frameStart
  | timeTransferSend => exact .next h.timeSend
  | controlKeepalive => exact .next (.ite h.keepalive h)
  | aliveRx => exact .next (.ite (h.policed (fun _ hu => hu)) h)
  | slotRx => exact .next h.slotRx
  | elasticStoreSlip => exact .next h.elasticSlip
  | xhSheafRx => exact .next (.ite (h.foldl fun _ _ hu => hu.sheafMember) h)
  | xhSheafDown => exact .next (.ite h.sheafDown h)
  | lineBlockRx => exact .next h.lineBlockRx
  | lineAckIdle => exact .next h.ackIdle
  | lineNackRepeat => exact .next h.nackRepeats
  | lineResendTimer => exact .next h.resendTimer
  | lineAckRx => exact .next h.lineAck
  | lineNackRx => exact .next h.lineNack
  | pageOfferRx => exact .next (.ite (h.policed (fun _ hu => hu.offerRx)) h)
  | pageReadyRx => exact .next (.ite (h.policed (fun _ hu => hu.readyRx)) h)
  | pageRejectRx => exact .next (.ite (h.policed (fun _ hu => hu.rejectRx)) h)
  | degradationPageCompute => exact .next h.degrCompute
  | pageSetDiscard => exact .next h.setDiscard
  | laneDegrade => exact .next (.ite h.loseLane h)
  | doubleLossRepage => exact .next h.doubleRepage
  | rdiClear => exact .next (.ite h.updLane.updPhys h)
  | pmSecond => exact .next (.ite ((h.foldl fun _ _ hu => hu.pmSecondOf).mapLine) h)
  | pmBinRollover => exact .next h.binRollover
  | timeTransferRx => exact .next (.ite (h.policed (fun _ hu => hu.timeRx)) h)
  | loopFail => exact .next (.ite h.declareTx h)
  | lossOfSignal => exact .next (.ite h.declareRx h)
  | monitorRead => exact .next h.monitorRead
  | contextRelearn => exact .next h.updPhys
  | fadeEvaluation => exact .next (.ite ((h.mapOpt.foldl fun _ _ hu => hu.closeMinute).evaluateFades) h)
  | spareTuneDone => exact .next h.spareTuned
  | spareTrainingEnd => exact .next h.trainingEnd
  | swapRetryEval => exact .next (.ite h.mapOpt.evaluateFades h)
  | swapGuardRecommit => exact h.execSwapGuardRecommit
  | failedLaneTakeover => exact .next (.ite h.startSwap h)
  | wrongWavelengthLocal => exact .next h.frequencyRead
  | relockDone => exact .next h.relockDone
  | relockFarCheck => exact .next (.ite h.wrongWavelength h)
  | rackingBegin => exact .next h.rackBegin
  | rackSwitch => exact .next h.rackSwitch
  | announceRx => exact .next (h.policed fun _ hu => hu.announceRx)
  | rackReadyRx => exact .next (h.policed fun _ hu => hu)
  | vintageWindowClose => exact .next h.windowClose
  | pHelloRx => exact .next h.helloRx
  | pHelloRepeat => exact .next h.helloRepeat
  | pEncapRx => exact .next h.encapRx
  | pConfirmRx => exact .next h.confirmRx
  | pairingTimeout => exact .next h.pairTimeout
  | pairingRetry => exact .next h.pairRetry
  | repairNoBlock => exact .next h.repairNoBlock
  | refMissingEdges => exact .next h.updRef.refFail
  | refWindowEnd => exact .next h.refWindow
  | xtalStable => exact .next h.xtalStable
  | xtalFail => exact .next h.xtalFail
  | holdoverEntry => exact .next h.holdover
  | timeInvalid => exact .next h.timeInvalid
  | pulseEdge => exact .next h.pulseEdge
  | digestSend => exact .next h.digestSend
  | digestRx => exact .next (h.policed fun _ hu => hu.digestRx)
  | digestListRx => exact .next (h.policed fun _ hu => hu.digestListRx)
  | configFence => exact .next h.fenceScope.fenceGroups
  | partnerLinkDown => exact .next (.ite h.linkLost h)
  | siteAbsent => exact .next h.decideAbsence
  | siteStateRx => exact .next (h.policed fun _ hu => hu.siteStateRx)
  | siteAckRx => exact .next (h.policed fun _ hu => hu.siteAckRx)
  | fallowLimit => exact h.execFallowLimit
  | launchNoticeRx => exact .next h.arrive
  | abortNoticeRx => exact .next h.arrive
  | fenceClearRx => exact .next h.arrive
  | promoteRx => exact .next (h.policed fun _ hu => hu.promoteRx)
  | promotionAtT => exact .next h.promoteAtT
  | vintnerPairMismatch => exact .next h.pairMismatch
  | vintnerWatchdog => exact .next h.watchdog
  | vintnerRestartDone => exact .next (.ite h h.restartDone)
  | vintnerHeartbeatLoss => exact .next h.raise
  | barnCaptureDone => exact h.execBarnCaptureDone
  | railFault => exact .next (.ite h h.mapBru.raise)
  | powerLoss => exact .next (.ite h h.powerLoss)
  | ledgerSeal => exact h.execLedgerSeal
  | coldStart => cases hc
  | warmStart => cases hc
  | bringupStepDone => exact .next h.stepDone
  | pressWave => exact .next h.pressWave
  | pairWaitExpire => exact .next (.ite h.stepTen h)
  | telemetryWrite => exact .next h.emit
  | jtagInstruction => exact h.execJtagInstruction
  | mbxHelloReply => exact .next (h.rxFrame fun _ hu => hu.helloReply)
  | pfcWatchdogIgnoreEnd => exact .next h.pfcIgnoreEnd
  | spareTuneTimeout => exact .next (.ite h.stopSwap h)
  | vintnerSelfTestDone => exact .next h.pairSelfTest
  | laneRecovery => exact .next (.ite h h.updPhys)
  | signalReturn => exact .next h.updPhys
  | servoEnWrite => exact .next h.servoEnWrite
  | ledgerDropSummary => exact .next h.dropSummary

end

/-- Settles O5: no command but a start takes back READY without a fatal error, or a fatal error, the system lock or the loss of the
supply. -/
theorem readyStays : Obligations.ReadyStays := by
  unfold Obligations.ReadyStays
  intro c s t hc ht
  obtain ⟨hready, hfatal, hlock, hsupply⟩ := Lasts.refl.exec hc t ht
  exact ⟨hready, hfatal, hlock, hsupply⟩

end Sys2Proof.Machine

/-! What a command changes of groups, instances, Press, blends, schedulers, Cellar and memory, as a relation of two states that every
function of the machine keeps: no function touches the queue of commands, none takes memory out of its canonical form, and the parts of
these blocks that it changes are those of its footprint. -/

namespace Sys2Proof.Machine

open Sys2Proof

/-- The parts whose changes are followed: groups, instances and Press, blends, schedulers and Cellar, memory, the time counter, the system
lock and the tick count. -/
def Part.followed : List Part :=
  [.programs, .groups, .commits, .instances, .aborts, .reserved, .units, .dies, .cores, .pressing, .blends, .queues, .casks, .areas,
    .dram, .poison, .sram, .regions, .channels, .gleaning, .lastUe, .counter, .sysLock, .tick]

/-- None of these parts is to be spared. -/
def Free (P : Part → Prop) (F : List Part) : Prop := ∀ q ∈ F, ¬ P q

/-- From one state to the other the queue of commands stays, memory in canonical form stays in it, and so do the followed parts of which
`P` holds. -/
structure Spares (P : Part → Prop) (s t : State) : Prop where
  queue : t.pending = s.pending
  form : Inv s → Inv t
  kept : ∀ q ∈ Part.followed, P q → q.Same s t

section

variable {P : Part → Prop} {F G : List Part} {s t u : State}

theorem Free.sub (h : Free P G) (hs : F ⊆ G := by decide) : Free P F := fun q hq => h q (hs hq)

/-- A part that may change need not be shown to stay. -/
theorem Free.off (h : Free P G) {q : Part} (hq : q ∈ G := by decide) {c : Prop} (hP : P q) : c := absurd hP (h q hq)

theorem Part.same_refl (q : Part) (s : State) : q.Same s s := by
  cases q <;> simp only [Part.Same, and_self, implies_true]

theorem Spares.refl : Spares P s s := ⟨rfl, id, fun q _ _ => q.same_refl s⟩

/-- The followed parts are the same in two states that agree in the queue and in the blocks that hold the parts. -/
theorem Spares.same (h : Spares P s t) (hqueue : u.pending = t.pending := by rfl) (hcoll : u.coll = t.coll := by rfl)
    (hpress : u.press = t.press := by rfl) (hcmp : u.cmp = t.cmp := by rfl) (hqos : u.qos = t.qos := by rfl)
    (hcellar : u.cellar = t.cellar := by rfl) (hmem : u.mem = t.mem := by rfl) (htime : u.time = t.time := by rfl)
    (hmgt : u.mgt = t.mgt := by rfl) (htick : u.tick = t.tick := by rfl) : Spares P s u := by
  refine ⟨hqueue.trans h.queue, fun hs => ?form, fun q hq hP => ?same⟩
  case form =>
    rw [Inv, hmem]
    exact h.form hs
  case same =>
    have hold := h.kept q hq hP
    fin_cases hq <;> simpa only [Part.Same, hcoll, hpress, hcmp, hqos, hcellar, hmem, htime, hmgt, htick] using hold

theorem Spares.ite {c : Prop} {_ : Decidable c} (ht : Spares P s t) (hu : Spares P s u) : Spares P s (if c then t else u) := by
  split
  · exact ht
  · exact hu

theorem Spares.when {c : Prop} {_ : Decidable c} (h : Spares P s t) (hu : Spares P s t → Spares P s u) :
    Spares P s (if c then u else t) := .ite (hu h) h

theorem Spares.unless {c : Prop} {_ : Decidable c} (h : Spares P s t) (hu : Spares P s t → Spares P s u) :
    Spares P s (if c then t else u) := .ite h (hu h)

theorem Spares.foldl {α : Type} {l : List α} {f : State → α → State} (h : Spares P s t)
    (hf : ∀ u a, Spares P s u → Spares P s (f u a)) : Spares P s (l.foldl f t) :=
  List.foldlRecOn l f h fun u hu a _ => hf u a hu

theorem Spares.foldl_fst {α β : Type} {l : List α} {p : State × β} {f : State × β → α → State × β} (h : Spares P s p.1)
    (hf : ∀ p a, Spares P s p.1 → Spares P s (f p a).1) : Spares P s (l.foldl f p).1 :=
  List.foldlRecOn (motive := (Spares P s ·.1)) l f h fun p hp a _ => hf p a hp

theorem Spares.foldl_snd {α β : Type} {l : List α} {p : β × State} {f : β × State → α → β × State} (h : Spares P s p.2)
    (hf : ∀ p a, Spares P s p.2 → Spares P s (f p a).2) : Spares P s (l.foldl f p).2 :=
  List.foldlRecOn (motive := (Spares P s ·.2)) l f h fun p hp a _ => hf p a hp

theorem Spares.ite_state {c : Prop} {_ : Decidable c} {a b : CmdRes} (ha : Spares P s a.state) (hb : Spares P s b.state) :
    Spares P s (if c then a else b).state := by
  split
  · exact ha
  · exact hb

theorem Spares.of_snd {α : Type} {p : α × State} {a : α} (h : Spares P s p.2) (he : p = (a, u)) : Spares P s u := by
  subst he
  exact h

theorem Spares.of_fst {α : Type} {p : State × α} {a : α} (h : Spares P s p.1) (he : p = (u, a)) : Spares P s u := by
  subst he
  exact h

/-! ### Memory in canonical form -/

theorem mwfFrom_filter {α : Type} {p : Nat × α → Bool} {b : Nat} {m : SMap α} (h : mwfFrom b m = true) : mwfFrom b (m.filter p) = true := by
  induction m generalizing b with
  | nil => rfl
  | cons e m ih =>
    obtain ⟨k, v⟩ := e
    simp only [mwfFrom, Bool.and_eq_true, decide_eq_true_eq] at h
    obtain ⟨hk, hm⟩ := h
    rw [List.filter_cons]
    split
    · simp only [mwfFrom, Bool.and_eq_true, decide_eq_true_eq]
      exact ⟨hk, ih hm⟩
    · exact mwfFrom_mono _ (Nat.le_succ_of_le hk) (ih hm)

/-- A part of a map in canonical form is in canonical form. -/
theorem mcanon_filter {α : Type} [DecidableEq α] {d : α} {p : Nat × α → Bool} {m : SMap α} (h : mcanon d m = true) :
    mcanon d (m.filter p) = true := by
  rw [mcanon, Bool.and_eq_true] at h ⊢
  obtain ⟨hw, hd⟩ := h
  refine ⟨mwfFrom_filter hw, ?_⟩
  rw [List.all_eq_true] at hd ⊢
  exact fun e he => hd e (List.mem_of_mem_filter he)

theorem dramWrite_inv {a : Nat} {l : List Byte} (h : Inv t) : Inv (dramWrite a l t) := ⟨dramWrite_wf a l t h.1, h.2⟩

/-- R543: the memory test leaves the Barn at most. -/
theorem barnKept_wf {held : Bool} {m : List Host.Cell} (h : Memory.wf m = true) :
    Memory.wf (if held then barnWindow m else []) = true := by
  split
  · exact mcanon_filter h
  · rfl

/-! ### The updates of a block that holds followed parts: each part of it stays, or may change; the cases stand in the order of the list -/

variable (h : Spares P s t)

include h

theorem Spares.mapColl {f : Coll → Coll}
    (programs : P .programs → (f t.coll).programs = t.coll.programs := by exact fun _ => rfl)
    (groups : P .groups → (f t.coll).groups = t.coll.groups := by exact fun _ => rfl)
    (commits : P .commits → (f t.coll).commits = t.coll.commits ∧ (f t.coll).nextCommit = t.coll.nextCommit := by exact fun _ => ⟨rfl, rfl⟩)
    (instances : P .instances → (f t.coll).insts = t.coll.insts ∧ (f t.coll).nextOrder = t.coll.nextOrder ∧
      (f t.coll).committedNow = t.coll.committedNow ∧ (f t.coll).fences = t.coll.fences ∧ (f t.coll).ended = t.coll.ended := by
        exact fun _ => ⟨rfl, rfl, rfl, rfl, rfl⟩)
    (aborts : P .aborts → (f t.coll).aborts = t.coll.aborts := by exact fun _ => rfl)
    (reserved : P .reserved → (f t.coll).reserved = t.coll.reserved := by exact fun _ => rfl) : Spares P s (t.mapColl f) := by
  refine ⟨h.queue, h.form, fun q hq hP => ?_⟩
  have hold := h.kept q hq hP
  fin_cases hq
  · exact (programs hP).trans hold
  · exact (groups hP).trans hold
  · obtain ⟨h1, h2⟩ := commits hP
    exact ⟨h1.trans hold.1, h2.trans hold.2⟩
  · obtain ⟨h1, h2, h3, h4, h5⟩ := instances hP
    obtain ⟨k1, k2, k3, k4, k5⟩ := hold
    exact ⟨h1.trans k1, h2.trans k2, h3.trans k3, h4.trans k4, h5.trans k5⟩
  · exact (aborts hP).trans hold
  · exact (reserved hP).trans hold
  all_goals exact hold

theorem Spares.mapPress {f : Press → Press}
    (units : P .units → (f t.press).units = t.press.units ∧ (f t.press).listed = t.press.listed ∧ (f t.press).missed = t.press.missed ∧
      (f t.press).reissue = t.press.reissue ∧ (f t.press).treeFaulty = t.press.treeFaulty ∧
      (f t.press).treeReports = t.press.treeReports := by exact fun _ => ⟨rfl, rfl, rfl, rfl, rfl, rfl⟩)
    (dies : P .dies → (f t.press).dies = t.press.dies ∧ (f t.press).intervalStart = t.press.intervalStart := by
      exact fun _ => ⟨rfl, rfl⟩)
    (cores : P .cores → (f t.press).cores = t.press.cores ∧ (f t.press).worked = t.press.worked ∧
      (f t.press).spotClean = t.press.spotClean ∧ (f t.press).spotRounds = t.press.spotRounds := by exact fun _ => ⟨rfl, rfl, rfl, rfl⟩)
    (pressing : P .pressing → (f t.press).running = t.press.running := by exact fun _ => rfl) : Spares P s (t.mapPress f) := by
  refine ⟨h.queue, h.form, fun q hq hP => ?_⟩
  have hold := h.kept q hq hP
  fin_cases hq
  iterate 6 exact hold
  · obtain ⟨h1, h2, h3, h4, h5, h6⟩ := units hP
    obtain ⟨k1, k2, k3, k4, k5, k6⟩ := hold
    exact ⟨h1.trans k1, h2.trans k2, h3.trans k3, h4.trans k4, h5.trans k5, h6.trans k6⟩
  · obtain ⟨h1, h2⟩ := dies hP
    exact ⟨h1.trans hold.1, h2.trans hold.2⟩
  · obtain ⟨h1, h2, h3, h4⟩ := cores hP
    obtain ⟨k1, k2, k3, k4⟩ := hold
    exact ⟨h1.trans k1, h2.trans k2, h3.trans k3, h4.trans k4⟩
  · exact (pressing hP).trans hold
  all_goals exact hold

theorem Spares.mapCellar {f : Cellar → Cellar}
    (casks : P .casks → (f t.cellar).classes = t.cellar.classes := by exact fun _ => rfl)
    (areas : P .areas → (f t.cellar).ringUsed = t.cellar.ringUsed ∧ (f t.cellar).reorderUsed = t.cellar.reorderUsed ∧
      (f t.cellar).ringWarn = t.cellar.ringWarn ∧ (f t.cellar).ringBp = t.cellar.ringBp ∧
      (f t.cellar).reorderWarn = t.cellar.reorderWarn ∧ (f t.cellar).reorderBp = t.cellar.reorderBp := by
        exact fun _ => ⟨rfl, rfl, rfl, rfl, rfl, rfl⟩) : Spares P s (t.mapCellar f) := by
  refine ⟨h.queue, h.form, fun q hq hP => ?_⟩
  have hold := h.kept q hq hP
  fin_cases hq
  iterate 12 exact hold
  · exact (casks hP).trans hold
  · obtain ⟨h1, h2, h3, h4, h5, h6⟩ := areas hP
    obtain ⟨k1, k2, k3, k4, k5, k6⟩ := hold
    exact ⟨h1.trans k1, h2.trans k2, h3.trans k3, h4.trans k4, h5.trans k5, h6.trans k6⟩
  all_goals exact hold

theorem Spares.mapMem {f : Mem → Mem} 
    (form : Inv t → Memory.wf (f t.mem).dram = true ∧ Memory.wf (f t.mem).sram = true := by exact fun hi => ⟨hi.1, hi.2⟩)
    (dram : P .dram → (f t.mem).dram = t.mem.dram := by exact fun _ => rfl)
    (poison : P .poison → (f t.mem).poison = t.mem.poison := by exact fun _ => rfl)
    (sram : P .sram → (f t.mem).sram = t.mem.sram := by exact fun _ => rfl)
    (regions : P .regions → (f t.mem).regions = t.mem.regions := by exact fun _ => rfl)
    (channels : P .channels → (f t.mem).channels = t.mem.channels ∧ (f t.mem).retrainWait = t.mem.retrainWait := by
      exact fun _ => ⟨rfl, rfl⟩)
    (gleaning : P .gleaning → (f t.mem).gleanPasses = t.mem.gleanPasses ∧ (f t.mem).gleanGroups = t.mem.gleanGroups ∧
      (f t.mem).gleanCe = t.mem.gleanCe ∧ (f t.mem).gleanUe = t.mem.gleanUe ∧ (f t.mem).gleanStart = t.mem.gleanStart ∧
      (f t.mem).gleanUrgent = t.mem.gleanUrgent ∧ (f t.mem).weakRows = t.mem.weakRows := by
        exact fun _ => ⟨rfl, rfl, rfl, rfl, rfl, rfl, rfl⟩)
    (lastUe : P .lastUe → (f t.mem).lastUe = t.mem.lastUe := by exact fun _ => rfl) : Spares P s (t.mapMem f) := by
  refine ⟨h.queue, fun hs => form (h.form hs), fun q hq hP => ?_⟩
  have hold := h.kept q hq hP
  fin_cases hq
  iterate 14 exact hold
  · exact (dram hP).trans hold
  · exact (poison hP).trans hold
  · exact (sram hP).trans hold
  · exact (regions hP).trans hold
  · obtain ⟨h1, h2⟩ := channels hP
    exact ⟨h1.trans hold.1, h2.trans hold.2⟩
  · obtain ⟨h1, h2, h3, h4, h5, h6, h7⟩ := gleaning hP
    obtain ⟨k1, k2, k3, k4, k5, k6, k7⟩ := hold
    exact ⟨h1.trans k1, h2.trans k2, h3.trans k3, h4.trans k4, h5.trans k5, h6.trans k6, h7.trans k7⟩
  · exact (lastUe hP).trans hold
  all_goals exact hold

theorem Spares.mapCmp {f : SMap BSlot → SMap BSlot} (hfree : Free P [.blends] := by exact hfree.sub) : Spares P s (t.mapCmp f) := by
  refine ⟨h.queue, h.form, fun q hq hP => ?_⟩
  have hold := h.kept q hq hP
  fin_cases hq
  iterate 10 exact hold
  · exact hfree.off (hP := hP)
  all_goals exact hold

theorem Spares.mapQos {f : Vector Sched 5 → Vector Sched 5} (hfree : Free P [.queues] := by exact hfree.sub) : Spares P s (t.mapQos f) := by
  refine ⟨h.queue, h.form, fun q hq hP => ?_⟩
  have hold := h.kept q hq hP
  fin_cases hq
  iterate 11 exact hold
  · exact hfree.off (hP := hP)
  all_goals exact hold

theorem Spares.mapTime {f : TimeSt → TimeSt}
    (counter : P .counter → (f t.time).counter = t.time.counter ∧ (f t.time).valid = t.time.valid ∧
      (f t.time).steps = t.time.steps := by exact fun _ => ⟨rfl, rfl, rfl⟩) : Spares P s (t.mapTime f) := by
  refine ⟨h.queue, h.form, fun q hq hP => ?_⟩
  have hold := h.kept q hq hP
  fin_cases hq
  iterate 21 exact hold
  · obtain ⟨h1, h2, h3⟩ := counter hP
    obtain ⟨k1, k2, k3⟩ := hold
    exact ⟨h1.trans k1, h2.trans k2, h3.trans k3⟩
  all_goals exact hold

theorem Spares.mapMgt {f : Mgt → Mgt}
    (sysLock : P .sysLock → (f t.mgt).sysLock = t.mgt.sysLock ∧ (f t.mgt).lockNext = t.mgt.lockNext := by exact fun _ => ⟨rfl, rfl⟩) :
    Spares P s (t.mapMgt f) := by
  refine ⟨h.queue, h.form, fun q hq hP => ?_⟩
  have hold := h.kept q hq hP
  fin_cases hq
  iterate 22 exact hold
  · obtain ⟨h1, h2⟩ := sysLock hP
    exact ⟨h1.trans hold.1, h2.trans hold.2⟩
  all_goals exact hold

/-! ### The updates of a block that holds none -/

theorem Spares.mapHost {f : HostPort → HostPort} : Spares P s (t.mapHost f) := h.same
theorem Spares.mapRegs {f : SMap Nat → SMap Nat} : Spares P s (t.mapRegs f) := h.same
theorem Spares.mapLine {f : Line → Line} : Spares P s (t.mapLine f) := h.same
theorem Spares.mapOpt {f : Opt → Opt} : Spares P s (t.mapOpt f) := h.same
theorem Spares.mapSec {f : Sec → Sec} : Spares P s (t.mapSec f) := h.same
theorem Spares.mapSites {f : Sites → Sites} : Spares P s (t.mapSites f) := h.same
theorem Spares.mapFlt {f : Flt → Flt} : Spares P s (t.mapFlt f) := h.same
theorem Spares.mapBru {f : Bru → Bru} : Spares P s (t.mapBru f) := h.same
theorem Spares.emit {o : Output} : Spares P s (t.emit o) := h.same
theorem Spares.takeFree : Spares P s t.takeFree.2 := h.same
theorem Spares.noteEvent {e : EventRec} : Spares P s (noteEvent e t) := h.same

end

end Sys2Proof.Machine

/-! What each function of the machine that a command other than a start runs may change of the followed parts: one rule for each, in the
order of the model. -/

namespace Sys2Proof.Machine

open Sys2Proof

section

-- One proof after the other: elaborated side by side, these many short proofs take more threads than the memory limit has room for.
set_option Elab.async false

variable {P : Part → Prop} {s t u : State} (h : Spares P s t)

include h

/-! ### The functions of Machine/Regs -/

theorem Spares.regSet {a v : Nat} : Spares P s (regSet a v t) := h.mapRegs
theorem Spares.fldSet {a lo w v : Nat} : Spares P s (fldSet a lo w v t) := h.regSet
theorem Spares.setBits {a mask : Nat} : Spares P s (setBits a mask t) := h.regSet
theorem Spares.bumpBy {a n : Nat} : Spares P s (bumpBy a n t) := h.regSet
theorem Spares.bump {a : Nat} : Spares P s (bump a t) := h.bumpBy

/-! ### The functions of Machine/Ops -/

theorem Spares.enqueue {sched queue : Nat} {it : EItem}
    (hfree : Free P [.queues] := by exact hfree.sub) : Spares P s (enqueue sched queue it t) :=
  h.mapQos
theorem Spares.sendHost {p : HostPkt} (hfree : Free P [.queues] := by exact hfree.sub) : Spares P s (sendHost p t) := h.enqueue
theorem Spares.sendLine {p : LinePartial} (hfree : Free P [.queues] := by exact hfree.sub) : Spares P s (sendLine p t) := h.enqueue

theorem Spares.mbxSend {sid kind mailbox reqSeq : Nat} {body : List Byte}
    (hfree : Free P [.queues] := by exact hfree.sub) : Spares P s (mbxSend sid kind mailbox reqSeq body t) := by
  unfold Machine.mbxSend
  split
  · exact h
  · exact h.enqueue.mapHost

theorem Spares.withStreams {c f : LedgerStream} : Spares P s (t.mapFlt (Flt.withStreams c f)) := h.mapFlt
theorem Spares.ledgerWrite {kind code : Nat} {body : List Byte} : Spares P s (ledgerWrite kind code body t) := h.withStreams

theorem Spares.deliverEvent {e : EventRec} (hfree : Free P [.queues] := by exact hfree.sub) : Spares P s (deliverEvent e t) := by
  unfold Machine.deliverEvent
  refine h.foldl fun u x hu => ?_
  split
  · exact .ite hu.mbxSend hu
  · exact .ite hu.mbxSend hu

theorem Spares.beginCapture {code : Nat} : Spares P s (beginCapture code t) := by
  unfold Machine.beginCapture
  split
  · exact h.same
  · exact .ite h h.same

theorem Spares.countEvent {code : Nat} {held : Bool} : Spares P s (countEvent code held t) :=
  (h.bump.when (·.bump)).when (·.setBits.setBits)
theorem Spares.stopIfFatal {code : Nat} (hstop : evClass code = 12 → ¬ P .pressing := by exact fun hc => absurd hc (by decide)) :
    Spares P s (stopIfFatal code t) := by
  unfold Machine.stopIfFatal
  split
  · next hc => exact h.mapPress (pressing := fun hP => absurd hP (hstop hc))
  · exact h

theorem Spares.raiseCore {code : Nat} {args : List Nat}
    (hstop : evClass code = 12 → ¬ P .pressing := by exact fun hc => absurd hc (by decide))
    (hfree : Free P [.queues] := by exact hfree.sub) :
    Spares P s (raiseCore code args t) :=
  ((Spares.ite h.beginCapture h).noteEvent.countEvent.stopIfFatal hstop).when (·.deliverEvent)
theorem Spares.dropWarning {code : Nat} (hfree : Free P [.queues] := by exact hfree.sub) : Spares P s (dropWarning code t) :=
  h.mapFlt.bump.when (·.mapFlt.raiseCore)
theorem Spares.warnRecord {code : Nat} {e : EventRec} (hfree : Free P [.queues] := by exact hfree.sub) : Spares P s (warnRecord code e t) :=
  .ite h (.ite h.mapFlt.ledgerWrite h.dropWarning)
theorem Spares.ledgerEvent {code : Nat} {e : EventRec}
    (hfree : Free P [.queues] := by exact hfree.sub) : Spares P s (ledgerEvent code e t) :=
  h.ledgerWrite.when (·.mapFlt.raiseCore.warnRecord)
theorem Spares.raiseLedger {code : Nat} {args : List Nat}
    (hfree : Free P [.queues] := by exact hfree.sub) : Spares P s (raiseLedger code args t) :=
  .ite h.ledgerEvent (.ite h.warnRecord h)
/-- An event leaves the Press running unless it is fatal (R518). -/
theorem Spares.raise {code : Nat} {args : List Nat}
    (hstop : evClass code = 12 → ¬ P .pressing := by exact fun hc => absurd hc (by decide))
    (hfree : Free P [.queues] := by exact hfree.sub) :
    Spares P s (raise code args t) := (h.raiseCore hstop).raiseLedger

theorem Spares.raiseFatal {code : Nat} {args : List Nat} (hfree : Free P [.pressing, .queues] := by exact hfree.sub) :
    Spares P s (Machine.raise code args t) := h.raise fun _ => hfree _ (by decide)
theorem Spares.happenedNow {code : Nat} : Spares P s (happenedNow code t) := h.mapBru
theorem Spares.sendPfc {quanta : Nat} : Spares P s (sendPfc quanta t) := (Spares.ite h.emit.bump h).mapHost
theorem Spares.pfcFollow : Spares P s (pfcFollow t) := .ite h.sendPfc (.ite h.sendPfc h)
theorem Spares.caskEval {c : Nat}
    (hfree : Free P [.queues, .casks] := by exact hfree.sub) : Spares P s (caskEval c t) := ((((h.mapCellar (casks :=
  hfree.off)).when (·.raise)).when (·.raise)).when (·.raise)).pfcFollow

theorem Spares.caskFrom {c : Nat} {dramOnly : Bool}
    (hfree : Free P [.queues, .casks] := by exact hfree.sub) : Spares P s (caskFrom c dramOnly t).2 := by
  unfold Machine.caskFrom
  extract_lets
  split
  · exact h.bump
  split
  · exact (h.mapCellar (casks := hfree.off)).caskEval
  split
  · exact (h.mapCellar (casks := hfree.off)).caskEval
  · exact .ite h h.bump

theorem Spares.drawCask {n : Nat} {dramOnly : Bool}
    (hfree : Free P [.queues, .casks] := by exact hfree.sub) : Spares P s (drawCask n dramOnly t).2 := by
  unfold Machine.drawCask
  split
  · exact h.bump
  · exact h.caskFrom

theorem Spares.poolFree {p : Nat}
    (hfree : Free P [.queues, .casks] := by exact hfree.sub) : Spares P s (poolFree p t) := .ite h.bump.raise (h.mapCellar (casks :=
  hfree.off)).caskEval
theorem Spares.freeCasks {ps : List Nat} (hfree : Free P [.queues, .casks] := by exact hfree.sub) : Spares P s (freeCasks ps t) :=
  h.foldl fun _ _ hu => hu.poolFree
theorem Spares.dramWrite {a : Nat} {l : List Byte} (hfree : Free P [.dram, .poison] := by exact hfree.sub) :
    Spares P s (dramWrite a l t) := h.mapMem (form := dramWrite_inv) (dram := hfree.off) (poison :=
  hfree.off)

theorem Spares.regionWrite {hd off : Nat} {l : List Byte}
    (hfree : Free P [.dram, .poison] := by exact hfree.sub) : Spares P s (regionWrite hd off l t) := by
  unfold Machine.regionWrite
  split
  · exact h.dramWrite
  · exact h

/-! ### The functions of Machine/CollBase -/

theorem Spares.putInst {x : Instance}
    (hfree : Free P [.instances] := by exact hfree.sub) : Spares P s (putInst x t) := (h.mapColl (instances :=
  hfree.off))
theorem Spares.updInst {g i : Nat} {f : Instance → Instance}
    (hfree : Free P [.instances] := by exact hfree.sub) : Spares P s (updInst g i f t) := (h.mapColl (instances :=
  hfree.off))
theorem Spares.updGroup {g : Nat} {f : GroupRec → GroupRec}
    (hfree : Free P [.groups] := by exact hfree.sub) : Spares P s (updGroup g f t) := (h.mapColl (groups :=
  hfree.off))

theorem Spares.askAbort {g i cls code dk d : Nat}
    (hfree : Free P [.aborts] := by exact hfree.sub) : Spares P s (askAbort g i cls code dk d t) := by
  unfold Machine.askAbort
  exact (h.mapColl (aborts := hfree.off))

theorem Spares.openInst {g i epoch : Nat}
    (hfree : Free P [.instances, .aborts, .reserved] := by exact hfree.sub) : Spares P s (openInst g i epoch t) := by
  unfold Machine.openInst
  split
  · exact h
  · exact (h.putInst.mapColl (reserved := hfree.off)).when (·.askAbort)

theorem Spares.updGroupSites {g : Nat} {f : GroupSites → GroupSites} : Spares P s (updGroupSites g f t) := h.mapSites
theorem Spares.updSilo {g i : Nat} {f : SiloRec → SiloRec} : Spares P s (updSilo g i f t) := h.mapSites
theorem Spares.updPartner {p : Nat} {f : Partner → Partner} : Spares P s (updPartner p f t) := h.mapSites
theorem Spares.sendCtl {port ty : Nat} {fields : List Nat} {body : List Byte} : Spares P s (sendCtl port ty fields body t) := h.updPartner
theorem Spares.toFars {gt : GroupTable} {except : Option Nat} {ty : Nat} {fields : List Nat} : Spares P s (toFars gt except ty fields t) :=
  h.foldl fun _ _ hu => .ite hu hu.sendCtl

/-! ### The functions of Machine/HostOps -/

theorem Spares.updStream {id : Nat} {f : StreamCtx → StreamCtx} : Spares P s (updStream id f t) := h.mapHost

theorem Spares.sendNack {id reason : Nat} {ranges : List (Nat × Nat)}
    (hfree : Free P [.queues] := by exact hfree.sub) : Spares P s (sendNack id reason ranges t) := by
  unfold Machine.sendNack
  split
  · exact h
  · exact .ite h.enqueue.updStream h.enqueue.updStream.bump

theorem Spares.sendAck {id : Nat} (hfree : Free P [.queues] := by exact hfree.sub) : Spares P s (sendAck id t) := h.sendNack
theorem Spares.openNack {id seq reason g i : Nat} : Spares P s (openNack id seq reason g i t) := h.updStream
theorem Spares.setBack {id seq reason g i : Nat}
    (hfree : Free P [.queues] := by exact hfree.sub) : Spares P s (setBack id seq reason g i t) :=
  .ite h.updStream.updStream.sendNack.openNack h.updStream.sendNack
theorem Spares.raiseLimited {code id : Nat} {args : List Nat}
    (hstop : evClass code = 12 → ¬ P .pressing := by exact fun hc => absurd hc (by decide))
    (hfree : Free P [.queues] := by exact hfree.sub) :
    Spares P s (raiseLimited code id args t) := .ite h (h.mapHost.raise hstop)
theorem Spares.updSlot {ctx cls : Nat} {f : BSlot → BSlot}
    (hfree : Free P [.blends] := by exact hfree.sub) : Spares P s (updSlot ctx cls f t) :=
  h.mapCmp

theorem Spares.countSymbols {ctx : Nat} {f : Form} {n : Nat} {raw : List Byte}
    (hfree : Free P [.blends] := by exact hfree.sub) : Spares P s (countSymbols ctx f n raw t) := by
  unfold Machine.countSymbols
  split
  · exact h
  · exact .ite h h.updSlot

theorem Spares.countFail {k : FailKind} : Spares P s (countFail k t) := h.bump

theorem Spares.dataFailed {p : Pkt} {k : FailKind} (hfree : Free P [.queues] := by exact hfree.sub) : Spares P s (dataFailed p k t) := by
  unfold Machine.dataFailed
  extract_lets
  split
  · exact h.countFail
  · exact .ite h.countFail.updStream.raise.bump.setBack h.countFail.updStream.setBack

/-! ### The functions of Machine/MbxOps -/

theorem Spares.updMbx {m : Nat} {f : Mbx → Mbx} : Spares P s (updMbx m f t) := h.mapMgt
theorem Spares.refuse {st : Nat} : Spares P s (refuse st t).state := h
theorem Spares.refuseD {st detail : Nat} : Spares P s (refuseD st detail t).state := h
theorem Spares.done : Spares P s (done t).state := h
theorem Spares.doneWith {data : List Byte} : Spares P s (doneWith data t).state := h
theorem Spares.later : Spares P s (later t).state := h
theorem Spares.mbxAnswer {m status detail : Nat} {data : List Byte}
    (hfree : Free P [.queues] := by exact hfree.sub) : Spares P s (mbxAnswer m status detail data t) :=
  h.updMbx.mapMgt.mbxSend.bump

theorem Spares.runCmdWith {keep : Bool} {m code : Nat} {f : Nat → Nat → State → CmdRes}
    (hf : ∀ a b u, Spares P s u → Spares P s (f a b u).state)
    (hfree : Free P [.queues] := by exact hfree.sub) : Spares P s (runCmdWith keep m code f t) := by
  unfold Machine.runCmdWith
  refine .ite h ?_
  extract_lets
  split
  · exact h.updMbx.mapMgt
  split
  · exact h.mbxAnswer
  · exact .ite h.mbxAnswer (.ite ((hf _ _ _ h).updMbx) ((Spares.ite (hf _ _ _ h) h).mbxAnswer))

theorem Spares.runCmd {m code : Nat} {f : Nat → Nat → State → CmdRes}
    (hf : ∀ a b u, Spares P s u → Spares P s (f a b u).state)
    (hfree : Free P [.queues] := by exact hfree.sub) : Spares P s (runCmd m code f t) :=
  h.runCmdWith hf

/-! ### The functions of Machine/Blends -/

theorem Spares.makeCurrent {ctx cls : Nat} {b : Blend}
    (hfree : Free P [.blends, .queues] := by exact hfree.sub) : Spares P s (makeCurrent ctx cls b t) :=
  h.updSlot.raise.bump

theorem Spares.retirePrevious {ctx cls : Nat}
    (hfree : Free P [.blends, .queues] := by exact hfree.sub) : Spares P s (retirePrevious ctx cls t) := by
  unfold Machine.retirePrevious
  split
  · exact h.updSlot
  · exact h.updSlot.raise.bump

theorem Spares.withdrawOffer {ctx cls status detail : Nat}
    (hfree : Free P [.blends, .queues] := by exact hfree.sub) : Spares P s (withdrawOffer ctx cls status detail t) := by
  unfold Machine.withdrawOffer
  split
  · exact h
  extract_lets
  split
  · exact h.updSlot.mbxAnswer
  · exact h.updSlot

theorem Spares.switchOut {ctx cls : Nat} (hfree : Free P [.blends, .queues] := by exact hfree.sub) : Spares P s (switchOut ctx cls t) := by
  unfold Machine.switchOut
  split
  · exact h
  · exact h.updSlot.makeCurrent.updSlot.sendCtl

theorem Spares.sendOffer {ctx cls : Nat} {o : Offer}
    (hfree : Free P [.blends] := by exact hfree.sub) : Spares P s (sendOffer ctx cls o t) :=
  h.updSlot.sendCtl

theorem Spares.blendEdge {k : Nat} (hfree : Free P [.blends, .queues] := by exact hfree.sub) : Spares P s (blendEdge k t) := by
  unfold Machine.blendEdge
  extract_lets x port s1 s2
  have h1 : Spares P s s1 := by
    unfold s1
    split
    · exact h.updSlot.makeCurrent
    · exact h
  have h2 : Spares P s s2 := .ite h1.retirePrevious h1
  split
  · exact h2
  · exact .ite h2.sendOffer (h2.when (·.switchOut))

theorem Spares.blendEdges (hfree : Free P [.blends, .queues] := by exact hfree.sub) : Spares P s (blendEdges t) :=
  h.foldl fun _ _ hu => hu.blendEdge

theorem Spares.blendCommit {ctx cls : Nat}
    (hfree : Free P [.blends, .queues] := by exact hfree.sub) : Spares P s (blendCommit ctx cls t) := by
  unfold Machine.blendCommit
  refine .ite ?_ (.ite h.switchOut h)
  split
  · exact h.updSlot.makeCurrent
  · exact h

theorem Spares.pendingToCurrent {ctx cls : Nat}
    (hfree : Free P [.blends, .queues] := by exact hfree.sub) : Spares P s (pendingToCurrent ctx cls t) := by
  unfold Machine.pendingToCurrent
  split
  · exact h.updSlot.makeCurrent
  · exact h

theorem Spares.tryRetireAck {port cls : Nat}
    (hfree : Free P [.blends, .queues] := by exact hfree.sub) : Spares P s (tryRetireAck port cls t) := by
  unfold Machine.tryRetireAck
  extract_lets
  split
  · exact .ite h.retirePrevious.sendCtl h
  · exact h

theorem Spares.tryRetireAcks {port : Nat} (hfree : Free P [.blends, .queues] := by exact hfree.sub) : Spares P s (tryRetireAcks port t) :=
  h.foldl fun _ _ hu => hu.tryRetireAck
theorem Spares.startResync {port cls : Nat}
    (hfree : Free P [.blends, .queues] := by exact hfree.sub) : Spares P s (startResync port cls t) :=
  h.updSlot.raise.bump.sendCtl

theorem Spares.lineBlockFailed {port : Nat} {cls : Option Nat} {k : FailKind}
    (hfree : Free P [.blends, .queues] := by exact hfree.sub) : Spares P s (lineBlockFailed port cls k t) := by
  unfold Machine.lineBlockFailed
  extract_lets
  split
  · exact h.countFail
  · exact .ite h.countFail.startResync h.countFail.updSlot

theorem Spares.resyncAsked {port cls : Nat}
    (hfree : Free P [.blends, .queues] := by exact hfree.sub) : Spares P s (resyncAsked port cls t) :=
  h.withdrawOffer.updSlot
theorem Spares.pruneOlder {port : Nat} (hfree : Free P [.blends] := by exact hfree.sub) : Spares P s (pruneOlder port t) :=
  h.foldl fun _ _ hu => .ite hu hu.updSlot
theorem Spares.lapseOffers {port : Nat} (hfree : Free P [.blends, .queues] := by exact hfree.sub) : Spares P s (lapseOffers port t) :=
  h.foldl fun _ _ hu => hu.withdrawOffer
theorem Spares.resyncAll {port : Nat} (hfree : Free P [.blends, .queues] := by exact hfree.sub) : Spares P s (resyncAll port t) :=
  h.foldl fun _ _ hu => .ite hu.startResync hu

/-! ### The functions of Machine/LineOps -/

theorem Spares.updLane {n : Nat} {f : Lane → Lane} : Spares P s (updLane n f t) := h.mapLine
theorem Spares.updLPort {p : Nat} {f : LPort → LPort} : Spares P s (updLPort p f t) := h.mapLine
theorem Spares.updTrib {n : Nat} {f : Trib → Trib} : Spares P s (updTrib n f t) := h.mapLine
theorem Spares.updPhys {n : Nat} {f : PhysLane → PhysLane} : Spares P s (updPhys n f t) := h.mapOpt
theorem Spares.updKeys {p : Nat} {f : PortKeys → PortKeys} : Spares P s (updKeys p f t) := h.mapSec

theorem Spares.sealBlock {port engine : Nat} {hd : BlockHead} {content : List Byte} :
    Spares P s (sealBlock port engine hd content t).2 :=
  h.updKeys

theorem Spares.ringEval (hfree : Free P [.areas] := by exact hfree.sub) : Spares P s (ringEval t) := by
  unfold Machine.ringEval
  exact (h.mapCellar (areas := hfree.off))

theorem Spares.sendTribAck {trib : Nat} : Spares P s (sendTribAck trib t) := by
  unfold Machine.sendTribAck
  split
  · exact h
  · exact h.sendCtl.updTrib

theorem Spares.nackMessages {trib port reason : Nat} {seqs : List Nat} : Spares P s (nackMessages trib port reason seqs t) :=
  h.foldl fun _ _ hu => hu.sendCtl.bump

theorem Spares.sendLineNacks {trib reason : Nat} {seqs : List Nat} : Spares P s (sendLineNacks trib reason seqs t) := by
  unfold Machine.sendLineNacks
  split
  · exact h
  · exact h.nackMessages.updTrib

theorem Spares.sendLineNack {trib seq reason : Nat} : Spares P s (sendLineNack trib seq reason t) := h.sendLineNacks
theorem Spares.raisePort {code port : Nat} {args : List Nat}
    (hstop : evClass code = 12 → ¬ P .pressing := by exact fun hc => absurd hc (by decide))
    (hfree : Free P [.queues] := by exact hfree.sub) :
    Spares P s (raisePort code port args t) := .ite h (h.mapHost.raise hstop)
theorem Spares.blankLane {n : Nat} : Spares P s (blankLane n t) := h.updLane.bump

theorem Spares.loseLane {k : Nat} (hfree : Free P [.queues] := by exact hfree.sub) : Spares P s (loseLane k t) := by
  unfold Machine.loseLane
  extract_lets l already twice double
  have hdouble : ∀ u, Spares P s u → Spares P s (double u) := fun u hu =>
    Spares.ite (hu.foldl fun _ _ hv => hv.updLPort).raise hu
  exact .ite h (.ite (hdouble _ h.blankLane) (hdouble _ h.mapLine.raise.bump))

/-! ### The functions of Machine/CollCount -/

theorem Spares.countLate : Spares P s (countLate t) := h.bump
theorem Spares.streamCounted {id : Nat} : Spares P s (streamCounted id t) := h.updStream

theorem Spares.countLaunch {p : Pkt}
    (hfree : Free P [.instances, .aborts, .reserved, .queues] := by exact hfree.sub) : Spares P s (countLaunch p t) := by
  unfold Machine.countLaunch
  split
  · exact (h.raise (code := 0x4502)).takeFree.enqueue
  split
  · exact h
  refine .ite h.raise ?_
  refine .ite h.countLate ?_
  extract_lets
  split
  · exact h.openInst
  refine .ite h.openInst ?_
  split
  · exact h.openInst.askAbort
  · exact h.openInst.askAbort
  split
  · exact h.openInst.unless (·.askAbort)
  split
  · exact h.openInst.askAbort
  · exact .ite h.openInst.askAbort h.openInst.updInst

theorem Spares.countData {p : Pkt} {dec : Decoded} {casks : List Nat}
    (hfree : Free P [.instances, .aborts, .reserved, .queues, .casks] := by exact hfree.sub) : Spares P s (countData p dec casks t) := by
  unfold Machine.countData
  split
  · exact h.raise.freeCasks
  split
  · exact h.freeCasks
  refine .ite h.raise.freeCasks (.ite h.countLate.freeCasks ?_)
  extract_lets s1 s2
  have h1 : Spares P s s1 := h.openInst
  have h2 : Spares P s s2 := h1.updStream
  split
  · exact h1.freeCasks
  refine .ite h1.freeCasks (.ite h1.askAbort.freeCasks (.ite h1.askAbort.freeCasks ?_))
  split
  · exact h1.freeCasks
  refine .ite h1.askAbort.freeCasks ?_
  split
  · exact h1.dataFailed.freeCasks
  · exact h1.countFail.setBack.freeCasks
  · exact h1.freeCasks
  extract_lets ch old
  refine .ite h2.updInst.freeCasks (.ite h2.updStream.bump.freeCasks ?_)
  exact .ite h2.askAbort.freeCasks (.ite h2.freeCasks h2.updInst)

theorem Spares.countMemberAbort {p : Pkt}
    (hfree : Free P [.instances, .aborts, .reserved] := by exact hfree.sub) : Spares P s (countMemberAbort p t) := by
  unfold Machine.countMemberAbort
  split
  · exact h
  split
  · exact h
  · exact .ite h (.ite h.countLate h.openInst.askAbort)

theorem Spares.countLaunchNotice {port g epoch i hash : Nat} {fence : Bool} {sites : Nat}
    (hfree : Free P [.instances, .aborts, .reserved, .queues] := by exact hfree.sub) :
    Spares P s (countLaunchNotice port g epoch i hash fence sites t) := by
  unfold Machine.countLaunchNotice
  split
  · exact h.countLate.raise
  split
  · exact h
  refine .ite h.toFars.countLate ?_
  extract_lets
  split
  · exact h.toFars.openInst
  · exact .ite h.toFars.openInst.askAbort h.toFars.openInst.updInst

theorem Spares.countAbortNotice {port g i code site : Nat}
    (hfree : Free P [.instances, .aborts, .reserved, .queues] := by exact hfree.sub) :
    Spares P s (countAbortNotice port g i code site t) := by
  unfold Machine.countAbortNotice
  split
  · exact h.countLate.raise
  split
  · exact h
  · exact .ite h.toFars.countLate h.toFars.openInst.updInst.askAbort

theorem Spares.countFenceClear {port g i : Nat}
    (hfree : Free P [.instances, .aborts, .reserved, .queues] := by exact hfree.sub) : Spares P s (countFenceClear port g i t) := by
  unfold Machine.countFenceClear
  split
  · exact h.countLate.raise
  · exact .ite (h.mapColl (instances := hfree.off)) (.ite h.countLate h.openInst.updInst)

theorem Spares.countFarPartial {port g epoch i chunk hash : Nat} {part : FarPart}
    (hfree : Free P [.instances, .aborts, .reserved, .queues, .casks] := by exact hfree.sub) :
    Spares P s (countFarPartial port g epoch i chunk hash part t) := by
  unfold Machine.countFarPartial
  extract_lets drop again s1
  have h1 : Spares P s s1 := h.openInst
  split
  · exact h.countLate.raise.freeCasks
  refine .ite (.ite h.mapHost h.countLate.freeCasks) ?_
  split
  · exact h.openInst.askAbort.freeCasks
  · exact h.mapHost
  split
  · exact h1.freeCasks
  refine .ite h1.freeCasks (.ite h1.askAbort.freeCasks ?_)
  exact .ite h1.countLate.freeCasks (.ite h1.freeCasks h1.updInst.freeCasks)

theorem Spares.countArrival {a : Arrival}
    (hfree : Free P [.instances, .aborts, .reserved, .queues, .casks] := by exact hfree.sub) : Spares P s (countArrival t a) := by
  unfold Machine.countArrival
  refine .ite h.mapHost ?_
  split
  · extract_lets s1 s2
    have h1 : Spares P s s1 := h.streamCounted
    have h2 : Spares P s s2 := .ite h1.countLaunch.freeCasks (.ite h1.countData h1.countMemberAbort.freeCasks)
    exact h2.when (·.sendAck)
  · exact h.countFarPartial
  · exact h.countLaunchNotice
  · exact h.countAbortNotice
  · exact h.countFenceClear
  · exact h.raise.askAbort

theorem Spares.countArrivals
    (hfree : Free P [.instances, .aborts, .reserved, .queues, .casks] := by exact hfree.sub) : Spares P s (countArrivals t) := by
  unfold Machine.countArrivals
  exact (Spares.ite (h.mapHost.foldl fun _ _ hu => hu.countLate) (h.mapHost.foldl fun _ _ hu => hu.countArrival)).mapColl
    (reserved := hfree.off)

/-! ### The functions of Machine/PartialOps -/

theorem Spares.fallowLimit {g : Nat} (hfree : Free P [.queues] := by exact hfree.sub) : Spares P s (fallowLimit g t) :=
  h.updGroupSites.unless (·.raise)

theorem Spares.siloWrite {g i c : Nat} {e : FarPart}
    (hfree : Free P [.queues] := by exact hfree.sub) : Spares P s (siloWrite g i c e t) := by
  unfold Machine.siloWrite
  split
  · exact h
  · exact .ite h.updSilo.fallowLimit h.updSilo

theorem Spares.siloAfter {x : Instance} {d : Desc} {gt : GroupTable} {k : Nat} {ch : Chunk}
    (hfree : Free P [.queues] := by exact hfree.sub) : Spares P s (siloAfter x d gt k ch t) :=
  .ite h.siloWrite h

theorem Spares.recordDigest {x : Instance} {d : Desc} {gt : GroupTable} {ch : Chunk} : Spares P s (recordDigest x d gt ch t) := by
  unfold Machine.recordDigest
  extract_lets
  split
  · exact h.mapSites
  · exact h.mapSites
  · exact h

/-! ### The functions of Machine/PressWork -/

theorem Spares.updDie {i : Nat} {f : Die → Die}
    (hfree : Free P [.dies] := by exact hfree.sub) : Spares P s (updDie i f t) := (h.mapPress (dies :=
  hfree.off))

theorem Spares.buildList (hfree : Free P [.instances, .units] := by exact hfree.sub) : Spares P s (buildList t) := by
  unfold Machine.buildList
  exact (h.mapColl (instances := hfree.off)).mapPress (units := hfree.off)

theorem Spares.finishRow {x : Instance} {d : Desc} {gt : GroupTable} {k j : Nat}
    (hfree : Free P [.instances, .aborts, .queues, .dram, .poison] := by exact hfree.sub) : Spares P s (finishRow t x d gt k j) := by
  unfold Machine.finishRow
  split
  · exact h
  next ch _ =>
  split
  · exact h
  · refine (Spares.foldl_fst (p := (t, ch, Stats.zero)) h fun p g hp => ?_).putInst.siloAfter
    split
    · exact hp
    split
    · split
      · exact hp.askAbort
      · exact hp.foldl fun _ _ hu => hu.regionWrite
    · exact hp

theorem Spares.finishChunk {x : Instance} {d : Desc} {gt : GroupTable} {k : Nat}
    (hfree : Free P [.instances, .aborts, .queues] := by exact hfree.sub) : Spares P s (finishChunk t x d gt k) := by
  unfold Machine.finishChunk
  split
  · exact h
  · exact .ite h.askAbort h.putInst.siloAfter

theorem Spares.rowCask {x : Instance} {gt : GroupTable} {ch : Chunk} {w : RowSt}
    (hfree : Free P [.queues, .casks] := by exact hfree.sub) : Spares P s (rowCask x gt ch w t).2.2 := by
  unfold Machine.rowCask
  split
  · exact h.drawCask
  split
  · exact h.drawCask
  · exact h

theorem Spares.commitUnit {w : WorkUnit}
    (hfree : Free P [.instances, .aborts, .units, .queues, .casks, .dram, .poison] := by exact hfree.sub) :
    Spares P s (commitUnit t w) := by
  unfold Machine.commitUnit
  split
  · exact h
  split
  · split
    · exact h
    refine .ite h.askAbort (.ite h.rowCask.putInst (.ite (h.rowCask.putInst.unless (·.raise)) ?_))
    extract_lets s1 others rows rs done x1 s2 s3
    have h2 : Spares P s s2 := (h.rowCask.foldl fun _ _ hu => hu.regionWrite).putInst.mapPress (units := hfree.off)
    have h3 : Spares P s s3 := by
      unfold s3
      split
      · exact h2.when (·.recordDigest)
      · exact h2
    exact .ite h3 (.ite h3.finishRow h3.finishChunk)
  · exact (h.mapPress (units := hfree.off))

theorem Spares.noteWorked {w : WorkUnit}
    (hfree : Free P [.cores] := by exact hfree.sub) : Spares P s (noteWorked w t) := (h.mapPress (cores :=
  hfree.off))
theorem Spares.pressUnit {w : WorkUnit}
    (hfree : Free P [.instances, .aborts, .units, .cores, .queues, .casks, .dram, .poison] := by exact hfree.sub) :
    Spares P s (pressUnit t w) :=
  h.commitUnit.unless (·.noteWorked)
theorem Spares.runPressing {held : WorkUnit → Bool}
    (hfree : Free P [.instances, .aborts, .units, .cores, .queues, .casks, .dram, .poison] := by exact hfree.sub) :
    Spares P s (runPressing held t) :=
  h.foldl fun _ _ hu => hu.pressUnit
theorem Spares.requeueWhere {hit : WorkUnit → Bool}
    (hfree : Free P [.units, .queues] := by exact hfree.sub) : Spares P s (requeueWhere hit t) := (h.mapPress (units :=
  hfree.off)).bumpBy.foldl fun _ _ hu => hu.raise
theorem Spares.requeueUnits (hfree : Free P [.units, .queues] := by exact hfree.sub) : Spares P s (requeueUnits t) := h.requeueWhere

/-! ### The functions of Machine/Encode -/

theorem Spares.drawPkts {l ps : List HostPkt} (he : drawPkts l t = .ok (ps, u))
    (hfree : Free P [.queues, .casks] := by exact hfree.sub) : Spares P s u := by
  induction l generalizing t ps u with
  | nil =>
    cases he
    exact h
  | cons p l ih =>
    unfold Machine.drawPkts at he
    split at he
    · cases he
    · next s1 hd =>
      have h1 : Spares P s s1 := .of_snd h.drawCask hd
      split at he
      · cases he
      · next hl =>
        cases he
        exact ih h1 hl

theorem Spares.countCoded {f : Form} {p : PktBody} (hfree : Free P [.blends] := by exact hfree.sub) : Spares P s (countCoded f p t) :=
  h.bumpBy.bumpBy.countSymbols

theorem Spares.issueResult {x : Instance} {d : Desc} {gt : GroupTable} {k : Nat} {ch : Chunk} {p : Prod}
    (hfree : Free P [.instances, .blends, .queues, .casks] := by exact hfree.sub) :
    Spares P s (issueResult x d gt k ch p t).2 := by
  unfold Machine.issueResult
  extract_lets
  split
  · exact h.bump
  · next s1 he =>
    have h1 : Spares P s s1 := h.drawPkts he
    exact (Spares.ite h1.updInst (h1.updInst.foldl fun _ _ hu => hu.countCoded)).foldl fun _ _ hu => hu.sendHost

theorem Spares.issuePartial {x : Instance} {d : Desc} {gt : GroupTable} {k : Nat} {ch : Chunk} {f : Nat × Member}
    (hfree : Free P [.queues] := by exact hfree.sub) :
    Spares P s (issuePartial x d gt k ch f t) :=
  h.sendLine
theorem Spares.sendDone {p : HostPkt} : Spares P s (sendDone p t) := h.mapHost
theorem Spares.releaseDone (hfree : Free P [.queues] := by exact hfree.sub) : Spares P s (releaseDone t) :=
  h.mapHost.foldl fun _ _ hu => hu.enqueue
theorem Spares.completeMembers {x : Instance} {d : Desc} {gt : GroupTable}
    (hfree : Free P [.instances] := by exact hfree.sub) : Spares P s (completeMembers x d gt t) :=
  h.foldl fun _ _ hu => .ite hu hu.updInst.sendDone

theorem Spares.issueInst {k : Nat}
    (hfree : Free P [.instances, .blends, .queues, .casks] := by exact hfree.sub) : Spares P s (issueInst t k) := by
  unfold Machine.issueInst
  split
  · exact h
  split
  · refine .ite h ?_
    extract_lets s1
    have h1 : Spares P s s1 := by
      unfold s1
      refine h.foldl fun _ _ hu => (hu.foldl fun u x hu' => ?_)
      extract_lets
      split
      · exact hu'.issueResult.when (·.updInst)
      split
      · exact hu'.updInst.issuePartial
      · exact hu'.updInst
    split
    · exact .ite h1 h1.completeMembers
    · exact h1
  · exact h

theorem Spares.encodeStage (hfree : Free P [.instances, .blends, .queues, .casks] := by exact hfree.sub) : Spares P s (encodeStage t) :=
  (h.foldl fun _ _ hu => hu.issueInst).releaseDone

/-! ### The functions of Machine/CollEdge -/

theorem Spares.dropQueued {g i : Nat} (hfree : Free P [.queues, .casks] := by exact hfree.sub) : Spares P s (dropQueued g i t) :=
  h.mapQos.freeCasks

theorem Spares.enterAborting {g i code dk d : Nat} {notify : Bool}
    (hfree : Free P [.instances, .units, .queues, .casks] := by exact hfree.sub) : Spares P s (enterAborting g i code dk d notify t) := by
  unfold Machine.enterAborting
  split
  · exact h
  refine .ite h ?_
  extract_lets
  split
  · exact (h.dropQueued.freeCasks.mapPress (units := hfree.off)).updInst.when (·.toFars)
  · exact (h.dropQueued.freeCasks.mapPress (units := hfree.off)).updInst

theorem Spares.applyAborts (hfree : Free P [.instances, .aborts, .units, .queues, .casks] := by exact hfree.sub) :
    Spares P s (applyAborts t) := (h.mapColl (aborts :=
  hfree.off)).foldl fun _ _ hu => hu.enterAborting
theorem Spares.keepEnded {e : EndedRec}
    (hfree : Free P [.instances] := by exact hfree.sub) : Spares P s (keepEnded e t) := (h.mapColl (instances :=
  hfree.off))

theorem Spares.removeInst {g i : Nat}
    (hfree : Free P [.instances, .queues, .casks] := by exact hfree.sub) : Spares P s (removeInst g i t) := by
  unfold Machine.removeInst
  split
  · exact h
  · exact (h.freeCasks.mapColl (instances := hfree.off))

theorem Spares.closeSilo {x : Instance} {code : Nat} : Spares P s (closeSilo x code t) := .ite h.mapSites h.updSilo
theorem Spares.finaliseOne {x : Instance} {gt : GroupTable} {code origin : Nat}
    (hfree : Free P [.instances, .queues, .casks] := by exact hfree.sub) : Spares P s (finaliseOne x gt code origin t) :=
  (h.foldl fun _ _ hu => hu.sendDone).keepEnded.closeSilo.removeInst.raise

theorem Spares.finaliseAborts (hfree : Free P [.instances, .queues, .casks] := by exact hfree.sub) : Spares P s (finaliseAborts t) := by
  unfold Machine.finaliseAborts
  refine h.foldl fun u x hu => ?_
  split
  · exact hu
  refine .ite hu ?_
  split
  · exact hu.removeInst
  · exact .ite hu hu.finaliseOne

theorem Spares.fatalAbort {x : Instance}
    (hfree : Free P [.instances, .units, .queues, .casks] := by exact hfree.sub) : Spares P s (fatalAbort x t) := by
  unfold Machine.fatalAbort
  split
  · exact h.removeInst
  · exact h.enterAborting.finaliseOne

theorem Spares.commitLaunch {x : Instance}
    (hfree : Free P [.groups, .instances, .units, .queues, .casks] := by exact hfree.sub) : Spares P s (commitLaunch t x) := by
  unfold Machine.commitLaunch
  split
  · refine .ite h.enterAborting ?_
    split
    · exact h.enterAborting
    · exact (h.mapColl (groups := hfree.off) (instances := hfree.off)).putInst.freeCasks.toFars
  · exact h

theorem Spares.commitLaunches
    (hfree : Free P [.groups, .instances, .units, .queues, .casks] := by exact hfree.sub) : Spares P s (commitLaunches t) :=
  h.foldl fun _ _ hu => .ite hu hu.commitLaunch

theorem Spares.evalFences (hfree : Free P [.instances] := by exact hfree.sub) : Spares P s (evalFences t) := by
  unfold Machine.evalFences
  refine h.foldl fun u f hu => .ite hu ?_
  have h1 : Spares P s (if f.sent then u else f.fars.foldl (fun b p => Machine.sendCtl p ctlFence [f.group, f.inst] [] b) u) :=
    hu.unless (·.foldl fun _ _ hv => hv.sendCtl)
  exact .ite (h1.mapColl (instances := hfree.off)) (h1.mapColl (instances := hfree.off))

theorem Spares.testTimeouts (hfree : Free P [.instances, .units, .queues, .casks] := by exact hfree.sub) : Spares P s (testTimeouts t) :=
  h.foldl fun _ _ hu => .ite hu.enterAborting hu

theorem Spares.endInstances (hfree : Free P [.instances, .queues, .casks] := by exact hfree.sub) : Spares P s (endInstances t) := by
  unfold Machine.endInstances
  refine h.foldl fun u x hu => ?_
  split
  · exact hu
  split
  · exact .ite hu.keepEnded.closeSilo.removeInst hu
  · exact hu

theorem Spares.discardDraining (hfree : Free P [.programs, .groups] := by exact hfree.sub) :
    Spares P s (discardDraining t) := (h.mapColl (programs := hfree.off) (groups :=
  hfree.off))

/-! ### The functions of Machine/SitesOps -/

theorem Spares.latchSilence {g : Nat} {gt : GroupTable} : Spares P s (latchSilence g gt t) :=
  h.foldl fun _ _ hu => .ite (.ite hu.updPartner hu) (.ite hu.updPartner hu)
theorem Spares.noteAbsence {g : Nat} {gt : GroupTable} {now : Nat}
    (hfree : Free P [.queues] := by exact hfree.sub) : Spares P s (noteAbsence g gt now t) :=
  ((h.foldl fun _ _ hu => hu.raise.bump).foldl fun _ _ hu => hu.raise).updGroupSites

theorem Spares.sendSiteState {port : Nat} {gs : List (Nat × Nat)} : Spares P s (sendSiteState port gs t) := by
  unfold Machine.sendSiteState
  split
  · exact h
  · exact h.sendCtl.updPartner

theorem Spares.sendSiteStates {before : State} : Spares P s (sendSiteStates before t) := h.foldl fun _ _ hu => hu.sendSiteState.updPartner

theorem Spares.fallowInst {hold : Bool} {absent : Nat} {x : Instance}
    (hfree : Free P [.instances] := by exact hfree.sub) : Spares P s (fallowInst hold absent x t) := by
  unfold Machine.fallowInst
  split
  · exact .ite h (.ite h (.ite h (.ite h.updInst (.ite h (h.updInst.unless (·.mapSites))))))
  · exact h

theorem Spares.fallowEntry {g : Nat} (hfree : Free P [.instances] := by exact hfree.sub) : Spares P s (fallowEntry g t) :=
  .ite h (h.foldl fun _ _ hu => hu.fallowInst)
theorem Spares.testFallowLimit {g : Nat} {gt : GroupTable}
    (hfree : Free P [.queues] := by exact hfree.sub) : Spares P s (testFallowLimit g gt t) :=
  .ite h.fallowLimit h
theorem Spares.resumeFault {g i : Nat} {r : Option SiloRec}
    (hfree : Free P [.instances, .units, .queues, .casks] := by exact hfree.sub) : Spares P s (resumeFault g i r t) :=
  .ite h.enterAborting (.ite h.enterAborting h)

theorem Spares.resumeInst {x : Instance}
    (hfree : Free P [.instances, .units, .queues, .casks] := by exact hfree.sub) : Spares P s (resumeInst x t) := by
  unfold Machine.resumeInst
  split
  · exact .ite h.updInst h.updInst.resumeFault
  · exact h

theorem Spares.closeRecord {r : SiloRec} {gt : GroupTable} {ranks : List Nat} {status flags : Nat} {counted : Bool}
    (hfree : Free P [.queues] := by exact hfree.sub) :
    Spares P s (closeRecord r gt ranks status flags counted t) := by
  unfold Machine.closeRecord
  exact (h.foldl fun _ _ hu => hu.enqueue).mapSites

theorem Spares.resumeRecord {r : SiloRec} (hfree : Free P [.queues] := by exact hfree.sub) : Spares P s (resumeRecord r t) := by
  unfold Machine.resumeRecord
  split
  · exact h
  · exact .ite h.closeRecord h.updSilo

theorem Spares.takeSlot {r : SiloRec}
    (hfree : Free P [.instances, .units, .queues, .casks] := by exact hfree.sub) : Spares P s (takeSlot r t) := by
  unfold Machine.takeSlot
  split
  · exact h
  extract_lets d res p _ x0 x s1 s2 s3
  have h3 : Spares P s s3 := (h.putInst.updSilo.mapColl (instances := hfree.off)).resumeFault
  clear_value s3 res
  split
  · exact h3
  · exact h3.enterAborting

theorem Spares.takeSlots (hfree : Free P [.instances, .units, .queues, .casks] := by exact hfree.sub) : Spares P s (takeSlots t) :=
  h.foldl fun _ _ hu => .ite hu.takeSlot hu

theorem Spares.primaryInst {onPrimary : Bool} {x : Instance}
    (hfree : Free P [.instances, .units, .queues, .casks] := by exact hfree.sub) : Spares P s (primaryInst onPrimary x t) := by
  unfold Machine.primaryInst
  refine .ite h.updInst ?_
  extract_lets
  split
  · exact h.enterAborting.finaliseOne
  · exact h.enterAborting

theorem Spares.primaryRecord {onPrimary : Bool} {r : SiloRec}
    (hfree : Free P [.queues] := by exact hfree.sub) : Spares P s (primaryRecord onPrimary r t) := by
  unfold Machine.primaryRecord
  split
  · exact h
  · exact h.closeRecord

theorem Spares.presenceAgain {g : Nat} {gt : GroupTable}
    (hfree : Free P [.instances, .units, .queues, .casks] := by exact hfree.sub) : Spares P s (presenceAgain g gt t) := by
  unfold Machine.presenceAgain
  extract_lets live recs side
  refine .ite ?_ (.ite ?_ h)
  · exact (h.foldl fun _ _ hu => hu.resumeInst).foldl fun _ _ hu => hu.resumeRecord
  · exact (h.foldl fun _ _ hu => hu.primaryInst).foldl fun _ _ hu => hu.primaryRecord

theorem Spares.fenceAborts (hfree : Free P [.aborts] := by exact hfree.sub) : Spares P s (fenceAborts t) :=
  h.foldl fun _ _ hu => .ite hu.askAbort hu
theorem Spares.liftFence {p : Nat} (hfree : Free P [.queues] := by exact hfree.sub) : Spares P s (liftFence p t) :=
  .ite h h.updPartner.raise
theorem Spares.liftFences (hfree : Free P [.queues] := by exact hfree.sub) : Spares P s (liftFences t) := h.foldl fun _ _ hu => hu.liftFence
theorem Spares.decideGroup {g : Nat} {gt : GroupTable}
    (hfree : Free P [.instances, .units, .queues, .casks] := by exact hfree.sub) : Spares P s (decideGroup g gt t) :=
  ((h.latchSilence.unless (·.noteAbsence)).when (·.presenceAgain)).fallowEntry.testFallowLimit

theorem Spares.decideAbsence
    (hfree : Free P [.instances, .units, .queues, .casks] := by exact hfree.sub) : Spares P s (decideAbsence t) := by
  unfold Machine.decideAbsence
  refine (h.foldl fun u x hu => ?_).sendSiteStates.takeSlots
  split
  · exact hu.decideGroup
  · exact hu

/-! ### The functions of Machine/Commits -/

theorem Spares.commitGroup {g : Nat} (hfree : Free P [.groups] := by exact hfree.sub) : Spares P s (commitGroup g t) := h.updGroup
theorem Spares.commitProgram {id : Nat}
    (hfree : Free P [.programs] := by exact hfree.sub) : Spares P s (commitProgram id t) := (h.mapColl (programs :=
  hfree.off))

theorem Spares.swapCommit {why : Nat} (hfree : Free P [.queues] := by exact hfree.sub) : Spares P s (swapCommit why t) := by
  unfold Machine.swapCommit
  split
  · exact h
  · exact .ite h.mapOpt (.ite h.mapLine.mapOpt.raise.bump (.ite h.updPhys.mapOpt h))

theorem Spares.commitPages {port : Nat} (hfree : Free P [.queues] := by exact hfree.sub) : Spares P s (commitPages port t) := by
  unfold Machine.commitPages
  refine .ite h ?_
  extract_lets changed why s1 s2 s3 ps s4 s5
  have h2 : Spares P s s2 := h.mapLine.foldl fun _ _ hu => hu.updLane
  have h4 : Spares P s s4 := h2.mapOpt.foldl fun _ _ hu => hu.updLPort
  have h5 : Spares P s s5 := h4.foldl fun _ _ hu => hu.raise.bump
  exact h5.raise.bump.swapCommit

theorem Spares.schedSwitch {n : Nat} (hfree : Free P [.queues] := by exact hfree.sub) : Spares P s (schedSwitch n t) := h.mapQos

theorem Spares.commitItem {i : StagedItem}
    (hfree : Free P [.programs, .groups, .blends, .queues] := by exact hfree.sub) : Spares P s (commitItem t i) := by
  unfold Machine.commitItem
  split
  · exact h.commitGroup
  · exact h.commitProgram
  · exact h.commitPages
  · exact h.blendCommit
  · exact h.schedSwitch

theorem Spares.applyCommits (hfree : Free P [.programs, .groups, .commits, .blends, .queues] := by exact hfree.sub) :
    Spares P s (applyCommits t) := ((h.mapColl (commits :=
  hfree.off)).foldl fun _ _ hu => hu.commitItem).foldl fun _ _ hu => hu.raise
theorem Spares.applyQosNext (hfree : Free P [.queues] := by exact hfree.sub) : Spares P s (applyQosNext t) :=
  (h.foldl fun _ _ hu => .ite hu.schedSwitch hu).regSet

/-! ### The functions of Machine/TimeOps -/

theorem Spares.updRef {r : Nat} {f : RefIn → RefIn} : Spares P s (updRef r f t) := h.mapTime
theorem Spares.changeSource {src : Nat} {auto : Bool}
    (hfree : Free P [.queues] := by exact hfree.sub) : Spares P s (changeSource src auto t) :=
  .ite h.mapTime (h.mapTime.bump.when (·.raise))

theorem Spares.applySource (hfree : Free P [.queues] := by exact hfree.sub) : Spares P s (applySource t) := by
  unfold Machine.applySource
  split
  · exact .ite h.changeSource h.mapTime
  · exact h

theorem Spares.selectSource {src : Nat} : Spares P s (selectSource src t) := .ite h.mapTime h.bump

theorem Spares.autoRevert : Spares P s (autoRevert t) := by
  unfold Machine.autoRevert
  refine .ite ?_ h
  split
  · exact h.mapTime
  · exact h

theorem Spares.refFail {r : Nat} (hfree : Free P [.pressing, .queues] := by exact hfree.sub) : Spares P s (refFail r t) :=
  .ite h.updRef (.ite h.updRef.bump (.ite h.updRef.bump.raiseFatal h.updRef.bump.changeSource.raiseFatal.autoRevert))
theorem Spares.setServo {st : Nat} : Spares P s (setServo st t) := h.mapTime
theorem Spares.requalify : Spares P s (requalify t) := h.mapTime.setServo
theorem Spares.notePath {port : Nat} : Spares P s (notePath port t) := .ite h (h.updLPort.when (·.requalify))
theorem Spares.notePaths : Spares P s (notePaths t) := h.foldl fun _ _ hu => hu.notePath
theorem Spares.holdSample {theta : Int} : Spares P s (holdSample theta t) := h.mapTime.bump
theorem Spares.qualify (hfree : Free P [.queues] := by exact hfree.sub) : Spares P s (qualify t) :=
  .ite h (.ite h.mapTime.setServo.raise h.setServo.raise)

theorem Spares.steer {theta : Int} : Spares P s (steer theta t) := by
  unfold Machine.steer
  exact h.mapTime

theorem Spares.servoSample {theta : Int} (hfree : Free P [.queues] := by exact hfree.sub) : Spares P s (servoSample theta t) := by
  unfold Machine.servoSample
  extract_lets
  split
  · exact h.mapTime.holdSample.qualify
  · exact .ite (h.mapTime.mapTime.bump.when (·.setServo.raise)) h.mapTime.holdSample.steer
  · exact h.mapTime.requalify.holdSample.qualify
  · exact h.mapTime.holdSample
  · exact h.mapTime

theorem Spares.skipPulses {k n : Nat} (hfree : Free P [.queues] := by exact hfree.sub) : Spares P s (skipPulses k n t) :=
  .ite h h.bumpBy.raise
theorem Spares.replanPulses (hfree : Free P [.queues] := by exact hfree.sub) : Spares P s (replanPulses t) :=
  h.foldl fun _ _ hu => hu.mapTime.skipPulses

theorem Spares.applyStep (hfree : Free P [.queues, .counter] := by exact hfree.sub) : Spares P s (applyStep t) := by
  unfold Machine.applyStep
  extract_lets
  split
  · exact h
  · exact (h.mapTime (counter := hfree.off)).mapLine.requalify.replanPulses.bump.raise

/-! ### The functions of Machine/HostRows -/

theorem Spares.rxFrame {f : State → State} (hf : ∀ u, Spares P s u → Spares P s (f u)) : Spares P s (rxFrame f t) := .ite (hf _ h.bump) h

theorem Spares.reserveSlot {p : Pkt} (he : reserveSlot p t = some u) (hfree : Free P [.reserved] := by exact hfree.sub) : Spares P s u := by
  unfold Machine.reserveSlot at he
  split at he
  · cases he
    exact h
  split at he
  · cases he
  · cases he
    exact h.mapColl (reserved := hfree.off)

theorem Spares.passOn {p : Pkt} {casks : List Nat} (he : passOn p casks t = some u)
    (hfree : Free P [.reserved, .blends, .queues, .casks] := by exact hfree.sub) : Spares P s u := by
  unfold Machine.passOn at he
  split at he
  · next s1 _ hr _ =>
    have h1 : Spares P s s1 := h.reserveSlot hr
    extract_lets d s2 s3 at he
    have h2 : Spares P s s2 := by
      unfold s2
      split
      · exact .ite h1 h1.countSymbols
      · exact h1
    have h3 : Spares P s s3 := h2.when (·.updStream)
    clear_value s3
    cases he
    exact h3.mapHost
  · cases he

theorem Spares.noRoom {id seq : Nat} {atNext : Bool}
    (hfree : Free P [.queues] := by exact hfree.sub) : Spares P s (noRoom id seq atNext t) :=
  h.sendNack.when (·.openNack)

theorem Spares.releaseHeld {fuel id : Nat}
    (hfree : Free P [.reserved, .blends, .queues, .casks] := by exact hfree.sub) : Spares P s (releaseHeld fuel id t) := by
  induction fuel generalizing t with
  | zero => exact h
  | succ fuel ih =>
    unfold Machine.releaseHeld
    split
    · exact h
    split
    · exact h
    extract_lets s1
    have h1 : Spares P s s1 := h.updStream
    split
    · exact h1.freeCasks.noRoom
    · next he => exact ih (h1.passOn he).updStream

theorem Spares.renewGap {id : Nat} : Spares P s (renewGap id t) := h.updStream

theorem Spares.nackGap {id : Nat} (hfree : Free P [.queues] := by exact hfree.sub) : Spares P s (nackGap id t) := by
  unfold Machine.nackGap
  split
  · exact h
  · exact h.sendNack.openNack

theorem Spares.payloadCask {p : Pkt} (hfree : Free P [.queues, .casks] := by exact hfree.sub) : Spares P s (payloadCask p t).2 := by
  unfold Machine.payloadCask
  split
  · exact h
  · exact h.drawCask

theorem Spares.sequenceIn {p : Pkt} {c : StreamCtx}
    (hfree : Free P [.reserved, .blends, .queues, .casks] := by exact hfree.sub) : Spares P s (sequenceIn p c t) := by
  unfold Machine.sequenceIn
  refine .ite (h.updStream.bump.when (·.sendAck)) ?_
  refine .ite h.bump.nackGap ?_
  split
  · next s1 he =>
      have h1 : Spares P s s1 := .of_snd h.payloadCask he
      exact (Spares.ite h1 h1.nackGap).noRoom
  · next s1 he =>
      have h1 : Spares P s s1 := .of_snd h.payloadCask he
      refine .ite ?_ h1.updStream.nackGap
      split
      · exact h1.freeCasks.noRoom
      · next s2 he =>
          have h2 : Spares P s s2 := h1.passOn he
          exact h2.updStream.releaseHeld.renewGap

theorem Spares.letGo {id seq : Nat} (hfree : Free P [.queues, .casks] := by exact hfree.sub) : Spares P s (letGo id seq t) := by
  unfold Machine.letGo
  split
  · exact h
  split
  · exact h
  · exact h.freeCasks.updStream

theorem Spares.memberGaps {id : Nat} {rs : List (Nat × Nat)}
    (hfree : Free P [.queues] := by exact hfree.sub) : Spares P s (memberGaps id rs t) := by
  unfold Machine.memberGaps
  split
  · exact h
  extract_lets qs kept gone s1 s2
  have h1 : Spares P s s1 := by
    refine h.foldl fun _ _ hu => ?_
    split
    · exact hu.enqueue.updStream.bump
    · exact hu
  exact (h1.unless (·.sendNack.bumpBy)).when (·.bump)

theorem Spares.memberCum {id cum : Nat} (hfree : Free P [.queues, .casks] := by exact hfree.sub) : Spares P s (memberCum id cum t) := by
  unfold Machine.memberCum
  split
  · exact h
  · exact .ite h.bump ((h.foldl fun _ _ hu => hu.letGo).updStream)

theorem Spares.memberNack {p : Pkt} (hfree : Free P [.queues, .casks] := by exact hfree.sub) : Spares P s (memberNack p t) :=
  (Spares.ite h.bump.memberGaps h).memberCum

theorem Spares.exchangeIn {src : Source} {udp : List Byte}
    (hfree : Free P [.reserved, .blends, .queues, .casks] := by exact hfree.sub) : Spares P s (exchangeIn src udp t) := by
  unfold Machine.exchangeIn
  refine .ite h.countLate ?_
  refine .ite h.bump ?_
  refine .ite h.bump.raiseLimited ?_
  split
  · exact h.bump.raiseLimited
  · exact .ite h.bump.raiseLimited (.ite h.memberNack h.sequenceIn)

theorem Spares.nackRepeat {id : Nat} (hfree : Free P [.aborts, .queues] := by exact hfree.sub) : Spares P s (nackRepeat id t) := by
  unfold Machine.nackRepeat
  split
  · exact h
  split
  · exact h
  · exact .ite h (.ite h.updStream.sendNack (.ite h.updStream.askAbort h.updStream.raise))

theorem Spares.ackPeriodic {id : Nat} (hfree : Free P [.queues] := by exact hfree.sub) : Spares P s (ackPeriodic id t) := by
  unfold Machine.ackPeriodic
  split
  · exact h
  · exact .ite h.sendAck h

theorem Spares.holdExpire {id seq : Nat} (hfree : Free P [.queues, .casks] := by exact hfree.sub) : Spares P s (holdExpire id seq t) := by
  unfold Machine.holdExpire
  split
  · exact h
  · exact .ite h.letGo h

theorem Spares.updPfc {p : Nat} {f : PfcPrio → PfcPrio} : Spares P s (updPfc p f t) := h.mapHost
theorem Spares.pfcFrame {enabled : Nat} {quanta : List Nat} : Spares P s (pfcFrame enabled quanta t) :=
  h.bump.foldl fun _ _ hu => .ite hu.updPfc hu
theorem Spares.pfcExpire {p : Nat} : Spares P s (pfcExpire p t) := .ite h.updPfc h
theorem Spares.pfcWatchdog {p : Nat} (hfree : Free P [.queues] := by exact hfree.sub) : Spares P s (pfcWatchdog p t) :=
  .ite h.updPfc.raise h
theorem Spares.pfcIgnoreEnd {p : Nat} : Spares P s (pfcIgnoreEnd p t) := .ite h.updPfc h
theorem Spares.pfcRefresh : Spares P s (pfcRefresh t) := .ite h.sendPfc h
theorem Spares.pfcDisable : Spares P s (pfcDisable t) := .ite h.bump (h.fldSet.when (·.sendPfc))
theorem Spares.icmpIn {src : Source} {dst : Nat} {payload : List Byte}
    (hfree : Free P [.queues] := by exact hfree.sub) : Spares P s (icmpIn src dst payload t) :=
  .ite h (.ite h h.mapHost.enqueue)
theorem Spares.otherFrame {cause corrected : Nat} : Spares P s (otherFrame cause corrected t) := h.bump.bumpBy
theorem Spares.linkDown (hfree : Free P [.queues] := by exact hfree.sub) : Spares P s (linkDown t) := .ite h.mapHost.raise h
theorem Spares.linkUpEffect (hfree : Free P [.queues] := by exact hfree.sub) : Spares P s (linkUpEffect t) :=
  h.mapHost.unless (·.raise.happenedNow)

/-! ### The functions of Machine/EgressRows -/

theorem Spares.updSched {n : Nat} {f : Sched → Sched} (hfree : Free P [.queues] := by exact hfree.sub) : Spares P s (updSched n f t) :=
  h.mapQos
theorem Spares.takeHead {n q len : Nat} (hfree : Free P [.queues] := by exact hfree.sub) : Spares P s (takeHead n q len t) :=
  h.updSched.bump
theorem Spares.noteDelivered {p : HostPkt} (hfree : Free P [.instances] := by exact hfree.sub) : Spares P s (noteDelivered p t) :=
  .ite h.updInst h

theorem Spares.sendSequenced {p : HostPkt}
    (hfree : Free P [.instances, .queues, .casks] := by exact hfree.sub) : Spares P s (sendSequenced p t) := by
  unfold Machine.sendSequenced
  split
  · exact h.freeCasks
  · exact h.updStream.emit.noteDelivered

theorem Spares.sendItem {it : EItem} {off : Nat}
    (hfree : Free P [.instances, .queues, .casks] := by exact hfree.sub) : Spares P s (sendItem it off t) := by
  unfold Machine.sendItem
  split
  · exact .ite h.noteDelivered.freeCasks h.sendSequenced
  · exact .ite h h.emit
  · exact .ite h h.emit
  · exact h.emit.mapTime (counter := fun _ => by split <;> exact ⟨rfl, rfl, rfl⟩)
  · exact h.emit
  · exact h

theorem Spares.hostSelect {off : Nat}
    (hfree : Free P [.instances, .queues, .casks] := by exact hfree.sub) : Spares P s (hostSelect off t) := by
  unfold Machine.hostSelect
  refine .ite h ?_
  split
  · exact h.updSched
  split
  · exact h
  · exact h.updSched.takeHead.sendItem.releaseDone

theorem Spares.tokenRefill {n q : Nat} (hfree : Free P [.queues] := by exact hfree.sub) : Spares P s (tokenRefill n q t) :=
  .ite h ((Spares.ite h.bump h).updSched)

/-! ### The functions of Machine/SecOps -/

theorem Spares.addFragment {src : Source} {l : List Byte} : Spares P s (addFragment src l t).2 := by
  unfold Machine.addFragment
  extract_lets
  split
  · exact h
  split
  · exact h
  split
  · dsimp only
    exact h.mapHost
  · dsimp only
    exact h.mapHost

theorem Spares.sendFragments {kind sid ident : Nat} {dst : Source} {body : List Byte} (hfree : Free P [.queues] := by exact hfree.sub) :
    Spares P s (sendFragments kind sid ident dst body t) :=
  h.foldl fun _ _ hu => hu.enqueue

theorem Spares.helloIn {src : Source} {ident : Nat} {b : List Byte}
    (hfree : Free P [.queues] := by exact hfree.sub) : Spares P s (helloIn src ident b t) := by
  unfold Machine.helloIn
  extract_lets fresh n s1
  have h1 : Spares P s s1 := h.mapHost
  clear_value s1
  refine .ite h ?_
  split
  · exact h1.raise
  split
  next he => exact (h1.takeFree.of_snd he).mapHost.sendFragments

theorem Spares.helloFragment {src : Source} {udp : List Byte}
    (hfree : Free P [.queues] := by exact hfree.sub) : Spares P s (helloFragment src udp t) := by
  unfold Machine.helloFragment
  refine .ite h ?_
  split
  · next s1 he =>
      have h1 : Spares P s s1 := .of_snd h.addFragment he
      exact h1.helloIn
  · next s1 he =>
      have h1 : Spares P s s1 := .of_snd h.addFragment he
      exact h1

theorem Spares.finishIn {udp : List Byte} {x : HalfOpen} : Spares P s (finishIn udp x t) := by
  unfold Machine.finishIn
  extract_lets
  split
  · exact h.mapHost.bump
  · exact .ite h.mapHost (h.mapHost.mapHost.when (·.mapSites))

theorem Spares.finishRx {udp : List Byte} : Spares P s (finishRx udp t) := by
  unfold Machine.finishRx
  refine .ite h ?_
  split
  · exact h.finishIn
  · exact h

theorem Spares.endSession {sid : Nat} : Spares P s (endSession sid t) := by
  unfold Machine.endSession
  exact h.mapHost.mapMgt

theorem Spares.openDatagramOf {sid kind : Nat} {udp : List Byte} {f : Nat → List Byte → State → State}
    (hf : ∀ a b u, Spares P s u → Spares P s (f a b u))
    (hfree : Free P [.queues] := by exact hfree.sub) : Spares P s (openDatagramOf sid kind udp f t) := by
  unfold Machine.openDatagramOf
  refine .ite h ?_
  split
  · exact h
  extract_lets
  split
  · exact h.bump
  · exact .ite h.bump.raise ((hf _ _ _ h.mapHost).when (·.endSession))

theorem Spares.openDatagram {kind : Nat} {udp : List Byte} {f : Nat → List Byte → State → State}
    (hf : ∀ a b u, Spares P s u → Spares P s (f a b u))
    (hfree : Free P [.queues] := by exact hfree.sub) : Spares P s (openDatagram kind udp f t) :=
  h.openDatagramOf hf

theorem Spares.requestIn {m seq sid : Nat} {b : List Byte}
    (hfree : Free P [.queues] := by exact hfree.sub) : Spares P s (requestIn m seq sid b t) :=
  .ite (.ite h h.mbxSend.bump) (.ite h.mbxSend (.ite h.updMbx.mbxAnswer (.ite h.updMbx.mbxAnswer h.updMbx.mapMgt)))
theorem Spares.sessionIdle {sid : Nat} : Spares P s (sessionIdle sid t) := .ite h.endSession h
theorem Spares.fwStore {slot off : Nat} {l : List Byte} : Spares P s (fwStore slot off l t) := h.mapMgt
theorem Spares.bulkWrite {b : Bulk} {off : Nat} {l : List Byte}
    (hfree : Free P [.dram, .poison] := by exact hfree.sub) : Spares P s (bulkWrite b off l t) :=
  .ite h.regionWrite (.ite h.fwStore h)
theorem Spares.updSession {sid : Nat} {f : Session → Session} : Spares P s (updSession sid f t) := h.mapHost

theorem Spares.bulkPump {fuel sid : Nat} (hfree : Free P [.queues] := by exact hfree.sub) : Spares P s (bulkPump fuel sid t) := by
  induction fuel generalizing t with
  | zero => exact h
  | succ fuel ih =>
    unfold Machine.bulkPump
    split
    · exact h
    · exact .ite h (.ite h (ih h.mbxSend.updSession))

theorem Spares.bulkAcked {sid : Nat} {b : Bulk} {off : Nat}
    (hfree : Free P [.queues] := by exact hfree.sub) : Spares P s (bulkAcked sid b off t) :=
  .ite (.ite (h.updSession.when (·.mapFlt)) h.updSession.bulkPump) h
theorem Spares.bulkData {sid : Nat} {b : Bulk} {seq off : Nat} {l : List Byte}
    (hfree : Free P [.queues, .dram, .poison] := by exact hfree.sub) : Spares P s (bulkData sid b seq off l t) :=
  (Spares.ite h.bulkWrite h).updSession.mbxSend

theorem Spares.bulkIn {seq sid : Nat} {body : List Byte}
    (hfree : Free P [.queues, .dram, .poison] := by exact hfree.sub) : Spares P s (bulkIn seq sid body t) := by
  unfold Machine.bulkIn
  split
  · exact h
  · exact .ite h (.ite h.bulkAcked h.bulkData)

theorem Spares.bulkResend {sid : Nat} (hfree : Free P [.queues] := by exact hfree.sub) : Spares P s (bulkResend sid t) := by
  unfold Machine.bulkResend
  split
  · exact h
  · exact .ite h.updSession.bulkPump h

/-! ### The functions of Machine/CtlOps -/

theorem Spares.policed {port : Nat} {f : State → State} (hf : ∀ u, Spares P s u → Spares P s (f u))
    (hfree : Free P [.queues] := by exact hfree.sub) : Spares P s (policed port f t) :=
  .ite (hf _ h.updSched) h.updSched.bump.raisePort
theorem Spares.pruneTxKeys {p : Nat} : Spares P s (pruneTxKeys p t) := h.updKeys
theorem Spares.deriveRx {p : Nat} : Spares P s (deriveRx p t) := h.updKeys

/-! ### The functions of Machine/BruOps -/

theorem Spares.runCheck : Spares P s (runCheck t) := .ite h (h.mapBru.unless (·.bump))
theorem Spares.trialPassed : Spares P s (trialPassed t) := .ite h h.mapMgt
theorem Spares.stepTen : Spares P s (stepTen t) := h.mapBru.mapBru.runCheck.trialPassed
theorem Spares.bruEdge : Spares P s (bruEdge t) := .ite (.ite h.stepTen h) (.ite h.runCheck.mapBru h.mapBru)
theorem Spares.becomeReady : Spares P s (becomeReady t) := .ite h.mapBru.fldSet.mapSites h
theorem Spares.applyLock (hfree : Free P [.sysLock] := by exact hfree.sub) : Spares P s (applyLock t) :=
  .ite (h.mapMgt (sysLock := hfree.off)) h

/-! ### The functions of Machine/PairRows -/

theorem Spares.sendPair {p : Nat} {body : List Byte} : Spares P s (sendPair p body t) := h.updPartner
theorem Spares.sendHello {p : Nat} : Spares P s (sendHello p t) := h.sendPair.updKeys
theorem Spares.beginPairing {p : Nat} : Spares P s (beginPairing p t) := h.same.updKeys.updPartner.sendHello
theorem Spares.pairFail {p reason : Nat} (hfree : Free P [.queues] := by exact hfree.sub) : Spares P s (pairFail p reason t) :=
  h.updKeys.raise.bump.happenedNow
theorem Spares.answerHello {p : Nat} {b : List Byte} : Spares P s (answerHello p b t) := h.same.updKeys.sendPair

theorem Spares.helloRx {p : Nat} {b : List Byte} (hfree : Free P [.queues] := by exact hfree.sub) : Spares P s (helloRx p b t) := by
  unfold Machine.helloRx
  refine .ite h ?_
  extract_lets
  split
  · exact (Spares.ite h.beginPairing h).pairFail
  · exact (Spares.ite h.beginPairing h).answerHello

theorem Spares.helloRepeat {p : Nat} : Spares P s (helloRepeat p t) := .ite h (.ite h.beginPairing (.ite h.sendHello h))
theorem Spares.firstKeys {p : Nat} {encapRx ssPartner : List Byte} : Spares P s (firstKeys p encapRx ssPartner t) := h.updKeys.sendPair
theorem Spares.encapRx {p : Nat} {b : List Byte} (hfree : Free P [.queues] := by exact hfree.sub) : Spares P s (encapRx p b t) :=
  .ite h (.ite h.pairFail h.firstKeys)
theorem Spares.restartTribs {p : Nat} {keep : Bool}
    (hfree : Free P [.aborts, .areas] := by exact hfree.sub) : Spares P s (restartTribs p keep t) :=
  .ite h.mapLine ((h.mapLine.foldl fun _ _ hu => hu.askAbort).mapLine.ringEval.updPartner)
theorem Spares.restartControl {p : Nat} : Spares P s (restartControl p t) := h.updPartner.updTrib
theorem Spares.paired {p : Nat} (hfree : Free P [.aborts, .queues, .areas] := by exact hfree.sub) : Spares P s (paired p t) :=
  h.updKeys.restartTribs.restartControl.updPartner.raise.bump.happenedNow
theorem Spares.confirmRx {p : Nat} {b : List Byte}
    (hfree : Free P [.aborts, .queues, .areas] := by exact hfree.sub) : Spares P s (confirmRx p b t) :=
  .ite h (.ite h.paired h.pairFail)
theorem Spares.pairTimeout {p : Nat} (hfree : Free P [.queues] := by exact hfree.sub) : Spares P s (pairTimeout p t) := .ite h.pairFail h
theorem Spares.pairRetry {p : Nat} : Spares P s (pairRetry p t) := .ite h.beginPairing h
theorem Spares.repair {p : Nat} : Spares P s (repair p t) := .ite (.ite h.beginPairing h.updKeys.updPartner) h
theorem Spares.repairNoBlock {p : Nat} : Spares P s (repairNoBlock p t) := .ite h.repair h
theorem Spares.reseal {p old : Nat} : Spares P s (reseal p old t) := h.foldl fun _ _ hu => hu.updTrib.updKeys

theorem Spares.resealOldest {p : Nat} : Spares P s (resealOldest p t) := by
  unfold Machine.resealOldest
  split
  · exact h.reseal.pruneTxKeys
  · exact h

theorem Spares.rackBegin {p : Nat} : Spares P s (rackBegin p t) := .ite h h.resealOldest.updKeys.sendCtl
theorem Spares.rackSwitch {p : Nat} (hfree : Free P [.queues] := by exact hfree.sub) : Spares P s (rackSwitch p t) :=
  .ite h.updKeys.pruneTxKeys.raise.bump h
theorem Spares.announceRx {p dir count kcv : Nat}
    (hfree : Free P [.queues] := by exact hfree.sub) : Spares P s (announceRx p dir count kcv t) :=
  .ite h (.ite ((Spares.ite h.deriveRx h).sendCtl) ((Spares.ite h.deriveRx h).raise.repair))
theorem Spares.windowClose {p : Nat} : Spares P s (windowClose p t) := .ite h.updKeys h
theorem Spares.updUce {f : Uce → Uce} : Spares P s (updUce f t) := h.mapSec
theorem Spares.uceClaims {claims : List (Nat × Nat)} : Spares P s (uceClaims claims t) := h.updUce.bumpBy
theorem Spares.uceRelease {src gen : Nat} : Spares P s (uceRelease src gen t) := .ite h.updUce h
theorem Spares.uceTimeout (hfree : Free P [.queues] := by exact hfree.sub) : Spares P s (uceTimeout t) := .ite h.updUce.raise.bump h

/-! ### The functions of Machine/PmOps -/

theorem Spares.putBin {b : PmBin} : Spares P s (putBin b t) := by
  unfold Machine.putBin
  exact h.mapLine

theorem Spares.pmThreshold {scope kind : Nat} (hfree : Free P [.queues] := by exact hfree.sub) : Spares P s (pmThreshold scope kind t) := by
  unfold Machine.pmThreshold
  split
  · exact h
  refine .ite h (h.foldl fun u x hu => ?_)
  split
  · refine .ite ?_ hu
    extract_lets
    split
    · exact hu.raise.putBin
    · exact hu.raise
  · exact hu

theorem Spares.pmUpdate {scope : Nat} {f : List Int → List Int}
    (hfree : Free P [.queues] := by exact hfree.sub) : Spares P s (pmUpdate scope f t) :=
  .ite h (h.foldl fun _ _ hu => hu.putBin.pmThreshold)
theorem Spares.pmAdd {scope i n : Nat} (hfree : Free P [.queues] := by exact hfree.sub) : Spares P s (pmAdd scope i n t) :=
  .ite h h.pmUpdate
theorem Spares.updSecond {scope : Nat} {f : PmSecond → PmSecond} : Spares P s (updSecond scope f t) := h.mapLine
theorem Spares.pmFrame {scope : Nat} {bad : Bool} : Spares P s (pmFrame scope bad t) := h.updSecond
theorem Spares.pmBadBlock {scope : Nat} : Spares P s (pmBadBlock scope t) := h.updSecond
theorem Spares.pmDefect {scope : Nat} : Spares P s (pmDefect scope t) := h.updSecond

/-! ### The functions of Machine/SelectRows -/

theorem Spares.transmit {n seq : Nat} {r : RingBlock} {resent : Bool} : Spares P s (transmit n seq r resent t) := by
  unfold Machine.transmit
  split
  · exact h
  · exact h.sealBlock.updTrib

theorem Spares.refuseBlock {p : LinePartial} (hfree : Free P [.aborts, .queues] := by exact hfree.sub) : Spares P s (refuseBlock p t) :=
  h.raise.bump.askAbort

theorem Spares.buildBlock {n : Nat} {p : LinePartial}
    (hfree : Free P [.aborts, .blends, .queues, .areas] := by exact hfree.sub) : Spares P s (buildBlock n p t) := by
  unfold Machine.buildBlock
  split
  · exact h
  extract_lets b body len s0 s1
  have h1 : Spares P s s1 := h.bumpBy.bumpBy.unless (·.countSymbols)
  exact .ite h1.refuseBlock h1.updTrib.transmit.ringEval.pmAdd.pmFrame

theorem Spares.lineSelect {port : Nat}
    (hfree : Free P [.aborts, .blends, .queues, .areas] := by exact hfree.sub) : Spares P s (lineSelect port t) := by
  unfold Machine.lineSelect
  refine .ite h ?_
  split
  · exact h.updSched
  split
  · exact h
  extract_lets
  split
  · exact h.updSched.takeHead.buildBlock
  · exact h.updSched.takeHead

theorem Spares.sampleQueue {n q : Nat} (hfree : Free P [.queues] := by exact hfree.sub) : Spares P s (sampleQueue n q t) := h.updSched
theorem Spares.queueSample (hfree : Free P [.queues] := by exact hfree.sub) : Spares P s (queueSample t) :=
  .ite h ((h.foldl fun _ _ hu => .ite hu hu.sampleQueue).mapQos)

theorem Spares.resendBlock {n seq : Nat} (hfree : Free P [.queues] := by exact hfree.sub) : Spares P s (resendBlock n seq t) := by
  unfold Machine.resendBlock
  split
  · exact h
  split
  · exact h
  · exact h.updTrib.transmit.pmAdd.pmAdd.pmBadBlock.bump

/-! ### The functions of Machine/TimeRows -/

theorem Spares.ptpIn {domain transport : Nat} {f : State → State}
    (hf : ∀ u, Spares P s u → Spares P s (f u)) : Spares P s (ptpIn domain transport f t) :=
  .ite h (.ite h.bump (hf _ h))

theorem Spares.followMaster (hfree : Free P [.queues] := by exact hfree.sub) : Spares P s (followMaster t) :=
  .ite h.mapTime (h.mapTime.mapTime.bump.raise.when (·.requalify))
theorem Spares.announceIn {m : PtpMaster} (hfree : Free P [.queues] := by exact hfree.sub) : Spares P s (announceIn m t) :=
  h.mapTime.followMaster

theorem Spares.announceTimeout (hfree : Free P [.queues] := by exact hfree.sub) : Spares P s (announceTimeout t) := by
  unfold Machine.announceTimeout
  split
  · exact h
  split
  · exact .ite h.mapTime.followMaster h
  · exact h.followMaster

theorem Spares.syncIn {identity port seq : Nat} {twoStep : Bool} {t1 : Nat} {corr : Int} {off : Nat} :
    Spares P s (syncIn identity port seq twoStep t1 corr off t) :=
  .ite h.bump h.mapTime

theorem Spares.followUpIn {identity port seq t1 : Nat} {corr : Int} : Spares P s (followUpIn identity port seq t1 corr t) :=
  .ite h.bump h.mapTime

theorem Spares.delayReq (hfree : Free P [.queues] := by exact hfree.sub) : Spares P s (delayReq t) := by
  unfold Machine.delayReq
  split
  · exact h
  · exact .ite h h.mapTime.enqueue

theorem Spares.delayRespIn {identity port seq t4 : Nat} {corr : Int}
    (hfree : Free P [.queues] := by exact hfree.sub) : Spares P s (delayRespIn identity port seq t4 corr t) := by
  unfold Machine.delayRespIn
  refine .ite h.bump ?_
  split
  · exact h.mapTime.when (·.servoSample)
  · exact h

theorem Spares.holdover (hfree : Free P [.queues] := by exact hfree.sub) : Spares P s (holdover t) := .ite h.setServo.raise h
theorem Spares.timeInvalid (hfree : Free P [.queues, .counter] := by exact hfree.sub) : Spares P s (timeInvalid t) :=
  .ite (h.mapTime (counter := hfree.off)).raise h
theorem Spares.sourceWrite {v : Nat} : Spares P s (sourceWrite v t) := .ite h.bump (.ite h h.regSet.requalify)
theorem Spares.servoEnWrite {on : Bool} : Spares P s (servoEnWrite on t) := h.fldSet.unless (·.requalify)
theorem Spares.pulseWrite {k v : Nat} (hfree : Free P [.queues] := by exact hfree.sub) : Spares P s (pulseWrite k v t) :=
  (h.regSet.when (·.bump)).mapTime.skipPulses

theorem Spares.pulseEdge {k : Nat} : Spares P s (pulseEdge k t) := by
  unfold Machine.pulseEdge
  extract_lets
  split
  · exact h
  · exact .ite h ((Spares.ite h h.emit).mapTime)

theorem Spares.judgeRef {r : Nat} {dev other vsOther : Int} {otherGood : Bool}
    (hfree : Free P [.pressing, .queues] := by exact hfree.sub) : Spares P s (judgeRef r dev other vsOther otherGood t) :=
  .ite (.ite h.updRef (h.updRef.updRef.when (·.happenedNow.autoRevert))) (h.updRef.updRef.unless (·.refFail))
theorem Spares.refWindow {a b ab : Int} (hfree : Free P [.pressing, .queues] := by exact hfree.sub) : Spares P s (refWindow a b ab t) :=
  (Spares.ite h.raise.bump h).judgeRef.judgeRef

theorem Spares.xtalStable : Spares P s (xtalStable t) := by
  unfold Machine.xtalStable
  extract_lets
  split
  · exact h.mapTime.when (·.selectSource)
  · exact h.mapTime

theorem Spares.xtalFail (hfree : Free P [.pressing, .queues] := by exact hfree.sub) : Spares P s (xtalFail t) :=
  .ite h.mapTime.raiseFatal h.mapTime.raiseFatal

/-! ### The functions of Machine/RegRead -/

theorem Spares.latchRead {a : Nat} : Spares P s (latchRead a t) := by
  unfold Machine.latchRead
  split
  · exact h.mapMgt
  · exact h.mapTime
  · exact h.mapPress
  · exact h.mapMem
  · exact h.mapFlt
  · exact h

theorem Spares.clearRead {a : Nat} (hfree : Free P [.casks] := by exact hfree.sub) : Spares P s (clearRead a t) := by
  unfold Machine.clearRead
  refine .ite h ?_
  split
  · exact (h.mapCellar (casks := hfree.off))
  · exact h.regSet

theorem Spares.readEffect {a : Nat} (hfree : Free P [.casks] := by exact hfree.sub) : Spares P s (readEffect a t) := h.latchRead.clearRead

/-! ### The functions of Machine/MbxSys -/

theorem Spares.regionOut {hd off : Nat} {d : List Byte}
    (hfree : Free P [.dram, .poison] := by exact hfree.sub) : Spares P s (regionOut hd off d t).state := by
  unfold Machine.regionOut
  split
  · exact h.refuse
  split
  · exact h.refuse
  split
  · exact h.refuse
  · exact h.regionWrite.doneWith

theorem Spares.subscribe {sid from_ cls : Nat} (hfree : Free P [.queues] := by exact hfree.sub) : Spares P s (subscribe sid from_ cls t) :=
  (h.foldl fun _ _ hu => hu.mbxSend).updSession
theorem Spares.acceptCommit {edge : Nat} {items : List StagedItem}
    (hfree : Free P [.commits] := by exact hfree.sub) : Spares P s (acceptCommit edge items t).state :=
  (h.mapColl (commits := hfree.off)).ledgerWrite.doneWith

theorem Spares.sysCommit {byTime : Bool} {at_ : Nat} {items : List StagedItem}
    (hfree : Free P [.commits] := by exact hfree.sub) : Spares P s (sysCommit byTime at_ items t).state := by
  unfold Machine.sysCommit
  split
  · exact h.refuse
  · exact h.acceptCommit

theorem Spares.sysWithdraw {id : Nat} (hfree : Free P [.commits] := by exact hfree.sub) : Spares P s (sysWithdraw id t).state := by
  unfold Machine.sysWithdraw
  split
  · split
    · exact h.refuse
    · exact (h.mapColl (commits := hfree.off)).done
  · exact h.refuse

theorem Spares.manifestInstall {region off len : Nat} : Spares P s (manifestInstall region off len t).state := by
  unfold Machine.manifestInstall
  split
  · exact h.refuse
  split
  · exact h.refuse
  split
  · exact h.refuse
  · exact (h.mapBru.foldl fun _ _ hu => hu.happenedNow).done

theorem Spares.twinHello (hfree : Free P [.queues] := by exact hfree.sub) : Spares P s (twinHello t) := h.takeFree.mapSites.sendFragments

theorem Spares.shadowJoin {peer : List Byte} {src : Source}
    (hfree : Free P [.queues] := by exact hfree.sub) : Spares P s (shadowJoin peer src t).state := by
  unfold Machine.shadowJoin
  split
  · exact h.refuse
  split
  · exact h.refuse
  · exact h.mapSites.mapLine.twinHello.done

theorem Spares.shadowAccept {peer : List Byte} {src : Source} : Spares P s (shadowAccept peer src t).state := by
  unfold Machine.shadowAccept
  split
  · exact h.refuse
  split
  · exact h.refuse
  · exact h.mapSites.done

theorem Spares.shadowPromote {at_ : Nat} {peerOk : Bool} : Spares P s (shadowPromote at_ peerOk t).state := by
  unfold Machine.shadowPromote
  split
  · exact h.refuse
  extract_lets
  split
  · exact (h.mapSites.foldl fun _ _ hu => .ite hu.sendCtl hu).done
  · exact h.mapSites.done

/-! ### The functions of Machine/MbxColl -/

theorem Spares.groupStage {entry : List Byte} {members : List (List Byte)}
    (hfree : Free P [.groups] := by exact hfree.sub) : Spares P s (groupStage entry members t).state := by
  unfold Machine.groupStage
  extract_lets
  split
  · exact h.refuse
  split
  · exact h.refuse
  · exact (h.mapColl (groups := hfree.off)).done

theorem Spares.groupRead {g : Nat} : Spares P s (groupRead g t).state := by
  unfold Machine.groupRead
  split
  · exact h.refuse
  extract_lets
  split
  · exact h.refuse
  · exact h.doneWith

theorem Spares.streamOpen {id endpoint : Nat} {v6 : Bool} {port addr inInit outInit : Nat} :
    Spares P s (streamOpen id endpoint v6 port addr inInit outInit t).state := by
  unfold Machine.streamOpen
  split
  · exact h.refuse
  split
  · exact h.refuse
  · exact h.same.mapHost.done

theorem Spares.streamClose {id : Nat} (hfree : Free P [.queues, .casks] := by exact hfree.sub) : Spares P s (streamClose id t).state := by
  unfold Machine.streamClose
  split
  · exact h.refuse
  split
  · exact h.refuse
  · exact h.mapHost.freeCasks.done

theorem Spares.opStat {g i : Nat} (hfree : Free P [.instances] := by exact hfree.sub) : Spares P s (opStat g i t).state := by
  unfold Machine.opStat
  split
  · exact h.doneWith
  split
  · exact (h.mapColl (instances := hfree.off)).doneWith
  · exact h.refuse

theorem Spares.opList {first : Nat} : Spares P s (opList first t).state := h.doneWith

theorem Spares.opAbort {g i : Nat} (hfree : Free P [.aborts] := by exact hfree.sub) : Spares P s (opAbort g i t).state := by
  unfold Machine.opAbort
  split
  · exact h.askAbort.done
  · exact h.refuse

theorem Spares.progLoad {id region off len : Nat}
    (hfree : Free P [.programs] := by exact hfree.sub) : Spares P s (progLoad id region off len t).state := by
  unfold Machine.progLoad
  split
  · exact h.refuse
  extract_lets
  split
  · exact h.refuse
  extract_lets
  split
  · exact h.refuse
  split
  · exact h.refuse
  split
  · exact h.refuse
  · exact (h.mapColl (programs := hfree.off)).done

theorem Spares.progUnload {id : Nat} (hfree : Free P [.programs] := by exact hfree.sub) : Spares P s (progUnload id t).state := by
  unfold Machine.progUnload
  split
  · exact h.refuse
  split
  · exact h.refuse
  · exact (h.mapColl (programs := hfree.off)).done

theorem Spares.progList : Spares P s (progList t).state := h.doneWith
theorem Spares.dramClear {a n : Nat} (hfree : Free P [.dram, .poison] := by exact hfree.sub) : Spares P s (dramClear a n t) :=
  h.mapMem (form := fun ⟨hd, hs⟩ => ⟨mcanon_filter hd, hs⟩) (dram := hfree.off) (poison := hfree.off)

theorem Spares.regionCreate {size : Nat}
    (hfree : Free P [.dram, .poison, .regions] := by exact hfree.sub) : Spares P s (regionCreate size t).state := by
  unfold Machine.regionCreate
  split
  · exact h.refuse
  split
  · exact (h.mapMem (regions := hfree.off)).dramClear.doneWith
  · exact h.refuse

theorem Spares.regionFree {hd : Nat} (hfree : Free P [.regions] := by exact hfree.sub) : Spares P s (regionFree hd t).state := by
  unfold Machine.regionFree
  split
  · exact h.refuse
  split
  · exact h.refuse
  · exact (h.mapMem (regions := hfree.off)).done

theorem Spares.regionPut {hd off : Nat} {d : List Byte}
    (hfree : Free P [.dram, .poison] := by exact hfree.sub) : Spares P s (regionPut hd off d t).state := by
  unfold Machine.regionPut
  split
  · exact h.refuse
  split
  · exact h.refuse
  refine .ite_state h.refuse (.ite_state h.refuse ?_)
  exact .ite_state h.refuse h.regionWrite.done

theorem Spares.bulkOpen {sid kind target off len : Nat} {sending : Bool} (hfree : Free P [.queues] := by exact hfree.sub) :
    Spares P s (bulkOpen sid kind target off len sending t).state := by
  unfold Machine.bulkOpen
  split
  · exact h.refuse
  split
  · exact h.refuse
  · exact Spares.done (Spares.bulkPump h.updSession)

/-! ### The functions of Machine/LinePages -/

theorem Spares.sendPageOffer {port : Nat} {o : PageSet} : Spares P s (sendPageOffer port o t) := h.updLPort.sendCtl
theorem Spares.stageSet {why : Nat} {pages : PageView} : Spares P s (stageSet why pages t) :=
  h.mapLine.foldl fun _ _ hu => .ite hu.updLPort hu.updLPort.sendPageOffer

theorem Spares.pageStage {lane : Nat} {p : List Byte} : Spares P s (pageStage lane p t).state := by
  unfold Machine.pageStage
  split
  · exact h.refuse
  split
  · exact h.refuseD
  · exact h.stageSet.doneWith

theorem Spares.reoffer {port : Nat} : Spares P s (reoffer port t) := .ite h.sendPageOffer h
theorem Spares.standbyDiscard {port : Nat} : Spares P s (standbyDiscard port t) := .ite h h.mapLine
theorem Spares.requestRevert {port : Nat} : Spares P s (requestRevert port t) := .ite h.updLPort h.bump
theorem Spares.wantedReverts : Spares P s (wantedReverts t) := h.foldl fun _ _ hu => .ite hu.updLPort.requestRevert hu
theorem Spares.startFarChecks : Spares P s (startFarChecks t) := h.foldl fun _ _ hu => .ite hu hu.updPhys

theorem Spares.applyReverts : Spares P s (applyReverts t) := by
  unfold Machine.applyReverts
  exact h.wantedReverts.when (·.mapLine.startFarChecks)

theorem Spares.sendReject {port id : Nat} {f : PageFault} : Spares P s (sendReject port id f t) := h.sendCtl.bump

theorem Spares.supersede {port : Nat} {o : PageSet} : Spares P s (supersede port o t) := by
  unfold Machine.supersede
  extract_lets
  split
  · exact .ite h.updLPort.sendReject h
  · exact h

theorem Spares.holdSet {port : Nat} {o : PageSet} : Spares P s (holdSet port o t) := h.updLPort

theorem Spares.offerRx {port : Nat} {b : List Byte} : Spares P s (offerRx port b t) := by
  unfold Machine.offerRx
  split
  · exact h.sendReject
  split
  · exact h.sendReject
  · exact h.supersede.holdSet.sendCtl

theorem Spares.autoCommit {port : Nat} (hfree : Free P [.commits] := by exact hfree.sub) : Spares P s (autoCommit port t) :=
  .ite h.acceptCommit h
theorem Spares.rejectRx {port id reason : Nat} : Spares P s (rejectRx port id reason t) := .ite h.bump.reoffer (h.bump.when (·.updLPort))

theorem Spares.readyRx {port : Nat} {b : List Byte} (hfree : Free P [.commits] := by exact hfree.sub) : Spares P s (readyRx port b t) := by
  unfold Machine.readyRx
  split
  · exact h
  · exact .ite h (.ite h.rejectRx (.ite h.updLPort (.ite h.updLPort h.updLPort.autoCommit)))

theorem Spares.degrCompute {pages : List (List Byte)} : Spares P s (degrCompute pages t) :=
  .ite h (h.mapLine.foldl fun _ _ hu => .ite hu hu.sendPageOffer)
theorem Spares.doubleRepage {pages : List (List Byte)} : Spares P s (doubleRepage pages t) := .ite h h.stageSet
theorem Spares.setDiscard {port : Nat} : Spares P s (setDiscard port t) := .ite h.updLPort h

/-! ### The functions of Machine/LineTx -/

theorem Spares.mapBlock {n : Nat} {front : Bool} {b : List Byte} : Spares P s (mapBlock n front b t) := h.updTrib
theorem Spares.sendPairing {p : Nat} : Spares P s (sendPairing p t) :=
  h.updPartner.foldl fun _ _ hu => .ite hu.sealBlock.mapBlock hu.mapBlock
theorem Spares.sendControl {p : Nat} : Spares P s (sendControl p t) := .ite h (.ite h h.sealBlock.updPartner.mapBlock)

theorem Spares.resendControl {p seq : Nat} (hfree : Free P [.queues] := by exact hfree.sub) : Spares P s (resendControl p seq t) := by
  unfold Machine.resendControl
  split
  · exact h.updTrib
  · exact h.sealBlock.updTrib.updPartner.mapBlock.pmAdd.bump

theorem Spares.sendResends (hfree : Free P [.queues] := by exact hfree.sub) : Spares P s (sendResends t) :=
  h.foldl fun _ _ hu => (hu.foldl fun _ _ hu' => (.ite hu' (.ite hu'.resendControl hu'.resendBlock)))
theorem Spares.sendAcks : Spares P s (sendAcks t) := h.foldl fun _ _ hu => .ite hu.sendTribAck hu

theorem Spares.tribFrame {last : Bool} {n : Nat} (hfree : Free P [.queues] := by exact hfree.sub) : Spares P s (tribFrame last n t).2 := by
  unfold Machine.tribFrame
  split
  · exact h
  split
  · exact h
  · exact ((h.updTrib.when (·.bump.raisePort)).bumpBy.bumpBy.pmAdd.pmAdd).unless (·.pmAdd.pmAdd)

theorem Spares.sendSlot {n slot : Nat} {page : List Byte} {tribs : List TribFrame} : Spares P s (sendSlot n slot page tribs t) :=
  .ite h (.ite h.bump h.emit.updLane)
theorem Spares.sheafFrameTx {id : Nat} : Spares P s (sheafFrameTx id t).2 := h.updTrib
theorem Spares.sheafFrames : Spares P s (sheafFrames t).2 := Spares.foldl_snd (p := ([], t)) h fun _ _ hp => hp.sheafFrameTx
theorem Spares.sendXhSlot {ms : List ((Nat × Nat × Nat) × List Byte)} {n slot : Nat} : Spares P s (sendXhSlot ms n slot t) := h.same.emit
theorem Spares.sendXhLane {ms : List ((Nat × Nat × Nat) × List Byte)} {n : Nat} : Spares P s (sendXhLane ms n t) :=
  .ite h ((h.foldl fun _ _ hu => hu.sendXhSlot).bump)

theorem Spares.sendXh : Spares P s (sendXh t) := by
  unfold Machine.sendXh
  extract_lets r
  exact Spares.foldl (t := r.2) h.sheafFrames fun _ _ hu => hu.sendXhLane

theorem Spares.sendLane {tribs : List TribFrame} {n : Nat} : Spares P s (sendLane tribs n t) := by
  unfold Machine.sendLane
  split
  · exact h
  · exact .ite h ((h.foldl fun _ _ hu => hu.sendSlot).bump)

theorem Spares.frameStart (hfree : Free P [.queues] := by exact hfree.sub) : Spares P s (frameStart t) := by
  unfold Machine.frameStart
  extract_lets s1 s2 last s3 r
  have h1 : Spares P s s1 := h.applyReverts.sendAcks.sendResends
  have h2 : Spares P s s2 := h1.foldl fun _ _ hu => hu.sendPairing.sendControl
  have h3 : Spares P s s3 := h2.foldl fun _ _ hu => hu.unless (·.bump)
  clear_value s3
  have hr : Spares P s r.2 := by
    refine Spares.foldl_snd ?_ fun _ _ hp => hp.tribFrame
    exact h3
  exact (hr.foldl fun _ _ hu => hu.sendLane).sendXh

theorem Spares.keepalive {p : Nat} : Spares P s (keepalive p t) := .ite h.sendCtl h

theorem Spares.ackIdle {n : Nat} : Spares P s (ackIdle n t) := by
  unfold Machine.ackIdle
  split
  · exact h
  · exact .ite h.sendTribAck h

theorem Spares.nackAgain {n : Nat} {tr : Trib} {due : SMap LineNack} {reason : Nat}
    (hfree : Free P [.queues] := by exact hfree.sub) : Spares P s (nackAgain n tr due reason t) :=
  h.nackMessages.updTrib.foldl fun _ _ hu => hu.raise

theorem Spares.nackRepeats {n : Nat} (hfree : Free P [.queues] := by exact hfree.sub) : Spares P s (nackRepeats n t) := by
  unfold Machine.nackRepeats
  split
  · exact h
  · exact h.foldl fun _ _ hu => hu.nackAgain

theorem Spares.resendTimer {n : Nat} : Spares P s (resendTimer n t) := by
  unfold Machine.resendTimer
  split
  · exact h
  extract_lets
  split
  · split
    · exact .ite h.updTrib.updPartner h
    · exact h
  split
  · exact .ite h.updTrib h
  · exact h

/-! ### The functions of Machine/OptOps -/

theorem Spares.locateLoss {n : Nat} (hfree : Free P [.queues] := by exact hfree.sub) : Spares P s (locateLoss n t) := h.updPhys.raise

theorem Spares.offerTraining {w : Swap} : Spares P s (offerTraining w t) := by
  unfold Machine.offerTraining
  exact h.mapOpt.updLane.stageSet

theorem Spares.offerSwap {w : Swap} : Spares P s (offerSwap w t) := by
  unfold Machine.offerSwap
  exact h.mapOpt.updLane.stageSet

theorem Spares.withdrawPages (hfree : Free P [.commits] := by exact hfree.sub) : Spares P s (withdrawPages t) := by
  unfold Machine.withdrawPages
  exact (h.foldl fun _ _ hu => hu.standbyDiscard).mapColl (commits := hfree.off)

theorem Spares.stopSwap (hfree : Free P [.commits, .queues] := by exact hfree.sub) : Spares P s (stopSwap t) := by
  unfold Machine.stopSwap
  split
  · exact h
  · exact .ite h ((Spares.ite h.withdrawPages h).updPhys.updLane.mapOpt.raise.bump)

theorem Spares.startSwap {k : Nat} {short : Bool} : Spares P s (startSwap k short t) := by
  unfold Machine.startSwap
  split
  · exact h.mapOpt
  · exact h

theorem Spares.declareTx {n : Nat} (hfree : Free P [.commits, .queues] := by exact hfree.sub) : Spares P s (declareTx n t) :=
  .ite h ((h.updPhys.raise.bump.pmDefect.when (·.stopSwap)).locateLoss)
theorem Spares.declareRx {n : Nat} {los : Bool} (hfree : Free P [.queues] := by exact hfree.sub) : Spares P s (declareRx n los t) :=
  .ite h ((h.updPhys.updLane.when (·.bump)).raise.bump.pmDefect.locateLoss)

theorem Spares.wrongWavelength {n reported : Nat}
    (hfree : Free P [.commits, .queues] := by exact hfree.sub) : Spares P s (wrongWavelength n reported t) := by
  unfold Machine.wrongWavelength
  refine .ite h ?_
  extract_lets _ s1 _ s2 s3
  have h3 : Spares P s s3 := by
    unfold s3
    split
    · exact .ite ((h.updPhys.raise.bump.declareTx.when (·.withdrawPages)).offerSwap) h.updPhys.raise.bump.declareTx
    · exact h.updPhys.raise.bump.declareTx
  exact .ite h3 (h3.updPhys.when (·.startSwap))

/-! ### The functions of Machine/LineRx -/

theorem Spares.foundBlocks {port : Nat} {l : List (List Byte)} : Spares P s (foundBlocks port l t) := h.mapLine

theorem Spares.takeFrame {port lane n frame : Nat} {container : List Byte}
    (hfree : Free P [.queues] := by exact hfree.sub) : Spares P s (takeFrame port lane n frame container t) := by
  unfold Machine.takeFrame
  split
  · exact h
  refine .ite h.updTrib ?_
  extract_lets neg data pos negs ptr follows from_ s1 s2 s3
  have h2 : Spares P s s2 := h.bumpBy.bumpBy.pmAdd.pmAdd
  have h3 : Spares P s s3 := h2.unless (·.pmAdd.pmAdd)
  clear_value s3 from_
  split
  · exact h3.updTrib
  · exact h3.updTrib.foundBlocks

theorem Spares.putPieces {n frame : Nat} {l : List (Nat × List Byte)} : Spares P s (putPieces n frame l t) := h.updTrib
theorem Spares.putPointer {port lane : Nat} {e : List Byte} : Spares P s (putPointer port lane e t) := (Spares.ite h.bump h).updTrib
theorem Spares.controlPieces {x : SlotIn} : Spares P s (controlPieces x t) := .ite h h.putPieces

theorem Spares.controlFrame {x : SlotIn} (hfree : Free P [.queues] := by exact hfree.sub) : Spares P s (controlFrame x t) := by
  unfold Machine.controlFrame
  split
  · exact h
  · exact .ite h.takeFrame h

theorem Spares.exchangePieces {x : SlotIn} {p : List Byte}
    (hfree : Free P [.queues] := by exact hfree.sub) : Spares P s (exchangePieces x p t) := by
  unfold Machine.exchangePieces
  refine h.foldl fun u x hu => ?_
  split
  · exact hu
  · exact .ite hu (hu.putPieces.when (·.takeFrame))

theorem Spares.unknownPage {x : SlotIn} (hfree : Free P [.queues] := by exact hfree.sub) : Spares P s (unknownPage x t) :=
  h.bump.sendReject.raisePort
theorem Spares.noteSet {x : SlotIn} : Spares P s (noteSet x t) := h.updLPort
theorem Spares.noteRdi {x : SlotIn} (hfree : Free P [.queues] := by exact hfree.sub) : Spares P s (noteRdi x t) :=
  (h.foldl fun _ _ hu => hu.raise).updLPort
theorem Spares.noteReports {x : SlotIn} (hfree : Free P [.commits, .queues] := by exact hfree.sub) : Spares P s (noteReports x t) :=
  h.foldl fun _ _ hu => .ite hu (.ite hu (.ite hu.updPhys (.ite hu.updPhys hu.wrongWavelength)))
theorem Spares.slotFailed {port lane : Nat} (hfree : Free P [.queues] := by exact hfree.sub) : Spares P s (slotFailed port lane t) :=
  h.updLane.updLPort.when (·.declareRx)
theorem Spares.noteFrame {x : SlotIn} : Spares P s (noteFrame x t) := .ite h h.pmFrame.bump.updLane
theorem Spares.noteBip {x : SlotIn} (hfree : Free P [.queues] := by exact hfree.sub) : Spares P s (noteBip x t) := h.bumpBy.pmAdd.updLane
theorem Spares.noteStamp {x : SlotIn} {off : Nat} : Spares P s (noteStamp x off t) := .ite h h.mapTime
theorem Spares.noteSource {x : SlotIn} : Spares P s (noteSource x t) := h.updLane.updPhys

theorem Spares.slotGood {x : SlotIn} {off : Nat}
    (hfree : Free P [.commits, .queues] := by exact hfree.sub) : Spares P s (slotGood x off t) := by
  unfold Machine.slotGood
  extract_lets s1 s2 s3 s4
  have h1 : Spares P s s1 := h.noteFrame.noteBip.noteStamp.noteSource.noteSet.noteRdi.noteReports
  have h3 : Spares P s s3 := h1.updLPort.updKeys.foldl fun _ _ hu => hu.putPointer
  have h4 : Spares P s s4 := h3.controlPieces.controlFrame
  split
  · exact h4.exchangePieces
  · exact h4.unknownPage

theorem Spares.slotRx {port lane off : Nat} {acq : Bool} {fecBits fecBad snr : Nat} {oh cols : List Byte}
    (hfree : Free P [.commits, .queues] := by exact hfree.sub) :
    Spares P s (slotRx port lane off acq fecBits fecBad snr oh cols t) := by
  unfold Machine.slotRx
  extract_lets x s1
  have h1 : Spares P s s1 := h.pmAdd.pmAdd.updPhys.updLane
  exact .ite h (.ite h.bump.slotFailed (.ite h1.bump.slotFailed (h1.unless (·.updLane.slotGood))))

theorem Spares.elasticSlip {lane : Nat} : Spares P s (elasticSlip lane t) := by
  unfold Machine.elasticSlip
  exact h.updLane.mapLine

theorem Spares.markDone {n seq : Nat} : Spares P s (markDone n seq t) := h.updTrib

theorem Spares.reorderEval (hfree : Free P [.areas] := by exact hfree.sub) : Spares P s (reorderEval t) := by
  unfold Machine.reorderEval
  exact (h.mapCellar (areas := hfree.off))

theorem Spares.handOver {b : LineBlk} {cask : Option Nat} {parts : List (Nat × Option FarPart)}
    (hfree : Free P [.queues, .casks] := by exact hfree.sub) : Spares P s (handOver b cask parts t) :=
  h.mapHost.freeCasks

theorem Spares.stepEight {b : LineBlk}
    (hfree : Free P [.blends, .queues, .casks] := by exact hfree.sub) : Spares P s (stepEight b t).2 := by
  unfold Machine.stepEight
  extract_lets empty bare table
  have hbare : Spares P s bare.2 := h.handOver.markDone
  clear_value bare table
  split
  · exact hbare
  split
  · exact hbare
  split
  · exact hbare
  split
  · exact h
  split
  · exact h.lineBlockFailed.sendLineNack.pmBadBlock.updTrib
  extract_lets size
  clear_value size
  split
  · next s1 hd => exact .of_snd h.drawCask hd
  · next s1 hd =>
    have h1 : Spares P s s1 := .of_snd h.drawCask hd
    extract_lets s2
    have h2 : Spares P s s2 := by
      unfold s2
      split
      · exact h1.updSlot
      · exact h1
    clear_value s2
    dsimp only
    exact h2.handOver.markDone.tryRetireAcks

theorem Spares.releaseBlocks {n fuel : Nat}
    (hfree : Free P [.blends, .queues, .casks] := by exact hfree.sub) : Spares P s (releaseBlocks n fuel t) := by
  induction fuel generalizing t with
  | zero => exact h
  | succ fuel ih =>
    unfold Machine.releaseBlocks
    split
    · exact h
    split
    · exact h
    extract_lets r out
    have h1 : Spares P s r.2 := h.stepEight
    split
    · exact h1
    · exact ih h1.mapLine.updTrib
    · exact ih h1.updTrib

theorem Spares.releaseTrib {n : Nat}
    (hfree : Free P [.blends, .queues, .casks, .areas] := by exact hfree.sub) : Spares P s (releaseTrib n t) :=
  h.releaseBlocks.reorderEval

theorem Spares.retryBlock {b : LineBlk}
    (hfree : Free P [.instances, .aborts, .reserved, .blends, .queues, .casks] := by exact hfree.sub) : Spares P s (retryBlock b t) := by
  unfold Machine.retryBlock
  extract_lets
  split
  · exact h.stepEight
  · exact h.stepEight.openInst.updInst.mapLine

theorem Spares.lineRetry
    (hfree : Free P [.instances, .aborts, .reserved, .blends, .queues, .casks, .areas] := by exact hfree.sub) : Spares P s (lineRetry t) :=
  (h.mapLine.foldl fun _ _ hu => hu.retryBlock).foldl fun _ _ hu => .ite hu.releaseTrib hu
theorem Spares.admitPairBlock {p : Nat} : Spares P s (admitPairBlock p t).2 := h.updKeys
theorem Spares.notePeer {p id : Nat} : Spares P s (notePeer p id t) := .ite h.updLPort h

theorem Spares.nackFailed {port : Nat} {b : List Byte} : Spares P s (nackFailed port b t) := by
  unfold Machine.nackFailed
  extract_lets n s1 q
  have h1 : Spares P s s1 := h.unless (·.pmBadBlock)
  split
  · exact h1
  · exact .ite h1 (.ite h1.nackMessages h1.sendLineNack)

theorem Spares.tagFailed {port : Nat} {b : List Byte} (hfree : Free P [.queues] := by exact hfree.sub) : Spares P s (tagFailed port b t) :=
  (h.updKeys.bump.unless (·.pmAdd)).when (·.updKeys.raise)
theorem Spares.useVintage {port c : Nat} : Spares P s (useVintage port c t) := .ite h h.updKeys

theorem Spares.nackGaps {n seq : Nat} : Spares P s (nackGaps n seq t) := by
  unfold Machine.nackGaps
  split
  · exact h
  · exact h.sendLineNacks.updTrib

theorem Spares.exchangeBlock {b : LineBlk}
    (hfree : Free P [.blends, .queues, .casks, .areas] := by exact hfree.sub) : Spares P s (exchangeBlock b t) := by
  unfold Machine.exchangeBlock
  split
  · exact h
  refine .ite h ?_
  refine .ite h.pmAdd.pmFrame.updTrib ?_
  refine .ite ?_ (.ite h.pmAdd.pmFrame.updTrib.bump.raisePort h.pmAdd.pmFrame.updTrib.nackGaps.updTrib.releaseTrib)
  extract_lets
  split
  · exact h.pmAdd.pmFrame.updTrib.updTrib.stepEight
  · exact h.pmAdd.pmFrame.updTrib.updTrib.stepEight.mapLine

theorem Spares.controlBlock {port seq : Nat} {content : List Byte} : Spares P s (controlBlock port seq content t) := by
  unfold Machine.controlBlock
  split
  · exact h
  · exact h.updTrib.unless (·.nackGaps.updTrib)

theorem Spares.goodBlock {port c : Nat} {b content : List Byte}
    (hfree : Free P [.blends, .queues, .casks, .areas] := by exact hfree.sub) : Spares P s (goodBlock port c b content t) := by
  unfold Machine.goodBlock
  extract_lets kind s1 s2
  have h1 : Spares P s s1 := h.useVintage.updKeys.updPartner
  have h2 : Spares P s s2 := h1.unless (·.repair)
  exact .ite h1 (.ite h2.notePeer.controlBlock h2.exchangeBlock)

theorem Spares.lineBlockRx {port : Nat} {b : List Byte}
    (hfree : Free P [.blends, .queues, .casks, .areas] := by exact hfree.sub) : Spares P s (lineBlockRx port b t) := by
  unfold Machine.lineBlockRx
  refine .ite h.mapLine ?_
  refine .ite h.mapLine.notePeer.admitPairBlock ?_
  refine .ite h.mapLine ?_
  refine .ite h.mapLine.bump ?_
  split
  · exact h.mapLine.bump.nackFailed
  refine .ite h.mapLine.bump.nackFailed ?_
  extract_lets
  split
  · exact .ite h.mapLine.tagFailed.pairFail h.mapLine.tagFailed.nackFailed
  · exact (h.mapLine.when (·.deriveRx)).goodBlock

theorem Spares.lineAck {port trib ackSeq relSeq window : Nat}
    (hfree : Free P [.blends, .areas] := by exact hfree.sub) : Spares P s (lineAck port trib ackSeq relSeq window t) := by
  unfold Machine.lineAck
  split
  · exact h
  · exact .ite h ((h.updTrib.when (·.updPartner)).ringEval.pruneTxKeys.pruneOlder)

theorem Spares.lineNack {port trib : Nat} {ranges : List (Nat × Nat)} : Spares P s (lineNack port trib ranges t) := by
  unfold Machine.lineNack
  split
  · exact h
  · exact .ite h h.bump.updTrib

/-! ### The functions of Machine/LineMbx -/

theorem Spares.tribBind {n port queue window : Nat} : Spares P s (tribBind n port queue window t).state := by
  unfold Machine.tribBind
  split
  · exact h.refuse
  extract_lets
  split
  · split
    · exact h.mapLine.done
    split
    · exact h.mapLine.done
    · exact h.refuse
  · exact h.mapLine.done

theorem Spares.pmRead {scope kind back : Nat} : Spares P s (pmRead scope kind back t).state := by
  unfold Machine.pmRead
  extract_lets
  split
  · exact h.doneWith
  · exact h.refuse

theorem Spares.pmThresh {scope counter kind value : Nat}
    (hfree : Free P [.queues] := by exact hfree.sub) : Spares P s (pmThresh scope counter kind value t).state := by
  unfold Machine.pmThresh
  split
  · exact h.refuse
  · exact h.mapLine.pmThreshold.done

theorem Spares.xhSet {lane : Nat} {m : List (Nat × Nat × Nat × Nat × Nat)} : Spares P s (xhSet lane m t).state := by
  unfold Machine.xhSet
  split
  · exact h.refuse
  split
  · exact h.refuse
  split
  · exact h.refuse
  extract_lets
  split
  · exact h.updLane.done
  · exact h.refuse

theorem Spares.putSheaf {id : Nat} {x : Sheaf} : Spares P s (putSheaf id x t) := h.mapLine
theorem Spares.sheafDown {id : Nat} (hfree : Free P [.queues] := by exact hfree.sub) : Spares P s (sheafDown id t) :=
  .ite h h.putSheaf.raise

theorem Spares.sheafFrame {port id mfi : Nat} {fr : SMap (List Byte)} : Spares P s (sheafFrame port id mfi fr t) := by
  unfold Machine.sheafFrame
  refine .ite h.putSheaf ?_
  extract_lets d from_
  clear_value from_
  split
  · exact h.putSheaf
  · exact h.putSheaf.foundBlocks

theorem Spares.sheafMember {port : Nat} {cols : List Byte} {e : Nat × Nat × Nat × Nat × Nat}
    (hfree : Free P [.queues] := by exact hfree.sub) : Spares P s (sheafMember port cols e t) := by
  unfold Machine.sheafMember
  extract_lets
  split
  · exact .ite h (.ite h.sheafDown h.putSheaf)
  · exact .ite h.sheafDown (h.putSheaf.when (·.sheafFrame))

theorem Spares.laneFec {lane fec : Nat} : Spares P s (laneFec lane fec t).state := by
  unfold Machine.laneFec
  split
  · exact h.refuse
  split
  · exact h.refuse
  · exact h.mapOpt.done

theorem Spares.laneChannel {lane id : Nat} : Spares P s (laneChannel lane id t).state := by
  unfold Machine.laneChannel
  by_cases hl : 5 ≤ lane
  · rw [if_pos hl]
    exact h.refuse
  rw [if_neg hl]
  generalize (if (laneOf t lane).rate = 3 then 6 else 17) = n
  split
  · exact h.refuse
  · exact h.mapOpt.updPhys.done

theorem Spares.pmSecondOf {scope : Nat} (hfree : Free P [.queues] := by exact hfree.sub) : Spares P s (pmSecondOf scope t) := by
  unfold Machine.pmSecondOf
  exact h.mapLine.pmUpdate

theorem Spares.binRollover {kind : Nat} : Spares P s (binRollover kind t) := .ite h h.mapLine

theorem Spares.pmSampleLane {k : Nat} (hfree : Free P [.queues] := by exact hfree.sub) : Spares P s (pmSampleLane k t) := by
  unfold Machine.pmSampleLane
  exact h.pmUpdate

theorem Spares.pmSample (hfree : Free P [.queues] := by exact hfree.sub) : Spares P s (pmSample t) :=
  .ite (h.foldl fun _ _ hu => hu.pmSampleLane) h

/-! ### The functions of Machine/PressRows -/

theorem Spares.updCore {k : Nat} {f : CoreHist → CoreHist}
    (hfree : Free P [.cores] := by exact hfree.sub) : Spares P s (updCore k f t) := (h.mapPress (cores :=
  hfree.off))
theorem Spares.recordFail {f : CheckFail} (hfree : Free P [.cores] := by exact hfree.sub) : Spares P s (recordFail f t) := h.updCore
theorem Spares.retireCluster {die cluster : Nat}
    (hfree : Free P [.dies, .queues] := by exact hfree.sub) : Spares P s (retireCluster die cluster t) :=
  .ite h.mapBru.updDie.raise h.mapBru.updDie
theorem Spares.takeSpare {die cluster : Nat}
    (hfree : Free P [.dies, .queues] := by exact hfree.sub) : Spares P s (takeSpare die cluster t) :=
  .ite h.updDie h.retireCluster
theorem Spares.fenceCore {die cluster core : Nat}
    (hfree : Free P [.dies, .cores, .queues] := by exact hfree.sub) : Spares P s (fenceCore die cluster core t) :=
  h.updCore.takeSpare.raise.bump
theorem Spares.retireIfDue {die cluster core : Nat} {spot : Bool}
    (hfree : Free P [.cores, .queues] := by exact hfree.sub) : Spares P s (retireIfDue die cluster core spot t) :=
  .ite h.updCore.mapBru.raise.ledgerWrite.bump h
theorem Spares.oneFail {f : CheckFail} (hfree : Free P [.dies, .cores, .queues] := by exact hfree.sub) : Spares P s (oneFail t f) :=
  (h.recordFail.when (·.fenceCore)).retireIfDue
theorem Spares.pressingEffect {fs : List CheckFail}
    (hfree : Free P [.instances, .aborts, .units, .dies, .cores, .queues, .casks, .dram, .poison] := by exact hfree.sub) :
    Spares P s (pressingEffect fs t) :=
  .ite h ((h.foldl fun _ _ hu => hu.oneFail).runPressing.bumpBy)

theorem Spares.twinReport (hfree : Free P [.queues] := by exact hfree.sub) : Spares P s (twinReport t) := by
  unfold Machine.twinReport
  extract_lets
  split
  · exact h.mapSites.foldl fun _ _ hu => hu.mbxSend.mapSites
  · exact h.mapSites

theorem Spares.windowEndEffect (hfree : Free P [.units, .dies, .queues] := by exact hfree.sub) :
    Spares P s (windowEndEffect t) := ((Spares.ite h.requeueUnits h).mapPress (units := hfree.off) (dies :=
  hfree.off)).twinReport

theorem Spares.reportSuspects {c : Nat} (hfree : Free P [.queues] := by exact hfree.sub) : Spares P s (reportSuspects c t) := by
  unfold Machine.reportSuspects
  exact h.raise.ledgerWrite.bumpBy.mapFlt

theorem Spares.spotFaulty {c : Nat} {cores : List CheckFail}
    (hfree : Free P [.cores, .queues] := by exact hfree.sub) : Spares P s (spotFaulty c cores t) :=
  (h.foldl fun _ _ hu => hu.recordFail.retireIfDue).reportSuspects
theorem Spares.spotDisagree {c : Nat}
    (hfree : Free P [.instances, .aborts, .cores] := by exact hfree.sub) : Spares P s (spotDisagree c t) :=
  .ite (((h.mapPress (cores := hfree.off)).foldl fun _ _ hu => hu.updInst).bumpBy)
    ((h.mapPress (cores := hfree.off)).foldl fun _ _ hu => hu.askAbort)
theorem Spares.spotClean {c : Nat} (hfree : Free P [.cores] := by exact hfree.sub) : Spares P s (spotClean c t) := (h.mapPress (cores :=
  hfree.off))

theorem Spares.spotEffect {die cluster die2 cluster2 outcome : Nat} {cores : List CheckFail}
    (hfree : Free P [.instances, .aborts, .cores, .queues] := by exact hfree.sub) :
    Spares P s (spotEffect die cluster die2 cluster2 outcome cores t) := by
  unfold Machine.spotEffect
  refine .ite h (.ite h.bump.spotClean ?_)
  exact .ite h.bump.raise.bump.spotFaulty (.ite h.bump.raise.bump.spotFaulty h.bump.raise.bump.spotDisagree)

theorem Spares.treeReport {tree cluster : Nat}
    (hfree : Free P [.units, .pressing, .queues] := by exact hfree.sub) : Spares P s (treeReport tree cluster t) := by
  unfold Machine.treeReport
  extract_lets rs s1 n s2
  have h1 : Spares P s s1 := (h.mapPress (units := hfree.off)).setBits
  exact .ite h1 ((h1.mapPress (units := hfree.off)).raise.when (·.raiseFatal))

theorem Spares.trellisEffect {die cluster : Nat} {isEdge : Bool} {a b : Option Nat}
    (hfree : Free P [.units, .pressing, .queues] := by exact hfree.sub) :
    Spares P s (trellisEffect die cluster isEdge a b t) := by
  unfold Machine.trellisEffect
  extract_lets c r s1 s2 s3
  have h3 : Spares P s s3 := ((Spares.ite h.treeReport h).when (·.treeReport)).when (·.setBits)
  exact .ite h3 (.ite (h3.mapPress (units := hfree.off)).setBits (h3.mapPress (units := hfree.off)))

theorem Spares.flitFail {die : Nat} {replayFails : Bool}
    (hfree : Free P [.dies] := by exact hfree.sub) : Spares P s (flitFail die replayFails t) :=
  .ite h.bump.updDie h.bump.updDie
theorem Spares.retrainDone {die : Nat} (hfree : Free P [.dies] := by exact hfree.sub) : Spares P s (retrainDone die t) := .ite h.updDie h
theorem Spares.laneSpare {die : Nat} {toDie : Bool}
    (hfree : Free P [.dies, .queues] := by exact hfree.sub) : Spares P s (laneSpare die toDie t) :=
  .ite (.ite h.updDie.raise h.updDie) (.ite h.updDie.raise h.updDie)
theorem Spares.powerCap {dws : List Nat}
    (hfree : Free P [.dies] := by exact hfree.sub) : Spares P s (powerCap dws t) := .ite h (h.mapPress (dies :=
  hfree.off))
theorem Spares.capFloor {die : Nat} (hfree : Free P [.dies, .queues] := by exact hfree.sub) : Spares P s (capFloor die t) :=
  .ite h.updDie.raise h
theorem Spares.sensorStep {die : Nat} {rs : List Nat}
    (hfree : Free P [.dies, .queues] := by exact hfree.sub) : Spares P s (sensorStep die rs t) :=
  h.updDie.foldl fun _ _ hu => hu.raise
theorem Spares.tempStep {die : Nat} {rs : List Nat}
    (hfree : Free P [.units, .dies, .pressing, .queues] := by exact hfree.sub) : Spares P s (tempStep die rs t) := by
  unfold Machine.tempStep
  exact (h.updDie.when (·.raise.requeueWhere)).when (·.raiseFatal)

theorem Spares.retirementEffect {die cluster : Nat} {core : Option Nat}
    (hfree : Free P [.units, .dies, .cores, .queues] := by exact hfree.sub) : Spares P s (retirementEffect die cluster core t) := by
  unfold Machine.retirementEffect
  extract_lets
  split
  · exact h.retireCluster.requeueWhere
  · exact .ite h (.ite h.requeueWhere h.updCore.takeSpare.requeueWhere)

theorem Spares.quarantineEnd {die cluster core : Nat}
    (hfree : Free P [.dies, .cores] := by exact hfree.sub) : Spares P s (quarantineEnd die cluster core t) :=
  .ite h.updCore.updDie h

/-! ### The functions of Machine/BruRows -/

theorem Spares.fwState {k st : Nat} : Spares P s (fwState k st t) := h.mapMgt
theorem Spares.bootRecord : Spares P s (bootRecord t) := h.ledgerWrite
theorem Spares.startFrom {k : Nat} {trial : Bool} : Spares P s (startFrom k trial t) := h.mapMgt.mapMgt.bootRecord

theorem Spares.bootRom : Spares P s (bootRom t) := by
  unfold Machine.bootRom
  extract_lets a o ok back s1
  have h1 : Spares P s s1 := .ite h.fwState.mapMgt h
  refine .ite h.startFrom (.ite h1.fwState.startFrom ?_)
  exact .ite h1.fwState.fwState.startFrom h1.fwState.fwState.mapMgt

theorem Spares.startStep {n : Nat} : Spares P s (startStep n t) := by
  unfold Machine.startStep
  extract_lets s1 s2 s3
  have h1 : Spares P s s1 := h.mapBru
  have h3 : Spares P s s3 := h1.mapBru.fldSet.foldl fun _ _ hu => .ite hu.beginPairing hu
  exact .ite h1.stepTen (.ite (h3.when (·.stepTen)) (h1.when (·.mapBru)))

theorem Spares.startupSet : Spares P s (startupSet t) := h.foldl fun _ _ hu => .ite hu (.ite hu hu.updLane)
theorem Spares.tuneLanes : Spares P s (tuneLanes t) := .ite h (h.foldl fun _ _ hu => .ite hu hu.mapOpt.updPhys)

theorem Spares.opticsDone {r : StepReport} : Spares P s (opticsDone r t) := by
  unfold Machine.opticsDone
  exact (h.mapBru.tuneLanes.foldl fun _ _ hu => hu.updPhys).fldSet.fldSet.startupSet

theorem Spares.applySoftMap (hfree : Free P [.dies] := by exact hfree.sub) : Spares P s (applySoftMap t) :=
  (h.foldl fun _ _ hu => hu.updDie).foldl fun _ _ hu => .ite hu hu.updDie
theorem Spares.retireTested {c : Nat × Nat × Nat}
    (hfree : Free P [.dies, .cores, .queues] := by exact hfree.sub) : Spares P s (retireTested t c) :=
  .ite h h.updCore.mapBru.ledgerWrite.takeSpare
theorem Spares.retireTestedCluster {c : Nat × Nat}
    (hfree : Free P [.dies, .queues] := by exact hfree.sub) : Spares P s (retireTestedCluster t c) :=
  .ite h h.ledgerWrite.retireCluster
theorem Spares.selfTestDone {r : StepReport}
    (hfree : Free P [.dies, .cores, .queues] := by exact hfree.sub) : Spares P s (selfTestDone r t) :=
  (((h.foldl fun _ _ hu => hu.retireTested).foldl fun _ _ hu => hu.retireTestedCluster).bumpBy).when (·.mapBru)

theorem Spares.memTestDone {r : StepReport} (hfree : Free P [.dram, .poison] := by exact hfree.sub) : Spares P s (memTestDone r t) := by
  unfold Machine.memTestDone
  exact (h.mapMem (form := fun ⟨hd, hs⟩ => ⟨barnKept_wf hd, hs⟩) (dram := hfree.off) (poison := hfree.off)).bumpBy.mapBru

theorem Spares.bootDone : Spares P s (bootDone t) := by
  unfold Machine.bootDone
  exact ((Spares.ite h.mapMgt h.bootRom).when (·.fldSet)).fldSet.mapFlt

theorem Spares.linksDone {r : StepReport} (hfree : Free P [.dies] := by exact hfree.sub) : Spares P s (linksDone r t) := by
  unfold Machine.linksDone
  extract_lets s1 s2
  have h1 : Spares P s s1 := by
    unfold s1
    split
    · exact .ite h.mapTime h
    · exact h
  exact (h1.foldl fun _ _ hu => hu.updDie).fldSet.applySoftMap

theorem Spares.stepEffect {n : Nat} {r : StepReport}
    (hfree : Free P [.dies, .cores, .queues, .dram, .poison, .channels, .gleaning] := by exact hfree.sub) :
    Spares P s (stepEffect n r t) := by
  unfold Machine.stepEffect
  split
  · exact h.mapBru
  · exact h.bootDone
  · exact h.linksDone
  · exact h.selfTestDone
  · exact h.mapBru.mapMem (channels := hfree.off)
  · exact h.memTestDone
  · exact h.mapMem (gleaning := hfree.off)
  · exact h.opticsDone
  · exact h

theorem Spares.stepFailed {detail : Nat} : Spares P s (stepFailed detail t) := h.mapBru.bump

theorem Spares.stepDone {r : StepReport}
    (hfree : Free P [.dies, .cores, .queues, .dram, .poison, .channels, .gleaning] := by exact hfree.sub) : Spares P s (stepDone r t) := by
  unfold Machine.stepDone
  extract_lets n s0 s1
  have h1 : Spares P s s1 := h.stepEffect.mapBru.mapFlt
  refine .ite h (.ite h.stepFailed (.ite (.ite h.selfTestDone.mapBru h) ?_))
  exact .ite (.ite h1.stepFailed h1.mapBru) (h1.unless (·.startStep))

theorem Spares.pressWave {w : Nat} {railsOk : Bool} : Spares P s (pressWave w railsOk t) := .ite h h.mapBru
theorem Spares.stepCommand {v : Nat} : Spares P s (stepCommand v t) :=
  .ite h.bump (.ite h.bump (.ite h.startStep (.ite h.bump ((Spares.ite h h.startStep).mapBru))))
theorem Spares.askRecheck : Spares P s (askRecheck t) := h.mapBru
theorem Spares.endPairWait : Spares P s (endPairWait t) := h.mapBru

/-! ### The functions of Machine/RegWrite -/

theorem Spares.updStandby {n : Nat} {f : QSettings → QSettings}
    (hfree : Free P [.queues] := by exact hfree.sub) : Spares P s (updStandby n f t) :=
  h.mapQos
theorem Spares.askApply (hfree : Free P [.queues] := by exact hfree.sub) : Spares P s (askApply t) := h.mapQos.regSet

theorem Spares.holdVal {a v : Nat} (hfree : Free P [.queues] := by exact hfree.sub) : Spares P s (holdVal a v t) := by
  unfold Machine.holdVal
  split
  · exact h.updStandby
  · exact h.regSet

theorem Spares.selfWrite {a v full : Nat} (he : selfWrite a v full t = some u)
    (hfree : Free P [.queues] := by exact hfree.sub) : Spares P s u := by
  unfold Machine.selfWrite at he
  split at he
  · cases he
    exact h.sourceWrite
  · cases he
    split
    · exact h.requestRevert
    · exact h.standbyDiscard
    · exact h.reoffer
    · exact h
  · cases he
    exact (h.when (·.askRecheck)).when (·.endPairWait)
  · cases he
    exact h.stepCommand
  · obtain ⟨k, -, rfl⟩ := Option.map_eq_some_iff.mp he
    exact h.pulseWrite

theorem Spares.afterWrite {a v old new : Nat} (hfree : Free P [.queues] := by exact hfree.sub) : Spares P s (afterWrite a v old new t) := by
  unfold Machine.afterWrite
  split
  · exact .ite h h.selectSource
  · exact .ite h h.requalify
  · exact .ite h.sendPfc h.pfcFollow
  · exact .ite h.askApply h
  · exact h

theorem Spares.regPut {a value mask hw : Nat} {fs : List FieldDef}
    (hfree : Free P [.queues] := by exact hfree.sub) : Spares P s (regPut a value mask hw fs t) := by
  unfold Machine.regPut
  refine .ite (.ite h.bump h) ?_
  extract_lets
  split
  · next s1 he =>
      have h1 : Spares P s s1 := h.selfWrite he
      exact .ite h1.bump h1
  · exact h.holdVal.afterWrite.when (·.bump)

theorem Spares.hostWrite {owner : Bool} {a value mask hw : Nat}
    (hfree : Free P [.queues] := by exact hfree.sub) : Spares P s (hostWrite owner a value mask hw t).1 := by
  unfold Machine.hostWrite
  split
  · exact .ite h.bump h
  split
  · exact h.bump
  · exact h.regPut

theorem Spares.readOut {a : Nat} (hfree : Free P [.casks] := by exact hfree.sub) : Spares P s (readOut a t) := by
  unfold Machine.readOut
  split
  · exact h.emit.readEffect
  · exact h.emit

theorem Spares.readAll {i : Nat} {l : List Nat} (hfree : Free P [.casks] := by exact hfree.sub) : Spares P s (readAll i l t).2.2 := by
  induction l generalizing i t with
  | nil => exact h
  | cons a l ih =>
    unfold Machine.readAll
    split
    · exact h
    · exact ih h.readEffect

theorem Spares.writeAll {owner : Bool} {i : Nat} {l : List RegAccess}
    (hfree : Free P [.queues] := by exact hfree.sub) : Spares P s (writeAll owner i l t).2 := by
  induction l generalizing i t with
  | nil => exact h
  | cons e l ih =>
    obtain ⟨a, v, m⟩ := e
    unfold Machine.writeAll
    split
    · next he => exact .of_fst h.hostWrite he
    · next he => exact ih (.of_fst h.hostWrite he)

theorem Spares.regReadCmd {as : List Nat} (hfree : Free P [.casks] := by exact hfree.sub) : Spares P s (regReadCmd as t).state := by
  unfold Machine.regReadCmd
  split
  · exact h.refuse
  extract_lets
  split
  · exact h.readAll.doneWith
  · exact h.readAll

theorem Spares.regWriteCmd {owner : Bool} {ws : List RegAccess}
    (hfree : Free P [.queues] := by exact hfree.sub) : Spares P s (regWriteCmd owner ws t).state := by
  unfold Machine.regWriteCmd
  split
  · exact h.refuse
  extract_lets
  split
  · exact h.writeAll.done
  · exact h.writeAll

theorem Spares.windowRead {m : Nat} {as : List Nat}
    (hfree : Free P [.queues, .casks] := by exact hfree.sub) : Spares P s (windowRead m as t) :=
  .ite h.regReadCmd.mbxAnswer h

/-! ### The functions of Machine/MbxSec -/

theorem Spares.holdAnchor {c : List Byte} : Spares P s (holdAnchor c t) := h.mapSec.ledgerWrite.happenedNow.happenedNow

theorem Spares.anchorInstall {cert : List Byte}
    (hfree : Free P [.queues] := by exact hfree.sub) : Spares P s (anchorInstall cert t).state := by
  unfold Machine.anchorInstall
  split
  · exact h.refuse
  split
  · exact h.refuse
  · exact h.holdAnchor.raise.done

theorem Spares.anchorReplace {region off len : Nat} : Spares P s (anchorReplace region off len t).state := by
  unfold Machine.anchorReplace
  split
  · exact h.refuse
  extract_lets
  split
  · exact h.refuse
  · exact h.holdAnchor.done

theorem Spares.enrolInstall {region off len : Nat} : Spares P s (enrolInstall region off len t).state := by
  unfold Machine.enrolInstall
  split
  · exact h.refuse
  extract_lets
  split
  · exact h.refuse
  · exact h.mapSec.happenedNow.done

theorem Spares.attest {nonce : List Byte} {region off : Nat}
    (hfree : Free P [.dram, .poison] := by exact hfree.sub) : Spares P s (attest nonce region off t).state := by
  unfold Machine.attest
  split
  · exact h.refuse
  · exact h.regionOut

theorem Spares.pairRestart {port : Nat} : Spares P s (pairRestart port t).state := by
  unfold Machine.pairRestart
  split
  · exact h.refuse
  split
  · exact h.refuse
  · exact h.beginPairing.done

theorem Spares.utilRun {inp aad : RegionRange} {outH outOff outLen : Nat} {fault : Bool} {f : UtilOp}
    (hfree : Free P [.dram, .poison] := by exact hfree.sub) :
    Spares P s (utilRun inp aad outH outOff outLen fault f t).state := by
  unfold Machine.utilRun
  split
  · exact h.refuse
  · exact h.refuse
  · exact h.refuse
  split
  · exact h.refuse
  split
  · exact h.bump.refuse
  · exact h.regionWrite.bump.doneWith

theorem Spares.utilCmd {mbx code : Nat} {limits : Bool} {f : State → CmdRes}
    (hf : ∀ u, Spares P s u → Spares P s (f u).state)
    (hfree : Free P [.queues] := by exact hfree.sub) : Spares P s (utilCmd mbx code limits f t) := by
  unfold Machine.utilCmd
  refine .ite h.updUce (h.runCmdWith fun _ _ u hu => ?_)
  split
  · exact hu.bump.refuse
  extract_lets b r
  have hb : Spares P s b := hu.unless (·.updUce)
  dsimp only
  exact (hf b hb).updUce

theorem Spares.timStep {toSource : Bool} {value : Nat} : Spares P s (timStep toSource value t).state := by
  unfold Machine.timStep
  split
  · exact h.mapTime.done
  split
  · exact h.refuse
  · exact h.mapTime.done

theorem Spares.clkSelect {source : Nat} : Spares P s (clkSelect source t).state := by
  unfold Machine.clkSelect
  split
  · exact h.refuse
  split
  · exact h.selectSource.done
  · exact h.selectSource.refuse

theorem Spares.qosGroupMap {n group queue : Nat}
    (hfree : Free P [.queues] := by exact hfree.sub) : Spares P s (qosGroupMap n group queue t).state := by
  unfold Machine.qosGroupMap
  split
  · exact h.refuse
  · exact h.updStandby.done

theorem Spares.qosStage {n what queue value : Nat}
    (hfree : Free P [.queues] := by exact hfree.sub) : Spares P s (qosStage n what queue value t).state := by
  unfold Machine.qosStage
  extract_lets
  split
  · exact h.refuse
  split
  · exact .ite_state h.refuse h.updStandby.done
  · exact .ite_state h.refuse h.updStandby.done
  · exact .ite_state h.refuse h.updStandby.done
  · exact .ite_state h.refuse h.updStandby.done
  · exact .ite_state h.refuse h.updStandby.done
  · exact .ite_state h.refuse h.updStandby.done
  · exact h.refuse

theorem Spares.qosHistRead {n q : Nat} (hfree : Free P [.queues] := by exact hfree.sub) : Spares P s (qosHistRead n q t).state := by
  unfold Machine.qosHistRead
  split
  · exact h.refuse
  · exact h.mapQos.doneWith

/-! ### The functions of Machine/MbxFlt -/

theorem Spares.eventStat {codes : List Nat} : Spares P s (eventStat codes t).state := by
  unfold Machine.eventStat
  split
  · exact h.refuse
  · exact h.doneWith

theorem Spares.ledgerRead {stream first n : Nat} : Spares P s (ledgerRead stream first n t).state := by
  unfold Machine.ledgerRead
  split
  · exact h.refuse
  split
  · exact h.refuse
  extract_lets
  split
  · exact h.refuse
  split
  · exact h.doneWith
  · exact h.refuse

theorem Spares.storeBarnHead {k : Nat} (hfree : Free P [.dram, .poison] := by exact hfree.sub) : Spares P s (storeBarnHead k t) :=
  h.dramWrite
theorem Spares.updBarn {k : Nat} {f : BarnSlot → BarnSlot}
    (hfree : Free P [.dram, .poison] := by exact hfree.sub) : Spares P s (updBarn k f t) :=
  h.mapFlt.storeBarnHead

theorem Spares.barnRead {k off len : Nat}
    (hfree : Free P [.dram, .poison] := by exact hfree.sub) : Spares P s (barnRead k off len t).state := by
  unfold Machine.barnRead
  extract_lets
  split
  · exact h.refuse
  split
  · exact h.refuse
  · exact (Spares.ite h.updBarn h).doneWith

theorem Spares.fwWrite {k off : Nat} {d : List Byte} : Spares P s (fwWrite k off d t).state := by
  unfold Machine.fwWrite
  split
  · exact h.refuse
  split
  · exact h.refuse
  split
  · exact h.refuse
  split
  · exact h.refuse
  · exact h.fwStore.done

theorem Spares.fwBulk {sid k off len : Nat}
    (hfree : Free P [.queues] := by exact hfree.sub) : Spares P s (fwBulk sid k off len t).state := by
  unfold Machine.fwBulk
  split
  · exact h.refuse
  split
  · exact h.refuse
  split
  · exact h.refuse
  · exact .ite h.bulkOpen.fwState h

theorem Spares.fwVerify {k : Nat} : Spares P s (fwVerify k t).state := by
  unfold Machine.fwVerify
  split
  · exact h.refuse
  split
  · exact h.refuse
  split
  · exact h.fwState.done
  · exact h.fwState.refuseD

theorem Spares.fwActivate : Spares P s (fwActivate t).state := by
  unfold Machine.fwActivate
  extract_lets
  refine .ite_state h.refuse (.ite_state h.refuse (.ite_state h.refuse ?_))
  exact .ite_state h.refuseD (.ite_state h.refuseD h.ledgerWrite.fwState.mapMgt.done)

theorem Spares.blendInstall {mbx ctx cls : Nat} {l : List Byte}
    (hfree : Free P [.blends] := by exact hfree.sub) : Spares P s (blendInstall mbx ctx cls l t).state := by
  unfold Machine.blendInstall
  extract_lets
  split
  · exact h.refuse
  split
  · exact h.updSlot.done
  · exact h.updSlot.later

theorem Spares.blendStage {ctx cls : Nat} {l : List Byte}
    (hfree : Free P [.blends] := by exact hfree.sub) : Spares P s (blendStage ctx cls l t).state := by
  unfold Machine.blendStage
  extract_lets
  split
  · exact h.refuse
  · exact h.updSlot.done

theorem Spares.blendRetire {ctx cls : Nat} (hfree : Free P [.blends] := by exact hfree.sub) : Spares P s (blendRetire ctx cls t).state := by
  unfold Machine.blendRetire
  split
  · exact h.refuse
  split
  · exact h.refuse
  split
  · exact h.done
  split
  · exact h.refuse
  · exact h.updSlot.done

theorem Spares.blendRead {ctx cls which : Nat} : Spares P s (blendRead ctx cls which t).state := by
  unfold Machine.blendRead
  extract_lets x b
  clear_value b
  split
  · exact h.doneWith
  · exact h.refuse

theorem Spares.cmpResync {line : Bool} {n cls : Nat}
    (hfree : Free P [.blends] := by exact hfree.sub) : Spares P s (cmpResync line n cls t).state := by
  unfold Machine.cmpResync
  split
  · split
    · exact h.refuse
    · exact h.updSlot.done
  split
  · exact h.refuse
  · exact h.updStream.done

/-! ### The functions of Machine/BlendRows -/

theorem Spares.propose {ctx cls : Nat} (hfree : Free P [.blends, .queues] := by exact hfree.sub) : Spares P s (propose ctx cls t) := by
  unfold Machine.propose
  extract_lets
  split
  · exact h
  · exact .ite (.ite h h.updSlot) h.updSlot.raise.bump

theorem Spares.windowOfSlot {k : Nat} (hfree : Free P [.blends, .queues] := by exact hfree.sub) : Spares P s (windowOfSlot k t) :=
  .ite h ((h.updSlot.when (·.propose)).updSlot)
theorem Spares.windowEnd (hfree : Free P [.blends, .queues] := by exact hfree.sub) : Spares P s (windowEnd t) :=
  .ite h (h.foldl fun _ _ hu => hu.windowOfSlot)

theorem Spares.offerTimeout {k : Nat} (hfree : Free P [.blends, .queues] := by exact hfree.sub) : Spares P s (offerTimeout k t) := by
  unfold Machine.offerTimeout
  extract_lets
  split
  · exact h
  · exact .ite h.withdrawOffer.raise.bump h

theorem Spares.resyncFailed {port cls : Nat}
    (hfree : Free P [.blends, .queues] := by exact hfree.sub) : Spares P s (resyncFailed port cls t) :=
  h.updSlot.when (·.raise)
theorem Spares.resyncTimeout {k : Nat} (hfree : Free P [.blends, .queues] := by exact hfree.sub) : Spares P s (resyncTimeout k t) :=
  .ite h (.ite h.resyncFailed (.ite h.updSlot h.updSlot.startResync))

theorem Spares.answerOffer {port : Nat} {b : Blend} {reject : Option Nat} : Spares P s (answerOffer port b reject t) := by
  unfold Machine.answerOffer
  split
  · exact h.sendCtl
  · exact h.sendCtl

theorem Spares.blendOffer {port : Nat} {rs : Bool} {l : List Byte}
    (hfree : Free P [.blends, .queues] := by exact hfree.sub) : Spares P s (blendOffer port rs l t) := by
  unfold Machine.blendOffer
  refine .ite (.ite h.answerOffer h.updSlot.makeCurrent.answerOffer) ?_
  split
  · exact h.answerOffer
  · exact h.updSlot.answerOffer

theorem Spares.blendAccept {port cls id digest : Nat}
    (hfree : Free P [.blends, .queues] := by exact hfree.sub) : Spares P s (blendAccept port cls id digest t) := by
  unfold Machine.blendAccept
  extract_lets
  split
  · exact h
  refine .ite h ?_
  refine .ite h.updSlot ?_
  extract_lets
  split
  · exact h.updSlot.mbxAnswer
  · exact h.updSlot

theorem Spares.blendReject {port cls id digest reason : Nat}
    (hfree : Free P [.blends, .queues] := by exact hfree.sub) : Spares P s (blendReject port cls id digest reason t) :=
  .ite h.withdrawOffer h
theorem Spares.blendSwitch {port cls id : Nat} {seqs : SMap Nat}
    (hfree : Free P [.blends, .queues] := by exact hfree.sub) : Spares P s (blendSwitch port cls id seqs t) :=
  (Spares.ite h.pendingToCurrent h).when (·.updSlot.tryRetireAck)
theorem Spares.retireAcked {port cls id : Nat}
    (hfree : Free P [.blends, .queues] := by exact hfree.sub) : Spares P s (retireAcked port cls id t) :=
  .ite h.retirePrevious h
theorem Spares.blendResync {port cls : Nat}
    (hfree : Free P [.blends, .queues] := by exact hfree.sub) : Spares P s (blendResync port cls t) :=
  (Spares.ite h.resyncFailed h).resyncAsked

/-! ### The functions of Machine/CellarRows -/

theorem Spares.restagePacket {stream seq g i chunk rank : Nat}
    (hfree : Free P [.instances, .queues, .casks] := by exact hfree.sub) : Spares P s (restagePacket stream seq g i chunk rank t) := by
  unfold Machine.restagePacket
  split
  · exact h
  split
  · exact h.updStream.freeCasks
  extract_lets
  split
  · exact h
  · exact .ite h h.updInst.setBack

theorem Spares.renackBlock {trib seq : Nat} (hfree : Free P [.areas] := by exact hfree.sub) : Spares P s (renackBlock trib seq t) := by
  unfold Machine.renackBlock
  split
  · exact h
  · exact .ite h.updTrib.reorderEval.sendLineNack h

theorem Spares.ringWordLost {trib seq : Nat} (hfree : Free P [.aborts] := by exact hfree.sub) : Spares P s (ringWordLost trib seq t) := by
  unfold Machine.ringWordLost
  split
  · exact h
  split
  · exact .ite h.askAbort h
  · exact h

theorem Spares.wordAbort {g i : Nat} (hfree : Free P [.aborts] := by exact hfree.sub) : Spares P s (wordAbort g i t) := .ite h.askAbort h
theorem Spares.groupLost {g : Nat} (hfree : Free P [.groups, .aborts] := by exact hfree.sub) : Spares P s (groupLost g t) :=
  (h.foldl fun _ _ hu => hu.wordAbort).updGroup

theorem Spares.streamLost {id : Nat} (hfree : Free P [.queues, .casks] := by exact hfree.sub) : Spares P s (streamLost id t) := by
  unfold Machine.streamLost
  split
  · exact h
  · exact h.updStream.freeCasks

theorem Spares.tableRead {both : Bool} {lost : State → State}
    (hf : ∀ u, Spares P s u → Spares P s (lost u))
    (hfree : Free P [.queues] := by exact hfree.sub) : Spares P s (tableRead both lost t) :=
  .ite (hf _ h.raise) h.raise

theorem Spares.wordLost {w : WordUse}
    (hfree : Free P [.groups, .instances, .aborts, .queues, .casks, .areas, .dram, .poison] := by exact hfree.sub) :
    Spares P s (wordLost w t) := by
  unfold Machine.wordLost
  split
  · exact h.restagePacket
  · split
    · exact h.updStream.freeCasks
    · exact h
  · exact h.renackBlock
  · exact h.ringWordLost
  · exact h.wordAbort
  · exact h.wordAbort
  · exact h.tableRead fun _ hu => hu.groupLost
  · exact h.tableRead fun _ hu => hu.streamLost
  · exact h.tableRead fun _ hu => hu
  · exact h.updSilo
  · exact h.updBarn
  · exact h

theorem Spares.dramFixed {a : Nat} : Spares P s (dramFixed a t) := h.bump.bump
theorem Spares.dramBad {a : Nat}
    (hfree : Free P [.queues, .lastUe] := by exact hfree.sub) : Spares P s (dramBad a t) := (h.bump.bump.mapMem (lastUe :=
  hfree.off)).raise
theorem Spares.poisonWord {a : Nat} (hfree : Free P [.poison] := by exact hfree.sub) : Spares P s (poisonWord a t) := (h.mapMem (poison :=
  hfree.off))

theorem Spares.dramBurst {addr landed : Nat} {flips : List (Nat × Nat)} {w : WordUse}
    (hfree : Free P [.groups, .instances, .aborts, .queues, .casks, .areas, .dram, .poison, .lastUe] := by exact hfree.sub) :
    Spares P s (dramBurst addr landed flips w t) := by
  unfold Machine.dramBurst
  extract_lets at_ got ap wrong astray s1 bad s2 s3
  have h1 : Spares P s s1 := by
    refine h.foldl fun _ _ hu => ?_
    split
    · exact hu.dramFixed
    · exact hu
  have h2 : Spares P s s2 := .ite h1.bump (h1.when (·.bump.raise))
  have h3 : Spares P s s3 := h2.foldl fun _ _ hu => hu.dramBad
  exact .ite h3.emit (Spares.ite (h3.foldl fun _ _ hu => hu.poisonWord) h3).wordLost

theorem Spares.discardHeads {n c : Nat} {dramOnly : Bool}
    (hfree : Free P [.queues, .casks] := by exact hfree.sub) : Spares P s (discardHeads n c dramOnly t) := by
  induction n generalizing t with
  | zero => exact h
  | succ n ih =>
    unfold Machine.discardHeads
    exact .ite h (ih (h.mapCellar (casks := hfree.off)).bump.raise)

theorem Spares.badPointer {p from_ : Nat} (hfree : Free P [.queues] := by exact hfree.sub) : Spares P s (badPointer p from_ t) :=
  h.bump.raise

theorem Spares.caskCounted {p off : Nat} {w : WordRead}
    (hfree : Free P [.queues, .lastUe] := by exact hfree.sub) : Spares P s (caskCounted p off w t) := by
  unfold Machine.caskCounted
  extract_lets
  split
  · exact h
  · exact .ite h.dramFixed h.bump
  · exact .ite h.dramBad h.bump.raise

theorem Spares.caskRead {p off len : Nat} {flips : List (Nat × Nat)} {w : WordUse}
    (hfree : Free P [.groups, .instances, .aborts, .queues, .casks, .areas, .dram, .poison, .lastUe] := by exact hfree.sub) :
    Spares P s (caskRead p off len flips w t) :=
  .ite ((h.foldl fun _ _ hu => hu.caskCounted).emit.wordLost) ((h.foldl fun _ _ hu => hu.caskCounted).emit)
theorem Spares.caskWrite {p off : Nat} {d : List Byte} {flips : List (Nat × Nat)}
    (hfree : Free P [.queues, .dram, .poison, .sram, .lastUe] := by exact hfree.sub) : Spares P s (caskWrite p off d flips t) :=
  .ite h.caskCounted.emit (.ite h.caskCounted.dramWrite
    (h.caskCounted.mapMem (form := fun ⟨hd, hs⟩ => ⟨hd, cellWrite_wf _ _ hs⟩) (sram := hfree.off)))

theorem Spares.gleanWord {a flip : Nat}
    (hfree : Free P [.queues, .dram, .poison, .gleaning, .lastUe] := by exact hfree.sub) : Spares P s (gleanWord a flip t) := by
  unfold Machine.gleanWord
  split
  · exact h
  · exact (h.dramFixed.dramWrite.mapMem (gleaning := hfree.off))
  · exact (h.dramBad.poisonWord.mapMem (gleaning := hfree.off))

theorem Spares.gleanGroup {addr : Nat} {flips : List (Nat × Nat)} {row : Nat}
    (hfree : Free P [.queues, .dram, .poison, .gleaning, .lastUe] := by exact hfree.sub) : Spares P s (gleanGroup addr flips row t) :=
  .ite h (((h.foldl fun _ _ hu => hu.gleanWord).mapMem (gleaning := hfree.off)).when (·.raise))
theorem Spares.gleanPassEnd
    (hfree : Free P [.queues, .gleaning] := by exact hfree.sub) : Spares P s (gleanPassEnd t) := .ite h (h.mapMem (gleaning :=
  hfree.off)).raise
theorem Spares.updChan {c : Nat} {f : Channel → Channel}
    (hfree : Free P [.channels] := by exact hfree.sub) : Spares P s (updChan c f t) := (h.mapMem (channels :=
  hfree.off))

theorem Spares.startRetrain (hfree : Free P [.queues, .channels] := by exact hfree.sub) : Spares P s (startRetrain t) := by
  unfold Machine.startRetrain
  refine .ite h ?_
  split
  · exact h
  · exact (h.mapMem (channels := hfree.off)).updChan.raise.bump

theorem Spares.askRetrain {cs : List Nat}
    (hfree : Free P [.queues, .channels] := by exact hfree.sub) : Spares P s (askRetrain cs t) := (h.mapMem (channels :=
  hfree.off)).startRetrain
theorem Spares.retrainEnd {c : Nat} {ok : Bool}
    (hfree : Free P [.pressing, .queues, .channels] := by exact hfree.sub) : Spares P s (retrainEnd c ok t) :=
  .ite h (.ite h.updChan.startRetrain (.ite h.updChan.raiseFatal.startRetrain (h.updChan.mapMem (channels := hfree.off)).startRetrain))
theorem Spares.mr4Package {r : Nat × Nat × Nat} (hfree : Free P [.queues, .channels] := by exact hfree.sub) : Spares P s (mr4Package r t) :=
  (((h.foldl fun _ _ hu => hu.updChan).when (·.raise)).when (·.raise)).askRetrain

/-! ### The functions of Machine/SitesRows -/

theorem Spares.digestSend {p : Nat} : Spares P s (digestSend p t) := .ite h.sendCtl.updPartner h
theorem Spares.noteLevel {level : Nat} : Spares P s (noteLevel level t) := h.mapSites
theorem Spares.noteComparison {p : Nat} {scope groups : Bool} : Spares P s (noteComparison p scope groups t) := h.updPartner
theorem Spares.digestRx {p level : Nat} {scope groups : List Byte}
    (hfree : Free P [.blends, .queues] := by exact hfree.sub) : Spares P s (digestRx p level scope groups t) :=
  .ite h ((h.noteLevel.noteComparison.when (·.resyncAll)).unless (·.sendCtl))
theorem Spares.digestListRx {p : Nat} {entries : List (Nat × Nat × List Byte)} : Spares P s (digestListRx p entries t) :=
  .ite h h.updPartner
theorem Spares.fenceScope {p : Nat} (hfree : Free P [.queues] := by exact hfree.sub) : Spares P s (fenceScope p t) :=
  .ite h.updPartner.raise.bumpBy h
theorem Spares.fenceGroups {p : Nat} (hfree : Free P [.queues] := by exact hfree.sub) : Spares P s (fenceGroups p t) :=
  .ite h h.updPartner.raise.bumpBy
theorem Spares.linkLost {p : Nat} (hfree : Free P [.commits, .blends, .queues] := by exact hfree.sub) : Spares P s (linkLost p t) :=
  .ite h (h.updPartner.raise.lapseOffers.when (·.stopSwap))

theorem Spares.siteStateRx {p : Nat} {groups seqs : List (Nat × Nat)} {lineSeq : Nat} :
    Spares P s (siteStateRx p groups seqs lineSeq t) := by
  unfold Machine.siteStateRx
  split
  · exact h
  · exact h.updPartner.sendCtl

theorem Spares.siteAckRx {p group lineSeq : Nat} : Spares P s (siteAckRx p group lineSeq t) := .ite h.updPartner h
theorem Spares.arrive {a : Arrival} : Spares P s (arrive a t) := h.mapHost
theorem Spares.promoteRx {p : Nat} {device : List Byte} {at_ : Nat} : Spares P s (promoteRx p device at_ t) := h.updPartner

/-! ### The functions of Machine/TwinRows -/

theorem Spares.updShadow {f : Shadow → Shadow} : Spares P s (updShadow f t) := h.mapSites
theorem Spares.helloReplyIn {sid seed : Nat} {hello b : List Byte}
    (hfree : Free P [.queues] := by exact hfree.sub) : Spares P s (helloReplyIn sid seed hello b t) :=
  .ite h.raise (.ite h h.mapHost.updShadow.mbxSend)

theorem Spares.helloReply {src : Source} {udp : List Byte}
    (hfree : Free P [.queues] := by exact hfree.sub) : Spares P s (helloReply src udp t) := by
  unfold Machine.helloReply
  split
  · exact h
  refine .ite h ?_
  split
  · next s1 he =>
      have h1 : Spares P s s1 := .of_snd h.addFragment he
      exact h1.helloReplyIn
  · next s1 he =>
      have h1 : Spares P s s1 := .of_snd h.addFragment he
      exact h1

theorem Spares.endJoin : Spares P s (endJoin t) := by
  unfold Machine.endJoin
  cases t.sites.shadow.session with
  | none => exact h.updShadow
  | some sid => exact h.endSession.updShadow

theorem Spares.noteMismatch {g i c : Nat} (hfree : Free P [.queues] := by exact hfree.sub) : Spares P s (noteMismatch g i c t) :=
  h.updShadow.raise.bump.when (·.endJoin)
theorem Spares.resetMatch {at_ : Nat} : Spares P s (resetMatch at_ t) := h.updShadow

theorem Spares.reportMismatch {w : TwinEntry} {own : Nat}
    (hfree : Free P [.queues] := by exact hfree.sub) : Spares P s (reportMismatch w own t) := by
  unfold Machine.reportMismatch
  split
  · exact h
  · exact h.mbxSend.updShadow

theorem Spares.matchEntry {w : TwinEntry} (hfree : Free P [.queues] := by exact hfree.sub) : Spares P s (matchEntry w t) := by
  unfold Machine.matchEntry
  extract_lets
  split
  · exact h
  · exact .ite h (h.updShadow.unless (·.resetMatch.reportMismatch.noteMismatch))

theorem Spares.testEligible (hfree : Free P [.queues] := by exact hfree.sub) : Spares P s (testEligible t) := .ite h.updShadow.raise h
theorem Spares.matchTwin (hfree : Free P [.queues] := by exact hfree.sub) : Spares P s (matchTwin t) :=
  .ite h ((h.foldl fun _ _ hu => hu.matchEntry).updShadow.testEligible)
theorem Spares.twinDigests {b : List Byte} (hfree : Free P [.queues] := by exact hfree.sub) : Spares P s (twinDigests b t) :=
  h.updShadow.matchTwin

theorem Spares.outNextIn {b : List Byte} : Spares P s (outNextIn b t) := by
  unfold Machine.outNextIn
  exact h.updShadow

theorem Spares.twinIn {sid : Nat} {b : List Byte} (hfree : Free P [.queues] := by exact hfree.sub) : Spares P s (twinIn sid b t) :=
  .ite h (.ite (.ite h.outNextIn h.twinDigests) (h.foldl fun _ _ hu => hu.noteMismatch))

theorem Spares.twinRx {udp : List Byte} (hfree : Free P [.queues] := by exact hfree.sub) : Spares P s (twinRx udp t) := by
  unfold Machine.twinRx
  exact h.openDatagramOf fun _ _ _ hu => hu.twinIn

theorem Spares.unmatchedExpiry (hfree : Free P [.queues] := by exact hfree.sub) : Spares P s (unmatchedExpiry t) := by
  unfold Machine.unmatchedExpiry
  extract_lets
  split
  · exact h.matchTwin
  · exact h.matchTwin.resetMatch.updShadow.testEligible

theorem Spares.sendOutNext (hfree : Free P [.queues] := by exact hfree.sub) : Spares P s (sendOutNext t) := by
  unfold Machine.sendOutNext
  split
  · exact h
  · exact h.foldl fun _ _ hu => hu.mbxSend.updShadow

theorem Spares.twinHandsOver (hfree : Free P [.queues] := by exact hfree.sub) : Spares P s (twinHandsOver t) :=
  h.sendOutNext.mapHost.mapLine.updShadow.raise
theorem Spares.adoptAddress (hfree : Free P [.queues] := by exact hfree.sub) : Spares P s (adoptAddress t) := h.mapHost.enqueue
theorem Spares.shadowTakesOver (hfree : Free P [.queues] := by exact hfree.sub) : Spares P s (shadowTakesOver t) :=
  h.adoptAddress.mapHost.mapLine.updShadow.raise.foldl fun _ _ hu => .ite hu.beginPairing hu
theorem Spares.promoteAtT (hfree : Free P [.queues] := by exact hfree.sub) : Spares P s (promoteAtT t) :=
  .ite (.ite h.twinHandsOver (.ite h.shadowTakesOver h)) h

/-! ### The functions of Machine/FaultRows -/

theorem Spares.restartVintner (hfree : Free P [.queues] := by exact hfree.sub) : Spares P s (restartVintner t) := by
  unfold Machine.restartVintner
  exact (h.foldl fun _ _ hu => hu.endSession).mapHost.mapMgt.mapSites.bump.raise.mapFlt

theorem Spares.watchdog (hfree : Free P [.pressing, .queues] := by exact hfree.sub) : Spares P s (watchdog t) :=
  .ite h (.ite h.raiseFatal h.restartVintner)
theorem Spares.pairMismatch (hfree : Free P [.pressing, .queues] := by exact hfree.sub) : Spares P s (pairMismatch t) :=
  .ite h (.ite h.watchdog h.mapFlt.raise.bump)
theorem Spares.pairSelfTest {pass : Bool} : Spares P s (pairSelfTest pass t) := h.mapFlt

theorem Spares.restartDone : Spares P s (restartDone t) := h.mapFlt.mapBru

theorem Spares.powerLoss {queued : Nat} (hfree : Free P [.queues] := by exact hfree.sub) : Spares P s (powerLoss queued t) := by
  unfold Machine.powerLoss
  exact h.raise.ledgerWrite.mapFlt

theorem Spares.testFull (hfree : Free P [.queues] := by exact hfree.sub) : Spares P s (testFull t) := .ite h.mapFlt.raise h

theorem Spares.sealAppend {stream kind : Nat} {body : List Byte} : Spares P s (sealAppend stream kind body t) := by
  unfold Machine.sealAppend
  split
  · exact h.mapFlt
  · exact h.mapFlt

theorem Spares.sealStream {stream : Nat} (hfree : Free P [.queues] := by exact hfree.sub) : Spares P s (sealStream stream t) := by
  unfold Machine.sealStream
  extract_lets old s1 sig s2 s3
  have h2 : Spares P s s2 := h.sealAppend.foldl fun _ _ hu => hu.sealAppend
  have h3 : Spares P s s3 := by
    unfold s3
    split
    · exact h2.mapFlt
    · exact h2.mapFlt
  exact h3.raise.testFull

theorem Spares.dropSummary : Spares P s (dropSummary t) := by
  unfold Machine.dropSummary
  exact (Spares.ite h h.ledgerWrite).mapFlt

omit h in
theorem Spares.writeSection {k i : Nat} {g : Nat × Nat × List Byte} {a : Nat × State} (h : Spares P s a.2)
    (hfree : Free P [.dram, .poison] := by exact hfree.sub) :
    Spares P s (writeSection k i g a).2 := by
  unfold Machine.writeSection
  dsimp only
  exact h.dramWrite.dramWrite.mapFlt

theorem Spares.captureDone {k : Nat} {given : List (Nat × Bool × List Byte)} {complete : Bool} {ueWords : Nat}
    (hfree : Free P [.queues, .dram, .poison] := by exact hfree.sub) :
    Spares P s (captureDone k given complete ueWords t) := by
  unfold Machine.captureDone
  extract_lets secs r s1
  have hr : Spares P s r.2 := Spares.foldl_snd (p := ((4096 : Nat), t)) h fun _ _ hp => hp.writeSection
  exact hr.updBarn.mapFlt.raise

/-! ### The functions of Machine/OptRows -/

theorem Spares.updPortTime {p : Nat} {f : PortTime → PortTime} : Spares P s (updPortTime p f t) := h.mapTime

theorem Spares.timeSend {port : Nat} : Spares P s (timeSend port t) := by
  unfold Machine.timeSend
  refine .ite h ?_
  split
  · exact h
  · exact h.same.sendCtl.updPortTime.foldl fun _ _ hu => .ite hu.updLane hu

theorem Spares.noteDisagree {port : Nat} {theta : Int}
    (hfree : Free P [.queues] := by exact hfree.sub) : Spares P s (noteDisagree port theta t) :=
  .ite (h.updPartner.unless (·.updPartner.raise)) h.updPartner
theorem Spares.portSample {port : Nat} {valid : Bool} {t1 t2 t3 t4 : Int}
    (hfree : Free P [.queues] := by exact hfree.sub) : Spares P s (portSample port valid t1 t2 t3 t4 t) :=
  .ite h.updPortTime.updLPort (.ite h.updPortTime.updLPort.servoSample (h.updPortTime.updLPort.when (·.noteDisagree)))
theorem Spares.portSpan {port : Nat} {r : RxStamp} : Spares P s (portSpan port r t) := h.updPortTime.updLPort

theorem Spares.timePart {port : Nat} {b : List Byte} (hfree : Free P [.queues] := by exact hfree.sub) : Spares P s (timePart port b t) := by
  unfold Machine.timePart
  extract_lets
  split
  · exact h.notePath.updPortTime
  extract_lets
  split
  · exact h.notePath.updPortTime.portSpan
  · exact h.notePath.updPortTime.portSpan.unless (·.portSample)

theorem Spares.dropPageCommits (hfree : Free P [.commits] := by exact hfree.sub) : Spares P s (dropPageCommits t) := (h.mapColl (commits :=
  hfree.off))

theorem Spares.rateInSwap {w : Swap} {lane new : Nat}
    (hfree : Free P [.commits] := by exact hfree.sub) : Spares P s (rateInSwap w lane new t) := by
  unfold Machine.rateInSwap
  refine .ite ?_ (.ite h.dropPageCommits.offerTraining (.ite h.dropPageCommits.offerSwap h.dropPageCommits.mapOpt.stageSet))
  split
  · exact h.dropPageCommits.stageSet
  · exact h.dropPageCommits

theorem Spares.stageRate {lane new : Nat} (hfree : Free P [.commits] := by exact hfree.sub) : Spares P s (stageRate lane new t) := by
  unfold Machine.stageRate
  extract_lets
  split
  · exact .ite ((Spares.ite h.mapOpt h).rateInSwap) h
  · exact .ite h ((Spares.ite h.mapOpt h).stageSet)
  · exact h

theorem Spares.adaptRate {port lane : Nat}
    (hfree : Free P [.commits, .queues] := by exact hfree.sub) : Spares P s (adaptRate port lane t) := by
  unfold Machine.adaptRate
  extract_lets l x up down hold reports snr low higher run y s1 near floorDue s2
  have h2 : Spares P s s2 := h.updPhys.when (·.updPhys.raise)
  exact .ite h2 (.ite h2.stageRate (.ite h2.stageRate (h2.when (·.stageRate))))

theorem Spares.laneEntry {port : Nat} {e : List Byte}
    (hfree : Free P [.commits, .queues] := by exact hfree.sub) : Spares P s (laneEntry port e t) := by
  unfold Machine.laneEntry
  refine .ite h ?_
  extract_lets _ _ _ _ s1 s2 s3
  have h2 : Spares P s s2 := by
    unfold s2
    split
    · exact h.updPhys.when (·.mapOpt)
    · exact h.updPhys
  exact (Spares.ite h2.locateLoss h2).when (·.adaptRate)

theorem Spares.timeRx {port : Nat} {b : List Byte}
    (hfree : Free P [.commits, .queues] := by exact hfree.sub) : Spares P s (timeRx port b t) :=
  .ite h (h.timePart.foldl fun _ _ hu => hu.laneEntry)
theorem Spares.excludeMonitors {n : Nat} (hfree : Free P [.queues] := by exact hfree.sub) : Spares P s (excludeMonitors n t) :=
  .ite h (h.foldl fun _ _ hu => .ite hu.updPhys.raise hu)
theorem Spares.monitorRead {n : Nat} {chain : Bool} {r : LaneReading}
    (hfree : Free P [.queues] := by exact hfree.sub) : Spares P s (monitorRead n chain r t) :=
  .ite h h.updPhys.excludeMonitors

theorem Spares.frequencyRead {n : Nat} {locker1 coarse1 locker2 coarse2 : Int} (hfree : Free P [.commits, .queues] := by exact hfree.sub) :
    Spares P s (frequencyRead n locker1 coarse1 locker2 coarse2 t) :=
  .ite h (h.updPhys.when (·.wrongWavelength))

theorem Spares.closeMinute {n : Nat} : Spares P s (closeMinute n t) := h.updPhys

theorem Spares.evaluateFades (hfree : Free P [.queues] := by exact hfree.sub) : Spares P s (evaluateFades t) := by
  unfold Machine.evaluateFades
  extract_lets found s1 held ranked free
  have h1 : Spares P s s1 := h.foldl fun _ _ hu => hu.raise
  clear_value ranked
  split
  · exact h1
  · exact (Spares.ite (h1.when (·.startSwap)) h1.raise).foldl fun _ _ hu => hu.raise

theorem Spares.spareTuned : Spares P s (spareTuned t) := by
  unfold Machine.spareTuned
  split
  · exact h
  · exact .ite h (.ite h.updPhys.offerSwap h.updPhys.offerTraining)

theorem Spares.trainingEnd (hfree : Free P [.commits, .queues] := by exact hfree.sub) : Spares P s (trainingEnd t) := by
  unfold Machine.trainingEnd
  split
  · exact h
  · exact .ite h (.ite h.offerSwap (.ite h.stopSwap h))

theorem Spares.relockDone {n : Nat} : Spares P s (relockDone n t) :=
  .ite h (.ite (h.bump.updPhys.foldl fun _ _ hu => hu.updLPort) h.bump.updPhys)

/-! ### The functions of Machine/Tick -/

theorem Spares.advance (hfree : Free P [.instances, .counter, .tick] := by exact hfree.sub) : Spares P s (advance t) := by
  refine ⟨h.queue, h.form, fun q hq hP => ?_⟩
  have hold := h.kept q hq hP
  fin_cases hq
  iterate 3 exact hold
  · exact hfree.off (hP := hP)
  iterate 17 exact hold
  · exact hfree.off (hP := hP)
  · exact hold
  · exact hfree.off (hP := hP)

theorem Spares.fatalStop (hfree : Free P [.instances, .units, .queues, .casks] := by exact hfree.sub) : Spares P s (fatalStop t) := by
  unfold Machine.fatalStop
  have hstop : Spares P s (t.coll.insts.foldl (fun a e => Machine.fatalAbort e.2 a) t) := h.foldl fun _ _ hu => hu.fatalAbort
  exact .ite h hstop.same.mapLine.mapBru

theorem Spares.followEnable (hfree : Free P [.pressing] := by exact hfree.sub) : Spares P s (followEnable t) := (h.mapPress (pressing :=
  hfree.off))
theorem Spares.edgeAborts
    (hfree : Free P [.instances, .aborts, .units, .queues, .casks] := by exact hfree.sub) : Spares P s (edgeAborts t) :=
  h.decideAbsence.liftFences.fenceAborts.applyAborts.finaliseAborts
theorem Spares.edgeBudgets (hfree : Free P [.dies] := by exact hfree.sub) : Spares P s (edgeBudgets t) := (h.mapPress (dies :=
  hfree.off)).bumpBy
theorem Spares.edgeList (hfree : Free P [.instances, .units] := by exact hfree.sub) : Spares P s (edgeList t) := (h.mapPress (units :=
  hfree.off)).when (·.buildList)
theorem Spares.telemetryRefresh : Spares P s (telemetryRefresh t) := .ite h h.same.mapMgt

/-- A tick edge from the advance of time to the timeouts. -/
def edgeSteps (s : State) : State :=
  testTimeouts (evalFences (commitLaunches (fatalStop (edgeAborts (applyReverts (blendEdges (applyQosNext (applyCommits
    (countArrivals (lineRetry (discardDraining (endInstances (applySource s)))))))))))))

/-- A tick edge from the system lock on. -/
def edgeEnd (s : State) : State :=
  telemetryRefresh (pmSample (notePaths (encodeStage (edgeList (edgeBudgets (followEnable (bruEdge (becomeReady s))))))))

omit h in
theorem tickEffect_eq (s : State) : tickEffect s = edgeEnd (applyLock (edgeSteps (advance s))) := rfl

theorem Spares.edgeSteps
    (hfree : Free P [.programs, .groups, .commits, .instances, .aborts, .reserved, .units, .blends, .queues, .casks,
      .areas] := by exact hfree.sub) : Spares P s (edgeSteps t) :=
  h.applySource.endInstances.discardDraining.lineRetry.countArrivals.applyCommits.applyQosNext.blendEdges.applyReverts
    |>.edgeAborts.fatalStop.commitLaunches.evalFences.testTimeouts

theorem Spares.edgeEnd (hfree : Free P [.instances, .units, .dies, .pressing, .blends, .queues, .casks] := by exact hfree.sub) :
    Spares P s (edgeEnd t) :=
  h.becomeReady.bruEdge.followEnable.edgeBudgets.edgeList.encodeStage.notePaths.pmSample.telemetryRefresh

theorem Spares.tickEffect
    (hfree : Free P [.programs, .groups, .commits, .instances, .aborts, .reserved, .units, .dies, .pressing, .blends, .queues, .casks,
      .areas, .counter, .sysLock, .tick] := by exact hfree.sub) : Spares P s (tickEffect t) := by
  rw [tickEffect_eq]
  exact h.advance.edgeSteps.applyLock.edgeEnd

end

end Sys2Proof.Machine

/-! Every command, what it changes of the followed parts, and the statements that follow. -/

namespace Sys2Proof.Machine

open Sys2Proof

section

set_option Elab.async false

variable {P : Part → Prop} {s t : State}

/-- Where a command's outcome is a next state, the queue, the form of memory and the parts that `P` names have stayed. -/
def SparesThrough (P : Part → Prop) (s : State) (o : Host.Outcome State Fault Refusal) : Prop := ∀ t, o = .next t → Spares P s t

theorem SparesThrough.next (h : Spares P s t) : SparesThrough P s (.next t) := fun _ ht => Host.Outcome.next.inj ht ▸ h
theorem SparesThrough.fault {r : Fault} : SparesThrough P s (.fault r) := fun _ ht => nomatch ht

variable (h : Spares P s t)

include h

theorem Spares.execMbxFinish {src : Source} {udp : List Byte} : SparesThrough P s (execMbxFinish src udp t) := by
  unfold Machine.execMbxFinish
  refine .next (h.rxFrame fun _ hu => ?_)
  split
  · exact .ite hu.finishRx hu
  · exact hu

theorem Spares.execSysManifestRead {mbx region off : Nat}
    (hfree : Free P [.queues, .dram, .poison] := by exact hfree.sub) : SparesThrough P s (execSysManifestRead mbx region off t) := by
  unfold Machine.execSysManifestRead
  refine .next (h.runCmd fun _ _ _ hu => ?_)
  split
  · exact hu.refuse
  · exact hu.regionOut

theorem Spares.execCelRegionRead {mbx handle off len : Nat}
    (hfree : Free P [.queues] := by exact hfree.sub) : SparesThrough P s (execCelRegionRead mbx handle off len t) := by
  unfold Machine.execCelRegionRead
  refine .next (h.runCmd fun _ _ _ hu => ?_)
  split
  · exact hu.refuse
  · exact hu.doneWith

theorem Spares.execCelRegionBulk {mbx handle off len : Nat} {sending : Bool} (hfree : Free P [.queues] := by exact hfree.sub) :
    SparesThrough P s (execCelRegionBulk mbx handle off len sending t) := by
  unfold Machine.execCelRegionBulk
  refine .next (h.runCmd fun _ _ _ hu => ?_)
  split
  · exact hu.refuse
  split
  · exact hu.refuse
  split
  · exact hu.refuse
  · exact hu.bulkOpen

theorem Spares.execSecUtilGcmSeal {mbx : Nat} {key nonce : List Byte} {inp aad : RegionRange} {outH outOff : Nat} {fault : Bool}
    (hfree : Free P [.queues, .dram, .poison] := by exact hfree.sub) :
    SparesThrough P s (execSecUtilGcmSeal mbx key nonce inp aad outH outOff fault t) := by
  unfold Machine.execSecUtilGcmSeal
  refine .next (h.utilCmd fun _ hu => ?_)
  split
  · exact hu.refuse
  · exact hu.utilRun

theorem Spares.execSecUtilGcmOpen {mbx : Nat} {key nonce tag : List Byte} {inp aad : RegionRange} {outH outOff : Nat} {fault : Bool}
    (hfree : Free P [.queues, .dram, .poison] := by exact hfree.sub) :
    SparesThrough P s (execSecUtilGcmOpen mbx key nonce tag inp aad outH outOff fault t) := by
  unfold Machine.execSecUtilGcmOpen
  refine .next (h.utilCmd fun _ hu => ?_)
  split
  · exact hu.refuse
  · exact hu.utilRun

theorem Spares.execSecUtilCtr {mbx : Nat} {key counter : List Byte} {inp : RegionRange} {outH outOff : Nat} {fault : Bool}
    (hfree : Free P [.queues, .dram, .poison] := by exact hfree.sub) :
    SparesThrough P s (execSecUtilCtr mbx key counter inp outH outOff fault t) := by
  unfold Machine.execSecUtilCtr
  refine .next (h.utilCmd fun _ hu => ?_)
  split
  · exact hu.refuse
  · exact hu.utilRun

theorem Spares.execFltBarnBulk {mbx slot off len : Nat}
    (hfree : Free P [.queues] := by exact hfree.sub) : SparesThrough P s (execFltBarnBulk mbx slot off len t) := by
  unfold Machine.execFltBarnBulk
  refine .next (h.runCmd fun _ _ _ hu => ?_)
  extract_lets b
  split
  · exact hu.refuse
  · exact hu.bulkOpen

theorem Spares.execFltBarnRelease {mbx slot : Nat}
    (hfree : Free P [.queues, .dram, .poison] := by exact hfree.sub) : SparesThrough P s (execFltBarnRelease mbx slot t) := by
  unfold Machine.execFltBarnRelease
  refine .next (h.runCmd fun _ _ _ hu => ?_)
  split
  · exact hu.refuse
  · exact hu.updBarn.done

theorem Spares.execCaskRequest {n : Nat} {dramOnly : Bool} {corrupt : Nat}
    (hfree : Free P [.queues, .casks] := by exact hfree.sub) : SparesThrough P s (execCaskRequest n dramOnly corrupt t) := by
  unfold Machine.execCaskRequest
  extract_lets s1
  have h1 : Spares P s s1 := by
    unfold s1
    split
    · exact h.unless (·.discardHeads)
    · exact h
  clear_value s1
  split
  · next hd => exact .next (.emit (.of_snd h1.drawCask hd))
  · next hd => exact .next (.emit (.of_snd h1.drawCask hd))

theorem Spares.execCaskAccess {ptr off len : Nat} {data : Option (List Byte)} {requester : Nat} {flips : List (Nat × Nat)}
    {use : WordUse} (hfree : Free P [.groups, .instances, .aborts, .queues, .casks, .areas, .dram, .poison, .sram,
      .lastUe] := by exact hfree.sub) : SparesThrough P s (execCaskAccess ptr off len data requester flips use t) := by
  unfold Machine.execCaskAccess
  refine .next ?_
  split
  · exact .ite h.badPointer h.caskWrite
  · exact .ite h.badPointer.emit.wordLost h.caskRead

theorem Spares.execDramRead {addr landed : Nat} {flips : List (Nat × Nat)} {use : WordUse}
    (hfree : Free P [.groups, .instances, .aborts, .queues, .casks, .areas, .dram, .poison, .lastUe] := by exact hfree.sub) :
    SparesThrough P s (execDramRead addr landed flips use t) := by
  unfold Machine.execDramRead
  split
  · exact .fault
  · exact .next h.dramBurst

theorem Spares.execSwapGuardRecommit : SparesThrough P s (execSwapGuardRecommit t) := by
  unfold Machine.execSwapGuardRecommit
  refine .next ?_
  split
  · exact .ite h.stageSet h
  · exact h

theorem Spares.execFallowLimit (hfree : Free P [.queues] := by exact hfree.sub) : SparesThrough P s (execFallowLimit t) := by
  unfold Machine.execFallowLimit
  refine .next (h.foldl fun _ _ hu => ?_)
  split
  · exact hu.testFallowLimit
  · exact hu

theorem Spares.execBarnCaptureDone {sections : List (Nat × Bool × List Byte)} {complete : Bool} {ueWords : Nat}
    (hfree : Free P [.queues, .dram, .poison] := by exact hfree.sub) :
    SparesThrough P s (execBarnCaptureDone sections complete ueWords t) := by
  unfold Machine.execBarnCaptureDone
  refine .next ?_
  cases hk : t.flt.capturing with
  | none => exact h
  | some k => exact h.captureDone

theorem Spares.execLedgerSeal {stream : Nat}
    (hfree : Free P [.queues] := by exact hfree.sub) : SparesThrough P s (execLedgerSeal stream t) := by
  unfold Machine.execLedgerSeal
  refine .next ?_
  split
  · exact h.sealStream
  · exact h

theorem Spares.execJtagInstruction {ir : JtagIr} : SparesThrough P s (execJtagInstruction ir t) := by
  unfold Machine.execJtagInstruction
  refine .next ?_
  split
  · exact h.mapMgt.emit
  · exact h.mapMgt.takeFree.emit
  · exact h.mapMgt.takeFree.emit
  · exact h.mapMgt.emit

/-- A command other than a start changes no followed part outside its footprint. -/
theorem Spares.exec {c : Instr} (hc : c.isStart = false) (hfree : Free P c.changes) : SparesThrough P s (exec c t) := by
  cases c <;> dsimp only [Instr.changes] at hfree
  case tickEdge => exact .next h.tickEffect
  case commitApply => exact .next h.applyCommits
  case instanceTimeout => exact .next h.testTimeouts
  case pressingStart => exact .next h.pressingEffect
  case pressingWindowEnd => exact .next h.windowEndEffect
  case spotCheck => exact .next h.spotEffect
  case trellisMessage => exact .next h.trellisEffect
  case dieLinkFlitCrcFail => exact .next h.flitFail
  case dieLinkRetrainDone => exact .next h.retrainDone
  case dieLinkLaneSpare => exact .next h.laneSpare
  case powerCapInterval => exact .next h.powerCap
  case capFloorEvent => exact .next h.capFloor
  case tempSensorRead => exact .next h.sensorStep.tempStep
  case railDroop => exact .next h.updDie
  case retirementApply => exact .next h.retirementEffect
  case quarantineEnd => exact .next h.quarantineEnd
  case pressEnableWrite => exact .next h.fldSet
  case data => exact .next (h.rxFrame fun _ hu => hu.exchangeIn)
  case launch => exact .next (h.rxFrame fun _ hu => hu.exchangeIn)
  case memberAbort => exact .next (h.rxFrame fun _ hu => hu.exchangeIn)
  case memberNack => exact .next (h.rxFrame fun _ hu => hu.exchangeIn)
  case memberAck => exact .next (h.rxFrame fun _ hu => hu.exchangeIn)
  case hostNackRepeat => exact .next h.nackRepeat
  case hostAckInterval => exact .next h.ackPeriodic
  case resultHoldExpire => exact .next h.holdExpire
  case pfcFrameRx => exact .next (h.rxFrame fun _ hu => hu.pfcFrame)
  case pfcPauseExpire => exact .next h.pfcExpire
  case pfcWatchdog => exact .next h.pfcWatchdog
  case pfcRefresh => exact .next h.pfcRefresh
  case pfcDisableWrite => exact .next h.pfcDisable
  case arpRequest => exact .next (h.rxFrame fun _ hu => .ite hu.enqueue hu)
  case neighbourSolicitation => exact .next (h.rxFrame fun _ hu => .ite hu.enqueue hu)
  case icmpEcho => exact .next (h.rxFrame fun _ hu => hu.icmpIn)
  case otherFrameDiscard => exact .next (h.rxFrame fun _ hu => hu.otherFrame)
  case hostAlignmentLoss => exact .next (.ite h.mapHost h)
  case hostLinkDown => exact .next h.linkDown
  case hostLinkUp => exact .next h.linkUpEffect
  case ptpAnnounce => exact .next (h.rxFrame (fun _ hu => (hu.ptpIn (fun _ hu' => hu'.announceIn))))
  case announceReceiptTimeout => exact .next h.announceTimeout
  case ptpSync => exact .next (h.rxFrame (fun _ hu => (hu.ptpIn (fun _ hu' => hu'.syncIn))))
  case ptpFollowUp => exact .next (h.rxFrame (fun _ hu => (hu.ptpIn (fun _ hu' => hu'.followUpIn))))
  case delayReqSend => exact .next h.delayReq
  case ptpDelayResp => exact .next (h.rxFrame (fun _ hu => (hu.ptpIn (fun _ hu' => hu'.delayRespIn))))
  case hostEgressSelect => exact .next h.hostSelect
  case lineBlockSelect => exact .next h.lineSelect
  case tokenRefill => exact .next h.tokenRefill
  case queueSample => exact .next h.queueSample
  case mbxHello => exact .next (h.rxFrame fun _ hu => hu.helloFragment)
  case helloReassemblyTimeout => exact .next h.mapHost
  case halfOpenExpire => exact .next h.mapHost
  case mbxFinish => exact h.execMbxFinish
  case mbxRequest => exact .next (h.rxFrame (fun _ hu => (hu.openDatagram (fun _ _ _ hu' => hu'.requestIn))))
  case mbxClose => exact .next (h.rxFrame (fun _ hu => (hu.openDatagram (fun _ _ _ hu' => hu'.endSession))))
  case sessionIdleTimeout => exact .next h.sessionIdle
  case mbxBulk => exact .next (h.rxFrame (fun _ hu => (hu.openDatagram (fun _ _ _ hu' => hu'.bulkIn))))
  case bulkResend => exact .next h.bulkResend
  case mbxTwin => exact .next (h.rxFrame fun _ hu => hu.twinRx)
  case twinUnmatchedExpiry => exact .next h.unmatchedExpiry
  case sysIdentity => exact .next (h.runCmd fun _ _ _ hu => hu.doneWith)
  case sysNetSet => exact .next (h.runCmd fun _ _ _ hu => hu.mapHost.done)
  case sysCommit => exact .next (h.runCmd fun _ _ _ hu => hu.sysCommit)
  case sysWithdraw => exact .next (h.runCmd fun _ _ _ hu => hu.sysWithdraw)
  case sysEventSubscribe => exact .next (h.runCmd fun _ _ _ hu => hu.subscribe.done)
  case sysReset => exact .next (h.runCmd fun _ _ _ hu => hu.mapMgt.done)
  case sysReadyReasons => exact .next (h.runCmd fun _ _ _ hu => hu.doneWith)
  case sysManifestInstall => exact .next (h.runCmd fun _ _ _ hu => hu.manifestInstall)
  case sysManifestRead => exact h.execSysManifestRead
  case sysShadowJoin => exact .next (h.runCmd fun _ _ _ hu => hu.shadowJoin)
  case sysShadowAccept => exact .next (h.runCmd fun _ _ _ hu => hu.shadowAccept)
  case sysShadowPromote => exact .next (h.runCmd fun _ _ _ hu => hu.shadowPromote)
  case sysLock => exact .next (h.runCmd fun _ _ _ hu => (hu.mapMgt (sysLock := hfree.off)).done)
  case systemLockApply => exact .next h.applyLock
  case grpStage => exact .next (h.runCmd fun _ _ _ hu => hu.groupStage)
  case grpRead => exact .next (h.runCmd fun _ _ _ hu => hu.groupRead)
  case grpStreamOpen => exact .next (h.runCmd fun _ _ _ hu => hu.streamOpen)
  case grpStreamClose => exact .next (h.runCmd fun _ _ _ hu => hu.streamClose)
  case opStat => exact .next (h.runCmd fun _ _ _ hu => hu.opStat)
  case opList => exact .next (h.runCmd fun _ _ _ hu => hu.opList)
  case opAbort => exact .next (h.runCmd fun _ _ _ hu => hu.opAbort)
  case progLoad => exact .next (h.runCmd fun _ _ _ hu => hu.progLoad)
  case progUnload => exact .next (h.runCmd fun _ _ _ hu => hu.progUnload)
  case progList => exact .next (h.runCmd fun _ _ _ hu => hu.progList)
  case celRegionCreate => exact .next (h.runCmd fun _ _ _ hu => hu.regionCreate)
  case celRegionFree => exact .next (h.runCmd fun _ _ _ hu => hu.regionFree)
  case celRegionRead => exact h.execCelRegionRead
  case celRegionWrite => exact .next (h.runCmd fun _ _ _ hu => hu.regionPut)
  case celRegionBulk => exact h.execCelRegionBulk
  case memInfo => exact .next (h.runCmd fun _ _ _ hu => hu.doneWith)
  case lneTrib => exact .next (h.runCmd fun _ _ _ hu => hu.tribBind)
  case lnePageStage => exact .next (h.runCmd fun _ _ _ hu => hu.pageStage)
  case lnePmRead => exact .next (h.runCmd fun _ _ _ hu => hu.pmRead)
  case lnePmThresh => exact .next (h.runCmd fun _ _ _ hu => hu.pmThresh)
  case lneXh => exact .next (h.runCmd fun _ _ _ hu => hu.xhSet)
  case optLaneFec => exact .next (h.runCmd fun _ _ _ hu => hu.laneFec)
  case optLaneChannel => exact .next (h.runCmd fun _ _ _ hu => hu.laneChannel)
  case secAnchorInstall => exact .next (h.runCmd fun _ _ _ hu => hu.anchorInstall)
  case secAnchorReplace => exact .next (h.runCmd fun _ _ _ hu => hu.anchorReplace)
  case secEnrolRequest => exact .next (h.runCmd fun _ _ _ hu => hu.doneWith)
  case secEnrolInstall => exact .next (h.runCmd fun _ _ _ hu => hu.enrolInstall)
  case secAttest => exact .next (h.runCmd fun _ _ _ hu => hu.attest)
  case secPairRestart => exact .next (h.runCmd fun _ _ _ hu => hu.pairRestart)
  case secUtilGcmSeal => exact h.execSecUtilGcmSeal
  case secUtilGcmOpen => exact h.execSecUtilGcmOpen
  case secUtilCtr => exact h.execSecUtilCtr
  case secUtilShake => exact .next (h.utilCmd fun _ hu => hu.utilRun)
  case timStep => exact .next (h.runCmd fun _ _ _ hu => hu.timStep)
  case timeStepApply => exact .next h.applyStep
  case qosGroupMap => exact .next (h.runCmd fun _ _ _ hu => hu.qosGroupMap)
  case qosStage => exact .next (h.runCmd fun _ _ _ hu => hu.qosStage)
  case qosHistRead => exact .next (h.runCmd fun _ _ _ hu => hu.qosHistRead)
  case fltEventStat => exact .next (h.runCmd fun _ _ _ hu => hu.eventStat)
  case fltLedgerRead => exact .next (h.runCmd fun _ _ _ hu => hu.ledgerRead)
  case fltBarnList => exact .next (h.runCmd fun _ _ _ hu => hu.doneWith)
  case fltBarnRead => exact .next (h.runCmd fun _ _ _ hu => hu.barnRead)
  case fltBarnBulk => exact h.execFltBarnBulk
  case fltBarnRelease => exact h.execFltBarnRelease
  case fwInfo => exact .next (h.runCmd fun _ _ _ hu => hu.doneWith)
  case fwWrite => exact .next (h.runCmd fun _ _ _ hu => hu.fwWrite)
  case fwBulk => exact .next (h.runCmd fun _ _ _ hu => hu.fwBulk)
  case fwVerify => exact .next (h.runCmdWith fun _ _ _ hu => hu.fwVerify)
  case fwActivate => exact .next (h.runCmd fun _ _ _ hu => hu.fwActivate)
  case fwOwnerLock => exact .next (h.runCmd fun _ _ _ hu => hu.mapMgt.done)
  case fwOwnerUnlock => exact .next (h.runCmd fun _ _ _ hu => hu.mapMgt.done)
  case cmpBlendInstall => exact .next (h.runCmd fun _ _ _ hu => hu.blendInstall)
  case cmpBlendStage => exact .next (h.runCmd fun _ _ _ hu => hu.blendStage)
  case cmpBlendRetire => exact .next (h.runCmd fun _ _ _ hu => hu.blendRetire)
  case cmpBlendRead => exact .next (h.runCmd fun _ _ _ hu => hu.blendRead)
  case cmpResync => exact .next (h.runCmd fun _ _ _ hu => hu.cmpResync)
  case clkSelect => exact .next (h.runCmdWith fun _ _ _ hu => hu.clkSelect)
  case regRead => exact .next (.ite h.windowRead (h.runCmdWith (fun _ _ _ hu => hu.regReadCmd)))
  case regWrite => exact .next (h.runCmdWith fun _ _ _ hu => hu.regWriteCmd)
  case registerWrite => exact .next h.hostWrite
  case rcCounterRead => exact .next (.ite (h.readOut.when (·.bump)) h)
  case latchingRead => exact .next h.readOut
  case sourceSelectWrite => exact .next (.ite h h.selectSource)
  case pageRevert => exact .next (.ite h.requestRevert h)
  case pageStandbyDiscard => exact .next h.standbyDiscard
  case pageReoffer => exact .next h.reoffer
  case qosApply => exact .next h.askApply
  case readinessRecheck => exact .next h.askRecheck
  case pairWaitEndWrite => exact .next h.endPairWait
  case stepCommand => exact .next h.stepCommand
  case uceClaim => exact .next h.uceClaims
  case uceRelease => exact .next h.uceRelease
  case uceLockTimeout => exact .next h.uceTimeout
  case timeSourceWrite => exact .next h.sourceWrite
  case pulseModeWrite => exact .next h.pulseWrite
  case caskRequest => exact h.execCaskRequest
  case caskFree => exact .next (.ite h.badPointer h.poolFree)
  case caskAccess => exact h.execCaskAccess
  case dramRead => exact h.execDramRead
  case gleanGroup => exact .next h.gleanGroup
  case gleanPeriodElapsed => exact .next (.ite (h.mapMem (gleaning := hfree.off)) h)
  case gleanPassEnd => exact .next h.gleanPassEnd
  case wck2dqOscillator => exact .next (.ite h.askRetrain h)
  case channelRetrainDone => exact .next h.retrainEnd
  case mr4Read => exact .next (.ite (h.foldl fun _ _ hu => hu.mr4Package) h)
  case blendPolicyWindow => exact .next h.windowEnd
  case blendHandshakeTimeout => exact .next (h.foldl fun _ _ hu => hu.offerTimeout)
  case resyncTimeout => exact .next (h.foldl fun _ _ hu => hu.resyncTimeout)
  case blendOfferRx => exact .next (h.policed fun _ hu => hu.blendOffer)
  case blendAcceptRx => exact .next (h.policed fun _ hu => hu.blendAccept)
  case blendRejectRx => exact .next (h.policed fun _ hu => hu.blendReject)
  case blendSwitchRx => exact .next (h.policed fun _ hu => hu.blendSwitch)
  case blendRetireAckRx => exact .next (h.policed fun _ hu => hu.retireAcked)
  case blendResyncRx => exact .next (h.policed fun _ hu => hu.blendResync)
  case frameStart => exact .next h.frameStart
  case timeTransferSend => exact .next h.timeSend
  case controlKeepalive => exact .next (.ite h.keepalive h)
  case aliveRx => exact .next (.ite (h.policed (fun _ hu => hu)) h)
  case slotRx => exact .next h.slotRx
  case elasticStoreSlip => exact .next h.elasticSlip
  case xhSheafRx => exact .next (.ite (h.foldl fun _ _ hu => hu.sheafMember) h)
  case xhSheafDown => exact .next (.ite h.sheafDown h)
  case lineBlockRx => exact .next h.lineBlockRx
  case lineAckIdle => exact .next h.ackIdle
  case lineNackRepeat => exact .next h.nackRepeats
  case lineResendTimer => exact .next h.resendTimer
  case lineAckRx => exact .next h.lineAck
  case lineNackRx => exact .next h.lineNack
  case pageOfferRx => exact .next (.ite (h.policed (fun _ hu => hu.offerRx)) h)
  case pageReadyRx => exact .next (.ite (h.policed (fun _ hu => hu.readyRx)) h)
  case pageRejectRx => exact .next (.ite (h.policed (fun _ hu => hu.rejectRx)) h)
  case degradationPageCompute => exact .next h.degrCompute
  case pageSetDiscard => exact .next h.setDiscard
  case laneDegrade => exact .next (.ite h.loseLane h)
  case doubleLossRepage => exact .next h.doubleRepage
  case rdiClear => exact .next (.ite h.updLane.updPhys h)
  case pmSecond => exact .next (.ite ((h.foldl fun _ _ hu => hu.pmSecondOf).mapLine) h)
  case pmBinRollover => exact .next h.binRollover
  case timeTransferRx => exact .next (.ite (h.policed (fun _ hu => hu.timeRx)) h)
  case loopFail => exact .next (.ite h.declareTx h)
  case lossOfSignal => exact .next (.ite h.declareRx h)
  case monitorRead => exact .next h.monitorRead
  case contextRelearn => exact .next h.updPhys
  case fadeEvaluation => exact .next (.ite ((h.mapOpt.foldl fun _ _ hu => hu.closeMinute).evaluateFades) h)
  case spareTuneDone => exact .next h.spareTuned
  case spareTrainingEnd => exact .next h.trainingEnd
  case swapRetryEval => exact .next (.ite h.mapOpt.evaluateFades h)
  case swapGuardRecommit => exact h.execSwapGuardRecommit
  case failedLaneTakeover => exact .next (.ite h.startSwap h)
  case wrongWavelengthLocal => exact .next h.frequencyRead
  case relockDone => exact .next h.relockDone
  case relockFarCheck => exact .next (.ite h.wrongWavelength h)
  case rackingBegin => exact .next h.rackBegin
  case rackSwitch => exact .next h.rackSwitch
  case announceRx => exact .next (h.policed fun _ hu => hu.announceRx)
  case rackReadyRx => exact .next (h.policed fun _ hu => hu)
  case vintageWindowClose => exact .next h.windowClose
  case pHelloRx => exact .next h.helloRx
  case pHelloRepeat => exact .next h.helloRepeat
  case pEncapRx => exact .next h.encapRx
  case pConfirmRx => exact .next h.confirmRx
  case pairingTimeout => exact .next h.pairTimeout
  case pairingRetry => exact .next h.pairRetry
  case repairNoBlock => exact .next h.repairNoBlock
  case refMissingEdges => exact .next h.updRef.refFail
  case refWindowEnd => exact .next h.refWindow
  case xtalStable => exact .next h.xtalStable
  case xtalFail => exact .next h.xtalFail
  case holdoverEntry => exact .next h.holdover
  case timeInvalid => exact .next h.timeInvalid
  case pulseEdge => exact .next h.pulseEdge
  case digestSend => exact .next h.digestSend
  case digestRx => exact .next (h.policed fun _ hu => hu.digestRx)
  case digestListRx => exact .next (h.policed fun _ hu => hu.digestListRx)
  case configFence => exact .next h.fenceScope.fenceGroups
  case partnerLinkDown => exact .next (.ite h.linkLost h)
  case siteAbsent => exact .next h.decideAbsence
  case siteStateRx => exact .next (h.policed fun _ hu => hu.siteStateRx)
  case siteAckRx => exact .next (h.policed fun _ hu => hu.siteAckRx)
  case fallowLimit => exact h.execFallowLimit
  case launchNoticeRx => exact .next h.arrive
  case abortNoticeRx => exact .next h.arrive
  case fenceClearRx => exact .next h.arrive
  case promoteRx => exact .next (h.policed fun _ hu => hu.promoteRx)
  case promotionAtT => exact .next h.promoteAtT
  case vintnerPairMismatch => exact .next h.pairMismatch
  case vintnerWatchdog => exact .next h.watchdog
  case vintnerRestartDone => exact .next (.ite h h.restartDone)
  case vintnerHeartbeatLoss => exact .next h.raiseFatal
  case barnCaptureDone => exact h.execBarnCaptureDone
  case railFault => exact .next (.ite h h.mapBru.raiseFatal)
  case powerLoss => exact .next (.ite h h.powerLoss)
  case ledgerSeal => exact h.execLedgerSeal
  case coldStart => cases hc
  case warmStart => cases hc
  case bringupStepDone => exact .next h.stepDone
  case pressWave => exact .next h.pressWave
  case pairWaitExpire => exact .next (.ite h.stepTen h)
  case telemetryWrite => exact .next h.emit
  case jtagInstruction => exact h.execJtagInstruction
  case mbxHelloReply => exact .next (h.rxFrame fun _ hu => hu.helloReply)
  case pfcWatchdogIgnoreEnd => exact .next h.pfcIgnoreEnd
  case spareTuneTimeout => exact .next (.ite h.stopSwap h)
  case vintnerSelfTestDone => exact .next h.pairSelfTest
  case laneRecovery => exact .next (.ite h h.updPhys)
  case signalReturn => exact .next h.updPhys
  case servoEnWrite => exact .next h.servoEnWrite
  case ledgerDropSummary => exact .next h.dropSummary

/-! ### The starts, which begin memory anew or keep of it what stood -/

omit h

/-- Where any followed part may change, only the queue and the form of memory are spared. -/
theorem Spares.of_free (hfree : Free P Part.followed) (hqueue : t.pending = s.pending) (hform : Inv s → Inv t) : Spares P s t :=
  ⟨hqueue, hform, fun q hq hP => absurd hP (hfree q hq)⟩

theorem coldStart_of_not_held {held : Bool} (hheld : held = false) :
    (coldStart held s).pending = s.pending ∧ (coldStart held s).mem = State.reset.mem := by
  subst hheld
  exact ⟨rfl, rfl⟩

theorem coldStart_of_held {held : Bool} (hheld : held = true) :
    (coldStart held s).pending = s.pending ∧
      (coldStart held s).mem = { State.reset.mem with dram := barnWindow s.mem.dram } := by
  subst hheld
  exact ⟨rfl, rfl⟩

theorem Spares.coldStart {held : Bool} (hfree : Free P Part.followed) : Spares P s (coldStart held s) := by
  cases hheld : held with
  | false =>
    obtain ⟨hqueue, hmem⟩ := coldStart_of_not_held (s := s) rfl
    refine .of_free hfree hqueue fun _ => ?_
    rw [Inv, hmem]
    exact ⟨rfl, rfl⟩
  | true =>
    obtain ⟨hqueue, hmem⟩ := coldStart_of_held (s := s) rfl
    refine .of_free hfree hqueue fun ⟨hd, _⟩ => ?_
    rw [Inv, hmem]
    exact ⟨mcanon_filter hd, rfl⟩

/-- A warm start keeps the cells of DRAM and empties the Cellar's SRAM. -/
theorem Spares.warmStart (hfree : Free P Part.followed) : Spares P s (warmStart s) := by
  unfold Machine.warmStart
  refine Spares.startStep (.of_free hfree ?queue ?form)
  case queue => rfl
  case form =>
    intro hi
    exact ⟨hi.1, rfl⟩

theorem Spares.exec_start {c : Instr} (hc : c.isStart = true) (hfree : Free P Part.followed) :
    SparesThrough P s (Machine.exec c s) := by
  cases c
  case coldStart => exact .next (.coldStart hfree)
  case warmStart => exact .next (.ite (.warmStart hfree) .refl)
  all_goals cases hc

/-- A step runs the command at the front of the queue on the state with the queue's rest. -/
theorem step_cons {c : Instr} {l : List Instr} (hs : s.pending = c :: l) : step s = exec c { s with pending := l } := by
  rw [step, hs]

end

/-- Settles O1: by the definition of a step. -/
theorem stepRunsTheFrontCommand : Obligations.StepRunsTheFrontCommand := by
  unfold Obligations.StepRunsTheFrontCommand
  refine ⟨fun c l s hs => step_cons hs, fun s hs => ?_⟩
  rw [step, hs]

/-- Every command spares the queue and the form of memory. -/
theorem exec_spares {c : Instr} {s t : State} (ht : exec c s = .next t) : Spares (fun _ => False) s t := by
  have hnone : ∀ F, Free (fun _ => False) F := fun _ _ _ => id
  cases hc : c.isStart with
  | false => exact Spares.refl.exec hc (hnone _) t ht
  | true => exact Spares.exec_start hc (hnone _) t ht

/-- Settles O3: no command touches the queue, from which a step takes its command. -/
theorem stepsTakeOneCommand : Obligations.StepsTakeOneCommand := by
  unfold Obligations.StepsTakeOneCommand
  intro c l s t hs ht
  rw [step_cons hs] at ht
  exact (exec_spares ht).queue

/-- Settles O4: no command takes memory out of its canonical form. -/
theorem stepsKeepTheFormOfMemory : Obligations.StepsKeepTheFormOfMemory := by
  unfold Obligations.StepsKeepTheFormOfMemory
  intro s t hs ht
  cases hq : s.pending with
  | nil =>
    rw [step, hq] at ht
    exact Host.Outcome.next.inj ht ▸ hs
  | cons c l =>
    rw [step_cons hq] at ht
    exact (exec_spares ht).form hs

/-- A followed part that the footprint of a command other than a start does not name stays. -/
theorem exec_same {c : Instr} {s t : State} {p : Part} (hc : c.isStart = false) (ht : exec c s = .next t) (hp : p ∉ c.changes)
    (hin : p ∈ Part.followed) : p.Same s t :=
  (Spares.refl.exec (P := (· = p)) hc (fun _ hq he => hp (he ▸ hq)) t ht).kept p hin rfl

theorem Part.followed_of_mem {p : Part} {l : List Part} (hp : p ∈ l) (hl : l ⊆ Part.followed := by decide) : p ∈ Part.followed := hl hp

/-- Settles O7: the parts it names are followed. -/
theorem frameOfInstancesAndPress : Obligations.FrameOfInstancesAndPress := by
  unfold Obligations.FrameOfInstancesAndPress
  intro c s t p hc ht hp hin
  exact exec_same hc ht hp (Part.followed_of_mem hin)

/-- Settles O8: the parts of memory are followed, and a byte of DRAM follows from the cells of DRAM. -/
theorem frameOfMemory : Obligations.FrameOfMemory := by
  unfold Obligations.FrameOfMemory
  refine ⟨fun c s t p hc ht hp hin => exec_same hc ht hp ?_, fun c s t ht hp hc a => ?_⟩
  · exact Part.followed_of_mem hin
  · have hdram : t.mem.dram = s.mem.dram := exec_same (p := .dram) hc ht hp (by decide)
    rw [dramByte, dramByte, hdram]

end Sys2Proof.Machine

/-! Three footprints leave out a part that their command changes: a refutation for each, on a concrete state. -/

namespace Sys2Proof.Machine

open Sys2Proof

/-! ### SLOT_RX of a page of no set held (R346): its event's limit stands among the limits of the host port -/

/-- A device whose line receives, and which holds no set of pages. -/
def receiving : State := regSet 0x00094004 2 State.reset

/-- An overhead field of zeros with its CRC. -/
def zeroOverhead : List Byte := List.replicate 1020 0 ++ [0x67, 0xBB, 0xAF, 0x86]

set_option maxRecDepth 30000 in
theorem slotRx_changes_evTick : (slotRx 3 4 0 true 0 0 0 zeroOverhead [] receiving).host.evTick ≠ receiving.host.evTick := by
  decide +kernel

/-- Refutes O9: a slot that names a page of no set held raises EV_LINE_UNKNOWN_PAGE, and the tick from which its next is counted enters the
limits of the host port, which the footprint of SLOT_RX leaves out. -/
theorem not_frameOfHostLineAndOptics : ¬ Obligations.FrameOfHostLineAndOptics := by
  unfold Obligations.FrameOfHostLineAndOptics
  intro h
  obtain ⟨_, _, hev⟩ := h (.slotRx 3 4 0 true 0 0 0 zeroOverhead []) receiving _ .hostLimits rfl rfl (by decide) (by decide)
  exact slotRx_changes_evTick hev

/-! ### LINE_RESEND_TIMER of a control tributary (R340): the block resent is noted in the partner -/

/-- A device in which the newest control block of port A has waited for its acknowledgement for a million ticks. -/
def awaitingAck : State := updPartner 0 (fun x => { x with ctlRing := [(0, [])] }) { State.reset with tick := 1000000 }

theorem resendTimer_changes_ctlTimed : (partnerOf (resendTimer 0 awaitingAck) 0).ctlTimed ≠ (partnerOf awaitingAck 0).ctlTimed := by
  decide +kernel

/-- Refutes O10: the timer of a control tributary notes the block that it has resent in the partner, which the footprint of
LINE_RESEND_TIMER leaves out. -/
theorem not_frameOfSecuritySitesAndFaults : ¬ Obligations.FrameOfSecuritySitesAndFaults := by
  unfold Obligations.FrameOfSecuritySitesAndFaults
  intro h
  have hsame : (resendTimer 0 awaitingAck).sites.partners = awaitingAck.sites.partners :=
    h (.lineResendTimer 0) awaitingAck _ .partners rfl rfl (by decide) (by decide)
  refine resendTimer_changes_ctlTimed ?_
  rw [partnerOf, partnerOf, hsame]

/-! ### LINE_BLOCK_RX where P-CONFIRM is awaited and the tag fails (R412): the pairing's failure is noted for the readiness check -/

/-- A device that awaits the P-CONFIRM of port A under vintage count 1. -/
def awaitingConfirm : State :=
  regSet 0x00100004 1 (updKeys 0 (fun k => { k with st := 3, txCount := 1, rxCount := 1, rxKeys := [(1, List.replicate 32 0)] }) State.reset)

/-- A control block of 4 bytes of content with a tag of zeros. -/
def zeroTagBlock : List Byte := [0x12, 1, 0] ++ List.replicate 41 0 ++ beBytes 4 4 ++ beBytes 4 4 ++ List.replicate 32 0

theorem lineBlockRx_changes_happened :
    (lineBlockRx 0 zeroTagBlock awaitingConfirm).bru.happened ≠ awaitingConfirm.bru.happened := by
  decide +kernel

/-- Refutes O11: a block whose tag fails while P-CONFIRM is awaited ends the pairing, and the failure enters the happenings for the check,
which the footprint of LINE_BLOCK_RX leaves out. -/
theorem not_frameOfTimeManagementAndRegisters : ¬ Obligations.FrameOfTimeManagementAndRegisters := by
  unfold Obligations.FrameOfTimeManagementAndRegisters
  intro h
  exact lineBlockRx_changes_happened
    (h (.lineBlockRx 0 zeroTagBlock) awaitingConfirm _ .happened rfl rfl (by decide) (.inl (by decide)))

end Sys2Proof.Machine

/-! Facts about the accessors of the state: what a command's run comes to, what a fold keeps, and what an entry of a vector reads after an
update. -/

namespace Sys2Proof.Machine

open Sys2Proof

/-! ### Runs, folds and vectors -/

theorem Runs.of_next {c : Instr} {s t : State} {Q : State → Prop} (ht : exec c s = .next t) (hQ : Q t) : Runs c s Q := ⟨t, ht, hQ⟩

/-- What every step of a fold leaves, the fold leaves. -/
theorem foldl_keeps {α β γ : Type} {π : β → γ} {f : β → α → β} (hf : ∀ b a, π (f b a) = π b) (l : List α) (b : β) :
    π (l.foldl f b) = π b :=
  List.foldlRecOn (motive := fun x => π x = π b) l f rfl fun x hx a _ => (hf x a).trans hx

theorem vget_vupd_self {α : Type} {n : Nat} {v : Vector α n} {i : Nat} {f : α → α} {d : α} (hi : i < n) :
    vget (vupd v i f) i d = f (vget v i d) := vget_vupd_same v i f d hi

/-- A property of an entry that an update keeps, every entry keeps. -/
theorem vget_vupd_keeps {α γ : Type} {n : Nat} {v : Vector α n} {i : Nat} {f : α → α} {d : α} {π : α → γ} (hf : ∀ x, π (f x) = π x)
    (j : Nat) : π (vget (vupd v i f) j d) = π (vget v j d) := by
  rw [vget_vupd]
  split
  · next h => rw [hf, h.1]
  · rfl

/-! ### Dies -/

section

variable {s : State} {i j : Nat} {f : Die → Die}

theorem dieOf_updDie (hi : i < 4) : dieOf (updDie i f s) i = f (dieOf s i) := vget_vupd_self hi

theorem dieOf_updDie_ne (h : j ≠ i) : dieOf (updDie i f s) j = dieOf s j := vget_vupd_ne _ _ _ h.symm

theorem dieOf_congr {t : State} (h : t.press.dies = s.press.dies) : dieOf t = dieOf s := by
  funext i
  rw [dieOf, dieOf, h]

/-- An event changes of the Press at most whether it runs. -/
theorem raise_press_field {γ : Type} (π : Press → γ) (hπ : ∀ p b, π { p with running := b } = π p) (c : Nat) (a : List Nat) (s : State) :
    π (raise c a s).press = π s.press := by
  rw [raise_press]
  split
  · exact hπ _ _
  · rfl

theorem raise_dies (c : Nat) (a : List Nat) (s : State) : (raise c a s).press.dies = s.press.dies :=
  raise_press_field (·.dies) (fun _ _ => rfl) c a s

@[simp] theorem raise_units (c : Nat) (a : List Nat) (s : State) : (raise c a s).press.units = s.press.units :=
  raise_press_field (·.units) (fun _ _ => rfl) c a s

@[simp] theorem raise_missed (c : Nat) (a : List Nat) (s : State) : (raise c a s).press.missed = s.press.missed :=
  raise_press_field (·.missed) (fun _ _ => rfl) c a s

@[simp] theorem raise_reissue (c : Nat) (a : List Nat) (s : State) : (raise c a s).press.reissue = s.press.reissue :=
  raise_press_field (·.reissue) (fun _ _ => rfl) c a s

@[simp] theorem raise_cores (c : Nat) (a : List Nat) (s : State) : (raise c a s).press.cores = s.press.cores :=
  raise_press_field (·.cores) (fun _ _ => rfl) c a s

@[simp] theorem dieOf_raise (c : Nat) (a : List Nat) (s : State) : dieOf (raise c a s) = dieOf s := dieOf_congr (raise_dies c a s)

theorem requeueWhere_dies (hit : WorkUnit → Bool) (s : State) : (requeueWhere hit s).press.dies = s.press.dies :=
  foldl_keeps (π := fun x : State => x.press.dies) (fun a _ => raise_dies _ _ a) _ _

end

/-- An event other than the Ledger's own is counted once. -/
theorem seen_raise_self {c : Nat} {a : List Nat} {s : State} (h1 : c ≠ 0x4F02 := by decide) (h2 : c ≠ 0x4F03 := by decide) :
    seen (raise c a s) c = seen s c + 1 := by
  rw [seen_raise c a s c h1 h2, if_pos rfl]

/-! ### Bits and fields of registers -/

theorem bitOf_eq_testBit (n i : Nat) : bitOf n i = n.testBit i := by
  rw [bitOf, Nat.testBit_eq_decide_div_mod_eq, Nat.shiftRight_eq_div_pow]
  rfl

/-- Bits that hardware sets join those that stood. -/
theorem bit_setBits (s : State) (a m i : Nat) : bit (setBits a m s) a i = (bit s a i || m.testBit i) := by
  rw [bit, regVal_setBits, if_pos rfl, bit, bitOf_eq_testBit, bitOf_eq_testBit, Nat.testBit_or]

theorem bitsOf_putBits {n lo w v : Nat} (hv : v < 2 ^ w) : bitsOf (putBits n lo w v) lo w = v := by
  rw [bitsOf, putBits, Nat.shiftRight_eq_div_pow, Nat.mod_eq_of_lt hv, Nat.pow_add, ← Nat.mul_assoc, Nat.mul_right_comm, ← Nat.add_mul,
    Nat.mul_comm, Nat.mul_add_div (Nat.two_pow_pos lo), Nat.div_eq_of_lt (Nat.mod_lt _ (Nat.two_pow_pos lo)), Nat.add_zero,
    Nat.mul_add_mod', Nat.mod_eq_of_lt hv]

theorem bitOf_putBits_b2n (n i : Nat) (b : Bool) : bitOf (putBits n i 1 (b2n b)) i = b := by
  have hb : b2n b < 2 ^ 1 := by cases b <;> decide
  have h := bitsOf_putBits (n := n) (lo := i) hb
  rw [bitsOf] at h
  rw [bitOf, ← Nat.pow_one 2, h]
  cases b <;> rfl

end Sys2Proof.Machine

/-! R76, R77, R80, R81: power cap, floor, temperature and droop of a die. -/

namespace Sys2Proof.Machine

open Sys2Proof

/-! ### Power (R76, R77) -/

theorem dieOf_powerCap {dws : List Nat} {s : State} {die : Nat} (hdie : die < 4)
    (hdue : s.press.intervalStart + capInterval s ≤ s.tick) :
    (powerCap dws s).press.intervalStart = s.tick ∧ dieOf (powerCap dws s) die = capDie s (dws.getD die 0) (dieOf s die) := by
  rw [powerCap, if_neg (Nat.not_lt.mpr hdue)]
  exact ⟨rfl, vget_mapIdx _ _ _ _ hdie⟩

/-! ### Temperature (R80) -/

/-- The hottest reading bounds every reading, and is one of them or 0. -/
theorem foldl_hotter (rs l : List Nat) (b : Nat × Nat) :
    let r := l.foldl (fun b i => if b.2 < rs.getD i 0 then (i, rs.getD i 0) else b) b
    b.2 ≤ r.2 ∧ (∀ i ∈ l, rs.getD i 0 ≤ r.2) ∧ (r.2 = b.2 ∨ ∃ i ∈ l, rs.getD i 0 = r.2) := by
  induction l generalizing b with
  | nil => simp
  | cons j l ih =>
    intro r
    obtain ⟨c, hc⟩ : ∃ c, (if b.2 < rs.getD j 0 then (j, rs.getD j 0) else b) = c := ⟨_, rfl⟩
    have hcb : b.2 ≤ c.2 ∧ rs.getD j 0 ≤ c.2 ∧ (c.2 = b.2 ∨ c.2 = rs.getD j 0) := by grind
    have hr : r = l.foldl (fun b i => if b.2 < rs.getD i 0 then (i, rs.getD i 0) else b) c := by rw [← hc]; rfl
    obtain ⟨hb, hall, hone⟩ := ih c
    rw [hr]
    refine ⟨hcb.1.trans hb, List.forall_mem_cons.mpr ⟨hcb.2.1.trans hb, hall⟩, ?_⟩
    rcases hone with he | ⟨i, hi, he⟩
    · rcases hcb.2.2 with hc | hc
      · exact .inl (he.trans hc)
      · exact .inr ⟨j, List.mem_cons_self, hc.symm.trans he.symm⟩
    · exact .inr ⟨i, List.mem_cons_of_mem j hi, he⟩

theorem mem_validSensors {d : Die} {i : Nat} :
    i ∈ ((List.range 64).filter fun i => !d.excluded.contains i) ↔ i < 64 ∧ i ∉ d.excluded := by simp

theorem hottest_spec (d : Die) (rs : List Nat) : (∀ i, i < 64 → i ∉ d.excluded → rs.getD i 0 ≤ (hottest d rs).2) ∧
    ((hottest d rs).2 = 0 ∨ ∃ i, i < 64 ∧ i ∉ d.excluded ∧ rs.getD i 0 = (hottest d rs).2) := by
  obtain ⟨-, hall, hone⟩ := foldl_hotter rs ((List.range 64).filter fun i => !d.excluded.contains i) (0, 0)
  refine ⟨fun i hi hx => hall i (mem_validSensors.mpr ⟨hi, hx⟩), hone.imp id ?_⟩
  rintro ⟨i, hi, he⟩
  obtain ⟨h64, hx⟩ := mem_validSensors.mp hi
  exact ⟨i, h64, hx, he⟩

/-- What a reading leaves in its die, past the exclusion of sensors. -/
theorem dieOf_tempStep {die : Nat} {rs : List Nat} {s : State} (hdie : die < 4) :
    dieOf (tempStep die rs s) die = { dieOf s die with
      maxC := (hottest (dieOf s die) rs).2, hotSensor := (hottest (dieOf s die) rs).1
      hot := decide (100 ≤ (hottest (dieOf s die) rs).2) || ((dieOf s die).hot && decide (95 < (hottest (dieOf s die) rs).2))
      overTemp := decide (103 ≤ (hottest (dieOf s die) rs).2) ||
        ((dieOf s die).overTemp && decide (95 < (hottest (dieOf s die) rs).2)) } := by
  unfold tempStep
  extract_lets d h stop s1 s2
  have h2 : s2.press.dies = s1.press.dies := by
    unfold s2
    split
    · rw [requeueWhere_dies, raise_dies]
    · rfl
  have h3 : (if 108 ≤ h.2 ∧ d.maxC < 108 then raise 0xCF02 [die, h.1] s2 else s2).press.dies = s1.press.dies := by
    split
    · rw [raise_dies, h2]
    · exact h2
  rw [dieOf_congr h3]
  exact dieOf_updDie hdie

/-- A flag set from `a` degrees on and kept above `b`. -/
theorem latch_set {a b m : Nat} {old : Bool} (h : a ≤ m) : (decide (a ≤ m) || (old && decide (b < m))) = true := by
  rw [decide_eq_true h, Bool.true_or]

theorem latch_clear {a b m : Nat} {old : Bool} (h : m ≤ b) (hb : b < a) : (decide (a ≤ m) || (old && decide (b < m))) = false := by
  rw [decide_eq_false (by omega), decide_eq_false (by omega), Bool.and_false, Bool.or_false]

/-- Settles O12: from what one interval, one reading and one droop leave in a die. -/
theorem powerAndTemperature : Obligations.PowerAndTemperature := by
  unfold Obligations.PowerAndTemperature
  refine ⟨⟨?interval, ?floor⟩, ?reading, ?droop⟩
  case interval =>
    intro dws s die hdie hdue
    obtain ⟨hstart, hd⟩ := dieOf_powerCap (dws := dws) hdie hdue
    refine .of_next rfl ?_
    simp only [hstart, hd, capDie, capStep, true_and]
    refine ⟨fun h => if_pos h, fun h hcool => ?_, fun h h' => ?_, fun h hhot => ?_⟩
    · rw [if_neg (by omega), if_pos ⟨h, by simp [hcool]⟩]
    · rw [if_neg (by omega), if_neg (by omega)]
    · rw [if_neg (by omega), if_neg (by simp [hhot])]
  case floor =>
    intro s die hdie hticks hraised
    refine .of_next rfl ?_
    rw [capFloor, if_pos ⟨hticks, by simp [hraised]⟩, dieOf_raise, dieOf_updDie hdie, seen_raise_self]
    exact ⟨rfl, rfl⟩
  case reading =>
    intro s die rs hdie
    refine .of_next rfl ?_
    rw [dieOf_tempStep hdie]
    obtain ⟨hall, hone⟩ := hottest_spec (dieOf (sensorStep die rs s) die) rs
    generalize hottest (dieOf (sensorStep die rs s) die) rs = m at hall hone ⊢
    exact ⟨hall, hone, fun h => latch_set h, fun h => latch_clear h (by decide), fun h => latch_set h,
      fun h => latch_clear h (by decide)⟩
  case droop =>
    intro s die hdie
    refine .of_next rfl ⟨?_, fun k hk => dieOf_updDie_ne hk⟩
    rw [dieOf_updDie hdie]

end Sys2Proof.Machine

/-! R61, R62, R66 to R69: die links and Trellis messages. -/

namespace Sys2Proof.Machine

open Sys2Proof

/-! ### Die links (R66 to R69) -/

/-- The counter of a die's failed flits is none of the registers in which an event shows, and a die's update leaves it. -/
theorem flitFail_spec {s : State} {die : Nat} {f : Bool} (hdie : die < 4) :
    regVal (flitFail die f s) (0x0100000C + die * 0x400000) = min (2 ^ 32 - 1) (regVal s (0x0100000C + die * 0x400000) + 1) ∧
      (dieOf (flitFail die f s) die).retrainEnd =
        if f = true ∧ 7 ≤ (dieOf s die).replayFails then some (s.tick + 2) else (dieOf s die).retrainEnd := by
  unfold flitFail
  extract_lets n s1
  have hreg : regVal s1 (0x0100000C + die * 0x400000) = min (2 ^ 32 - 1) (regVal s (0x0100000C + die * 0x400000) + 1) := by
    rw [regVal_bump, if_pos rfl]
  have hn : 8 ≤ n ↔ f = true ∧ 7 ≤ (dieOf s die).replayFails := by
    unfold n
    cases f <;> simp
  split
  · next h => exact ⟨hreg, by rw [dieOf_updDie hdie, if_pos (hn.mp h)]⟩
  · next h => exact ⟨hreg, by rw [dieOf_updDie hdie, if_neg (mt hn.mpr h)]; rfl⟩

/-! ### The Trellis (R61 to R65) -/

theorem bit_raise {k : Nat} {a : List Nat} {r i : Nat} {s : State} (hr : r ∉ eventRegs) : bit (raise k a s) r i = bit s r i := by
  rw [bit, bit, raise_regVal k a s r hr]

theorem bit_setBits_of {s : State} {a m i : Nat} (h : m.testBit i = true) : bit (setBits a m s) a i = true := by
  rw [bit_setBits, h, Bool.or_true]

/-- A cluster's report of a tree sets the tree's bit, and leaves what the Press has missed and is to reissue. -/
theorem treeReport_spec (tree c : Nat) (s : State) : bit (treeReport tree c s) 0x00200060 tree = true ∧
    (treeReport tree c s).press.missed = s.press.missed ∧ (treeReport tree c s).press.reissue = s.press.reissue := by
  unfold treeReport
  extract_lets rs s1 n s2
  have h1 : bit s1 0x00200060 tree = true := by
    exact bit_setBits_of Nat.testBit_two_pow_self
  have h2 : bit s2 0x00200060 tree = true ∧ s2.press.missed = s.press.missed ∧ s2.press.reissue = s.press.reissue := by
    refine ⟨?_, ?_, ?_⟩
    · exact (bit_raise (by decide)).trans h1
    · exact raise_missed _ _ _
    · exact raise_reissue _ _ _
  split
  · exact ⟨h1, rfl, rfl⟩
  split
  · rw [bit_raise (by decide), raise_missed, raise_reissue]
    exact h2
  · exact h2

section

variable {s : State} {die cl m n : Nat} {edge : Bool} (hA : treeBad s 0 = false) (hB : treeBad s 1 = false)

include hA hB

theorem trellisEffect_agree : trellisEffect die cl edge (some m) (some m) s = s := by
  simp [trellisEffect, trellisAct, hA, hB]

theorem trellisEffect_missingB :
    trellisEffect die cl edge (some m) none s = treeReport 1 (die * 1024 + cl) s := by
  simp [trellisEffect, trellisAct, hA, hB]

theorem trellisEffect_missingA :
    trellisEffect die cl edge none (some m) s = treeReport 0 (die * 1024 + cl) s := by
  simp [trellisEffect, trellisAct, hA, hB]

/-- Two copies that differ set their bit; an EDGE message is missed, and a row's is to be issued again. -/
theorem trellisEffect_disagree (hne : m ≠ n) : trellisEffect die cl edge (some m) (some n) s =
    if edge = true then setBits 0x00200060 8 ((setBits 0x00200060 4 s).mapPress fun p =>
      { p with missed := insertRising (die * 1024 + cl) p.missed })
    else (setBits 0x00200060 4 s).mapPress fun p => { p with reissue := p.reissue ++ [die * 1024 + cl] } := by
  simp [trellisEffect, trellisAct, hA, hB, hne]

theorem trellisEffect_none : trellisEffect die cl true none none s =
    setBits 0x00200060 8 (s.mapPress fun p => { p with missed := insertRising (die * 1024 + cl) p.missed }) := by
  simp [trellisEffect, trellisAct, hA, hB]

end

theorem mem_insertRising (n : Nat) (l : List Nat) : n ∈ insertRising n l := by
  induction l with
  | nil => simp [insertRising]
  | cons a l ih =>
    rw [insertRising]
    grind

/-- Settles O13: from what one flit, one lane and one Trellis message leave. -/
theorem linksAndTrellis : Obligations.LinksAndTrellis := by
  unfold Obligations.LinksAndTrellis
  refine ⟨⟨?flit, ?retrain, ?lane⟩, ?trellis⟩
  case flit =>
    intro s die f hdie
    obtain ⟨hreg, hend⟩ := flitFail_spec (s := s) (f := f) hdie
    refine .of_next rfl ⟨hreg, fun hf h7 => ?_, fun h => ?_⟩
    · rw [hend, if_pos ⟨hf, h7⟩]
    · rw [hend, if_neg]
      rintro ⟨hf, h7⟩
      rcases h with h | h
      · exact Bool.false_ne_true (h.symm.trans hf)
      · omega
  case retrain =>
    intro s die e hdie he hdue
    refine .of_next rfl ?_
    rw [retrainDone, he, if_pos (by simpa using hdue), dieOf_updDie hdie]
  case lane =>
    intro s die hdie
    refine ⟨fun h => .of_next rfl ?_, fun h => .of_next rfl ?_, fun h => .of_next rfl ?_, fun h => .of_next rfl ?_⟩
    · rw [laneSpare, if_pos rfl, if_pos h, dieOf_raise, dieOf_updDie hdie, seen_raise_self]
      exact ⟨rfl, rfl, rfl⟩
    · rw [laneSpare, if_pos rfl, if_neg (by omega), dieOf_updDie hdie]
    · rw [laneSpare, if_neg Bool.false_ne_true, if_pos h, dieOf_raise, dieOf_updDie hdie, seen_raise_self]
      exact ⟨rfl, rfl, rfl⟩
    · rw [laneSpare, if_neg Bool.false_ne_true, if_neg (by omega), dieOf_updDie hdie]
  case trellis =>
    intro s die cl edge hA hB
    refine ⟨fun m => .of_next rfl (trellisEffect_agree hA hB), fun m => .of_next rfl ?_, fun m => .of_next rfl ?_,
      fun m n hne => .of_next rfl ?_, .of_next rfl ?_⟩
    · rw [trellisEffect_missingB hA hB]
      exact treeReport_spec 1 _ s
    · rw [trellisEffect_missingA hA hB]
      exact treeReport_spec 0 _ s
    · rw [trellisEffect_disagree hA hB hne]
      cases edge with
      | true =>
        refine ⟨?_, fun _ => mem_insertRising _ _, fun h => nomatch h⟩
        rw [if_pos rfl, bit_setBits]
        have h4 : bit (setBits 0x00200060 4 s) 0x00200060 2 = true := bit_setBits_of (by decide)
        exact Bool.or_eq_true_iff.mpr (.inl h4)
      | false =>
        refine ⟨?_, fun h => (nomatch h), fun _ => rfl⟩
        have h4 : bit (setBits 0x00200060 4 s) 0x00200060 2 = true := bit_setBits_of (by decide)
        exact h4
    · rw [trellisEffect_none hA hB]
      exact ⟨bit_setBits_of (by decide), mem_insertRising _ _⟩

end Sys2Proof.Machine

/-! R70 to R74, R82, R83, R85, R510: retirement, quarantine, PRS_CTRL.ENABLE and spot checks. -/

namespace Sys2Proof.Machine

open Sys2Proof

/-! ### Cores and their units -/

section

variable {s : State} {k : Nat} {f : CoreHist → CoreHist}

theorem coreHist_updCore : coreHist (updCore k f s) k = f (coreHist s k) := by
  rw [coreHist, updCore, State.mapPress_press, mgetD_mupdD, if_pos rfl, coreHist]

theorem coreHist_congr {t : State} (h : t.press.cores = s.press.cores) : coreHist t = coreHist s := by
  funext i
  rw [coreHist, coreHist, h]

theorem coreHist_updDie {i : Nat} {g : Die → Die} : coreHist (updDie i g s) = coreHist s := coreHist_congr rfl

theorem requeueWhere_cores (hit : WorkUnit → Bool) (s : State) : (requeueWhere hit s).press.cores = s.press.cores :=
  foldl_keeps (π := fun x : State => x.press.cores) (fun a _ => raise_cores _ _ a) _ _

theorem requeueWhere_bru (hit : WorkUnit → Bool) (s : State) : (requeueWhere hit s).bru = s.bru :=
  foldl_keeps (π := fun x : State => x.bru) (fun a _ => raise_bru _ _ a) _ _

theorem requeueWhere_units (hit : WorkUnit → Bool) (s : State) :
    (requeueWhere hit s).press.units = s.press.units.map fun u => if hit u then { u with requeue := u.requeue + 1 } else u :=
  foldl_keeps (π := fun x : State => x.press.units) (fun a _ => raise_units _ _ a) _ _

end

section

variable {s : State} {die cl core : Nat}

/-- A core that was retired moves its work to a spare of its cluster. -/
theorem retirementEffect_core (h2 : (coreHist s (coreKey die cl core)).state = 2)
    (hsp : (coreHist s (coreKey die cl core)).spared = false) (hfree : mgetD (dieOf s die).coresUsed cl 0 < 16) :
    retirementEffect die cl (some core) s = requeueWhere (fun u => u.die == die && u.cluster == cl)
      (updDie die (fun x => { x with coresUsed := mupdD x.coresUsed cl 0 (· + 1) })
        (updCore (coreKey die cl core) (fun h => { h with spared := true }) s)) := by
  rw [retirementEffect, if_neg (not_not.mpr h2), if_neg (by rw [hsp]; decide), takeSpare, if_pos]
  exact hfree

theorem retirementEffect_cluster (hspare : 0 < (dieOf s die).spareClusters) :
    retirementEffect die cl none s = requeueWhere (fun u => u.die == die && u.cluster == cl)
      (updDie die (fun x => { x with spareClusters := x.spareClusters - 1, coresUsed := mdel x.coresUsed cl })
        (s.mapBru fun b => { b with softClusters := insertRising (die * 2 ^ 11 + cl) b.softClusters })) := by
  simp only [retirementEffect, retireCluster, if_neg (Nat.pos_iff_ne_zero.mp hspare)]

end

/-! ### Spot checks (R82, R83) -/

/-- What spot checks count: checks, disagreements and EV_PRESS_SPOT_MISMATCH. -/
def spotCounts (s : State) : Nat × Nat × Nat := (regVal s 0x00200050, regVal s 0x00200054, seen s 0x8203)

theorem spotCounts_congr {s t : State} (hr : t.regs = s.regs) (hf : t.flt.counts = s.flt.counts) : spotCounts t = spotCounts s := by
  rw [spotCounts, regVal_congr hr, regVal_congr hr, seen, hf]
  rfl

theorem spotCounts_raise {c : Nat} {a : List Nat} {s : State} (hc : c ≠ 0x8203) : spotCounts (raise c a s) = spotCounts s := by
  rw [spotCounts, raise_regVal _ _ _ _ (by decide), raise_regVal _ _ _ _ (by decide), seen_raise _ _ _ _ (by decide) (by decide),
    if_neg hc]
  rfl

theorem spotCounts_bumpBy {a n : Nat} {s : State} (h0 : a ≠ 0x00200050) (h4 : a ≠ 0x00200054) :
    spotCounts (bumpBy a n s) = spotCounts s := by
  rw [spotCounts, regVal_bumpBy, if_neg h0, regVal_bumpBy, if_neg h4]
  rfl

theorem spotCounts_ledgerWrite (k c : Nat) (b : List Byte) (s : State) : spotCounts (ledgerWrite k c b s) = spotCounts s := by
  obtain ⟨x, y, h⟩ := ledgerWrite_eq k c b s
  rw [h]
  rfl

theorem spotCounts_mapFlt {g : Flt → Flt} {s : State} (hg : ∀ f, (g f).counts = f.counts) : spotCounts (s.mapFlt g) = spotCounts s :=
  spotCounts_congr rfl (hg _)

theorem spotCounts_retireIfDue (die cl core : Nat) (spot : Bool) (s : State) :
    spotCounts (retireIfDue die cl core spot s) = spotCounts s := by
  unfold retireIfDue
  extract_lets k s1 s2
  split
  · exact (spotCounts_bumpBy (by decide) (by decide)).trans ((spotCounts_ledgerWrite ..).trans (spotCounts_raise (by decide)))
  · rfl

theorem spotCounts_reportSuspects (c : Nat) (s : State) : spotCounts (reportSuspects c s) = spotCounts s := by
  unfold reportSuspects
  extract_lets start l s1 body s2
  have h2 : spotCounts s2 = spotCounts s1 := by
    unfold s2
    rw [spotCounts_bumpBy (by decide) (by decide), spotCounts_ledgerWrite]
  have h1 : spotCounts s1 = spotCounts s := spotCounts_raise (by decide)
  rw [spotCounts_mapFlt, h2, h1]
  exact fun _ => rfl

theorem spotCounts_recordFail (f : CheckFail) (s : State) : spotCounts (recordFail f s) = spotCounts s := spotCounts_congr rfl rfl

theorem spotCounts_spotFaulty (c : Nat) (cores : List CheckFail) (s : State) : spotCounts (spotFaulty c cores s) = spotCounts s := by
  rw [spotFaulty, spotCounts_reportSuspects]
  exact foldl_keeps (π := spotCounts) (fun _ _ => (spotCounts_retireIfDue ..).trans (spotCounts_recordFail ..)) _ _

theorem spotCounts_spotDisagree (c : Nat) (s : State) : spotCounts (spotDisagree c s) = spotCounts s := by
  unfold spotDisagree
  extract_lets l n s1 s2 s3
  split
  · have h2 : spotCounts s2 = spotCounts s1 := by
      refine foldl_keeps (π := spotCounts) (fun a e => ?_) _ _
      exact spotCounts_congr rfl rfl
    exact (spotCounts_bumpBy (by decide) (by decide)).trans (h2.trans (spotCounts_congr rfl rfl))
  · refine Eq.trans ?_ (spotCounts_congr (s := s) (t := s3) rfl rfl)
    refine foldl_keeps (π := spotCounts) (fun a e => ?_) _ _
    exact spotCounts_congr rfl rfl

section

variable {s : State} {die cl die2 cl2 : Nat} {cores : List CheckFail} (hrun : s.press.running = true) (hon : bit s 0x00200004 16 = true)
  (htick : s.tick % 16 = 0)

include hrun hon htick

theorem spotEffect_agree : spotEffect die cl die2 cl2 0 cores s = spotClean (die * 1024 + cl) (bump 0x00200050 s) := by
  simp [spotEffect, hrun, hon, htick]

/-- A disagreement is counted with its event, whoever is found at fault. -/
theorem spotCounts_spotEffect {k : Nat} (hk : k ≠ 0) :
    spotCounts (spotEffect die cl die2 cl2 k cores s) =
      spotCounts (bump 0x00200054 (raise 0x8203 [die, cl] (bump 0x00200050 s))) := by
  rw [spotEffect, if_neg (by simp [hrun, hon, htick])]
  dsimp only
  rw [if_neg hk]
  split
  · exact spotCounts_spotFaulty ..
  split
  · exact spotCounts_spotFaulty ..
  · exact spotCounts_spotDisagree ..

end

/-- Settles O14: from what one retirement, one quarantine's end and one spot check leave. -/
theorem retirementAndSpotChecks : Obligations.RetirementAndSpotChecks := by
  unfold Obligations.RetirementAndSpotChecks
  refine ⟨⟨?core, ?cluster, ?quarantine, ?enable⟩, ?spot⟩
  case core =>
    intro s die cl core hdie h2 hsp hfree
    refine .of_next rfl ?_
    rw [retirementEffect_core h2 hsp hfree, coreHist_congr (requeueWhere_cores ..), dieOf_congr (requeueWhere_dies ..),
      requeueWhere_units, dieOf_updDie hdie, coreHist_updDie]
    refine ⟨congrArg CoreHist.spared coreHist_updCore, ?_, rfl⟩
    dsimp only
    rw [mgetD_mupdD, if_pos rfl]
    rfl
  case cluster =>
    intro s die cl hdie hspare
    refine .of_next rfl ?_
    rw [retirementEffect_cluster hspare, dieOf_congr (requeueWhere_dies ..), requeueWhere_bru, dieOf_updDie hdie]
    exact ⟨rfl, rfl⟩
  case quarantine =>
    intro s die cl core hdie h1 hpast
    refine .of_next rfl ?_
    rw [quarantineEnd, if_pos ⟨h1, hpast⟩, dieOf_updDie hdie, coreHist_updDie]
    refine ⟨congrArg CoreHist.state coreHist_updCore, congrArg CoreHist.spared coreHist_updCore, ?_⟩
    dsimp only
    rw [mgetD_mupdD, if_pos rfl]
    rfl
  case enable =>
    intro s on
    refine .of_next rfl ⟨?_, rfl⟩
    rw [bit, regVal_fldSet, if_pos rfl, bitOf_putBits_b2n]
  case spot =>
    intro s die cl die2 cl2 hrun hon htick
    refine ⟨fun cores => .of_next rfl ?_, fun k cores hk => .of_next rfl ?_⟩
    · rw [spotEffect_agree hrun hon htick]
      refine ⟨?_, mget_mset_same .., rfl⟩
      exact (regVal_bump s 0x00200050 0x00200050).trans (if_pos rfl)
    · have h := spotCounts_spotEffect (die := die) (cl := cl) (die2 := die2) (cl2 := cl2) (cores := cores) hrun hon htick hk
      have h0 : regVal _ 0x00200050 = regVal _ 0x00200050 := congrArg (·.1) h
      have h4 : regVal _ 0x00200054 = regVal _ 0x00200054 := congrArg (·.2.1) h
      have h8 : seen _ 0x8203 = seen _ 0x8203 := congrArg (·.2.2) h
      rw [h0, h4, h8, regVal_bump, if_neg (by decide), raise_regVal _ _ _ _ (by decide), regVal_bump, if_pos rfl, regVal_bump,
        if_pos rfl, raise_regVal _ _ _ _ (by decide), regVal_bump, if_neg (by decide)]
      exact ⟨rfl, rfl, seen_raise_self⟩

end Sys2Proof.Machine

/-! What raised events and mailbox datagrams leave of schedulers and host port, and what the answer to a mailbox command leaves of the
state. -/

namespace Sys2Proof.Machine

open Sys2Proof

/-! ### Schedulers and their queues -/

theorem queueItems_eq {s : State} {n q : Nat} (hn : n < 5) (hq : q < 16) : queueItems s n q = ((schedOf s n).queue q).items := by
  have h : s.qos[n]? = some (schedOf s n) := by simp [schedOf, vget, Array.getD, hn]
  rw [queueItems, h]
  have h' : (schedOf s n).queues[q]? = some ((schedOf s n).queue q) := by simp [Sched.queue, vget, Array.getD, hq]
  simp only [h']

theorem schedOf_mapQos {s : State} {n k : Nat} {f : Sched → Sched} :
    schedOf (s.mapQos fun v => vupd v n f) k = if n = k ∧ n < 5 then f (schedOf s k) else schedOf s k := by
  rw [schedOf, State.mapQos_qos, vget_vupd]
  split
  · next h => rw [h.1, schedOf]
  · rfl

theorem queue_updQueue {c : Sched} {q k : Nat} {f : EQueue → EQueue} :
    (c.updQueue q f).queue k = if q = k ∧ q < 16 then f (c.queue k) else c.queue k := by
  rw [Sched.queue, Sched.updQueue, vget_vupd]
  split
  · next h => rw [h.1, Sched.queue]
  · rfl

theorem schedOf_enqueue {s : State} {n q k : Nat} {it : EItem} : schedOf (enqueue n q it s) k =
    if n = k ∧ n < 5 then (schedOf s k).updQueue q fun e => { e with items := e.items ++ [(s.tick, it)] } else schedOf s k :=
  schedOf_mapQos

/-- What enters a queue stands at its end; the other queues stay. -/
theorem queueItems_enqueue {s : State} {n q k j : Nat} {it : EItem} (hk : k < 5) (hj : j < 16) : queueItems (enqueue n q it s) k j =
    if n = k ∧ q = j then queueItems s k j ++ [(s.tick, it)] else queueItems s k j := by
  rw [queueItems_eq hk hj, queueItems_eq hk hj, schedOf_enqueue]
  by_cases hn : n = k
  · subst hn
    rw [if_pos ⟨rfl, hk⟩, queue_updQueue]
    by_cases hq : q = j
    · subst hq
      rw [if_pos ⟨rfl, hj⟩, if_pos ⟨rfl, rfl⟩]
    · rw [if_neg (fun h => hq h.1), if_neg (fun h => hq h.2)]
  · rw [if_neg (fun h => hn h.1), if_neg (fun h => hn h.1)]

/-! ### Mail: what joins Q1 of the host port's scheduler -/

/-- From one state to the other only sessions have changed of the host port, and of the schedulers only what waits in Q1 of the host
port's, which has been added to. -/
structure Mails (s t : State) : Prop where
  host : { t.host with sessions := s.host.sessions } = s.host
  sched : ∀ n, { schedOf t n with queues := (schedOf s n).queues } = schedOf s n
  queue : ∃ l, ∀ n q, (schedOf t n).queue q =
    if n = 0 ∧ q = 1 then { (schedOf s n).queue q with items := ((schedOf s n).queue q).items ++ l } else (schedOf s n).queue q

section

variable {s t u : State}

theorem Mails.of_eq (hh : t.host = s.host) (hq : t.qos = s.qos) : Mails s t := by
  have hs : schedOf t = schedOf s := by
    funext n
    rw [schedOf, schedOf, hq]
  refine ⟨by rw [hh], fun n => by rw [hs], [], fun n q => ?_⟩
  rw [hs, List.append_nil]
  split <;> rfl

theorem Mails.refl : Mails s s := .of_eq rfl rfl

theorem Mails.trans (h : Mails s t) (hu : Mails t u) : Mails s u := by
  obtain ⟨l, hl⟩ := h.queue
  obtain ⟨r, hr⟩ := hu.queue
  refine ⟨?_, fun n => ?_, l ++ r, fun n q => ?_⟩
  · rw [← h.host, ← hu.host]
  · rw [← h.sched n, ← hu.sched n]
  · rw [hr, hl]
    by_cases hq : n = 0 ∧ q = 1
    · rw [if_pos hq, if_pos hq, if_pos hq, List.append_assoc]
    · rw [if_neg hq, if_neg hq, if_neg hq]

theorem Mails.mapHost {f : HostPort → HostPort} (h : Mails s t) (hf : ∀ x, { f x with sessions := x.sessions } = x) :
    Mails s (t.mapHost f) :=
  h.trans ⟨hf t.host, fun _ => rfl, [], fun n q => by rw [List.append_nil]; split <;> rfl⟩

theorem Mails.same (h : Mails s t) (hh : u.host = t.host := by rfl) (hq : u.qos = t.qos := by rfl) : Mails s u := h.trans (.of_eq hh hq)

theorem Mails.enqueue {it : EItem} (h : Mails s t) : Mails s (enqueue 0 1 it t) := by
  refine h.trans ⟨rfl, fun n => ?_, [(t.tick, it)], fun n q => ?_⟩
  · rw [schedOf_enqueue]
    split <;> rfl
  · rw [schedOf_enqueue]
    by_cases hn : n = 0
    · subst hn
      rw [if_pos ⟨rfl, by decide⟩, queue_updQueue]
      by_cases hq : q = 1
      · subst hq
        rw [if_pos ⟨rfl, by decide⟩, if_pos ⟨rfl, rfl⟩]
      · rw [if_neg (fun h => hq h.1.symm), if_neg (fun h => hq h.2)]
    · rw [if_neg (fun h => hn h.1.symm), if_neg (fun h => hn h.1)]

theorem Mails.ite {c : Prop} {_ : Decidable c} (ht : Mails s t) (hu : Mails s u) : Mails s (if c then t else u) := by
  split
  · exact ht
  · exact hu

theorem Mails.foldl {α : Type} {l : List α} {f : State → α → State} (h : Mails s t) (hf : ∀ u a, Mails s u → Mails s (f u a)) :
    Mails s (l.foldl f t) :=
  List.foldlRecOn l f h fun u hu a _ => hf u a hu

variable (h : Mails s t)

include h

theorem Mails.mbxSend {sid kind mailbox reqSeq : Nat} {body : List Byte} : Mails s (mbxSend sid kind mailbox reqSeq body t) := by
  unfold Machine.mbxSend
  split
  · exact h
  · exact h.enqueue.mapHost fun _ => rfl

theorem Mails.bump {a : Nat} : Mails s (bump a t) := h.same

theorem Mails.setBits {a m : Nat} : Mails s (setBits a m t) := h.same

theorem Mails.mapFlt {f : Flt → Flt} : Mails s (t.mapFlt f) := h.same

theorem Mails.ledgerWrite {kind code : Nat} {body : List Byte} : Mails s (ledgerWrite kind code body t) := by
  obtain ⟨x, y, he⟩ := ledgerWrite_eq kind code body t
  rw [he]
  exact h.mapFlt

theorem Mails.deliverEvent {e : EventRec} : Mails s (deliverEvent e t) := by
  unfold Machine.deliverEvent
  refine h.foldl fun u x hu => ?_
  split
  · exact .ite hu.mbxSend hu
  · exact .ite hu.mbxSend hu

theorem Mails.beginCapture {code : Nat} : Mails s (beginCapture code t) := by
  unfold Machine.beginCapture
  split
  · exact h.same
  · exact .ite h h.same

theorem Mails.countEvent {code : Nat} {held : Bool} : Mails s (countEvent code held t) := by
  have h2 : Mails s (Machine.bump (classCounter (evClass code)) t) := h.bump
  have h3 : Mails s (if held then Machine.bump 0x00340058 (Machine.bump (classCounter (evClass code)) t)
    else Machine.bump (classCounter (evClass code)) t) := .ite h2.bump h2
  exact .ite h3.setBits.setBits h3

theorem Mails.stopIfFatal {code : Nat} : Mails s (stopIfFatal code t) := .ite h.same h

theorem Mails.noteEvent {e : EventRec} : Mails s (noteEvent e t) := h.same

theorem Mails.raiseCore {code : Nat} {args : List Nat} : Mails s (raiseCore code args t) := by
  unfold Machine.raiseCore
  extract_lets u e s5
  have hu : Mails s u := .ite h.beginCapture h
  have h5 : Mails s s5 := hu.noteEvent.countEvent.stopIfFatal
  exact .ite h5.deliverEvent h5

theorem Mails.dropWarning {code : Nat} : Mails s (dropWarning code t) := by
  unfold Machine.dropWarning
  extract_lets s1
  have h1 : Mails s s1 := h.mapFlt.bump
  exact .ite h1.mapFlt.raiseCore h1

theorem Mails.warnRecord {code : Nat} {e : EventRec} : Mails s (warnRecord code e t) :=
  .ite h (.ite h.mapFlt.ledgerWrite h.dropWarning)

theorem Mails.ledgerEvent {code : Nat} {e : EventRec} : Mails s (ledgerEvent code e t) := by
  unfold Machine.ledgerEvent
  extract_lets s1 s2
  have h1 : Mails s s1 := h.ledgerWrite
  have h2 : Mails s s2 := h1.mapFlt.raiseCore
  exact .ite h2.warnRecord h1

theorem Mails.raise {code : Nat} {args : List Nat} : Mails s (raise code args t) := by
  have h1 := h.raiseCore (code := code) (args := args)
  exact .ite h1.ledgerEvent (.ite h1.warnRecord h1)

omit h in
theorem raise_mails (code : Nat) (args : List Nat) (s : State) : Mails s (raise code args s) := Mails.refl.raise

/-- A field of the schedulers other than their queues. -/
theorem Mails.sched_field {γ : Type} (π : Sched → γ) (hπ : ∀ c v, π { c with queues := v } = π c) (n : Nat) :
    π (schedOf t n) = π (schedOf s n) :=
  (hπ _ _).symm.trans (congrArg π (h.sched n))

/-- A field of the host port other than its sessions. -/
theorem Mails.host_field {γ : Type} (π : HostPort → γ) (hπ : ∀ c v, π { c with sessions := v } = π c) : π t.host = π s.host :=
  (hπ _ _).symm.trans (congrArg π h.host)

theorem Mails.items {n q : Nat} (hn : n < 5) (hq : q < 16) (hne : ¬ (n = 0 ∧ q = 1)) : queueItems t n q = queueItems s n q := by
  obtain ⟨l, hl⟩ := h.queue
  rw [queueItems_eq hn hq, queueItems_eq hn hq, hl, if_neg hne]

end

/-! ### Answers to mailbox commands -/

section

variable {s u : State} {m st d code : Nat} {data : List Byte}

@[simp] theorem mbxAnswer_pending : (mbxAnswer m st d data s).pending = s.pending := by simp [mbxAnswer, updMbx, bump]
@[simp] theorem mbxAnswer_tick : (mbxAnswer m st d data s).tick = s.tick := by simp [mbxAnswer, updMbx]
@[simp] theorem mbxAnswer_free : (mbxAnswer m st d data s).free = s.free := by simp [mbxAnswer, updMbx]
@[simp] theorem mbxAnswer_coll : (mbxAnswer m st d data s).coll = s.coll := by simp [mbxAnswer, updMbx]
@[simp] theorem mbxAnswer_press : (mbxAnswer m st d data s).press = s.press := by simp [mbxAnswer, updMbx, mbxSend_flt]
@[simp] theorem mbxAnswer_cmp : (mbxAnswer m st d data s).cmp = s.cmp := by simp [mbxAnswer, updMbx]
@[simp] theorem mbxAnswer_cellar : (mbxAnswer m st d data s).cellar = s.cellar := by simp [mbxAnswer, updMbx]
@[simp] theorem mbxAnswer_mem : (mbxAnswer m st d data s).mem = s.mem := by simp [mbxAnswer, updMbx]
@[simp] theorem mbxAnswer_line : (mbxAnswer m st d data s).line = s.line := by simp [mbxAnswer, updMbx]
@[simp] theorem mbxAnswer_opt : (mbxAnswer m st d data s).opt = s.opt := by simp [mbxAnswer, updMbx]
@[simp] theorem mbxAnswer_sec : (mbxAnswer m st d data s).sec = s.sec := by simp [mbxAnswer, updMbx]
@[simp] theorem mbxAnswer_sites : (mbxAnswer m st d data s).sites = s.sites := by simp [mbxAnswer, updMbx]
@[simp] theorem mbxAnswer_flt : (mbxAnswer m st d data s).flt = s.flt := by simp [mbxAnswer, updMbx, mbxSend_flt]
@[simp] theorem mbxAnswer_time : (mbxAnswer m st d data s).time = s.time := by simp [mbxAnswer, updMbx]
@[simp] theorem mbxAnswer_bru : (mbxAnswer m st d data s).bru = s.bru := by simp [mbxAnswer, updMbx]
@[simp] theorem mbxAnswer_out : (mbxAnswer m st d data s).out = s.out := by simp [mbxAnswer, updMbx]

/-- Of management an answer changes the mailboxes and their order. -/
theorem mbxAnswer_mgt : (mbxAnswer m st d data s).mgt =
    { s.mgt with
      mbx := vupd s.mgt.mbx m fun y => { y with
        waiting := false, deferred := false, resp := some (responseBytes (mbxOf s m).code st (mbxOf s m).token s.tick d data) }
      order := s.mgt.order.filter (· != m) } := by
  simp [mbxAnswer, updMbx]

theorem mbxAnswer_regVal {a : Nat} (ha : a ≠ 0x00000040) : regVal (mbxAnswer m st d data s) a = regVal s a := by
  rw [mbxAnswer, regVal_bump, if_neg (Ne.symm ha)]
  exact regVal_congr (mbxSend_flt ..).2.2 a

theorem mbxAnswer_mails (m st d : Nat) (data : List Byte) (s : State) : Mails s (mbxAnswer m st d data s) := by
  unfold mbxAnswer
  extract_lets x r s1 s2
  have h : Mails s s2 := .of_eq rfl rfl
  exact h.mbxSend.bump

/-- A command's effect that leaves mailboxes and tick is answered as its own request. -/
theorem answered (hm : m < 8) (hmbx : u.mgt.mbx = s.mgt.mbx := by rfl) (htick : u.tick = s.tick := by rfl) :
    Answered s (mbxAnswer m st d data u) m st d data := by
  have h := mbxAnswer_answered u st d data hm
  have hx : mbxOf u m = mbxOf s m := by rw [mbxOf, mbxOf, hmbx]
  rwa [Answered, hx, htick] at h

/-- What a called command comes to. -/
theorem runCmdWith_called {ses : Session} {keep : Bool} {f : Nat → Nat → State → CmdRes} {st d : Nat} {data : List Byte} {u : State}
    (h : Called s m code ses) (hf : f ses.role (mbxOf s m).session s = ⟨st, d, data, u, false⟩) :
    runCmdWith keep m code f s = mbxAnswer m st d data (if st = 0 ∨ keep then u else s) := by
  obtain ⟨-, hruns, hses, hstate, howner⟩ := h
  have ho : ¬ (ownerOnly code = true ∧ ses.role ≠ 1) := fun h => h.2 (howner h.1)
  simp only [runCmdWith, hruns, hses, hstate, hf, if_neg ho]
  simp

section

variable {ses : Session} {f : Nat → Nat → State → CmdRes} (h : Called s m code ses)

include h

theorem runCmd_doneWith (hf : f ses.role (mbxOf s m).session s = doneWith data u) :
    runCmd m code f s = mbxAnswer m 0 0 data u := by
  rw [runCmd, runCmdWith_called h hf, if_pos (.inl rfl)]

theorem runCmd_done (hf : f ses.role (mbxOf s m).session s = done u) : runCmd m code f s = mbxAnswer m 0 0 [] u :=
  runCmd_doneWith h hf

theorem runCmd_refuseD (hf : f ses.role (mbxOf s m).session s = refuseD st d u) (hst : st ≠ 0 := by decide) :
    runCmd m code f s = mbxAnswer m st d [] s := by
  rw [runCmd, runCmdWith_called h hf, if_neg (by simp [hst])]

theorem runCmd_refuse (hf : f ses.role (mbxOf s m).session s = refuse st u) (hst : st ≠ 0 := by decide) :
    runCmd m code f s = mbxAnswer m st 0 [] s := runCmd_refuseD h hf hst

end

end

end Sys2Proof.Machine

/-! R198, R200, R437, R453, R567: the tick edge, commits at their edge, timeouts. -/

namespace Sys2Proof.Machine

open Sys2Proof

/-! ### What a function spares of one part -/

theorem free_of_not_mem {q : Part} {F : List Part} (h : q ∉ F := by decide) : Free (· = q) F := fun _ hp he => h (he ▸ hp)

theorem Spares.part {q : Part} {s t : State} (h : Spares (· = q) s t) (hq : q ∈ Part.followed := by decide) : q.Same s t :=
  h.kept q hq rfl

/-! ### The tick edge (R453, R567) -/

theorem tickEffect_tick (s : State) : (tickEffect s).tick = s.tick + 1 := by
  have hfree : Free (· = Part.tick) [.programs, .groups, .commits, .instances, .aborts, .reserved, .units, .dies, .pressing, .blends,
    .queues, .casks, .areas, .sysLock] := free_of_not_mem
  have h : Part.tick.Same (advance s) (tickEffect s) := Spares.refl.edgeSteps.applyLock.edgeEnd.part
  exact h

theorem tickEffect_counter (s : State) : (tickEffect s).time.counter = (s.time.counter + tickAdvance s.time.f) % counterWrap := by
  have hfree : Free (· = Part.counter) [.programs, .groups, .commits, .instances, .aborts, .reserved, .units, .dies, .pressing, .blends,
    .queues, .casks, .areas, .sysLock] := free_of_not_mem
  obtain ⟨h, -, -⟩ : Part.counter.Same (advance s) (tickEffect s) := Spares.refl.edgeSteps.applyLock.edgeEnd.part
  exact h

theorem applyLock_sysLock (s : State) : (applyLock s).mgt.sysLock = (s.mgt.sysLock || s.mgt.lockNext) ∧
    (applyLock s).mgt.lockNext = false := by
  unfold applyLock
  split
  · next h => rw [h, Bool.or_true]; exact ⟨rfl, rfl⟩
  · next h =>
    have hf : s.mgt.lockNext = false := Bool.eq_false_iff.mpr h
    rw [hf, Bool.or_false]
    exact ⟨rfl, rfl⟩

theorem tickEffect_sysLock (s : State) : (tickEffect s).mgt.sysLock = (s.mgt.sysLock || s.mgt.lockNext) ∧
    (tickEffect s).mgt.lockNext = false := by
  have hfree : Free (· = Part.sysLock) [.programs, .groups, .commits, .instances, .aborts, .reserved, .units, .dies, .pressing, .blends,
    .queues, .casks, .areas, .counter, .tick] := free_of_not_mem
  obtain ⟨hlock, hnext⟩ : Part.sysLock.Same s (edgeSteps (advance s)) := Spares.refl.advance.edgeSteps.part
  obtain ⟨hlock', hnext'⟩ : Part.sysLock.Same (applyLock (edgeSteps (advance s))) (tickEffect s) := Spares.refl.edgeEnd.part
  obtain ⟨h1, h2⟩ := applyLock_sysLock (edgeSteps (advance s))
  rw [hlock', hnext', h1, h2, hlock, hnext]
  exact ⟨rfl, rfl⟩

/-! ### Commits (R165, R175, R178, R437) -/

theorem mapColl_congr {s : State} {f g : Coll → Coll} (h : f s.coll = g s.coll) : s.mapColl f = s.mapColl g := by
  rw [State.mapColl, h]
  rfl

theorem applyCommits_due {s : State} {c : Commit} {i : StagedItem} (hc : s.coll.commits = [c]) (hi : c.items = [i])
    (hdue : c.edge ≤ s.tick) : applyCommits s =
      raise 0x1301 [c.id, c.edge % 2 ^ 32, 1] (commitItem (s.mapColl fun c => { c with commits := [] }) i) := by
  have h : s.mapColl (fun c => { c with commits := c.commits.filter fun k => !decide (k.edge ≤ s.tick) }) =
      s.mapColl fun c => { c with commits := [] } := mapColl_congr (by simp [hc, hdue])
  simp [applyCommits, h, hc, hi, hdue]

theorem applyCommits_early {s : State} {c : Commit} (hc : s.coll.commits = [c]) (hearly : s.tick < c.edge) : applyCommits s = s := by
  have hkept : s.coll.commits.filter (fun k => !decide (k.edge ≤ s.tick)) = s.coll.commits := by simp [hc, hearly]
  have h : s.mapColl (fun c => { c with commits := c.commits.filter fun k => !decide (k.edge ≤ s.tick) }) = s :=
    mapColl_congr (g := id) (by rw [hkept]; rfl)
  simp [applyCommits, h, hc, hearly]

/-- The standby table of a group becomes the one in force. -/
theorem commitGroup_groups {s : State} {g : Nat} {r : GroupRec} {b : GroupTable} (hr : mget s.coll.groups g = some r)
    (hb : r.standby = some b) (hv : b.valid = true) : ∃ q, mget (commitGroup g s).coll.groups g = some q ∧ q.current = some b ∧
      q.standby = none ∧ q.lastCommitted = r.lastCommitted := by
  have h : mget (commitGroup g s).coll.groups g = _ := mget_mupd_same _ _ _
  rw [h, hr]
  exact ⟨_, rfl, by simp [hb, hv], by simp [hb], by simp [hb]⟩

theorem schedSwitch_active {s : State} {n k : Nat} (hn : n < 5) :
    (schedOf (schedSwitch n s) k).active = if n = k then (schedOf s k).standby else (schedOf s k).active := by
  rw [schedSwitch, schedOf_mapQos]
  by_cases h : n = k
  · rw [if_pos ⟨h, hn⟩, if_pos h]
  · rw [if_neg fun e => h e.1, if_neg h]

/-! ### Timeouts (R200) -/

theorem testTimeouts_one {s : State} {x : Instance} (hx : s.coll.insts = [(ikey x.group x.inst, x)]) (hout : timedOut s x = true) :
    testTimeouts s = enterAborting x.group x.inst 0x0301 0 0 true s := by
  simp [testTimeouts, hx, hout]

section

variable {s : State} {x : Instance} {g i c dk d : Nat} {notify : Bool} (hx : instOf s g i = some x) (hph : x.phase ≠ .aborting)

include hx hph

/-- What an abort leaves: the phase, no chunks, and no unit in the Press. -/
theorem enterAborting_spec : instOf (enterAborting g i c dk d notify s) g i =
      some { x with phase := .aborting, ownCode := c, detailKind := dk, detail := d, chunks := [] } ∧
    ∀ u ∈ (enterAborting g i c dk d notify s).press.units, ¬ (u.group = g ∧ u.inst = i) := by
  have hfree : Free (· = Part.instances) [.queues, .casks] := free_of_not_mem
  have hfree' : Free (· = Part.units) [.queues, .casks] := free_of_not_mem
  simp only [enterAborting, hx, if_neg hph]
  generalize hs1 : freeCasks (contribCasks x) (dropQueued g i s) = s1
  have h1 : s1.coll.insts = s.coll.insts := by
    have h : Spares (· = Part.instances) s s1 := hs1 ▸ Spares.refl.dropQueued.freeCasks
    obtain ⟨h, -⟩ : Part.instances.Same s s1 := h.part
    exact h
  generalize hs3 : updInst g i _ (s1.mapPress _) = s3
  have hinst : instOf s3 g i = some { x with phase := .aborting, ownCode := c, detailKind := dk, detail := d, chunks := [] } := by
    rw [← hs3, instOf, updInst, State.mapColl_coll, mget_mupd_same, State.mapPress_coll, h1, ← instOf, hx]
    rfl
  have hunits : ∀ u ∈ s3.press.units, ¬ (u.group = g ∧ u.inst = i) := by
    rw [← hs3]
    intro u hu
    obtain ⟨-, hk⟩ := List.mem_filter.mp hu
    rintro ⟨rfl, rfl⟩
    simp at hk
  split
  · next b _ =>
    split
    · obtain ⟨hi, -⟩ : Part.instances.Same s3 (toFars b none ctlAbort [g, i, c, b.localSite] s3) := Spares.refl.toFars.part
      obtain ⟨hu, -⟩ : Part.units.Same s3 (toFars b none ctlAbort [g, i, c, b.localSite] s3) := Spares.refl.toFars.part
      rw [hu, instOf, hi]
      exact ⟨hinst, hunits⟩
    · exact ⟨hinst, hunits⟩
  · exact ⟨hinst, hunits⟩

end

/-- Settles O16: from what an edge, a commit and a timeout leave. -/
theorem edgesCommitsAndTimeouts : Obligations.EdgesCommitsAndTimeouts := by
  unfold Obligations.EdgesCommitsAndTimeouts
  refine ⟨?edge, ⟨?group, ?qos, ?early⟩, ?timeout⟩
  case edge =>
    intro s
    exact .of_next rfl ⟨tickEffect_tick s, tickEffect_counter s, tickEffect_sysLock s⟩
  case group =>
    intro s c g r b hc hi hdue hr hb hv
    refine .of_next rfl ?_
    rw [applyCommits_due hc hi hdue, raise_coll, seen_raise_self]
    exact ⟨rfl, rfl, commitGroup_groups hr hb hv⟩
  case qos =>
    intro s c n hn hc hi hdue
    refine .of_next rfl ?_
    rw [applyCommits_due hc hi hdue]
    have h : ∀ k, _ = (schedOf (schedSwitch n (s.mapColl fun c => { c with commits := [] })) k).active :=
      (raise_mails 0x1301 [c.id, c.edge % 2 ^ 32, 1] _).sched_field (·.active) fun _ _ => rfl
    refine ⟨(h n).trans ?_, fun k _ hk => (h k).trans ?_⟩
    · rw [schedSwitch_active hn, if_pos rfl]
      rfl
    · rw [schedSwitch_active hn, if_neg (Ne.symm hk)]
      rfl
  case early =>
    intro s c hc hearly
    exact .of_next rfl (applyCommits_early hc hearly)
  case timeout =>
    intro s x hx hout
    refine .of_next rfl ?_
    have hinst : instOf s x.group x.inst = some x := by rw [instOf, hx]; simp [mget]
    have hph : x.phase ≠ .aborting := by
      intro h
      simp [timedOut, h] at hout
    rw [testTimeouts_one hx hout]
    exact enterAborting_spec hinst hph

end Sys2Proof.Machine

/-! R254, R301 to R303, R307: the timers of host streams, and priority flow control both ways. -/

namespace Sys2Proof.Machine

open Sys2Proof

/-! ### Streams -/

section

variable {s t : State} {id : Nat} {f : StreamCtx → StreamCtx}

theorem updStream_streams {c : StreamCtx} (hc : mget s.host.streams id = some c) : mget (updStream id f s).host.streams id = some (f c) := by
  rw [updStream, State.mapHost_host, mget_mupd_same, hc]
  rfl

theorem raise_streams (c : Nat) (a : List Nat) (s : State) : (raise c a s).host.streams = s.host.streams :=
  (raise_mails c a s).host_field (·.streams) fun _ _ => rfl

/-- A NACK takes its place in Q2 and is counted. -/
theorem sendNack_nack {c : StreamCtx} {r : Nat} {rs : List (Nat × Nat)} (hc : mget s.host.streams id = some c) (hr : r ≠ 0) :
    sendNack id r rs s = bump 0x00040064 (updStream id (fun x => { x with nacksTx := x.nacksTx + 1 })
      (enqueue 0 2 (.nack id (nackPayload ((c.inNext + 2 ^ 32 - 1) % 2 ^ 32) r (if r = 2 then nackRetry s else 0) rs)) s)) := by
  simp only [sendNack, hc, if_neg hr]

theorem sendAck_eq {c : StreamCtx} (hc : mget s.host.streams id = some c) : sendAck id s =
    updStream id (fun x => { x with ackFrom := s.tick, ackOwed := false })
      (enqueue 0 2 (.nack id (nackPayload ((c.inNext + 2 ^ 32 - 1) % 2 ^ 32) 0 0 [])) s) := by
  simp only [sendAck, sendNack, hc]
  rw [if_pos trivial, if_neg (show (0 : Nat) ≠ 2 by decide)]

theorem pfcFollow_streams (s : State) : (pfcFollow s).host.streams = s.host.streams := by
  have hsend : ∀ q, (sendPfc q s).host.streams = s.host.streams := by
    intro q
    rw [sendPfc]
    split <;> rfl
  rw [pfcFollow]
  split
  · exact hsend _
  split
  · exact hsend _
  · rfl

/-- The thresholds of a class concern no stream. -/
theorem caskEval_streams (c : Nat) (s : State) : (caskEval c s).host.streams = s.host.streams := by
  unfold caskEval
  extract_lets k a total st w b r s1 s2 s3 s4
  have hraise : ∀ (d : Bool) (e : Nat) (u : State), (if d then raise e [c] u else u).host.streams = u.host.streams := by
    intro d e u
    split
    · exact raise_streams ..
    · rfl
  rw [pfcFollow_streams]
  exact (hraise _ _ s3).trans ((hraise _ _ s2).trans (hraise _ _ s1))

theorem poolFree_streams (p : Nat) (s : State) : (poolFree p s).host.streams = s.host.streams := by
  unfold poolFree
  extract_lets pool q put
  split
  · exact raise_streams ..
  · exact caskEval_streams ..

theorem freeCasks_streams (ps : List Nat) (s : State) : (freeCasks ps s).host.streams = s.host.streams :=
  foldl_keeps (π := fun x : State => x.host.streams) (fun a p => poolFree_streams p a) ps s

theorem letGo_streams {c : StreamCtx} {q : Nat} {r : Retained} (hc : mget s.host.streams id = some c) (hr : mget c.retained q = some r) :
    mget (letGo id q s).host.streams id = some { c with retained := mdel c.retained q } := by
  simp only [letGo, hc, hr]
  exact updStream_streams (by rwa [freeCasks_streams])

end

/-! ### Priority flow control -/

section

variable {s : State} {i k : Nat} {f : PfcPrio → PfcPrio}

theorem pfcOf_updPfc (hi : i < 8) : pfcOf (updPfc i f s) i = f (pfcOf s i) := vget_vupd_self hi

theorem pfcOf_updPfc_ne (h : k ≠ i) : pfcOf (updPfc i f s) k = pfcOf s k := vget_vupd_ne _ _ _ h.symm

theorem pfcOf_raise (c : Nat) (a : List Nat) (s : State) : pfcOf (raise c a s) = pfcOf s := by
  funext k
  rw [pfcOf, (raise_mails c a s).host_field (·.pfc) fun _ _ => rfl]
  rfl

/-- What a PFC frame does to the priorities from 0 to `n`. -/
def pauseUpTo (en : Nat) (qs : List Nat) (n : Nat) (s : State) : State :=
  (List.range n).foldl (fun a i => if bitOf en i then updPfc i (pfcPause a.tick (qs.getD i 0)) a else a) s

theorem pauseUpTo_succ (en : Nat) (qs : List Nat) (n : Nat) (s : State) : pauseUpTo en qs (n + 1) s =
    if bitOf en n then updPfc n (pfcPause (pauseUpTo en qs n s).tick (qs.getD n 0)) (pauseUpTo en qs n s)
    else pauseUpTo en qs n s := by
  rw [pauseUpTo, List.range_succ, List.foldl_append]
  rfl

/-- Each priority that a PFC frame enables is paused by its own quanta; its turn comes once. -/
theorem pauseUpTo_spec {en n : Nat} {qs : List Nat} (hi : i < 8) (hen : bitOf en i = true) :
    (pauseUpTo en qs n s).tick = s.tick ∧ (pauseUpTo en qs n s).regs = s.regs ∧ pfcOf (pauseUpTo en qs n s) i =
      if i < n then pfcPause s.tick (qs.getD i 0) (pfcOf s i) else pfcOf s i := by
  induction n with
  | zero => exact ⟨rfl, rfl, (if_neg (Nat.not_lt_zero i)).symm⟩
  | succ n ih =>
    obtain ⟨htick, hregs, hp⟩ := ih
    rw [pauseUpTo_succ]
    by_cases hn : n = i
    · subst hn
      rw [if_pos hen, pfcOf_updPfc hi, hp, if_neg (lt_irrefl n), if_pos (Nat.lt_succ_self n), htick]
      exact ⟨htick, hregs, rfl⟩
    · have hlt : i < n + 1 ↔ i < n := by omega
      simp only [hlt]
      split
      · rw [pfcOf_updPfc_ne (Ne.symm hn)]
        exact ⟨htick, hregs, hp⟩
      · exact ⟨htick, hregs, hp⟩

end

/-- Settles O18: from what each timer and each frame leaves. -/
theorem streamTimersAndPauses : Obligations.StreamTimersAndPauses := by
  unfold Obligations.StreamTimersAndPauses
  refine ⟨⟨?again, ?stalled, ?ack, ?hold⟩, ⟨?frame, ?expire, ?watchdog, ?ignore, ?refresh, ?disable⟩⟩
  case again =>
    intro s id c n hc hn hst hdue htries hr
    refine .of_next rfl ?_
    rw [nackRepeat, hc]
    simp only [hn]
    rw [if_neg (by simp [hst, hdue]), if_pos htries]
    have h1 := updStream_streams (f := fun x => { x with nack := some { n with tries := n.tries + 1, tick := s.tick } }) hc
    rw [sendNack_nack h1 hr]
    exact ⟨_, updStream_streams h1, rfl, rfl⟩
  case stalled =>
    intro s id c n hc hn hst hdue htries hr
    refine .of_next rfl ?_
    rw [nackRepeat, hc]
    simp only [hn]
    rw [if_neg (by simp [hst, hdue]), if_neg (by omega), if_neg hr, seen_raise_self, raise_streams]
    exact ⟨rfl, _, updStream_streams hc, rfl⟩
  case ack =>
    intro s id c hc howed hdue
    refine .of_next rfl ?_
    rw [ackPeriodic, hc]
    simp only
    rw [if_pos ⟨howed, hdue⟩, sendAck_eq hc]
    refine ⟨?_, _, updStream_streams hc, rfl, rfl⟩
    exact (queueItems_enqueue (k := 0) (j := 2) (by decide) (by decide)).trans (if_pos ⟨rfl, rfl⟩)
  case hold =>
    intro s id q c r hc hr hty hdue
    refine .of_next rfl ?_
    rw [holdExpire, hc, Option.bind_some, hr]
    simp only
    rw [if_pos ⟨hty, hdue⟩]
    exact ⟨_, letGo_streams hc hr, mget_mdel_same ..⟩
  case frame =>
    intro s en qs i hon hi hen hign
    refine .of_next rfl ?_
    obtain ⟨-, hregs, hp⟩ := pauseUpTo_spec (s := bump 0x00040078 (bump 0x00040040 s)) (n := 8) (qs := qs) hi hen
    have hframe : rxFrame (pfcFrame en qs) s = pauseUpTo en qs 8 (bump 0x00040078 (bump 0x00040040 s)) := by
      rw [rxFrame, if_pos hon]
      rfl
    rw [hframe, hp, if_pos hi, regVal_congr hregs, regVal_bump, if_pos rfl, regVal_bump, if_neg (by decide)]
    refine ⟨rfl, ?_⟩
    have hi' : (pfcOf (bump 0x00040078 (bump 0x00040040 s)) i).ignored = false := hign
    rw [pfcPause, if_neg (by rw [hi']; decide)]
    by_cases hq : qs.getD i 0 = 0
    · rw [if_pos hq]
      exact ⟨hq.symm, fun _ => rfl, fun h => absurd hq h⟩
    · rw [if_neg hq]
      exact ⟨rfl, fun h => absurd h hq, fun _ => rfl⟩
  case expire =>
    intro s i hi hsince hdue
    refine .of_next rfl ?_
    rw [pfcExpire, if_pos ⟨hsince, hdue⟩]
    exact ⟨congrArg PfcPrio.since (pfcOf_updPfc hi), fun k hk => pfcOf_updPfc_ne hk⟩
  case watchdog =>
    intro s i w hi hw hdue hbit
    refine .of_next rfl ?_
    rw [pfcWatchdog, if_pos ⟨by rw [hw]; exact decide_eq_true hdue, hbit⟩, pfcOf_raise, pfcOf_updPfc hi, seen_raise_self]
    exact ⟨rfl, rfl, rfl⟩
  case ignore =>
    intro s i hi hign hdue
    refine .of_next rfl ?_
    rw [pfcIgnoreEnd, if_pos ⟨hign, hdue⟩, pfcOf_updPfc hi]
  case refresh =>
    intro s hon hsent hbp hbit hdue
    refine .of_next rfl ?_
    rw [pfcRefresh, if_pos ⟨hsent, hbp, hbit, hdue⟩, sendPfc, if_pos hon]
    exact ⟨rfl, rfl⟩
  case disable =>
    intro s hon hlock hsent
    refine .of_next rfl ?_
    have hon' : txOn (fldSet 0x00180004 0 1 0 s) = true := by
      rw [txOn, bit, regVal_fldSet, if_neg (by decide)]
      exact hon
    have hport : fld (fldSet 0x00180004 0 1 0 s) 0x0004001C 0 8 = fld s 0x0004001C 0 8 := by
      rw [fld, regVal_fldSet, if_neg (by decide)]
      rfl
    rw [pfcDisable, if_neg (by rw [hlock]; decide), if_pos hsent, sendPfc, if_pos hon', hport]
    refine ⟨rfl, rfl, ?_⟩
    have hr := regVal_bump ((fldSet 0x00180004 0 1 0 s).emit (.pfc (fld s 0x0004001C 0 8) 0)) 0x00040074 0x00180004
    rw [if_neg (by decide)] at hr
    have hb : bitOf (regVal (fldSet 0x00180004 0 1 0 s) 0x00180004) 0 = false := by
      rw [regVal_fldSet, if_pos rfl]
      exact bitOf_putBits_b2n _ 0 false
    exact (congrArg (bitOf · 0) hr).trans hb

end Sys2Proof.Machine

/-! R285, R287: requests of the network answered through Q1, other frames, the host link. -/

namespace Sys2Proof.Machine

open Sys2Proof

section

variable {s : State}

theorem rxFrame_on {f : State → State} (h : rxOn s = true) : rxFrame f s = f (bump 0x00040040 s) := by rw [rxFrame, if_pos h]

theorem bit_bump {a r i : Nat} (h : a ≠ r) : bit (bump a s) r i = bit s r i := by rw [bit, regVal_bump, if_neg h, bit]

/-- An echo request that is answered. -/
theorem icmpIn_answers {src : Source} {dst : Nat} {d : List Byte} (hen : bit s 0x00040004 3 = true) (ha : deviceAddr s src.v6 dst = true)
    (hrate : s.host.icmpCount < 100 ∨ s.host.icmpTick + 500000 ≤ s.tick) :
    ∃ u, icmpIn src dst d s = enqueue 0 1 (.other (.echoReply src d)) u ∧ u.qos = s.qos ∧ u.tick = s.tick := by
  rw [icmpIn, if_neg (by simp [hen, ha])]
  dsimp only
  rw [if_neg]
  · exact ⟨_, rfl, rfl, rfl⟩
  · split
    · decide
    · next h =>
      rw [decide_eq_true_iff] at h
      omega

theorem queueItems_enqueue_self {n q : Nat} {it : EItem} (hn : n < 5 := by decide) (hq : q < 16 := by decide) :
    queueItems (enqueue n q it s) n q = queueItems s n q ++ [(s.tick, it)] := by
  rw [queueItems_enqueue hn hq, if_pos ⟨rfl, rfl⟩]

end

/-- Settles O19: from what each request and each change of the link leaves. -/
theorem neighboursAndLink : Obligations.NeighboursAndLink := by
  unfold Obligations.NeighboursAndLink
  refine ⟨?arp, ?neighbour, ?echo, ?other, ?alignment, ?down, ?up⟩
  case arp =>
    intro s a snd hon ha
    refine .of_next rfl ?_
    rw [rxFrame_on hon, if_pos (show deviceAddr (bump 0x00040040 s) _ a = true from ha)]
    exact queueItems_enqueue_self
  case neighbour =>
    intro s a snd hon ha
    refine .of_next rfl ?_
    rw [rxFrame_on hon, if_pos (show deviceAddr (bump 0x00040040 s) _ a = true from ha)]
    exact queueItems_enqueue_self
  case echo =>
    intro s src dst d hon hen ha hrate
    refine .of_next rfl ?_
    have hen' : bit (bump 0x00040040 s) 0x00040004 3 = true := by rwa [bit_bump (by decide)]
    obtain ⟨u, hu, hq, htick⟩ := icmpIn_answers (s := bump 0x00040040 s) (d := d) hen' ha hrate
    have hitems : queueItems u 0 1 = queueItems s 0 1 := by rw [queueItems, hq]; rfl
    rw [rxFrame_on hon, hu, queueItems_enqueue_self, hitems, htick]
    rfl
  case other =>
    intro s n hon
    refine .of_next rfl ?_
    rw [rxFrame_on hon, otherFrame]
    simp only [regVal_bumpBy, regVal_bump]
    simp
  case alignment =>
    intro s ha
    refine .of_next rfl ?_
    rw [if_pos ha]
    exact ⟨rfl, rfl, rfl⟩
  case down =>
    intro s hup ha hdue
    refine .of_next rfl ?_
    rw [linkDown, if_pos ⟨hup, by rw [ha]; decide, hdue⟩, (raise_mails _ _ _).host_field (·.linkUp) fun _ _ => rfl, seen_raise_self]
    exact ⟨rfl, rfl⟩
  case up =>
    intro s hup
    refine .of_next rfl ?_
    rw [linkUpEffect, if_neg (by rw [hup]; decide)]
    have hm := raise_mails 0x1401 [] (s.mapHost fun h => { h with aligned := true, linkUp := true })
    exact ⟨hm.host_field (·.linkUp) fun _ _ => rfl, hm.host_field (·.aligned) fun _ _ => rfl, seen_raise_self⟩

end Sys2Proof.Machine

/-! R429, R434, R436, R441: the host egress, refills and samples. -/

namespace Sys2Proof.Machine

open Sys2Proof

/-! ### The strict head (R429) -/

theorem firstFrom_eq {p : Nat → Bool} {k fuel n : Nat} (hn : n ≤ k) (hk : k < n + fuel) (hp : p k = true)
    (hbefore : ∀ j, n ≤ j → j < k → p j = false) : firstFrom fuel n p = some k := by
  induction fuel generalizing n with
  | zero => omega
  | succ f ih =>
    rw [firstFrom]
    by_cases h : n = k
    · rw [h, if_pos hp]
    · rw [if_neg (by rw [hbefore n le_rfl (by omega)]; decide)]
      exact ih (by omega) (by omega) fun j hj => hbefore j (by omega)

theorem selectQueue_strict {ok : Nat → Bool} {len : Nat → Nat} {c : Sched} {q : Nat} (hq : q < 4) (hok : ok q = true)
    (hitems : (c.queue q).items ≠ []) (hbefore : ∀ k, k < q → ok k = false) : selectQueue ok len c = (some q, c) := by
  have h : firstFrom 4 0 (fun q => ok q && !(c.queue q).items.isEmpty) = some q :=
    firstFrom_eq (Nat.zero_le q) (by omega) (by simp [hok, hitems]) fun j _ hj => by rw [hbefore j hj, Bool.false_and]
  rw [selectQueue, h]

section

variable {s : State} {n q len : Nat} {f : Sched → Sched}

theorem vupd_eq_self {α : Type} {n : Nat} {v : Vector α n} {i : Nat} {f : α → α} {d : α} (hf : f (vget v i d) = vget v i d) :
    vupd v i f = v := by
  unfold vupd
  by_cases hi : i < n
  · rw [Vector.getElem?_eq_getElem hi]
    have hv : vget v i d = v[i] := by simp [vget, Array.getD, hi]
    rw [hv] at hf
    simp only [hf]
    exact Vector.ext fun j hj => by
      rw [Vector.getElem_setIfInBounds]
      split
      · next h => simp only [h]
      · rfl
  · rw [Vector.getElem?_eq_none (by omega)]

theorem mapQos_eq_self {f : Vector Sched 5 → Vector Sched 5} (h : f s.qos = s.qos) : s.mapQos f = s := by
  rw [State.mapQos, h]

theorem mapHost_eq_self {f : HostPort → HostPort} (h : f s.host = s.host) : s.mapHost f = s := by
  rw [State.mapHost, h]

theorem updSched_self {c : Sched} (hc : schedOf s n = c) : updSched n (fun _ => c) s = s :=
  mapQos_eq_self (vupd_eq_self (d := Sched.reset n) hc.symm)

theorem schedOf_updSched {k : Nat} : schedOf (updSched n f s) k = if n = k ∧ n < 5 then f (schedOf s k) else schedOf s k :=
  schedOf_mapQos

theorem queueItems_takeHead (hn : n < 5) (hq : q < 16) : queueItems (takeHead n q len s) n q = (queueItems s n q).tail := by
  rw [queueItems_eq hn hq, queueItems_eq hn hq]
  have h : schedOf (takeHead n q len s) n = _ := schedOf_updSched
  rw [h, if_pos ⟨rfl, hn⟩, queue_updQueue, if_pos ⟨rfl, hq⟩]

/-- The strict head leaves the queue and is sent. -/
theorem hostSelect_strict {off : Nat} {it : EItem} (hlink : s.host.linkUp = true) (htx : bit s 0x00040004 1 = true) (hq : q < 4)
    (hel : hostEligible s q = true) (hbefore : ∀ k, k < q → hostEligible s k = false) (hit : headItem s 0 q = some it) :
    hostSelect off s = releaseDone (sendItem it off (takeHead 0 q (hostHeadLen s q) s)) := by
  have hitems : ((schedOf s 0).queue q).items ≠ [] := by
    intro h
    rw [headItem, h] at hit
    cases hit
  rw [hostSelect, if_neg (by simp [txOn, hlink, htx]), selectQueue_strict hq hel hitems hbefore]
  simp only [hit, updSched_self (n := 0) rfl]

end

/-- A sequenced packet that leaves takes the next number of its stream, and is kept. -/
theorem sendItem_host {s : State} {p : HostPkt} {c : StreamCtx} {off : Nat} (hshadow : isShadow s = false)
    (hc : mget s.host.streams p.stream = some c) : (sendItem (.host p) off s).out = .exchange p.stream (p.toBytes c.outNext false) :: s.out ∧
      mget (sendItem (.host p) off s).host.streams p.stream = some { c with
        outNext := (c.outNext + 1) % 2 ^ 32, retained := mset c.retained c.outNext ⟨p, s.tick⟩ } := by
  have hnote : ∀ u, (noteDelivered p u).out = u.out ∧ (noteDelivered p u).host = u.host := by
    intro u
    rw [noteDelivered]
    split <;> exact ⟨rfl, rfl⟩
  rw [sendItem, if_neg (by rw [hshadow]; decide)]
  simp only [sendSequenced, hc, hnote]
  exact ⟨rfl, updStream_streams hc⟩

/-- What waited for its end of a stream goes to a queue: nothing leaves, and no stream changes. -/
theorem releaseDone_out_streams (s : State) : (releaseDone s).out = s.out ∧ (releaseDone s).host.streams = s.host.streams := by
  unfold releaseDone
  extract_lets ready s1
  exact ⟨foldl_keeps (π := State.out) (by intros; rfl) ready s1,
    foldl_keeps (π := fun x : State => x.host.streams) (by intros; rfl) ready s1⟩

theorem releaseDone_none {s : State} (h : s.host.doneWait = []) : releaseDone s = s := by
  have hs : { s.host with doneWait := s.host.doneWait.filter fun p => !([] : List HostPkt).contains p } = s.host := by
    have hf : s.host.doneWait.filter (fun p => !([] : List HostPkt).contains p) = s.host.doneWait := by rw [h]; rfl
    rw [hf]
  simp only [releaseDone, h, List.filter_nil, List.foldl_nil]
  exact mapHost_eq_self hs

/-! ### Samples (R441) -/

/-- From one state to the other nothing has changed but the bins of queues. -/
structure Binned (s t : State) : Prop where
  rest : { t with qos := s.qos } = s
  sched : ∀ n, { schedOf t n with queues := (schedOf s n).queues } = schedOf s n
  items : ∀ n q, ((schedOf t n).queue q).items = ((schedOf s n).queue q).items

section

variable {s t : State} (h : Binned s t)

include h

theorem Binned.sched_field {γ : Type} (π : Sched → γ) (hπ : ∀ c v, π { c with queues := v } = π c) (n : Nat) :
    π (schedOf t n) = π (schedOf s n) :=
  (hπ _ _).symm.trans (congrArg π (h.sched n))

theorem Binned.regs : t.regs = s.regs := by
  have hq : t.regs = ({ t with qos := s.qos } : State).regs := rfl
  exact hq.trans (congrArg State.regs h.rest)

/-- A length does not depend on bins. -/
theorem Binned.itemLen (n : Nat) (it : EItem) : itemLen t n it = itemLen s n it := by
  have hoverhead : ∀ b, countedLen (schedOf t n) b = countedLen (schedOf s n) b := by
    intro b
    rw [countedLen, countedLen, h.sched_field (·.active) fun _ _ => rfl]
  have hunits : ∀ p, partialUnits t p = partialUnits s p := by
    intro p
    have hq : partialUnits t p = partialUnits { t with qos := s.qos } p := rfl
    exact hq.trans (congrArg (partialUnits · p) h.rest)
  have hbytes : ∀ i, itemBytes t i = itemBytes s i := by
    intro i
    have hq : itemBytes t i = itemBytes { t with qos := s.qos } i := rfl
    exact hq.trans (congrArg (itemBytes · i) h.rest)
  cases it <;> simp only [Machine.itemLen, hunits, hbytes, hoverhead]

theorem Binned.queueDepth (n q : Nat) : queueDepth t n q = queueDepth s n q := by
  rw [Machine.queueDepth, Machine.queueDepth, h.items]
  exact congrArg sumNat (List.map_congr_left fun it _ => h.itemLen n it.2)

theorem Binned.sampleQueue (n q : Nat) : Binned s (sampleQueue n q t) := by
  refine ⟨h.rest, fun k => ?_, fun k j => ?_⟩
  · rw [Machine.sampleQueue, schedOf_updSched]
    split
    · exact h.sched k
    · exact h.sched k
  · rw [Machine.sampleQueue, schedOf_updSched]
    split
    · rw [queue_updQueue]
      split
      · exact h.items k j
      · exact h.items k j
    · exact h.items k j

end

theorem Binned.refl {s : State} : Binned s s := ⟨rfl, fun _ => rfl, fun _ _ => rfl⟩

/-- The samples of the first `k` queues, the queues of all schedulers counted through. -/
def sampleUpTo (t k : Nat) (s : State) : State :=
  (List.range k).foldl (fun a i =>
    if (schedOf a (i / 16)).sampledTick = t ∧ t ≠ 0 then a else sampleQueue (i / 16) (i % 16) a) s

theorem sampleUpTo_succ (t k : Nat) (s : State) : sampleUpTo t (k + 1) s =
    if (schedOf (sampleUpTo t k s) (k / 16)).sampledTick = t ∧ t ≠ 0 then sampleUpTo t k s
    else sampleQueue (k / 16) (k % 16) (sampleUpTo t k s) := by
  rw [sampleUpTo, List.range_succ, List.foldl_append]
  rfl

/-- The bin of its depth is added to in each queue up to the `k`th, and in no other. -/
theorem sampleUpTo_spec {s : State} (hfirst : ∀ n, n < 5 → (schedOf s n).sampledTick ≠ s.tick) (k : Nat) (hk : k ≤ 80) :
    Binned s (sampleUpTo s.tick k s) ∧ ∀ n q, n < 5 → q < 16 → ((schedOf (sampleUpTo s.tick k s) n).queue q).depthHist =
      if 16 * n + q < k then binAdd ((schedOf s n).queue q).depthHist (histBin (queueDepth s n q) (2 ^ fld s 0x001C0008 16 5))
      else ((schedOf s n).queue q).depthHist := by
  induction k with
  | zero => exact ⟨.refl, fun n q _ _ => (if_neg (Nat.not_lt_zero _)).symm⟩
  | succ k ih =>
    obtain ⟨hb, hd⟩ := ih (by omega)
    rw [sampleUpTo_succ, hb.sched_field (·.sampledTick) fun _ _ => rfl, if_neg fun h => hfirst _ (by omega) h.1]
    refine ⟨hb.sampleQueue _ _, fun n q hn hq => ?_⟩
    have hfld : fld (sampleUpTo s.tick k s) 0x001C0008 16 5 = fld s 0x001C0008 16 5 := by
      have hregs : (sampleUpTo s.tick k s).regs = s.regs := hb.regs
      rw [fld, regVal_congr hregs]
      rfl
    rw [Machine.sampleQueue, hfld, hb.queueDepth, schedOf_updSched]
    by_cases hnq : 16 * n + q = k
    · have hn' : k / 16 = n := by omega
      have hq' : k % 16 = q := by omega
      rw [hn', hq', if_pos ⟨rfl, hn⟩, queue_updQueue, if_pos ⟨rfl, hq⟩, if_pos (by omega)]
      dsimp only
      rw [hd n q hn hq, if_neg (by omega)]
    · have hlt : 16 * n + q < k + 1 ↔ 16 * n + q < k := by omega
      simp only [hlt, ← hd n q hn hq]
      by_cases hn' : k / 16 = n ∧ k / 16 < 5
      · rw [if_pos hn', queue_updQueue, if_neg (by omega)]
      · rw [if_neg hn']

theorem queue_sampledTick (c : Sched) (k q : Nat) : ({ c with sampledTick := k } : Sched).queue q = c.queue q := rfl

theorem queueSample_due {s : State} (hdue : s.tick % fld1 s 0x001C0008 0 16 = 0) :
    queueSample s = (sampleUpTo s.tick 80 s).mapQos fun v => v.map fun c => { c with sampledTick := s.tick } := by
  rw [queueSample, if_neg (not_not.mpr hdue)]
  rfl

/-- Settles O20: from what one selection, one refill and one sample leave. -/
theorem hostEgress : Obligations.HostEgress := by
  unfold Obligations.HostEgress
  refine ⟨⟨?packet, ?mailbox⟩, ?refill, ?sample⟩
  case packet =>
    intro s off q p c hlink htx hq hel hbefore hit hshadow hc
    refine .of_next rfl ?_
    obtain ⟨hout, hstreams⟩ := releaseDone_out_streams (sendItem (.host p) off (takeHead 0 q (hostHeadLen s q) s))
    obtain ⟨hsent, hkept⟩ := sendItem_host (s := takeHead 0 q (hostHeadLen s q) s) (off := off) hshadow hc
    rw [hostSelect_strict hlink htx hq hel hbefore hit, hout, hstreams, hsent, hkept]
    exact ⟨rfl, _, rfl, rfl, mget_mset_same ..⟩
  case mailbox =>
    intro s off q dst b hlink htx hq hel hbefore hit hwait
    refine .of_next rfl ?_
    have hwait' : (sendItem (.other (.mailbox dst b)) off (takeHead 0 q (hostHeadLen s q) s)).host.doneWait = [] := hwait
    rw [hostSelect_strict hlink htx hq hel hbefore hit, releaseDone_none hwait']
    exact ⟨rfl, queueItems_takeHead (n := 0) (q := q) (by decide) (by omega)⟩
  case refill =>
    intro s n q hn hq hshaped
    refine .of_next rfl ?_
    rw [tokenRefill]
    dsimp only
    rw [if_neg (by simp [hshaped]), schedOf_updSched, if_pos ⟨rfl, hn⟩, queue_updQueue, if_pos ⟨rfl, hq⟩]
    split <;> exact ⟨rfl, rfl⟩
  case sample =>
    intro s hdue hfirst
    refine .of_next rfl fun n q hn hq => ?_
    obtain ⟨-, hd⟩ := sampleUpTo_spec hfirst 80 le_rfl
    have hsched : schedOf (queueSample s) n = { schedOf (sampleUpTo s.tick 80 s) n with sampledTick := s.tick } := by
      rw [queueSample_due hdue]
      exact vget_map _ _ _ _ hn
    have hbin := hd n q hn hq
    rw [if_pos (by omega)] at hbin
    rw [hsched, queue_sampledTick, hbin]
    exact ⟨rfl, rfl⟩

end Sys2Proof.Machine

/-! Tributaries, and what the counting of a monitored scope leaves. -/

namespace Sys2Proof.Machine

open Sys2Proof

/-! ### Tributaries -/

section

variable {s t : State} {n k : Nat} {f : Trib → Trib}

theorem tribOf_updTrib : tribOf (updTrib n f s) k = if n = k then (tribOf s k).map f else tribOf s k :=
  mget_mupd _ _ _ _

theorem tribOf_updTrib_self {x : Trib} (h : tribOf s n = some x) : tribOf (updTrib n f s) n = some (f x) := by
  rw [tribOf_updTrib, if_pos rfl, h]
  rfl

theorem tribOf_congr (h : t.line.tribs = s.line.tribs) : tribOf t = tribOf s := by
  funext i
  rw [tribOf, h, tribOf]

end

/-! ### Monitoring (R357 to R360) -/

/-- From one state to the other counts have been added in bins and seconds of monitoring, and EV_LINE_THRESH has been raised where a
threshold was crossed. -/
structure Monitored (s t : State) : Prop where
  line : { t.line with bins := s.line.bins, seconds := s.line.seconds } = s.line
  pending : t.pending = s.pending
  tick : t.tick = s.tick
  free : t.free = s.free
  coll : t.coll = s.coll
  press : t.press = s.press
  cmp : t.cmp = s.cmp
  cellar : t.cellar = s.cellar
  mem : t.mem = s.mem
  opt : t.opt = s.opt
  sec : t.sec = s.sec
  sites : t.sites = s.sites
  time : t.time = s.time
  mgt : t.mgt = s.mgt
  bru : t.bru = s.bru
  out : t.out = s.out
  mails : Mails s t
  regVal : ∀ r, r ∉ eventRegs → regVal t r = regVal s r
  seen : ∀ c, c ≠ 0x4805 → c ≠ 0x4F02 → c ≠ 0x4F03 → seen t c = seen s c

section

variable {s t u : State}

theorem Monitored.refl : Monitored s s := by
  constructor
  case mails => exact .refl
  all_goals intros; rfl

theorem Monitored.trans (h : Monitored s t) (hu : Monitored t u) : Monitored s u where
  line := by rw [← h.line, ← hu.line]
  pending := hu.pending.trans h.pending
  tick := hu.tick.trans h.tick
  free := hu.free.trans h.free
  coll := hu.coll.trans h.coll
  press := hu.press.trans h.press
  cmp := hu.cmp.trans h.cmp
  cellar := hu.cellar.trans h.cellar
  mem := hu.mem.trans h.mem
  opt := hu.opt.trans h.opt
  sec := hu.sec.trans h.sec
  sites := hu.sites.trans h.sites
  time := hu.time.trans h.time
  mgt := hu.mgt.trans h.mgt
  bru := hu.bru.trans h.bru
  out := hu.out.trans h.out
  mails := h.mails.trans hu.mails
  regVal r hr := (hu.regVal r hr).trans (h.regVal r hr)
  seen c h1 h2 h3 := (hu.seen c h1 h2 h3).trans (h.seen c h1 h2 h3)

variable (h : Monitored s t)

include h

theorem Monitored.mapLine {f : Line → Line} (hf : ∀ l, { f l with bins := l.bins, seconds := l.seconds } = l) :
    Monitored s (t.mapLine f) := by
  refine h.trans ?_
  constructor
  case line => exact hf _
  case mails => exact .of_eq rfl rfl
  all_goals intros; rfl

theorem Monitored.raise {a : List Nat} : Monitored s (raise 0x4805 a t) := by
  refine h.trans ?_
  constructor
  case line => rw [raise_line]
  case mails => exact raise_mails ..
  case regVal => exact fun r hr => raise_regVal _ _ _ r hr
  case press => rw [raise_press, if_neg (by decide)]
  case seen =>
    intro c h1 h2 h3
    rw [seen_raise _ _ _ _ h2 h3, if_neg h1.symm]
  all_goals simp

theorem Monitored.foldl {α : Type} {l : List α} {f : State → α → State} (hf : ∀ u a, Monitored s u → Monitored s (f u a)) :
    Monitored s (l.foldl f t) :=
  List.foldlRecOn l f h fun u hu a _ => hf u a hu

theorem Monitored.ite {c : Prop} {_ : Decidable c} (hu : Monitored s u) : Monitored s (if c then t else u) := by
  split
  · exact h
  · exact hu

theorem Monitored.putBin {b : PmBin} : Monitored s (putBin b t) := by
  unfold Machine.putBin
  exact h.mapLine fun _ => rfl

theorem Monitored.pmThreshold {scope kind : Nat} : Monitored s (pmThreshold scope kind t) := by
  unfold Machine.pmThreshold
  split
  · exact h
  split
  · exact h
  · refine h.foldl fun u i hu => ?_
    dsimp only
    split
    · split
      · split
        · exact hu.raise.putBin
        · exact hu.raise
      · exact hu
    · exact hu

theorem Monitored.pmUpdate {scope : Nat} {f : List Int → List Int} : Monitored s (pmUpdate scope f t) :=
  h.ite (h.foldl fun _ _ hu => hu.putBin.pmThreshold)

theorem Monitored.pmAdd {scope i n : Nat} : Monitored s (pmAdd scope i n t) := h.ite h.pmUpdate

theorem Monitored.updSecond {scope : Nat} {f : PmSecond → PmSecond} : Monitored s (updSecond scope f t) := h.mapLine fun _ => rfl

theorem Monitored.pmFrame {scope : Nat} {bad : Bool} : Monitored s (pmFrame scope bad t) := h.updSecond

/-- A field of the line other than bins and seconds. -/
theorem Monitored.line_field {γ : Type} (π : Line → γ) (hπ : ∀ l b c, π { l with bins := b, seconds := c } = π l) :
    π t.line = π s.line :=
  (hπ _ _ _).symm.trans (congrArg π h.line)

theorem Monitored.tribOf : tribOf t = tribOf s := tribOf_congr (h.line_field (·.tribs) fun _ _ _ => rfl)

end

end Sys2Proof.Machine

/-! R430, R434, R23: the block that a port's scheduler builds. -/

namespace Sys2Proof.Machine

open Sys2Proof

section

variable {s : State} {n : Nat}

/-- What is sent of a block stays on its tributary as bytes to transmit; its copy in the ring stays. -/
theorem transmit_trib {seq : Nat} {r : RingBlock} {resent : Bool} {x : Trib} (hx : tribOf s n = some x) :
    ∃ y, tribOf (transmit n seq r resent s) n = some y ∧ y.nextSeq = x.nextSeq ∧ y.ring = x.ring := by
  simp only [transmit, hx]
  have hseal : ∀ p e h c, tribOf (sealBlock p e h c s).2 n = some x := fun _ _ _ _ => hx
  exact ⟨_, tribOf_updTrib_self (hseal _ _ _ _), rfl, rfl⟩

theorem countSymbols_line (ctx : Nat) (f : Form) (k : Nat) (raw : List Byte) (s : State) : (countSymbols ctx f k raw s).line = s.line ∧
    (countSymbols ctx f k raw s).tick = s.tick := by
  unfold countSymbols
  split
  · exact ⟨rfl, rfl⟩
  split
  · exact ⟨rfl, rfl⟩
  · exact ⟨rfl, rfl⟩

theorem tribOf_ringEval (s : State) : tribOf (ringEval s) = tribOf s := rfl

theorem tribOf_counted {scope i k : Nat} {bad : Bool} (s : State) : tribOf (pmFrame scope bad (pmAdd scope i k s)) = tribOf s :=
  Monitored.refl.pmAdd.pmFrame.tribOf

/-- The block of a partial takes the next LINE_SEQ of its tributary, with a copy in the ring. -/
theorem buildBlock_trib {p : LinePartial} {b : Trib} (hb : tribOf s n = some b)
    (hlen : 1 ≤ (encContent p (lineBody (deepOn s) (lineBlend s p) p).bytes).length)
    (hmax : (encContent p (lineBody (deepOn s) (lineBlend s p) p).bytes).length ≤ 65536) :
    ∃ x r, tribOf (buildBlock n p s) n = some x ∧ x.nextSeq = b.nextSeq + 1 ∧ mget x.ring b.nextSeq = some r ∧ r.part = p ∧
      r.content = (lineBody (deepOn s) (lineBlend s p) p).bytes ∧ r.sentTick = s.tick := by
  unfold buildBlock
  rw [hb]
  dsimp only
  rw [if_neg (by omega)]
  generalize hs1 : (if p.coding = 0 ∨ p.isSealed = true then _ else _ : State) = s1
  have h1 : tribOf s1 n = some b := by
    rw [← hs1]
    split
    · exact hb
    · rw [tribOf_congr (congrArg Line.tribs (countSymbols_line ..).1)]
      exact hb
  rw [tribOf_counted, tribOf_ringEval]
  obtain ⟨y, hy, hseq, hring⟩ := transmit_trib (tribOf_updTrib_self h1)
  exact ⟨y, _, hy, hseq, (congrArg (mget · b.nextSeq) hring).trans (mget_mset_same ..), rfl, rfl, rfl⟩

/-- Its queue's scheduler does not show in the coding of a partial. -/
theorem lineSelect_built {port q : Nat} {c : Sched} {p : LinePartial} (hopen : portOpen s port = true)
    (hsel : selectQueue (lineEligible s port) (lineHeadLen s port) (schedOf s (port + 1)) = (some q, c)) (hhead : lineHead s port q = some p)
    (hpick : pickTrib s port q (partialUnits s p) = some n) (hshadow : isShadow s = false) :
    lineSelect port s = buildBlock n p (takeHead (port + 1) q (lineHeadLen s port q) (updSched (port + 1) (fun _ => c) s)) := by
  simp only [lineSelect, hopen, hsel, hhead, hpick, hshadow]
  rfl

end

/-- Settles O21: the coding is that of the state in which the partial was selected. -/
theorem lineSelectBuildsBlock : Obligations.LineSelectBuildsBlock := by
  unfold Obligations.LineSelectBuildsBlock
  intro s port q n c p b hopen hsel hhead hpick hshadow hb hlen hmax
  refine .of_next rfl ?_
  rw [lineSelect_built hopen hsel hhead hpick hshadow]
  generalize hu : takeHead (port + 1) q (lineHeadLen s port q) (updSched (port + 1) (fun _ => c) s) = u
  have hdeep : deepOn u = deepOn s := by
    rw [← hu, deepOn, deepOn, takeHead, bit_bump (by omega)]
    rfl
  have hblend : lineBlend u p = lineBlend s p := by
    rw [← hu]
    rfl
  have hb' : tribOf u n = some b := by
    rw [← hu]
    exact hb
  have htick : u.tick = s.tick := by rw [← hu]; rfl
  rw [← hdeep, ← hblend] at hlen hmax ⊢
  rw [← htick]
  exact buildBlock_trib hb' hlen hmax

end Sys2Proof.Machine

/-! R464 to R466: PTP. -/

namespace Sys2Proof.Machine

open Sys2Proof

/-! ### PTP messages -/

section

variable {s : State}

theorem regVal_bump_ne {a b : Nat} (h : a ≠ b) : regVal (bump a s) b = regVal s b := by rw [regVal_bump, if_neg h]

theorem fld_bump_ne {a b lo w : Nat} (h : a ≠ b) : fld (bump a s) b lo w = fld s b lo w := by rw [fld, regVal_bump_ne h, fld]

/-- A PTP message that is taken is handled after its frame has been counted. -/
theorem ptpIn_taken {dom tr : Nat} {f : State → State} (h : PtpTaken s dom tr) :
    rxFrame (ptpIn dom tr f) s = f (bump 0x00040040 s) := by
  obtain ⟨hon, hen, hdom, htr⟩ := h
  rw [rxFrame_on hon, ptpIn, bit_bump (by decide), if_neg (not_not.mpr hen), fld_bump_ne (by decide), fld_bump_ne (by decide), if_neg]
  rintro (h | h)
  · exact h hdom
  · exact h htr

theorem requalify_masters (s : State) : (requalify s).time.masters = s.time.masters := rfl

/-- To follow a master keeps the clocks heard of. -/
theorem followMaster_masters (s : State) : (followMaster s).time.masters = s.time.masters := by
  unfold followMaster
  extract_lets b s1 ident src s2
  have h2 : s2.time.masters = s.time.masters := by
    unfold s2
    rw [raise_time]
    rfl
  split
  · rfl
  split
  · exact (requalify_masters s2).trans h2
  · exact h2

/-- What a sample does to the servo, its value stays shown. -/
theorem qualify_theta (s : State) : (qualify s).time.theta = s.time.theta := by
  unfold qualify
  dsimp only
  split
  · rfl
  split
  · rw [raise_time]
    rfl
  · rw [raise_time]
    rfl

theorem servoSample_theta (theta : Int) (s : State) : (servoSample theta s).time.theta = theta := by
  unfold servoSample
  extract_lets s0 s1
  split
  · exact qualify_theta _
  · split
    · split
      · rw [raise_time]
        rfl
      · rfl
    · rfl
  · exact qualify_theta _
  · rfl
  · rfl

theorem fromMaster_bump {a i p : Nat} : fromMaster (bump a s) i p = fromMaster s i p := rfl

end

/-- Settles O22: from what each message of the exchange leaves. -/
theorem ptpExchange : Obligations.PtpExchange := by
  unfold Obligations.PtpExchange
  refine ⟨?announce, ?timeout, ?sync, ?follow, ?request, ?response⟩
  case announce =>
    intro s dom tr m h
    refine .of_next rfl ?_
    rw [ptpIn_taken h, announceIn, followMaster_masters]
    exact ⟨_, List.mem_append_right _ (List.mem_singleton.mpr rfl), by simp [sameClock], rfl⟩
  case timeout =>
    intro s m e hm he hdue
    refine .of_next rfl ?_
    simp only [announceTimeout, hm, he]
    rw [if_pos hdue, followMaster_masters]
    intro x hx
    obtain ⟨-, hk⟩ := List.mem_filter.mp hx
    simpa using hk
  case sync =>
    intro s dom tr ident port seq t1 two corr off h hm
    refine .of_next rfl ?_
    rw [ptpIn_taken h, syncIn, fromMaster_bump, if_neg (not_not.mpr hm)]
    refine ⟨?_, rfl, rfl, rfl⟩
    have hstamp : rxStamp (bump 0x00040040 s) off = rxStamp s off := by
      rw [rxStamp, fld_bump_ne (by decide)]
      rfl
    exact congrArg (fun x : Int => some x.toNat) hstamp
  case follow =>
    intro s dom tr ident port seq t1 corr h hm hseq
    refine .of_next rfl ?_
    rw [ptpIn_taken h, followUpIn, if_neg]
    · exact ⟨rfl, rfl, rfl, rfl⟩
    · rintro (hn | hn)
      · exact hn hm
      · exact hn hseq
  case request =>
    intro s m hm hen hdue
    refine .of_next rfl ?_
    simp only [delayReq, hm]
    rw [if_neg (by simp [hen, hdue])]
    exact ⟨rfl, rfl, queueItems_enqueue_self⟩
  case response =>
    intro s dom tr ident port seq t4 t1 t2 t3 corr h hm hseq h1 h2 h3 hsrc
    refine .of_next rfl ?_
    have hsrc' : timeSource (bump 0x00040040 s) = 1 := by rwa [timeSource, fld_bump_ne (by decide)]
    have h1' : (bump 0x00040040 s).time.ptp.t1 = some t1 := h1
    have h2' : (bump 0x00040040 s).time.ptp.t2 = some t2 := h2
    have h3' : (bump 0x00040040 s).time.ptp.t3 = some t3 := h3
    rw [ptpIn_taken h, delayRespIn, if_neg (by rintro (hn | hn); exacts [hn hm, hn hseq])]
    simp only [h1', h2', h3']
    rw [if_pos hsrc', servoSample_theta, regVal_bump_ne (by decide), fld_bump_ne (by decide)]
    rfl

end Sys2Proof.Machine

/-! R457, R458, R462, R463: steps of the time counter, validity, and the servo's qualification. -/

namespace Sys2Proof.Machine

open Sys2Proof

section

variable {s : State}

/-- A pulse that a step passes over raises its event; time stays but for the pulses. -/
theorem skipPulses_time (k n : Nat) (s : State) : (skipPulses k n s).time = s.time := by
  unfold skipPulses
  split
  · rfl
  · rw [raise_time]
    rfl

theorem skipPulses_seen (k n : Nat) (s : State) {c : Nat} (hc : c ≠ 0x4C03) (h1 : c ≠ 0x4F02) (h2 : c ≠ 0x4F03) :
    seen (skipPulses k n s) c = seen s c := by
  unfold skipPulses
  split
  · rfl
  · rw [seen_raise _ _ _ _ h1 h2, if_neg hc.symm]
    rfl

/-- To plan the pulses anew changes of time the pulses alone. -/
theorem replanPulses_time_field {γ : Type} (π : TimeSt → γ) (hπ : ∀ t v, π { t with pulses := v } = π t) (s : State) :
    π (replanPulses s).time = π s.time := by
  refine foldl_keeps (π := fun x : State => π x.time) (fun a k => ?_) _ s
  dsimp only
  rw [skipPulses_time]
  exact hπ _ _

theorem replanPulses_seen {c : Nat} (hc : c ≠ 0x4C03) (h1 : c ≠ 0x4F02) (h2 : c ≠ 0x4F03) (s : State) :
    seen (replanPulses s) c = seen s c := by
  refine foldl_keeps (π := fun x : State => seen x c) (fun a k => ?_) _ s
  dsimp only
  exact skipPulses_seen _ _ _ hc h1 h2

theorem fld_regSet {a v lo w : Nat} : fld (regSet a v s) a lo w = bitsOf v lo w := by rw [fld, regVal_regSet, if_pos rfl]

/-- Qualification begins anew without samples, off where there is no source or SERVO_EN is 0. -/
theorem requalify_spec (s : State) : (requalify s).time.samples = [] ∧
    (requalify s).time.servo = (if timeSource s = 0 ∨ ¬ bit s 0x00020004 0 = true then 0 else 1) ∧ (requalify s).regs = s.regs :=
  ⟨rfl, rfl, rfl⟩

end

/-- A step to a second sets the counter, makes time valid and forgets the samples, before the pulses are planned anew. -/
theorem applyStep_to {s : State} {v : Nat} (hv : s.time.stepTo = some v) :
    ∃ u, applyStep s = raise 0x1C01 [] (bump 0x0002008C (replanPulses u)) ∧ (u.time.counter = v * 2 ^ 48 ∧ u.time.valid = true ∧
      u.time.steps = s.time.steps + 1 ∧ u.time.samples = [] ∧ u.time.stepTo = none) ∧ u.flt = s.flt := by
  unfold applyStep
  simp only [hv]
  exact ⟨_, rfl, ⟨rfl, rfl, rfl, rfl, rfl⟩, rfl⟩

/-- Settles O23: from what a step, a qualification and the servo's states leave. -/
theorem timeStepsAndServo : Obligations.TimeStepsAndServo := by
  unfold Obligations.TimeStepsAndServo
  refine ⟨?step, ?hold, ?invalid, ?source, ?enable⟩
  case step =>
    intro s v hv
    refine .of_next rfl ?_
    obtain ⟨u, hu, ⟨hcounter, hvalid, hsteps, hsamples, hto⟩, hflt⟩ := applyStep_to hv
    have hcount : seen (replanPulses u) 0x1C01 = seen s 0x1C01 :=
      (replanPulses_seen (by decide) (by decide) (by decide) u).trans (by rw [seen, hflt, seen])
    rw [hu, seen_raise_self, raise_time, bump_time, seen, bump_flt, ← seen, hcount]
    exact ⟨(replanPulses_time_field (·.counter) (fun _ _ => rfl) u).trans hcounter,
      (replanPulses_time_field (·.valid) (fun _ _ => rfl) u).trans hvalid,
      (replanPulses_time_field (·.steps) (fun _ _ => rfl) u).trans hsteps,
      (replanPulses_time_field (·.samples) (fun _ _ => rfl) u).trans hsamples,
      (replanPulses_time_field (·.stepTo) (fun _ _ => rfl) u).trans hto, rfl⟩
  case hold =>
    intro s hservo hdue
    refine .of_next rfl ?_
    rw [holdover, if_pos ⟨hservo, hdue⟩, seen_raise_self, raise_time]
    exact ⟨rfl, rfl, rfl⟩
  case invalid =>
    intro s w hvalid hw hdue
    refine .of_next rfl ?_
    rw [timeInvalid, if_pos ⟨hvalid, by rw [hw]; exact decide_eq_true hdue⟩, seen_raise_self, raise_time]
    exact ⟨rfl, rfl, rfl⟩
  case source =>
    intro s v hv hne
    refine .of_next rfl ?_
    have hsrc : timeSource (regSet 0x0002000C (v % 8) s) = v % 8 := by
      rw [timeSource, fld_regSet, bitsOf]
      simp
    have hen : bit (regSet 0x0002000C (v % 8) s) 0x00020004 0 = bit s 0x00020004 0 := by
      rw [bit, regVal_regSet, if_neg (by decide), bit]
    obtain ⟨hsamples, hservo, hregs⟩ := requalify_spec (regSet 0x0002000C (v % 8) s)
    rw [sourceWrite]
    rw [if_neg (by omega), if_neg hne, hservo, hsamples, timeSource, fld, regVal_congr hregs, ← fld, ← timeSource, hsrc, hen]
    simp
  case enable =>
    intro s on hne
    refine .of_next rfl ?_
    have hen : bit (fldSet 0x00020004 0 1 (b2n on) s) 0x00020004 0 = on := by
      rw [bit, regVal_fldSet, if_pos rfl, bitOf_putBits_b2n]
    have hsrc : timeSource (fldSet 0x00020004 0 1 (b2n on) s) = timeSource s := by
      rw [timeSource, fld, regVal_fldSet, if_neg (by decide)]
      rfl
    obtain ⟨hsamples, hservo, hregs⟩ := requalify_spec (fldSet 0x00020004 0 1 (b2n on) s)
    rw [servoEnWrite]
    rw [if_neg hne, hservo, hsamples, bit, regVal_congr hregs, ← bit, hsrc, hen]
    simp

end Sys2Proof.Machine

/-! R445 to R450, R471, R472: pulse outputs, reference inputs, the crystal. -/

namespace Sys2Proof.Machine

open Sys2Proof

/-! ### References -/

section

variable {s : State} {r k : Nat} {f : RefIn → RefIn}

theorem refOf_updRef (hr : r < 2) : refOf (updRef r f s) r = f (refOf s r) := vget_vupd_self hr

theorem refOf_updRef_ne (h : k ≠ r) : refOf (updRef r f s) k = refOf s k := vget_vupd_ne _ _ _ h.symm

theorem refOf_congr {t : State} (h : t.time.refs = s.time.refs) : refOf t = refOf s := by
  funext i
  rw [refOf, h, refOf]

theorem refOf_raise (c : Nat) (a : List Nat) (s : State) : refOf (raise c a s) = refOf s := refOf_congr (by rw [raise_time])

/-- At most the choice of a source for the next edge changes. -/
theorem autoRevert_eq (s : State) : ∃ n, autoRevert s = s.mapTime fun t => { t with selectNext := n } := by
  unfold autoRevert
  split
  · split
    · exact ⟨_, rfl⟩
    · exact ⟨s.time.selectNext, rfl⟩
  · exact ⟨s.time.selectNext, rfl⟩

theorem refOf_autoRevert (s : State) : refOf (autoRevert s) = refOf s := by
  obtain ⟨n, h⟩ := autoRevert_eq s
  rw [h]
  rfl

theorem refOf_changeSource {src : Nat} {auto : Bool} : refOf (changeSource src auto s) = refOf s := by
  unfold changeSource
  extract_lets s1 s2
  split
  · rfl
  split
  · exact refOf_raise ..
  · rfl

/-- A failure of one reference concerns no other. -/
theorem refOf_refFail_ne (h : k ≠ r) : refOf (refFail r s) k = refOf s k := by
  unfold refFail
  extract_lets was s1 s2
  have h1 : refOf s1 k = refOf s k := refOf_updRef_ne h
  split
  · exact h1
  split
  · exact h1
  split
  · rw [refOf_raise]
    exact h1
  · rw [refOf_autoRevert, refOf_raise, refOf_changeSource]
    exact h1

theorem refFail_ok (hr : r < 2) : (refOf (refFail r s) r).ok = false := by
  unfold refFail
  extract_lets was s1 s2
  have h1 : (refOf s1 r).ok = false := congrArg RefIn.ok (refOf_updRef hr)
  split
  · exact h1
  split
  · exact h1
  split
  · rw [refOf_raise]
    exact h1
  · rw [refOf_autoRevert, refOf_raise, refOf_changeSource]
    exact h1

/-- The reference that was the source fails: the device goes to the internal clock. -/
theorem refFail_source (hr : r < 2) (hok : (refOf s r).ok = true) (hsrc : s.time.source = r) (hx : s.time.xtalFailed = false) :
    (refFail r s).time.source = 2 ∧ seen (refFail r s) 0xFD01 = seen s 0xFD01 + 1 ∧
      regVal (refFail r s) 0x00010040 = min (2 ^ 32 - 1) (regVal s 0x00010040 + 1) := by
  unfold refFail
  extract_lets was s1 s2
  rw [if_neg (not_not.mpr hok), if_neg (not_not.mpr hsrc), if_neg (by rw [hx]; decide)]
  obtain ⟨n, h⟩ := autoRevert_eq (raise 0xFD01 [r] (changeSource 2 false s2))
  have hne : s2.time.source ≠ 2 := by
    have : s2.time.source = r := hsrc
    omega
  have hc : changeSource 2 false s2 = bump 0x00010044 (s2.mapTime fun t => { t with source := 2, selectNext := none }) := by
    rw [changeSource, if_neg hne]
    rfl
  rw [h]
  refine ⟨?_, ?_, ?_⟩
  · rw [State.mapTime_time, raise_time, hc]
    rfl
  · have hseen : seen (changeSource 2 false s2) 0xFD01 = seen s 0xFD01 := by rw [hc]; rfl
    rw [← hseen]
    exact seen_raise_self
  · refine (raise_regVal _ _ _ _ (by decide)).trans ?_
    rw [hc, regVal_bump_ne (by decide)]
    exact (regVal_bump s1 _ _).trans (if_pos rfl)

/-- A reference is judged by itself. -/
theorem refOf_judgeRef_ne {dev other vs : Int} {g : Bool} (h : k ≠ r) : refOf (judgeRef r dev other vs g s) k = refOf s k := by
  unfold judgeRef
  extract_lets s1 n good s2
  have h1 : refOf s1 k = refOf s k := refOf_updRef_ne h
  split
  · split
    · exact h1
    · have h2 : refOf s2 k = refOf s k := (refOf_updRef_ne h).trans h1
      split
      · rw [refOf_autoRevert]
        exact h2
      · exact h2
  split
  · exact (refOf_updRef_ne h).trans h1
  · exact (refOf_refFail_ne h).trans ((refOf_updRef_ne h).trans h1)

theorem judgeRef_good {dev other vs : Int} {g : Bool} (hr : r < 2) (hin : within200 dev = true) (hok : (refOf s r).ok = false)
    (hn : fld1 s 0x0001000C 0 16 ≤ (refOf s r).windows + 1) : (refOf (judgeRef r dev other vs g s) r).ok = true := by
  unfold judgeRef
  extract_lets s1 n good s2
  have hgood : good = true := decide_eq_true hn
  rw [if_pos hin, if_neg (by rw [hok]; decide), if_pos hgood, refOf_autoRevert]
  have h2 : (refOf s2 r).ok = good := congrArg RefIn.ok (refOf_updRef hr)
  exact h2.trans hgood

theorem judgeRef_bad {dev other vs : Int} {g : Bool} (hr : r < 2) (hin : within200 dev = false)
    (hno : ¬ (g = true ∧ within200 vs = true ∧ within200 other = false)) : (refOf (judgeRef r dev other vs g s) r).ok = false := by
  unfold judgeRef
  extract_lets s1 n good s2
  rw [if_neg (by rw [hin]; decide), if_neg]
  · exact refFail_ok hr
  · rintro ⟨hg, hv, ho⟩
    exact hno ⟨hg, hv, Bool.eq_false_iff.mpr ho⟩

/-- A source that is good is asked for at the next edge. -/
theorem selectSource_good {src : Nat} (h : sourceGood s src = true) :
    selectSource src s = s.mapTime fun t => { t with selectNext := some (src, false) } := by rw [selectSource, if_pos h]

end

/-- Settles O24: from what a write, a pulse and a window leave. -/
theorem pulsesAndReferences : Obligations.PulsesAndReferences := by
  unfold Obligations.PulsesAndReferences
  refine ⟨⟨?mode, ?pulse⟩, ?missing, ?good, ?bad, ?stable, ?fail, ?select⟩
  case mode =>
    intro s k v hk hv
    refine .of_next rfl ?_
    rw [pulseWrite]
    dsimp only
    rw [skipPulses_time, if_neg hv, if_neg hv]
    exact vget_vupd_self hk
  case pulse =>
    intro s k n hk hn hpast hvalid
    refine .of_next rfl ?_
    simp only [pulseEdge, hn]
    rw [if_neg (not_le.mpr hpast), if_neg]
    · exact ⟨rfl, congrArg Pulse.next (vget_vupd_self hk)⟩
    · rintro ⟨hb, hinv⟩
      exact hinv (hvalid hb)
  case missing =>
    intro s r hr hok hsrc hx
    have hok' : (refOf (updRef r (fun x => { x with windows := 0 }) s) r).ok = true := (congrArg RefIn.ok (refOf_updRef hr)).trans hok
    exact .of_next rfl ⟨refFail_ok hr, refFail_source hr hok' hsrc hx⟩
  case good =>
    intro s a b ab ha hok hn
    refine .of_next rfl ?_
    rw [refWindow]
    have hx : xtalSuspect s a b ab = false := by rw [xtalSuspect, ha]; rfl
    rw [hx]
    exact (congrArg RefIn.ok (refOf_judgeRef_ne (by decide))).trans (judgeRef_good (by decide) ha hok hn)
  case bad =>
    intro s a b ab ha hno
    refine .of_next rfl ?_
    exact (congrArg RefIn.ok (refOf_judgeRef_ne (by decide))).trans (judgeRef_bad (by decide) ha hno)
  case stable =>
    intro s
    refine .of_next rfl ?_
    unfold xtalStable
    extract_lets s1
    have hsel : ∀ p, (selectSource p s1).time.xtalOk = true ∧ (selectSource p s1).time.xtalFailed = false := by
      intro p
      rw [selectSource]
      split <;> exact ⟨rfl, rfl⟩
    split
    · split
      · exact hsel _
      · exact ⟨rfl, rfl⟩
    · exact ⟨rfl, rfl⟩
  case fail =>
    intro s
    refine .of_next rfl ?_
    rw [xtalFail]
    by_cases hs : s.time.source = 2
    · rw [if_pos hs, raise_time]
      exact ⟨rfl, rfl, fun _ => seen_raise_self, fun h => absurd hs h⟩
    · rw [if_neg hs, raise_time]
      exact ⟨rfl, rfl, fun h => absurd h hs, fun _ => seen_raise_self⟩
  case select =>
    intro s v k hv hgood
    refine .of_next rfl ?_
    rw [if_neg (by omega), show v % 4 - 1 = k by omega, selectSource_good hgood]
    exact ⟨rfl, rfl⟩

end Sys2Proof.Machine

/-! What a called mailbox command comes to, and what datagrams leave of a session. -/

namespace Sys2Proof.Machine

open Sys2Proof

section

variable {s u : State} {m st d code : Nat} {data : List Byte} {ses : Session} {c : Instr} {f : Nat → Nat → State → CmdRes}
  {Q : State → Prop} (h : Called s m code ses) (hc : exec c s = .next (runCmd m code f s))

include h hc

theorem Called.doneWith (hf : f ses.role (mbxOf s m).session s = doneWith data u) (hQ : Q (mbxAnswer m 0 0 data u)) : Runs c s Q :=
  ⟨_, hc, by rwa [runCmd_doneWith h hf]⟩

theorem Called.done (hf : f ses.role (mbxOf s m).session s = done u) (hQ : Q (mbxAnswer m 0 0 [] u)) : Runs c s Q :=
  Called.doneWith h hc hf hQ

theorem Called.refuseD (hf : f ses.role (mbxOf s m).session s = refuseD st d u) (hst : st ≠ 0) (hQ : Q (mbxAnswer m st d [] s)) :
    Runs c s Q :=
  ⟨_, hc, by rwa [runCmd_refuseD h hf hst]⟩

theorem Called.refuse (hf : f ses.role (mbxOf s m).session s = refuse st u) (hst : st ≠ 0) (hQ : Q (mbxAnswer m st 0 [] s)) : Runs c s Q :=
  Called.refuseD h hc hf hst hQ

omit hc in
theorem Called.lt : m < 8 := h.1

end

section

variable {s : State} {γ : Type} {π : Session → γ} (hπ : ∀ x n, π { x with nextOut := n } = π x) {k : Nat} {y : Session}

include hπ

/-- A datagram that leaves changes of its session the number of the next. -/
theorem mbxSend_session {sid kind mailbox reqSeq : Nat} {body : List Byte}
    (hy : mget (mbxSend sid kind mailbox reqSeq body s).host.sessions k = some y) :
    ∃ x, mget s.host.sessions k = some x ∧ π y = π x := by
  unfold mbxSend at hy
  split at hy
  · exact ⟨y, hy, rfl⟩
  · next x hx =>
    by_cases hk : sid = k
    · subst hk
      refine ⟨x, hx, ?_⟩
      dsimp only at hy
      rw [State.mapHost_host] at hy
      dsimp only at hy
      split at hy
      · rw [mget_mdel_same] at hy
        cases hy
      · rw [mget_mset_same] at hy
        cases hy
        exact hπ _ _
    · refine ⟨y, ?_, rfl⟩
      dsimp only at hy
      rw [State.mapHost_host] at hy
      dsimp only at hy
      split at hy
      · rwa [mget_mdel_ne _ hk] at hy
      · rwa [mget_mset_ne _ _ hk] at hy

theorem mbxAnswer_session {m st d : Nat} {data : List Byte} (hy : mget (mbxAnswer m st d data s).host.sessions k = some y) :
    ∃ x, mget s.host.sessions k = some x ∧ π y = π x :=
  mbxSend_session hπ (s := (updMbx m _ s).mapMgt _) hy

end

/-- What a change of a session leaves, as one datagram after the other may. -/
theorem updSession_session {s : State} {sid : Nat} {f : Session → Session} {y : Session}
    (hy : mget (updSession sid f s).host.sessions sid = some y) : ∃ x, mget s.host.sessions sid = some x ∧ y = f x := by
  rw [updSession, State.mapHost_host, mget_mupd_same] at hy
  obtain ⟨x, hx, he⟩ := Option.map_eq_some_iff.mp hy
  exact ⟨x, hx, he.symm⟩

end Sys2Proof.Machine

/-! R174, R178, R179, R286, R516, R554, R564: the commands of class sys. -/

namespace Sys2Proof.Machine

open Sys2Proof

section

variable {s : State} {m st d : Nat} {data : List Byte}

theorem mbxAnswer_host_field {γ : Type} (π : HostPort → γ) (hπ : ∀ h v, π { h with sessions := v } = π h) :
    π (mbxAnswer m st d data s).host = π s.host := (mbxAnswer_mails m st d data s).host_field π hπ

theorem subscribe_mgt {sid from_ cls : Nat} : (subscribe sid from_ cls s).mgt = s.mgt ∧ (subscribe sid from_ cls s).tick = s.tick :=
  ⟨foldl_keeps (π := State.mgt) (fun _ _ => mbxSend_mgt ..) _ _, foldl_keeps (π := State.tick) (fun _ _ => mbxSend_tick ..) _ _⟩

/-- A session that remains is subscribed to what was asked for. -/
theorem subscribe_session {sid from_ cls : Nat} {y : Session} (hy : mget (subscribe sid from_ cls s).host.sessions sid = some y) :
    y.sub = some (cls, max from_ (s.flt.seq + 1)) := by
  obtain ⟨x, -, he⟩ := updSession_session hy
  rw [he]

end

/-- Settles O25: from the answer to each command and its effect. -/
theorem systemCommands : Obligations.SystemCommands := by
  unfold Obligations.SystemCommands
  refine ⟨⟨?identity, ?net, ?subscribe, ?reasons, ?reset, ?lock, ?apply⟩, ?commit, ?malformed, ?withdraw⟩
  case identity =>
    intro s m ses h
    exact h.doneWith rfl rfl (answered h.lt)
  case net =>
    intro s m v4 v6 ses h
    refine h.done rfl rfl ⟨answered h.lt, ?_, ?_⟩
    · exact mbxAnswer_host_field (·.ipv4) fun _ _ => rfl
    · exact mbxAnswer_host_field (·.ipv6) fun _ _ => rfl
  case subscribe =>
    intro s m from_ cls ses h
    obtain ⟨hmgt, htick⟩ := subscribe_mgt (s := s) (sid := (mbxOf s m).session) (from_ := from_) (cls := cls)
    refine h.done rfl rfl ⟨answered h.lt (by rw [hmgt]) htick, fun x hx => ?_⟩
    obtain ⟨y, hy, he⟩ := mbxAnswer_session (π := Session.sub) (fun _ _ => rfl) hx
    rw [he, subscribe_session hy]
  case reasons =>
    intro s m ses h
    exact h.doneWith rfl rfl (answered h.lt)
  case reset =>
    intro s m ses h
    refine h.done rfl rfl ⟨answered h.lt, ?_⟩
    rw [mbxAnswer_mgt]
    rfl
  case lock =>
    intro s m ses h
    refine h.done rfl rfl ⟨answered h.lt, ?_⟩
    rw [mbxAnswer_mgt]
    exact ⟨rfl, rfl⟩
  case apply =>
    intro s hnext
    refine .of_next rfl ?_
    rw [applyLock, if_pos hnext]
    exact ⟨rfl, rfl⟩
  case commit =>
    intro s m at_ byTime items ses h hok
    refine h.doneWith (f := fun _ _ a => sysCommit byTime at_ items a) rfl (by rw [sysCommit, hok]; rfl) ⟨answered h.lt ?_ ?_, ?_⟩
    · rw [ledgerWrite_mgt]
      rfl
    · exact ledgerWrite_tick ..
    · rw [mbxAnswer_coll, ledgerWrite_coll]
      exact ⟨rfl, rfl⟩
  case malformed =>
    intro s m at_ byTime items ses h hlen
    have hfault : commitFault s byTime at_ items = some stMalformed := by
      rw [commitFault, if_pos]
      exact hlen.imp_left fun he => by rw [he]; rfl
    refine h.refuse (f := fun _ _ a => sysCommit byTime at_ items a) rfl (by rw [sysCommit, hfault]) (by decide) ?_
    exact ⟨answered h.lt, mbxAnswer_coll⟩
  case withdraw =>
    intro s m id c ses h hc hearly
    have hf : sysWithdraw id s = done (s.mapColl fun k => { k with commits := k.commits.filter fun x => x.id != id }) := by
      simp only [sysWithdraw, hc]
      exact if_neg (by omega)
    refine h.done (f := fun _ _ a => sysWithdraw id a) rfl hf ⟨answered h.lt, fun x => ?_⟩
    rw [mbxAnswer_coll]
    simp [List.mem_filter]

end Sys2Proof.Machine

/-! The accessors of the state after an update of the same and of another entry, DRAM after a write, and control messages. -/

namespace Sys2Proof.Machine

open Sys2Proof

/-! ### The entries of the blocks -/

section

variable {s t : State} {n k : Nat}

theorem laneOf_updLane {f : Lane → Lane} (hn : n < 5) : laneOf (updLane n f s) n = f (laneOf s n) := vget_vupd_self hn

theorem laneOf_updLane_ne {f : Lane → Lane} (h : k ≠ n) : laneOf (updLane n f s) k = laneOf s k := vget_vupd_ne _ _ _ h.symm

/-- A property that an update keeps, every entry keeps. -/
theorem laneOf_updLane_keeps {γ : Type} {π : Lane → γ} {f : Lane → Lane} (hf : ∀ x, π (f x) = π x) : π (laneOf (updLane n f s) k) = π (laneOf s k) :=
  vget_vupd_keeps hf k

theorem laneOf_congr (h : t.line.lanes = s.line.lanes) : laneOf t = laneOf s := by
  funext i
  rw [laneOf, h, laneOf]

theorem lportOf_updLPort {f : LPort → LPort} (hn : n < 4) : lportOf (updLPort n f s) n = f (lportOf s n) := vget_vupd_self hn

theorem lportOf_updLPort_ne {f : LPort → LPort} (h : k ≠ n) : lportOf (updLPort n f s) k = lportOf s k := vget_vupd_ne _ _ _ h.symm

/-- A property that an update keeps, every entry keeps. -/
theorem lportOf_updLPort_keeps {γ : Type} {π : LPort → γ} {f : LPort → LPort} (hf : ∀ x, π (f x) = π x) : π (lportOf (updLPort n f s) k) = π (lportOf s k) :=
  vget_vupd_keeps hf k

theorem lportOf_congr (h : t.line.ports = s.line.ports) : lportOf t = lportOf s := by
  funext i
  rw [lportOf, h, lportOf]

theorem physOf_updPhys {f : PhysLane → PhysLane} (hn : n < 5) : physOf (updPhys n f s) n = f (physOf s n) := vget_vupd_self hn

theorem physOf_updPhys_ne {f : PhysLane → PhysLane} (h : k ≠ n) : physOf (updPhys n f s) k = physOf s k := vget_vupd_ne _ _ _ h.symm

/-- A property that an update keeps, every entry keeps. -/
theorem physOf_updPhys_keeps {γ : Type} {π : PhysLane → γ} {f : PhysLane → PhysLane} (hf : ∀ x, π (f x) = π x) : π (physOf (updPhys n f s) k) = π (physOf s k) :=
  vget_vupd_keeps hf k

theorem physOf_congr (h : t.opt.phys = s.opt.phys) : physOf t = physOf s := by
  funext i
  rw [physOf, h, physOf]

theorem keysOf_updKeys {f : PortKeys → PortKeys} (hn : n < 4) : keysOf (updKeys n f s) n = f (keysOf s n) := vget_vupd_self hn

theorem keysOf_updKeys_ne {f : PortKeys → PortKeys} (h : k ≠ n) : keysOf (updKeys n f s) k = keysOf s k := vget_vupd_ne _ _ _ h.symm

/-- A property that an update keeps, every entry keeps. -/
theorem keysOf_updKeys_keeps {γ : Type} {π : PortKeys → γ} {f : PortKeys → PortKeys} (hf : ∀ x, π (f x) = π x) : π (keysOf (updKeys n f s) k) = π (keysOf s k) :=
  vget_vupd_keeps hf k

theorem keysOf_congr (h : t.sec.ports = s.sec.ports) : keysOf t = keysOf s := by
  funext i
  rw [keysOf, h, keysOf]

theorem partnerOf_updPartner {f : Partner → Partner} (hn : n < 4) : partnerOf (updPartner n f s) n = f (partnerOf s n) := vget_vupd_self hn

theorem partnerOf_updPartner_ne {f : Partner → Partner} (h : k ≠ n) : partnerOf (updPartner n f s) k = partnerOf s k := vget_vupd_ne _ _ _ h.symm

/-- A property that an update keeps, every entry keeps. -/
theorem partnerOf_updPartner_keeps {γ : Type} {π : Partner → γ} {f : Partner → Partner} (hf : ∀ x, π (f x) = π x) : π (partnerOf (updPartner n f s) k) = π (partnerOf s k) :=
  vget_vupd_keeps hf k

theorem partnerOf_congr (h : t.sites.partners = s.sites.partners) : partnerOf t = partnerOf s := by
  funext i
  rw [partnerOf, h, partnerOf]

theorem portTimeOf_updPortTime {f : PortTime → PortTime} (hn : n < 4) : portTimeOf (updPortTime n f s) n = f (portTimeOf s n) := vget_vupd_self hn

theorem portTimeOf_updPortTime_ne {f : PortTime → PortTime} (h : k ≠ n) : portTimeOf (updPortTime n f s) k = portTimeOf s k := vget_vupd_ne _ _ _ h.symm

/-- A property that an update keeps, every entry keeps. -/
theorem portTimeOf_updPortTime_keeps {γ : Type} {π : PortTime → γ} {f : PortTime → PortTime} (hf : ∀ x, π (f x) = π x) : π (portTimeOf (updPortTime n f s) k) = π (portTimeOf s k) :=
  vget_vupd_keeps hf k

theorem portTimeOf_congr (h : t.time.ports = s.time.ports) : portTimeOf t = portTimeOf s := by
  funext i
  rw [portTimeOf, h, portTimeOf]

theorem bslot_updSlot {ctx cls c x : Nat} {f : BSlot → BSlot} : bslot (updSlot ctx cls f s) c x =
    if ctx * 8 + cls = c * 8 + x then f (bslot s c x) else bslot s c x := by
  rw [bslot, updSlot, State.mapCmp_cmp, mgetD_mupdD]
  split
  · next h => rw [h, bslot]
  · rfl

theorem bslot_updSlot_self {ctx cls : Nat} {f : BSlot → BSlot} : bslot (updSlot ctx cls f s) ctx cls = f (bslot s ctx cls) := by
  rw [bslot_updSlot, if_pos rfl]

theorem bslot_congr (h : t.cmp = s.cmp) : bslot t = bslot s := by
  funext c x
  rw [bslot, h, bslot]

theorem chanOf_updChan {f : Channel → Channel} : chanOf (updChan n f s) k = if n = k then f (chanOf s k) else chanOf s k := by
  rw [chanOf, updChan, State.mapMem_mem, mgetD_mupdD]
  split
  · next h => rw [h, chanOf]
  · rfl

theorem groupSites_updGroupSites {f : GroupSites → GroupSites} : groupSites (updGroupSites n f s) n = f (groupSites s n) := by
  have h := mgetD_mupdD s.sites.groups n n GroupSites.zero f
  rw [if_pos rfl] at h
  exact h

end

/-! ### Control messages (R333) -/

section

variable {s : State} {p : Nat} {ty : Nat} {fields : List Nat} {body : List Byte}

/-- A message that is not kept waits in its partner's queue. -/
theorem sendCtl_ctlQueue (hp : p < 4) (hk : CtlMsg.isKept ⟨ty, fields, body⟩ = false) :
    (partnerOf (sendCtl p ty fields body s) p).ctlQueue = (partnerOf s p).ctlQueue ++ [⟨ty, fields, body⟩] := by
  simp only [sendCtl, hk, Bool.and_false]
  exact congrArg Partner.ctlQueue (partnerOf_updPartner hp)

/-- A message changes of its partner what waits and what is kept. -/
theorem partnerOf_sendCtl_field {γ : Type} (π : Partner → γ) (hπ : ∀ x c k, π { x with ctlQueue := c, kept := k } = π x) (k : Nat) :
    π (partnerOf (sendCtl p ty fields body s) k) = π (partnerOf s k) := by
  unfold sendCtl
  refine partnerOf_updPartner_keeps fun x => ?_
  split
  · exact hπ x x.ctlQueue _
  · exact hπ x _ x.kept

end

/-! ### DRAM and user regions -/

section

variable {s : State} {a c : Nat} {l : List Byte}

theorem dramByte_dramWrite {i : Nat} (hi : i < l.length) : dramByte (dramWrite a l s) (a + i) = l.getD i 0 := by
  have h := cellGet_cellWrite s.mem.dram a (a + i) l
  rw [if_pos (by omega), Nat.add_sub_cancel_left] at h
  exact h

theorem dramByte_dramWrite_outside (h : c < a ∨ a + l.length ≤ c) : dramByte (dramWrite a l s) c = dramByte s c :=
  cellGet_cellWrite_outside _ h

theorem dramByte_congr {t : State} (h : t.mem = s.mem) : dramByte t = dramByte s := by
  funext k
  rw [dramByte, h, dramByte]

/-- What fits in a region is written as it is. -/
theorem regionWrite_fits {h off : Nat} {r : Region} (hr : regionOf s h = some r) (hfit : off + l.length ≤ r.size) :
    regionWrite h off l s = dramWrite (r.base + off) l s := by
  simp only [regionWrite, hr]
  rw [List.take_of_length_le (by omega)]

/-- What is written to a region, with its length as the answer. -/
theorem regionOut_fits {h off : Nat} {r : Region} (hr : regionOf s h = some r) (hfit : off + l.length ≤ r.size)
    (huse : regionInUse s h = false) : regionOut h off l s = doneWith (beBytes 4 l.length) (dramWrite (r.base + off) l s) := by
  simp only [regionOut, hr]
  rw [if_neg (by omega), huse, if_neg Bool.false_ne_true, regionWrite_fits hr hfit]

end

end Sys2Proof.Machine

/-! R496, R499, R549: manifests, and the commands of the shadow join. -/

namespace Sys2Proof.Machine

open Sys2Proof

/-! ### The manifest (R549) -/

section

variable {s : State} {region off len : Nat} {x : List Byte} (hx : regionArg s region off len 1 10856 = .ok x)

include hx

theorem manifestInstall_refused (hno : ¬ (mfValid s x = true ∧ ∀ o, s.bru.manifest = some o → mfield o 16 4 < mfield x 16 4)) :
    manifestInstall region off len s = refuse stInvalid s := by
  simp only [manifestInstall, hx]
  rw [if_pos]
  by_contra hc
  obtain ⟨hv, hn⟩ := not_or.mp hc
  refine hno ⟨not_not.mp hv, fun o ho => ?_⟩
  rw [ho] at hn
  simpa using hn

theorem manifestInstall_ok (hready : s.bru.ready = false) (hv : mfValid s x = true)
    (hnew : ∀ o, s.bru.manifest = some o → mfield o 16 4 < mfield x 16 4) : manifestInstall region off len s =
      done ([3, 4, 5, 6, 7, 8, 13, 15, 16].foldl (fun a c => happenedNow c a) (s.mapBru fun b => { b with manifest := some x })) := by
  simp only [manifestInstall, hx]
  rw [if_neg, if_neg]
  · rintro ⟨hr, -⟩
    rw [hready] at hr
    cases hr
  · rintro (hn | hn)
    · exact hn hv
    · cases hm : s.bru.manifest with
      | none => rw [hm] at hn; cases hn
      | some o =>
        have := hnew o hm
        rw [hm] at hn
        simp at hn
        omega

end

/-! ### The shadow join (R496, R499) -/

section

variable {s : State}

/-- What a datagram in Q1 leaves, a message in fragments leaves. -/
theorem sendFragments_field {γ : Type} (π : State → γ) (hπ : ∀ x f, π (x.mapQos f) = π x) (kind sid ident : Nat) (dst : Source)
    (body : List Byte) (s : State) : π (sendFragments kind sid ident dst body s) = π s := by
  unfold sendFragments
  exact foldl_keeps (π := π) (fun _ _ => hπ _ _) _ _

/-- The shadow's HELLO leaves its role and its peer, the line, the mailboxes and the tick. -/
theorem twinHello_spec (s : State) : (twinHello s).mgt = s.mgt ∧ (twinHello s).tick = s.tick ∧ (twinHello s).line = s.line ∧
    (twinHello s).sites.shadow.role = s.sites.shadow.role ∧ (twinHello s).sites.shadow.peer = s.sites.shadow.peer := by
  unfold twinHello
  extract_lets x r body whole id
  exact ⟨sendFragments_field (·.mgt) (fun _ _ => rfl) .., sendFragments_field (·.tick) (fun _ _ => rfl) ..,
    sendFragments_field (·.line) (fun _ _ => rfl) .., sendFragments_field (·.sites.shadow.role) (fun _ _ => rfl) ..,
    sendFragments_field (·.sites.shadow.peer) (fun _ _ => rfl) ..⟩

theorem laneOf_map_lanes {n : Nat} {f : Lane → Lane} (hn : n < 5) :
    laneOf (s.mapLine fun l => { l with lanes := l.lanes.map f }) n = f (laneOf s n) := vget_map _ _ _ _ hn

/-- What a control message leaves, the word of the promotion to the paired partners leaves. -/
theorem promoteWord_field {γ : Type} (π : State → γ) (hπ : ∀ x p f, π (updPartner p f x) = π x)
    (body : List Nat) (s : State) :
    π ((List.range 4).foldl (fun a p => if (keysOf a p).st = 4 then sendCtl p 0x30 body [] a else a) s) = π s :=
  foldl_keeps (π := π) (fun a p => by
    split
    · exact hπ _ _ _
    · rfl) _ _

/-- Events of this tick that a bring-up watches change its record of them. -/
theorem happened_field {γ : Type} (π : State → γ) (hπ : ∀ (x : State) (f : List Nat → List Nat), π (x.mapBru fun b => { b with happened := f b.happened }) = π x) (l : List Nat)
    (s : State) : π (l.foldl (fun a c => happenedNow c a) s) = π s :=
  foldl_keeps (π := π) (fun _ _ => hπ _ _) _ _

end

/-- Settles O26: from the answer to each command and its effect. -/
theorem manifestAndShadowCommands : Obligations.ManifestAndShadowCommands := by
  unfold Obligations.ManifestAndShadowCommands
  refine ⟨⟨?install, ?read⟩, ?join, ?accept, ?promote⟩
  case install =>
    intro s m region off len x ses h hx hready
    by_cases hok : mfValid s x = true ∧ ∀ o, s.bru.manifest = some o → mfield o 16 4 < mfield x 16 4
    · refine h.done rfl (manifestInstall_ok hx hready hok.1 hok.2) ⟨fun _ => ⟨answered h.lt ?_ ?_, ?_⟩, fun hno => absurd hok hno⟩
      · exact congrArg Mgt.mbx (happened_field (·.mgt) (fun _ _ => rfl) ..)
      · exact happened_field (·.tick) (fun _ _ => rfl) ..
      · rw [mbxAnswer_bru]
        exact happened_field (·.bru.manifest) (fun _ _ => rfl) ..
    · exact h.refuse rfl (manifestInstall_refused hx hok) (by decide)
        ⟨fun hyes => absurd hyes hok, fun _ => ⟨answered h.lt, mbxAnswer_bru⟩⟩
  case read =>
    intro s m region off x r ses h hx hr hfit huse
    have hf : regionOut region off x s = doneWith (beBytes 4 x.length) (dramWrite (r.base + off) x s) := regionOut_fits hr hfit huse
    refine h.doneWith (f := fun _ _ a => match a.bru.manifest with
      | none => refuse stRange a
      | some y => regionOut region off y a) rfl (by simpa only [hx] using hf) ⟨answered h.lt, fun i hi => ?_, fun a ha => ?_⟩
    · rw [dramByte_congr mbxAnswer_mem]
      exact dramByte_dramWrite hi
    · rw [dramByte_congr mbxAnswer_mem]
      exact dramByte_dramWrite_outside ha
  case join =>
    intro s m peer src ses h hrole henr
    have hf : shadowJoin peer src s = done (twinHello ((s.mapSites fun y => { y with shadow := Shadow.begin 1 (fixLen 8 peer) src }).mapLine
        fun l => { l with lanes := l.lanes.map fun x => { x with txUp := false } })) := by
      rw [shadowJoin, if_neg (not_not.mpr hrole), if_neg (not_not.mpr henr)]
    obtain ⟨hmgt, htick, hline, hr, hp⟩ := twinHello_spec ((s.mapSites fun y => { y with shadow := Shadow.begin 1 (fixLen 8 peer) src }).mapLine
        fun l => { l with lanes := l.lanes.map fun x => { x with txUp := false } })
    refine h.done rfl hf ⟨answered h.lt (congrArg Mgt.mbx hmgt) htick, ?_, ?_, fun n hn => ?_⟩
    · rw [mbxAnswer_sites, hr]
      rfl
    · rw [mbxAnswer_sites, hp]
      rfl
    · rw [laneOf_congr (congrArg Line.lanes (mbxAnswer_line.trans hline)), laneOf_map_lanes hn]
  case accept =>
    intro s m peer src ses h hrole henr
    have hf : shadowAccept peer src s = done (s.mapSites fun y => { y with shadow := Shadow.begin 2 (fixLen 8 peer) src }) := by
      rw [shadowAccept, if_neg (not_not.mpr hrole), if_neg (not_not.mpr henr)]
    refine h.done rfl hf ⟨answered h.lt, ?_⟩
    rw [mbxAnswer_sites]
    exact ⟨rfl, rfl⟩
  case promote =>
    intro s m at_ ses h hready
    have hno : ¬ (¬ promoteReady s = true ∨ ¬ true = true) := by simp [hready]
    by_cases hrole : s.sites.shadow.role = 2
    · refine h.done rfl (by rw [shadowPromote, if_neg hno, if_pos hrole]) ⟨answered h.lt ?_ ?_, ?_⟩
      · exact congrArg Mgt.mbx (promoteWord_field (·.mgt) (fun _ _ _ => rfl) ..)
      · exact promoteWord_field (·.tick) (fun _ _ _ => rfl) ..
      · rw [mbxAnswer_sites]
        exact promoteWord_field (·.sites.shadow.promoteAt) (fun _ _ _ => rfl) ..
    · refine h.done rfl (by rw [shadowPromote, if_neg hno, if_neg hrole]) ⟨answered h.lt, ?_⟩
      rw [mbxAnswer_sites]
      rfl

end Sys2Proof.Machine

/-! R173, R180, R295, R296, R597: group tables and host streams at the mailbox. -/

namespace Sys2Proof.Machine

open Sys2Proof

section

variable {s : State}

theorem mbxAnswer_streams {m st d : Nat} {data : List Byte} : (mbxAnswer m st d data s).host.streams = s.host.streams :=
  mbxAnswer_host_field (·.streams) fun _ _ => rfl

/-! ### Group tables (R173, R180, R597) -/

section

variable {entry : List Byte} {ms : List (List Byte)} {b : GroupTable} {r : GroupRec} (hb : GroupTable.ofBytes entry ms = b)
  (hr : mgetD s.coll.groups b.group GroupRec.new = r) (hs : r.standby = none) (hd : r.draining = none)

include hb hr hs hd

theorem groupStage_ok (hform : tableForm entry ms = true) (hok : tableOk s b = true)
    (hepoch : ∀ c, r.current = some c → b.epoch = (c.epoch + 1) % 2 ^ 16) :
    groupStage entry ms s = done (s.mapColl fun c => { c with groups := mset c.groups b.group { r with standby := some b } }) := by
  simp only [groupStage, hb, hr]
  rw [if_neg (by simp [hs, hd]), if_neg]
  rintro (h | h | h)
  · exact h hform
  · exact h hok
  · cases hc : r.current with
    | none => rw [hc] at h; cases h
    | some c => rw [hc] at h; exact bne_iff_ne.mp h (hepoch c hc)

theorem groupStage_form (hform : tableForm entry ms = false) : groupStage entry ms s = refuse 0x0101 s := by
  simp only [groupStage, hb, hr]
  rw [if_neg (by simp [hs, hd]), if_pos (.inl (by simp [hform]))]

end

theorem groupRead_current {g : Nat} {r : GroupRec} {b : GroupTable} (hr : mget s.coll.groups g = some r) (hc : r.current = some b)
    (hs : r.standby = none) (hd : r.draining = none) : groupRead g s = doneWith ([0, 0, 0, 0] ++ groupBytes r b) s := by
  simp only [groupRead, hr, hc, hs, hd, Option.map_some, Option.map_none, Option.getD_some, Option.getD_none, List.append_nil]
  exact if_neg Bool.false_ne_true

/-! ### Streams (R295, R296) -/

theorem streamOpen_ok {id ep port addr i o : Nat} {v6 : Bool} (hid : mget s.host.streams id = none) (h20 : id < 2 ^ 20) (hep : ep < 2 ^ 16) :
    streamOpen id ep v6 port addr i o s = done (s.takeFree.2.mapHost fun h => { h with
      streams := mset h.streams id { StreamCtx.fresh ep v6 (port % 2 ^ 16) addr (i % 2 ^ 32) (o % 2 ^ 32) s.tick with
        peerMac := s.takeFree.1 } }) := by
  rw [streamOpen, if_neg (by simp [mhas, hid]), if_neg (by omega)]

theorem streamClose_ok {id : Nat} {c : StreamCtx} (hc : mget s.host.streams id = some c) (hn : streamNamed s id = false) :
    ∃ ps, streamClose id s = done (freeCasks ps (s.mapHost fun h => { h with streams := mdel h.streams id })) := by
  simp only [streamClose, hc, hn]
  exact ⟨_, rfl⟩

end

/-- Settles O27: from the answer to each command and its effect. -/
theorem groupsAndStreams : Obligations.GroupsAndStreams := by
  unfold Obligations.GroupsAndStreams
  refine ⟨⟨?stage, ?form, ?read⟩, ?opened, ?closed⟩
  case stage =>
    intro s m entry ms ses h b r hs hd hform hok hepoch
    refine h.done rfl (groupStage_ok rfl rfl hs hd hform hok hepoch) ⟨answered h.lt, ?_⟩
    rw [mbxAnswer_coll]
    exact mget_mset_same ..
  case form =>
    intro s m entry ms ses h r hs hd hform
    exact h.refuse rfl (groupStage_form rfl rfl hs hd hform) (by decide) ⟨answered h.lt, mbxAnswer_coll⟩
  case read =>
    intro s m g r b ses h hr hc hs hd
    exact h.doneWith rfl (groupRead_current hr hc hs hd) (answered h.lt)
  case opened =>
    intro s m id ep port addr i o v6 ses h hid h20 hep
    refine h.done rfl (streamOpen_ok hid h20 hep) ⟨answered h.lt, ?_⟩
    rw [mbxAnswer_streams]
    exact ⟨_, mget_mset_same .., rfl, rfl, rfl, rfl, rfl, rfl, rfl⟩
  case closed =>
    intro s m id c ses h hc hn
    obtain ⟨ps, hf⟩ := streamClose_ok hc hn
    refine h.done rfl hf ⟨?_, fun k hk => ?_⟩
    · rw [mbxAnswer_streams, freeCasks_streams]
      exact mget_mdel_same ..
    · rw [mbxAnswer_streams, freeCasks_streams]
      exact mget_mdel_ne _ hk.symm

end Sys2Proof.Machine

/-! R130, R162 to R166, R198, R565: instances and programs at the mailbox. -/

namespace Sys2Proof.Machine

open Sys2Proof

section

variable {s : State}

/-! ### Instances (R130, R565) -/

theorem opStat_held {g i : Nat} {x : Instance} (hx : instOf s g i = some x) : opStat g i s =
    doneWith (endPayload i 0xFFFF (b2n x.fallowDone + 2 * b2n x.catchup) (sumNat (x.delivered.map (·.2))) 0xFFFF x.detailKind x.detail ++
      x.stats.toBytes) s := by
  simp only [opStat, hx]

theorem opStat_ended {g i : Nat} {e : EndedRec} (hx : instOf s g i = none)
    (he : (s.coll.ended.find? fun e => e.group == g && e.inst == i) = some e) : opStat g i s =
    doneWith (endPayload i e.code (b2n e.fallow + 2 * b2n e.catchup) e.chunks e.origin e.detailKind e.detail ++ e.stats.toBytes)
      (s.mapColl fun c => { c with ended := c.ended.filter fun y => !(y.group == g && y.inst == i) }) := by
  simp only [opStat, hx, he]

/-! ### Programs (R162 to R166) -/

theorem progLoad_ok {id region off len : Nat} {l : List Byte} (h1 : 1 ≤ id) (h2 : id ≤ 65535) (hl : regionArg s region off len 1 9248 = .ok l)
    (hnew : mget s.coll.programs id = none) (himg : checkImage shake256 l = none) (hroom : (residentImages s).length < 16)
    (hcells : sumNat ((residentImages s).map (·.lowered)) + (Image.ofBytes l).lowered ≤ 12288) :
    progLoad id region off len s =
      done (s.mapColl fun c => { c with programs := mset c.programs id ⟨some (Image.ofBytes l), none, []⟩ }) := by
  have hr : mgetD s.coll.programs id ⟨none, none, []⟩ = ⟨none, none, []⟩ := by rw [mgetD, hnew]; rfl
  simp only [progLoad, hl, hr, himg]
  rw [if_neg (by omega), if_neg (by decide), if_neg (by omega)]
  rfl

theorem progUnload_ok {id : Nat} {r : ProgRec} (hr : mget s.coll.programs id = some r)
    (huse : ∀ i ∈ r.current.toList ++ r.draining, imageInUse s i = false) :
    progUnload id s = done (s.mapColl fun c => { c with programs := mdel c.programs id }) := by
  simp only [progUnload, hr]
  rw [if_neg]
  intro h
  obtain ⟨i, hi, hu⟩ := List.any_eq_true.mp h
  rw [huse i hi] at hu
  cases hu

end

/-- Settles O28: from the answer to each command and its effect. -/
theorem instancesAndPrograms : Obligations.InstancesAndPrograms := by
  unfold Obligations.InstancesAndPrograms
  refine ⟨⟨?held, ?ended, ?list, ?abort⟩, ?load, ?unload, ?programs⟩
  case held =>
    intro s m g i x ses h hx
    exact h.doneWith rfl (opStat_held hx) ⟨mbxAnswer_coll, answered h.lt⟩
  case ended =>
    intro s m g i e ses h hx he
    refine h.doneWith rfl (opStat_ended hx he) ⟨fun y hy => ?_, answered h.lt⟩
    rw [mbxAnswer_coll] at hy
    simpa only [Bool.not_eq_eq_eq_not, Bool.not_true, Bool.and_eq_false_imp, beq_iff_eq, beq_eq_false_iff_ne, not_and] using
      (List.mem_filter.mp hy).2
  case list =>
    intro s m first ses h
    exact h.doneWith rfl rfl (answered h.lt)
  case abort =>
    intro s m g i x ses h hx
    have hf : opAbort g i s = done (askAbort g i 5 0x0402 0 0 s) := by rw [opAbort, if_pos (by rw [hx]; rfl)]
    refine h.done rfl hf ⟨answered h.lt, ?_⟩
    rw [mbxAnswer_coll]
    exact ⟨_, rfl, rfl, rfl, rfl, rfl⟩
  case load =>
    intro s m id region off len l ses h h1 h2 hl hnew himg hroom hcells
    refine h.done rfl (progLoad_ok h1 h2 hl hnew himg hroom hcells) ⟨answered h.lt, ?_⟩
    rw [mbxAnswer_coll]
    exact mget_mset_same ..
  case unload =>
    intro s m id r ses h hr huse
    refine h.done rfl (progUnload_ok hr huse) ⟨answered h.lt, ?_, fun k hk => ?_⟩
    · rw [mbxAnswer_coll]
      exact mget_mdel_same ..
    · rw [mbxAnswer_coll]
      exact mget_mdel_ne _ hk.symm
  case programs =>
    intro s m ses h
    exact h.doneWith rfl rfl (answered h.lt)

end Sys2Proof.Machine

/-! R276, R277, R316: user regions at the mailbox. -/

namespace Sys2Proof.Machine

open Sys2Proof

section

variable {s : State}

/-! ### Creation (R276) -/

theorem firstFrom_lt {p : Nat → Bool} {fuel n k : Nat} (h : firstFrom fuel n p = some k) : k < n + fuel := by
  induction fuel generalizing n with
  | zero => cases h
  | succ fuel ih =>
    rw [firstFrom] at h
    split at h
    · cases h
      omega
    · have := ih h
      omega

theorem mget_filter {α : Type} (m : SMap α) (p : Nat → Bool) (k : Nat) :
    mget (m.filter fun c => p c.1) k = if p k then mget m k else none := by
  induction m with
  | nil => simp [mget]
  | cons c m ih =>
    obtain ⟨n, v⟩ := c
    by_cases hn : n = k
    · subst hn
      by_cases hp : p n = true <;> simp_all [mget]
    · by_cases hp : p n = true <;> simp [hp, mget, hn, ih]

theorem dramByte_dramClear {a n c : Nat} : dramByte (dramClear a n s) c = if a ≤ c ∧ c < a + n then 0 else dramByte s c := by
  have h := mget_filter s.mem.dram (fun k => !(decide (a ≤ k) && decide (k < a + n))) c
  rw [dramByte, cellGet]
  refine (congrArg (Option.getD · memDefault) h).trans ?_
  by_cases hc : a ≤ c ∧ c < a + n
  · simp [hc]
    rfl
  · rw [if_pos (by simp only [← Bool.decide_and, decide_eq_false hc, Bool.not_false]), if_neg hc]
    rfl

/-- A region created reads 0 under its handle, and other memory stays. -/
theorem regionCreate_ok {size k b : Nat} (h0 : size ≠ 0) (hpage : size % 4096 = 0) (hk : freeRegionSlot s = some k)
    (hb : placeRegion s size = some b) : ∃ gen, gen ≠ 0 ∧ regionCreate size s = doneWith (beBytes 4 (gen * 4096 + k))
      (dramClear b size (s.mapMem fun m => { m with regions := mset m.regions k ⟨gen, b, size, true⟩ })) := by
  simp only [regionCreate, hk, hb]
  refine ⟨_, ?_, if_neg (by omega)⟩
  split
  · exact one_ne_zero
  · assumption

theorem regionOf_created {size k b gen : Nat} (hk : k < 4096) (hg : gen ≠ 0) :
    regionOf (dramClear b size (s.mapMem fun m => { m with regions := mset m.regions k ⟨gen, b, size, true⟩ })) (gen * 4096 + k) =
      some ⟨gen, b, size, true⟩ := by
  have hm : (gen * 4096 + k) % 4096 = k := by omega
  have hr : mget (dramClear b size (s.mapMem fun m => { m with regions := mset m.regions k ⟨gen, b, size, true⟩ })).mem.regions
      ((gen * 4096 + k) % 4096) = some ⟨gen, b, size, true⟩ := by
    rw [hm]
    exact mget_mset_same ..
  simp only [regionOf, hr]
  rw [if_pos ⟨trivial, by omega, by omega⟩]

theorem regionOf_congr {t : State} (h : t.mem = s.mem) : regionOf t = regionOf s := by
  funext k
  rw [regionOf, regionOf, h]

/-! ### Free, read and write (R277) -/

section

variable {h : Nat} {r : Region} (hr : regionOf s h = some r)

include hr

theorem regionFree_ok (huse : regionInUse s h = false) : regionFree h s =
    done (s.mapMem fun m => { m with regions := mupd m.regions (h % 4096) fun r => { r with live := false } }) := by
  rw [regionFree, hr, huse]
  rfl

omit hr in
theorem regionOf_freed : regionOf (s.mapMem fun m => { m with regions := mupd m.regions (h % 4096) fun r => { r with live := false } }) h =
    none := by
  have hm : mget (s.mapMem fun m => { m with regions := mupd m.regions (h % 4096) fun r => { r with live := false } }).mem.regions
      (h % 4096) = (mget s.mem.regions (h % 4096)).map fun r => { r with live := false } := mget_mupd_same ..
  simp only [regionOf, hm]
  cases mget s.mem.regions (h % 4096) with
  | none => rfl
  | some x => exact if_neg fun hl => Bool.false_ne_true hl.1

theorem regionArg_ok {off len lo hi : Nat} (h1 : lo ≤ len) (h2 : len ≤ hi) (hfit : off + len ≤ r.size)
    (hp : regionPoisoned s h off len = false) : regionArg s h off len lo hi = .ok (dramRead s (r.base + off) len) := by
  simp only [regionArg, hr]
  rw [if_neg (by omega), if_neg (by omega), hp, regionRead, hr]
  rfl

theorem regionPut_ok {off : Nat} {d : List Byte} (hd : d.length ≤ 4064) (hfit : off + d.length ≤ r.size) (huse : regionInUse s h = false)
    (htorn : regionTorn s h off d.length = false) : regionPut h off d s = done (dramWrite (r.base + off) d s) := by
  simp only [regionPut, hr]
  rw [if_neg (by omega), if_neg (by omega), huse, htorn, regionWrite_fits hr hfit]
  rfl

end

/-! ### Bulk data (R316) -/

/-- Bulk data to be received waits for the host. -/
theorem bulkPump_receiving {sid fuel : Nat} {u : State} (h : ∀ x, mget u.host.sessions sid = some x → ∃ b, x.bulk = some b ∧ b.sending = false) :
    bulkPump fuel sid u = u := by
  cases fuel with
  | zero => rfl
  | succ fuel =>
    rw [bulkPump]
    cases hx : mget u.host.sessions sid with
    | none => rfl
    | some x =>
      obtain ⟨b, hb, hs⟩ := h x hx
      simp only [Option.bind_some, hb]
      exact if_pos (.inl (by simp [hs]))

/-- Bulk data to be received is kept with its session. -/
theorem bulkOpen_receiving {sid kind target off len : Nat} {ses : Session} (hses : mget s.host.sessions sid = some ses)
    (hnone : ses.bulk = none) (hlen : len ≠ 0) : bulkOpen sid kind target off len false s =
      done (updSession sid (fun x => { x with bulk := some ⟨kind, target, off, len, false, 1, 0, s.tick⟩ }) s) := by
  rw [bulkOpen, if_neg (by simp [hses, hnone]), if_neg hlen]
  refine congrArg done (bulkPump_receiving fun x hx => ?_)
  obtain ⟨y, -, he⟩ := updSession_session hx
  exact ⟨_, congrArg Session.bulk he, rfl⟩

end

/-- Settles O29: from the answer to each command and its effect. -/
theorem userRegions : Obligations.UserRegions := by
  unfold Obligations.UserRegions
  refine ⟨?create, ?free, ?read, ?write, ?bulk, ?info⟩
  case create =>
    intro s m size k b ses h h0 hpage hk hb
    obtain ⟨gen, hg, hf⟩ := regionCreate_ok h0 hpage hk hb
    have hlt : k < 4096 := by simpa using firstFrom_lt hk
    refine h.doneWith rfl hf ⟨_, ⟨gen, b, size, true⟩, answered h.lt, by omega, ?_, rfl, rfl, fun a ha hb => ?_, fun a ha => ?_⟩
    · rw [regionOf_congr mbxAnswer_mem]
      exact regionOf_created hlt hg
    · rw [dramByte_congr mbxAnswer_mem, dramByte_dramClear, if_pos ⟨ha, hb⟩]
    · rw [dramByte_congr mbxAnswer_mem, dramByte_dramClear, if_neg (by omega)]
      rfl
  case free =>
    intro s m h r ses hc hr huse
    refine hc.done rfl (regionFree_ok hr huse) ⟨answered hc.lt, ?_, ?_⟩
    · rw [regionOf_congr mbxAnswer_mem]
      exact regionOf_freed
    · rw [mbxAnswer_mem]
      rfl
  case read =>
    intro s m h off len r ses hc hr hlen hfit hp
    have hf : (match regionArg s h off len 0 4064 with
      | .error e => refuse e s
      | .ok l => doneWith l s) = doneWith (dramRead s (r.base + off) len) s := by
      rw [regionArg_ok hr (Nat.zero_le _) hlen hfit hp]
    exact hc.doneWith (f := fun _ _ a => match regionArg a h off len 0 4064 with
      | .error e => refuse e a
      | .ok l => doneWith l a) rfl hf ⟨answered hc.lt, mbxAnswer_mem⟩
  case write =>
    intro s m h off d r ses hc hr hd hfit huse htorn
    refine hc.done rfl (regionPut_ok hr hd hfit huse htorn) ⟨answered hc.lt, fun i hi => ?_, fun a ha => ?_⟩
    · rw [dramByte_congr mbxAnswer_mem]
      exact dramByte_dramWrite hi
    · rw [dramByte_congr mbxAnswer_mem]
      exact dramByte_dramWrite_outside ha
  case bulk =>
    intro s m h off len r ses hc hr hlen hfit huse hnone
    have hses : mget s.host.sessions (mbxOf s m).session = some ses := hc.2.2.1
    let b : Bulk := ⟨0, h, off, len, false, 1, 0, s.tick⟩
    have hf : (match regionOf s h with
      | none => refuse stRange s
      | some r =>
        if r.size < off + len then refuse stRange s
        else if ¬ false ∧ regionInUse s h then refuse stBusy s
        else bulkOpen (mbxOf s m).session 0 h off len false s) =
          done (updSession (mbxOf s m).session (fun x => { x with bulk := some b }) s) := by
      simp only [hr]
      rw [if_neg (by omega), if_neg (by simp [huse]), bulkOpen_receiving hses hnone hlen]
    refine hc.done (f := fun _ sid a => match regionOf a h with
      | none => refuse stRange a
      | some r =>
        if r.size < off + len then refuse stRange a
        else if ¬ false ∧ regionInUse a h then refuse stBusy a
        else bulkOpen sid 0 h off len false a) rfl hf ⟨answered hc.lt, fun x hx => ⟨b, ?_, rfl, rfl, rfl, rfl, rfl⟩⟩
    obtain ⟨y, hy, he⟩ := mbxAnswer_session (π := (·.bulk)) (fun _ _ => rfl) hx
    obtain ⟨z, -, hz⟩ := updSession_session hy
    exact he.trans (congrArg Session.bulk hz)
  case info =>
    intro s m ses h
    exact h.doneWith rfl rfl (answered h.lt)

end Sys2Proof.Machine

/-! R410, R411, R415, R417: the owner anchor, enrolment, attestation and a new pairing. -/

namespace Sys2Proof.Machine

open Sys2Proof

section

variable {s : State}

theorem seen_congr {t : State} (h : t.flt.counts = s.flt.counts) (c : Nat) : seen t c = seen s c := by rw [seen, seen, h]

/-! ### The anchor (R410) -/

theorem happenedNow_sec (c : Nat) (s : State) : (happenedNow c s).sec = s.sec := rfl

theorem happenedNow_mgt (c : Nat) (s : State) : (happenedNow c s).mgt = s.mgt := rfl

theorem happenedNow_tick (c : Nat) (s : State) : (happenedNow c s).tick = s.tick := rfl

theorem happenedNow_flt (c : Nat) (s : State) : (happenedNow c s).flt = s.flt := rfl

theorem holdAnchor_sec (c : List Byte) (s : State) : (holdAnchor c s).sec = { s.sec with anchor := some (shake256 c 32), anchorKey := certKey c } := by
  rw [holdAnchor, happenedNow_sec, happenedNow_sec, ledgerWrite_sec, State.mapSec_sec]

theorem holdAnchor_mgt (c : List Byte) (s : State) : (holdAnchor c s).mgt = s.mgt := by
  rw [holdAnchor, happenedNow_mgt, happenedNow_mgt, ledgerWrite_mgt, State.mapSec_mgt]

theorem holdAnchor_tick (c : List Byte) (s : State) : (holdAnchor c s).tick = s.tick := by
  rw [holdAnchor, happenedNow_tick, happenedNow_tick, ledgerWrite_tick, State.mapSec_tick]

theorem holdAnchor_counts (c : List Byte) (s : State) : (holdAnchor c s).flt.counts = s.flt.counts := by
  rw [holdAnchor, happenedNow_flt, happenedNow_flt, (ledgerWrite_rest ..).1, State.mapSec_flt]

/-! ### Enrolment (R411) -/

variable {region off len : Nat} {l : List Byte}

section

variable (hl : regionArg s region off len 1 9432 = .ok l)

include hl

theorem enrolInstall_ok (hc : chainFault s s.sec.anchor 3 10 l = none) (hs : certSubject (chainLeaf l) = ownId s)
    (hk : certKey (chainLeaf l) = fixLen 1793 Config.identityKey) : enrolInstall region off len s =
      done (happenedNow 2 (s.mapSec fun k => { k with chain := chunks 3144 l, enrolled := true })) := by
  simp only [enrolInstall, hl]
  rw [if_neg]
  rintro (h | h | h)
  · rw [hc] at h
    cases h
  · exact h hs
  · exact h hk

theorem enrolInstall_refused (h : ¬ (chainFault s s.sec.anchor 3 10 l = none ∧ certSubject (chainLeaf l) = ownId s ∧
    certKey (chainLeaf l) = fixLen 1793 Config.identityKey)) : enrolInstall region off len s = refuse stInvalid s := by
  simp only [enrolInstall, hl]
  rw [if_pos]
  by_contra hc
  obtain ⟨h1, h23⟩ := not_or.mp hc
  obtain ⟨h2, h3⟩ := not_or.mp h23
  exact h ⟨Option.not_isSome_iff_eq_none.mp h1, not_not.mp h2, not_not.mp h3⟩

end

theorem anchorReplace_eq (hl : regionArg s region off 4424 4424 4424 = .ok l) : anchorReplace region off 4424 s =
    if (anchorOk (l.take 3144) && Config.falconVerify s.sec.anchorKey (l.take 3144) (l.drop 3144)) = true then
      done (holdAnchor (l.take 3144) s) else refuse stInvalid s := by
  simp only [anchorReplace, hl]
  by_cases h1 : anchorOk (l.take 3144) = true <;>
    by_cases h2 : Config.falconVerify s.sec.anchorKey (l.take 3144) (l.drop 3144) = true <;> simp [h1, h2]

/-! ### A new pairing (R415) -/

/-- A new attempt shows its step and unpairs the port, and draws what the P-HELLO needs. -/
theorem beginPairing_eq (p : Nat) (s : State) : ∃ f : PortKeys → PortKeys, (∀ k, (f k).st = 1) ∧
    beginPairing p s = sendHello p (updPartner p (fun x => { x with paired := false }) (updKeys p f s.takeFree.2.takeFree.2)) :=
  ⟨_, fun _ => rfl, rfl⟩

theorem sendHello_st (p k : Nat) (s : State) : (keysOf (sendHello p s) k).st = (keysOf s k).st :=
  keysOf_updKeys_keeps (π := (·.st)) fun _ => rfl

theorem sendHello_paired (p k : Nat) (s : State) : (partnerOf (sendHello p s) k).paired = (partnerOf s k).paired :=
  partnerOf_updPartner_keeps (π := (·.paired)) fun _ => rfl

theorem sendHello_mgt (p : Nat) (s : State) : (sendHello p s).mgt = s.mgt := rfl

theorem sendHello_tick (p : Nat) (s : State) : (sendHello p s).tick = s.tick := rfl

theorem beginPairing_mgt (p : Nat) (s : State) : (beginPairing p s).mgt = s.mgt := by
  obtain ⟨f, -, he⟩ := beginPairing_eq p s
  rw [he, sendHello_mgt]
  rfl

theorem beginPairing_spec {p : Nat} (hp : p < 4) (s : State) : (keysOf (beginPairing p s) p).st = 1 ∧
    (partnerOf (beginPairing p s) p).paired = false ∧ (beginPairing p s).mgt = s.mgt ∧ (beginPairing p s).tick = s.tick := by
  obtain ⟨f, hf, he⟩ := beginPairing_eq p s
  rw [he, sendHello_st, sendHello_paired, sendHello_mgt, sendHello_tick]
  refine ⟨?_, ?_, rfl, rfl⟩
  · exact (congrArg PortKeys.st (keysOf_updKeys hp)).trans (hf _)
  · rw [partnerOf_updPartner hp]

end

/-- Settles O30: from the answer to each command and its effect. -/
theorem anchorAndEnrolment : Obligations.AnchorAndEnrolment := by
  unfold Obligations.AnchorAndEnrolment
  refine ⟨?install, ?held, ?replace, ?request, ?enrol, ?attest, ?pair⟩
  case install =>
    intro s m cert ses h hnone
    have h0 : ¬ s.sec.anchor.isSome = true := by simp [hnone]
    cases hok : anchorOk cert with
    | true =>
      have hf : anchorInstall cert s = done (raise 0x1A03 [] (holdAnchor cert s)) := by
        rw [anchorInstall, if_neg h0, if_neg (not_not.mpr hok)]
      refine h.done rfl hf ⟨fun _ => ⟨answered h.lt ?_ ?_, ?_, ?_, ?_⟩, fun hno => absurd hno (Bool.noConfusion)⟩
      · rw [raise_mgt, holdAnchor_mgt]
      · rw [raise_tick, holdAnchor_tick]
      · rw [mbxAnswer_sec, raise_sec, holdAnchor_sec]
      · rw [mbxAnswer_sec, raise_sec, holdAnchor_sec]
      · rw [seen_congr (congrArg Flt.counts mbxAnswer_flt), seen_raise_self, seen_congr (holdAnchor_counts cert s)]
    | false =>
      have hf : anchorInstall cert s = refuse stInvalid s := by rw [anchorInstall, if_neg h0, if_pos (by simp [hok])]
      exact h.refuse rfl hf (by decide) ⟨fun hyes => absurd hyes (Bool.noConfusion), fun _ => ⟨answered h.lt, mbxAnswer_sec⟩⟩
  case held =>
    intro s m cert old ses h hold
    have hf : anchorInstall cert s = refuse stBusy s := by rw [anchorInstall, if_pos (by simp [hold])]
    exact h.refuse rfl hf (by decide) ⟨answered h.lt, mbxAnswer_sec⟩
  case replace =>
    intro s m region off l ses h hl
    have hf := anchorReplace_eq hl
    split at hf
    · next hg =>
      refine h.done rfl hf ⟨fun _ => ⟨answered h.lt (congrArg Mgt.mbx (holdAnchor_mgt ..)) (holdAnchor_tick ..), ?_, ?_⟩,
        fun hno => absurd (hg.symm.trans hno) Bool.noConfusion⟩
      · rw [mbxAnswer_sec, holdAnchor_sec]
      · rw [mbxAnswer_sec, holdAnchor_sec]
    · next hg => exact h.refuse rfl hf (by decide) ⟨fun hyes => absurd hyes hg, fun _ => ⟨answered h.lt, mbxAnswer_sec⟩⟩
  case request =>
    intro s m ses h
    exact h.doneWith rfl rfl (answered h.lt)
  case enrol =>
    intro s m region off len l ses h hl
    by_cases hg : chainFault s s.sec.anchor 3 10 l = none ∧ certSubject (chainLeaf l) = ownId s ∧
        certKey (chainLeaf l) = fixLen 1793 Config.identityKey
    · refine h.done rfl (enrolInstall_ok hl hg.1 hg.2.1 hg.2.2) ⟨fun _ => ⟨answered h.lt, ?_, ?_⟩, fun hno => absurd hg hno⟩
      · rw [mbxAnswer_sec]
        rfl
      · rw [mbxAnswer_sec]
        rfl
    · exact h.refuse rfl (enrolInstall_refused hl hg) (by decide) ⟨fun hyes => absurd hyes hg, fun _ => ⟨answered h.lt, mbxAnswer_sec⟩⟩
  case attest =>
    intro s m h off nonce r ses hc hn d hr hfit huse
    have hf : attest nonce h off s = doneWith (beBytes 4 d.length) (dramWrite (r.base + off) d s) := by
      rw [attest, if_neg (not_not.mpr hn)]
      exact regionOut_fits hr hfit huse
    clear_value d
    refine hc.doneWith rfl hf ⟨answered hc.lt, fun k hk => ?_, fun i hi => ?_⟩
    · rw [dramByte_congr mbxAnswer_mem]
      exact dramByte_dramWrite_outside hk
    · rw [dramByte_congr mbxAnswer_mem]
      exact dramByte_dramWrite hi
  case pair =>
    intro s m port ses h hp hst hbit
    obtain ⟨h1, h2, hmgt, htick⟩ := beginPairing_spec hp s
    have hf : pairRestart port s = done (beginPairing port s) := by
      rw [pairRestart, if_neg (by omega), if_neg (by simp [hst, hbit])]
    refine h.done rfl hf ⟨answered h.lt (congrArg Mgt.mbx hmgt) htick, ?_, ?_⟩
    · rw [keysOf_congr (congrArg Sec.ports mbxAnswer_sec), h1]
    · rw [partnerOf_congr (congrArg Sites.partners mbxAnswer_sites), h2]

end Sys2Proof.Machine

/-! R428, R437, R442, R447, R462: time, clocks and schedulers at the mailbox. -/

namespace Sys2Proof.Machine

open Sys2Proof

section

variable {s t : State} {n : Nat}

theorem schedOf_updStandby {f : QSettings → QSettings} (hn : n < 5) :
    schedOf (updStandby n f s) n = { schedOf s n with standby := f (schedOf s n).standby } := by
  rw [updStandby, schedOf_mapQos, if_pos ⟨rfl, hn⟩]

/-- A field of a queue other than its items. -/
theorem Mails.queue_field {γ : Type} (h : Mails s t) (π : EQueue → γ) (hπ : ∀ e l, π { e with items := l } = π e) (n q : Nat) :
    π ((schedOf t n).queue q) = π ((schedOf s n).queue q) := by
  obtain ⟨l, hl⟩ := h.queue
  rw [hl]
  split
  · exact hπ _ _
  · rfl

variable {m st d : Nat} {data : List Byte}

theorem schedOf_mbxAnswer_field {γ : Type} (π : Sched → γ) (hπ : ∀ c v, π { c with queues := v } = π c) :
    π (schedOf (mbxAnswer m st d data s) n) = π (schedOf s n) := (mbxAnswer_mails m st d data s).sched_field π hπ n

theorem qosStage_rate {q v : Nat} (hn : n < 5) (hq : q < 16) (hv : v < 2 ^ 24) :
    qosStage n 0 q v s = done (updStandby n (fun c => { c with rates := c.rates.set q v }) s) := by
  unfold qosStage
  extract_lets put
  rw [if_neg (by omega)]
  exact if_neg (Nat.not_le.mpr hv)

theorem qosStage_quantum {v : Nat} (hn : n < 5) (hv : v < 512) :
    qosStage n 3 0 v s = done (updStandby n (fun c => { c with quantum := v }) s) := by
  unfold qosStage
  extract_lets put
  rw [if_neg (by omega)]
  exact if_neg (Nat.not_le.mpr hv)

end

/-- Settles O32: from the answer to each command and its effect. -/
theorem timeAndQosCommands : Obligations.TimeAndQosCommands := by
  unfold Obligations.TimeAndQosCommands
  refine ⟨?set, ?toSource, ?select, ?map, ?rate, ?quantum, ?hist⟩
  case set =>
    intro s m v ses h
    refine h.done rfl rfl ⟨answered h.lt, ?_, ?_⟩
    · rw [mbxAnswer_time]
      rfl
    · rw [mbxAnswer_time]
      rfl
  case toSource =>
    intro s m v ses h hq
    have hf : timStep true v s = done (s.mapTime fun t => { t with stepTo := none, stepBy := some (meanOf (t.samples.take (qualCount s))) }) := by
      rw [timStep, if_neg (by simp), if_neg (Nat.not_lt.mpr hq)]
    refine h.done rfl hf ⟨answered h.lt, ?_, ?_⟩
    · rw [mbxAnswer_time]
      rfl
    · rw [mbxAnswer_time]
      rfl
  case select =>
    intro s m k ses h hk hgood
    have hf : clkSelect k s = ⟨0, 0, [], s.mapTime fun t => { t with selectNext := some (k, false) }, false⟩ := by
      rw [clkSelect, if_neg (by omega), if_pos hgood, selectSource_good hgood]
      rfl
    have hr := runCmdWith_called (keep := true) (f := fun _ _ a => clkSelect k a) h hf
    rw [if_pos (.inl rfl)] at hr
    refine .of_next (congrArg Host.Outcome.next hr) ⟨answered h.lt, ?_⟩
    rw [mbxAnswer_time]
    rfl
  case map =>
    intro s m n g q ses h hn hq h0 hg
    have hf : qosGroupMap n g q s = done (updStandby n (fun v => { v with groupMap := mset v.groupMap g q }) s) := by
      rw [qosGroupMap, if_neg]
      rintro (h | h | h | h)
      · omega
      · omega
      · omega
      · rw [Option.isNone_iff_eq_none.mp h] at hg
        cases hg
    refine h.done rfl hf ⟨answered h.lt, ?_, ?_⟩
    · rw [schedOf_mbxAnswer_field (·.standby) fun _ _ => rfl, schedOf_updStandby hn]
      exact mget_mset_same ..
    · rw [schedOf_mbxAnswer_field (·.active) fun _ _ => rfl, schedOf_updStandby hn]
  case rate =>
    intro s m n q v ses h hn hq hv
    refine h.done rfl (qosStage_rate hn hq hv) ⟨answered h.lt, ?_, ?_⟩
    · rw [schedOf_mbxAnswer_field (·.standby) fun _ _ => rfl, schedOf_updStandby hn]
    · rw [schedOf_mbxAnswer_field (·.active) fun _ _ => rfl, schedOf_updStandby hn]
  case quantum =>
    intro s m n v ses h hn hv
    refine h.done rfl (qosStage_quantum hn hv) ⟨answered h.lt, ?_⟩
    rw [schedOf_mbxAnswer_field (·.standby) fun _ _ => rfl, schedOf_updStandby hn]
  case hist =>
    intro s m n q ses h hn hq
    have hcleared : ∀ u : State, ((schedOf (u.mapQos fun v => vupd v n fun c => c.updQueue q fun x =>
        { x with depthHist := List.replicate 16 0, delayHist := List.replicate 16 0 }) n).queue q) =
          { (schedOf u n).queue q with depthHist := List.replicate 16 0, delayHist := List.replicate 16 0 } := fun u => by
      rw [schedOf_mapQos, if_pos ⟨rfl, hn⟩, queue_updQueue, if_pos ⟨rfl, hq⟩]
    have hf : qosHistRead n q s = doneWith ((((schedOf s n).queue q).depthHist ++ ((schedOf s n).queue q).delayHist).map (beBytes 4)).flatten
        (s.mapQos fun v => vupd v n fun c => c.updQueue q fun x =>
          { x with depthHist := List.replicate 16 0, delayHist := List.replicate 16 0 }) := by
      rw [qosHistRead, if_neg (by omega)]
      rfl
    refine h.doneWith rfl hf ⟨answered h.lt, ?_, ?_⟩
    · rw [(mbxAnswer_mails ..).queue_field (·.depthHist) fun _ _ => rfl, hcleared]
    · rw [(mbxAnswer_mails ..).queue_field (·.delayHist) fun _ _ => rfl, hcleared]

end Sys2Proof.Machine

/-! R568, R572 to R574: firmware slots at the mailbox. -/

namespace Sys2Proof.Machine

open Sys2Proof

section

variable {s : State} {k : Nat}

/-- Of management an answer leaves everything but the mailboxes and their order. -/
theorem mbxAnswer_mgt_field {γ : Type} (π : Mgt → γ) (hπ : ∀ g v o, π { g with mbx := v, order := o } = π g) {m st d : Nat}
    {data : List Byte} : π (mbxAnswer m st d data s).mgt = π s.mgt := by
  rw [mbxAnswer_mgt]
  exact hπ _ _ _

theorem fwSlotOf_congr {t : State} (h : t.mgt.slots = s.mgt.slots) : fwSlotOf t = fwSlotOf s := by
  funext i
  rw [fwSlotOf, fwSlotOf, h]

theorem fwSlotOf_mbxAnswer {m st d : Nat} {data : List Byte} : fwSlotOf (mbxAnswer m st d data s) = fwSlotOf s :=
  fwSlotOf_congr (mbxAnswer_mgt_field (·.slots) fun _ _ _ => rfl)

theorem fwSlotOf_fwState {st : Nat} (hk : k < 2) : fwSlotOf (fwState k st s) k = { fwSlotOf s k with state := st } := vget_vupd_self hk

theorem fwSlotOf_fwStore {off : Nat} {l : List Byte} (hk : k < 2) :
    fwSlotOf (fwStore k off l s) k = { fwSlotOf s k with state := 1, data := cellWrite (fwSlotOf s k).data off l } := vget_vupd_self hk

theorem lt_of_fwOpen (h : fwOpen s k = true) : k < 2 := by
  rw [fwOpen, Bool.and_eq_true, Bool.and_eq_true] at h
  exact of_decide_eq_true h.1.1

section

variable (ho : fwOpen s k = true)

include ho

theorem fwWrite_ok {off : Nat} {d : List Byte} (hd : d.length ≤ 4064) (hfit : off + d.length ≤ fwSlotSize) :
    fwWrite k off d s = done (fwStore k off d s) := by
  have hk := lt_of_fwOpen ho
  rw [fwWrite, if_neg (by omega), if_neg (not_not.mpr ho), if_neg (by omega), if_neg (by omega)]

theorem fwBulk_ok {sid off len : Nat} {ses : Session} (hses : mget s.host.sessions sid = some ses) (hnone : ses.bulk = none)
    (hlen : len ≠ 0) (hfit : off + len ≤ fwSlotSize) : fwBulk sid k off len s =
      done (fwState k 1 (updSession sid (fun x => { x with bulk := some ⟨2, k, off, len, false, 1, 0, s.tick⟩ }) s)) := by
  have hk := lt_of_fwOpen ho
  rw [fwBulk, if_neg (by omega), if_neg (not_not.mpr ho), if_neg (by omega), bulkOpen_receiving hses hnone hlen]
  rfl

theorem fwVerify_good (hst : (fwSlotOf s k).state ≠ 0) (hf : (fwSlotOf s k).fault = none) : fwVerify k s = done (fwState k 2 s) := by
  have hk := lt_of_fwOpen ho
  rw [fwVerify, if_neg (by omega), if_neg (not_not.mpr ho)]
  simp only [hf]

theorem fwVerify_bad {c : Nat} (hst : (fwSlotOf s k).state ≠ 0) (hf : (fwSlotOf s k).fault = some c) :
    fwVerify k s = refuseD stInvalid c (fwState k 3 s) := by
  have hk := lt_of_fwOpen ho
  rw [fwVerify, if_neg (by omega), if_neg (not_not.mpr ho)]
  simp only [hf]

end

/-- What nothing forbids is noted in the Ledger and goes on at the restart. -/
theorem fwActivate_ok (hfatal : s.flt.fatal = false) (hst : (fwSlotOf s (1 - s.mgt.active)).state = 2)
    (hver : fwOutside s (fwSlotOf s (1 - s.mgt.active)).version = false) (hlock : s.mgt.ownerLock = false) (hmove : fwMoving s = 0)
    (hpct : 95 ≤ s.flt.holdupPct) (hrails : s.bru.railsOk = true) : ∃ u, u.mgt = s.mgt ∧ u.tick = s.tick ∧ fwActivate s =
      done ((fwState (1 - s.mgt.active) 5 u).mapMgt fun g => { g with startNext := true }) := by
  unfold fwActivate
  extract_lets k x power s1
  have hpower : power = 0 := by simp [power, b2n, hrails, Nat.not_lt.mpr hpct]
  refine ⟨s1, ledgerWrite_mgt .., ledgerWrite_tick .., ?_⟩
  rw [if_neg (by simp [hfatal, x, k, hst]), if_neg (by simp [x, k, hver]), if_neg (by simp [hlock]), if_neg (by simp [hmove]),
    if_neg (by simp [hpower])]

end

/-- Settles O34: from the answer to each command and its effect. -/
theorem firmwareCommands : Obligations.FirmwareCommands := by
  unfold Obligations.FirmwareCommands
  refine ⟨?info, ?write, ?bulk, ?verify, ?activate, ?lock, ?unlock⟩
  case info =>
    intro s m ses h
    exact h.doneWith rfl rfl (answered h.lt)
  case write =>
    intro s m k off d ses h ho hd hfit
    refine h.done rfl (fwWrite_ok ho hd hfit) ⟨answered h.lt, fun i hi => ?_⟩
    rw [fwSlotOf_mbxAnswer, fwSlotOf_fwStore (lt_of_fwOpen ho), cellGet_cellWrite, if_pos ⟨Nat.le_add_right .., Nat.add_lt_add_left hi _⟩, Nat.add_sub_cancel_left]
  case bulk =>
    intro s m k off len ses h ho hlen hfit hnone
    refine h.done rfl (fwBulk_ok ho h.2.2.1 hnone hlen hfit) ⟨answered h.lt, ?_⟩
    rw [fwSlotOf_mbxAnswer, fwSlotOf_fwState (lt_of_fwOpen ho)]
  case verify =>
    intro s m k ses h ho hst
    cases hfault : (fwSlotOf s k).fault with
    | none =>
      have hr := runCmdWith_called (keep := true) (f := fun _ _ a => fwVerify k a) h (fwVerify_good ho hst hfault)
      rw [if_pos (.inr rfl)] at hr
      refine .of_next (congrArg Host.Outcome.next hr) ⟨fun c hc => (Option.some_ne_none c hc.symm).elim, fun _ => ⟨answered h.lt, ?_⟩⟩
      rw [fwSlotOf_mbxAnswer, fwSlotOf_fwState (lt_of_fwOpen ho)]
    | some c =>
      have hr := runCmdWith_called (keep := true) (f := fun _ _ a => fwVerify k a) h (fwVerify_bad ho hst hfault)
      rw [if_pos (.inr rfl)] at hr
      refine .of_next (congrArg Host.Outcome.next hr) ⟨fun c' hc => ?_, fun hno => (Option.some_ne_none c hno).elim⟩
      cases hc
      refine ⟨answered h.lt, ?_⟩
      rw [fwSlotOf_mbxAnswer, fwSlotOf_fwState (lt_of_fwOpen ho)]
  case activate =>
    intro s m ses h hact hfatal hst hver hlock hmove hpct hrails
    obtain ⟨u, hmgt, htick, hf⟩ := fwActivate_ok hfatal hst hver hlock hmove hpct hrails
    refine h.done rfl hf ⟨answered h.lt ?_ htick, ?_, ?_⟩
    · exact (congrArg Mgt.mbx hmgt :)
    · rw [fwSlotOf_mbxAnswer]
      exact congrArg FwSlot.state (fwSlotOf_fwState (s := u) (by omega))
    · rw [mbxAnswer_mgt_field (·.startNext) fun _ _ _ => rfl]
      rfl
  case lock =>
    intro s m ses h
    refine h.done rfl rfl ⟨answered h.lt, ?_⟩
    rw [mbxAnswer_mgt_field (·.ownerLock) fun _ _ _ => rfl]
    rfl
  case unlock =>
    intro s m ses h
    refine h.done rfl rfl ⟨answered h.lt, ?_⟩
    rw [mbxAnswer_mgt_field (·.ownerLock) fun _ _ _ => rfl]
    rfl

end Sys2Proof.Machine

/-! R233, R234, R237, R241, R242, R245: blends at the mailbox. -/

namespace Sys2Proof.Machine

open Sys2Proof

section

variable {s u : State} {m code : Nat} {ses : Session} {f : Nat → Nat → State → CmdRes}

/-- A command whose answer waits for an event keeps its mailbox. -/
theorem runCmd_later (h : Called s m code ses) (hf : f ses.role (mbxOf s m).session s = later u) :
    runCmd m code f s = updMbx m (fun y => { y with deferred := true }) u := by
  obtain ⟨-, hruns, hses, hstate, howner⟩ := h
  have ho : ¬ (ownerOnly code = true ∧ ses.role ≠ 1) := fun h => h.2 (howner h.1)
  unfold runCmd runCmdWith
  rw [if_neg (not_not.mpr hruns)]
  dsimp only
  rw [hses, hstate]
  dsimp only
  rw [if_neg ho, hf]
  rfl


theorem bslot_mbxAnswer {st d : Nat} {data : List Byte} : bslot (mbxAnswer m st d data s) = bslot s := bslot_congr mbxAnswer_cmp

/-! ### Blends -/

section

variable {ctx cls : Nat} {l : List Byte}

theorem blendInstall_near (hctx : ctx < 2) (hf : blendFault s false ctx cls l = none) : blendInstall m ctx cls l s =
    done (updSlot ctx cls (fun x => { x with install := some (Blend.ofBytes l), candidate := none }) s) := by
  simp only [blendInstall, hf]
  exact if_pos hctx

theorem blendInstall_far (hctx : 2 ≤ ctx) (hf : blendFault s false ctx cls l = none) : blendInstall m ctx cls l s =
    later (updSlot ctx cls (fun x => { x with offer := some (hostOffer 1 (some m) (Blend.ofBytes l) s), candidate := none }) s) := by
  simp only [blendInstall, hf]
  exact if_neg (Nat.not_lt.mpr hctx)

theorem blendStage_ok (hf : blendFault s true ctx cls l = none) : blendStage ctx cls l s =
    done (updSlot ctx cls (fun x => if ctx < 2 then { x with staged := some (Blend.ofBytes l) }
      else { x with staged := some (Blend.ofBytes l), offer := some (hostOffer 2 none (Blend.ofBytes l) s) }) s) := by
  simp only [blendStage, hf]

theorem blendRetire_ok {b : Blend} (hctx : ctx < 2) (hcls : cls < 8) (hb : (bslot s ctx cls).previous = some b)
    (huse : ctx = 1 → (s.coll.insts.any fun e => e.2.blends.contains (cls * 256 + b.id)) = false) :
    blendRetire ctx cls s = done (updSlot ctx cls (fun x => { x with retire := true }) s) := by
  rw [blendRetire, if_neg (by omega), if_neg (by omega)]
  simp only [hb]
  refine if_neg fun h => ?_
  rw [huse h.1] at h
  exact Bool.false_ne_true h.2

theorem blendRead_current {b : Blend} (hb : (bslot s ctx cls).current = some b) : blendRead ctx cls 0 s = doneWith b.toBytes s := by
  unfold blendRead
  extract_lets x t
  have ht : t = some b := hb
  rw [ht]

theorem cmpResync_line {n : Nat} (hn : n < 4) (hcls : cls < 8) : cmpResync true n cls s = done (updSlot (lOut n) cls (fun x =>
    if x.rawHold then { x with rawHold := false, resyncFails := 0, rawCoding := false, resync := false } else x) s) := by
  rw [cmpResync, if_pos rfl, if_neg (by omega)]

theorem cmpResync_host {n : Nat} {c : StreamCtx} (hc : mget s.host.streams n = some c) : cmpResync false n cls s =
    done (updStream n (fun c => { c with rawRequired := false, decFails := 0 }) s) := by
  rw [cmpResync, if_neg Bool.false_ne_true, if_neg (by simp [mhas, hc])]

end

end

/-- Settles O35: from the answer to each command and its effect. -/
theorem blendCommands : Obligations.BlendCommands := by
  unfold Obligations.BlendCommands
  refine ⟨?near, ?far, ?stage, ?retire, ?read, ?line, ?host⟩
  case near =>
    intro s m ctx cls l ses h hctx hfault
    refine h.done rfl (blendInstall_near hctx hfault) ⟨answered h.lt, ?_, ?_⟩
    · rw [bslot_mbxAnswer, bslot_updSlot_self]
    · rw [bslot_mbxAnswer, bslot_updSlot_self]
  case far =>
    intro s m ctx cls l ses h hctx hfault
    refine .of_next (congrArg Host.Outcome.next (runCmd_later (f := fun _ _ a => blendInstall m ctx cls l a) h
      (blendInstall_far hctx hfault))) ⟨?_, ?_⟩
    · rw [show ∀ (g : Mbx → Mbx) (v : State), bslot (updMbx m g v) = bslot v from fun _ _ => rfl, bslot_updSlot_self]
    · rw [mbxOf_updMbx _ _ h.lt]
  case stage =>
    intro s m ctx cls l ses h hfault
    refine h.done rfl (blendStage_ok hfault) ⟨answered h.lt, ?_, fun hctx => ?_⟩
    · rw [bslot_mbxAnswer, bslot_updSlot_self]
      split <;> rfl
    · rw [bslot_mbxAnswer, bslot_updSlot_self, if_neg (Nat.not_lt.mpr hctx)]
  case retire =>
    intro s m ctx cls b ses h hctx hcls hb huse
    refine h.done rfl (blendRetire_ok hctx hcls hb huse) ⟨answered h.lt, ?_⟩
    rw [bslot_mbxAnswer, bslot_updSlot_self]
  case read =>
    intro s m ctx cls b ses h hb
    exact h.doneWith rfl (blendRead_current hb) ⟨answered h.lt, mbxAnswer_cmp⟩
  case line =>
    intro s m n cls ses h hn hcls hraw
    refine h.done rfl (cmpResync_line hn hcls) ⟨answered h.lt, ?_⟩
    rw [bslot_mbxAnswer, bslot_updSlot_self, if_pos hraw]
  case host =>
    intro s m n cls c ses h hc
    refine h.done rfl (cmpResync_host hc) ⟨answered h.lt, ?_⟩
    rw [mbxAnswer_streams, updStream_streams hc]

end Sys2Proof.Machine

/-! R13, R455, R558, R566: accesses of registers. -/

namespace Sys2Proof.Machine

open Sys2Proof

section

variable {s : State} {a v k : Nat}

/-! ### Reads (R13, R455) -/

theorem latchRead_regVal (a b : Nat) (s : State) : regVal (latchRead a s) b = regVal s b := by
  unfold latchRead
  split <;> rfl

theorem latchRead_out (a : Nat) (s : State) : (latchRead a s).out = s.out := by
  unfold latchRead
  split <;> rfl

/-- A counter that a read clears starts again at 0. -/
theorem clearRead_counter (hrc : isRc a = true) (hno : regIndex a 0x00180108 0x10 8 = none) : clearRead a s = regSet a 0 s := by
  rw [clearRead, if_neg (not_not.mpr hrc), hno]

theorem clearRead_other (hrc : isRc a = false) : clearRead a s = s := by
  rw [clearRead, hrc]
  rfl

theorem readOut_some (h : regRead s a = some v) : readOut a s = readEffect a (s.emit (.answer [v])) := by
  rw [readOut, h]

/-- PRS_TICK_LO shows the low half of the tick counter. -/
theorem regRead_tickLo (s : State) : regRead s 0x00200010 = some (s.tick % 2 ^ 32) := by
  have hf : (regFields 0x00200010).map woMask = some 0 := by decide +kernel
  obtain ⟨fs, hfs, hm⟩ := Option.map_eq_some_iff.mp hf
  have hlive : liveReg s 0x00200010 = some (s.tick % 2 ^ 32) := rfl
  rw [regRead, hfs, Option.map_some, hm, hlive]
  exact congrArg some (by simp only [Nat.and_zero, Nat.sub_zero, Option.getD_some])

theorem readEffect_tickLo (s : State) : readEffect 0x00200010 s = s.mapPress fun p => { p with tickHiLatch := s.tick / 2 ^ 32 % 2 ^ 32 } := by
  rw [readEffect, clearRead_other (by decide +kernel)]
  rfl

/-! ### Accesses through a mailbox (R558, R566) -/

theorem regReadCmd_some (h : regRead s a = some v) : regReadCmd [a] s = doneWith (beBytes 4 v) (readEffect a s) := by
  have hr : readAll 0 [a] s = ([v], none, readEffect a s) := by
    rw [readAll, h]
    rfl
  rw [regReadCmd, if_neg (by simp), hr]
  simp

theorem regReadCmd_none (h : regRead s a = none) : regReadCmd [a] s = ⟨stRange, 0, [], s, false⟩ := by
  have hr : readAll 0 [a] s = ([], some 0, s) := by rw [readAll, h]
  rw [regReadCmd, if_neg (by simp), hr]
  rfl

theorem execRegRead_one {m : Nat} (ha : 0x100 ≤ a) :
    execRegRead m [a] s = .next (runCmdWith true m 0x1001 (fun _ _ u => regReadCmd [a] u) s) := by
  rw [execRegRead, if_neg (by simp; omega)]

theorem regWriteCmd_ok {owner : Bool} {u : State} (h : hostWrite owner a v k 0 s = (u, none)) : regWriteCmd owner [(a, v, k)] s = done u := by
  have hw : writeAll owner 0 [(a, v, k)] s = (none, u) := by
    rw [writeAll, h]
    rfl
  rw [regWriteCmd, if_neg (by simp), hw]

theorem regWriteCmd_refused {owner : Bool} {u : State} {e : Nat} (h : hostWrite owner a v k 0 s = (u, some e)) :
    regWriteCmd owner [(a, v, k)] s = ⟨e, 0, [], u, false⟩ := by
  have hw : writeAll owner 0 [(a, v, k)] s = (some (0, e), u) := by rw [writeAll, h]
  rw [regWriteCmd, if_neg (by simp), hw]

theorem hostWrite_ok {owner : Bool} (h : writeFault s owner a v k = none) : (hostWrite owner a v k 0 s).2 = none := by
  rw [hostWrite, h]
  dsimp only
  split <;> rfl

theorem hostWrite_refused {owner : Bool} {e : Nat} (h : writeFault s owner a v k = some e) : (hostWrite owner a v k 0 s).2 = some e := by
  rw [hostWrite, h]

/-! ### What an access leaves of the mailboxes -/

/-- Both branches keep a field. -/
theorem ite_keeps {γ : Type} {π : State → γ} {x : γ} {c : Prop} {_ : Decidable c} {t u : State} (ht : π t = x) (hu : π u = x) :
    π (if c then t else u) = x := by
  split
  · exact ht
  · exact hu

theorem runCheck_mbx (s : State) : (runCheck s).mgt.mbx = s.mgt.mbx :=
  ite_keeps (π := (·.mgt.mbx)) rfl (ite_keeps (π := (·.mgt.mbx)) rfl rfl)

theorem trialPassed_mbx (s : State) : (trialPassed s).mgt.mbx = s.mgt.mbx := ite_keeps (π := (·.mgt.mbx)) rfl rfl

theorem stepTen_mbx (s : State) : (stepTen s).mgt.mbx = s.mgt.mbx := (trialPassed_mbx _).trans (runCheck_mbx _)

theorem pairAll_mgt (s : State) :
    ((List.range 4).foldl (fun a p => if hasPartner a p then beginPairing p a else a) s).mgt = s.mgt :=
  foldl_keeps (π := State.mgt) (fun a p => by
    split
    · exact beginPairing_mgt p a
    · rfl) _ _

theorem startStep_mbx (n : Nat) (s : State) : (startStep n s).mgt.mbx = s.mgt.mbx := by
  unfold startStep
  extract_lets s1 s2 s3
  have h3 : s3.mgt.mbx = s2.mgt.mbx := congrArg Mgt.mbx (pairAll_mgt s2)
  have h1 : (stepTen s1).mgt.mbx = s1.mgt.mbx := stepTen_mbx s1
  exact ite_keeps (π := (·.mgt.mbx)) h1 (ite_keeps (π := (·.mgt.mbx)) (ite_keeps (π := (·.mgt.mbx)) ((stepTen_mbx s3).trans h3) h3)
    (ite_keeps (π := (·.mgt.mbx)) rfl rfl))

theorem stepCommand_mbx (v : Nat) (s : State) : (stepCommand v s).mgt.mbx = s.mgt.mbx := by
  unfold stepCommand
  extract_lets b step w d reject waves due s1 c next
  have h1 : s1.mgt.mbx = s.mgt.mbx := ite_keeps (π := (·.mgt.mbx)) rfl (startStep_mbx 4 s)
  exact ite_keeps (π := (·.mgt.mbx)) rfl (ite_keeps (π := (·.mgt.mbx)) rfl (ite_keeps (π := (·.mgt.mbx)) (startStep_mbx step s)
    (ite_keeps (π := (·.mgt.mbx)) rfl h1)))

theorem selfWrite_mbx {v full : Nat} {u : State} (h : selfWrite a v full s = some u) : u.mgt.mbx = s.mgt.mbx := by
  unfold selfWrite at h
  split at h
  · cases h
    exact ite_keeps (π := (·.mgt.mbx)) rfl (ite_keeps (π := (·.mgt.mbx)) rfl rfl)
  · cases h
    split
    · exact ite_keeps (π := (·.mgt.mbx)) rfl rfl
    · exact ite_keeps (π := (·.mgt.mbx)) rfl rfl
    · exact ite_keeps (π := (·.mgt.mbx)) rfl rfl
    · rfl
  · cases h
    exact ite_keeps (π := (·.mgt.mbx)) (ite_keeps (π := (·.mgt.mbx)) rfl rfl) (ite_keeps (π := (·.mgt.mbx)) rfl rfl)
  · cases h
    exact stepCommand_mbx v s
  · obtain ⟨k, -, rfl⟩ := Option.map_eq_some_iff.mp h
    unfold pulseWrite
    extract_lets b mode s0 s1 start period p late
    have h1 : s1.mgt.mbx = s.mgt.mbx := ite_keeps (π := (·.mgt.mbx)) rfl rfl
    exact ite_keeps (π := (·.mgt.mbx)) h1 ((congrArg Mgt.mbx (raise_mgt ..)).trans h1)

theorem afterWrite_mbx {v old new : Nat} : (afterWrite a v old new s).mgt.mbx = s.mgt.mbx := by
  have hpfc : ∀ n, (sendPfc n s).mgt.mbx = s.mgt.mbx := fun n => congrArg Mgt.mbx (ite_keeps (π := (·.mgt)) rfl rfl)
  unfold afterWrite
  split
  · exact ite_keeps (π := (·.mgt.mbx)) rfl (ite_keeps (π := (·.mgt.mbx)) rfl rfl)
  · exact ite_keeps (π := (·.mgt.mbx)) rfl rfl
  · exact ite_keeps (π := (·.mgt.mbx)) (hpfc 0) (ite_keeps (π := (·.mgt.mbx)) (hpfc _) (ite_keeps (π := (·.mgt.mbx)) (hpfc 0) rfl))
  · exact ite_keeps (π := (·.mgt.mbx)) rfl rfl
  · rfl

theorem holdVal_mbx {v : Nat} : (holdVal a v s).mgt.mbx = s.mgt.mbx := by
  unfold holdVal
  split <;> rfl

theorem regPut_mbx {value mask hw : Nat} {fs : List FieldDef} : (regPut a value mask hw fs s).mgt.mbx = s.mgt.mbx := by
  unfold regPut
  extract_lets live v ro old full w r set s1
  refine ite_keeps (π := (·.mgt.mbx)) (ite_keeps (π := (·.mgt.mbx)) rfl rfl) ?_
  split
  · next u hu =>
    have h1 : u.mgt.mbx = s.mgt.mbx := selfWrite_mbx hu
    exact ite_keeps (π := (·.mgt.mbx)) h1 h1
  · have h1 : s1.mgt.mbx = s.mgt.mbx := afterWrite_mbx.trans holdVal_mbx
    exact ite_keeps (π := (·.mgt.mbx)) h1 h1

/-- No access of a register changes a mailbox or the tick. -/
theorem hostWrite_keeps {owner : Bool} : (hostWrite owner a v k 0 s).1.mgt.mbx = s.mgt.mbx ∧ (hostWrite owner a v k 0 s).1.tick = s.tick := by
  have hfree : Free (· = Part.tick) [.queues] := free_of_not_mem
  have htick : Part.tick.Same s (hostWrite owner a v k 0 s).1 := Spares.refl.hostWrite.part
  refine ⟨?_, htick⟩
  unfold hostWrite
  split
  · exact ite_keeps (π := (·.mgt.mbx)) rfl rfl
  split
  · rfl
  · exact regPut_mbx

theorem readEffect_keeps : (readEffect a s).mgt.mbx = s.mgt.mbx ∧ (readEffect a s).tick = s.tick := by
  have hfree : Free (· = Part.tick) [.casks] := free_of_not_mem
  have htick : Part.tick.Same s (readEffect a s) := Spares.refl.readEffect.part
  have hl : (latchRead a s).mgt.mbx = s.mgt.mbx := by
    unfold latchRead
    split <;> rfl
  refine ⟨?_, htick⟩
  unfold readEffect clearRead
  refine ite_keeps (π := (·.mgt.mbx)) hl ?_
  split
  · exact hl
  · exact hl

/-! ### APPLY (R437) -/

theorem schedOf_map {f : Sched → Sched} {n : Nat} (hn : n < 5) : schedOf (s.mapQos fun v => v.map f) n = f (schedOf s n) :=
  vget_map _ _ _ _ hn

theorem askApply_bit (s : State) : bit (askApply s) 0x001C0004 1 = true := by
  rw [askApply, bit, regVal_regSet_same]
  exact bitOf_putBits_b2n _ 1 true

end

/-- Settles O37: from the value and the effect of each access. -/
theorem registerAccesses : Obligations.RegisterAccesses := by
  unfold Obligations.RegisterAccesses
  refine ⟨?read, ?unmapped, ?write, ?refused, ?counter, ?latch, ?apply_⟩
  case read =>
    intro s m a v ses h ha hv
    have hr := runCmdWith_called (keep := true) (f := fun _ _ u => regReadCmd [a] u) h (regReadCmd_some hv)
    rw [if_pos (.inl rfl)] at hr
    exact .of_next ((execRegRead_one ha).trans (congrArg Host.Outcome.next hr)) (answered h.lt readEffect_keeps.1 readEffect_keeps.2)
  case unmapped =>
    intro s m a ses h ha hv
    have hr := runCmdWith_called (keep := true) (f := fun _ _ u => regReadCmd [a] u) h (regReadCmd_none hv)
    rw [if_pos (.inr rfl)] at hr
    exact .of_next ((execRegRead_one ha).trans (congrArg Host.Outcome.next hr)) (answered h.lt)
  case write =>
    intro s m a v k ses h ha hw
    have hf := regWriteCmd_ok (Prod.ext_iff.mpr ⟨rfl, hostWrite_ok hw⟩)
    have hr := runCmdWith_called (keep := true) (f := fun role _ u => regWriteCmd (role == 1) [(a, v, k)] u) h hf
    rw [if_pos (.inl rfl)] at hr
    exact .of_next (congrArg Host.Outcome.next hr) ⟨answered h.lt hostWrite_keeps.1 hostWrite_keeps.2, _, rfl, fun b hb => mbxAnswer_regVal hb⟩
  case refused =>
    intro s m a v k e ses h hw
    have hf := regWriteCmd_refused (Prod.ext_iff.mpr ⟨rfl, hostWrite_refused hw⟩)
    have hr := runCmdWith_called (keep := true) (f := fun role _ u => regWriteCmd (role == 1) [(a, v, k)] u) h hf
    rw [if_pos (.inr rfl)] at hr
    exact .of_next (congrArg Host.Outcome.next hr) (answered h.lt hostWrite_keeps.1 hostWrite_keeps.2)
  case counter =>
    intro s a v both hrc hv hno
    have hs1 : readOut a s = regSet a 0 (latchRead a (s.emit (.answer [v]))) := by
      rw [readOut_some hv, readEffect, clearRead_counter hrc hno]
    have hval : ∀ b, regVal (readOut a s) b = if a = b then 0 else regVal s b := fun b => by
      rw [hs1, regVal_regSet, latchRead_regVal]
      rfl
    have hout : (readOut a s).out = .answer [v] :: s.out := by
      rw [hs1]
      exact latchRead_out ..
    refine .of_next (congrArg Host.Outcome.next (if_pos hrc)) ?_
    cases both with
    | false => exact ⟨hout, by rw [if_neg Bool.false_ne_true, hval, if_pos rfl]; rfl, fun b hb => (hval b).trans (if_neg hb.symm)⟩
    | true =>
      rw [if_pos rfl]
      refine ⟨hout, ?_, fun b hb => ?_⟩
      · rw [regVal_bump, if_pos rfl, hval, if_pos rfl]
        rfl
      · rw [regVal_bump, if_neg hb.symm, hval, if_neg hb.symm]
  case latch =>
    intro s
    refine .of_next (congrArg Host.Outcome.next ((readOut_some (regRead_tickLo s)).trans (readEffect_tickLo _))) ⟨rfl, rfl⟩
  case apply_ =>
    intro s
    refine .of_next rfl ⟨askApply_bit s, fun n hn => ?_⟩
    have h : schedOf (askApply s) n = { schedOf s n with applyNext := true } := schedOf_map hn
    rw [h]
    exact ⟨rfl, rfl⟩

end Sys2Proof.Machine

/-! R497, R498, R500: the shadow and its twin. -/

namespace Sys2Proof.Machine

open Sys2Proof

section

variable {s : State} {sid kind : Nat} {udp b : List Byte} {x : Session} {f : Nat → List Byte → State → State}

/-- A datagram that is heard reaches its command with its session's counter accepted. -/
theorem openDatagramOf_heard (h : Heard s sid kind udp x b) : ∃ u, u.tick = s.tick ∧ u.sites = s.sites ∧ u.flt = s.flt ∧
    (∀ a, a ≠ 0x00040040 → regVal u a = regVal s a) ∧ rxFrame (openDatagramOf sid kind udp f) s = f sid b u := by
  obtain ⟨hrx, hup, hform, hx, hopen, hfresh, hlt⟩ := h
  refine ⟨(bump 0x00040040 s).mapHost fun h => { h with sessions := mset h.sessions sid (x.accept (mbxCounter udp) s.tick) }, rfl, rfl, rfl,
    fun a ha => ?_, ?_⟩
  · exact (regVal_bump s 0x00040040 a).trans (if_neg ha.symm)
  · rw [rxFrame_on hrx, openDatagramOf, if_neg (by rw [show mbxUp (bump 0x00040040 s) = mbxUp s from rfl]; simp [hup, hform])]
    have hx' : mget (bump 0x00040040 s).host.sessions sid = some x := hx
    simp only [hx', hopen, hfresh]
    exact if_neg (Nat.not_le.mpr hlt)

theorem twinRx_frame (hsid : sid = if s.sites.shadow.role = 1 then twinSid (mbxSession udp) else mbxSession udp) :
    rxFrame (twinRx udp) s = rxFrame (openDatagramOf sid 9 udp twinIn) s := by
  rw [hsid]
  rfl

/-! ### Matching (R498) -/

theorem noteMismatch_first (hnone : s.sites.shadow.mismatches = []) (g i c : Nat) : ∃ u, u.flt.counts = s.flt.counts ∧
    u.sites.shadow.mismatches = [s.tick] ∧ u.regs = s.regs ∧ noteMismatch g i c s = bump 0x000940B8 (raise 0x8E04 [g, i, c] u) := by
  refine ⟨updShadow (fun x => { x with mismatches := [s.tick] }) s, rfl, rfl, rfl, ?_⟩
  simp only [noteMismatch, hnone, List.filter_nil, List.length_singleton]
  exact if_neg (by decide)

theorem twinEntries_one {tick now : Nat} (h : beAt b 8 2 = 1) : ∃ e, twinEntries tick now b = [e] := by
  rw [twinEntries, h]
  exact ⟨_, rfl⟩

theorem twinEntries_none {tick now : Nat} (h : beAt b 8 2 = 0) : twinEntries tick now b = [] := by
  rw [twinEntries, h]
  rfl

theorem testEligible_shadow (s : State) : (testEligible s).sites.shadow = { s.sites.shadow with
    eligible := s.sites.shadow.eligible || decide (50000 ≤ s.sites.shadow.matched) } := by
  unfold testEligible
  split
  · next h =>
    rw [raise_sites]
    simp [updShadow, h.2]
  · next h =>
    cases he : s.sites.shadow.eligible with
    | true => rw [Bool.true_or, ← he]
    | false => rw [decide_eq_false fun hm => h ⟨by simp [he], hm⟩, Bool.or_false, ← he]

theorem testEligible_seen {c : Nat} (h : c ≠ 0x1E03) (h1 : c ≠ 0x4F02) (h2 : c ≠ 0x4F03) (s : State) : seen (testEligible s) c = seen s c := by
  unfold testEligible
  split
  · rw [seen_raise _ _ _ _ h1 h2, if_neg h.symm]
    rfl
  · rfl

theorem testEligible_tick (s : State) : (testEligible s).tick = s.tick := by
  unfold testEligible
  split
  · rw [raise_tick]
    rfl
  · rfl

/-- Where nothing that waits meets what the shadow has pressed, matching counts the run. -/
theorem matchTwin_quiet (hrole : s.sites.shadow.role = 1) (h : ∀ w ∈ s.sites.shadow.waiting, matchEntry w s = s) :
    matchTwin s = testEligible (updShadow countMatched s) := by
  have hfold : s.sites.shadow.waiting.foldl (fun a w => matchEntry w a) s = s :=
    List.foldlRecOn (motive := (· = s)) _ _ rfl fun a ha w hw => by rw [ha, h w hw]
  rw [matchTwin, if_neg (not_not.mpr hrole), hfold]

theorem matchEntry_own_nil (h : s.sites.shadow.own = []) (w : TwinEntry) : matchEntry w s = s := by
  simp only [matchEntry, h, List.find?_nil]

theorem countMatched_open {y : Shadow} (h : y.ticks = []) : countMatched y = { y with
    ticks := [], matched := (y.base.map fun b => y.last + 1 - b).getD 0 } := by
  simp only [countMatched, h]
  rfl

/-- A whole digest without entries joins its twin tick, alone, before matching. -/
theorem twinDigests_alone (hn : beAt b 8 2 = 0) (h10 : byteAt b 10 = 0) (h11 : bitOf (byteAt b 11) 7 = true)
    (hticks : s.sites.shadow.ticks = []) (hwait : s.sites.shadow.waiting = []) : ∃ u, u.sites.shadow = { s.sites.shadow with
      base := some (s.sites.shadow.base.getD (beAt b 0 8)), last := max s.sites.shadow.last (beAt b 0 8)
      ticks := [(beAt b 0 8, 1, 1, s.tick)], waiting := [] } ∧ twinDigests b s = matchTwin u := by
  refine ⟨_, ?_, rfl⟩
  rw [updShadow, State.mapSites_sites, h11, h10, hticks, hwait, twinEntries_none hn]
  rfl

theorem countMatched_closed {y : Shadow} {t k : Nat} (hticks : y.ticks = [(t, 1, 1, k)]) (hwait : y.waiting = []) :
    countMatched y = { y with ticks := [], matched := (y.base.map fun b => y.last + 1 - b).getD 0 } := by
  have hc : tickClosed y t (1, 1, k) = true := by rw [tickClosed, hwait]; rfl
  have hf : mfilter y.ticks (fun t p => !tickClosed y t p) = [] := by
    rw [hticks, mfilter]
    simp only [List.filter_cons, hc]
    rfl
  simp only [countMatched, hf]

/-- An entry that has waited its time begins the count of matched ticks again. -/
theorem unmatchedExpiry_alone {w : TwinEntry} (hrole : s.sites.shadow.role = 1) (hwait : s.sites.shadow.waiting = [w])
    (hown : s.sites.shadow.own = []) (hticks : s.sites.shadow.ticks = []) (hold : w.tick + 1000 ≤ s.tick) :
    ∃ u, u.sites.shadow.waiting = [w] ∧ u.sites.shadow.base = s.sites.shadow.base ∧ u.sites.shadow.ticks = [] ∧
      (∀ c, c ≠ 0x1E03 → c ≠ 0x4F02 → c ≠ 0x4F03 → seen u c = seen s c) ∧
      unmatchedExpiry s = testEligible (updShadow countMatched (resetMatch w.twinTick u)) := by
  have hm := matchTwin_quiet hrole fun w _ => matchEntry_own_nil hown w
  have hs : (matchTwin s).sites.shadow = { countMatched s.sites.shadow with
      eligible := (countMatched s.sites.shadow).eligible || decide (50000 ≤ (countMatched s.sites.shadow).matched) } := by
    rw [hm, testEligible_shadow]
    rfl
  have htick : (matchTwin s).tick = s.tick := by
    rw [hm, testEligible_tick]
    rfl
  have hseen : ∀ c, c ≠ 0x1E03 → c ≠ 0x4F02 → c ≠ 0x4F03 → seen (matchTwin s) c = seen s c := fun c h h1 h2 => by
    rw [hm, testEligible_seen h h1 h2]
    rfl
  rw [countMatched_open hticks] at hs
  generalize hu : matchTwin s = u at hs htick hseen
  have hw : u.sites.shadow.waiting = [w] := by rw [hs, ← hwait]
  have ht : u.sites.shadow.ticks = [] := by rw [hs]
  refine ⟨u, hw, by rw [hs], ht, hseen, ?_⟩
  have hl : (u.sites.shadow.waiting.filter fun w => decide (w.tick + 1000 ≤ u.tick)).map (·.twinTick) ++
      (u.sites.shadow.ticks.filter fun e => decide (e.2.2.2 + 1000 ≤ u.tick)).map (·.1) = [w.twinTick] := by
    rw [hw, ht, htick]
    simp [hold]
  simp only [unmatchedExpiry, hu, hl]
  rfl

/-! ### Promotion (R500) -/

theorem beginPairing_field {γ : Type} (π : State → γ) (hk : ∀ x p f, π (updKeys p f x) = π x) (hp : ∀ x p f, π (updPartner p f x) = π x)
    (hf : ∀ x : State, π x.takeFree.2 = π x) (p : Nat) (s : State) : π (beginPairing p s) = π s := by
  obtain ⟨f, -, he⟩ := beginPairing_eq p s
  rw [he, sendHello, sendPair, hk, hp, hp, hk, hf, hf]

/-- The pairings that the shadow begins leave the rest. -/
theorem pairings_field {γ : Type} (π : State → γ) (hk : ∀ x p f, π (updKeys p f x) = π x) (hp : ∀ x p f, π (updPartner p f x) = π x)
    (hf : ∀ x : State, π x.takeFree.2 = π x) (s : State) :
    π ((List.range 4).foldl (fun a p => if hasPartner a p ∧ (keysOf a p).st = 0 then beginPairing p a else a) s) = π s :=
  foldl_keeps (π := π) (fun a p => by
    split
    · exact beginPairing_field π hk hp hf p a
    · rfl) _ _

/-- OUT_NEXT goes to the shadow's session: the rest stays. -/
theorem sendOutNext_field {γ : Type} (π : State → γ) (hm : ∀ sid k m r b x, π (mbxSend sid k m r b x) = π x)
    (hs : ∀ x n, π (updShadow (fun y => { y with nextReq := y.nextReq + n }) x) = π x) (s : State) : π (sendOutNext s) = π s := by
  unfold sendOutNext
  split
  · rfl
  · exact foldl_keeps (π := π) (fun a l => (hs _ 1).trans (hm ..)) _ _

theorem adoptAddress_ipv4 (s : State) : (adoptAddress s).host.ipv4 =
    if s.sites.shadow.peerSrc.v6 then s.host.ipv4 else s.sites.shadow.peerSrc.addr := by
  rw [adoptAddress, enqueue, State.mapQos_host, State.mapHost_host]
  exact apply_ite HostPort.ipv4 _ _ _

theorem adoptAddress_ipv6 (s : State) : (adoptAddress s).host.ipv6 =
    if s.sites.shadow.peerSrc.v6 then s.sites.shadow.peerSrc.addr else s.host.ipv6 := by
  rw [adoptAddress, enqueue, State.mapQos_host, State.mapHost_host]
  exact apply_ite HostPort.ipv6 _ _ _

end

/-- Settles O39: from what a heard datagram, the expiry and the promotion leave. -/
theorem shadowAndTwin : Obligations.ShadowAndTwin := by
  unfold Obligations.ShadowAndTwin
  refine ⟨?mismatch, ?matched, ?expiry, ?twin, ?shadow⟩
  case mismatch =>
    intro s udp b x h hrole hses hlen hone hnone
    obtain ⟨u, htick, hsites, hflt, hregs, hrun⟩ := openDatagramOf_heard (f := twinIn) h
    obtain ⟨e, he⟩ := twinEntries_one (tick := 0) (now := u.tick) hone
    obtain ⟨v, hcounts, hmis, hvregs, hv⟩ := noteMismatch_first (s := u) (by rw [hsites, hnone]) e.group e.inst e.chunk
    have hsid : mbxSession udp = if s.sites.shadow.role = 1 then twinSid (mbxSession udp) else mbxSession udp := by rw [hrole]; rfl
    have ht : rxFrame (twinRx udp) s = bump 0x000940B8 (raise 0x8E04 [e.group, e.inst, e.chunk] v) := by
      refine (twinRx_frame hsid).trans (hrun.trans ?_)
      · rw [twinIn, if_neg (by rw [hsites, hses]; simp; omega), if_neg (by rw [hsites, hrole]; decide), he]
        exact hv
    refine .of_next (congrArg Host.Outcome.next ht) ⟨?_, ?_, ?_⟩
    · rw [show ∀ x, seen (bump 0x000940B8 x) 0x8E04 = seen x 0x8E04 from fun _ => rfl, seen_raise_self, seen_congr hcounts, seen_congr (congrArg Flt.counts hflt)]
    · rw [bump_sites, raise_sites, hmis, htick]
    · rw [regVal_bump, if_pos rfl, raise_regVal _ _ _ _ (by decide), regVal_congr hvregs, hregs _ (by decide)]
  case matched =>
    intro s udp b x w n h hrole hses hlen hzero h10 h11 h12 hticks hwait
    obtain ⟨u, htick, hsites, -, -, hrun⟩ := openDatagramOf_heard (f := twinIn) h
    have hrole' : u.sites.shadow.role = 1 := by rw [hsites]; exact hrole
    obtain ⟨v, hv, hd⟩ := twinDigests_alone (s := u) hzero h10 h11 (by rw [hsites]; exact hticks) (by rw [hsites]; exact hwait)
    have hsid : twinSid (mbxSession udp) = if s.sites.shadow.role = 1 then twinSid (mbxSession udp) else mbxSession udp :=
      (if_pos hrole).symm
    have ht : rxFrame (twinRx udp) s = testEligible (updShadow countMatched v) := by
      refine (twinRx_frame hsid).trans (hrun.trans ?_)
      rw [twinIn, if_neg (by rw [hsites]; simp [w, hses] at *; omega), if_pos hrole', if_neg (by rw [h12]; decide), hd]
      refine matchTwin_quiet (by rw [hv]; exact hrole') fun e he => ?_
      rw [hv] at he
      cases he
    have hshadow : (updShadow countMatched v).sites.shadow = countMatched v.sites.shadow := rfl
    rw [hv, countMatched_closed rfl rfl, hsites] at hshadow
    refine .of_next (congrArg Host.Outcome.next ht) ?_
    rw [testEligible_shadow, hshadow]
    exact ⟨rfl, rfl⟩
  case expiry =>
    intro s w hrole hwait hown hticks hold
    obtain ⟨u, hw, hbase, hut, hseen, he⟩ := unmatchedExpiry_alone hrole hwait hown hticks hold
    have hshadow : (updShadow countMatched (resetMatch w.twinTick u)).sites.shadow = countMatched { u.sites.shadow with
        base := some (max (u.sites.shadow.base.getD 0) (w.twinTick + 1)), ticks := [], waiting := [], matched := 0 } := by
      refine congrArg countMatched ?_
      rw [resetMatch, updShadow, State.mapSites_sites, hw, hut]
      simp [mfilter]
    rw [countMatched_open rfl] at hshadow
    refine .of_next (congrArg Host.Outcome.next he) ⟨?_, ?_, ?_⟩
    · rw [testEligible_shadow, hshadow]
    · rw [testEligible_shadow, hshadow, hbase]
    · rw [testEligible_seen (by decide) (by decide) (by decide), ← hseen _ (by decide) (by decide) (by decide)]
      rfl
  case twin =>
    intro s at_ hat hdue hrole
    have hp : promoteAtT s = twinHandsOver s := by rw [promoteAtT, if_pos (by simp [hat, hdue]), if_pos hrole]
    refine .of_next (congrArg Host.Outcome.next hp) ?_
    unfold twinHandsOver
    extract_lets s1
    refine ⟨?_, ?_, fun n hn => ?_, ?_, ?_⟩
    · exact (raise_mails ..).host_field (·.ipv4) fun _ _ => rfl
    · exact (raise_mails ..).host_field (·.ipv6) fun _ _ => rfl
    · rw [laneOf_congr (congrArg Line.lanes (raise_line ..))]
      exact congrArg Lane.txUp (laneOf_map_lanes (s := s1) (f := fun x => { x with txUp := false }) hn)
    · rw [raise_sites]
      rfl
    · rw [seen_raise_self]
      refine congrArg (· + 1) ?_
      exact sendOutNext_field (fun x => seen x 0x1E04) (fun _ _ _ _ _ x => seen_congr (congrArg Flt.counts (mbxSend_flt ..).1) _) (fun _ _ => rfl) s
  case shadow =>
    intro s at_ hat hdue hrole
    have hp : promoteAtT s = shadowTakesOver s := by
      rw [promoteAtT, if_pos (by simp [hat, hdue]), if_neg (by rw [hrole]; decide), if_pos hrole]
    refine .of_next (congrArg Host.Outcome.next hp) ?_
    unfold shadowTakesOver
    extract_lets m s1 s2 s3
    refine ⟨fun hv => ⟨?_, ?_⟩, fun hv => ⟨?_, ?_⟩, fun n hn => ?_, ?_, ?_⟩
    · rw [pairings_field (·.host.ipv4) (fun _ _ _ => rfl) (fun _ _ _ => rfl) (fun _ => rfl),
        (raise_mails ..).host_field (·.ipv4) fun _ _ => rfl]
      exact (adoptAddress_ipv4 s).trans (if_neg (by rw [hv]; decide))
    · rw [pairings_field (·.host.ipv6) (fun _ _ _ => rfl) (fun _ _ _ => rfl) (fun _ => rfl),
        (raise_mails ..).host_field (·.ipv6) fun _ _ => rfl]
      exact (adoptAddress_ipv6 s).trans (if_neg (by rw [hv]; decide))
    · rw [pairings_field (·.host.ipv6) (fun _ _ _ => rfl) (fun _ _ _ => rfl) (fun _ => rfl),
        (raise_mails ..).host_field (·.ipv6) fun _ _ => rfl]
      exact (adoptAddress_ipv6 s).trans (if_pos hv)
    · rw [pairings_field (·.host.ipv4) (fun _ _ _ => rfl) (fun _ _ _ => rfl) (fun _ => rfl),
        (raise_mails ..).host_field (·.ipv4) fun _ _ => rfl]
      exact (adoptAddress_ipv4 s).trans (if_pos hv)
    · rw [pairings_field (fun x => (laneOf x n).txUp) (fun _ _ _ => rfl) (fun _ _ _ => rfl) (fun _ => rfl),
        laneOf_congr (congrArg Line.lanes (raise_line ..))]
      exact congrArg Lane.txUp (laneOf_map_lanes (s := s1) (f := fun x => { x with txUp := x.active.isSome }) hn)
    · rw [pairings_field (·.sites.shadow.role) (fun _ _ _ => rfl) (fun _ _ _ => rfl) (fun _ => rfl), raise_sites]
      rfl
    · rw [pairings_field (fun x => seen x 0x1E04) (fun _ _ _ => rfl) (fun _ _ _ => rfl) (fun _ => rfl), seen_raise_self]
      rfl

end Sys2Proof.Machine

/-! R325, R345, R347 to R350, R353, R359, R360, R364, R370: line and optics at the mailbox, and a lane lost. -/

namespace Sys2Proof.Machine

open Sys2Proof

section

variable {s : State}

/-! ### Tributaries (R325) -/

theorem tribBind_new {n port q w : Nat} (h4 : 4 ≤ n) (hn : n < 1024) (hp : port < 4) (hq : q < 16) (hnone : tribOf s n = none) :
    tribBind n port q w s = done (s.mapLine fun l => { l with tribs := mset l.tribs n (Trib.fresh port q (n % 5) w) }) := by
  rw [tribBind, if_neg (by omega)]
  simp only [hnone]

theorem tribBind_same {n port q w : Nat} {x : Trib} (h4 : 4 ≤ n) (hn : n < 1024) (hp : port < 4) (hq : q < 16)
    (hx : tribOf s n = some x) (hport : x.port = port) :
    tribBind n port q w s = done (s.mapLine fun l => { l with tribs := mset l.tribs n { x with queue := q, window := w } }) := by
  rw [tribBind, if_neg (by omega)]
  simp only [hx, if_pos hport]

theorem tribOf_mset {n : Nat} {x : Trib} : tribOf (s.mapLine fun l => { l with tribs := mset l.tribs n x }) n = some x := mget_mset_same ..

/-! ### Pages staged (R345) -/

/-- What an offer of a set to a partner leaves, an offer to each port leaves. -/
theorem pageOffers_field {γ : Type} (π : State → γ) (hl : ∀ x p f, π (updLPort p f x) = π x) (hp : ∀ x p f, π (updPartner p f x) = π x)
    (port : Nat) (o : PageSet) (s : State) : π (sendPageOffer port o s) = π s := (hp _ _ _).trans (hl _ _ _)

theorem stageSet_field {γ : Type} (π : State → γ) (hl : ∀ x p f, π (updLPort p f x) = π x) (hp : ∀ x p f, π (updPartner p f x) = π x)
    (why : Nat) (v : PageView) (s : State) : π (stageSet why v s) = π (s.mapLine fun y => { y with
      nextPage := newPageId s
      autoCommit := why
      lanes := y.lanes.mapIdx fun n l =>
        if l.rate = 3 then l
        else { l with standby := (((v.find? fun e => e.1 == n).map (·.2)).or (l.standby.or l.active)).map (pageWith (newPageId s) 0 n) } }) := by
  unfold stageSet
  extract_lets id s1 set
  refine foldl_keeps (π := π) (fun a p => ?_) _ s1
  dsimp only
  split
  · exact hl _ _ _
  · exact (pageOffers_field π hl hp _ _ _).trans (hl _ _ _)

theorem laneOf_stageSet {n why : Nat} {v : PageView} (hn : n < 5) (hrate : (laneOf s n).rate ≠ 3) : laneOf (stageSet why v s) n =
    { laneOf s n with
      standby := (((v.find? fun e => e.1 == n).map (·.2)).or ((laneOf s n).standby.or (laneOf s n).active)).map (pageWith (newPageId s) 0 n) } := by
  rw [stageSet_field (fun x => laneOf x n) (fun _ _ _ => rfl) (fun _ _ _ => rfl)]
  exact (vget_mapIdx _ _ _ _ hn).trans (if_neg hrate)

theorem pageStage_ok {lane : Nat} {p : List Byte} (hl : lane ≤ 4) (hrate : (laneOf s lane).rate ≠ 3) (hf : stageFault s lane p = none) :
    pageStage lane p s = doneWith [byte (((laneOf (stageSet 0 [(lane, p)] s) lane).standby.map pageId).getD 0)]
      (stageSet 0 [(lane, p)] s) := by
  rw [pageStage, if_neg (by omega)]
  simp only [hf]

theorem pageStage_refused {lane : Nat} {p : List Byte} {f : PageFault} (hl : lane ≤ 4) (hrate : (laneOf s lane).rate ≠ 3)
    (hf : stageFault s lane p = some f) : pageStage lane p s = refuseD stInvalid f.reason s := by
  rw [pageStage, if_neg (by omega)]
  simp only [hf]

/-! ### Bins, thresholds and XH maps (R353, R359, R360) -/

theorem pmRead_some {scope kind back : Nat} {b : PmBin} (hb : (s.line.bins.filter fun b => b.scope == scope && b.kind == kind)[back]? = some b) :
    pmRead scope kind back s = doneWith b.toBytes s := by
  simp only [pmRead, hb]

theorem xhSet_ok {lane : Nat} {map : List (Nat × Nat × Nat × Nat × Nat)} (hn : lane < 5) (hm : xhMapOk map = true)
    (ha : (laneOf s lane).active = none) (hs : (laneOf s lane).standby = none)
    (hok : sheavesOk (updLane lane (fun l => { l with xh := map, rate := if map.isEmpty then 0 else 3 }) s) = true) :
    xhSet lane map s = done (updLane lane (fun l => { l with xh := map, rate := if map.isEmpty then 0 else 3 }) s) := by
  rw [xhSet, if_neg (by omega), if_neg (not_not.mpr hm), if_neg (by simp [ha, hs])]
  exact if_pos hok

/-! ### Firmware's pages (R345, R348) -/

theorem exists_port {P : LPort → Bool} (h : ∃ p, p < 4 ∧ P (lportOf s p) = true) : s.line.ports.toList.any P = true := by
  obtain ⟨p, hp, hP⟩ := h
  refine List.any_eq_true.mpr ⟨lportOf s p, ?_, hP⟩
  have : lportOf s p = s.line.ports[p] := by simp [lportOf, vget, Array.getD, hp]
  rw [this]
  simp

theorem activeOffers_field {γ : Type} (π : State → γ) (hl : ∀ x p f, π (updLPort p f x) = π x) (hp : ∀ x p f, π (updPartner p f x) = π x)
    (id : Nat) (s : State) : π ((List.range 4).foldl (fun a p =>
      let mine := activeSet a p true
      if mine.isEmpty then a else sendPageOffer p ⟨id, true, mine⟩ a) s) = π s := by
  refine foldl_keeps (π := π) (fun a p => ?_) _ s
  dsimp only
  split
  · rfl
  · exact pageOffers_field π hl hp _ _ _

theorem activeOffers_degrDue (id p : Nat) (s : State) : (lportOf ((List.range 4).foldl (fun a p =>
    let mine := activeSet a p true
    if mine.isEmpty then a else sendPageOffer p ⟨id, true, mine⟩ a) s) p).degrDue = (lportOf s p).degrDue := by
  refine foldl_keeps (π := fun x => (lportOf x p).degrDue) (fun a q => ?_) _ s
  dsimp only
  split
  · rfl
  · exact lportOf_updLPort_keeps (π := (·.degrDue)) fun _ => rfl

theorem degrCompute_ok {pages : List (List Byte)} (hdue : ∃ p, p < 4 ∧ (lportOf s p).degrDue.isSome = true)
    (hdegr : ∀ p ∈ pages.map fun p => pageWith (activeId s) (pageDegr p) (pageLane p) p, pageDegr p ≠ 0)
    (hcheck : checkPages (laneChan s) (boundPort s)
      ((List.range 4).filter fun p => hasPartner s p && ((s.line.lanes.toList.filterMap (·.active)).any fun g => (pagePorts g).contains p))
      (pages.map fun p => pageWith (activeId s) (pageDegr p) (pageLane p) p)
      (PageSet.views (s.line.lanes.toList.filterMap (·.active))
        (pages.map fun p => pageWith (activeId s) (pageDegr p) (pageLane p) p)) = none) :
    degrCompute pages s = (List.range 4).foldl (fun a p =>
      let mine := activeSet a p true
      if mine.isEmpty then a else sendPageOffer p ⟨activeId s, true, mine⟩ a) (s.mapLine fun y => { y with
        lanes := y.lanes.mapIdx fun n l => { l with
          degrPages := ((pages.map fun p => pageWith (activeId s) (pageDegr p) (pageLane p) p).filter fun p => pageLane p == n).foldl
            (fun m p => mset m (pageDegr p) p) [] }
        ports := y.ports.map fun p => { p with degrDue := none } }) := by
  unfold degrCompute
  extract_lets id ps main ports due views s1
  refine if_neg ?_
  rintro (h | h | h)
  · obtain ⟨p, hp, hd⟩ := hdue
    have hmem : p ∈ due := List.mem_filter.mpr ⟨List.mem_range.mpr hp, hd⟩
    rw [List.isEmpty_iff.mp h] at hmem
    cases hmem
  · obtain ⟨p, hp, h0⟩ := List.any_eq_true.mp h
    exact hdegr p hp (beq_iff_eq.mp h0)
  · have hn : checkPages (laneChan s) (boundPort s) ports ps views = none := hcheck
    rw [hn] at h
    cases h

theorem doubleRepage_ok {g : List Byte} (hdue : ∃ p, p < 4 ∧ (lportOf s p).doubleDue.isSome = true) (hdegr : pageDegr g = 0)
    (hcheck : checkPages (laneChan s) (boundPort s)
      ((List.range 4).filter fun p => hasPartner s p && (lportOf s p).doubleDue.isSome) [pageWith (pageId g) 0 (pageLane g) g]
      [sortByKey (fun (e : Nat × List Byte) => e.1)
        ((pageLane g, g) :: (standbyView s).filter fun e => !([(pageLane g, g)].any fun x => x.1 == e.1))] = none) :
    doubleRepage [g] s = stageSet 2 [(pageLane g, g)] s := by
  unfold doubleRepage
  extract_lets v all ports
  refine if_neg ?_
  rintro (h | h | h | h)
  · cases h
  · exact h (exists_port hdue)
  · simp [hdegr] at h
  · have hn : checkPages (laneChan s) (boundPort s) ports ([g].map fun p => pageWith (pageId p) 0 (pageLane p) p) [all] = none := hcheck
    rw [hn] at h
    cases h

/-! ### A lane lost (R350) -/

section

variable {k : Nat} (hb : (laneOf s k).blanked = false) (hd : ∀ n, n < 5 → (laneOf s n).degr = 0)

include hd

theorem lanes_not_degraded : ((List.range 5).any fun n => (laneOf s n).degr ≠ 0 && (laneOf s n).degr ≠ k + 1) = false := by
  refine List.any_eq_false.mpr fun n hn => ?_
  rw [hd n (List.mem_range.mp hn)]
  simp

include hb

theorem loseLane_blanks (hk : k < 5) (hoff : bit s 0x00094004 2 = false) : ∃ (twice : Bool) (ports : List Nat) (f : LPort → LPort)
    (a : List Nat), loseLane k s =
      if twice then raise 0x8803 a (ports.foldl (fun a p => updLPort p f a) (blankLane k s)) else blankLane k s := by
  unfold loseLane
  extract_lets l already twice double ready s1
  have hl : ¬ (l.blanked = true ∨ l.degr = k + 1) := by
    rintro (h | h)
    · exact Bool.false_ne_true (hb.symm.trans h)
    · have := hd k hk
      have h' : (laneOf s k).degr = k + 1 := h
      omega
  rw [if_neg hl, if_pos (.inl (by simp [hoff]))]
  exact ⟨twice, _, _, _, rfl⟩

theorem loseLane_degrades (hk : k < 5) (hready : ∀ p, p < 4 → (lportOf s p).degrReady = true) (hon : bit s 0x00094004 2 = true) :
    ∃ (twice : Bool) (ports : List Nat) (f : LPort → LPort) (a : List Nat), loseLane k s =
      let x := bump 0x00094048 (raise 0x8801 [k] (s.mapLine fun y => { y with lanes := y.lanes.map fun x =>
        if (mget x.degrPages (k + 1)).isSome ∨ x.phys = (laneOf s k).phys then { x with degr := k + 1 } else x }))
      if twice then raise 0x8803 a (ports.foldl (fun a p => updLPort p f a) x) else x := by
  have ha := lanes_not_degraded (k := k) hd
  unfold loseLane
  extract_lets l already twice double ready s1
  have hl : ¬ (l.blanked = true ∨ l.degr = k + 1) := by
    rintro (h | h)
    · exact Bool.false_ne_true (hb.symm.trans h)
    · have := hd k hk
      have h' : (laneOf s k).degr = k + 1 := h
      omega
  have hr : ready = true := List.all_eq_true.mpr fun p hp => by rw [hready p (List.mem_range.mp hp), Bool.true_or]
  have ha' : already = false := ha
  rw [if_neg hl, if_neg (by simp [hon, ha', hr])]
  exact ⟨twice, _, _, _, rfl⟩

end

/-- What the warning of a second loss leaves. -/
theorem secondLoss_field {γ : Type} (π : State → γ) (hr : ∀ a x, π (raise 0x8803 a x) = π x) (hl : ∀ x p f, π (updLPort p f x) = π x)
    (twice : Bool) (ports : List Nat) (f : LPort → LPort) (a : List Nat) (x : State) :
    π (if twice then raise 0x8803 a (ports.foldl (fun a p => updLPort p f a) x) else x) = π x := by
  split
  · rw [hr]
    exact foldl_keeps (π := π) (fun a p => hl a p f) _ x
  · rfl

theorem secondLoss_seen (twice : Bool) (ports : List Nat) (f : LPort → LPort) (a : List Nat) (x : State) :
    seen (if twice then raise 0x8803 a (ports.foldl (fun a p => updLPort p f a) x) else x) 0x8801 = seen x 0x8801 :=
  secondLoss_field (seen · 0x8801) (fun _ _ => (seen_raise _ _ _ _ (by decide) (by decide)).trans (if_neg (by decide))) (fun _ _ _ => rfl) ..

theorem secondLoss_regVal (twice : Bool) (ports : List Nat) (f : LPort → LPort) (a : List Nat) (x : State) :
    regVal (if twice then raise 0x8803 a (ports.foldl (fun a p => updLPort p f a) x) else x) 0x00094048 = regVal x 0x00094048 :=
  secondLoss_field (regVal · 0x00094048) (fun _ _ => raise_regVal _ _ _ _ (by decide)) (fun _ _ _ => rfl) ..

theorem secondLoss_lanes (twice : Bool) (ports : List Nat) (f : LPort → LPort) (a : List Nat) (x : State) :
    laneOf (if twice then raise 0x8803 a (ports.foldl (fun a p => updLPort p f a) x) else x) = laneOf x :=
  secondLoss_field laneOf (fun _ _ => laneOf_congr (congrArg Line.lanes (raise_line ..))) (fun _ _ _ => rfl) ..

end

/-- Settles O40: from the answer to each command and its effect, and from what a lane lost leaves. -/
theorem lineCommandsAndLosses : Obligations.LineCommandsAndLosses := by
  unfold Obligations.LineCommandsAndLosses
  refine ⟨⟨?trib, ?page, ?bins, ?thresh, ?xh, ?fec, ?fecNo, ?channel⟩, ?compute, ?double, ?degrade, ?blank⟩
  case trib =>
    intro s m n port q w ses h h4 hn hp hq
    cases hx : tribOf s n with
    | none =>
      refine h.done rfl (tribBind_new h4 hn hp hq hx) ⟨fun _ => ⟨answered h.lt, ?_⟩, fun x hx' => ?_⟩
      · rw [tribOf_congr (congrArg Line.tribs mbxAnswer_line), tribOf_mset]
      · cases hx'
    | some x =>
      by_cases hport : x.port = port
      · refine h.done rfl (tribBind_same h4 hn hp hq hx hport) ⟨fun hno => ?_, fun y hy _ => ⟨answered h.lt, ?_⟩⟩
        · cases hno
        · cases hy
          rw [tribOf_congr (congrArg Line.tribs mbxAnswer_line), tribOf_mset]
      · refine .of_next rfl ⟨fun hno => ?_, fun y hy hyp => ?_⟩
        · cases hno
        · cases hy
          exact absurd hyp hport
  case page =>
    intro s m lane p ses h hl hrate
    cases hf : stageFault s lane p with
    | none =>
      have hstandby : (laneOf (stageSet 0 [(lane, p)] s) lane).standby = some (pageWith (newPageId s) 0 lane p) := by
        rw [laneOf_stageSet (by omega) hrate]
        simp
      have hr := pageStage_ok hl hrate hf
      rw [hstandby] at hr
      refine h.doneWith rfl hr ⟨fun _ => ⟨answered h.lt ?_ ?_, ?_⟩, fun f hno => ?_⟩
      · exact stageSet_field (·.mgt.mbx) (fun _ _ _ => rfl) (fun _ _ _ => rfl) ..
      · exact stageSet_field (·.tick) (fun _ _ _ => rfl) (fun _ _ _ => rfl) ..
      · rw [laneOf_congr (congrArg Line.lanes mbxAnswer_line), hstandby]
      · cases hno
    | some f =>
      refine h.refuseD rfl (pageStage_refused hl hrate hf) (by decide) ⟨fun hno => ?_, fun f' hf' => ?_⟩
      · cases hno
      · cases hf'
        exact ⟨answered h.lt, mbxAnswer_line⟩
  case bins =>
    intro s m scope kind back b ses h hb
    exact h.doneWith rfl (pmRead_some hb) ⟨answered h.lt, mbxAnswer_line⟩
  case thresh =>
    intro s m scope c kind v ses h hscope hc hk
    have hf : pmThresh scope c kind v s = done (pmThreshold scope kind
        (s.mapLine fun l => { l with thresholds := mset l.thresholds (threshKey scope c kind) v })) := by
      rw [pmThresh, if_neg]
      rintro (h | h | h)
      · exact h hscope
      · omega
      · omega
    have hm := (Monitored.refl (s := s.mapLine fun l => { l with thresholds := mset l.thresholds (threshKey scope c kind) v })).pmThreshold
      (scope := scope) (kind := kind)
    refine h.done rfl hf ⟨answered h.lt (congrArg Mgt.mbx hm.mgt) hm.tick, ?_⟩
    rw [mbxAnswer_line, hm.line_field (·.thresholds) fun _ _ _ => rfl]
    exact mget_mset_same ..
  case xh =>
    intro s m lane map ses h hn hmap ha hs hok
    refine h.done rfl (xhSet_ok hn hmap ha hs hok) ⟨answered h.lt, ?_, ?_⟩
    · rw [laneOf_congr (congrArg Line.lanes mbxAnswer_line), laneOf_updLane hn]
    · rw [laneOf_congr (congrArg Line.lanes mbxAnswer_line), laneOf_updLane hn]
      cases map <;> rfl
  case fec =>
    intro s m lane fec ses h hn hfec hfar
    have hf : laneFec lane fec s = done (s.mapOpt fun o => { o with fecNext := mset o.fecNext lane fec }) := by
      rw [laneFec, if_neg (by omega), if_neg]
      rintro ⟨h1, h2 | h2⟩
      · exact h2 (hfar h1).1
      · rw [(hfar h1).2] at h2
        cases h2
    refine h.done rfl hf ⟨answered h.lt, ?_, ?_⟩
    · rw [mbxAnswer_opt]
      exact mget_mset_same ..
    · rw [mbxAnswer_line]
      rfl
  case fecNo =>
    intro s m lane ses h hn hfar
    have hf : laneFec lane 1 s = refuse stInvalid s := by rw [laneFec, if_neg (by omega), if_pos ⟨rfl, hfar⟩]
    exact h.refuse rfl hf (by decide) ⟨answered h.lt, mbxAnswer_opt⟩
  case channel =>
    intro s m lane id ses h hn hphys hok
    have hf : laneChannel lane id s = done (updPhys (laneOf s lane).phys (fun x => { x with txChannel := id, loChannel := id })
        (s.mapOpt fun o => { o with channels := vupd o.channels lane fun _ => id })) := by
      rw [laneChannel, if_neg (by omega), if_neg (not_not.mpr hok)]
    refine h.done rfl hf ⟨answered h.lt, ?_, ?_, ?_⟩
    · rw [mbxAnswer_opt]
      exact vget_vupd_self hn
    · rw [physOf_congr (congrArg Opt.phys mbxAnswer_opt), physOf_updPhys hphys]
    · rw [physOf_congr (congrArg Opt.phys mbxAnswer_opt), physOf_updPhys hphys]
  case compute =>
    intro s pages ps main ports hdue hdegr hcheck
    refine .of_next (congrArg Host.Outcome.next (degrCompute_ok hdue hdegr hcheck)) ⟨fun p hp => ?_, fun n hn => ?_⟩
    · rw [activeOffers_degrDue]
      exact congrArg LPort.degrDue (vget_map _ _ _ _ hp)
    · rw [activeOffers_field (fun x => (laneOf x n).degrPages) (fun _ _ _ => rfl) (fun _ _ _ => rfl)]
      exact congrArg Lane.degrPages (vget_mapIdx _ _ _ _ hn)
  case double =>
    intro s g all ports hdue hdegr hl hrate hcheck
    refine .of_next (congrArg Host.Outcome.next (doubleRepage_ok hdue hdegr hcheck)) ⟨?_, ?_⟩
    · exact stageSet_field (·.line.autoCommit) (fun _ _ _ => rfl) (fun _ _ _ => rfl) ..
    · rw [laneOf_stageSet hl hrate]
      simp
  case degrade =>
    intro s k hk htx hb hd hready hon
    have hrun : exec (.laneDegrade k) s = .next (loseLane k s) := congrArg Host.Outcome.next (if_pos (.inl htx))
    obtain ⟨twice, ports, f, a, he⟩ := loseLane_degrades hb hd hk hready hon
    refine .of_next (hrun.trans (congrArg Host.Outcome.next he)) ⟨?_, ?_, fun n hn hp => ?_⟩
    · rw [secondLoss_seen, show ∀ x, seen (bump 0x00094048 x) 0x8801 = seen x 0x8801 from fun _ => rfl, seen_raise_self]
      rfl
    · rw [secondLoss_regVal, regVal_bump, if_pos rfl, raise_regVal _ _ _ _ (by decide)]
      rfl
    · rw [secondLoss_lanes, show ∀ x, laneOf (bump 0x00094048 x) = laneOf x from fun _ => rfl,
        laneOf_congr (congrArg Line.lanes (raise_line ..)), laneOf_map_lanes hn, if_pos (.inl hp)]
  case blank =>
    intro s k hk htx hb hd hoff
    have hrun : exec (.laneDegrade k) s = .next (loseLane k s) := congrArg Host.Outcome.next (if_pos (.inl htx))
    obtain ⟨twice, ports, f, a, he⟩ := loseLane_blanks hb hd hk hoff
    refine .of_next (hrun.trans (congrArg Host.Outcome.next he)) ⟨?_, ?_, ?_⟩
    · rw [secondLoss_lanes, blankLane, show ∀ x, laneOf (bump 0x00094048 x) = laneOf x from fun _ => rfl, laneOf_updLane hk]
    · rw [secondLoss_regVal, blankLane, regVal_bump, if_pos rfl]
      rfl
    · rw [secondLoss_seen]
      rfl

end Sys2Proof.Machine

/-! R320, R346: what a frame's start sends. -/

namespace Sys2Proof.Machine

open Sys2Proof

/-- A fold in which one element alone changes a value, in states that keep a property. -/
theorem foldl_once {α β γ : Type} [DecidableEq α] {f : β → α → β} {v : β → γ} {g : γ → γ} {P : β → Prop} {m : α} {l : List α} {b : β}
    (hP : ∀ b a, P b → P (f b a)) (hne : ∀ b a, P b → a ≠ m → v (f b a) = v b) (heq : ∀ b, P b → v (f b m) = g (v b)) (hb : P b)
    (hl : l.Nodup) (hm : m ∈ l) : v (l.foldl f b) = g (v b) := by
  have hrest : ∀ (l : List α) (b : β), P b → m ∉ l → v (l.foldl f b) = v b := fun l => by
    induction l with
    | nil => exact fun _ _ _ => rfl
    | cons a l ih =>
      intro b hb hm
      obtain ⟨ha, hl⟩ := not_or.mp (mt List.mem_cons.mpr hm)
      exact (ih _ (hP _ _ hb) hl).trans (hne _ _ hb (Ne.symm ha))
  induction l generalizing b with
  | nil => cases hm
  | cons a l ih =>
    obtain ⟨ha, hl⟩ := List.nodup_cons.mp hl
    by_cases h : a = m
    · subst h
      exact (hrest l _ (hP _ _ hb) ha).trans (heq b hb)
    · exact (ih (hP _ _ hb) hl ((List.mem_cons.mp hm).resolve_left (Ne.symm h))).trans (congrArg g (hne _ _ hb h))

section

variable {s t u : State} {n m : Nat}

/-- The same lanes send the same pages. -/
def SameSends (s t : State) : Prop :=
  ∀ n, laneSends t n = laneSends s n ∧ (laneOf t n).rate = (laneOf s n).rate ∧ (laneOf t n).page = (laneOf s n).page

theorem SameSends.refl : SameSends s s := fun _ => ⟨rfl, rfl, rfl⟩

theorem SameSends.trans (h : SameSends s t) (hu : SameSends t u) : SameSends s u := fun n =>
  ⟨(hu n).1.trans (h n).1, (hu n).2.1.trans (h n).2.1, (hu n).2.2.trans (h n).2.2⟩

/-- A counter other than the two that enable sending. -/
theorem SameSends.bump {a : Nat} (h : SameSends s t) (h1 : a ≠ 0x00094004) (h2 : a ≠ 0x000CA004) : SameSends s (bump a t) :=
  h.trans fun n => ⟨by
    have hb : ∀ r i, a ≠ r → bit (Machine.bump a t) r i = bit t r i := fun r i hr => bit_bump hr
    unfold laneSends
    rw [hb _ _ h1, hb _ _ h2]
    rfl, rfl, rfl⟩

theorem laneSends_congr (hu : (laneOf t n).txUp = (laneOf s n).txUp) (hp : (laneOf t n).phys = (laneOf s n).phys) (hphys : t.opt = s.opt)
    (hsites : t.sites = s.sites) (hregs : t.regs = s.regs) : laneSends t n = laneSends s n := by
  simp only [laneSends, hu, hp, isShadow, hsites, bit, regVal, hregs, physOf, hphys]

theorem SameSends.of_regs (h : SameSends s t) (hl : u.line.lanes = t.line.lanes := by rfl) (ho : u.opt = t.opt := by rfl)
    (hs : u.sites = t.sites := by rfl) (hr : u.regs = t.regs := by rfl) : SameSends s u :=
  h.trans fun k => by
    have he := laneOf_congr hl
    exact ⟨laneSends_congr (by rw [he]) (by rw [he]) ho hs hr, by rw [he], by rw [he]⟩

/-- The digest of the slot sent. -/
theorem SameSends.bipTx {v : Nat} (h : SameSends s t) : SameSends s (updLane n (fun l => { l with bipTx := v }) t) :=
  h.trans fun k => by
    have hl : ∀ {γ : Type} (π : Lane → γ), (∀ l, π { l with bipTx := v } = π l) →
        π (laneOf (updLane n (fun l => { l with bipTx := v }) t) k) = π (laneOf t k) := fun π hπ => laneOf_updLane_keeps (π := π) hπ
    exact ⟨laneSends_congr (hl (·.txUp) fun _ => rfl) (hl (·.phys) fun _ => rfl) rfl rfl rfl, hl (·.rate) fun _ => rfl, hl (·.page) fun _ => rfl⟩

theorem SameSends.ite {c : Prop} {_ : Decidable c} (ht : SameSends s t) (hu : SameSends s u) : SameSends s (if c then t else u) := by
  split
  · exact ht
  · exact hu

theorem SameSends.foldl {α : Type} {l : List α} {f : State → α → State} (h : SameSends s t) (hf : ∀ u a, SameSends s u → SameSends s (f u a)) :
    SameSends s (l.foldl f t) :=
  List.foldlRecOn l f h fun u hu a _ => hf u a hu

theorem SameSends.sendSlot {k : Nat} {p : List Byte} {tr : List TribFrame} (h : SameSends s t) : SameSends s (sendSlot n k p tr t) := by
  unfold Machine.sendSlot
  extract_lets w mine oh first cols
  exact .ite h (.ite (h.bump (by decide) (by decide)) h.of_regs.bipTx)

theorem laneReg_ne {k off : Nat} (hn : n < 5) (hoff : off < 0x4000) (hk : 0x94000 ≤ k) : laneReg n off ≠ k := by
  unfold laneReg
  omega

theorem laneReg_inj {off : Nat} : laneReg n off = laneReg m off ↔ n = m := by
  unfold laneReg
  omega

theorem SameSends.frameCount (h : SameSends s t) : SameSends s (Machine.bump (laneReg n 0x040) t) :=
  h.bump (by unfold laneReg; omega) (by unfold laneReg; omega)

theorem SameSends.sendLane {tr : List TribFrame} (h : SameSends s t) : SameSends s (sendLane tr n t) := by
  unfold Machine.sendLane
  split
  · exact h
  · exact .ite h (h.foldl fun _ _ hu => hu.sendSlot).frameCount

theorem SameSends.sendXhLane {ms : List ((Nat × Nat × Nat) × List Byte)} (h : SameSends s t) : SameSends s (sendXhLane ms n t) :=
  .ite h (h.foldl fun _ _ hu => hu.of_regs).frameCount

/-! ### The counters of frames sent -/

theorem sendSlot_regVal {k r : Nat} {p : List Byte} {tr : List TribFrame} (hr : r ≠ 0x000CA054) : regVal (sendSlot n k p tr s) r = regVal s r := by
  unfold sendSlot
  extract_lets w mine oh first cols
  exact ite_keeps (π := (regVal · r)) rfl (ite_keeps (π := (regVal · r)) ((regVal_bump ..).trans (if_neg hr.symm)) rfl)

theorem sendLane_regVal {tr : List TribFrame} (hm : m < 5) : regVal (sendLane tr n s) (laneReg m 0x040) =
    if n = m ∧ laneSends s n = true ∧ (laneOf s n).rate ≠ 3 ∧ (laneOf s n).page.isSome = true then
      min (2 ^ 32 - 1) (regVal s (laneReg m 0x040) + 1) else regVal s (laneReg m 0x040) := by
  have hslots : ∀ p, regVal ((List.range 8).foldl (fun a k => sendSlot n k p tr a) s) (laneReg m 0x040) = regVal s (laneReg m 0x040) :=
    fun p => foldl_keeps (π := (regVal · (laneReg m 0x040))) (fun a k => sendSlot_regVal (laneReg_ne hm (by decide) (by decide))) _ s
  unfold sendLane
  cases hp : (laneOf s n).page with
  | none => simp
  | some p =>
    dsimp only
    by_cases hs : laneSends s n = true ∧ (laneOf s n).rate ≠ 3
    · rw [if_neg (by simp [hs]), regVal_bump]
      by_cases h : n = m
      · subst h
        rw [if_pos rfl, hslots, if_pos ⟨rfl, hs.1, hs.2, rfl⟩]
      · rw [if_neg (mt laneReg_inj.mp h), hslots, if_neg fun hh => h hh.1]
    · rw [if_pos (by by_contra hc; simp only [not_or, not_not] at hc; exact hs hc), if_neg fun hh => hs ⟨hh.2.1, hh.2.2.1⟩]

theorem sendXhSlot_regVal {k r : Nat} {ms : List ((Nat × Nat × Nat) × List Byte)} : regVal (sendXhSlot ms n k s) r = regVal s r := rfl

theorem sendXhLane_regVal {ms : List ((Nat × Nat × Nat) × List Byte)} : regVal (sendXhLane ms n s) (laneReg m 0x040) =
    if n = m ∧ laneSends s n = true ∧ (laneOf s n).rate = 3 then
      min (2 ^ 32 - 1) (regVal s (laneReg m 0x040) + 1) else regVal s (laneReg m 0x040) := by
  have hslots : regVal ((List.range 8).foldl (fun a k => sendXhSlot ms n k a) s) (laneReg m 0x040) = regVal s (laneReg m 0x040) :=
    foldl_keeps (π := (regVal · (laneReg m 0x040))) (fun _ _ => sendXhSlot_regVal) _ s
  unfold sendXhLane
  by_cases hs : (laneOf s n).rate = 3 ∧ laneSends s n = true
  · rw [if_neg (by simp [hs]), regVal_bump]
    by_cases h : n = m
    · subst h
      rw [if_pos rfl, hslots, if_pos ⟨rfl, hs.2, hs.1⟩]
    · rw [if_neg (mt laneReg_inj.mp h), hslots, if_neg fun hh => h hh.1]
  · rw [if_pos (by by_contra hc; simp only [not_or, not_not] at hc; exact hs hc), if_neg fun hh => hs ⟨hh.2.2, hh.2.1⟩]

end

/-! ### A frame's start with nothing bound -/

section

variable {s : State}

theorem wantedReverts_none (h : ∀ p, p < 4 → (lportOf s p).revertWant = false) : wantedReverts s = s :=
  List.foldlRecOn (motive := (· = s)) _ _ rfl fun a ha p hp => by
    rw [ha, h p (List.mem_range.mp hp)]
    rfl

theorem applyReverts_none (h : ∀ p, p < 4 → (lportOf s p).revert = none ∧ (lportOf s p).revertWant = false) : applyReverts s = s := by
  unfold applyReverts
  rw [wantedReverts_none fun p hp => (h p hp).2]
  dsimp only
  rw [if_neg]
  intro hany
  obtain ⟨x, hx, hr⟩ := List.any_eq_true.mp hany
  obtain ⟨p, hp, rfl⟩ := List.getElem_of_mem hx
  have hp4 : p < 4 := by simpa using hp
  have he : s.line.ports.toList[p] = lportOf s p := by simp [lportOf, vget, Array.getD, hp4]
  rw [he, (h p hp4).1] at hr
  cases hr

theorem sendPairing_empty {p : Nat} (h : (partnerOf s p).ctlQueue = []) : sendPairing p s = s := by
  have hs : updPartner p (fun y => { y with ctlQueue := y.ctlQueue.filter fun m => !m.pairing }) s = s := by
    rw [updPartner, State.mapSites, vupd_eq_self (d := Partner.fresh) (show _ = partnerOf s p from ?_)]
    show { partnerOf s p with ctlQueue := (partnerOf s p).ctlQueue.filter fun m => !m.pairing } = partnerOf s p
    rw [h, List.filter_nil, ← h]
  unfold sendPairing
  extract_lets x ms s1
  have hm : ms = [] := by simp only [ms, x, h, List.filter_nil]
  rw [hm]
  exact hs

theorem sendControl_empty {p : Nat} (h : (partnerOf s p).ctlQueue = []) : sendControl p s = s := by
  unfold sendControl
  extract_lets x cut content seq b st
  exact if_pos (.inr (.inr (.inl (by simp [x, h]))))

/-- With nothing bound, nothing to say and nothing to revert, a frame's start sends the pages. -/
theorem frameStart_unbound (htribs : s.line.tribs = []) (hctl : ∀ p, p < 4 → (partnerOf s p).ctlQueue = [])
    (hrev : ∀ p, p < 4 → (lportOf s p).revert = none ∧ (lportOf s p).revertWant = false) :
    frameStart s = sendXh ((List.range 5).foldl (fun a n => sendLane [] n a) s) := by
  have h1 : sendResends (sendAcks (applyReverts s)) = s := by
    rw [applyReverts_none hrev]
    have ha : sendAcks s = s := by rw [sendAcks, htribs, List.foldl_nil]
    rw [ha, sendResends, htribs, List.foldl_nil]
  have h2 : (List.range 4).foldl (fun a p => sendControl p (sendPairing p a)) s = s :=
    List.foldlRecOn (motive := (· = s)) _ _ rfl fun a ha p hp => by
      have h := hctl p (List.mem_range.mp hp)
      rw [ha, sendPairing_empty h, sendControl_empty h]
  simp only [frameStart, h1, h2, htribs, List.foldl_nil]

theorem sheafFrames_sends {t : State} (h : SameSends s t) : SameSends s (sheafFrames t).2 :=
  List.foldlRecOn (motive := fun r : List ((Nat × Nat × Nat) × List Byte) × State => SameSends s r.2) _ _ h fun _ hr _ _ => hr.of_regs

theorem sheafFrames_regVal (r : Nat) (s : State) : regVal (sheafFrames s).2 r = regVal s r := by
  unfold sheafFrames
  extract_lets ids
  refine foldl_keeps (π := fun x : List ((Nat × Nat × Nat) × List Byte) × State => regVal x.2 r) (fun _ _ => ?_) ids _
  rfl

/-- The lanes of SLS frames: each that sends a page counts its frame. -/
theorem sendLanes_regVal {m : Nat} (hm : m < 5) : regVal ((List.range 5).foldl (fun a n => sendLane [] n a) s) (laneReg m 0x040) =
    if laneSends s m = true ∧ (laneOf s m).rate ≠ 3 ∧ (laneOf s m).page.isSome = true then
      min (2 ^ 32 - 1) (regVal s (laneReg m 0x040) + 1) else regVal s (laneReg m 0x040) := by
  refine foldl_once (v := (regVal · (laneReg m 0x040))) (P := SameSends s) (m := m) (g := fun v =>
    if laneSends s m = true ∧ (laneOf s m).rate ≠ 3 ∧ (laneOf s m).page.isSome = true then min (2 ^ 32 - 1) (v + 1) else v)
    (fun _ _ hb => hb.sendLane) (fun b a _ ha => ?_) (fun b hb => ?_) SameSends.refl List.nodup_range (List.mem_range.mpr hm)
  · exact (sendLane_regVal hm).trans (if_neg fun h => ha h.1)
  · obtain ⟨h1, h2, h3⟩ := hb m
    rw [sendLane_regVal hm, h1, h2, h3]
    simp only [true_and]

/-- The XH lanes: each that sends counts its frame. -/
theorem sendXh_regVal {m : Nat} (hm : m < 5) : regVal (sendXh s) (laneReg m 0x040) =
    if laneSends s m = true ∧ (laneOf s m).rate = 3 then
      min (2 ^ 32 - 1) (regVal s (laneReg m 0x040) + 1) else regVal s (laneReg m 0x040) := by
  unfold sendXh
  extract_lets r
  have hr : regVal r.2 (laneReg m 0x040) = regVal s (laneReg m 0x040) := sheafFrames_regVal _ s
  rw [← hr]
  refine foldl_once (v := (regVal · (laneReg m 0x040))) (P := SameSends s) (m := m) (g := fun v =>
    if laneSends s m = true ∧ (laneOf s m).rate = 3 then min (2 ^ 32 - 1) (v + 1) else v)
    (fun _ _ hb => hb.sendXhLane) (fun b a _ ha => ?_) (fun b hb => ?_) (sheafFrames_sends SameSends.refl) List.nodup_range
    (List.mem_range.mpr hm)
  · exact sendXhLane_regVal.trans (if_neg fun h => ha h.1)
  · obtain ⟨h1, h2, -⟩ := hb m
    rw [sendXhLane_regVal, h1, h2]
    simp only [true_and]

theorem frameStart_regVal {m : Nat} (hm : m < 5) : regVal (sendXh ((List.range 5).foldl (fun a n => sendLane [] n a) s)) (laneReg m 0x040) =
    if laneSends s m = true ∧ ((laneOf s m).rate = 3 ∨ (laneOf s m).page.isSome = true) then
      min (2 ^ 32 - 1) (regVal s (laneReg m 0x040) + 1) else regVal s (laneReg m 0x040) := by
  obtain ⟨h1, h2, -⟩ := (SameSends.refl (s := s)).foldl (l := List.range 5) (f := fun a n => sendLane [] n a) (fun _ _ hu => hu.sendLane) m
  rw [sendXh_regVal hm, h1, h2, sendLanes_regVal hm]
  by_cases h3 : (laneOf s m).rate = 3
  · simp [h3]
  · simp [h3]

end

end Sys2Proof.Machine

/-! R321, R332, R346, R349, R376: a slot received. -/

namespace Sys2Proof.Machine

open Sys2Proof

section

variable {s t u : State}

theorem laneReg_not_event {n off : Nat} (hn : n < 5) (hoff : off < 0x4000) : laneReg n off ∉ eventRegs := by
  have h : ∀ r ∈ eventRegs, r < 0x80000 ∨ 0x94000 ≤ r := by decide
  intro hr
  have := h _ hr
  unfold laneReg at this
  omega

/-- What the notes of a slot leave: the pages that lanes send, the sets and tributaries held, and the two counters of unknown pages. -/
structure Notes (lane : Nat) (s t : State) : Prop where
  ports : ∀ k, lanePorts (laneOf t k) = lanePorts (laneOf s k)
  sets : ∀ p, (lportOf t p).rxSets = (lportOf s p).rxSets
  tribs : t.line.tribs = s.line.tribs
  unknown : regVal t (laneReg lane 0x054) = regVal s (laneReg lane 0x054)
  rejects : regVal t 0x00094044 = regVal s 0x00094044

/-- What a lane has heard last. -/
def heardOn (lane : Nat) (s : State) : Bool × Nat × Option Nat := ((laneOf s lane).rxUp, (laneOf s lane).rxFrame, (laneOf s lane).bip)

variable {lane n : Nat}

theorem Notes.refl : Notes lane s s := ⟨fun _ => rfl, fun _ => rfl, rfl, rfl, rfl⟩

theorem Notes.trans (h : Notes lane s t) (hu : Notes lane t u) : Notes lane s u where
  ports k := (hu.ports k).trans (h.ports k)
  sets p := (hu.sets p).trans (h.sets p)
  tribs := hu.tribs.trans h.tribs
  unknown := hu.unknown.trans h.unknown
  rejects := hu.rejects.trans h.rejects

theorem lanePorts_congr {l m : Lane} (h : m.page = l.page) : lanePorts m = lanePorts l := by rw [lanePorts, lanePorts, h]

variable (h : Notes lane s t)

include h

/-- A change elsewhere. -/
theorem Notes.of_regs (hl : u.line.lanes = t.line.lanes := by rfl) (hp : u.line.ports = t.line.ports := by rfl)
    (ht : u.line.tribs = t.line.tribs := by rfl) (hr : u.regs = t.regs := by rfl) : Notes lane s u :=
  h.trans ⟨fun k => by rw [laneOf_congr hl], fun p => by rw [lportOf_congr hp], ht, regVal_congr hr _, regVal_congr hr _⟩

theorem Notes.updLane {f : Lane → Lane} (hf : ∀ l, (f l).page = l.page) : Notes lane s (updLane n f t) :=
  h.trans ⟨fun _ => lanePorts_congr (laneOf_updLane_keeps (π := Lane.page) hf), fun _ => rfl, rfl, rfl, rfl⟩

theorem Notes.updPhys {f : PhysLane → PhysLane} : Notes lane s (updPhys n f t) := h.of_regs

theorem Notes.updLPort {f : LPort → LPort} (hf : ∀ x, (f x).rxSets = x.rxSets) : Notes lane s (updLPort n f t) :=
  h.trans ⟨fun _ => rfl, fun _ => lportOf_updLPort_keeps (π := (·.rxSets)) hf, rfl, rfl, rfl⟩

theorem Notes.bumpBy {a k : Nat} (h1 : a ≠ laneReg lane 0x054) (h2 : a ≠ 0x00094044) : Notes lane s (bumpBy a k t) :=
  h.trans ⟨fun _ => rfl, fun _ => rfl, rfl, (regVal_bumpBy ..).trans (if_neg h1), (regVal_bumpBy ..).trans (if_neg h2)⟩

theorem Notes.monitored (hlane : lane < 5) (hm : Monitored t u) : Notes lane s u :=
  h.trans ⟨fun k => by rw [laneOf_congr (hm.line_field (·.lanes) fun _ _ _ => rfl)],
    fun p => by rw [lportOf_congr (hm.line_field (·.ports) fun _ _ _ => rfl)], hm.line_field (·.tribs) fun _ _ _ => rfl,
    hm.regVal _ (laneReg_not_event hlane (by decide)), hm.regVal _ (by decide)⟩

theorem Notes.raise (hlane : lane < 5) {c : Nat} {a : List Nat} : Notes lane s (raise c a t) :=
  h.trans ⟨fun k => by rw [laneOf_congr (congrArg Line.lanes (raise_line ..))],
    fun p => by rw [lportOf_congr (congrArg Line.ports (raise_line ..))], congrArg Line.tribs (raise_line ..),
    raise_regVal _ _ _ _ (laneReg_not_event hlane (by decide)), raise_regVal _ _ _ _ (by decide)⟩

omit h

theorem heardOn_updLane {f : Lane → Lane} (hf : ∀ l, ((f l).rxUp, (f l).rxFrame, (f l).bip) = (l.rxUp, l.rxFrame, l.bip)) :
    heardOn lane (updLane n f s) = heardOn lane s := laneOf_updLane_keeps (π := fun l : Lane => (l.rxUp, l.rxFrame, l.bip)) hf

theorem heardOn_congr (hl : t.line.lanes = s.line.lanes) : heardOn lane t = heardOn lane s := by rw [heardOn, laneOf_congr hl, heardOn]

/-! ### The notes, in order -/

variable {x : SlotIn}

theorem noteFrame_notes (hlane : x.lane < 5) (s : State) : Notes x.lane s (noteFrame x s) ∧
    (laneOf (noteFrame x s) x.lane).rxUp = true ∧ (laneOf (noteFrame x s) x.lane).rxFrame = x.frame := by
  unfold noteFrame
  extract_lets l s1
  split
  · next hh => exact ⟨.refl, hh.2, hh.1⟩
  · refine ⟨?_, ?_⟩
    · exact ((Notes.refl.monitored hlane Monitored.refl.pmFrame).bumpBy (by unfold laneReg; omega)
        (laneReg_ne hlane (by decide) (by decide))).updLane fun _ => rfl
    · rw [laneOf_updLane hlane]
      exact ⟨rfl, rfl⟩

theorem noteBip_notes (hlane : x.lane < 5) (s : State) : Notes x.lane s (noteBip x s) ∧
    heardOn x.lane (noteBip x s) = ((laneOf s x.lane).rxUp, (laneOf s x.lane).rxFrame, some (bip32 (x.oh ++ x.cols))) := by
  unfold noteBip
  extract_lets l errs s1
  have hm : Monitored (bumpBy (laneReg x.lane 0x04C) errs s) s1 := Monitored.refl.pmAdd
  refine ⟨?_, ?_⟩
  · exact ((Notes.refl.bumpBy (by unfold laneReg; omega) (laneReg_ne hlane (by decide) (by decide))).monitored hlane hm).updLane fun _ => rfl
  · have hl : laneOf s1 x.lane = laneOf s x.lane := by rw [laneOf_congr (hm.line_field (·.lanes) fun _ _ _ => rfl)]; rfl
    rw [heardOn, laneOf_updLane hlane, hl]

theorem noteStamp_notes (off : Nat) (s : State) : Notes x.lane s (noteStamp x off s) ∧ heardOn x.lane (noteStamp x off s) = heardOn x.lane s := by
  unfold noteStamp
  split
  · exact ⟨.refl, rfl⟩
  · exact ⟨Notes.refl.of_regs, rfl⟩

theorem noteSource_notes (s : State) : Notes x.lane s (noteSource x s) ∧ heardOn x.lane (noteSource x s) = heardOn x.lane s := by
  unfold noteSource
  have h1 : Notes x.lane s (updLane x.lane (fun l => { l with rxRate := bitsOf x.word 27 2 }) s) := Notes.refl.updLane fun _ => rfl
  exact ⟨h1.updPhys, heardOn_updLane fun _ => rfl⟩

theorem noteSet_notes (s : State) : Notes x.lane s (noteSet x s) ∧ heardOn x.lane (noteSet x s) = heardOn x.lane s := by
  unfold noteSet
  refine ⟨Notes.refl.updLPort fun y => ?_, rfl⟩
  split
  · split <;> rfl
  · rfl

theorem noteRdi_notes (hlane : x.lane < 5) (s : State) : Notes x.lane s (noteRdi x s) ∧ heardOn x.lane (noteRdi x s) = heardOn x.lane s := by
  unfold noteRdi
  extract_lets now old s1
  have h1 : Notes x.lane s s1 := List.foldlRecOn (motive := Notes x.lane s) _ _ .refl fun _ hb _ _ => hb.raise hlane
  have hh : heardOn x.lane s1 = heardOn x.lane s :=
    foldl_keeps (π := heardOn x.lane) (fun _ _ => heardOn_congr (congrArg Line.lanes (raise_line ..))) _ s
  exact ⟨h1.updLPort fun _ => rfl, hh⟩

/-- A port that no lane of the device is steered to reports nothing of a lane. -/
theorem noteReports_other (hp : ∀ k, k < 5 → x.port ∉ lanePorts (laneOf s k)) : noteReports x s = s :=
  List.foldlRecOn (motive := (· = s)) _ _ rfl fun a ha k hk => by
    subst ha
    exact if_pos (.inl (by simpa using hp k (List.mem_range.mp hk)))

theorem controlPieces_none (h : byteAt x.oh 33 = 0) : controlPieces x s = s := by
  unfold controlPieces
  extract_lets c mine
  have hm : mine = [] := by
    refine List.filter_eq_nil_iff.mpr fun e _ => ?_
    have hc : c.2 = 0 := h
    rw [hc]
    simp
  rw [hm]
  rfl

theorem controlFrame_none (h : tribOf s x.port = none) : controlFrame x s = s := by
  simp only [controlFrame, h]

theorem rxPage_none {port id k d : Nat} (h : (lportOf s port).rxSets = []) : rxPage s port id k d = none := by
  rw [rxPage, h]
  rfl

theorem sendReject_keeps {γ : Type} (π : State → γ) (hp : ∀ x p f, π (updPartner p f x) = π x) (hr : ∀ x a, π (bump a x) = π x)
    (port id : Nat) (f : PageFault) (s : State) : π (sendReject port id f s) = π s := (hr _ _).trans (hp _ _ _)

theorem raisePort_line (c p : Nat) (a : List Nat) (s : State) : (raisePort c p a s).line = s.line := by
  unfold raisePort
  extract_lets k
  exact ite_keeps (π := State.line) rfl (raise_line ..)

theorem raisePort_regVal {c p r : Nat} {a : List Nat} (hr : r ∉ eventRegs) : regVal (raisePort c p a s) r = regVal s r := by
  unfold raisePort
  extract_lets k
  exact ite_keeps (π := (regVal · r)) rfl (raise_regVal _ _ _ _ hr)

/-- A slot whose page is unknown is counted on its lane and rejected. -/
theorem unknownPage_spec (hlane : x.lane < 5) (s : State) : (unknownPage x s).line = s.line ∧
    regVal (unknownPage x s) (laneReg x.lane 0x054) = min (2 ^ 32 - 1) (regVal s (laneReg x.lane 0x054) + 1) ∧
      regVal (unknownPage x s) 0x00094044 = min (2 ^ 32 - 1) (regVal s 0x00094044 + 1) := by
  have hne : laneReg x.lane 0x054 ≠ 0x00094044 := laneReg_ne hlane (by decide) (by decide)
  have hctl : ∀ p f r (y : State), regVal (sendCtl p 0x05 [] (rejectBody x.page f) y) r = regVal y r := fun _ _ _ _ => rfl
  unfold unknownPage
  extract_lets s1
  refine ⟨?_, ?_, ?_⟩
  · rw [raisePort_line]
    rfl
  · rw [raisePort_regVal (laneReg_not_event hlane (by decide))]
    show regVal (bump 0x00094044 _) _ = _
    rw [regVal_bump, if_neg hne.symm, hctl, regVal_bump, if_pos rfl]
  · rw [raisePort_regVal (by decide)]
    show regVal (bump 0x00094044 _) _ = _
    rw [regVal_bump, if_pos rfl, hctl, regVal_bump, if_neg hne]

/-- What is noted of a good slot before its pages are looked up. -/
theorem slotNotes (hlane : x.lane < 5) (off : Nat) (hp : ∀ k, k < 5 → x.port ∉ lanePorts (laneOf s k)) :
    Notes x.lane s (noteReports x (noteRdi x (noteSet x (noteSource x (noteStamp x off (noteBip x (noteFrame x s))))))) ∧
      heardOn x.lane (noteReports x (noteRdi x (noteSet x (noteSource x (noteStamp x off (noteBip x (noteFrame x s))))))) =
        (true, x.frame, some (bip32 (x.oh ++ x.cols))) := by
  obtain ⟨h1, hup, hframe⟩ := noteFrame_notes hlane s
  obtain ⟨h2, hheard⟩ := noteBip_notes hlane (noteFrame x s)
  obtain ⟨h3, hh3⟩ := noteStamp_notes (x := x) off (noteBip x (noteFrame x s))
  obtain ⟨h4, hh4⟩ := noteSource_notes (x := x) (noteStamp x off (noteBip x (noteFrame x s)))
  obtain ⟨h5, hh5⟩ := noteSet_notes (x := x) (noteSource x (noteStamp x off (noteBip x (noteFrame x s))))
  obtain ⟨h6, hh6⟩ := noteRdi_notes hlane (noteSet x (noteSource x (noteStamp x off (noteBip x (noteFrame x s)))))
  have h := ((((h1.trans h2).trans h3).trans h4).trans h5).trans h6
  rw [noteReports_other fun k hk => by rw [h.ports]; exact hp k hk]
  exact ⟨h, by rw [hh6, hh5, hh4, hh3, hheard, hup, hframe]⟩

theorem slotGood_unknown (hlane : x.lane < 5) (off : Nat) (hp : ∀ k, k < 5 → x.port ∉ lanePorts (laneOf s k))
    (hsets : (lportOf s x.port).rxSets = []) (htrib : tribOf s x.port = none) (h7 : byteAt x.oh 7 = 0) (h33 : byteAt x.oh 33 = 0) :
    ∃ u, Notes x.lane s u ∧ heardOn x.lane u = (true, x.frame, some (bip32 (x.oh ++ x.cols))) ∧ slotGood x off s = unknownPage x u := by
  obtain ⟨h, hheard⟩ := slotNotes hlane off hp
  unfold slotGood
  extract_lets s1 s2 s3 s4
  have h1 : Notes x.lane s s1 := h
  have hh1 : heardOn x.lane s1 = (true, x.frame, some (bip32 (x.oh ++ x.cols))) := hheard
  clear_value s1
  have h2 : Notes x.lane s s2 := (h1.updLPort (n := x.port) (f := fun y => { y with rxFailRuns := mdel y.rxFailRuns x.lane })
    fun _ => rfl).of_regs
  have hh2 : heardOn x.lane s2 = heardOn x.lane s1 := rfl
  have h3 : s3 = s2 := by simp only [s3, h7, List.range_zero, List.foldl_nil]
  have h4 : s4 = s2 := by
    have ht : tribOf s2 x.port = none := by rw [tribOf_congr h2.tribs, htrib]
    simp only [s4, h3, controlPieces_none h33, controlFrame_none ht]
  refine ⟨s2, h2, hh2.trans hh1, ?_⟩
  have hr : rxPage s4 x.port x.page x.far x.degr = none := rxPage_none (by rw [h4, h2.sets, hsets])
  rw [hr, h4]

theorem slotRx_acquired {port lane off f1 snr : Nat} {oh cols : List Byte} (hon : bit s 0x00094004 1 = true) (hp : port < 4) (hl : lane < 5)
    (hlen : oh.length = 1024) (hcrc : crc32 (oh.take 1020) = beAt oh 1020 4) (hslip : (laneOf s lane).slip = none) :
    ∃ u, Notes lane s u ∧ slotRx port lane off true f1 0 snr oh cols s = slotGood ⟨port, lane, oh, cols⟩ off u := by
  unfold slotRx
  extract_lets x s1
  have h1 : Notes lane s s1 :=
    ((Notes.refl.monitored hl Monitored.refl.pmAdd).monitored hl Monitored.refl.pmAdd).updPhys.updLane fun _ => rfl
  refine ⟨updLane lane (fun l => { l with slip := none }) s1, h1.updLane fun _ => rfl, ?_⟩
  rw [if_neg (by simp [hon]; omega), if_neg (by simp), if_neg (by simp [hlen, hcrc]), if_neg (by rw [hslip]; exact (Option.some_ne_none _).symm)]

theorem slotRx_lost {port lane off f1 f2 snr : Nat} {oh cols : List Byte} (hon : bit s 0x00094004 1 = true) (hp : port < 4) (hl : lane < 5) :
    slotRx port lane off false f1 f2 snr oh cols s = slotFailed port lane (bump (0x000C0040 + (laneOf s lane).phys * 0x2000) s) := by
  unfold slotRx
  extract_lets x s1
  rw [if_neg (by simp [hon]; omega), if_pos (by simp)]

theorem slotFailed_early {port lane : Nat} (hrun : mgetD (lportOf s port).rxFailRuns lane 0 < 15) : slotFailed port lane s =
    updLPort port (fun x => { x with rxFailRuns := mset x.rxFailRuns lane (mgetD (lportOf s port).rxFailRuns lane 0 + 1) })
      (updLane lane (fun l => { l with badSlots := l.badSlots + 1, goodFrames := 0, bip := none }) s) := by
  unfold slotFailed
  extract_lets n s1
  exact if_neg (by show ¬ (_ + 1 = 16); omega)

/-! ### Sheaves (R354 to R356) -/

theorem sheafOf_putSheaf {id : Nat} {y : Sheaf} : sheafOf (putSheaf id y s) id = y := by
  rw [sheafOf, putSheaf, State.mapLine_line, mgetD, mget_mset_same]
  rfl

theorem sheafOf_congr (hl : t.line = s.line) : sheafOf t = sheafOf s := by
  funext id
  have hp : sheafParts t id = sheafParts s id := by
    rw [sheafParts, sheafParts, laneOf_congr (congrArg Line.lanes hl)]
  rw [sheafOf, sheafOf, sheafMembers, sheafMembers, hp, hl]

theorem sheafDown_up {id : Nat} (hup : (sheafOf s id).down = false) : sheafDown id s = raise 0x8802 [id] (putSheaf id { sheafOf s id with
    down := true, good := 0, bad := 0, frames := [], firstTick := [], stream := none } s) := by
  unfold sheafDown
  extract_lets x
  exact if_neg (by rw [hup]; exact Bool.false_ne_true)

theorem sheafMember_joins {port sq mfi : Nat} {cols : List Byte} {e : Nat × Nat × Nat × Nat × Nat}
    (hhead : memberHead s (memberBytes cols e) e = some (sq, mfi)) (hframes : mget (sheafOf s e.1).frames mfi = none)
    (hfirst : mget (sheafOf s e.1).firstTick mfi = none) (hm : 2 ≤ sheafMembers s e.1) :
    mget (sheafOf (sheafMember port cols e s) e.1).frames mfi = some [(sq, (memberBytes cols e).drop 16)] := by
  have hfr : mset (mgetD (sheafOf s e.1).frames mfi []) sq ((memberBytes cols e).drop 16) = [(sq, (memberBytes cols e).drop 16)] := by
    rw [mgetD, hframes]
    rfl
  simp only [sheafMember, hhead, hfirst, hfr]
  rw [if_neg (by simp), if_neg (by simp; omega), sheafOf_putSheaf]
  exact mget_mset_same ..

theorem sheafMember_differs {port : Nat} {cols : List Byte} {e : Nat × Nat × Nat × Nat × Nat}
    (hhead : memberHead s (memberBytes cols e) e = none) (hbad : (sheafOf s e.1).bad < 2) (htick : (sheafOf s e.1).badTick ≠ some s.tick) :
    sheafMember port cols e s = putSheaf e.1 { sheafOf s e.1 with bad := (sheafOf s e.1).bad + 1, badTick := some s.tick, good := 0 } s := by
  simp only [sheafMember, hhead]
  rw [if_neg htick, if_neg (by omega)]

end

/-- Settles O42: from what a frame's start sends, what a slot leaves and what a sheaf's member does. -/
theorem framesSlotsAndSheaves : Obligations.FramesSlotsAndSheaves := by
  unfold Obligations.FramesSlotsAndSheaves
  refine ⟨⟨?start, ?lost, ?good, ?slip, ?rdi⟩, ?member, ?differs, ?down⟩
  case start =>
    intro s htribs hctl hrev
    refine .of_next (congrArg Host.Outcome.next (frameStart_unbound htribs hctl hrev)) fun n hn => ?_
    have ha : 0x00080040 + n * 0x4000 = laneReg n 0x040 := by unfold laneReg; omega
    rw [ha, frameStart_regVal hn]
    refine ⟨fun h1 h2 => if_pos ⟨h1, h2⟩, fun h => if_neg ?_⟩
    rintro ⟨h1, h2⟩
    rcases h with h | ⟨h3, h4⟩
    · exact Bool.false_ne_true (h.symm.trans h1)
    · rcases h2 with h2 | h2
      · exact h3 h2
      · rw [h4] at h2
        cases h2
  case lost =>
    intro s port lane off f1 f2 snr oh cols hp hl hon hrun
    refine .of_next (congrArg Host.Outcome.next ((slotRx_lost hon hp hl).trans (slotFailed_early hrun))) ⟨?_, ?_, ?_, ?_⟩
    · rw [lportOf_updLPort hp, mgetD, mget_mset_same]
      rfl
    · exact (congrArg Lane.badSlots (laneOf_updLane hl :) :)
    · exact (congrArg Lane.rxFrame (laneOf_updLane hl :) :)
    · exact (regVal_bump ..).trans (if_pos rfl)
  case good =>
    intro s port lane off f1 snr oh cols hp hl hon hlen hcrc h7 h33 hslip hports hsets htrib
    obtain ⟨u, hu, hrun⟩ := slotRx_acquired (off := off) (f1 := f1) (snr := snr) (cols := cols) hon hp hl hlen hcrc hslip
    obtain ⟨v, hv, hheard, hgood⟩ := slotGood_unknown (x := ⟨port, lane, oh, cols⟩) (s := u) hl off
      (fun k hk => by rw [hu.ports]; exact hports k hk) (by rw [hu.sets, hsets]) (by rw [tribOf_congr hu.tribs, htrib]) h7 h33
    have hn := hu.trans hv
    obtain ⟨hline, hr1, hr2⟩ := unknownPage_spec (x := ⟨port, lane, oh, cols⟩) hl v
    obtain ⟨h1, h23⟩ := Prod.ext_iff.mp hheard
    obtain ⟨h2, h3⟩ := Prod.ext_iff.mp h23
    have ha : 0x00080054 + lane * 0x4000 = laneReg lane 0x054 := by unfold laneReg; omega
    refine .of_next (congrArg Host.Outcome.next (hrun.trans hgood)) ⟨?_, ?_, ?_, ?_, ?_⟩
    · rw [laneOf_congr (congrArg Line.lanes hline)]
      exact h1
    · rw [laneOf_congr (congrArg Line.lanes hline)]
      exact h2
    · rw [laneOf_congr (congrArg Line.lanes hline)]
      exact h3
    · rw [ha]
      exact hr1.trans (by rw [hn.unknown])
    · exact hr2.trans (by rw [hn.rejects])
  case slip =>
    intro s lane hl
    refine .of_next rfl ?_
    unfold elasticSlip
    extract_lets f s1
    have hs1 : laneOf s1 lane = { laneOf s lane with slip := some f, goodFrames := 0, bip := none } := laneOf_updLane hl
    refine ⟨congrArg Lane.slip hs1, congrArg Lane.bip hs1, fun n x hx hany => ?_⟩
    have ht : tribOf (s1.mapLine fun y => { y with tribs := mmap y.tribs fun _ t =>
        if (t.rxPieces.any fun e => decide (e.1 / 4096 = f)) then { t with rxPieces := [], rxPtr := none, rxStream := none } else t }) n =
          some { x with rxPieces := [], rxPtr := none, rxStream := none } := by
      have hx' : mget s1.line.tribs n = some x := hx
      rw [tribOf, State.mapLine_line, mget_mmap, hx', Option.map_some, if_pos hany]
    exact ⟨_, ht, rfl, rfl⟩
  case rdi =>
    intro s lane hl hphys hlos
    by_cases hgood : 500 ≤ (laneOf s lane).goodFrames
    · refine .of_next (congrArg Host.Outcome.next (if_pos ⟨hgood, by rw [hlos]; exact Bool.false_ne_true⟩))
        ⟨fun _ => ⟨?_, ?_⟩, fun hlt => absurd hgood (Nat.not_le.mpr hlt)⟩
      · exact (congrArg Lane.rdiTx (laneOf_updLane hl :) :)
      · exact (congrArg PhysLane.rxLof (physOf_updPhys hphys :) :)
    · exact .of_next (congrArg Host.Outcome.next (if_neg fun h => hgood h.1)) ⟨fun h => absurd h hgood, fun _ => rfl⟩
  case member =>
    intro s port lane slot sq mfi cols e hrate hon hxh hhead hframes hfirst hm
    have hrun : exec (.xhSheafRx port lane slot cols) s = .next (sheafMember port cols e s) := by
      refine congrArg Host.Outcome.next ((if_pos ⟨hrate, hon⟩).trans ?_)
      rw [hxh]
      rfl
    exact .of_next hrun (sheafMember_joins hhead hframes hfirst hm)
  case differs =>
    intro s port lane slot cols e hrate hon hxh hhead hbad htick
    have hrun : exec (.xhSheafRx port lane slot cols) s = .next (sheafMember port cols e s) := by
      refine congrArg Host.Outcome.next ((if_pos ⟨hrate, hon⟩).trans ?_)
      rw [hxh]
      rfl
    refine .of_next hrun ?_
    rw [sheafMember_differs hhead hbad htick, sheafOf_putSheaf]
    exact ⟨rfl, rfl⟩
  case down =>
    intro s id hup hdue
    have hc : 3 ≤ (sheafOf s id).bad ∨ (sheafOf s id).firstTick.any (fun e => decide (e.2 + 1000 < s.tick)) = true := by
      refine hdue.imp_right fun ⟨e, he, hlt⟩ => List.any_eq_true.mpr ⟨e, he, decide_eq_true hlt⟩
    refine .of_next (congrArg Host.Outcome.next ((if_pos hc).trans (sheafDown_up hup))) ?_
    rw [sheafOf_congr (raise_line ..), sheafOf_putSheaf, seen_raise_self]
    exact ⟨rfl, rfl, rfl⟩

end Sys2Proof.Machine

/-! R23, R333, R397, R398: a line block through its checks. -/

namespace Sys2Proof.Machine

open Sys2Proof

section

variable {s : State} {port : Nat} {b content : List Byte}

/-- The entry of a block among those delineated is used up. -/
def undelineated (port : Nat) (b : List Byte) (s : State) : State := s.mapLine fun y => { y with rxBlocks := y.rxBlocks.erase (port, b) }

section

variable (hp : port < 4) (hon : bit s 0x00100004 0 = true) (hst : (keysOf s port).st = 4) (hpair : pairBlockOk b = false)

include hp hon hst hpair

theorem lineBlockRx_header (hfault : headerFault (keysOf s port) b = true) :
    lineBlockRx port b s = bump 0x00100040 (undelineated port b s) := by
  unfold lineBlockRx
  extract_lets u k
  have hk : k = keysOf s port := rfl
  rw [if_neg (by rw [show bit u 0x00100004 0 = bit s 0x00100004 0 from rfl]; simp [hon]; omega),
    if_neg (by simp [hpair]), if_neg (by rw [hk, hst]; simp), if_pos (by rw [hk, hfault])]
  rfl

variable {c : Nat} (hheader : headerFault (keysOf s port) b = false) (hv : rxVintage (keysOf s port) (byteAt b 1) = some c)
  (hc : c = (keysOf s port).rxCount) (hlen : lengthFault b = false)

include hheader hv hc hlen

/-- A block of the vintage in force whose header holds is opened. -/
theorem lineBlockRx_opened : lineBlockRx port b s = match gcmOpen (mgetD (keysOf s port).rxKeys c [])
      (lineNonce (byteAt b 1) (byteAt b 2) (beAt b 32 10)) (b.take 64) (slice b 64 (beAt b 48 4)) (slice b (64 + beAt b 48 4) 16) with
    | none => nackFailed port b (tagFailed port b (undelineated port b s))
    | some content => goodBlock port c b content (undelineated port b s) := by
  unfold lineBlockRx
  extract_lets u k
  have hk : k = keysOf s port := rfl
  rw [if_neg (by rw [show bit u 0x00100004 0 = bit s 0x00100004 0 from rfl]; simp [hon]; omega),
    if_neg (by simp [hpair]), if_neg (by rw [hk, hst]; simp), if_neg (by rw [hk, hheader]; exact Bool.false_ne_true), hk]
  simp only [hv, hlen, Bool.false_eq_true, if_false]
  rw [if_neg (by omega)]
  have hu : keysOf u port = keysOf s port := rfl
  rw [hu, hst]
  rfl

end

/-! ### A tag that fails -/

theorem tagReg_not_event (hp : port < 4) : 0x00100110 + port * 0x20 ∉ eventRegs := by
  interval_cases port <;> decide

theorem tagFailed_regVal (hp : port < 4) : regVal (tagFailed port b s) (0x00100110 + port * 0x20) =
    min (2 ^ 32 - 1) (regVal s (0x00100110 + port * 0x20) + 1) := by
  have hev := tagReg_not_event hp
  unfold tagFailed
  extract_lets n s1 s2 k late
  have h1 : regVal s1 (0x00100110 + port * 0x20) = min (2 ^ 32 - 1) (regVal s (0x00100110 + port * 0x20) + 1) :=
    (regVal_bump ..).trans (if_pos rfl)
  have h2 : regVal s2 (0x00100110 + port * 0x20) = min (2 ^ 32 - 1) (regVal s (0x00100110 + port * 0x20) + 1) :=
    ite_keeps (π := (regVal · (0x00100110 + port * 0x20))) h1 (((Monitored.refl (s := s1)).pmAdd.regVal _ hev).trans h1)
  exact ite_keeps (π := (regVal · (0x00100110 + port * 0x20))) ((raise_regVal _ _ _ _ hev).trans h2) h2

/-- NACKs count in the register of their lane. -/
theorem nackMessages_regVal {n p reason r : Nat} {seqs : List Nat} (hr : ∀ k, laneReg k 0x06C ≠ r) :
    regVal (nackMessages n p reason seqs s) r = regVal s r := by
  unfold nackMessages
  extract_lets a
  exact foldl_keeps (π := (regVal · r)) (fun u rs =>
    (regVal_bump (sendCtl p 0x02 [] (nackBody (peerTrib s n) reason rs) u) a r).trans (if_neg (hr _))) _ _

theorem sendLineNacks_regVal {n reason r : Nat} {seqs : List Nat} (hr : ∀ k, laneReg k 0x06C ≠ r) :
    regVal (sendLineNacks n reason seqs s) r = regVal s r := by
  unfold sendLineNacks
  split
  · rfl
  · exact nackMessages_regVal hr

theorem nackFailed_regVal :
    regVal (nackFailed port b s) (0x00100110 + port * 0x20) = regVal s (0x00100110 + port * 0x20) := by
  have hr : ∀ k, laneReg k 0x06C ≠ 0x00100110 + port * 0x20 := fun k => by
    unfold laneReg
    omega
  unfold nackFailed
  extract_lets n s1 q
  have h1 : regVal s1 (0x00100110 + port * 0x20) = regVal s (0x00100110 + port * 0x20) :=
    ite_keeps (π := (regVal · (0x00100110 + port * 0x20))) rfl rfl
  split
  · exact h1
  · exact ite_keeps (π := (regVal · (0x00100110 + port * 0x20))) h1 (ite_keeps (π := (regVal · (0x00100110 + port * 0x20)))
      ((nackMessages_regVal hr).trans h1) ((sendLineNacks_regVal hr).trans h1))

/-! ### A control block next in its sequence -/

theorem advanceDone_next {t : Trib} (h : t.rxDone = [t.rxNext]) : (advanceDone t).rxNext = t.rxNext + 1 := by
  rw [advanceDone, h]
  simp

theorem sendLineNacks_nil {n reason : Nat} : tribOf (sendLineNacks n reason [] s) n = tribOf s n ∧
    (sendLineNacks n reason [] s).sites = s.sites := by
  unfold sendLineNacks
  split
  · exact ⟨rfl, rfl⟩
  · next t ht =>
    refine ⟨(tribOf_updTrib_self ht).trans ?_, rfl⟩
    rw [ht]
    rfl

/-- Nothing is missing below the next number. -/
theorem nackGaps_next {n : Nat} {x : Trib} (hx : tribOf s n = some x) :
    tribOf (nackGaps n x.rxNext s) n = some { x with rxTop := max x.rxTop (x.rxNext + 1) } ∧ (nackGaps n x.rxNext s).sites = s.sites := by
  simp only [nackGaps, hx]
  have hm : (((List.range (x.rxNext - x.rxTop)).map (· + x.rxTop)).filter fun q =>
      decide (x.rxNext ≤ q) && !mhas x.rxHeld q && !x.rxDone.contains q && !mhas x.rxNacks q) = [] := by
    refine List.filter_eq_nil_iff.mpr fun q hq => ?_
    obtain ⟨i, hi, rfl⟩ := List.mem_map.mp hq
    have := List.mem_range.mp hi
    simp only [Bool.and_eq_true, decide_eq_true_eq]
    omega
  rw [hm]
  obtain ⟨h1, h2⟩ := sendLineNacks_nil (s := s) (n := n) (reason := 1)
  exact ⟨(tribOf_updTrib_self (h1.trans hx)), h2⟩

theorem controlBlock_next {x : Trib} (hx : tribOf s port = some x) (hdone : x.rxDone = []) :
    (∃ y, tribOf (controlBlock port x.rxNext content s) port = some y ∧ y.rxNext = x.rxNext + 1 ∧ y.blockTick = s.tick) ∧
      (controlBlock port x.rxNext content s).sites = s.sites := by
  simp only [controlBlock, hx]
  rw [if_neg (by simp [hdone])]
  have h0 : tribOf (updTrib port (fun y => { y with blockTick := s.tick }) s) port = some { x with blockTick := s.tick } :=
    tribOf_updTrib_self hx
  obtain ⟨h1, h2⟩ := nackGaps_next h0
  refine ⟨⟨_, tribOf_updTrib_self h1, ?_, rfl⟩, h2⟩
  refine (advanceDone_next ?_)
  rw [hdone]
  rfl

theorem useVintage_keeps (port c : Nat) (s : State) : (useVintage port c s).line = s.line ∧ (useVintage port c s).tick = s.tick ∧
    (useVintage port c s).sites = s.sites := by
  unfold useVintage
  split <;> exact ⟨rfl, rfl, rfl⟩

theorem notePeer_keeps (p id : Nat) (s : State) : tribOf (notePeer p id s) = tribOf s ∧ (notePeer p id s).tick = s.tick ∧
    (notePeer p id s).sites = s.sites := by
  unfold notePeer
  split <;> exact ⟨rfl, rfl, rfl⟩

theorem goodBlock_control {c : Nat} (hst : (keysOf s port).st = 4) (hkind : byteAt b 0 % 16 = 2) (hpaired : (partnerOf s port).paired = true)
    (hp : port < 4) : ∃ u, tribOf u = tribOf s ∧ u.tick = s.tick ∧ (partnerOf u port).lastGood = s.tick ∧
      goodBlock port c b content s = controlBlock port (beAt b 16 8) content u := by
  obtain ⟨hl, ht, -⟩ := useVintage_keeps port c s
  unfold goodBlock
  extract_lets kind s1 s2
  have hk : kind = 2 := hkind
  have h2 : s2 = s1 := if_pos hpaired
  obtain ⟨hn1, hn2, hn3⟩ := notePeer_keeps port (beAt b 42 2 % 1024) s2
  have hg : (partnerOf s1 port).lastGood = s.tick := (congrArg Partner.lastGood (partnerOf_updPartner hp :) :)
  refine ⟨notePeer port (beAt b 42 2 % 1024) s2, ?_, ?_, ?_, ?_⟩
  · rw [hn1, h2]
    exact tribOf_congr (congrArg Line.tribs hl)
  · rw [hn2, h2]
    exact ht
  · rw [partnerOf_congr (congrArg Sites.partners hn3), h2, hg]
  · rw [if_neg (not_not.mpr hst), if_pos hk]

end

/-- Settles O43: from what each check makes of a block. -/
theorem lineBlocksAreChecked : Obligations.LineBlocksAreChecked := by
  unfold Obligations.LineBlocksAreChecked
  refine ⟨?header, ?tag, ?control⟩
  case header =>
    intro s port b hp hon hst hpair hfault
    refine .of_next (congrArg Host.Outcome.next (lineBlockRx_header hp hon hst hpair hfault)) ⟨?_, rfl, rfl⟩
    rw [regVal_bump, if_pos rfl]
    rfl
  case tag =>
    intro s port c b hp hon hst hpair hheader hv hc hlen hopen
    have hrun := lineBlockRx_opened hp hon hst hpair hheader hv hc hlen
    rw [hopen] at hrun
    refine .of_next (congrArg Host.Outcome.next hrun) ?_
    rw [nackFailed_regVal, tagFailed_regVal hp]
    rfl
  case control =>
    intro s port c b content x hp hon hst hpair hheader hv hc hlen hopen hkind hpaired hx hseq hdone
    have hrun := lineBlockRx_opened hp hon hst hpair hheader hv hc hlen
    rw [hopen] at hrun
    obtain ⟨u, htrib, htick, hgood, hg⟩ :=
      goodBlock_control (s := undelineated port b s) (c := c) (b := b) (content := content) hst hkind hpaired hp
    obtain ⟨⟨y, hy, hnext, hblock⟩, hsites⟩ := controlBlock_next (content := content) (s := u) (htrib ▸ hx) hdone
    rw [hseq] at hg
    refine .of_next (congrArg Host.Outcome.next (hrun.trans hg)) ⟨?_, y, hy, hnext, hblock.trans htick⟩
    rw [partnerOf_congr (congrArg Sites.partners hsites), hgood]
    rfl

end Sys2Proof.Machine

/-! R335, R336, R338 to R340, R440, R476: acknowledgement on the line, and control messages. -/

namespace Sys2Proof.Machine

open Sys2Proof

section

variable {s : State} {n port : Nat} {x : Trib}

theorem mem_insertRising_iff {k m : Nat} {l : List Nat} : k ∈ insertRising m l ↔ k = m ∨ k ∈ l := by
  induction l with
  | nil => simp [insertRising]
  | cons a l ih =>
    rw [insertRising]
    grind

theorem mem_insertAll {l r : List Nat} {k : Nat} (h : k ∈ l ∨ k ∈ r) : k ∈ l.foldl (fun a q => insertRising q a) r := by
  induction l generalizing r with
  | nil => exact h.resolve_left List.not_mem_nil
  | cons a l ih =>
    refine ih ?_
    rcases h with h | h
    · rcases List.mem_cons.mp h with rfl | h
      · exact .inr (mem_insertRising_iff.mpr (.inl rfl))
      · exact .inl h
    · exact .inr (mem_insertRising_iff.mpr (.inr h))

/-! ### ACK and NACK (R335, R336) -/

theorem tribOf_pruneTxKeys (p : Nat) (s : State) : tribOf (pruneTxKeys p s) = tribOf s := rfl

theorem tribOf_pruneOlder (p : Nat) (s : State) : tribOf (pruneOlder p s) = tribOf s := by
  unfold pruneOlder
  extract_lets used
  refine foldl_keeps (π := tribOf) (fun a c => ?_) _ s
  exact ite_keeps (π := tribOf) rfl rfl

theorem lineAck_trib {ack rel w : Nat} (hp : port < 4) (h4 : 4 ≤ n) (hx : tribOf s n = some x) (hport : x.port = port) :
    tribOf (lineAck port n ack rel w s) n = some { x with
      ring := mfilter x.ring fun k _ => decide (afterSeq ack ≤ k)
      acked := max x.acked (afterSeq ack), rel := max x.rel (afterSeq rel), credit := w
      resend := x.resend.filter fun q => decide (afterSeq ack ≤ q) } := by
  simp only [lineAck, hx]
  rw [if_neg (by omega), tribOf_pruneOlder, tribOf_pruneTxKeys, tribOf_ringEval, if_neg (by omega)]
  exact tribOf_updTrib_self hx

theorem lineNack_eq {rs : List (Nat × Nat)} (hp : port < 4) (h4 : 4 ≤ n) (hx : tribOf s n = some x) (hport : x.port = port) :
    lineNack port n rs s = updTrib n (fun y => { y with
      resend := ((x.ring.map (·.1)).filter fun q => (rs.any fun r => decide (r.1 ≤ q) && decide (q < r.1 + r.2)) &&
        decide (x.acked ≤ q)).foldl (fun l q => insertRising q l) y.resend }) (bump (laneReg ((portAnchor s port).getD 0) 0x070) s) := by
  simp only [lineNack, hx]
  rw [if_neg (by omega), if_neg (by omega)]

/-! ### Timers (R338 to R340) -/

theorem ackIdle_due (hx : tribOf s n = some x) (hdue : x.ackTick + arqAckIdle s ≤ s.tick) (hblock : s.tick ≤ x.blockTick + 15000)
    (hst : (keysOf s x.port).st = 4) : ackIdle n s = sendTribAck n s := by
  simp only [ackIdle, hx]
  exact if_pos ⟨hdue, hblock, hst⟩

theorem sendTribAck_spec (hx : tribOf s n = some x) (hp : x.port < 4) : (∃ y, tribOf (sendTribAck n s) n = some y ∧ y.ackTick = s.tick ∧
    y.ackDue = false) ∧ ∃ m, (partnerOf (sendTribAck n s) x.port).ctlQueue = (partnerOf s x.port).ctlQueue ++ [m] ∧ m.ty = 0x01 := by
  simp only [sendTribAck, hx]
  exact ⟨⟨_, tribOf_updTrib_self hx, rfl, rfl⟩, _, sendCtl_ctlQueue (s := s) hp rfl, rfl⟩

theorem nackMessages_tribs {p reason : Nat} {seqs : List Nat} : tribOf (nackMessages n p reason seqs s) = tribOf s := by
  unfold nackMessages
  extract_lets a
  refine foldl_keeps (π := tribOf) (fun u rs => ?_) _ _
  rfl

theorem nackMessages_seen {p reason c : Nat} {seqs : List Nat} : seen (nackMessages n p reason seqs s) c = seen s c := by
  unfold nackMessages
  extract_lets a
  refine foldl_keeps (π := (seen · c)) (fun u rs => ?_) _ _
  rfl

/-- One NACK that is due is sent again, and reported with the last of its tries. -/
theorem nackRepeats_one {q : Nat} {e : LineNack} (hx : tribOf s n = some x) (hq : x.rxNacks = [(q, e)]) (hdue : nackDue s x e = true) :
    nackRepeats n s = (lineRuns (([(q, e)].filter fun e => e.2.tries + 1 == arqNackMax s).map (·.1))).foldl
      (fun a _ => raise 0x4804 [x.port, n] a)
      (updTrib n (fun x => { x with rxNacks := mset x.rxNacks q { e with tries := e.tries + 1, tick := s.tick } })
        (nackMessages n x.port e.reason [q] s)) := by
  have hd : x.rxNacks.filter (fun e => nackDue s x e.2) = [(q, e)] := by
    rw [hq, List.filter_cons, if_pos hdue, List.filter_nil]
  have hm : [(q, e)].filter (fun y => y.2.reason == e.reason) = [(q, e)] := by simp
  simp only [nackRepeats, hx, hd, List.map_cons, List.map_nil]
  show nackAgain n x [(q, e)] e.reason s = _
  simp only [nackAgain, hm, List.map_cons, List.map_nil]
  rfl

theorem resendTimer_line {q : Nat} {r : RingBlock} (h4 : 4 ≤ n) (hx : tribOf s n = some x) (hr : x.ring.getLast? = some (q, r))
    (htimed : r.timed = false) : resendTimer n s = if r.sentTick + rttP s x.port + 2 * arqMargin s ≤ s.tick then
      updTrib n (fun x => { x with ring := mupd x.ring q (fun r => { r with timed := true }), resend := insertRising q x.resend }) s
    else s := by
  simp only [resendTimer, hx, hr, htimed]
  rw [if_neg (by omega)]
  simp

/-! ### Policing (R440) -/

theorem policed_taken {f : State → State} (hb : 1000 ≤ bucketNow s port) : policed port f s =
    f (updSched (port + 1) (fun c => { c with bucket := bucketNow s port - 1000, policedTick := some s.tick }) s) := by
  unfold policed
  extract_lets b put
  exact if_pos hb

theorem policed_refused {f : State → State} (hb : bucketNow s port < 1000) : policed port f s =
    raisePort 0x4B02 port [port] (bump (0x001C1044 + (port + 1) * 0x1000)
      (updSched (port + 1) (fun c => { c with bucket := bucketNow s port, policedTick := some s.tick }) s)) := by
  unfold policed
  extract_lets b put
  exact if_neg (Nat.not_le.mpr hb)

theorem raisePort_keeps {γ : Type} (π : State → γ) (hr : ∀ c a x, π (raise c a x) = π x) (hh : ∀ x (f : HostPort → HostPort), π (x.mapHost f) = π x)
    (c p : Nat) (a : List Nat) (s : State) : π (raisePort c p a s) = π s := by
  unfold raisePort
  extract_lets k
  exact ite_keeps (π := π) rfl ((hr ..).trans (hh _ _))

end

/-- Settles O44: from what each message and each timer leaves. -/
theorem lineAcknowledgementAndControl : Obligations.LineAcknowledgementAndControl := by
  unfold Obligations.LineAcknowledgementAndControl
  refine ⟨⟨?ack, ?nack, ?idle, ?again, ?resend⟩, ?alive, ?taken, ?refused⟩
  case ack =>
    intro s port n ack rel w x hp h4 hx hport
    refine .of_next rfl ⟨_, lineAck_trib hp h4 hx hport, rfl, rfl, rfl, fun e => ?_⟩
    simp [mfilter]
  case nack =>
    intro s port n q k x hp h4 hx hport
    refine .of_next (congrArg Host.Outcome.next (lineNack_eq hp h4 hx hport)) ⟨_, tribOf_updTrib_self hx, rfl, fun j h1 h2 h3 h5 => ?_, ?_⟩
    · exact mem_insertAll (.inl (List.mem_filter.mpr ⟨h5, by simp [h1, h2, h3]⟩))
    · exact (regVal_bump ..).trans (if_pos rfl)
  case idle =>
    intro s n x hx hp hdue hblock hst _
    exact .of_next (congrArg Host.Outcome.next (ackIdle_due hx hdue hblock hst)) (sendTribAck_spec hx hp)
  case again =>
    intro s n q x e hx hp hq hdue
    refine .of_next (congrArg Host.Outcome.next (nackRepeats_one hx hq hdue)) ?_
    have ht : tribOf (updTrib n (fun x => { x with rxNacks := mset x.rxNacks q { e with tries := e.tries + 1, tick := s.tick } })
        (nackMessages n x.port e.reason [q] s)) n =
          some { x with rxNacks := mset x.rxNacks q { e with tries := e.tries + 1, tick := s.tick } } :=
      tribOf_updTrib_self (by rw [nackMessages_tribs, hx])
    have hs : seen (updTrib n (fun x => { x with rxNacks := mset x.rxNacks q { e with tries := e.tries + 1, tick := s.tick } })
        (nackMessages n x.port e.reason [q] s)) 0x4804 = seen s 0x4804 := nackMessages_seen
    generalize updTrib n (fun x => { x with rxNacks := mset x.rxNacks q { e with tries := e.tries + 1, tick := s.tick } })
        (nackMessages n x.port e.reason [q] s) = u at ht hs
    by_cases hmax : e.tries + 1 = arqNackMax s
    · have hl : lineRuns (([(q, e)].filter fun e => e.2.tries + 1 == arqNackMax s).map (·.1)) = [(q, 1)] := by
        simp [hmax, lineRuns]
      rw [hl, List.foldl_cons, List.foldl_nil]
      rw [tribOf_congr (congrArg Line.tribs (raise_line ..)), ht]
      refine ⟨⟨_, rfl, mget_mset_same ..⟩, fun _ => ?_, fun h => absurd hmax h⟩
      · rw [seen_raise_self, hs]
    · have hl : lineRuns (([(q, e)].filter fun e => e.2.tries + 1 == arqNackMax s).map (·.1)) = [] := by
        simp [hmax, lineRuns]
      rw [hl, List.foldl_nil]
      exact ⟨⟨_, ht, mget_mset_same ..⟩, fun h => absurd h hmax, fun _ => hs⟩
  case resend =>
    intro s n q x r h4 hx hr htimed
    have he := resendTimer_line h4 hx hr htimed
    refine .of_next (congrArg Host.Outcome.next he) ⟨fun h => ?_, fun h => if_neg (Nat.not_le.mpr h)⟩
    rw [if_pos h]
    exact ⟨_, tribOf_updTrib_self hx, mem_insertRising ..⟩
  case alive =>
    intro s port hp hsent hst
    have he : keepalive port s = sendCtl port 0x30 [2] [] s := if_pos ⟨hsent, hst⟩
    refine .of_next (congrArg Host.Outcome.next ((if_pos hp).trans he)) ?_
    exact sendCtl_ctlQueue hp rfl
  case taken =>
    intro s port hp hb cmd hcmd
    have hrun : exec cmd s = .next (updSched (port + 1) (fun c => { c with bucket := bucketNow s port - 1000, policedTick := some s.tick }) s) := by
      rcases List.mem_pair.mp hcmd with rfl | rfl
      · exact congrArg Host.Outcome.next ((if_pos hp).trans (policed_taken hb))
      · exact congrArg Host.Outcome.next (policed_taken hb)
    refine .of_next hrun ⟨?_, rfl, rfl, rfl, rfl⟩
    rw [schedOf_updSched, if_pos ⟨rfl, by omega⟩]
  case refused =>
    intro s port hp hb cmd hcmd
    have hrun : exec cmd s = .next (raisePort 0x4B02 port [port] (bump (0x001C1044 + (port + 1) * 0x1000)
        (updSched (port + 1) (fun c => { c with bucket := bucketNow s port, policedTick := some s.tick }) s))) := by
      rcases List.mem_pair.mp hcmd with rfl | rfl
      · exact congrArg Host.Outcome.next ((if_pos hp).trans (policed_refused hb))
      · exact congrArg Host.Outcome.next (policed_refused hb)
    refine .of_next hrun ⟨?_, ?_, ?_, ?_⟩
    · rw [raisePort_keeps (fun x => (schedOf x (port + 1)).bucket) (fun _ _ _ => (raise_mails ..).sched_field (·.bucket) (fun _ _ => rfl) _)
        (fun _ _ => rfl)]
      exact congrArg Sched.bucket ((schedOf_updSched (s := s) (n := port + 1)).trans (if_pos ⟨rfl, by omega⟩))
    · rw [raisePort_keeps State.sec (fun _ _ _ => raise_sec ..) (fun _ _ => rfl)]
      rfl
    · rw [raisePort_keeps State.sites (fun _ _ _ => raise_sites ..) (fun _ _ => rfl)]
      rfl
    · rw [raisePort_regVal (by interval_cases port <;> decide), regVal_bump, if_pos rfl]
      rfl

end Sys2Proof.Machine

/-! R467 to R469: time transfer on the line. -/

namespace Sys2Proof.Machine

open Sys2Proof

section

variable {s t : State} {port : Nat}

/-! ### Sending (R467, R468) -/

/-- The report period of the lanes that lead to a port begins anew. -/
def newReports (port : Nat) (s : State) : State :=
  (List.range 5).foldl (fun b k =>
    if (lanePorts (laneOf b k)).contains port then updLane k (fun l => { l with snrSum := 0, snrCount := 0, uncorr := 0 }) b else b) s

theorem newReports_field {γ : Type} (π : State → γ) (hl : ∀ x k f, π (updLane k f x) = π x) : π (newReports port s) = π s := by
  unfold newReports
  refine foldl_keeps (π := π) (fun b k => ?_) _ s
  split
  · exact hl _ _ _
  · rfl

theorem newReports_count {k : Nat} (hk : k < 5) (hp : (lanePorts (laneOf s k)).contains port = true) :
    (laneOf (newReports port s) k).snrCount = 0 := by
  have hpage : ∀ (x : State) j i, lanePorts (laneOf (updLane j (fun l => { l with snrSum := 0, snrCount := 0, uncorr := 0 }) x) i) =
      lanePorts (laneOf x i) := fun x j i => lanePorts_congr (laneOf_updLane_keeps (π := Lane.page) fun _ => rfl)
  refine foldl_once (v := fun x => (laneOf x k).snrCount) (P := fun x => ∀ i, lanePorts (laneOf x i) = lanePorts (laneOf s i)) (m := k)
    (g := fun _ => 0) (fun b j hb i => ?_) (fun b j _ hj => ?_) (fun b hb => ?_) (fun _ => rfl) List.nodup_range (List.mem_range.mpr hk)
  · split
    · exact (hpage b j i).trans (hb i)
    · exact hb i
  · show (laneOf (if _ then _ else _) k).snrCount = _
    split
    · rw [laneOf_updLane_ne (Ne.symm hj)]
    · rfl
  · rw [hb, if_pos hp, laneOf_updLane hk]

theorem timeSend_other (h : s.tick % 1000 ≠ 0) (hlt : s.tick < 2 ^ 32) : timeSend port s = s := by
  rw [timeSend, Nat.mod_eq_of_lt hlt, if_pos h]

/-- At a reference frame the stamp is kept under the frame's number. -/
theorem timeSend_reference {a : Nat} (ha : portAnchor s port = some a) (h : s.tick % 1000 = 0) (hlt : s.tick < 2 ^ 32) :
    ∃ (stamp : Nat) (f : SMap (Nat × Nat) → SMap (Nat × Nat)) (u : State), u.free = s.free + 1 ∧ u.time = s.time ∧ laneOf u = laneOf s ∧
      timeSend port s = newReports port (updPortTime port (fun x => { x with tx := mset (f x.tx) s.tick (stamp, s.time.steps) }) u) := by
  have hctl : ∀ b (x : State), (sendCtl port 0x40 [] b x).free = x.free ∧ (sendCtl port 0x40 [] b x).time = x.time ∧
      laneOf (sendCtl port 0x40 [] b x) = laneOf x := fun _ _ => ⟨rfl, rfl, rfl⟩
  rw [timeSend, Nat.mod_eq_of_lt hlt, if_neg (not_not.mpr h), ha]
  dsimp only
  obtain ⟨h1, h2, h3⟩ := hctl (timeBody s port (s.time.counter / 2 ^ 32 +
    if (laneOf s a).page.any (fun p => slotGuard (pageSlot p 0)) = true then 16 * 65536 else 0) (s.takeFree.1 % 2 ^ 16)) s.takeFree.2
  exact ⟨_, _, _, h1, h2, h3, rfl⟩

/-! ### Samples (R469) -/

/-- While the port is not the time source, a change of its path is noted alone. -/
theorem notePath_other (h : timeSource s ≠ port + 2) : portTimeOf (notePath port s) = portTimeOf s ∧ (notePath port s).regs = s.regs := by
  unfold notePath
  extract_lets now x s1
  split
  · exact ⟨rfl, rfl⟩
  · rw [if_neg fun hh => h hh.2]
    exact ⟨rfl, rfl⟩

/-- The comparison with the own time changes of the partner what it has counted. -/
theorem noteDisagree_keeps {γ : Type} (π : State → γ) (hr : ∀ c a x, π (raise c a x) = π x) (hp : ∀ p f x, π (updPartner p f x) = π x)
    (p : Nat) (theta : Int) (s : State) : π (noteDisagree p theta s) = π s := by
  unfold noteDisagree
  extract_lets bound x s1
  exact ite_keeps (π := π) (ite_keeps (π := π) (hp ..) ((hr ..).trans ((hp ..).trans (hp ..)))) (hp ..)

/-- A sample of a port that is not the time source shows its offset and its round trip. -/
theorem portSample_spec {t1 t2 t3 t4 : Int} (hp : port < 4) (h : timeSource s ≠ port + 2) :
    (portTimeOf (portSample port true t1 t2 t3 t4 s) port).theta =
        ((t4 - t3) - (t2 - t1) + signExt 32 (regVal s (0x00020100 + port * 0x10)) * 2 ^ 16 / 1000) / 2 ∧
      (lportOf (portSample port true t1 t2 t3 t4 s) port).rtt = ceilDiv ((t4 - t1) - (t3 - t2)).toNat (2000 * 65536) + 4 ∧
      (portTimeOf (portSample port true t1 t2 t3 t4 s) port).peerStep = (portTimeOf s port).peerStep := by
  unfold portSample
  extract_lets asym theta trip rtt s1
  have hk : ∀ {γ : Type} (π : State → γ), (∀ c a x, π (raise c a x) = π x) → (∀ p f x, π (updPartner p f x) = π x) →
      π (if ¬ true = true then s1 else if timeSource s = port + 2 then servoSample theta s1
        else if (s.time.valid && (partnerOf s port).paired) = true then noteDisagree port theta s1 else s1) = π s1 := fun π hr hp => by
    rw [if_neg (by simp), if_neg h]
    exact ite_keeps (π := π) (noteDisagree_keeps π hr hp ..) rfl
  have ht : portTimeOf s1 port = { portTimeOf s port with theta := theta } := portTimeOf_updPortTime hp
  have hl : (lportOf s1 port).rtt = rtt := congrArg LPort.rtt (lportOf_updLPort hp)
  refine ⟨?_, ?_, ?_⟩
  · rw [hk (fun x => portTimeOf x port) (fun _ _ _ => by rw [portTimeOf_congr (congrArg TimeSt.ports (raise_time ..))]) (fun _ _ _ => rfl), ht]
  · rw [hk (fun x => lportOf x port) (fun _ _ _ => by rw [lportOf_congr (congrArg Line.ports (raise_line ..))]) (fun _ _ _ => rfl), hl]
  · rw [hk (fun x => portTimeOf x port) (fun _ _ _ => by rw [portTimeOf_congr (congrArg TimeSt.ports (raise_time ..))]) (fun _ _ _ => rfl), ht]

theorem timePart_sample {b : List Byte} {r : RxStamp} {own : Nat × Nat} (hp : port < 4) (h : timeSource s ≠ port + 2)
    (hvalid : bitOf (byteAt b 1) 0 = true) (hr : rxStampOf (portTimeOf s port) (beAt b 4 4) = some r)
    (hown : mget (portTimeOf s port).tx (beAt b 20 4) = some own)
    (hstep : ∀ n, (portTimeOf s port).peerStep = some n → n = beAt b 2 2) (hsteps : own.2 = r.steps) :
    ∃ u, u.regs = s.regs ∧ (portTimeOf u port).peerStep = some (beAt b 2 2) ∧
      timePart port b s = portSample port true (own.1 : Nat) (ttStamp b 24) (ttStamp b 8) (r.stamp : Nat) u := by
  obtain ⟨hpt, hregs⟩ := notePath_other h
  have hspan : ∀ x, (portSpan port r (updPortTime port (fun y => { y with peerStep := some (beAt b 2 2) }) x)).regs = x.regs := fun _ => rfl
  refine ⟨portSpan port r (updPortTime port (fun y => { y with peerStep := some (beAt b 2 2) }) (notePath port s)),
    (hspan _).trans hregs, ?_, ?_⟩
  · have h1 : portTimeOf (updPortTime port (fun y => { y with peerStep := some (beAt b 2 2) }) (notePath port s)) port =
        { portTimeOf (notePath port s) port with peerStep := some (beAt b 2 2) } := portTimeOf_updPortTime hp
    have h2 : ∀ x, (portTimeOf (portSpan port r x) port).peerStep = (portTimeOf x port).peerStep := fun x =>
      portTimeOf_updPortTime_keeps (π := (·.peerStep)) fun _ => rfl
    rw [h2, h1]
  · have hno : ¬ (((portTimeOf s port).peerStep.any fun n => n != beAt b 2 2) = true ∨ own.2 ≠ r.steps) := by
      rintro (hany | hne)
      · cases hs : (portTimeOf s port).peerStep with
        | none => rw [hs] at hany; cases hany
        | some n => rw [hs] at hany; exact bne_iff_ne.mp hany (hstep n hs)
      · exact hne hsteps
    simp only [timePart, hpt, hr, hown, hvalid]
    exact if_neg hno

theorem laneEntry_none {b : List Byte} (hb : b.drop 40 = List.replicate 40 255) {k : Nat} (hk : k < 5) :
    laneEntry port (slice b (40 + 8 * k) 8) s = s := by
  have hs : slice b (40 + 8 * k) 8 = List.replicate 8 255 := by
    rw [slice, ← List.drop_drop, hb, List.drop_replicate, List.take_replicate]
    congr
    omega
  rw [laneEntry, hs]
  exact if_pos (.inl rfl)

/-- A message without lane reports brings its time part alone. -/
theorem timeRx_time {b : List Byte} (hlen : b.length = 80) (hform : byteAt b 0 = 1) (hb : b.drop 40 = List.replicate 40 255) :
    timeRx port b s = timePart port b s := by
  rw [timeRx, if_neg (by simp [hlen, hform])]
  exact List.foldlRecOn (motive := (· = timePart port b s)) _ _ rfl fun a ha k hk => by
    rw [laneEntry_none hb (List.mem_range.mp hk), ha]

end

/-- Settles O45: from the reference frame's stamp and from the sample of a message. -/
theorem lineTimeTransfer : Obligations.LineTimeTransfer := by
  unfold Obligations.LineTimeTransfer
  refine ⟨?send, ?sample⟩
  case send =>
    intro s port a hp ha
    refine .of_next rfl ⟨fun h hlt => ?_, fun h hlt => timeSend_other h hlt⟩
    obtain ⟨stamp, f, u, hfree, htime, hlanes, he⟩ := timeSend_reference ha h hlt
    rw [he]
    refine ⟨stamp, ?_, ?_, fun k hk hpk => newReports_count hk ?_⟩
    · rw [newReports_field (fun x => portTimeOf x port) (fun _ _ _ => rfl), portTimeOf_updPortTime hp]
      exact mget_mset_same ..
    · rw [newReports_field State.free (fun _ _ _ => rfl)]
      exact hfree
    · rw [show laneOf (updPortTime port _ u) = laneOf u from rfl, hlanes]
      exact hpk
  case sample =>
    intro s port b r own hp hb hlen hform hvalid hrep hsrc hr hown hstep hsteps
    have hrun : exec (.timeTransferRx port b) s = .next (timePart port b
        (updSched (port + 1) (fun c => { c with bucket := bucketNow s port - 1000, policedTick := some s.tick }) s)) :=
      congrArg Host.Outcome.next ((if_pos hp).trans ((policed_taken hb).trans (timeRx_time hlen hform hrep)))
    obtain ⟨u, hregs, hpeer, he⟩ := timePart_sample
      (s := updSched (port + 1) (fun c => { c with bucket := bucketNow s port - 1000, policedTick := some s.tick }) s)
      hp hsrc hvalid hr hown hstep hsteps
    have hu : timeSource u ≠ port + 2 := by
      rw [timeSource, fld, regVal_congr hregs]
      exact hsrc
    obtain ⟨htheta, hrtt, hp'⟩ := portSample_spec (s := u) (t1 := (own.1 : Nat)) (t2 := ttStamp b 24) (t3 := ttStamp b 8)
      (t4 := (r.stamp : Nat)) hp hu
    refine .of_next (hrun.trans (congrArg Host.Outcome.next he)) ⟨?_, hrtt, hp'.trans hpeer⟩
    rw [htheta, regVal_congr hregs]
    rfl

end Sys2Proof.Machine

/-! R374 to R378, R384, R386, R505: faults of the optical lanes. -/

namespace Sys2Proof.Machine

open Sys2Proof

section

variable {s t u : State}

/-- What stopping, offering or starting a swap and locating a loss leave: the physical lanes but for their channels and the stage of a
loss, the counts of other events, and the other registers. -/
structure Aside (s t : State) : Prop where
  phys : ∀ n, { physOf t n with
    txChannel := (physOf s n).txChannel, loChannel := (physOf s n).loChannel, lossStage := (physOf s n).lossStage } = physOf s n
  seen : ∀ c, c ≠ 0x4902 → c ≠ 0x4903 → c ≠ 0x4F02 → c ≠ 0x4F03 → seen t c = seen s c
  regVal : ∀ r, r ∉ eventRegs → r ≠ 0x000CA048 → regVal t r = regVal s r

theorem Aside.of_eq (ho : t.opt.phys = s.opt.phys := by rfl) (hf : t.flt = s.flt := by rfl) (hr : t.regs = s.regs := by rfl) : Aside s t :=
  ⟨fun n => by rw [physOf_congr ho], fun c _ _ _ _ => seen_congr (congrArg Flt.counts hf) c, fun r _ _ => regVal_congr hr r⟩

theorem Aside.refl : Aside s s := .of_eq

theorem Aside.trans (h : Aside s t) (hu : Aside t u) : Aside s u where
  phys n := by rw [← h.phys, ← hu.phys]
  seen c h1 h2 h3 h4 := (hu.seen c h1 h2 h3 h4).trans (h.seen c h1 h2 h3 h4)
  regVal r h1 h2 := (hu.regVal r h1 h2).trans (h.regVal r h1 h2)

/-- A field of a physical lane other than its channels and the stage of a loss. -/
theorem Aside.field {γ : Type} (h : Aside s t) (π : PhysLane → γ)
    (hπ : ∀ x a b c, π { x with txChannel := a, loChannel := b, lossStage := c } = π x) (n : Nat) : π (physOf t n) = π (physOf s n) :=
  (hπ _ _ _ _).symm.trans (congrArg π (h.phys n))

variable (h : Aside s t)

include h

theorem Aside.same (ho : u.opt.phys = t.opt.phys := by rfl) (hf : u.flt = t.flt := by rfl) (hr : u.regs = t.regs := by rfl) : Aside s u :=
  h.trans (.of_eq ho hf hr)

theorem Aside.ite {c : Prop} {_ : Decidable c} (hu : Aside s u) : Aside s (if c then t else u) := by
  split
  · exact h
  · exact hu

theorem Aside.raise {c : Nat} {a : List Nat} (hc : c = 0x4902 ∨ c = 0x4903) : Aside s (raise c a t) :=
  h.trans ⟨fun n => by rw [physOf_congr (congrArg Opt.phys (raise_opt ..))],
    fun d h1 h2 h3 h4 => (seen_raise _ _ _ _ h3 h4).trans (if_neg (by rintro rfl; omega)),
    fun _ hr _ => raise_regVal _ _ _ _ hr⟩

theorem Aside.bump : Aside s (bump 0x000CA048 t) :=
  h.trans ⟨fun _ => rfl, fun _ _ _ _ _ => rfl, fun _ _ hr => (regVal_bump ..).trans (if_neg hr.symm)⟩

theorem Aside.updPhys {n : Nat} {f : PhysLane → PhysLane}
    (hf : ∀ x, { f x with txChannel := x.txChannel, loChannel := x.loChannel, lossStage := x.lossStage } = x) : Aside s (updPhys n f t) :=
  h.trans ⟨fun k => by
    by_cases hk : n = k ∧ n < 5
    · obtain ⟨rfl, hn⟩ := hk
      rw [physOf_updPhys hn, hf]
    · have he : physOf (Machine.updPhys n f t) k = physOf t k := (vget_vupd ..).trans (if_neg hk)
      rw [he], fun _ _ _ _ _ => rfl, fun _ _ _ => rfl⟩

theorem Aside.locateLoss {n : Nat} : Aside s (locateLoss n t) := by
  unfold Machine.locateLoss
  extract_lets st
  have h1 : Aside s (Machine.updPhys n (fun x => { x with lossStage := st }) t) := Aside.updPhys h (f := fun x => { x with lossStage := st })
    fun _ => rfl
  exact h1.raise (.inr rfl)

theorem Aside.foldl {α : Type} {l : List α} {f : State → α → State} (hf : ∀ u a, Aside s u → Aside s (f u a)) : Aside s (l.foldl f t) :=
  List.foldlRecOn l f h fun u hu a _ => hf u a hu

theorem Aside.mapLine {f : Line → Line} : Aside s (t.mapLine f) := h.same

theorem Aside.standbyDiscard {p : Nat} : Aside s (standbyDiscard p t) := h.ite h.mapLine

theorem Aside.withdrawPages : Aside s (withdrawPages t) := by
  unfold Machine.withdrawPages
  extract_lets s1
  have h1 : Aside s s1 := h.foldl fun _ _ hu => hu.standbyDiscard
  clear_value s1
  exact h1.same

theorem Aside.updLane {n : Nat} {f : Lane → Lane} : Aside s (updLane n f t) := h.same

theorem Aside.stopSwap : Aside s (stopSwap t) := by
  unfold Machine.stopSwap
  split
  · exact h
  · extract_lets s1 s2 s3
    have h1 : Aside s s1 := h.withdrawPages.ite h
    clear_value s1
    have h2 : Aside s s2 := Aside.updLane (Aside.updPhys h1 (f := fun x => { x with txChannel := 0xFFFF, loChannel := 0xFFFF }) fun _ => rfl)
    clear_value s2
    have h3 : Aside s s3 := h2.same
    exact h.ite (h3.raise (.inl rfl)).bump

theorem Aside.stageSet {why : Nat} {v : PageView} : Aside s (stageSet why v t) := by
  have hf : ∀ {γ : Type} (π : State → γ), (∀ x p f, π (updLPort p f x) = π x) → (∀ x p f, π (updPartner p f x) = π x) →
      (∀ x f, π (x.mapLine f) = π x) → π (Machine.stageSet why v t) = π t := fun π hl hp hm =>
    (stageSet_field π hl hp why v t).trans (hm _ _)
  exact h.same (hf (·.opt.phys) (fun _ _ _ => rfl) (fun _ _ _ => rfl) (fun _ _ => rfl))
    (hf State.flt (fun _ _ _ => rfl) (fun _ _ _ => rfl) (fun _ _ => rfl)) (hf State.regs (fun _ _ _ => rfl) (fun _ _ _ => rfl) (fun _ _ => rfl))

theorem Aside.offerSwap {w : Swap} : Aside s (offerSwap w t) := by
  unfold Machine.offerSwap
  extract_lets m s1
  have h1 : Aside s s1 := h.same
  exact h1.updLane.stageSet

theorem Aside.startSwap {k : Nat} {short : Bool} : Aside s (startSwap k short t) := by
  unfold Machine.startSwap
  split
  · exact h.same
  · exact h

theorem Aside.pmDefect {k : Nat} : Aside s (pmDefect k t) := h.same

end

section

variable {s : State} {n : Nat}

/-! ### Declarations (R376, R384) -/

/-- A transmitter declared failed: once, with its event and its count; what follows is aside. -/
theorem declareTx_aside (h : (physOf s n).txFailed = false) : Aside
    (bump 0x000CA050 (raise 0x8901 [n, 0] (updPhys n (fun x => { x with txFailed := true, failTick := some s.tick }) s))) (declareTx n s) := by
  unfold declareTx
  extract_lets s1 s2 s3
  rw [if_neg (by simp [h])]
  have h2 : Aside (bump 0x000CA050 (raise 0x8901 [n, 0] s1)) s2 := Aside.refl.pmDefect
  clear_value s2
  have h3 : Aside (bump 0x000CA050 (raise 0x8901 [n, 0] s1)) s3 := h2.stopSwap.ite h2
  exact h3.locateLoss

/-- A receiver that has lost its signal is declared failed. -/
theorem declareRx_aside (h : (physOf s n).rxLos = false) : ∃ u : State, u.opt.phys =
      (updPhys n (fun y => { y with rxLos := true }) s).opt.phys ∧ u.flt = s.flt ∧
      (∀ r, r ≠ 0x000C0044 + n * 0x2000 → regVal u r = regVal s r) ∧
      regVal u (0x000C0044 + n * 0x2000) = min (2 ^ 32 - 1) (regVal s (0x000C0044 + n * 0x2000) + 1) ∧
      Aside (bump 0x000CA050 (raise 0x8901 [n, 1] u)) (declareRx n true s) ∧
      (declareRx n true s).line.lanes = (updLane (logicalOf s n) (fun l =>
        { l with rxUp := false, rdiTx := true, goodFrames := 0, rxChannel := 0xFFFF, bip := none }) s).line.lanes := by
  unfold declareRx
  extract_lets x k s1 s2 s3
  have h3 : s3 = bump (0x000C0044 + n * 0x2000) s2 := rfl
  have hphys : s2.opt.phys = (updPhys n (fun y => { y with rxLos := true }) s).opt.phys := by
    show vupd _ _ _ = vupd _ _ _
    congr 1
    funext y
    simp
  refine ⟨s3, hphys, rfl, fun r hr => ?_, ?_, ?_, ?_⟩
  · rw [h3, regVal_bump, if_neg hr.symm]
    rfl
  · rw [h3, regVal_bump, if_pos rfl]
    rfl
  · clear_value s3
    have hd : Aside (bump 0x000CA050 (raise 0x8901 [n, 1] s3)) (pmDefect k (bump 0x000CA050 (raise 0x8901 [n, 1] s3))) := Aside.refl.pmDefect
    rw [if_neg (by simp [x, h])]
    exact hd.locateLoss
  · have hl : ∀ m y, (locateLoss m y).line = y.line := fun m y => raise_line ..
    have hp : ∀ j y, (pmDefect j (bump 0x000CA050 y)).line.lanes = y.line.lanes := fun _ _ => rfl
    rw [if_neg (by simp [x, h]), hl, hp, raise_line, h3]
    rfl

/-! ### Monitors (R374, R384) -/

/-- To leave a stage out changes of a lane the stages left out. -/
theorem excludeMonitors_field {γ : Type} (π : PhysLane → γ) (hπ : ∀ x l, π { x with excluded := l } = π x) (n k : Nat) (s : State) :
    π (physOf (excludeMonitors n s) k) = π (physOf s k) := by
  unfold excludeMonitors
  extract_lets l
  refine ite_keeps (π := fun x => π (physOf x k)) rfl (foldl_keeps (π := fun x => π (physOf x k)) (fun a st => ?_) _ s)
  refine ite_keeps (π := fun x => π (physOf x k)) ?_ rfl
  rw [physOf_congr (congrArg Opt.phys (raise_opt ..))]
  exact physOf_updPhys_keeps fun x => hπ x _

/-! ### Wrong wavelengths (R386) -/

theorem physReg_not_event {off : Nat} (hn : n < 5) (hoff : off < 0x2000) : 0x000C0000 + off + n * 0x2000 ∉ eventRegs := by
  have h : ∀ r ∈ eventRegs, r < 0xC0000 ∨ 0xCC000 ≤ r := by decide
  intro hr
  have := h _ hr
  omega

/-- What the declaration of a failed transmitter leaves, whether the lane was declared before or not. -/
theorem declareTx_field {γ : Type} (π : PhysLane → γ) (hπ : ∀ x a b c d e, π { x with
      txChannel := a, loChannel := b, lossStage := c, txFailed := d, failTick := e } = π x) (n k : Nat) (s : State) :
    π (physOf (declareTx n s) k) = π (physOf s k) := by
  cases h : (physOf s n).txFailed with
  | true => rw [declareTx, if_pos h]
  | false =>
    refine ((declareTx_aside h).field π (fun x a b c => hπ x a b c x.txFailed x.failTick) k).trans ?_
    show π (physOf (raise _ _ _) k) = _
    rw [physOf_congr (congrArg Opt.phys (raise_opt ..))]
    exact physOf_updPhys_keeps fun x => hπ x x.txChannel x.loChannel x.lossStage _ _

theorem declareTx_seen {n c : Nat} {s : State} (h0 : c ≠ 0x8901) (h1 : c ≠ 0x4902) (h2 : c ≠ 0x4903) (h3 : c ≠ 0x4F02)
    (h4 : c ≠ 0x4F03) : seen (declareTx n s) c = seen s c := by
  cases h : (physOf s n).txFailed with
  | true => rw [declareTx, if_pos h]
  | false =>
    refine ((declareTx_aside h).seen c h1 h2 h3 h4).trans ?_
    show seen (raise _ _ _) c = _
    rw [seen_raise _ _ _ _ h3 h4, if_neg h0.symm]
    rfl

theorem declareTx_regVal {n r : Nat} {s : State} (h0 : r ≠ 0x000CA050) (h1 : r ∉ eventRegs) (h2 : r ≠ 0x000CA048) :
    regVal (declareTx n s) r = regVal s r := by
  cases h : (physOf s n).txFailed with
  | true => rw [declareTx, if_pos h]
  | false =>
    rw [(declareTx_aside h).regVal r h1 h2, regVal_bump, if_neg h0.symm, raise_regVal _ _ _ _ h1]
    rfl

/-- A lane blanked for its wavelength, with the event and the count. -/
structure Blanks (n : Nat) (s t : State) : Prop where
  blanked : (physOf t n).blanked = true
  farBy : (physOf t n).farBy = none
  seen : seen t 0x8902 = seen s 0x8902 + 1
  count : regVal t 0x000CA04C = min (2 ^ 32 - 1) (regVal s 0x000CA04C + 1)

theorem Blanks.aside {t u : State} (h : Blanks n s t) (hu : Aside t u) : Blanks n s u where
  blanked := (hu.field (·.blanked) (fun _ _ _ _ => rfl) n).trans h.blanked
  farBy := (hu.field (·.farBy) (fun _ _ _ _ => rfl) n).trans h.farBy
  seen := (hu.seen _ (by decide) (by decide) (by decide) (by decide)).trans h.seen
  count := (hu.regVal _ (by decide) (by decide)).trans h.count

theorem Blanks.declareTx {t : State} (h : Blanks n s t) : Blanks n s (declareTx n t) where
  blanked := (declareTx_field (·.blanked) (fun _ _ _ _ _ _ => rfl) n n t).trans h.blanked
  farBy := (declareTx_field (·.farBy) (fun _ _ _ _ _ _ => rfl) n n t).trans h.farBy
  seen := (declareTx_seen (by decide) (by decide) (by decide) (by decide) (by decide)).trans h.seen
  count := (declareTx_regVal (by decide) (by decide) (by decide)).trans h.count

theorem Blanks.retired {t : State} (h : Blanks n s t) : Blanks n s (updPhys n (fun y => { y with retired := true }) t) where
  blanked := (physOf_updPhys_keeps (f := fun y => { y with retired := true }) (π := (·.blanked)) fun _ => rfl).trans h.blanked
  farBy := (physOf_updPhys_keeps (f := fun y => { y with retired := true }) (π := (·.farBy)) fun _ => rfl).trans h.farBy
  seen := h.seen
  count := h.count

theorem wrongWavelength_blanks {reported : Nat} (hn : n < 5) (hb : (physOf s n).blanked = false) :
    Blanks n s (wrongWavelength n reported s) := by
  unfold wrongWavelength
  extract_lets x times s1 mon s2 s3 k s4
  rw [if_neg (by simp [x, hb])]
  have h1 : (physOf s1 n).blanked = true ∧ (physOf s1 n).farBy = none := by
    have he := physOf_updPhys (s := s) (f := fun y => { y with
      blanked := true, locked := false, voa := max y.voa 160, farRun := 0, farBy := none, relockFrom := some s.tick, blankTicks := times }) hn
    exact ⟨congrArg PhysLane.blanked he, congrArg PhysLane.farBy he⟩
  have hs1 : s1.flt = s.flt ∧ s1.regs = s.regs := ⟨rfl, rfl⟩
  clear_value s1
  have hr : Blanks n s (bump 0x000CA04C (raise 0x8902 [n, mon, reported] s1)) := by
    have ho : (bump 0x000CA04C (raise 0x8902 [n, mon, reported] s1)).opt.phys = s1.opt.phys := congrArg Opt.phys (raise_opt ..)
    refine ⟨(congrArg (fun f => (f n).blanked) (physOf_congr ho)).trans h1.1,
      (congrArg (fun f => (f n).farBy) (physOf_congr ho)).trans h1.2, ?_, ?_⟩
    · show seen (raise _ _ _) _ = _
      rw [seen_raise_self, seen_congr (congrArg Flt.counts hs1.1)]
    · rw [regVal_bump, if_pos rfl, raise_regVal _ _ _ _ (by decide), regVal_congr hs1.2]
  have h2 : Blanks n s s2 := hr.declareTx
  clear_value s2
  have h3 : Blanks n s s3 := by
    unfold s3
    split
    · exact h2.aside ((Aside.offerSwap (Aside.refl.withdrawPages.ite Aside.refl)).ite Aside.refl)
    · exact h2
  clear_value s3
  split
  · exact h3
  · have h4 : Blanks n s s4 := h3.retired
    exact h4.aside (Aside.refl.startSwap.ite Aside.refl)

/-- A relock shows the lane sending again and is counted; the far side is told where the report is asked for. -/
theorem relockDone_spec (hbit : bit s 0x000CA004 3 = true) (hb : (physOf s n).blanked = true) (hr : (physOf s n).retired = false) :
    ∃ start : PhysLane → Option Nat, (relockDone n s).opt.phys = (updPhys n (fun x => { x with
        blanked := false, txFailed := false, failTick := none, locked := true, upTick := some s.tick, baseline := none
        relockFrom := start x }) s).opt.phys ∧
      (relockDone n s).regs = (bump (0x000C0048 + n * 0x2000) s).regs := by
  unfold relockDone
  extract_lets back s1
  rw [if_neg (by simp [hbit, hb, hr])]
  let revert : State → Nat → State := fun a p => updLPort p (fun x => { x with revertWant := true }) a
  refine ⟨fun x => if back then x.relockFrom else none, ?_, ?_⟩
  · exact ite_keeps (π := (·.opt.phys)) (foldl_keeps (π := (·.opt.phys)) (f := revert) (fun _ _ => rfl) _ s1) rfl
  · exact ite_keeps (π := State.regs) (foldl_keeps (π := State.regs) (f := revert) (fun _ _ => rfl) _ s1) rfl

end

/-- Settles O47: from the declarations of a failed side and from the blanking of a lane at a wrong wavelength. -/
theorem opticalLaneFaults : Obligations.OpticalLaneFaults := by
  unfold Obligations.OpticalLaneFaults
  refine ⟨?loop, ?los, ?back, ?monitor, ?context, ?wrong, ?far, ?relock, ?recovery⟩
  case loop =>
    intro s n hn h
    have ha := declareTx_aside h
    have ho : ∀ u : State, physOf (bump 0x000CA050 (raise 0x8901 [n, 0] u)) n = physOf u n := fun u => by
      rw [physOf_congr (show (bump 0x000CA050 (raise 0x8901 [n, 0] u)).opt.phys = u.opt.phys from congrArg Opt.phys (raise_opt ..))]
    refine .of_next (congrArg Host.Outcome.next (if_pos hn)) ⟨?_, ?_, ?_, ?_⟩
    · rw [ha.field (·.txFailed) (fun _ _ _ _ => rfl), ho, physOf_updPhys hn]
    · rw [ha.field (·.failTick) (fun _ _ _ _ => rfl), ho, physOf_updPhys hn]
    · rw [ha.seen _ (by decide) (by decide) (by decide) (by decide)]
      show seen (raise _ _ _) _ = _
      rw [seen_raise_self]
      rfl
    · rw [ha.regVal _ (by decide) (by decide), regVal_bump, if_pos rfl, raise_regVal _ _ _ _ (by decide)]
      rfl
  case los =>
    intro s n hn h hk
    obtain ⟨u, hphys, hflt, _, hcount, ha, hlanes⟩ := declareRx_aside h
    refine .of_next (congrArg Host.Outcome.next (if_pos hn)) ⟨?_, ?_, ?_, ?_, ?_⟩
    · rw [ha.field (·.rxLos) (fun _ _ _ _ => rfl), physOf_congr (show (bump 0x000CA050 (raise 0x8901 [n, 1] u)).opt.phys = u.opt.phys from
        congrArg Opt.phys (raise_opt ..)), physOf_congr hphys, physOf_updPhys hn]
    · rw [laneOf_congr hlanes, laneOf_updLane hk]
    · rw [laneOf_congr hlanes, laneOf_updLane hk]
    · rw [ha.seen _ (by decide) (by decide) (by decide) (by decide)]
      show seen (raise _ _ _) _ = _
      rw [seen_raise_self, seen_congr (congrArg Flt.counts hflt)]
    · rw [ha.regVal _ (physReg_not_event (off := 0x44) hn (by decide)) (by omega), regVal_bump, if_neg (by omega),
        raise_regVal _ _ _ _ (physReg_not_event (off := 0x44) hn (by decide)), hcount]
  case back =>
    intro s n hn
    exact .of_next rfl (physOf_updPhys hn)
  case monitor =>
    intro s n r hn
    refine .of_next (congrArg Host.Outcome.next (if_neg (by omega))) ?_
    refine ⟨?_, ?_, ?_, ?_, ?_, ?_⟩
    · rw [excludeMonitors_field (·.measPwr) fun _ _ => rfl, physOf_updPhys hn]
    · rw [excludeMonitors_field (·.loOut) fun _ _ => rfl, physOf_updPhys hn]
    · rw [excludeMonitors_field (·.voa) fun _ _ => rfl, physOf_updPhys hn]
    · rw [excludeMonitors_field (·.biasTx) fun _ _ => rfl, physOf_updPhys hn]
    · rw [excludeMonitors_field (·.biasLo) fun _ _ => rfl, physOf_updPhys hn]
    · rw [excludeMonitors_field (·.stages) fun _ _ => rfl, physOf_updPhys hn]
      exact List.map_congr_left fun i _ => if_pos (.inl rfl)
  case context =>
    intro s n port far hn
    refine .of_next rfl fun c => ?_
    rw [physOf_updPhys hn, List.mem_filter]
    refine and_congr_right fun _ => ?_
    simp only [Bool.not_eq_true', Bool.and_eq_false_iff, beq_eq_false_iff_ne, decide_eq_false_iff_not]
    tauto
  case wrong =>
    intro s n l1 c1 l2 c2 hn hb apart
    refine .of_next (congrArg Host.Outcome.next (if_neg (by omega))) ?_
    have hb1 : (physOf (updPhys n (fun x => { x with lockerOfs := l2, coarseOfs := c2 }) s) n).blanked = false :=
      (congrArg PhysLane.blanked (physOf_updPhys hn)).trans hb
    have hc : (decide (15000 < l1 - c1 ∨ 15000 < c1 - l1) && decide (15000 < l2 - c2 ∨ 15000 < c2 - l2)) = true ↔ apart := by
      simp [apart]
    refine ⟨fun h => ?_, fun h => ?_⟩
    · rw [if_pos (hc.mpr h)]
      have hw := wrongWavelength_blanks (reported := 0xFFFF) hn hb1
      exact ⟨hw.blanked, hw.seen, hw.count⟩
    · rw [if_neg (mt hc.mp h)]
      exact ⟨hb1, rfl, rfl⟩
  case far =>
    intro s n e hn hb hf
    refine .of_next rfl ⟨fun h => ?_, fun h => ?_⟩
    · have hw := wrongWavelength_blanks (reported := 0xFFFF) hn hb
      rw [if_pos (by simp [hf, h])]
      exact ⟨hw.blanked, hw.farBy, hw.seen⟩
    · exact if_neg (by simp [hf, h])
  case relock =>
    intro s n hn hbit hb hr
    obtain ⟨from', hphys, hregs⟩ := relockDone_spec hbit hb hr
    refine .of_next rfl ⟨?_, ?_, ?_, ?_⟩
    · rw [physOf_congr hphys, physOf_updPhys hn]
    · rw [physOf_congr hphys, physOf_updPhys hn]
    · rw [physOf_congr hphys, physOf_updPhys hn]
    · rw [regVal_congr hregs, regVal_bump, if_pos rfl]
  case recovery =>
    intro s n hn hr hb
    refine .of_next (congrArg Host.Outcome.next (if_neg (by simp [hr, hb]))) ?_
    rw [physOf_updPhys hn]
    exact ⟨rfl, rfl⟩

end Sys2Proof.Machine

/-! R380 to R383, R505: the evaluation of fades and the swap of a spare. -/

namespace Sys2Proof.Machine

open Sys2Proof

section

variable {s t : State} {n k : Nat}

/-! ### Evaluations (R380, R381, R383) -/

/-- To start a swap changes of the optics the swap and the time of the next evaluation. -/
theorem startSwap_field {γ : Type} (π : State → γ) (h : ∀ x w, π (x.mapOpt fun o => { o with retryAt := none, swap := some w }) = π x)
    (k : Nat) (short : Bool) (s : State) : π (startSwap k short s) = π s := by
  unfold startSwap
  split
  · exact h s _
  · rfl

/-- An evaluation raises events and starts a swap at most. -/
theorem evaluateFades_field {γ : Type} (π : State → γ) (h : ∀ x w, π (x.mapOpt fun o => { o with retryAt := none, swap := some w }) = π x)
    (hr : ∀ c a x, π (raise c a x) = π x) (s : State) : π (evaluateFades s) = π s := by
  unfold evaluateFades
  extract_lets found s1 held ranked free
  have h1 : π s1 = π s := foldl_keeps (fun _ _ => hr ..) _ s
  clear_value s1 ranked
  split
  · exact h1
  · refine (foldl_keeps (π := π) (fun _ _ => hr ..) _ _).trans ?_
    exact (ite_keeps (π := π) (ite_keeps (π := π) (startSwap_field π h ..) rfl) (hr ..)).trans h1

/-- An evaluation that finds no time set for the next sets none. -/
theorem evaluateFades_retryAt (h : s.opt.retryAt = none) : (evaluateFades s).opt.retryAt = none := by
  have hr : ∀ c a (x : State), (raise c a x).opt = x.opt := raise_opt
  have hs : ∀ k short (x : State), x.opt.retryAt = none → (startSwap k short x).opt.retryAt = none := fun k short x hx => by
    unfold startSwap
    split
    · rfl
    · exact hx
  unfold evaluateFades
  extract_lets found s1 held ranked free
  have h1 : s1.opt.retryAt = none := (foldl_keeps (π := fun x : State => x.opt.retryAt) (f := fun a n => raise 0x4901 [n] a)
    (fun _ _ => congrArg Opt.retryAt (hr ..)) _ s).trans h
  clear_value s1 ranked
  split
  · exact h1
  · refine (foldl_keeps (π := fun x : State => x.opt.retryAt) (f := fun a m => raise 0x4905 [m] a) (fun _ _ => congrArg Opt.retryAt (hr ..)) _ _).trans ?_
    split
    · split
      · exact hs _ _ _ h1
      · exact h1
    · exact (congrArg Opt.retryAt (hr ..)).trans h1

/-- A lane whose minute has ended. -/
def closedMinute (x : PhysLane) : PhysLane :=
  let tx : Int := if x.biasCount = 0 then x.biasTx else (x.biasTxSum / x.biasCount : Nat)
  let lo : Int := if x.biasCount = 0 then x.biasLo else (x.biasLoSum / x.biasCount : Nat)
  let m : Int := if x.marginCount = 0 then x.margin else x.marginSum / (x.marginCount : Nat)
  { x with
    means := if x.reported then ((tx, lo, m) :: x.means).take 2880 else x.means
    marginSum := 0, marginCount := 0, biasTxSum := 0, biasLoSum := 0, biasCount := 0 }

theorem closeMinute_eq (n : Nat) (s : State) : closeMinute n s = updPhys n closedMinute s := rfl

/-- The minute that ends joins the history of each lane. -/
theorem physOf_closeMinutes (hn : n < 5) : physOf ((List.range 5).foldl (fun a n => closeMinute n a) s) n = closedMinute (physOf s n) :=
  foldl_once (v := (physOf · n)) (g := closedMinute) (P := fun _ => True) (m := n) (fun _ _ _ => trivial)
    (fun _ _ _ h => physOf_updPhys_ne h.symm) (fun _ _ => physOf_updPhys hn) trivial List.nodup_range (List.mem_range.mpr hn)

theorem closedMinute_means {x : PhysLane} (hr : x.reported = true) (hm : 0 < x.marginCount) (hb : 0 < x.biasCount) :
    (closedMinute x).means = ((((x.biasTxSum / x.biasCount : Nat) : Int), ((x.biasLoSum / x.biasCount : Nat) : Int),
      x.marginSum / (x.marginCount : Nat)) :: x.means).take 2880 := by
  simp only [closedMinute]
  rw [if_pos hr, if_neg (by omega), if_neg (by omega), if_neg (by omega)]

/-! ### The swap's steps (R382, R383) -/

theorem offerSwap_swap {w : Swap} : (offerSwap w s).opt.swap = some { w with step := 5, tick := s.tick } :=
  stageSet_field (·.opt.swap) (fun _ _ _ => rfl) (fun _ _ _ => rfl) ..

theorem offerSwap_phys {w : Swap} : (offerSwap w s).opt.phys = s.opt.phys :=
  stageSet_field (·.opt.phys) (fun _ _ _ => rfl) (fun _ _ _ => rfl) ..

theorem offerTraining_swap {w : Swap} : (offerTraining w s).opt.swap = some { w with step := 3, tick := s.tick } :=
  stageSet_field (·.opt.swap) (fun _ _ _ => rfl) (fun _ _ _ => rfl) ..

theorem offerTraining_phys {w : Swap} : (offerTraining w s).opt.phys = s.opt.phys :=
  stageSet_field (·.opt.phys) (fun _ _ _ => rfl) (fun _ _ _ => rfl) ..

/-- The set offered for a spare that is tuned: the swap set at once, or the training set. -/
theorem offerTuned_spec {w : Swap} {b : Bool} : (if b then offerSwap w s else offerTraining w s).opt.phys = s.opt.phys ∧
    (if b then offerSwap w s else offerTraining w s).opt.swap = some { w with step := if b then 5 else 3, tick := s.tick } := by
  cases b with
  | true =>
    simp only [reduceIte]
    exact ⟨offerSwap_phys, offerSwap_swap⟩
  | false =>
    simp only [Bool.false_eq_true, reduceIte]
    exact ⟨offerTraining_phys, offerTraining_swap⟩

/-- A spare that is tuned bears the lane's channel, and the training set or the swap set is offered. -/
theorem spareTuned_eq {w : Swap} (h : s.opt.swap = some w) (hw : w.step ≤ 2) : ∃ u, u.tick = s.tick ∧
    u.opt.phys = (updPhys w.spare (fun x => { x with
      txChannel := vget s.opt.channels w.lane 0xFFFF, loChannel := vget s.opt.channels w.lane 0xFFFF
      locked := true, upTick := some s.tick, baseline := none }) s).opt.phys ∧
    spareTuned s = if w.short then offerSwap w u else offerTraining w u := by
  unfold spareTuned
  simp only [h]
  rw [if_neg (by omega)]
  refine ⟨_, ?_, ?_, rfl⟩
  · rfl
  · rfl

theorem withdrawPages_field {γ : Type} (π : State → γ) (hl : ∀ x f, π (x.mapLine f) = π x) (hc : ∀ x f, π (x.mapColl f) = π x) (s : State) :
    π (withdrawPages s) = π s := by
  unfold withdrawPages
  extract_lets s1
  have h1 : π s1 = π s := foldl_keeps (fun x p => by unfold standbyDiscard; exact ite_keeps rfl (hl ..)) _ s
  exact (hc ..).trans h1

/-- A swap stopped before its last step is gone, with its event and count, and its evaluation is repeated after an hour. -/
theorem stopSwap_spec {w : Swap} (h : s.opt.swap = some w) (hw : w.step ≠ 7) : (stopSwap s).opt.swap = none ∧
    (stopSwap s).opt.retryAt = some (s.tick + 1800000000) ∧ seen (stopSwap s) 0x4902 = seen s 0x4902 + 1 ∧
    regVal (stopSwap s) 0x000CA048 = min (2 ^ 32 - 1) (regVal s 0x000CA048 + 1) := by
  unfold stopSwap
  simp only [h]
  rw [if_neg hw]
  have hk : ∀ {γ : Type} (π : State → γ) (_ : ∀ x f, π (x.mapLine f) = π x) (_ : ∀ x f, π (x.mapColl f) = π x),
      π (if s.line.autoCommit = 3 ∨ s.line.autoCommit = 4 then withdrawPages s else s) = π s := fun π hl hc =>
    ite_keeps (withdrawPages_field π hl hc s) rfl
  have hf := hk State.flt (fun _ _ => rfl) fun _ _ => rfl
  have hr := hk State.regs (fun _ _ => rfl) fun _ _ => rfl
  generalize (if s.line.autoCommit = 3 ∨ s.line.autoCommit = 4 then withdrawPages s else s) = s1 at hf hr
  have ho : ∀ c a x, (bump 0x000CA048 (raise c a x)).opt = x.opt := fun c a x => raise_opt ..
  refine ⟨?_, ?_, ?_, ?_⟩
  · rw [ho]
    rfl
  · rw [ho]
    rfl
  · show seen (raise _ _ _) _ = _
    rw [seen_raise_self, ← seen_congr (congrArg Flt.counts hf)]
    rfl
  · rw [regVal_bump, if_pos rfl, raise_regVal _ _ _ _ (by decide), ← regVal_congr hr]
    rfl

end

/-- Settles O48: from the evaluation of fades and from the swap's steps. -/
theorem spareSwaps : Obligations.SpareSwaps := by
  unfold Obligations.SpareSwaps
  refine ⟨?fade, ?tuned, ?untuned, ?trained, ?retry, ?guard, ?takeover⟩
  case fade =>
    intro s hs
    refine .of_next (congrArg Host.Outcome.next (if_pos hs)) ?_
    have ho : ∀ c a (x : State), (raise c a x).opt = x.opt := raise_opt
    refine ⟨?_, fun n hn => ?_⟩
    · refine (evaluateFades_field (·.opt.fadeTick) (fun _ _ => rfl) (fun _ _ _ => congrArg Opt.fadeTick (ho ..)) _).trans ?_
      exact foldl_keeps (π := (·.opt.fadeTick)) (f := fun a n => closeMinute n a) (fun _ _ => rfl) _ _
    · rw [physOf_congr (evaluateFades_field (·.opt.phys) (fun _ _ => rfl) (fun _ _ _ => congrArg Opt.phys (ho ..)) _),
        physOf_closeMinutes hn]
      exact ⟨rfl, rfl, closedMinute_means⟩
  case tuned =>
    intro s w h hw hsp
    obtain ⟨u, ht, hp, he⟩ := spareTuned_eq h hw
    have hu := offerTuned_spec (s := u) (w := w) (b := w.short)
    refine .of_next (congrArg Host.Outcome.next he) ⟨?_, ?_, ?_⟩
    · rw [physOf_congr (hu.1.trans hp), physOf_updPhys hsp]
    · rw [physOf_congr (hu.1.trans hp), physOf_updPhys hsp]
    · rw [hu.2, ht]
  case untuned =>
    intro s w h hw
    refine .of_next rfl ⟨fun hd => ?_, fun hd => ?_⟩
    · rw [if_pos (by simp [h, hw, hd])]
      exact stopSwap_spec h (by omega)
    · exact if_neg (by simp [h, hd])
  case trained =>
    intro s w h hw hd good
    have hrun : exec .spareTrainingEnd s = .next (if good then offerSwap w s else if w.tick + 250000 ≤ s.tick then stopSwap s else s) := by
      refine congrArg Host.Outcome.next ?_
      unfold trainingEnd
      simp only [h]
      exact if_neg (by omega)
    refine .of_next hrun ⟨fun hg => ?_, fun hg ht => ?_, fun hg ht => ?_⟩
    · rw [if_pos hg]
      exact offerSwap_swap
    · rw [if_neg hg, if_pos ht]
      obtain ⟨h1, _, h3, _⟩ := stopSwap_spec h (by omega)
      exact ⟨h1, h3⟩
    · rw [if_neg hg, if_neg (by omega)]
  case retry =>
    intro s e h he
    refine .of_next (congrArg Host.Outcome.next (if_pos (by simp [h, he]))) ?_
    exact evaluateFades_retryAt rfl
  case guard =>
    intro s w h hw hl hrate hno
    have hany : (s.line.lanes.toList.any fun l => l.standby.isSome) = false := by
      rw [Bool.eq_false_iff, Ne, List.any_eq_true]
      rintro ⟨l, hm, hs⟩
      obtain ⟨i, hi, rfl⟩ := List.getElem_of_mem hm
      have hi5 : i < 5 := by simpa using hi
      have hv : laneOf s i = s.line.lanes.toList[i] := by simp [laneOf, vget, hi5]
      rw [← hv, hno i hi5] at hs
      cases hs
    have hrun : exec .swapGuardRecommit s = .next (stageSet 5 [(w.lane, w.page)] s) := by
      refine congrArg Host.Outcome.next ?_
      simp only [h]
      exact if_pos ⟨hw, by simp [hany]⟩
    refine .of_next hrun ⟨?_, ?_⟩
    · exact stageSet_field (·.line.autoCommit) (fun _ _ _ => rfl) (fun _ _ _ => rfl) ..
    · rw [laneOf_stageSet hl hrate]
      simp
  case takeover =>
    intro s n e sp p htx he hd hb hl h hsp hp
    refine .of_next (congrArg Host.Outcome.next (if_pos (by simp [htx, he, hd, hb, hl]))) ?_
    unfold startSwap
    simp only [h, hsp, hp]
    exact ⟨_, rfl, rfl, rfl, rfl, rfl, rfl, rfl, rfl⟩

end Sys2Proof.Machine

/-! R412 to R415: the pairing of a port. -/

namespace Sys2Proof.Machine

open Sys2Proof

section

variable {s : State} {p : Nat}

/-! ### P-HELLO (R412) -/

theorem sendPair_queue {b : List Byte} (hp : p < 4) :
    (partnerOf (sendPair p b s) p).ctlQueue = (partnerOf s p).ctlQueue ++ [⟨0x60, [], b⟩] :=
  congrArg Partner.ctlQueue (partnerOf_updPartner hp)

/-- The P-HELLO that leaves is the attempt's. -/
theorem sendHello_spec (hp : p < 4) : (keysOf (sendHello p s) p).helloTick = s.tick ∧
    (keysOf (sendHello p s) p).hello = (keysOf s p).hello ∧
    (partnerOf (sendHello p s) p).ctlQueue = (partnerOf s p).ctlQueue ++ [⟨0x60, [], (keysOf s p).hello⟩] := by
  refine ⟨?_, ?_, sendPair_queue hp⟩
  · rw [sendHello, keysOf_updKeys hp]
  · rw [sendHello, keysOf_updKeys hp]
    rfl

/-- The attempt that begins sends its own P-HELLO. -/
theorem beginPairing_hello (hp : p < 4) : (keysOf (beginPairing p s) p).helloTick = s.tick ∧
    (partnerOf (beginPairing p s) p).ctlQueue = (partnerOf s p).ctlQueue ++ [⟨0x60, [], (keysOf (beginPairing p s) p).hello⟩] := by
  obtain ⟨f, -, he⟩ := beginPairing_eq p s
  generalize hu : updPartner p (fun x => { x with paired := false }) (updKeys p f s.takeFree.2.takeFree.2) = u at he
  have htick : u.tick = s.tick := by rw [← hu]; rfl
  have hq : (partnerOf u p).ctlQueue = (partnerOf s p).ctlQueue := by
    rw [← hu, partnerOf_updPartner hp]
    rfl
  obtain ⟨h1, h2, h3⟩ := sendHello_spec (s := u) hp
  rw [he, h1, h2, h3, hq, htick]
  exact ⟨rfl, rfl⟩

/-- A P-HELLO that passes is held, and the P-ENCAP made for it leaves. -/
theorem answerHello_spec {b : List Byte} (hp : p < 4) : (keysOf (answerHello p b s) p).st = 2 ∧
    (keysOf (answerHello p b s) p).helloRx = b ∧ (keysOf (answerHello p b s) p).newId = pHelloId b ∧
    (keysOf (answerHello p b s) p).initiator = bytesLt (ownId s) (pHelloId b) ∧
    (partnerOf (answerHello p b s) p).ctlQueue = (partnerOf s p).ctlQueue ++ [⟨0x60, [], (keysOf (answerHello p b s) p).encap⟩] := by
  obtain ⟨k, hk, he⟩ : ∃ k : PortKeys, (k.st = 2 ∧ k.helloRx = b ∧ k.newId = pHelloId b ∧
      k.initiator = bytesLt (ownId s) (pHelloId b)) ∧
      answerHello p b s = sendPair p k.encap (updKeys p (fun _ => k) s.takeFree.2) := ⟨_, ⟨rfl, rfl, rfl, rfl⟩, rfl⟩
  have hkeys : keysOf (answerHello p b s) p = k := by
    rw [he]
    exact keysOf_updKeys hp
  obtain ⟨h1, h2, h3, h4⟩ := hk
  rw [hkeys, he, sendPair_queue hp]
  exact ⟨h1, h2, h3, h4, rfl⟩

/-- The first vintages of both directions. -/
theorem firstKeys_spec {b ss : List Byte} (hp : p < 4) : (keysOf (firstKeys p b ss s) p).st = 3 ∧
    (keysOf (firstKeys p b ss s) p).txCount = 1 ∧ (keysOf (firstKeys p b ss s) p).rxCount = 1 ∧
    (keysOf (firstKeys p b ss s) p).txCounters = [] ∧
    (keysOf (firstKeys p b ss s) p).txKeys = [(1, vintageKey (keysOf (firstKeys p b ss s) p).txVs)] ∧
    (keysOf (firstKeys p b ss s) p).rxKeys = [(1, vintageKey (keysOf (firstKeys p b ss s) p).rxVs)] := by
  obtain ⟨conf, tv, rv, m, he⟩ : ∃ conf tv rv m, firstKeys p b ss s = sendPair p m (updKeys p (fun x => { x with
      st := 3, stepTick := s.tick, ssOwn := [], confirm := conf, txCounters := [], txCount := 1, txVs := tv
      txKeys := [(1, vintageKey tv)], txBlocks := 0, txSince := s.tick, rxCount := 1, rxVs := rv
      rxKeys := [(1, vintageKey rv)], rxNext := false, window := none }) s) := ⟨_, _, _, _, rfl⟩
  have hkeys : keysOf (firstKeys p b ss s) p = _ := (congrFun (congrArg keysOf he) p).trans (keysOf_updKeys hp)
  rw [hkeys]
  exact ⟨rfl, rfl, rfl, rfl, rfl, rfl⟩

/-! ### Failures (R414) -/

theorem regVal_happenedNow (c r : Nat) (s : State) : regVal (happenedNow c s) r = regVal s r := rfl

theorem seen_happenedNow (c d : Nat) (s : State) : seen (happenedNow c s) d = seen s d := rfl

theorem seen_bump (r c : Nat) (s : State) : seen (bump r s) c = seen s c := rfl

/-- An attempt that fails, with its reason, event and count. -/
theorem pairFail_spec {reason : Nat} (hp : p < 4) : (keysOf (pairFail p reason s) p).st = 5 ∧
    (keysOf (pairFail p reason s) p).lastFail = reason ∧ (keysOf (pairFail p reason s) p).fails = (keysOf s p).fails + 1 ∧
    seen (pairFail p reason s) 0x8A01 = seen s 0x8A01 + 1 ∧
    regVal (pairFail p reason s) 0x00100054 = min (2 ^ 32 - 1) (regVal s 0x00100054 + 1) := by
  unfold pairFail
  extract_lets k e s1
  have hk : keysOf (happenedNow 14 (bump 0x00100054 (raise 0x8A01 [p, reason] s1))) p = keysOf s1 p := by
    rw [keysOf_congr (show (happenedNow 14 (bump 0x00100054 (raise 0x8A01 [p, reason] s1))).sec.ports = s1.sec.ports from
      congrArg Sec.ports (raise_sec ..))]
  have h1 : (keysOf s1 p).st = 5 ∧ (keysOf s1 p).lastFail = reason ∧ (keysOf s1 p).fails = (keysOf s p).fails + 1 := by
    rw [keysOf_updKeys hp]
    exact ⟨rfl, rfl, rfl⟩
  have hs : s1.flt = s.flt ∧ s1.regs = s.regs := ⟨rfl, rfl⟩
  clear_value s1
  obtain ⟨ha, hb, hc⟩ := h1
  rw [hk]
  refine ⟨ha, hb, hc, ?_, ?_⟩
  · rw [seen_happenedNow, seen_bump, seen_raise_self, seen_congr (congrArg Flt.counts hs.1)]
  · rw [regVal_happenedNow, regVal_bump, if_pos rfl, raise_regVal _ _ _ _ (by decide), regVal_congr hs.2]

/-! ### Completion (R415) -/

theorem restartTribs_field {γ : Type} (π : State → γ) (hl : ∀ x f, π (x.mapLine f) = π x) (hc : ∀ x f, π (x.mapColl f) = π x)
    (hm : ∀ x f, π (x.mapCellar f) = π x) (hp : ∀ x p f, π (updPartner p f x) = π x) (p : Nat) (keep : Bool) (s : State) :
    π (restartTribs p keep s) = π s := by
  unfold restartTribs
  extract_lets each s0 s1
  refine ite_keeps (hl ..) ?_
  have h1 : π s1 = π s := (foldl_keeps (π := π) (f := fun a (g : Nat × Nat) => askAbort g.1 g.2 4 0x0403 0 0 a)
    (fun _ _ => by rw [askAbort, hc]) _ s0).trans (hl ..)
  clear_value s1
  rw [hp, ringEval, hm]
  exact (hl ..).trans h1

/-- The control tributary begins anew at 0 with its partner paired. -/
theorem restartControl_spec (hp : p < 4) : (partnerOf (restartControl p s) p).paired = true ∧
    (partnerOf (restartControl p s) p).ctlNext = 0 ∧ (restartControl p s).sec = s.sec ∧ (restartControl p s).regs = s.regs := by
  refine ⟨?_, ?_, rfl, rfl⟩
  · exact congrArg Partner.paired (partnerOf_updPartner hp)
  · exact congrArg Partner.ctlNext (partnerOf_updPartner hp)

theorem paired_spec (hp : p < 4) : (keysOf (paired p s) p).st = 4 ∧ (keysOf (paired p s) p).fails = 0 ∧
    (partnerOf (paired p s) p).paired = true ∧ (keysOf (paired p s) p).partnerId = (keysOf s p).newId ∧
    (partnerOf (paired p s) p).ctlNext = 0 ∧ regVal (paired p s) 0x00100050 = min (2 ^ 32 - 1) (regVal s 0x00100050 + 1) := by
  unfold paired
  extract_lets k keep s1 s2 s3
  have h1 : (keysOf s1 p).st = 4 ∧ (keysOf s1 p).fails = 0 ∧ (keysOf s1 p).partnerId = (keysOf s p).newId := by
    rw [keysOf_updKeys hp]
    exact ⟨rfl, rfl, rfl⟩
  have hr1 : s1.regs = s.regs := rfl
  clear_value s1
  obtain ⟨h2, h3, h4, h5⟩ := restartControl_spec (s := restartTribs p keep s1) hp
  have hsec : s2.sec = s1.sec := h4.trans (restartTribs_field State.sec (fun _ _ => rfl) (fun _ _ => rfl) (fun _ _ => rfl)
    (fun _ _ _ => rfl) ..)
  have hregs : s2.regs = s.regs := (h5.trans (restartTribs_field State.regs (fun _ _ => rfl) (fun _ _ => rfl) (fun _ _ => rfl)
    (fun _ _ _ => rfl) ..)).trans hr1
  change (partnerOf s2 p).paired = true at h2
  change (partnerOf s2 p).ctlNext = 0 at h3
  clear_value s2
  have hs3 : s3.sec = s2.sec ∧ s3.regs = s2.regs := ⟨rfl, rfl⟩
  have hp3 : (partnerOf s3 p).paired = true ∧ (partnerOf s3 p).ctlNext = 0 := by
    rw [partnerOf_updPartner hp]
    exact ⟨h2, h3⟩
  clear_value s3
  have hk : keysOf (happenedNow 14 (bump 0x00100050 (raise 0x1A02 [p] s3))) p = keysOf s1 p := by
    rw [keysOf_congr (show (happenedNow 14 (bump 0x00100050 (raise 0x1A02 [p] s3))).sec.ports = s1.sec.ports from
      congrArg Sec.ports ((raise_sec ..).trans (hs3.1.trans hsec)))]
  have hq : partnerOf (happenedNow 14 (bump 0x00100050 (raise 0x1A02 [p] s3))) p = partnerOf s3 p := by
    rw [partnerOf_congr (show (happenedNow 14 (bump 0x00100050 (raise 0x1A02 [p] s3))).sites.partners = s3.sites.partners from
      congrArg Sites.partners (raise_sites ..))]
  obtain ⟨ha, hb, hc⟩ := h1
  rw [hk, hq]
  refine ⟨ha, hb, hp3.1, hc, hp3.2, ?_⟩
  rw [regVal_happenedNow, regVal_bump, if_pos rfl, raise_regVal _ _ _ _ (by decide), regVal_congr (hs3.2.trans hregs)]

end

/-- Settles O49: from what begins, answers, completes and ends an attempt. -/
theorem pairing : Obligations.Pairing := by
  unfold Obligations.Pairing
  refine ⟨?hello, ?helloRx, ?encap, ?confirm, ?timeout, ?retry, ?repair⟩
  case hello =>
    intro s p hp hv hb hpart
    have hrun : exec (.pHelloRepeat p) s = .next (if (keysOf s p).st = 0 then beginPairing p s
        else if (keysOf s p).st = 1 ∧ (keysOf s p).helloTick + 1000 ≤ s.tick then sendHello p s else s) :=
      congrArg Host.Outcome.next (if_neg (by simp [hv, hb, hpart, hp]))
    refine .of_next hrun ⟨fun h => ?_, fun h ht => ?_⟩
    · rw [if_pos h]
      obtain ⟨h1, h2, -, -⟩ := beginPairing_spec hp s
      obtain ⟨h3, h4⟩ := beginPairing_hello (s := s) hp
      exact ⟨h1, h3, h2, h4⟩
    · rw [if_neg (by omega), if_pos ⟨h, ht⟩]
      obtain ⟨h1, -, h3⟩ := sendHello_spec (s := s) hp
      exact ⟨h1, h3⟩
  case helloRx =>
    intro s p b hp hv hb hst
    have hrun : exec (.pHelloRx p b) s = .next ((helloFault s p b).elim (answerHello p b s) fun e => pairFail p e s) := by
      refine congrArg Host.Outcome.next ?_
      unfold helloRx
      rw [if_neg (by simp [hv, hb, hst]; omega), if_neg (by omega)]
      cases h : helloFault s p b with
      | none => simp only [h, Option.elim_none]
      | some e => simp only [h, Option.elim_some]
    refine .of_next hrun ⟨fun h => ?_, fun e h => ?_⟩
    · rw [h]
      exact answerHello_spec hp
    · rw [h]
      obtain ⟨h1, h2, -, h4, h5⟩ := pairFail_spec (s := s) (reason := e) hp
      exact ⟨h1, h2, h4, h5⟩
  case encap =>
    intro s p b hp hv hst k good
    have hrun : exec (.pEncapRx p b) s = .next (if ¬ good then pairFail p 6 s
        else firstKeys p b (Config.kemDecaps k.kemSeed (slice b 1 1568)) s) := by
      refine congrArg Host.Outcome.next ?_
      unfold encapRx
      rw [if_neg (by simp [hv, hst])]
      simp only [good, not_and_or]
      rfl
    refine .of_next hrun ⟨fun h => ?_, fun h => ?_⟩
    · rw [if_neg (not_not_intro h)]
      exact firstKeys_spec hp
    · rw [if_pos h]
      obtain ⟨h1, h2, -⟩ := pairFail_spec (s := s) (reason := 6) hp
      exact ⟨h1, h2⟩
  case confirm =>
    intro s p b hp hv hst
    have hrun : exec (.pConfirmRx p b) s = .next (if b = [3] ++ (keysOf s p).confirm then paired p s else pairFail p 7 s) :=
      congrArg Host.Outcome.next (if_neg (by simp [hv, hst]))
    refine .of_next hrun ⟨fun h => ?_, fun h => ?_⟩
    · rw [if_pos h]
      exact paired_spec hp
    · rw [if_neg h]
      obtain ⟨h1, h2, -⟩ := pairFail_spec (s := s) (reason := 7) hp
      exact ⟨h1, h2⟩
  case timeout =>
    intro s p hp hv hst
    refine .of_next rfl ⟨fun h => ?_, fun h => if_neg (by omega)⟩
    rw [pairTimeout, if_pos ⟨hst, h, hv⟩]
    obtain ⟨h1, h2, h3, -⟩ := pairFail_spec (s := s) (reason := 8) hp
    exact ⟨h1, h2, h3⟩
  case retry =>
    intro s p hp hv hb hst
    refine .of_next rfl ⟨fun h => ?_, fun h => if_neg (by omega)⟩
    rw [pairRetry, if_pos ⟨hst, h, hv, hb⟩]
    exact (beginPairing_spec hp s).1
  case repair =>
    intro s p hp hv hb hst hf
    refine .of_next rfl ⟨fun h => ?_, fun h => if_neg (by omega)⟩
    rw [repairNoBlock, if_pos ⟨hf, h⟩, repair, if_pos ⟨hst, hb⟩, if_pos hv]
    obtain ⟨h1, h2, -, -⟩ := beginPairing_spec hp s
    exact ⟨h1, h2⟩

end Sys2Proof.Machine

/-! R402 to R406: the vintages of a port change. -/

namespace Sys2Proof.Machine

open Sys2Proof

section

variable {s : State} {p : Nat}

/-- Keys of blocks sent that nothing needs any more go; nothing else of a port changes. -/
theorem pruneTxKeys_field {γ : Type} (π : PortKeys → γ) (hπ : ∀ k l, π { k with txKeys := l } = π k) (p q : Nat) (s : State) :
    π (keysOf (pruneTxKeys p s) q) = π (keysOf s q) := keysOf_updKeys_keeps fun k => hπ k _

/-- Resealing the oldest vintage leaves the vintages as they are. -/
theorem resealOldest_field {γ : Type} (π : PortKeys → γ) (hπ : ∀ k l c b, π { k with txKeys := l, txCounters := c, txBlocks := b } = π k)
    (p q : Nat) (s : State) : π (keysOf (resealOldest p s) q) = π (keysOf s q) := by
  unfold resealOldest
  split
  · refine (pruneTxKeys_field π (fun k l => hπ k l k.txCounters k.txBlocks) ..).trans ?_
    refine foldl_keeps (π := fun x => π (keysOf x q)) (fun a e => ?_) _ s
    exact keysOf_updKeys_keeps fun k => hπ k k.txKeys _ _
  · rfl

/-- A racking that begins derives the next vintage and sets the edge of its switch. -/
theorem rackBegin_spec (hp : p < 4) (h : rackDue s p = true) :
    (keysOf (rackBegin p s) p).racking = some (s.tick + rttP s p + rackLead s) ∧
    (keysOf (rackBegin p s) p).txCount = (keysOf s p).txCount ∧
    (keysOf (rackBegin p s) p).txVs = nextVs (keysOf s p).txVs (keysOf s p).txCount ∧
    mget (keysOf (rackBegin p s) p).txKeys ((keysOf s p).txCount + 1) = some (vintageKey (keysOf (rackBegin p s) p).txVs) := by
  unfold rackBegin
  extract_lets s0 k v e
  rw [if_neg (not_not_intro h)]
  have hc : (keysOf s0 p).txCount = (keysOf s p).txCount := resealOldest_field (·.txCount) (fun _ _ _ _ => rfl) ..
  have hv : (keysOf s0 p).txVs = (keysOf s p).txVs := resealOldest_field (·.txVs) (fun _ _ _ _ => rfl) ..
  have hk : ∀ ty b u, keysOf (sendCtl p ty [] b u) = keysOf u := fun _ _ _ => rfl
  have hv' : v = nextVs (keysOf s p).txVs (keysOf s p).txCount := by rw [← hc, ← hv]
  clear_value s0 v
  rw [hk, keysOf_updKeys hp]
  refine ⟨rfl, hc, hv', ?_⟩
  rw [← hc]
  exact mget_mset_same ..

/-- The announced vintage becomes current at its edge. -/
theorem rackSwitch_due {e : Nat} (hp : p < 4) (h : (keysOf s p).racking = some e) (he : e ≤ s.tick) :
    (keysOf (rackSwitch p s) p).txCount = (keysOf s p).txCount + 1 ∧ (keysOf (rackSwitch p s) p).txBlocks = 0 ∧
    (keysOf (rackSwitch p s) p).racking = none ∧ seen (rackSwitch p s) 0x1A01 = seen s 0x1A01 + 1 ∧
    regVal (rackSwitch p s) 0x0010004C = min (2 ^ 32 - 1) (regVal s 0x0010004C + 1) := by
  unfold rackSwitch
  extract_lets k
  rw [if_pos (by simp [k, h, he])]
  generalize hu : pruneTxKeys p (updKeys p (fun x => { x with
    txCount := x.txCount + 1, txBlocks := 0, txSince := s.tick, racking := none }) s) = u
  have hkeys : keysOf (bump 0x0010004C (raise 0x1A01 [p, txDir k] u)) = keysOf u :=
    keysOf_congr (congrArg Sec.ports (raise_sec ..))
  have hf : u.flt = s.flt ∧ u.regs = s.regs := by
    rw [← hu]
    exact ⟨rfl, rfl⟩
  rw [hkeys]
  refine ⟨?_, ?_, ?_, ?_, ?_⟩
  · rw [← hu, pruneTxKeys_field (·.txCount) fun _ _ => rfl, keysOf_updKeys hp]
  · rw [← hu, pruneTxKeys_field (·.txBlocks) fun _ _ => rfl, keysOf_updKeys hp]
  · rw [← hu, pruneTxKeys_field (·.racking) fun _ _ => rfl, keysOf_updKeys hp]
  · rw [seen_bump, seen_raise_self, seen_congr (congrArg Flt.counts hf.1)]
  · rw [regVal_bump, if_pos rfl, raise_regVal _ _ _ _ (by decide), regVal_congr hf.2]

/-- The next vintage of the receiver. -/
theorem deriveRx_spec (hp : p < 4) (h : (keysOf s p).rxNext = false) : (keysOf (deriveRx p s) p).rxNext = true ∧
    (keysOf (deriveRx p s) p).rxVs = nextVs (keysOf s p).rxVs (keysOf s p).rxCount ∧
    mget (keysOf (deriveRx p s) p).rxKeys ((keysOf s p).rxCount + 1) =
      some (vintageKey (nextVs (keysOf s p).rxVs (keysOf s p).rxCount)) := by
  rw [deriveRx, keysOf_updKeys hp, if_neg (by simp [h])]
  exact ⟨rfl, rfl, mget_mset_same ..⟩

theorem repair_field {γ : Type} (π : State → γ) (hk : ∀ x p f, π (updKeys p f x) = π x) (hp : ∀ x p f, π (updPartner p f x) = π x)
    (hf : ∀ x : State, π x.takeFree.2 = π x) (p : Nat) (s : State) : π (repair p s) = π s := by
  unfold repair
  exact ite_keeps (ite_keeps (beginPairing_field π hk hp hf p s) ((hp ..).trans (hk ..))) rfl

/-- An ANNOUNCE of the next vintage: derived, and readied where its check value agrees. -/
theorem announceRx_next {kcv : Nat} (h : (keysOf s p).st = 4) :
    announceRx p (1 - txDir (keysOf s p)) ((keysOf s p).rxCount + 1) kcv s =
      if vintageKcv (keysOf (deriveRx p s) p).rxVs = kcv then
        sendCtl p 0x50 [] (rackBody 2 (1 - txDir (keysOf s p)) ((keysOf s p).rxCount + 1) 0 kcv) (deriveRx p s)
      else repair p (raise 0x8A04 [p] (deriveRx p s)) := by
  unfold announceRx
  extract_lets k s1
  rw [if_neg (by simp [k, h])]
  have hs1 : s1 = deriveRx p s := if_pos rfl
  rw [hs1]

end

/-- Settles O50: from the beginning of a racking, its switch, its ANNOUNCE and the close of its window. -/
theorem racking : Obligations.Racking := by
  unfold Obligations.Racking
  refine ⟨?start, ?switch, ?announce, ?window⟩
  case start =>
    intro s p hp h
    exact .of_next rfl (rackBegin_spec hp h)
  case switch =>
    intro s p e hp h
    exact .of_next rfl ⟨rackSwitch_due hp h, fun he => if_neg (by simp [h, he])⟩
  case announce =>
    intro s p kcv hp hb hst hnext v
    generalize hu : updSched (p + 1) (fun c => { c with bucket := bucketNow s p - 1000, policedTick := some s.tick }) s = u
    have hkeys : keysOf u = keysOf s := by rw [← hu]; rfl
    have hpart : partnerOf u = partnerOf s := by rw [← hu]; rfl
    have hflt : u.flt = s.flt := by rw [← hu]; rfl
    have hst' : (keysOf u p).st = 4 := by rw [hkeys, hst]
    obtain ⟨h1, h2, h3⟩ := deriveRx_spec (s := u) hp (by rw [hkeys, hnext])
    rw [hkeys] at h2 h3
    have hrun : exec (.announceRx p (1 - txDir (keysOf s p)) ((keysOf s p).rxCount + 1) kcv) s = .next (if vintageKcv v = kcv then
        sendCtl p 0x50 [] (rackBody 2 (1 - txDir (keysOf s p)) ((keysOf s p).rxCount + 1) 0 kcv) (deriveRx p u)
        else repair p (raise 0x8A04 [p] (deriveRx p u))) := by
      refine congrArg Host.Outcome.next ((policed_taken hb).trans ?_)
      rw [hu, ← hkeys, announceRx_next hst', hkeys, h2]
    refine .of_next hrun ⟨fun h => ?_, fun h => ?_⟩
    · rw [if_pos h]
      have hk : ∀ b x, keysOf (sendCtl p 0x50 [] b x) = keysOf x := fun _ _ => rfl
      rw [hk, sendCtl_ctlQueue hp rfl, show partnerOf (deriveRx p u) = partnerOf u from rfl, hpart]
      exact ⟨h1, h2, h3, _, rfl, rfl, rfl⟩
    · rw [if_neg h, repair_field (fun x => seen x 0x8A04) (fun _ _ _ => rfl) (fun _ _ _ => rfl) fun _ => rfl, seen_raise_self,
        seen_congr (congrArg Flt.counts (show (deriveRx p u).flt = s.flt from hflt))]
  case window =>
    intro s p e hp h
    refine .of_next rfl ⟨fun he => ?_, fun he => if_neg (by simp [h, he])⟩
    rw [windowClose, if_pos (by simp [h, he]), keysOf_updKeys hp]
    refine ⟨rfl, fun x => ?_⟩
    simp [mfilter]

end Sys2Proof.Machine

/-! R477, R490 to R494: the comparison of configurations and partners gone silent. -/

namespace Sys2Proof.Machine

open Sys2Proof

section

variable {s : State} {p : Nat}

/-! ### Comparisons (R490 to R492) -/

/-- A message that is not held back for a link-down partner changes what waits for it alone. -/
theorem sendCtl_field {γ : Type} (π : State → γ) (hp : ∀ x q f, π (updPartner q f x) = π x) (q ty : Nat) (fields : List Nat)
    (body : List Byte) (s : State) : π (sendCtl q ty fields body s) = π s := hp ..

/-- To resynchronise the classes of a port sends messages, and changes its slots. -/
theorem resyncAll_partner {γ : Type} (π : Partner → γ) (hπ : ∀ x c k, π { x with ctlQueue := c, kept := k } = π x) (p q : Nat) (s : State) :
    π (partnerOf (resyncAll p s) q) = π (partnerOf s q) := by
  refine foldl_keeps (π := fun x => π (partnerOf x q)) (fun a c => ite_keeps (π := fun x => π (partnerOf x q)) ?_ rfl) _ s
  unfold startResync
  extract_lets ctx b name s1
  rw [partnerOf_sendCtl_field π hπ, show ∀ x, partnerOf (bump 0x0014005C x) = partnerOf x from fun _ => rfl,
    partnerOf_congr (congrArg Sites.partners (raise_sites ..))]
  rfl

/-- What a DIGEST of a paired partner leaves: the comparison. -/
theorem digestRx_partner {γ : Type} {level : Nat} {scope groups : List Byte} (π : Partner → γ)
    (hπ : ∀ x c k, π { x with ctlQueue := c, kept := k } = π x) (hst : (keysOf s p).st = 4) (hpaired : (partnerOf s p).paired = true) :
    π (partnerOf (digestRx p level scope groups s) p) =
      π (partnerOf (noteComparison p (scope == scopeDigest (noteLevel level s) p) (groups == groupsDigest (noteLevel level s) p)
        (noteLevel level s)) p) := by
  unfold digestRx
  extract_lets s1 sc gr was s2 s3
  rw [if_neg (by simp [hst, hpaired])]
  have h3 : π (partnerOf s3 p) = π (partnerOf s2 p) := ite_keeps (π := fun x => π (partnerOf x p)) (resyncAll_partner π hπ ..) rfl
  clear_value s3
  exact (ite_keeps (π := fun x => π (partnerOf x p)) rfl (partnerOf_sendCtl_field π hπ p)).trans h3

theorem partnerOf_noteLevel {level : Nat} (hp : p < 4) : partnerOf (noteLevel level s) p =
    { partnerOf s p with level := min (partnerOf s p).level level } := vget_map _ _ _ _ hp

/-! ### The fence (R493) -/

/-- A difference of scope that stands fences the port's groups. -/
theorem fenceScope_stands {e : Nat} (hp : p < 4) (hf : (partnerOf s p).scopeFenced = false) (hs : (partnerOf s p).scopeSince = some e)
    (he : e + rttP s p + 2000 ≤ s.tick) : (partnerOf (fenceScope p s) p).scopeFenced = true ∧
      (partnerOf (fenceScope p s) p).groupSince = (partnerOf s p).groupSince ∧ seen (fenceScope p s) 0x8E03 = seen s 0x8E03 + 1 ∧
      regVal (fenceScope p s) 0x000940B0 = min (2 ^ 32 - 1) (regVal s 0x000940B0 + (portGroups s p).length) := by
  unfold fenceScope
  extract_lets x n
  rw [if_pos (by simp [x, hf, hs, persists, he])]
  generalize hu : updPartner p (fun y => { y with scopeFenced := true }) s = u
  have hx : partnerOf u p = { partnerOf s p with scopeFenced := true } := by rw [← hu, partnerOf_updPartner hp]
  have hflt : u.flt = s.flt ∧ u.regs = s.regs := by
    rw [← hu]
    exact ⟨rfl, rfl⟩
  have hq : partnerOf (bumpBy 0x000940B0 n (raise 0x8E03 [p, n] u)) = partnerOf u := partnerOf_congr (congrArg Sites.partners (raise_sites ..))
  rw [hq, hx]
  refine ⟨rfl, rfl, ?_, ?_⟩
  · rw [show ∀ x, seen (bumpBy 0x000940B0 n x) 0x8E03 = seen x 0x8E03 from fun _ => rfl, seen_raise_self,
      seen_congr (congrArg Flt.counts hflt.1)]
  · rw [regVal_bumpBy, if_pos rfl, raise_regVal _ _ _ _ (by decide), regVal_congr hflt.2]

/-- Without a difference between groups no group is fenced. -/
theorem fenceGroups_none (h : (partnerOf s p).groupSince = []) : fenceGroups p s = s := by
  unfold fenceGroups
  simp [h]

/-! ### A silent partner (R477, R238) -/

theorem withdrawOffer_cmp {ctx cls st d : Nat} : (withdrawOffer ctx cls st d s).cmp =
    (if (bslot s ctx cls).offer = none then s else updSlot ctx cls (fun x => { x with offer := none, staged := none }) s).cmp := by
  unfold withdrawOffer
  cases h : (bslot s ctx cls).offer with
  | none => simp
  | some o =>
    simp only [reduceCtorEq, reduceIte]
    cases o.mbx with
    | none => rfl
    | some m => exact mbxAnswer_cmp

/-- An offer withdrawn leaves its slot. -/
theorem withdrawOffer_offer {ctx cls st d : Nat} : (bslot (withdrawOffer ctx cls st d s) ctx cls).offer = none := by
  rw [bslot_congr withdrawOffer_cmp]
  split
  · next h => exact h
  · rw [bslot_updSlot_self]

theorem bslot_withdrawOffer_ne {ctx cls st d c x : Nat} (h : ctx * 8 + cls ≠ c * 8 + x) :
    bslot (withdrawOffer ctx cls st d s) c x = bslot s c x := by
  rw [bslot_congr withdrawOffer_cmp]
  split
  · rfl
  · rw [bslot_updSlot, if_neg h]

theorem withdrawOffer_field {γ : Type} (π : State → γ) (hm : ∀ m a b l x, π (mbxAnswer m a b l x) = π x)
    (hs : ∀ c k f x, π (updSlot c k f x) = π x) (ctx cls st d : Nat) (s : State) : π (withdrawOffer ctx cls st d s) = π s := by
  unfold withdrawOffer
  split
  · rfl
  · extract_lets s1
    have h1 : π s1 = π s := hs ..
    clear_value s1
    split
    · exact (hm ..).trans h1
    · exact h1

theorem lapseOffers_field {γ : Type} (π : State → γ) (hm : ∀ m a b l x, π (mbxAnswer m a b l x) = π x)
    (hs : ∀ c k f x, π (updSlot c k f x) = π x) (p : Nat) (s : State) : π (lapseOffers p s) = π s :=
  foldl_keeps (fun _ _ => withdrawOffer_field π hm hs ..) _ s

/-- No offer of a port outlives its link. -/
theorem lapseOffers_offer {c : Nat} (hc : c < 8) : (bslot (lapseOffers p s) (2 + p) c).offer = none :=
  foldl_once (v := fun x => (bslot x (2 + p) c).offer) (g := fun _ => none) (P := fun _ => True) (m := c) (fun _ _ _ => trivial)
    (fun _ k _ hk => congrArg BSlot.offer (bslot_withdrawOffer_ne (by unfold lOut; omega)))
    (fun _ _ => withdrawOffer_offer) trivial List.nodup_range (List.mem_range.mpr hc)

theorem stopSwap_field {γ : Type} (π : State → γ) (hl : ∀ x f, π (x.mapLine f) = π x) (hc : ∀ x f, π (x.mapColl f) = π x)
    (ho : ∀ x f, π (x.mapOpt f) = π x) (hr : ∀ c a x, π (raise c a x) = π x) (hb : ∀ r x, π (bump r x) = π x) (s : State) :
    π (stopSwap s) = π s := by
  unfold stopSwap
  split
  · rfl
  · extract_lets s1 s2 s3
    have h1 : π s1 = π s := ite_keeps (withdrawPages_field π hl hc s) rfl
    clear_value s1
    have h2 : π s2 = π s1 := (hl ..).trans (ho ..)
    clear_value s2
    have h3 : π s3 = π s2 := ho ..
    clear_value s3
    exact ite_keeps rfl ((hb ..).trans ((hr ..).trans (h3.trans (h2.trans h1))))

/-- A partner that has gone silent is link-down: its comparison is void and its offers lapse. -/
theorem linkLost_silent (hp : p < 4) (hd : (partnerOf s p).linkDown = false) (ht : (partnerOf s p).lastGood + 250 ≤ s.tick) :
    (partnerOf (linkLost p s) p).linkDown = true ∧ (partnerOf (linkLost p s) p).paired = false ∧
      (partnerOf (linkLost p s) p).compared = false ∧ seen (linkLost p s) 0x4E01 = seen s 0x4E01 + 1 ∧
      ∀ c, c < 8 → (bslot (linkLost p s) (2 + p) c).offer = none := by
  unfold linkLost
  extract_lets x s1 s2
  rw [if_neg (by simp [x, hd, ht])]
  have hs1 : (partnerOf s1 p).linkDown = true ∧ (partnerOf s1 p).paired = false ∧ (partnerOf s1 p).compared = false ∧ s1.flt = s.flt := by
    rw [partnerOf_updPartner hp]
    exact ⟨rfl, rfl, rfl, rfl⟩
  clear_value s1
  have hsites : s2.sites = s1.sites := (lapseOffers_field State.sites (fun _ _ _ _ _ => mbxAnswer_sites) (fun _ _ _ _ => rfl) ..).trans
    (raise_sites ..)
  have hseen : seen s2 0x4E01 = seen s 0x4E01 + 1 := by
    have h := lapseOffers_field State.flt (fun _ _ _ _ _ => mbxAnswer_flt) (fun _ _ _ _ => rfl) p (raise 0x4E01 [p] s1)
    rw [show seen s2 0x4E01 = _ from seen_congr (congrArg Flt.counts h) _, seen_raise_self, seen_congr (congrArg Flt.counts hs1.2.2.2)]
  have hoffer : ∀ c, c < 8 → (bslot s2 (2 + p) c).offer = none := fun c hc => lapseOffers_offer hc
  clear_value s2
  have hkeep : ∀ {γ : Type} (π : State → γ), π (stopSwap s2) = π s2 → π (if swapUses s2 p then stopSwap s2 else s2) = π s2 :=
    fun π h => ite_keeps h rfl
  have h1 := hkeep State.sites (stopSwap_field State.sites (fun _ _ => rfl) (fun _ _ => rfl) (fun _ _ => rfl)
    (fun _ _ _ => raise_sites ..) (fun _ _ => rfl) s2)
  have h2 := hkeep State.cmp (stopSwap_field State.cmp (fun _ _ => rfl) (fun _ _ => rfl) (fun _ _ => rfl)
    (fun _ _ _ => raise_cmp ..) (fun _ _ => rfl) s2)
  have h3 := hkeep (seen · 0x4E01) ((Aside.refl.stopSwap (t := s2)).seen _ (by decide) (by decide) (by decide) (by decide))
  rw [partnerOf_congr (congrArg Sites.partners (h1.trans hsites)), bslot_congr h2]
  obtain ⟨ha, hb, hc, -⟩ := hs1
  exact ⟨ha, hb, hc, h3.trans hseen, hoffer⟩

end

/-- Settles O51: from the comparison, the fence and the loss of a silent partner's link. -/
theorem configurationDigests : Obligations.ConfigurationDigests := by
  unfold Obligations.ConfigurationDigests
  refine ⟨?send, ?digest, ?list, ?fence, ?down⟩
  case send =>
    intro s p hp hready hst hpaired
    refine .of_next rfl ⟨fun h => ?_, fun h => if_neg (by omega)⟩
    rw [digestSend, if_pos ⟨hready, hst, h⟩, partnerOf_updPartner hp]
    exact ⟨rfl, sendCtl_ctlQueue hp rfl⟩
  case digest =>
    intro s p level scope groups hp hb hst hpaired
    generalize hu : updSched (p + 1) (fun c => { c with bucket := bucketNow s p - 1000, policedTick := some s.tick }) s = u
    have hst' : (keysOf u p).st = 4 := by rw [← hu]; exact hst
    have hpart : partnerOf u = partnerOf s := by rw [← hu]; rfl
    have htick : (noteLevel level u).tick = s.tick := by rw [← hu]; rfl
    have hgd : groupsDigest (noteLevel level u) p = groupsDigest (noteLevel level s) p := by rw [← hu]; rfl
    have hsd : scopeDigest (noteLevel level u) p = scopeDigest (noteLevel level s) p := by rw [← hu]; rfl
    have hk := fun {γ : Type} (π : Partner → γ) hπ => digestRx_partner (s := u) (level := level) (scope := scope) (groups := groups) π hπ
      hst' (by rw [hpart, hpaired])
    have hn : partnerOf (noteLevel level u) p = { partnerOf s p with level := min (partnerOf s p).level level } := by
      rw [partnerOf_noteLevel hp, hpart]
    rw [hgd, hsd] at hk
    simp only [noteComparison, partnerOf_updPartner hp, hn, htick] at hk
    refine .of_next (congrArg Host.Outcome.next ((policed_taken hb).trans (congrArg _ hu))) ⟨?_, ?_, ?_, ?_, fun h => ?_, fun h => ?_⟩
    · exact hk (·.compared) fun _ _ _ => rfl
    · exact hk (·.linkDown) fun _ _ _ => rfl
    · exact hk (·.level) fun _ _ _ => rfl
    · exact hk (·.agreedAll) fun _ _ _ => rfl
    · exact (hk (·.scopeSince) fun _ _ _ => rfl).trans (if_pos (beq_iff_eq.mpr h))
    · exact (hk (·.scopeSince) fun _ _ _ => rfl).trans (if_neg (mt beq_iff_eq.mp h))
  case list =>
    intro s p entries hp hb hst hpaired
    have hrun := (policed_taken (f := digestListRx p entries) hb).trans (if_neg (by
      rw [not_or, not_not, not_not]
      exact ⟨hst, hpaired⟩))
    refine .of_next (congrArg Host.Outcome.next hrun) ?_
    rw [partnerOf_updPartner hp]
    rfl
  case fence =>
    intro s p e hp hf hs hg
    refine .of_next rfl ⟨fun he => ?_, fun he => ?_⟩
    · obtain ⟨h1, h2, h3, h4⟩ := fenceScope_stands hp hf hs he
      rw [fenceGroups_none (h2.trans hg)]
      exact ⟨h1, h3, h4⟩
    · have hsame : fenceScope p s = s := if_neg (by simp [hs, persists, he])
      rw [hsame, fenceGroups_none hg]
  case down =>
    intro s p hp hd
    refine .of_next (congrArg Host.Outcome.next (if_pos hp)) ⟨linkLost_silent hp hd, fun h => if_pos (.inr h)⟩

end Sys2Proof.Machine

/-! R169, R197, R202, R479, R480, R485, R499: sites apart. -/

namespace Sys2Proof.Machine

open Sys2Proof

section

/-! ### Masks of sites -/

/-- A sum of powers of two has the bits that it was made of. -/
theorem bitSum_spec (c : Nat → Bool) (m : Nat) : (List.range m).foldl (fun n i => if c i then n + 2 ^ i else n) 0 < 2 ^ m ∧
    ∀ k, k < m → ((List.range m).foldl (fun n i => if c i then n + 2 ^ i else n) 0).testBit k = c k := by
  induction m with
  | zero => exact ⟨by simp, fun k hk => absurd hk (Nat.not_lt_zero k)⟩
  | succ m ih =>
    obtain ⟨hlt, hbit⟩ := ih
    rw [List.range_succ, List.foldl_append, List.foldl_cons, List.foldl_nil]
    generalize (List.range m).foldl (fun n i => if c i then n + 2 ^ i else n) 0 = n at hlt hbit
    cases hc : c m with
    | false =>
      refine ⟨by simp; omega, fun k hk => ?_⟩
      rcases Nat.lt_succ_iff_lt_or_eq.mp hk with h | rfl
      · exact hbit k h
      · rw [hc]
        exact Nat.testBit_lt_two_pow hlt
    | true =>
      refine ⟨by simp; omega, fun k hk => ?_⟩
      rw [if_pos rfl, Nat.add_comm]
      rcases Nat.lt_succ_iff_lt_or_eq.mp hk with h | rfl
      · rw [Nat.testBit_two_pow_add_gt h]
        exact hbit k h
      · rw [Nat.testBit_two_pow_add_eq, Nat.testBit_lt_two_pow hlt, hc]
        rfl

theorem bitOf_maskMinus {a b i : Nat} (hi : i < 8) : bitOf (maskMinus a b) i = (bitOf a i && !bitOf b i) := by
  rw [bitOf_eq_testBit]
  exact (bitSum_spec (fun i => bitOf a i && !bitOf b i) 8).2 i hi

theorem sitesOf_congr {a b : Nat} (h : ∀ i, i < 8 → bitOf a i = bitOf b i) : sitesOf a = sitesOf b :=
  List.filter_congr fun i hi => h i (List.mem_range.mp hi)

theorem sitesOf_zero : sitesOf 0 = [] := by decide

theorem sitesOf_maskMinus_zero {a : Nat} : sitesOf (maskMinus a 0) = sitesOf a :=
  sitesOf_congr fun i hi => by
    rw [bitOf_maskMinus hi]
    simp [bitOf]

theorem sitesOf_zero_maskMinus {a : Nat} : sitesOf (maskMinus 0 a) = [] :=
  (sitesOf_congr fun i hi => by
    rw [bitOf_maskMinus hi]
    simp [bitOf]).trans sitesOf_zero

end

section

variable {s : State} {g rank : Nat} {b : GroupTable} {m : Member}

/-! ### Absence (R479) -/

/-- The declaration of absent sites raises one event for each, and notes the set with its episode. -/
theorem noteAbsence_spec {now : Nat} (h0 : absentMask s g = 0) (hn : now ≠ 0) :
    (groupSites (noteAbsence g b now s) g).absent = now ∧ (groupSites (noteAbsence g b now s) g).episode = some s.tick ∧
      seen (noteAbsence g b now s) 0x8E01 = seen s 0x8E01 + (sitesOf now).length ∧
      (noteAbsence g b now s).sites.partners = s.sites.partners ∧ (noteAbsence g b now s).sites.silo = s.sites.silo ∧
      (noteAbsence g b now s).coll = s.coll ∧ (noteAbsence g b now s).tick = s.tick := by
  unfold noteAbsence
  extract_lets old s1 s2 prim
  have hold : old = 0 := h0
  have hs1 : s1 = (sitesOf now).foldl (fun a i => bump 0x000940B4 (raise 0x8E01 [i, g] a)) s := by
    rw [← sitesOf_maskMinus_zero, ← hold]
  have hs2 : s2 = s1 := by
    simp only [s2]
    rw [hold, sitesOf_zero_maskMinus]
    rfl
  have hkeep : ∀ {γ : Type} (π : State → γ), (∀ c a x, π (raise c a x) = π x) → (∀ r x, π (bump r x) = π x) → π s2 = π s :=
    fun π hr hb => by
      rw [hs2, hs1]
      exact foldl_keeps (π := π) (fun _ _ => (hb ..).trans (hr ..)) _ s
  have hseen : seen s2 0x8E01 = seen s 0x8E01 + (sitesOf now).length := by
    rw [hs2, hs1]
    clear * -
    induction sitesOf now generalizing s with
    | nil => rfl
    | cons i l ih =>
      rw [List.foldl_cons, ih, seen_bump, seen_raise_self, List.length_cons]
      omega
  have hsites := hkeep State.sites raise_sites fun _ _ => rfl
  have hcoll := hkeep State.coll raise_coll fun _ _ => rfl
  have htick := hkeep State.tick raise_tick fun _ _ => rfl
  clear_value s2
  refine ⟨?_, ?_, hseen, ?_, ?_, hcoll, htick⟩
  · rw [groupSites_updGroupSites, if_neg hn, if_pos hold]
  · rw [groupSites_updGroupSites, if_neg hn, if_pos hold]
  · exact (congrArg Sites.partners hsites :)
  · exact (congrArg Sites.silo hsites :)

/-- A far member that has gone silent is latched. -/
theorem latchSilence_one (hfar : farRanks b = [(rank, m)]) (hlost : g ∉ (partnerOf s m.endpoint).lost)
    (hs : silentPort s m.endpoint (absenceTicks b) = true) :
    latchSilence g b s = updPartner m.endpoint (fun y => { y with lost := insertRising g y.lost }) s := by
  simp only [latchSilence, hfar, List.foldl_cons, List.foldl_nil]
  rw [if_neg (by simpa using hlost), if_pos hs]

/-- The sites that a latched far member makes absent. -/
theorem absentNow_one (hfar : farRanks b = [(rank, m)]) (hlost : g ∈ (partnerOf s m.endpoint).lost)
    (hr : mgetD (partnerOf s m.endpoint).reported g 0 = 0) :
    absentNow s g b = maskMinus (m.coveredSites &&& b.sites) (siteBit b.localSite) := by
  have hp : portAbsent s g m = m.coveredSites := by
    simp [portAbsent, hlost, hr]
  simp [absentNow, hfar, hp]

/-- The limit on fallow by time raises no event of an absence, and leaves the absent sites. -/
theorem testFallowLimit_keeps : (groupSites (testFallowLimit g b s) g).absent = (groupSites s g).absent ∧
    (groupSites (testFallowLimit g b s) g).episode = (groupSites s g).episode ∧
    seen (testFallowLimit g b s) 0x8E01 = seen s 0x8E01 ∧ (testFallowLimit g b s).sites.partners = s.sites.partners ∧
    (testFallowLimit g b s).sites.silo = s.sites.silo := by
  have hlim : (groupSites (fallowLimit g s) g).absent = (groupSites s g).absent ∧
      (groupSites (fallowLimit g s) g).episode = (groupSites s g).episode ∧
      seen (fallowLimit g s) 0x8E01 = seen s 0x8E01 ∧ (fallowLimit g s).sites.partners = s.sites.partners ∧
      (fallowLimit g s).sites.silo = s.sites.silo := by
    unfold fallowLimit
    extract_lets was s1
    have hs1 : groupSites s1 g = { groupSites s g with hold := true, limitRaised := true } := groupSites_updGroupSites
    have hk : s1.flt = s.flt ∧ s1.sites.partners = s.sites.partners ∧ s1.sites.silo = s.sites.silo := ⟨rfl, rfl, rfl⟩
    obtain ⟨hflt, hpart, hsilo⟩ := hk
    clear_value s1
    have hsites : (if was then s1 else raise 0x8E02 [g] s1).sites = s1.sites := ite_keeps (π := State.sites) rfl (raise_sites ..)
    have hseen : seen (if was then s1 else raise 0x8E02 [g] s1) 0x8E01 = seen s1 0x8E01 :=
      ite_keeps (π := (seen · 0x8E01)) rfl ((seen_raise _ _ _ _ (by decide) (by decide)).trans (if_neg (by decide)))
    have hg : groupSites (if was then s1 else raise 0x8E02 [g] s1) g = groupSites s1 g := by rw [groupSites, hsites, groupSites]
    rw [hg, hs1, hsites, hseen]
    exact ⟨rfl, rfl, seen_congr (congrArg Flt.counts hflt) _, hpart, hsilo⟩
  unfold testFallowLimit
  extract_lets x
  split
  · exact hlim
  · exact ⟨rfl, rfl, rfl, rfl, rfl⟩

/-- SITE-STATEs change of a partner what waits, what is held and whether it was down. -/
theorem sendSiteStates_keeps (u : State) : (sendSiteStates u s).sites.groups = s.sites.groups ∧
    seen (sendSiteStates u s) 0x8E01 = seen s 0x8E01 ∧ (sendSiteStates u s).sites.silo = s.sites.silo ∧
    ∀ k, (partnerOf (sendSiteStates u s) k).lost = (partnerOf s k).lost := by
  have hone : ∀ {γ : Type} (π : State → γ), (∀ x q f, (∀ y : Partner, (f y).lost = y.lost) → π (updPartner q f x) = π x) →
      π (sendSiteStates u s) = π s := fun π hp => by
    refine foldl_keeps (π := π) (fun a p => ?_) _ s
    refine (hp _ _ (fun x => { x with wasDown := x.linkDown }) fun _ => rfl).trans ?_
    unfold sendSiteState
    split
    · rfl
    · extract_lets fs body
      rw [hp]
      · unfold sendCtl
        refine hp _ _ _ fun y => ?_
        split
        · rfl
        · rfl
      · exact fun _ => rfl
  exact ⟨hone (·.sites.groups) fun _ _ _ _ => rfl, hone (seen · 0x8E01) fun _ _ _ _ => rfl, hone (·.sites.silo) fun _ _ _ _ => rfl,
    fun k => hone (fun x => (partnerOf x k).lost) fun _ _ _ hf => partnerOf_updPartner_keeps hf⟩

theorem takeSlots_none (h : s.sites.silo = []) : takeSlots s = s := by simp [takeSlots, h]

/-- A group without instances: the sites behind a silent far member are declared absent. -/
theorem decideGroup_silent (hi : s.coll.insts = []) (hfar : farRanks b = [(rank, m)]) (hm : m.endpoint < 4)
    (hlost : g ∉ (partnerOf s m.endpoint).lost) (hs : silentPort s m.endpoint (absenceTicks b) = true)
    (hr : mgetD (partnerOf s m.endpoint).reported g 0 = 0) (h0 : absentMask s g = 0) :
    let now := maskMinus (m.coveredSites &&& b.sites) (siteBit b.localSite)
    absentMask (decideGroup g b s) g = now ∧ g ∈ (partnerOf (decideGroup g b s) m.endpoint).lost ∧
      (now ≠ 0 → (groupSites (decideGroup g b s) g).episode = some s.tick) ∧
      seen (decideGroup g b s) 0x8E01 = seen s 0x8E01 + (sitesOf now).length ∧ (decideGroup g b s).sites.silo = s.sites.silo := by
  intro now
  unfold decideGroup
  extract_lets s1 old now' s2 s3
  have hs1 : s1 = updPartner m.endpoint (fun y => { y with lost := insertRising g y.lost }) s := latchSilence_one hfar hlost hs
  have hp1 : (partnerOf s1 m.endpoint).lost = insertRising g (partnerOf s m.endpoint).lost ∧
      (partnerOf s1 m.endpoint).reported = (partnerOf s m.endpoint).reported := by
    rw [hs1, partnerOf_updPartner hm]
    exact ⟨rfl, rfl⟩
  have hmem : g ∈ (partnerOf s1 m.endpoint).lost := hp1.1 ▸ mem_insertRising ..
  have hk1 : s1.coll = s.coll ∧ s1.flt = s.flt ∧ s1.tick = s.tick ∧ s1.sites.silo = s.sites.silo ∧ groupSites s1 g = groupSites s g := by
    rw [hs1]
    exact ⟨rfl, rfl, rfl, rfl, rfl⟩
  obtain ⟨hcoll, hflt, htick, hsilo, hgs⟩ := hk1
  have hold : old = 0 := (congrArg GroupSites.absent hgs).trans h0
  have hnow : now' = now := absentNow_one hfar hmem (hp1.2.symm ▸ hr)
  clear_value s1
  have h2 : (groupSites s2 g).absent = now ∧ (now ≠ 0 → (groupSites s2 g).episode = some s.tick) ∧
      seen s2 0x8E01 = seen s 0x8E01 + (sitesOf now).length ∧ s2.sites.partners = s1.sites.partners ∧
      s2.sites.silo = s.sites.silo ∧ s2.coll = s.coll := by
    by_cases hz : now = 0
    · have hs2 : s2 = s1 := if_pos (hnow.trans (hz.trans hold.symm))
      rw [hs2, hz, sitesOf_zero]
      exact ⟨hold, fun h => absurd rfl h, seen_congr (congrArg Flt.counts hflt) _, rfl, hsilo, hcoll⟩
    · have hs2 : s2 = noteAbsence g b now s1 := by
        simp only [s2]
        rw [if_neg (by omega), hnow]
      obtain ⟨ha, hb, hc, hd, he, hf, -⟩ := noteAbsence_spec (b := b) (hold : absentMask s1 g = 0) hz
      rw [hs2]
      exact ⟨ha, fun _ => hb.trans (congrArg some htick), hc.trans (congrArg (· + _) (seen_congr (congrArg Flt.counts hflt) _)), hd,
        he.trans hsilo, hf.trans hcoll⟩
  have hs3 : s3 = s2 := if_neg (by simp [hold])
  clear_value s2 s3
  subst hs3
  obtain ⟨ha, hb, hc, hd, he, hf⟩ := h2
  have hfe : fallowEntry g s3 = s3 := by simp [fallowEntry, hf, hi]
  rw [hfe]
  obtain ⟨k1, k2, k3, k4, k5⟩ := testFallowLimit_keeps (s := s3) (g := g) (b := b)
  refine ⟨k1.trans ha, ?_, fun h => k2.trans (hb h), k3.trans hc, k5.trans he⟩
  rw [partnerOf_congr (k4.trans hd)]
  exact hmem

/-- A SITE-STATE sets what the far member reports of a group that it names once. -/
theorem mget_foldl_mset {l : List (Nat × Nat)} {r : SMap Nat} {n : Nat} (h : ∀ x ∈ l, x.1 ≠ n) :
    mget (l.foldl (fun a e => mset a e.1 e.2) r) n = mget r n :=
  List.foldlRecOn (motive := fun x => mget x n = mget r n) l _ rfl fun _ hx a ha => (mget_mset_ne _ _ (h a ha)).trans hx

end

/-- Settles O52: from the absence decision of one group, and from the messages between far gateways. -/
theorem sitesApart : Obligations.SitesApart := by
  unfold Obligations.SitesApart
  refine ⟨?absent, ?limit, ?state, ?ack, fun _ _ _ _ _ _ _ _ => .of_next rfl ⟨rfl, rfl⟩, fun _ _ _ _ _ _ => .of_next rfl ⟨rfl, rfl⟩,
    fun _ _ _ _ => .of_next rfl ⟨rfl, rfl⟩, ?promote⟩
  case absent =>
    intro s g rank r b m hg hcur hi hsilo hfar hm hlost hs hr h0
    obtain ⟨ha, hl, he, hseen, hsi⟩ := decideGroup_silent hi hfar hm hlost hs hr h0
    have hrun : exec .siteAbsent s = .next (sendSiteStates s (decideGroup g b s)) := by
      refine congrArg Host.Outcome.next ?_
      simp only [decideAbsence, hg, List.foldl_cons, List.foldl_nil, hcur]
      exact takeSlots_none ((sendSiteStates_keeps s).2.2.1.trans (hsi.trans hsilo))
    obtain ⟨k1, k2, -, k4⟩ := sendSiteStates_keeps (s := decideGroup g b s) s
    have hk : groupSites (sendSiteStates s (decideGroup g b s)) g = groupSites (decideGroup g b s) g := by
      rw [groupSites, k1, groupSites]
    refine .of_next hrun ⟨?_, ?_, fun h => ?_, k2.trans hseen⟩
    · rw [absentMask, hk]
      exact ha
    · rw [k4]
      exact hl
    · rw [hk]
      exact he h
  case limit =>
    intro s g e r b hg hcur hap hlim hep
    have hrun : exec .fallowLimit s = .next (testFallowLimit g b s) := by
      refine congrArg Host.Outcome.next ?_
      simp only [hg, List.foldl_cons, List.foldl_nil, hcur]
    refine .of_next hrun ⟨fun h => ?_, fun h => ?_⟩
    · rw [testFallowLimit, if_pos (by simp [hap, hlim, hep, h])]
      unfold fallowLimit
      extract_lets was s1
      have hs1 : groupSites s1 g = { groupSites s g with hold := true, limitRaised := true } := groupSites_updGroupSites
      have hflt : s1.flt = s.flt := rfl
      clear_value s1
      have hw : was = false := hlim
      rw [hw, if_neg (by decide)]
      have hgs : groupSites (raise 0x8E02 [g] s1) g = groupSites s1 g := by rw [groupSites, raise_sites, groupSites]
      rw [hgs, hs1, seen_raise_self, seen_congr (congrArg Flt.counts hflt)]
      exact ⟨rfl, rfl, rfl⟩
    · exact if_neg (by simp [hep, h])
  case state =>
    intro s p line g gs seqs hp hb hgs
    have hrun := policed_taken (f := siteStateRx p (g :: gs) seqs line) hb
    generalize hu : updSched (p + 1) (fun c => { c with bucket := bucketNow s p - 1000, policedTick := some s.tick }) s = u at hrun
    have hpart : partnerOf u = partnerOf s := by rw [← hu]; rfl
    refine .of_next (congrArg Host.Outcome.next hrun) ⟨?_, ?_⟩
    · unfold siteStateRx
      extract_lets put
      rw [partnerOf_sendCtl_field (·.reported) fun _ _ _ => rfl, partnerOf_updPartner hp]
      exact (mget_foldl_mset hgs).trans (mget_mset_same ..)
    · unfold siteStateRx
      extract_lets put
      rw [sendCtl_ctlQueue hp rfl, partnerOf_updPartner hp, hpart]
  case ack =>
    intro s p g line hp hb
    have hrun := policed_taken (f := siteAckRx p g line) hb
    generalize hu : updSched (p + 1) (fun c => { c with bucket := bucketNow s p - 1000, policedTick := some s.tick }) s = u at hrun
    have hpart : partnerOf u = partnerOf s := by rw [← hu]; rfl
    refine .of_next (congrArg Host.Outcome.next hrun) ⟨fun h => ?_, fun h => ?_⟩
    · rw [siteAckRx, hpart, if_pos h, partnerOf_updPartner hp]
      exact ⟨rfl, rfl⟩
    · rw [siteAckRx, hpart, if_neg h, ← hu]
      rfl
  case promote =>
    intro s p at_ d hp hb
    refine .of_next (congrArg Host.Outcome.next (policed_taken hb)) ?_
    rw [promoteRx, partnerOf_updPartner hp]
    exact ⟨rfl, rfl⟩

end Sys2Proof.Machine

/-! R235 to R241, R244: the handshake of a blend between gateways. -/

namespace Sys2Proof.Machine

open Sys2Proof

/-- A fold reaches what one of its elements brings about and every other keeps. -/
theorem foldl_reaches {α β : Type} {P : β → Prop} {f : β → α → β} {k : α} {l : List α} {b : β} (hkeep : ∀ b a, P b → P (f b a))
    (hset : ∀ b, P (f b k)) (h : P b ∨ k ∈ l) : P (l.foldl f b) := by
  induction l generalizing b with
  | nil => exact h.resolve_right List.not_mem_nil
  | cons a l ih =>
    refine ih ?_
    rcases h with h | h
    · exact .inl (hkeep _ _ h)
    · rcases List.mem_cons.mp h with rfl | h
      · exact .inl (hset _)
      · exact .inr h

theorem mget_eq_none {α : Type} {m : SMap α} {n : Nat} (h : n ∉ m.map (·.1)) : mget m n = none := by
  induction m with
  | nil => rfl
  | cons e m ih =>
    obtain ⟨hne, hm⟩ := not_or.mp (mt List.mem_cons.mpr h)
    exact (if_neg (Ne.symm hne)).trans (ih hm)

/-- What the bucket of a port leaves: everything but its schedulers. -/
structure Passed (s u : State) : Prop where
  cmp : u.cmp = s.cmp
  flt : u.flt = s.flt
  tick : u.tick = s.tick
  mgt : u.mgt = s.mgt
  sites : u.sites = s.sites

section

variable {s t : State} {p c x : Nat}

/-- A control message that its port's bucket lets pass is handled. -/
theorem policed_passes (hb : 1000 ≤ bucketNow s p) : ∃ u, Passed s u ∧ ∀ f, policed p f s = f u :=
  ⟨updSched (p + 1) (fun c => { c with bucket := bucketNow s p - 1000, policedTick := some s.tick }) s, ⟨rfl, rfl, rfl, rfl, rfl⟩,
    fun _ => policed_taken hb⟩

theorem Passed.bslot {u : State} (h : Passed s u) : bslot u = bslot s := bslot_congr h.cmp

theorem Passed.seen {u : State} (h : Passed s u) (c : Nat) : seen u c = seen s c := seen_congr (congrArg Flt.counts h.flt) c

theorem Passed.partnerOf {u : State} (h : Passed s u) : partnerOf u = partnerOf s := partnerOf_congr (congrArg Sites.partners h.sites)

/-! ### Slots (R232 to R235) -/

theorem bslot_updSlot_ne {ctx cls : Nat} {f : BSlot → BSlot} (h : ctx * 8 + cls ≠ c * 8 + x) :
    bslot (updSlot ctx cls f s) c x = bslot s c x := by rw [bslot_updSlot, if_neg h]

/-- The blend made current, with its event. -/
theorem makeCurrent_spec {b : Blend} : bslot (makeCurrent c x b s) c x =
      { bslot s c x with current := some b, previous := (bslot s c x).current, lastInstall := some s.tick } ∧
    seen (makeCurrent c x b s) 0x1602 = seen s 0x1602 + 1 := by
  unfold makeCurrent
  generalize hu : updSlot c x _ s = u
  have hs : bslot (bump 0x00140060 (raise 0x1602 [c, x, b.id] u)) = bslot u := bslot_congr (raise_cmp ..)
  have hf : u.flt = s.flt := by rw [← hu]; rfl
  rw [hs, seen_bump, seen_raise_self, seen_congr (congrArg Flt.counts hf), ← hu, bslot_updSlot_self]
  exact ⟨rfl, rfl⟩

/-- The previous blend gone from its slot, with its event. -/
theorem retirePrevious_some {b : Blend} (h : (bslot s c x).previous = some b) : bslot (retirePrevious c x s) c x =
      { bslot s c x with previous := none, retire := false, switchSeqs := none } ∧
    (∀ d, d ≠ 0x1603 → d ≠ 0x4F02 → d ≠ 0x4F03 → seen (retirePrevious c x s) d = seen s d) ∧
    seen (retirePrevious c x s) 0x1603 = seen s 0x1603 + 1 := by
  unfold retirePrevious
  simp only [h]
  generalize hu : updSlot c x _ s = u
  have hs : bslot (bump 0x00140064 (raise 0x1603 [c, x, b.id] u)) = bslot u := bslot_congr (raise_cmp ..)
  have hf : u.flt = s.flt := by rw [← hu]; rfl
  rw [hs]
  refine ⟨?_, fun d h1 h2 h3 => ?_, ?_⟩
  · rw [← hu, bslot_updSlot_self]
  · rw [seen_bump, seen_raise _ _ _ _ h2 h3, if_neg h1.symm, seen_congr (congrArg Flt.counts hf)]
  · rw [seen_bump, seen_raise_self, seen_congr (congrArg Flt.counts hf)]

theorem bslot_sendCtl (q ty : Nat) (fields : List Nat) (body : List Byte) (s : State) : bslot (sendCtl q ty fields body s) = bslot s := rfl

theorem seen_sendCtl (q ty : Nat) (fields : List Nat) (body : List Byte) (s : State) (d : Nat) :
    seen (sendCtl q ty fields body s) d = seen s d := rfl

/-- Whether the previous blend is retired or not, the current and the pending one stay. -/
theorem tryRetireAck_keeps : (bslot (tryRetireAck p c s) (6 + p) c).current = (bslot s (6 + p) c).current ∧
    (bslot (tryRetireAck p c s) (6 + p) c).pending = (bslot s (6 + p) c).pending ∧
    seen (tryRetireAck p c s) 0x1602 = seen s 0x1602 := by
  unfold tryRetireAck
  extract_lets ctx
  split
  · next seqs b hseq hprev =>
    split
    · obtain ⟨hb, hseen, -⟩ := retirePrevious_some hprev
      rw [bslot_sendCtl, seen_sendCtl, hseen _ (by decide) (by decide) (by decide)]
      exact ⟨(congrArg BSlot.current hb :), (congrArg BSlot.pending hb :), rfl⟩
    · exact ⟨rfl, rfl, rfl⟩
  · exact ⟨rfl, rfl, rfl⟩

/-! ### Messages (R235 to R240) -/

/-- A BLEND-SWITCH that names the pending blend makes it current. -/
theorem blendSwitch_pending {seqs : SMap Nat} {b : Blend} (h : (bslot s (6 + p) c).pending = some b) :
    (bslot (blendSwitch p c b.id seqs s) (6 + p) c).current = some b ∧ (bslot (blendSwitch p c b.id seqs s) (6 + p) c).pending = none ∧
      seen (blendSwitch p c b.id seqs s) 0x1602 = seen s 0x1602 + 1 := by
  unfold blendSwitch
  extract_lets ctx s1
  have hs1 : s1 = makeCurrent (6 + p) c b (updSlot (6 + p) c (fun x => { x with pending := none }) s) := by
    have hp : pendingToCurrent (6 + p) c s = makeCurrent (6 + p) c b (updSlot (6 + p) c (fun x => { x with pending := none }) s) := by
      simp only [pendingToCurrent, h]
    rw [← hp]
    exact if_pos (by simp [ctx, lIn, h])
  obtain ⟨hb, hseen⟩ := makeCurrent_spec (s := updSlot (6 + p) c (fun x => { x with pending := none }) s) (c := 6 + p) (x := c) (b := b)
  rw [← hs1] at hb hseen
  have h1 : (bslot s1 (6 + p) c).current = some b ∧ (bslot s1 (6 + p) c).pending = none ∧ seen s1 0x1602 = seen s 0x1602 + 1 := by
    refine ⟨congrArg BSlot.current hb, ?_, hseen⟩
    rw [hb, bslot_updSlot_self]
  clear_value s1
  obtain ⟨ha, hc, hd⟩ := h1
  split
  · obtain ⟨k1, k2, k3⟩ := tryRetireAck_keeps (p := p) (c := c) (s := updSlot ctx c (fun x => { x with switchSeqs := some seqs }) s1)
    have hu : bslot (updSlot ctx c (fun x => { x with switchSeqs := some seqs }) s1) (6 + p) c =
        { bslot s1 (6 + p) c with switchSeqs := some seqs } := bslot_updSlot_self
    exact ⟨k1.trans ((congrArg BSlot.current hu).trans ha), k2.trans ((congrArg BSlot.pending hu).trans hc), k3.trans hd⟩
  · exact ⟨ha, hc, hd⟩

/-- An offer withdrawn leaves the rest of its slot, but for what was staged. -/
theorem withdrawOffer_slot {γ : Type} {st d : Nat} (π : BSlot → γ) (hπ : ∀ b o g, π { b with offer := o, staged := g } = π b) :
    π (bslot (withdrawOffer c x st d s) c x) = π (bslot s c x) := by
  rw [bslot_congr withdrawOffer_cmp]
  split
  · rfl
  · rw [bslot_updSlot_self]
    exact hπ _ none none

/-- A resynchronisation that a partner asks for offers the current table again. -/
theorem resyncAsked_spec {b : Blend} (hcur : (bslot s (2 + p) c).current = some b) (hraw : (bslot s (2 + p) c).rawHold = false) :
    (bslot (resyncAsked p c s) (2 + p) c).resync = true ∧ (bslot (resyncAsked p c s) (2 + p) c).resyncTick = s.tick ∧
      (bslot (resyncAsked p c s) (2 + p) c).offer = some ⟨b, s.tick, 3, none, false, false⟩ := by
  unfold resyncAsked
  extract_lets ctx s1
  have h1 : (bslot s1 (2 + p) c).current = some b ∧ (bslot s1 (2 + p) c).rawHold = false :=
    ⟨(withdrawOffer_slot (·.current) fun _ _ _ => rfl).trans hcur, (withdrawOffer_slot (·.rawHold) fun _ _ _ => rfl).trans hraw⟩
  clear_value s1
  have hu : ∀ f : BSlot → BSlot, bslot (updSlot ctx c f s1) (2 + p) c = f (bslot s1 (2 + p) c) := fun _ => bslot_updSlot_self
  rw [hu]
  refine ⟨rfl, rfl, ?_⟩
  simp [h1.1, h1.2]

/-! ### Timeouts and windows (R238, R241, R244) -/

/-- The end of a window for one slot: no other slot changes. -/
theorem windowOfSlot_ne {k : Nat} (h : k ≠ c * 8 + x) : bslot (windowOfSlot k s) c x = bslot s c x := by
  have hk : k / 8 * 8 + k % 8 ≠ c * 8 + x := by omega
  unfold windowOfSlot
  extract_lets ctx cls b n s1 rested s2
  split
  · rfl
  · have h1 : bslot s1 c x = bslot s c x := bslot_updSlot_ne hk
    clear_value s1
    have h2 : bslot s2 c x = bslot s1 c x := by
      refine ite_keeps (π := fun y => bslot y c x) ?_ rfl
      unfold propose
      extract_lets b'
      split
      · rfl
      · extract_lets t
        refine ite_keeps (π := fun y => bslot y c x) (ite_keeps (π := fun y => bslot y c x) rfl (bslot_updSlot_ne hk)) ?_
        rw [show ∀ y, bslot (bump 0x0014006C y) = bslot y from fun _ => rfl, bslot_congr (raise_cmp ..)]
        exact bslot_updSlot_ne hk
    clear_value s2
    exact (bslot_updSlot_ne hk).trans (h2.trans h1)

/-- The end of a window clears the counters of an encoding context. -/
theorem windowOfSlot_counts (hc : c < 6) (hx : x < 8) : (bslot (windowOfSlot (c * 8 + x) s) c x).counts = [] := by
  have h1 : (c * 8 + x) / 8 = c := by omega
  have h2 : (c * 8 + x) % 8 = x := by omega
  unfold windowOfSlot
  simp only [h1, h2]
  split
  · next h =>
    rcases h with h | ⟨-, h⟩
    · omega
    · exact List.isEmpty_iff.mp h
  · rw [bslot_updSlot_self]

/-- An offer unanswered in time is withdrawn, with its event and count. -/
theorem offerTimeout_due {o : Offer} (hx : x < 8) (h : (bslot s c x).offer = some o) (hsent : o.sent = true) (hacc : o.accepted = false)
    (ho : o.origin ≠ 3) (ht : o.tick + hsTimeout s ≤ s.tick) : (bslot (offerTimeout (c * 8 + x) s) c x).offer = none ∧
      seen (offerTimeout (c * 8 + x) s) 0x4602 = seen s 0x4602 + 1 ∧
      regVal (offerTimeout (c * 8 + x) s) 0x00140068 = min (2 ^ 32 - 1) (regVal s 0x00140068 + 1) := by
  have h1 : (c * 8 + x) / 8 = c := by omega
  have h2 : (c * 8 + x) % 8 = x := by omega
  unfold offerTimeout
  simp only [h1, h2, h]
  rw [if_pos ⟨hsent, by simp [hacc], ho, ht⟩]
  have hoffer := withdrawOffer_offer (s := s) (ctx := c) (cls := x) (st := stTimeout) (d := 0)
  have hflt := withdrawOffer_field State.flt (fun _ _ _ _ _ => mbxAnswer_flt) (fun _ _ _ _ => rfl) c x stTimeout 0 s
  have hreg := withdrawOffer_field (regVal · 0x00140068) (fun _ _ _ _ _ => mbxAnswer_regVal (by decide)) (fun _ _ _ _ => rfl) c x stTimeout 0 s
  generalize withdrawOffer c x stTimeout 0 s = u at hoffer hflt hreg
  refine ⟨?_, ?_, ?_⟩
  · rw [show ∀ y, bslot (bump 0x00140068 y) = bslot y from fun _ => rfl, bslot_congr (raise_cmp ..)]
    exact hoffer
  · rw [seen_bump, seen_raise_self, seen_congr (congrArg Flt.counts hflt)]
  · rw [regVal_bump, if_pos rfl, raise_regVal _ _ _ _ (by decide), hreg]

/-- A resynchronisation that has failed is counted, and the third in a row holds the class raw. -/
theorem resyncFailed_spec : (bslot (resyncFailed p x s) (2 + p) x).resync = false ∧
    (bslot (resyncFailed p x s) (2 + p) x).resyncFails = (bslot s (2 + p) x).resyncFails + 1 ∧
    (bslot (resyncFailed p x s) (2 + p) x).rawHold = decide (2 ≤ (bslot s (2 + p) x).resyncFails) ∧
    (2 ≤ (bslot s (2 + p) x).resyncFails → seen (resyncFailed p x s) 0x8601 = seen s 0x8601 + 1) := by
  unfold resyncFailed
  extract_lets ctx n s1
  have h1 : (bslot s1 (2 + p) x).resync = false ∧ (bslot s1 (2 + p) x).resyncFails = n ∧
      (bslot s1 (2 + p) x).rawHold = decide (3 ≤ n) := by
    have hu : ∀ f : BSlot → BSlot, bslot (updSlot ctx x f s) (2 + p) x = f (bslot s (2 + p) x) := fun _ => bslot_updSlot_self
    simp only [s1, hu]
    exact ⟨trivial, trivial, trivial⟩
  have hf : s1.flt = s.flt := rfl
  have hn : n = (bslot s (2 + p) x).resyncFails + 1 := rfl
  clear_value s1 n
  have hk : bslot (if 3 ≤ n then raise 0x8601 [ctx, x] s1 else s1) = bslot s1 :=
    ite_keeps (π := bslot) (bslot_congr (raise_cmp ..)) rfl
  obtain ⟨ha, hb, hc⟩ := h1
  rw [hk]
  refine ⟨ha, hb.trans hn, hc.trans (decide_eq_decide.mpr (by omega)), fun h => ?_⟩
  rw [if_pos (by omega), seen_raise_self, seen_congr (congrArg Flt.counts hf)]

/-- The one slot of a state without others. -/
theorem bslot_single {b : BSlot} (h : s.cmp = [(c * 8 + x, b)]) : bslot s c x = b := by
  simp [bslot, h, mgetD, mget]

end

/-- Settles O53: from the slot of a blend and what each message, timeout and window makes of it. -/
theorem blendHandshakes : Obligations.BlendHandshakes := by
  unfold Obligations.BlendHandshakes
  refine ⟨⟨?offer, ?resyncOffer, ?accept, ?reject, ?switch, ?retire, ?resync⟩, ?timeout, ?failed, ?window⟩
  case offer =>
    intro s p l hp hb b
    obtain ⟨u, hu, hpass⟩ := policed_passes hb
    refine .of_next (congrArg Host.Outcome.next (hpass _)) ⟨fun h => ?_, fun r h => ?_⟩
    · have he : blendOffer p false l u = sendCtl p 0x21 [] (blendName b) (updSlot (6 + p) b.cls (fun x => { x with pending := some b }) u) := by
        have h' : offerReject (bslot u (lIn p) b.cls) l = none := by rw [hu.bslot]; exact h
        simp only [blendOffer, Bool.false_eq_true, reduceIte]
        rw [h']
        rfl
      rw [he, bslot_sendCtl, bslot_updSlot_self, hu.bslot, sendCtl_ctlQueue hp rfl]
      exact ⟨rfl, rfl, congrArg (fun f : Nat → Partner => (f p).ctlQueue ++ _) hu.partnerOf⟩
    · have he : blendOffer p false l u = sendCtl p 0x22 [] (blendName b ++ [byte r]) u := by
        have h' : offerReject (bslot u (lIn p) b.cls) l = some r := by rw [hu.bslot]; exact h
        simp only [blendOffer, Bool.false_eq_true, reduceIte]
        rw [h']
        rfl
      rw [he, sendCtl_ctlQueue hp rfl, hu.partnerOf]
      exact ⟨hu.cmp, rfl⟩
  case resyncOffer =>
    intro s p l hp hb hres hval
    obtain ⟨u, hu, hpass⟩ := policed_passes hb
    have he : blendOffer p true l u = sendCtl p 0x21 [] (blendName (Blend.ofBytes l)) (makeCurrent (6 + p) (Blend.ofBytes l).cls
        (Blend.ofBytes l) (updSlot (6 + p) (Blend.ofBytes l).cls (fun x => { x with
          current := none, previous := none, pending := none, switchSeqs := none, resync := false, resyncFails := 0, fails := 0 }) u)) := by
      unfold blendOffer
      rw [if_pos rfl, if_neg (by simp [hres, hval])]
      rfl
    refine .of_next (congrArg Host.Outcome.next ((hpass _).trans he)) ?_
    intro b
    obtain ⟨h1, h2⟩ := makeCurrent_spec (s := updSlot (6 + p) b.cls (fun x => { x with
      current := none, previous := none, pending := none, switchSeqs := none, resync := false, resyncFails := 0, fails := 0 }) u)
      (c := 6 + p) (x := b.cls) (b := b)
    rw [bslot_sendCtl, seen_sendCtl, h1, h2, bslot_updSlot_self]
    exact ⟨rfl, rfl, rfl, rfl, congrArg (· + 1) (hu.seen _)⟩
  case accept =>
    intro s p c id dig o hp hc hb h hnames
    obtain ⟨u, hu, hpass⟩ := policed_passes hb
    have hu' : (bslot u (lOut p) c).offer = some o := by rw [hu.bslot]; exact h
    refine .of_next (congrArg Host.Outcome.next (hpass _)) ⟨fun ho => ?_, fun ho => ?_⟩
    · have he : blendAccept p c id dig u = updSlot (2 + p) c (fun x => { x with
          offer := none, resync := false, rawCoding := false, resyncFails := 0 }) u := by
        simp only [blendAccept, hu']
        rw [if_neg (by simp [hnames]), if_pos ho]
        rfl
      rw [he, bslot_updSlot_self]
      exact ⟨rfl, rfl, rfl⟩
    · have he : blendAccept p c id dig u = o.mbx.elim (updSlot (2 + p) c (fun x => { x with
            offer := some { o with accepted := true, mbx := none } }) u)
          fun m => mbxAnswer m 0 0 [] (updSlot (2 + p) c (fun x => { x with offer := some { o with accepted := true, mbx := none } }) u) := by
        simp only [blendAccept, hu']
        rw [if_neg (by simp [hnames]), if_neg ho]
        cases o.mbx with
        | none => rfl
        | some m => rfl
      rw [he]
      cases hom : o.mbx with
      | none => exact ⟨congrArg BSlot.offer bslot_updSlot_self, fun m _ h => by cases h⟩
      | some m =>
        refine ⟨?_, fun m' hm' h => ?_⟩
        · rw [Option.elim_some, bslot_mbxAnswer, bslot_updSlot_self]
        · cases h
          exact answered hm' (congrArg Mgt.mbx hu.mgt) hu.tick
  case reject =>
    intro s p c id dig r o hp hc hb h hnames
    obtain ⟨u, hu, hpass⟩ := policed_passes hb
    have hu' : (bslot u (lOut p) c).offer = some o := by rw [hu.bslot]; exact h
    have he : blendReject p c id dig r u = withdrawOffer (2 + p) c stInvalid r u := if_pos (by simp [hu', hnames])
    refine .of_next (congrArg Host.Outcome.next ((hpass _).trans he)) ⟨withdrawOffer_offer, fun m hm hom => ?_⟩
    have hw : withdrawOffer (2 + p) c stInvalid r u =
        mbxAnswer m 6 r [] (updSlot (2 + p) c (fun x => { x with offer := none, staged := none }) u) := by
      have hu2 : (bslot u (2 + p) c).offer = some o := hu'
      simp only [withdrawOffer, hu2, hom]
      rfl
    rw [hw]
    exact answered hm (congrArg Mgt.mbx hu.mgt) hu.tick
  case switch =>
    intro s p c id seqs b hp hc hb h hid
    obtain ⟨u, hu, hpass⟩ := policed_passes hb
    subst hid
    refine .of_next (congrArg Host.Outcome.next (hpass _)) ?_
    rw [← hu.seen]
    exact blendSwitch_pending (hu.bslot ▸ h)
  case retire =>
    intro s p c id b hp hc hb h hid
    obtain ⟨u, hu, hpass⟩ := policed_passes hb
    have hu' : (bslot u (2 + p) c).previous = some b := by rw [hu.bslot]; exact h
    have he : retireAcked p c id u = retirePrevious (2 + p) c u := if_pos (by
      show (bslot u (2 + p) c).previous.any _ = true
      simp [hu', hid])
    obtain ⟨h1, -, h3⟩ := retirePrevious_some hu'
    refine .of_next (congrArg Host.Outcome.next ((hpass _).trans he)) ⟨?_, ?_, h3.trans (congrArg (· + 1) (hu.seen _))⟩
    · rw [h1]
    · rw [h1, hu.bslot]
  case resync =>
    intro s p c b hp hc hb h hres hraw
    obtain ⟨u, hu, hpass⟩ := policed_passes hb
    have he : blendResync p c u = resyncAsked p c u := by
      unfold blendResync
      rw [if_neg (by
        show ¬ (bslot u (2 + p) c).resync = true
        simp [hu.bslot, hres])]
    refine .of_next (congrArg Host.Outcome.next ((hpass _).trans he)) ?_
    rw [← hu.tick]
    exact resyncAsked_spec (hu.bslot ▸ h) (hu.bslot ▸ hraw)
  case timeout =>
    intro s c x b o hc hx hs ho hsent hacc horigin
    have hb := bslot_single hs
    have hrun : exec .blendHandshakeTimeout s = .next (offerTimeout (c * 8 + x) s) := by
      refine congrArg Host.Outcome.next ?_
      rw [hs]
      rfl
    refine .of_next hrun ⟨fun ht => offerTimeout_due hx (by rw [hb, ho]) hsent hacc horigin ht, fun ht => ?_⟩
    have h1 : (c * 8 + x) / 8 = c := by omega
    have h2 : (c * 8 + x) % 8 = x := by omega
    simp only [offerTimeout, h1, h2, hb, ho]
    exact if_neg (by omega)
  case failed =>
    intro s p x b hp hx hs hres
    have hb := bslot_single hs
    have h1 : ((2 + p) * 8 + x) / 8 = 2 + p := by omega
    have h2 : ((2 + p) * 8 + x) % 8 = x := by omega
    have hrun : exec .resyncTimeout s = .next (if s.tick < b.resyncTick + hsTimeout s then s else resyncFailed p x s) := by
      refine congrArg Host.Outcome.next ?_
      rw [hs]
      simp only [List.map_cons, List.map_nil, List.foldl_cons, List.foldl_nil, resyncTimeout, h1, h2, hb, hres]
      by_cases ht : s.tick < b.resyncTick + hsTimeout s
      · rw [if_pos (.inr (.inl ht)), if_pos ht]
      · rw [if_neg (by simp [ht]; omega), if_pos (by omega), if_neg ht, Nat.add_sub_cancel_left]
    refine .of_next hrun ⟨fun ht => ?_, fun ht => if_pos ht⟩
    rw [if_neg (by omega), ← hb]
    exact resyncFailed_spec
  case window =>
    intro s h1 h2 h3
    refine .of_next (congrArg Host.Outcome.next (if_neg (by simp [h1, h2, h3]))) fun c x hc hx => ?_
    refine foldl_reaches (P := fun y => (bslot y c x).counts = []) (k := c * 8 + x) (fun y k hy => ?_)
      (fun y => windowOfSlot_counts hc hx) ?_
    · by_cases hk : k = c * 8 + x
      · rw [hk]
        exact windowOfSlot_counts hc hx
      · rw [windowOfSlot_ne hk]
        exact hy
    · by_cases hk : c * 8 + x ∈ s.cmp.map (·.1)
      · exact .inr hk
      · refine .inl ?_
        rw [bslot, mgetD, mget_eq_none hk]
        rfl

end Sys2Proof.Machine

/-! R250, R251, R256, R259 to R261: casks. -/

namespace Sys2Proof.Machine

open Sys2Proof

section

variable {s t : State} {p c k : Nat}

/-! ### The thresholds of a class (R252 to R254) -/

theorem sendPfc_cellar (q : Nat) (s : State) : (sendPfc q s).cellar = s.cellar := by
  unfold sendPfc
  exact ite_keeps (π := State.cellar) rfl rfl

theorem pfcFollow_cellar (s : State) : (pfcFollow s).cellar = s.cellar := by
  unfold pfcFollow
  exact ite_keeps (π := State.cellar) (sendPfc_cellar ..) (ite_keeps (π := State.cellar) (sendPfc_cellar ..) rfl)

/-- The thresholds leave the parts of a class as they are. -/
theorem caskEval_parts {γ : Type} (π : CaskClass → γ)
    (hπ : ∀ y w b r m, π { y with warn := w, bp := b, refuse := r, peak := m } = π y) (c k : Nat) (s : State) :
    π (caskCls (caskEval c s) k) = π (caskCls s k) := by
  unfold caskEval
  extract_lets _ a total st w b r s1 s2 s3 s4
  have h1 : π (caskCls s1 k) = π (caskCls s k) := vget_vupd_keeps (fun y => hπ y w b r _) k
  clear_value s1
  have h2 : s2.cellar = s1.cellar := ite_keeps (π := State.cellar) (raise_cellar ..) rfl
  clear_value s2
  have h3 : s3.cellar = s2.cellar := ite_keeps (π := State.cellar) (raise_cellar ..) rfl
  clear_value s3
  have h4 : s4.cellar = s3.cellar := ite_keeps (π := State.cellar) (raise_cellar ..) rfl
  clear_value s4
  rw [caskCls, pfcFollow_cellar, h4, h3, h2, ← caskCls, h1]

/-! ### Requests (R250, R251, R256) -/

theorem drawCask_class {n : Nat} {d : Bool} (h : caskClass n = some c) : drawCask n d s = caskFrom c d s := by
  simp only [drawCask, h]

/-- No pointer at the head of a list is corrupt: the request is for the cask that the class draws. -/
theorem execCaskRequest_eq {n : Nat} {d : Bool} {o : Option Nat} (h : drawCask n d s = (o, t)) :
    exec (.caskRequest n d 0) s = .next (o.elim (t.emit .nack) fun q => t.emit (.answer [q])) := by
  show execCaskRequest n d 0 s = _
  unfold execCaskRequest
  extract_lets s1
  have hs1 : s1 = s := by
    unfold s1
    split
    · exact ite_self s
    · rfl
  rw [hs1, h]
  cases o with
  | none => rfl
  | some q => rfl

theorem execCaskRequest_some {n : Nat} {d : Bool} {q : Nat} (h : drawCask n d s = (some q, t)) :
    exec (.caskRequest n d 0) s = .next (t.emit (.answer [q])) := execCaskRequest_eq h

theorem execCaskRequest_none {n : Nat} {d : Bool} (h : drawCask n d s = (none, t)) :
    exec (.caskRequest n d 0) s = .next (t.emit .nack) := execCaskRequest_eq h

/-- What a class holds after one of its parts has granted or taken back a cask. -/
theorem caskCls_put {γ : Type} (f : CaskClass → CaskClass) (π : CaskClass → γ)
    (hπ : ∀ y w b r m, π { y with warn := w, bp := b, refuse := r, peak := m } = π y) (hc : c < 8) :
    π (caskCls (caskEval c (s.mapCellar fun x => { x with classes := vupd x.classes c f })) c) = π (f (caskCls s c)) := by
  rw [caskEval_parts π hπ]
  exact congrArg π (vget_vupd_self hc)

theorem caskCls_emit (o : Output) (k : Nat) (s : State) : caskCls (s.emit o) k = caskCls s k := rfl

/-! ### Frees and failed checks (R260, R261) -/

theorem badPointer_spec {r : Nat} : (badPointer p r s).cellar = s.cellar ∧ (badPointer p r s).mem = s.mem ∧
    seen (badPointer p r s) 0x8701 = seen s 0x8701 + 1 ∧
    regVal (badPointer p r s) 0x00180040 = min (2 ^ 32 - 1) (regVal s 0x00180040 + 1) := by
  refine ⟨raise_cellar .., raise_mem .., ?_, ?_⟩
  · rw [badPointer, seen_raise_self, seen_bump]
  · rw [badPointer, raise_regVal _ _ _ _ (by decide), regVal_bump, if_pos rfl]

theorem ptrClass_lt : ptrClass p < 8 := Nat.mod_lt _ (by decide)

/-- A granted cask given back stands at the end of its list. -/
theorem poolFree_granted (h : ptrIndex p ∈ (ptrPool s p).granted) :
    (ptrPool (poolFree p s) p).granted = (ptrPool s p).granted.erase (ptrIndex p) ∧
      (ptrPool (poolFree p s) p).freed = (ptrPool s p).freed ++ [ptrIndex p] := by
  have he : ptrPool (poolFree p s) p = { ptrPool s p with
      freed := (ptrPool s p).freed ++ [ptrIndex p], granted := (ptrPool s p).granted.erase (ptrIndex p) } := by
    unfold poolFree
    extract_lets pool q put
    rw [if_neg (by simpa [pool] using h)]
    by_cases hp : ptrPart p = 0
    · have h1 := caskCls_put (s := s) put (·.sram) (fun _ _ _ _ _ => rfl) (ptrClass_lt (p := p))
      rw [ptrPool]
      simp only [if_pos hp] at h1 ⊢
      rw [h1]
      simp only [put, if_pos hp, q, pool]
    · have h1 := caskCls_put (s := s) put (·.dram) (fun _ _ _ _ _ => rfl) (ptrClass_lt (p := p))
      rw [ptrPool]
      simp only [if_neg hp] at h1 ⊢
      rw [h1]
      simp only [put, if_neg hp, q, pool]
  rw [he]
  exact ⟨rfl, rfl⟩

/-- A cask that is not granted is not freed. -/
theorem poolFree_double (h : ptrIndex p ∉ (ptrPool s p).granted) : poolFree p s = raise 0x8702 [p] (bump 0x00180044 s) :=
  if_pos (by simpa using h)

/-! ### Accesses (R259) -/

/-- A write of whole words reads none of them. -/
theorem caskWrite_words {off : Nat} {d : List Byte} (hd : d.length % 4 = 0) : caskWrite p off d [] s =
    if ptrPart p = 1 then dramWrite (caskAddr p + off) d s
    else s.mapMem fun m => { m with sram := cellWrite m.sram (caskAddr p + off) d } := by
  unfold caskWrite
  extract_lets n last s1
  have hl : last = .clean 0 := if_pos hd
  have hs1 : s1 = s := by rw [show s1 = caskCounted p (off + 4 * (n - 1)) last s from rfl, hl]; rfl
  rw [hs1, hl, if_neg (by decide)]

/-- A read of clean words answers their bytes. -/
theorem caskRead_clean {off n : Nat} {u : WordUse} (h : ∀ i, i < (n + 3) / 4 → ∃ d, caskWord s p (off + 4 * i) 0 = .clean d) :
    ∃ l : List Nat, l.length = n ∧ caskRead p off n [] u s = s.emit (.answer l) := by
  unfold caskRead
  extract_lets words s1
  have hw : ∀ w ∈ words, ∃ d, w.2 = .clean d := by
    intro w hm
    obtain ⟨i, hi, rfl⟩ := List.mem_map.mp hm
    exact h i (List.mem_range.mp hi)
  have hlen : ((words.map fun w => w.2.bytes).flatten).length = 4 * ((n + 3) / 4) := by
    have h4 : ∀ l : List (Nat × WordRead), (∀ w ∈ l, ∃ d, w.2 = .clean d) →
        ((l.map fun w => w.2.bytes).flatten).length = 4 * l.length := fun l => by
      induction l with
      | nil => exact fun _ => rfl
      | cons w l ih =>
        intro hl
        obtain ⟨d, hd⟩ := hl w List.mem_cons_self
        rw [List.map_cons, List.flatten_cons, List.length_append, ih fun x hx => hl x (List.mem_cons_of_mem _ hx), hd, List.length_cons]
        show (leBytes 4 d).length + _ = _
        rw [leBytes_length]
        omega
    rw [h4 words hw]
    simp [words]
  have hs1 : s1 = s := List.foldlRecOn (motive := (· = s)) _ _ rfl fun a ha w hm => by
    obtain ⟨d, hd⟩ := hw w hm
    rw [ha, hd]
    rfl
  have hany : (words.any fun w => w.2 == .bad) = false := by
    rw [List.any_eq_false]
    intro w hm
    obtain ⟨d, hd⟩ := hw w hm
    rw [hd]
    exact fun h => WordRead.noConfusion (beq_iff_eq.mp h)
  rw [hany, if_neg (by decide), hs1]
  refine ⟨_, ?_, rfl⟩
  rw [List.length_map, List.length_take, hlen]
  omega

end

/-- Settles O54: from what a request takes from a class, and from the checks of the cask port. -/
theorem casks : Obligations.Casks := by
  unfold Obligations.Casks
  refine ⟨?sram, ?dram, ?refused, ?free, ?bad, ?write, ?read, ?badWrite⟩
  case sram =>
    intro s n c i p hcls href hg
    have hc : c < 8 := by simpa using firstFrom_lt hcls
    have hd : drawCask n false s = (some (caskPtr c 0 i), caskEval c (s.mapCellar fun x =>
        { x with classes := vupd x.classes c fun y => { y with sram := p } })) := by
      rw [drawCask_class hcls]
      simp [caskFrom, href, hg]
    refine .of_next (execCaskRequest_some hd) ⟨?_, ?_, _, rfl⟩
    · rw [caskCls_emit]
      exact caskCls_put (fun y => { y with sram := p }) (·.sram) (fun _ _ _ _ _ => rfl) hc
    · rw [caskCls_emit]
      exact caskCls_put (fun y => { y with sram := p }) (·.dram) (fun _ _ _ _ _ => rfl) hc
  case dram =>
    intro s n c i d p hcls href hsram hg
    have hc : c < 8 := by simpa using firstFrom_lt hcls
    have hd : drawCask n d s = (some (caskPtr c 1 i), caskEval c (s.mapCellar fun x =>
        { x with classes := vupd x.classes c fun y => { y with dram := p } })) := by
      rw [drawCask_class hcls]
      unfold caskFrom
      extract_lets k
      rw [if_neg (by rcases href with h | h <;> simp [k, h])]
      have hnone : (if d then none else k.sram.grant) = none := by rcases hsram with h | h <;> simp [k, h]
      simp only [hnone]
      rw [show k.dram.grant = some (i, p) from hg]
    refine .of_next (execCaskRequest_some hd) ⟨?_, ?_, _, rfl⟩
    · rw [caskCls_emit]
      exact caskCls_put (fun y => { y with dram := p }) (·.dram) (fun _ _ _ _ _ => rfl) hc
    · rw [caskCls_emit]
      exact caskCls_put (fun y => { y with dram := p }) (·.sram) (fun _ _ _ _ _ => rfl) hc
  case refused =>
    intro s n c hcls href
    have hd : drawCask n false s = (none, bump (0x0018010C + c * 0x10) s) := by
      rw [drawCask_class hcls]
      simp [caskFrom, href]
    refine .of_next (execCaskRequest_none hd) ⟨rfl, rfl, ?_⟩
    exact (regVal_bump ..).trans (if_pos rfl)
  case free =>
    intro s p r h
    have hrun : exec (.caskFree p r) s = .next (poolFree p s) := congrArg Host.Outcome.next (if_neg (by simp [h]))
    refine .of_next hrun ⟨poolFree_granted, fun hg => ?_⟩
    rw [poolFree_double hg]
    refine ⟨raise_cellar .., ?_, ?_⟩
    · rw [seen_raise_self, seen_bump]
    · rw [raise_regVal _ _ _ _ (by decide), regVal_bump, if_pos rfl]
  case bad =>
    intro s p r k h
    obtain ⟨h1, -, h3, h4⟩ := badPointer_spec (s := s) (p := p) (r := r)
    exact .of_next (congrArg Host.Outcome.next (if_pos (by simp [h]))) ⟨h1, h3, h4⟩
  case write =>
    intro s p off r d u h hd
    have hrun : exec (.caskAccess p off 0 (some d) r [] u) s = .next (caskWrite p off d [] s) :=
      congrArg Host.Outcome.next (if_neg (by simp [h]))
    refine .of_next hrun ⟨fun hp => ?_, fun hp => ?_⟩
    · rw [caskWrite_words hd, if_pos hp]
      exact ⟨fun i hi => dramByte_dramWrite hi, fun a ha => dramByte_dramWrite_outside ha⟩
    · rw [caskWrite_words hd, if_neg hp]
      refine ⟨fun i hi => ?_, rfl⟩
      refine (cellGet_cellWrite s.mem.sram _ _ _).trans ?_
      rw [if_pos (by omega), Nat.add_sub_cancel_left]
  case read =>
    intro s p off n r u h hw
    obtain ⟨l, hl, he⟩ := caskRead_clean (u := u) hw
    have hrun : exec (.caskAccess p off n none r [] u) s = .next (s.emit (.answer l)) :=
      congrArg Host.Outcome.next ((if_neg (by simp [h])).trans he)
    exact .of_next hrun ⟨rfl, rfl, l, hl, rfl⟩
  case badWrite =>
    intro s p off n r k d u h
    obtain ⟨-, h2, h3, -⟩ := badPointer_spec (s := s) (p := p) (r := r)
    exact .of_next (congrArg Host.Outcome.next (if_pos (by simp [h]))) ⟨h2, h3⟩

end Sys2Proof.Machine

/-! R264 to R267: the check code of a word. -/

namespace Sys2Proof.Machine

open Sys2Proof

/-! ### The check bits (R264) -/

/-- The check bits that the data bits of a word choose among columns, onto what stands already. -/
def eccSum (l : List (Nat × Nat)) (d x : Nat) : Nat := l.foldl (fun x c => if bitOf d c.2 then x ^^^ c.1 else x) x

theorem eccBits_eq (d : Nat) : eccBits d = eccSum eccCols.zipIdx d 0 := List.foldl_filter

/-- The check bits of a sum of words are the sum of theirs. -/
theorem eccSum_xor (l : List (Nat × Nat)) (d e x y : Nat) : eccSum l (d ^^^ e) (x ^^^ y) = eccSum l d x ^^^ eccSum l e y := by
  induction l generalizing x y with
  | nil => rfl
  | cons c l ih =>
    simp only [eccSum, List.foldl_cons] at ih ⊢
    rw [← ih]
    congr 1
    rw [bitOf_eq_testBit, Nat.testBit_xor, ← bitOf_eq_testBit, ← bitOf_eq_testBit]
    cases bitOf d c.2 <;> cases bitOf e c.2 <;> simp [Nat.xor_comm, Nat.xor_left_comm]

theorem eccBits_xor (d e : Nat) : eccBits (d ^^^ e) = eccBits d ^^^ eccBits e := by
  simp only [eccBits_eq]
  exact eccSum_xor _ d e 0 0

/-- The syndrome of a word alone decides what a read makes of it. -/
theorem eccJudge_flip {d e c : Nat} : eccJudge (d ^^^ e) (eccBits d ^^^ c) =
    if eccBits e ^^^ c = 0 then .clean (d ^^^ e)
    else if ones 7 (eccBits e ^^^ c) = 1 then .fixed (d ^^^ e)
    else (eccCols.findIdx? (· == eccBits e ^^^ c)).elim .bad fun i => .fixed (d ^^^ e ^^^ 2 ^ i) := by
  have hs : eccBits (d ^^^ e) ^^^ (eccBits d ^^^ c) = eccBits e ^^^ c := by
    rw [eccBits_xor, Nat.xor_comm (eccBits d) (eccBits e), Nat.xor_assoc, ← Nat.xor_assoc (eccBits d), Nat.xor_self, Nat.zero_xor]
  unfold eccJudge
  simp only [hs]
  cases eccCols.findIdx? (· == eccBits e ^^^ c) with
  | none => rfl
  | some i => rfl

theorem eccBits_zero : eccBits 0 = 0 := by decide +kernel

/-! ### Words as read (R265 to R267) -/

/-- The syndrome of a poisoned word is that of no single bit. -/
theorem poison_syndrome : ones 7 3 ≠ 1 ∧ eccCols.findIdx? (· == 3) = none := by decide +kernel

/-- A word whose bits have not flipped is clean, or poisoned. -/
theorem readWord_zero (d : Nat) (b : Bool) : readWord d b 0 = if b then .bad else .clean d := by
  have h := eccJudge_flip (d := d) (e := 0) (c := if b then 3 else 0)
  have hr : readWord d b 0 = eccJudge (d ^^^ 0) (eccBits d ^^^ if b then 3 else 0) := by
    simp only [readWord, storedCheck, Nat.zero_mod, Nat.zero_div, Nat.xor_zero]
  rw [hr, h, eccBits_zero, Nat.xor_zero, Nat.zero_xor]
  cases b with
  | false => rfl
  | true =>
    obtain ⟨h1, h2⟩ := poison_syndrome
    simp only [reduceIte]
    rw [if_neg (by decide), if_neg h1, h2, Option.elim_none]

/-- The syndromes of a data bit: its own column, which no other bit has. -/
theorem eccBits_two_pow : ∀ k, k < 32 → eccBits (2 ^ k) ≠ 0 ∧ ones 7 (eccBits (2 ^ k)) ≠ 1 ∧
    eccCols.findIdx? (· == eccBits (2 ^ k)) = some k := by decide +kernel

/-- The syndromes of a check bit. -/
theorem ones_two_pow : ∀ k, k < 7 → (2 ^ k : Nat) ≠ 0 ∧ ones 7 (2 ^ k) = 1 := by decide +kernel

/-- One flipped bit is corrected. -/
theorem readWord_one {d k : Nat} (hk : k < 39) : readWord d false (2 ^ k) = .fixed d := by
  have hr : readWord d false (2 ^ k) = eccJudge (d ^^^ 2 ^ k % 2 ^ 32) (eccBits d ^^^ 2 ^ k / 2 ^ 32 % 128) := by
    simp only [readWord, storedCheck, Bool.false_eq_true, reduceIte, Nat.xor_zero]
  rw [hr, eccJudge_flip]
  by_cases h : k < 32
  · obtain ⟨h1, h2, h3⟩ := eccBits_two_pow k h
    have hlt : 2 ^ k < 2 ^ 32 := Nat.pow_lt_pow_right (by decide) h
    rw [Nat.mod_eq_of_lt hlt, Nat.div_eq_of_lt hlt, Nat.zero_mod, Nat.xor_zero, if_neg h1, if_neg h2, h3]
    show WordRead.fixed _ = _
    rw [Nat.xor_assoc, Nat.xor_self, Nat.xor_zero]
  · obtain ⟨j, rfl⟩ : ∃ j, k = 32 + j := ⟨k - 32, by omega⟩
    obtain ⟨h1, h2⟩ := ones_two_pow j (by omega)
    have hj : (2 : Nat) ^ j < 128 := (Nat.pow_lt_pow_right (by decide) (show j < 7 by omega)).trans_eq (by decide)
    rw [Nat.pow_add, Nat.mul_mod_right, Nat.mul_div_cancel_left _ (by decide), Nat.mod_eq_of_lt hj, eccBits_zero, Nat.zero_xor,
      if_neg h1, if_pos h2, Nat.xor_zero]

/-! ### Words in memory -/

section

variable {s t : State} {a b : Nat}

/-- The bytes of a number, least first, are those that it was made of. -/
theorem leBytes_leNat (l : List Byte) : leBytes l.length (leNat l) = l := by
  induction l with
  | nil => rfl
  | cons b l ih =>
    have hb : b.toNat < 256 := b.isLt
    simp only [List.length_cons, leBytes, leNat]
    rw [show (b.toNat + 256 * leNat l) / 256 = leNat l by omega, ih]
    congr 1
    exact BitVec.eq_of_toNat_eq (by simp [byte, hb])

/-- A word written back as it was read leaves every byte. -/
theorem dramByte_writeBack (a b : Nat) (s : State) : dramByte (dramWrite a (leBytes 4 (wordAt s a)) s) b = dramByte s b := by
  have hr : leBytes 4 (wordAt s a) = dramRead s a 4 := by
    have h := leBytes_leNat (dramRead s a 4)
    rwa [show (dramRead s a 4).length = 4 by simp [dramRead, cellRead]] at h
  rw [hr]
  by_cases h : b < a ∨ a + 4 ≤ b
  · exact dramByte_dramWrite_outside (by simpa [dramRead, cellRead] using h)
  · obtain ⟨i, hi, rfl⟩ : ∃ i, i < 4 ∧ b = a + i := ⟨b - a, by omega, by omega⟩
    rw [dramByte_dramWrite (by simpa [dramRead, cellRead] using hi)]
    simp [dramRead, cellRead, hi, dramByte]

theorem wordAt_congr (h : ∀ b, dramByte t b = dramByte s b) (a : Nat) : wordAt t a = wordAt s a := by
  have hr : dramRead t a 4 = dramRead s a 4 := List.map_congr_left fun i _ => h (a + i)
  rw [wordAt, hr, wordAt]

end

end Sys2Proof.Machine

/-! R265 to R273, R278 to R280: bursts, gleaning and channels. -/

namespace Sys2Proof.Machine

open Sys2Proof

section

variable {s t : State} {a b c k : Nat}

/-! ### Bursts (R266) -/

/-- A burst whose words all come out as they were stored is answered with them; the words corrected are counted. -/
theorem dramBurst_sound {flips : List (Nat × Nat)} {u : WordUse} (ha : a % 64 = 0) (h39 : ∀ i, bitOf (flipOf flips i) 39 = false)
    (hgot : ∀ i, i < 16 → readWord (wordAt s (a + 4 * i)) (s.mem.poison.contains (a + 4 * i)) (flipOf flips i) =
      if flipOf flips i = 0 then .clean (wordAt s (a + 4 * i)) else .fixed (wordAt s (a + 4 * i))) :
    dramBurst a a flips u s = ((List.range 16).foldl (fun x i => if flipOf flips i = 0 then x else dramFixed (a + 4 * i) x) s).emit
      (.answer ((List.range 16).map fun i => wordAt s (a + 4 * i))) := by
  have hat : ∀ i, a / 64 * 64 + 4 * i = a + 4 * i := fun i => by omega
  unfold dramBurst
  extract_lets at_ got ap wrong astray s1 bad s2 s3 keep
  have hgot' : ∀ i ∈ List.range 16, got i =
      if flipOf flips i = 0 then .clean (wordAt s (a + 4 * i)) else .fixed (wordAt s (a + 4 * i)) := fun i hi => by
    simp only [got, at_, hat]
    exact hgot i (List.mem_range.mp hi)
  have hwrong : wrong = 0 := by
    have hap : ∀ i ∈ List.range 16, ¬ ap i = true := fun i _ => by simp [ap, h39]
    simp only [wrong, List.filter_eq_nil_iff.mpr hap, List.length_nil]
  have hastray : astray = false := by simp [astray, hwrong]
  have hs1 : s1 = (List.range 16).foldl (fun x i => if flipOf flips i = 0 then x else dramFixed (a + 4 * i) x) s := by
    refine List.foldl_ext _ _ _ fun x i hi => ?_
    rw [hgot' i hi]
    by_cases h : flipOf flips i = 0
    · rw [if_pos h, if_pos h]
    · rw [if_neg h, if_neg h]
      exact congrArg (dramFixed · x) (hat i)
  have hbad : bad = [] := List.filter_eq_nil_iff.mpr fun i hi => by
    rw [hgot' i hi, hastray]
    split
    · exact Bool.false_ne_true
    · exact Bool.false_ne_true
  have hs2 : s2 = s1 := by simp [s2, hwrong, hastray]
  have hs3 : s3 = s1 := by simp [s3, hbad, hs2]
  rw [hbad, if_pos List.isEmpty_nil, hs3, hs1]
  congr 2
  refine List.map_congr_left fun i hi => ?_
  rw [hgot' i hi]
  by_cases h : flipOf flips i = 0
  · rw [if_pos h]
  · rw [if_neg h]

theorem flipOf_single (i j m : Nat) : flipOf [(i, m)] j = if i = j then m else 0 := by
  by_cases h : i = j
  · simp [flipOf, h]
  · simp [flipOf, h]

/-- One corrected word is counted once. -/
theorem dramFixed_counts {i : Nat} (hi : i < 16) :
    regVal ((List.range 16).foldl (fun x j => if flipOf [(i, 2 ^ k)] j = 0 then x else dramFixed (a + 4 * j) x) s) 0x00300040 =
      min (2 ^ 32 - 1) (regVal s 0x00300040 + 1) := by
  refine foldl_once (v := (regVal · 0x00300040)) (g := fun n => min (2 ^ 32 - 1) (n + 1)) (P := fun _ => True) (m := i)
    (fun _ _ _ => trivial) (fun x j _ h => ?_) (fun x _ => ?_) trivial List.nodup_range (List.mem_range.mpr hi)
  · rw [flipOf_single, if_neg h.symm, if_pos rfl]
  · rw [flipOf_single, if_pos rfl, if_neg (by positivity), dramFixed, regVal_bump, if_neg (by omega), regVal_bump, if_pos rfl]

/-! ### Gleaning (R279) -/

/-- A word of a group whose bits have not flipped is left, or poisoned. -/
theorem gleanWord_keeps : (gleanWord a 0 s).mem.gleanGroups = s.mem.gleanGroups ∧ (gleanWord a 0 s).mem.gleanCe = s.mem.gleanCe ∧
    (gleanWord a 0 s).mem.dram = s.mem.dram := by
  unfold gleanWord
  rw [readWord_zero]
  cases s.mem.poison.contains a with
  | false => exact ⟨rfl, rfl, rfl⟩
  | true =>
    have hm : (dramBad a s).mem = { s.mem with lastUe := a } := raise_mem ..
    exact ⟨(congrArg Mem.gleanGroups hm :), (congrArg Mem.gleanCe hm :), (congrArg Mem.dram hm :)⟩

/-- What gleaning a group without uncorrectable words leaves. -/
structure Gleaned (s t : State) : Prop where
  groups : t.mem.gleanGroups = s.mem.gleanGroups
  ue : t.mem.gleanUe = s.mem.gleanUe
  byte : ∀ b, dramByte t b = dramByte s b
  poison : ∀ a, a ∉ s.mem.poison → a ∉ t.mem.poison

theorem Gleaned.refl : Gleaned s s := ⟨rfl, rfl, fun _ => rfl, fun _ h => h⟩

theorem Gleaned.trans {u : State} (h : Gleaned s t) (hu : Gleaned t u) : Gleaned s u :=
  ⟨hu.groups.trans h.groups, hu.ue.trans h.ue, fun b => (hu.byte b).trans (h.byte b), fun a ha => hu.poison a (h.poison a ha)⟩

theorem gleanWord_clean (h : a ∉ s.mem.poison) : gleanWord a 0 s = s := by
  unfold gleanWord
  rw [readWord_zero, if_neg (by simpa using h)]

/-- A word with one bit flipped is corrected in place. -/
theorem gleanWord_fixed (hk : k < 39) (h : a ∉ s.mem.poison) : Gleaned s (gleanWord a (2 ^ k) s) ∧
    (gleanWord a (2 ^ k) s).mem.gleanCe = s.mem.gleanCe + 1 := by
  unfold gleanWord
  rw [show s.mem.poison.contains a = false by simpa using h, readWord_one hk]
  refine ⟨⟨rfl, rfl, fun b => ?_, fun x hx => ?_⟩, rfl⟩
  · exact dramByte_writeBack a b s
  · exact fun hm => hx (List.mem_filter.mp hm).1

/-- A group in which one bit of one word has flipped. -/
theorem gleanWords_one {i : Nat} (hk : k < 39) (hi : i < 64) (hp : ∀ j, j < 64 → a + 4 * j ∉ s.mem.poison) :
    Gleaned s ((List.range 64).foldl (fun x j => gleanWord (a + 4 * j) (flipOf [(i, 2 ^ k)] j) x) s) ∧
    ((List.range 64).foldl (fun x j => gleanWord (a + 4 * j) (flipOf [(i, 2 ^ k)] j) x) s).mem.gleanCe = s.mem.gleanCe + 1 := by
  have hext : (List.range 64).foldl (fun x j => gleanWord (a + 4 * j) (flipOf [(i, 2 ^ k)] j) x) s =
      (List.range 64).foldl (fun x j => if i = j then gleanWord (a + 4 * i) (2 ^ k) x else if j < 64 then gleanWord (a + 4 * j) 0 x else x) s :=
    List.foldl_ext _ _ _ fun x j hj => by
      rw [flipOf_single]
      by_cases h : i = j
      · rw [if_pos h, if_pos h, h]
      · rw [if_neg h, if_neg h, if_pos (List.mem_range.mp hj)]
  rw [hext]
  have hone : ∀ x j, Gleaned s x → i ≠ j →
      (if i = j then gleanWord (a + 4 * i) (2 ^ k) x else if j < 64 then gleanWord (a + 4 * j) 0 x else x) = x := fun x j hx h => by
    rw [if_neg h]
    split
    · next hj => exact gleanWord_clean (hx.poison _ (hp j hj))
    · rfl
  have hkeep : ∀ x j, Gleaned s x →
      Gleaned s (if i = j then gleanWord (a + 4 * i) (2 ^ k) x else if j < 64 then gleanWord (a + 4 * j) 0 x else x) := fun x j hx => by
    by_cases h : i = j
    · rw [if_pos h]
      exact hx.trans (gleanWord_fixed hk (hx.poison _ (hp i hi))).1
    · rw [hone x j hx h]
      exact hx
  refine ⟨List.foldlRecOn (motive := Gleaned s) _ _ .refl fun x hx j _ => hkeep x j hx, ?_⟩
  exact foldl_once (v := (·.mem.gleanCe)) (g := (· + 1)) (P := Gleaned s) (m := i) hkeep
    (fun x j hx h => congrArg (·.mem.gleanCe) (hone x j hx h.symm))
    (fun x hx => by
      rw [if_pos rfl]
      exact (gleanWord_fixed hk (hx.poison _ (hp i hi))).2) .refl
    List.nodup_range (List.mem_range.mpr hi)

/-- What a group's end makes of the words gleaned. -/
theorem gleanGroup_spec {flips : List (Nat × Nat)} {row : Nat} (hb : bit s 0x00300004 0 = true) (ha : a < 0xD693A40000) :
    ∃ w : State → SMap Nat, (gleanGroup a flips row s).mem =
      ((fun x : State => { x.mem with gleanGroups := x.mem.gleanGroups + 1, weakRows := w x })
        ((List.range 64).foldl (fun x i => gleanWord (a / 256 * 256 + 4 * i) (flipOf flips i) x) s)) := by
  unfold gleanGroup
  extract_lets base s1 fixed ch key was lim s2
  rw [if_neg (by simp [hb, ha])]
  exact ⟨fun x => if fixed = 0 then x.mem.weakRows else mset x.mem.weakRows key (was + fixed),
    ite_keeps (π := State.mem) (raise_mem ..) rfl⟩

/-! ### Channels (R271 to R273) -/

theorem startRetrain_none (h : s.mem.retrainWait = []) : startRetrain s = s := by
  unfold startRetrain
  simp only [h]
  exact ite_self s

/-- To start a retraining changes of a channel that it retrains. -/
theorem startRetrain_field {γ : Type} (π : Channel → γ) (hπ : ∀ x b, π { x with retraining := b } = π x) (c : Nat) (s : State) :
    π (chanOf (startRetrain s) c) = π (chanOf s c) := by
  unfold startRetrain
  refine ite_keeps (π := fun x => π (chanOf x c)) rfl ?_
  split
  · rfl
  · next k l _ =>
    rw [show ∀ x, chanOf (bump 0x00300050 x) c = chanOf x c from fun _ => rfl,
      show ∀ code args x, chanOf (raise code args x) c = chanOf x c from fun _ _ _ => by rw [chanOf, raise_mem, chanOf], chanOf_updChan]
    split
    · next h =>
      subst h
      exact hπ _ true
    · rfl

theorem askRetrain_field {γ : Type} (π : Channel → γ) (hπ : ∀ x b, π { x with retraining := b } = π x) (cs : List Nat) (c : Nat) (s : State) :
    π (chanOf (askRetrain cs s) c) = π (chanOf s c) :=
  startRetrain_field π hπ c _

theorem chanOf_raise {code : Nat} {args : List Nat} : chanOf (raise code args s) c = chanOf s c := by rw [chanOf, raise_mem, chanOf]

/-- The one channel that has drifted retrains while no other does. -/
theorem askRetrain_one (hc : c < 64) (hw : s.mem.retrainWait = []) (hno : ∀ k, k < 64 → (chanOf s k).retraining = false)
    (hl : (chanOf s c).lost = false) : askRetrain [c] s = bump 0x00300050 (raise 0x1701 [c]
      (updChan c (fun x => { x with retraining := true }) (s.mapMem fun m => { m with retrainWait := [] }))) := by
  have hnew : ([c].filter fun k => decide (k < 64) && !s.mem.retrainWait.contains k && !(chanOf s k).retraining && !(chanOf s k).lost) =
      [c] := by simp [hc, hw, hno c hc, hl]
  unfold askRetrain
  extract_lets new
  have hu : (s.mapMem fun m => { m with retrainWait := m.retrainWait ++ [c] }) = s.mapMem fun m => { m with retrainWait := [c] } := by
    simp [State.mapMem, hw]
  rw [show new = [c] from hnew, hu]
  unfold startRetrain
  rw [if_neg (by
    rw [List.any_eq_true]
    rintro ⟨k, hk, hr⟩
    exact Bool.false_ne_true ((hno k (List.mem_range.mp hk)).symm.trans hr))]
  rfl

/-! ### Fatal events (R518) -/

/-- A fatal event leaves the device with a fatal error. -/
theorem raise_fatal {code : Nat} {args : List Nat} (h : evClass code = 12) (s : State) : (raise code args s).flt.fatal = true := by
  unfold raise raiseCore
  extract_lets x e s5
  have hx : (noteEvent e x).flt.fatal = true := by simp [noteEvent, e, h]
  have hl : Lasts (noteEvent e x) s5 := Lasts.refl.countEvent.stopIfFatal
  exact (Lasts.ite hl.deliverEvent hl).raiseLedger.fatal hx

/-! ### MR4 (R272) -/

/-- A channel of which MR4 was read. -/
def mr4Channel (r : Nat × Nat × Nat) (half : Bool) (x : Channel) : Channel :=
  { x with
    refresh := r.2.1 % 4, tempC := r.2.2, halved := half
    retrainTemp := if x.tempC = 0 ∧ x.retrainTemp = 0 then r.2.2 else x.retrainTemp }

theorem mr4Package_field {γ : Type} (π : Channel → γ) (hπ : ∀ x b, π { x with retraining := b } = π x) {r : Nat × Nat × Nat}
    (h1 : 4 * r.1 ≤ c) (h2 : c < 4 * r.1 + 4) : ∃ was, π (chanOf (mr4Package r s) c) =
      π (mr4Channel r (if 105 < r.2.2 then true else if r.2.2 ≤ 100 then false else was) (chanOf s c)) := by
  unfold mr4Package
  extract_lets cs old t half s1 s2 s3 moved
  refine ⟨old.halved, ?_⟩
  have hs1 : chanOf s1 c = mr4Channel r half (chanOf s c) := by
    refine foldl_once (v := (chanOf · c)) (g := mr4Channel r half) (P := fun _ => True) (m := c) (fun _ _ _ => trivial)
      (fun _ _ _ h => chanOf_updChan.trans (if_neg h)) (fun _ _ => chanOf_updChan.trans (if_pos rfl)) trivial ?_ ?_
    · simp [cs]
    · simp [cs]
      omega
  clear_value s1
  have hs2 : chanOf s2 c = chanOf s1 c := ite_keeps (π := (chanOf · c)) chanOf_raise rfl
  clear_value s2
  have hs3 : chanOf s3 c = chanOf s2 c := ite_keeps (π := (chanOf · c)) chanOf_raise rfl
  rw [askRetrain_field π hπ, hs3, hs2, hs1]

end

/-- Settles O55: from a burst's words, a group's gleaning and a channel's retraining. -/
theorem memoryAndChannels : Obligations.MemoryAndChannels := by
  unfold Obligations.MemoryAndChannels
  refine ⟨⟨?clean, ?fixed, fun s a b f u h => if_pos h, ?glean, ?gleanFix, ?period, ?pass⟩, ?drift, ?done, ?failed, ?mr4⟩
  case clean =>
    intro s a u hlt ha hp
    have hrun : exec (.dramRead a a [] u) s = .next (dramBurst a a [] u s) := if_neg (by omega)
    have he := dramBurst_sound (s := s) (u := u) (flips := []) ha (fun _ => show bitOf 0 39 = false by decide) fun i hi => by
      rw [show s.mem.poison.contains (a + 4 * i) = false by simpa using hp i hi]
      exact readWord_zero ..
    have hf : (List.range 16).foldl (fun x i => if flipOf [] i = 0 then x else dramFixed (a + 4 * i) x) s = s :=
      List.foldlRecOn (motive := (· = s)) _ _ rfl fun x hx _ _ => hx
    rw [hf] at he
    exact .of_next (hrun.trans (congrArg Host.Outcome.next he)) ⟨rfl, rfl, rfl⟩
  case fixed =>
    intro s a i k u hlt ha hi hk hp
    have hrun : exec (.dramRead a a [(i, 2 ^ k)] u) s = .next (dramBurst a a [(i, 2 ^ k)] u s) := if_neg (by omega)
    have he := dramBurst_sound (s := s) (u := u) (flips := [(i, 2 ^ k)]) ha (fun j => by
      rw [flipOf_single]
      split
      · rw [bitOf_eq_testBit]
        exact Nat.testBit_two_pow_of_ne (by omega)
      · rfl) fun j hj => by
      rw [show s.mem.poison.contains (a + 4 * j) = false by simpa using hp j hj, flipOf_single]
      by_cases h : i = j
      · rw [if_pos h, readWord_one hk, if_neg (by positivity)]
      · rw [if_neg h]
        exact readWord_zero ..
    refine .of_next (hrun.trans (congrArg Host.Outcome.next he)) ?_
    have hk : ∀ {γ : Type} (π : State → γ), (∀ x r, π (bump r x) = π x) → ∀ l : List Nat,
        π (l.foldl (fun x j => if flipOf [(i, 2 ^ k)] j = 0 then x else dramFixed (a + 4 * j) x) s) = π s := fun π hb l =>
      foldl_keeps (π := π) (fun x j => ite_keeps (π := π) rfl ((hb ..).trans (hb ..))) l s
    refine ⟨congrArg _ (hk State.out (fun _ _ => rfl) _), hk State.mem (fun _ _ => rfl) _, ?_⟩
    exact dramFixed_counts hi
  case glean =>
    intro s a row hb ha
    obtain ⟨w, he⟩ := gleanGroup_spec (flips := []) (row := row) hb ha
    refine .of_next rfl ?_
    rw [he]
    refine ⟨congrArg (· + 1) ?_, ?_, ?_⟩
    · exact foldl_keeps (π := (·.mem.gleanGroups)) (fun _ _ => gleanWord_keeps.1) _ s
    · exact foldl_keeps (π := (·.mem.gleanCe)) (fun _ _ => gleanWord_keeps.2.1) _ s
    · exact foldl_keeps (π := (·.mem.dram)) (fun _ _ => gleanWord_keeps.2.2) _ s
  case gleanFix =>
    intro s a i k row hb ha hi hk hp
    obtain ⟨w, he⟩ := gleanGroup_spec (flips := [(i, 2 ^ k)]) (row := row) hb ha
    obtain ⟨hg, hce⟩ := gleanWords_one hk hi hp
    refine .of_next rfl ?_
    rw [he]
    refine ⟨congrArg (· + 1) hg.groups, hce, hg.ue, fun b => ?_⟩
    rw [dramByte, he, ← hg.byte]
    rfl
  case period =>
    intro s
    refine .of_next rfl ⟨fun h => ?_, fun h => if_neg (by omega)⟩
    rw [if_pos h]
    rfl
  case pass =>
    intro s
    refine .of_next rfl ⟨fun h => ?_, fun h => if_pos h⟩
    rw [gleanPassEnd, if_neg (by omega), seen_raise_self, raise_mem]
    exact ⟨rfl, rfl, rfl, rfl, rfl⟩
  case drift =>
    intro s c hc ht hw hno hl
    have hrun : exec (.wck2dqOscillator [c]) s = .next (askRetrain [c] s) := congrArg Host.Outcome.next (if_pos ht)
    refine .of_next (hrun.trans (congrArg Host.Outcome.next (askRetrain_one hc hw hno hl))) ⟨?_, ?_, ?_, ?_⟩
    · rw [show ∀ x, chanOf (bump 0x00300050 x) c = chanOf x c from fun _ => rfl, chanOf_raise, chanOf_updChan, if_pos rfl]
    · rw [show ∀ x, (bump 0x00300050 x).mem = x.mem from fun _ => rfl, raise_mem]
      rfl
    · rw [seen_bump, seen_raise_self]
      rfl
    · rw [regVal_bump, if_pos rfl, raise_regVal _ _ _ _ (by decide)]
      rfl
  case done =>
    intro s c hr hw
    refine .of_next rfl ?_
    rw [retrainEnd, if_neg (by simp [hr]), if_pos rfl, startRetrain_none, chanOf_updChan, if_pos rfl]
    · exact ⟨rfl, rfl⟩
    · exact hw
  case failed =>
    intro s c hr hw hf
    generalize hu : updChan c (fun y => { y with retraining := false, lost := true }) s = u
    have hrun : exec (.channelRetrainDone c false) s = .next (raise 0xC701 [c] u) := by
      refine congrArg Host.Outcome.next ?_
      rw [retrainEnd, if_neg (by simp [hr]), if_neg Bool.false_ne_true, if_pos hf, hu]
      refine startRetrain_none ?_
      rw [raise_mem, ← hu]
      exact hw
    have hflt : u.flt = s.flt := by rw [← hu]; rfl
    refine .of_next hrun ⟨?_, ?_, ?_, raise_fatal rfl u⟩
    · rw [chanOf_raise, ← hu, chanOf_updChan, if_pos rfl]
    · rw [chanOf_raise, ← hu, chanOf_updChan, if_pos rfl]
    · rw [seen_raise_self, seen_congr (congrArg Flt.counts hflt)]
  case mr4 =>
    intro s k code temp hk ht
    have hrun : exec (.mr4Read [(k, code, temp)]) s = .next (mr4Package (k, code, temp) s) := by
      refine congrArg Host.Outcome.next ((if_pos ht).trans ?_)
      rw [List.filter_cons_of_pos (by simpa using hk)]
      rfl
    refine .of_next hrun fun c h1 h2 => ⟨?_, ?_, fun h => ?_, fun h => ?_⟩
    · obtain ⟨was, he⟩ := mr4Package_field (s := s) (r := (k, code, temp)) (·.refresh) (fun _ _ => rfl) h1 h2
      exact he
    · obtain ⟨was, he⟩ := mr4Package_field (s := s) (r := (k, code, temp)) (·.tempC) (fun _ _ => rfl) h1 h2
      exact he
    · obtain ⟨was, he⟩ := mr4Package_field (s := s) (r := (k, code, temp)) (·.halved) (fun _ _ => rfl) h1 h2
      exact he.trans (if_pos h)
    · obtain ⟨was, he⟩ := mr4Package_field (s := s) (r := (k, code, temp)) (·.halved) (fun _ _ => rfl) h1 h2
      exact he.trans ((if_neg (show ¬ 105 < temp by omega)).trans (if_pos h))

end Sys2Proof.Machine

/-! R512, R513, R516, R569, R570: the Vintner pairs. -/

namespace Sys2Proof.Machine

open Sys2Proof

section

variable {s t : State} {c : Nat} {a : List Nat}

/-! ### What an event leaves of the state of faults (R515 to R525) -/

/-- A part of the state of faults that no event touches but by a capture: it is apart from events, the Ledger and the fatal error. -/
structure Untouched {γ : Type} (π : Flt → γ) : Prop where
  event : ∀ f r q n h x y z, π { f with ring := r, seq := q, counts := n, vintnerHeld := h, fatal := x, fatalCause := y, fatalTick := z } = π f
  streams : ∀ f x y, π (Flt.withStreams x y f) = π f
  warning : ∀ f x w d e, π { f with ledgerFFull := x, warnCount := w, dropped := d, dropEvTick := e } = π f

theorem deliverEvent_same (e : EventRec) (s : State) : (deliverEvent e s).flt = s.flt := (deliverEvent_flt e s).1

theorem countEvent_flt (c : Nat) (b : Bool) (s : State) : (countEvent c b s).flt = s.flt := (countEvent_rest c b s).1

theorem stopIfFatal_flt (c : Nat) (s : State) : (stopIfFatal c s).flt = s.flt := ite_keeps (π := State.flt) rfl rfl

section

variable {γ : Type} {π : Flt → γ} (h : Untouched π)

include h

theorem raiseCore_untouched (hc : evClass c = 12 → π (beginCapture c s).flt = π s.flt) : π (raiseCore c a s).flt = π s.flt := by
  unfold raiseCore
  extract_lets x e s5
  have hx : π x.flt = π s.flt := by
    unfold x
    split
    · next h12 => exact hc h12
    · rfl
  clear_value x
  have h5 : π s5.flt = π s.flt := by
    rw [stopIfFatal_flt, countEvent_flt]
    exact (h.event ..).trans hx
  clear_value s5
  exact (ite_keeps (π := fun y => π y.flt) (congrArg π (deliverEvent_same ..)) rfl).trans h5

theorem ledgerWrite_untouched (k c : Nat) (b : List Byte) (s : State) : π (ledgerWrite k c b s).flt = π s.flt := by
  obtain ⟨x, y, hw⟩ := ledgerWrite_eq k c b s
  rw [hw]
  exact h.streams ..

theorem dropWarning_untouched (c : Nat) (s : State) : π (dropWarning c s).flt = π s.flt := by
  unfold dropWarning
  extract_lets s1
  have h1 : π s1.flt = π s.flt := h.warning s.flt s.flt.ledgerFFull s.flt.warnCount _ s.flt.dropEvTick
  clear_value s1
  split
  · refine (raiseCore_untouched h fun hc => absurd hc (by decide)).trans ?_
    exact (h.warning s1.flt s1.flt.ledgerFFull s1.flt.warnCount s1.flt.dropped _).trans h1
  · exact h1

theorem warnRecord_untouched (c : Nat) (e : EventRec) (s : State) : π (warnRecord c e s).flt = π s.flt := by
  unfold warnRecord
  split
  · rfl
  · split
    · exact (ledgerWrite_untouched h ..).trans (h.warning s.flt s.flt.ledgerFFull _ s.flt.dropped s.flt.dropEvTick)
    · exact dropWarning_untouched h ..

theorem ledgerEvent_untouched (c : Nat) (e : EventRec) (s : State) : π (ledgerEvent c e s).flt = π s.flt := by
  obtain ⟨x, y, hw⟩ := ledgerWrite_eq 1 c (e.toBytes false) s
  unfold ledgerEvent
  rw [hw]
  extract_lets s1 s2
  have h1 : π s1.flt = π s.flt := h.streams ..
  clear_value s1
  have h2 : π s2.flt = π s1.flt := (raiseCore_untouched h fun hc => absurd hc (by decide)).trans
    (h.warning s1.flt _ s1.flt.warnCount s1.flt.dropped s1.flt.dropEvTick)
  clear_value s2
  split
  · exact (warnRecord_untouched h ..).trans (h2.trans h1)
  · exact h1

/-- What an event leaves of the state of faults. -/
theorem raise_untouched (hc : evClass c = 12 → π (beginCapture c s).flt = π s.flt) : π (raise c a s).flt = π s.flt := by
  unfold raise raiseLedger
  extract_lets e
  refine (ite_keeps (π := fun y => π y.flt) (ledgerEvent_untouched h ..) ?_).trans (raiseCore_untouched h hc)
  exact ite_keeps (π := fun y => π y.flt) (warnRecord_untouched h ..) rfl

end

/-- The pairs, the supply and the restarts. -/
def Flt.standing (f : Flt) : Nat × Bool × Bool × Bool × Bool × List Nat :=
  (f.vintnerActive, f.vintnerSingle, f.vintnerUp, f.vintnerStandby, f.supplyLost, f.restarts)

theorem untouched_standing : Untouched Flt.standing := ⟨fun _ _ _ _ _ _ _ _ => rfl, fun _ _ _ => rfl, fun _ _ _ _ _ => rfl⟩

theorem beginCapture_standing (c : Nat) (s : State) : (beginCapture c s).flt.standing = s.flt.standing := by
  unfold beginCapture
  split
  · rfl
  · exact ite_keeps (π := fun x => x.flt.standing) rfl rfl

/-- No event changes the pairs, the supply or the restarts. -/
theorem raise_standing (c : Nat) (a : List Nat) (s : State) : (raise c a s).flt.standing = s.flt.standing :=
  raise_untouched untouched_standing fun _ => beginCapture_standing c s

/-- No event but a fatal one changes the Barn. -/
theorem raise_barn (hc : evClass c ≠ 12) : (raise c a s).flt.barn = s.flt.barn ∧ (raise c a s).flt.capturing = s.flt.capturing :=
  ⟨raise_untouched (π := Flt.barn) ⟨fun _ _ _ _ _ _ _ _ => rfl, fun _ _ _ => rfl, fun _ _ _ _ _ => rfl⟩ fun h => absurd h hc,
    raise_untouched (π := Flt.capturing) ⟨fun _ _ _ _ _ _ _ _ => rfl, fun _ _ _ => rfl, fun _ _ _ _ _ => rfl⟩ fun h => absurd h hc⟩

/-! ### Sessions without subscriptions (R563) -/

/-- No session has subscribed to events. -/
def Unsubscribed (s : State) : Prop := ∀ e ∈ s.host.sessions, e.2.sub = none

/-- An event that is not non-maskable is delivered to no session that has not subscribed. -/
theorem deliverEvent_unsubscribed {e : EventRec} (h : Unsubscribed s) (he : evClass e.code ≠ 15) : deliverEvent e s = s :=
  List.foldlRecOn (motive := (· = s)) _ _ rfl fun x hx y hy => by
    rw [hx]
    simp only [h y hy]
    exact if_neg he

theorem beginCapture_host (c : Nat) (s : State) : (beginCapture c s).host = s.host := by
  unfold beginCapture
  split
  · rfl
  · exact ite_keeps (π := State.host) rfl rfl

theorem countEvent_host (c : Nat) (b : Bool) (s : State) : (countEvent c b s).host = s.host := by
  unfold countEvent
  exact ite_keeps (π := State.host) (ite_keeps (π := State.host) rfl rfl) (ite_keeps (π := State.host) rfl rfl)

theorem stopIfFatal_host (c : Nat) (s : State) : (stopIfFatal c s).host = s.host := ite_keeps (π := State.host) rfl rfl

theorem ledgerWrite_host (k c : Nat) (b : List Byte) (s : State) : (ledgerWrite k c b s).host = s.host := by
  obtain ⟨x, y, h⟩ := ledgerWrite_eq k c b s
  rw [h]
  rfl

theorem raiseCore_host (h : Unsubscribed s) (hc : evClass c ≠ 15) : (raiseCore c a s).host = s.host := by
  unfold raiseCore
  extract_lets x e s5
  have hx : x.host = s.host := ite_keeps (π := State.host) (beginCapture_host ..) rfl
  have h5 : s5.host = s.host := by
    rw [stopIfFatal_host, countEvent_host]
    exact hx
  clear_value s5
  rw [deliverEvent_unsubscribed (by rw [Unsubscribed, h5]; exact h) hc, ite_self, h5]

theorem dropWarning_host (h : Unsubscribed s) : (dropWarning c s).host = s.host := by
  unfold dropWarning
  extract_lets s1
  have h1 : s1.host = s.host := rfl
  clear_value s1
  split
  · refine (raiseCore_host ?_ (by decide)).trans h1
    rw [Unsubscribed, show (s1.mapFlt fun f => { f with dropEvTick := some s.tick }).host = s.host from h1]
    exact h
  · exact h1

theorem warnRecord_host {e : EventRec} (h : Unsubscribed s) : (warnRecord c e s).host = s.host := by
  unfold warnRecord
  split
  · rfl
  · split
    · exact ledgerWrite_host ..
    · exact dropWarning_host h

theorem ledgerEvent_host {e : EventRec} (h : Unsubscribed s) : (ledgerEvent c e s).host = s.host := by
  obtain ⟨x, y, hw⟩ := ledgerWrite_eq 1 c (e.toBytes false) s
  unfold ledgerEvent
  rw [hw]
  extract_lets s1 s2
  have h1 : s1.host = s.host := rfl
  clear_value s1
  have h2 : s2.host = s.host := by
    refine (raiseCore_host ?_ (by decide)).trans h1
    rw [Unsubscribed, show (s1.mapFlt fun f => { f with ledgerFFull := true }).host = s.host from h1]
    exact h
  clear_value s2
  split
  · exact (warnRecord_host (by rw [Unsubscribed, h2]; exact h)).trans h2
  · exact h1

/-- An event that is not non-maskable leaves the host port of a device whose sessions have not subscribed. -/
theorem raise_host (h : Unsubscribed s) (hc : evClass c ≠ 15) : (raise c a s).host = s.host := by
  have h1 := raiseCore_host (a := a) h hc
  have hu : Unsubscribed (raiseCore c a s) := by
    rw [Unsubscribed, h1]
    exact h
  unfold raise raiseLedger
  extract_lets e
  exact (ite_keeps (π := State.host) (ledgerEvent_host hu) (ite_keeps (π := State.host) (warnRecord_host hu) rfl)).trans h1

/-! ### The restart (R513) -/

theorem mem_mdel {α : Type} {m : SMap α} {n : Nat} {e : Nat × α} (h : e ∈ mdel m n) : e ∈ m ∧ e.1 ≠ n := by
  induction m with
  | nil => cases h
  | cons x m ih =>
    obtain ⟨k, w⟩ := x
    rw [mdel] at h
    split at h
    · obtain ⟨h1, h2⟩ := ih h
      exact ⟨List.mem_cons_of_mem _ h1, h2⟩
    · next hk =>
      rcases List.mem_cons.mp h with rfl | h
      · exact ⟨List.mem_cons_self, hk⟩
      · obtain ⟨h1, h2⟩ := ih h
        exact ⟨List.mem_cons_of_mem _ h1, h2⟩

/-- A fold of deletions leaves no key of its list. -/
theorem foldl_mdel_nil {α : Type} {l : List Nat} {m : SMap α} (h : ∀ e ∈ m, e.1 ∈ l) : l.foldl mdel m = [] := by
  induction l generalizing m with
  | nil => exact List.eq_nil_iff_forall_not_mem.mpr fun e he => absurd (h e he) List.not_mem_nil
  | cons n l ih =>
    refine ih fun e he => ?_
    obtain ⟨hm, hn⟩ := mem_mdel he
    exact (List.mem_cons.mp (h e hm)).resolve_left hn

theorem endSessions_sessions (l : List Nat) (s : State) :
    (l.foldl (fun a sid => endSession sid a) s).host.sessions = l.foldl mdel s.host.sessions := by
  induction l generalizing s with
  | nil => rfl
  | cons n l ih => exact ih _

/-- Every session ends with the restart, and no request waits. -/
theorem restartVintner_spec : (restartVintner s).host.sessions = [] ∧ (restartVintner s).mgt.order = [] ∧
    (restartVintner s).flt.vintnerUp = false ∧ (restartVintner s).sites.shadow.session = none ∧
    (restartVintner s).flt.restarts = s.tick :: restartsSoon s ∧ seen (restartVintner s) 0x8F01 = seen s 0x8F01 + 1 ∧
    regVal (restartVintner s) 0x00340068 = min (2 ^ 32 - 1) (regVal s 0x00340068 + 1) ∧ (restartVintner s).coll = s.coll ∧
    (restartVintner s).line = s.line := by
  unfold restartVintner
  extract_lets s1 s2 s3 s4 s5
  have hk : ∀ {γ : Type} (π : State → γ), (∀ x f, π (x.mapHost f) = π x) → (∀ x f, π (x.mapMgt f) = π x) → π s1 = π s := fun π hh hm =>
    foldl_keeps (π := π) (f := fun a sid => endSession sid a) (fun a sid => by rw [endSession, hm, hh]) _ s
  have hses : s1.host.sessions = [] := (endSessions_sessions _ s).trans (foldl_mdel_nil fun e he => List.mem_map_of_mem he)
  have h1 := hk State.flt (fun _ _ => rfl) fun _ _ => rfl
  have h2 := hk State.regs (fun _ _ => rfl) fun _ _ => rfl
  have h3 := hk State.coll (fun _ _ => rfl) fun _ _ => rfl
  have h4 := hk State.line (fun _ _ => rfl) fun _ _ => rfl
  clear_value s1
  have k4 : s4.host.sessions = [] ∧ s4.mgt.order = [] ∧ s4.sites.shadow.session = none ∧ s4.flt = s.flt ∧ s4.regs = s.regs ∧
      s4.coll = s.coll ∧ s4.line = s.line := ⟨hses, rfl, rfl, h1, h2, h3, h4⟩
  clear_value s4
  obtain ⟨k1, k2, k3, k5, k6, k7, k8⟩ := k4
  have hs5 : s5 = raise 0x8F01 [] (bump 0x00340068 s4) := rfl
  clear_value s5
  have hun : Unsubscribed (bump 0x00340068 s4) := by
    intro e he
    rw [show (bump 0x00340068 s4).host.sessions = [] from k1] at he
    cases he
  have h5 : s5.host.sessions = [] ∧ s5.mgt.order = [] ∧ s5.sites.shadow.session = none ∧ seen s5 0x8F01 = seen s 0x8F01 + 1 ∧
      regVal s5 0x00340068 = min (2 ^ 32 - 1) (regVal s 0x00340068 + 1) ∧ s5.coll = s.coll ∧ s5.line = s.line := by
    rw [hs5]
    refine ⟨?_, ?_, ?_, ?_, ?_, (raise_coll ..).trans k7, (raise_line ..).trans k8⟩
    · exact (congrArg HostPort.sessions (raise_host hun (by decide))).trans k1
    · exact (congrArg Mgt.order (raise_mgt ..)).trans k2
    · rw [raise_sites]
      exact k3
    · rw [seen_raise_self, seen_bump, seen_congr (congrArg Flt.counts k5)]
    · rw [raise_regVal _ _ _ _ (by decide), regVal_bump, if_pos rfl, regVal_congr k6]
  clear hs5
  obtain ⟨m1, m2, m3, m4, m5, m6, m7⟩ := h5
  exact ⟨m1, m2, rfl, m3, rfl, m4, m5, m6, m7⟩

end

/-- Settles O56: from what an event leaves of the pairs, and from the restart that ends every session. -/
theorem vintnerPairs : Obligations.VintnerPairs := by
  unfold Obligations.VintnerPairs
  refine ⟨?mismatch, ?watchdog, fun s pass => .of_next rfl ⟨rfl, rfl, rfl, rfl⟩, ?done, ?heartbeat⟩
  case mismatch =>
    intro s hup hsingle hstandby
    generalize hu : (s.mapFlt fun f => { f with vintnerActive := 1 - s.flt.vintnerActive, vintnerStandby := false }) = u
    have hrun : exec .vintnerPairMismatch s = .next (bump 0x00340064 (raise 0x4F01 [1 - s.flt.vintnerActive] u)) := by
      refine congrArg Host.Outcome.next ?_
      unfold pairMismatch
      rw [if_neg (by simp [hup]), if_neg (by simp [hsingle, hstandby]), ← hu]
    have hst := raise_standing 0x4F01 [1 - s.flt.vintnerActive] u
    have hf : u.flt.vintnerActive = 1 - s.flt.vintnerActive ∧ u.flt.vintnerStandby = false ∧ u.flt.counts = s.flt.counts ∧
        u.host = s.host ∧ u.mgt = s.mgt ∧ u.regs = s.regs := by
      rw [← hu]
      exact ⟨rfl, rfl, rfl, rfl, rfl, rfl⟩
    obtain ⟨h1, h2, h3, h4, h5, h6⟩ := hf
    refine .of_next hrun ⟨?_, ?_, fun hsub => ?_, ?_, ?_, ?_⟩
    · exact (congrArg (·.1) hst).trans h1
    · exact (congrArg (·.2.2.2.1) hst).trans h2
    · have hun : Unsubscribed u := by
        rw [Unsubscribed, h4]
        exact hsub
      exact congrArg HostPort.sessions ((raise_host hun (by decide)).trans h4)
    · exact (raise_mgt ..).trans h5
    · rw [seen_bump, seen_raise_self, seen_congr h3]
    · rw [regVal_bump, if_pos rfl, raise_regVal _ _ _ _ (by decide), regVal_congr h6]
  case watchdog =>
    intro c s hc hup
    have hrun : exec c s = .next (if 2 ≤ (restartsSoon s).length then raise 0xCF01 [] s else restartVintner s) := by
      have hw : watchdog s = if 2 ≤ (restartsSoon s).length then raise 0xCF01 [] s else restartVintner s := if_neg (by simp [hup])
      rcases hc with rfl | ⟨rfl, hsingle⟩
      · exact congrArg Host.Outcome.next hw
      · refine congrArg Host.Outcome.next (Eq.trans ?_ hw)
        unfold pairMismatch
        rw [if_neg (by simp [hup]), if_pos (.inl hsingle)]
    refine .of_next hrun ⟨fun h => ?_, fun h => ?_⟩
    · rw [if_neg (by omega)]
      exact restartVintner_spec
    · rw [if_pos h]
      exact ⟨raise_fatal rfl s, seen_raise_self, (congrArg (·.2.2.1) (raise_standing ..)).trans hup⟩
  case done =>
    intro s hup hr
    refine .of_next (congrArg Host.Outcome.next (if_neg (by simp [hup, hr]))) ⟨rfl, fun hb => ?_⟩
    have he : (restartDone s).bru = { s.bru with stepTick := s.tick } := if_pos hb
    rw [he]
    exact ⟨rfl, rfl⟩
  case heartbeat =>
    intro s
    exact .of_next rfl ⟨raise_fatal rfl s, by rw [raise_press, if_pos (by decide)], seen_raise_self⟩

end Sys2Proof.Machine

/-! R503, R518, R525, R527, R528, R576, R577: rails, captures, and the telemetry and test ports. -/

namespace Sys2Proof.Machine

open Sys2Proof

section

variable {s t u : State} {k : Nat}

/-! ### The Ledger's newest record (R522, R525) -/

/-- A record appended is the newest of its stream, under the next index. -/
theorem append_getLast {st : LedgerStream} {cap tick : Nat} {device : List Byte} {r : LedgerRec} (hc : 0 < cap) :
    ∃ x, (st.append cap tick device r).recs.getLast? = some x ∧ x.kind = r.kind ∧ x.body = r.body ∧ x.tick = r.tick ∧
      x.index + 1 = (st.append cap tick device r).next := by
  have hlast : ∀ (l : List LedgerRec) (x : LedgerRec), ((l ++ [x]).drop ((l ++ [x]).length - cap)).getLast? = some x := fun l x => by
    rw [List.getLast?_drop, if_neg (by simp; omega), List.getLast?_concat]
  exact ⟨_, hlast _ _, rfl, rfl, rfl, rfl⟩

/-- A record written to the Ledger is the newest of stream C. -/
theorem ledgerWrite_getLast {kind code : Nat} {body : List Byte} (hb : body.length ≤ 432) :
    ∃ r, (ledgerWrite kind code body s).flt.ledgerC.recs.getLast? = some r ∧ r.kind = kind ∧ r.body = body ∧ r.tick = s.tick ∧
      r.index + 1 = (ledgerWrite kind code body s).flt.ledgerC.next := by
  unfold ledgerWrite
  extract_lets r inF
  obtain ⟨x, h1, h2, h3, h4, h5⟩ := append_getLast (st := s.flt.ledgerC) (cap := 884736) (tick := s.tick) (device := s.mgt.deviceId)
    (r := r) (by decide)
  exact ⟨x, h1, h2, h3.trans (List.take_of_length_le hb), h4, h5⟩

/-- The failure of the supply: the event, its record, and what it sets. -/
theorem powerLoss_eq (n : Nat) (s : State) : powerLoss n s = (ledgerWrite 5 0 (leBytes 4 n) (raise 0xFF01 [] s)).mapFlt fun f =>
    { f with supplyLost := true, capturing := none } := rfl

theorem failSupply_keeps (u : State) : (u.mapFlt fun f => { f with supplyLost := true, capturing := none }).flt.supplyLost = true ∧
    (∀ c, seen (u.mapFlt fun f => { f with supplyLost := true, capturing := none }) c = seen u c) ∧
    (u.mapFlt fun f => { f with supplyLost := true, capturing := none }).flt.ledgerC = u.flt.ledgerC := ⟨rfl, fun _ => rfl, rfl⟩

/-- The supply's failure raises its event and writes one record of the records still queued. -/
theorem powerLoss_spec (n : Nat) (s : State) : (powerLoss n s).flt.supplyLost = true ∧ seen (powerLoss n s) 0xFF01 = seen s 0xFF01 + 1 ∧
    ∃ r, (powerLoss n s).flt.ledgerC.recs.getLast? = some r ∧ r.kind = 5 ∧ r.body = leBytes 4 n ∧ r.tick = s.tick ∧
      r.index + 1 = (powerLoss n s).flt.ledgerC.next := by
  have h := ledgerWrite_getLast (s := raise 0xFF01 [] s) (kind := 5) (code := 0) (body := leBytes 4 n)
    (by rw [leBytes_length]; decide)
  rw [raise_tick] at h
  obtain ⟨h1, h2, h3⟩ := failSupply_keeps (ledgerWrite 5 0 (leBytes 4 n) (raise 0xFF01 [] s))
  rw [powerLoss_eq, h2, h3, seen_congr (ledgerWrite_rest ..).1, seen_raise_self]
  exact ⟨h1, rfl, h⟩

/-! ### Captures (R518, R527, R528) -/

theorem barnSlot_congr (h : t.flt.barn = s.flt.barn) : barnSlot t = barnSlot s := by
  funext n
  rw [barnSlot, h, barnSlot]

/-- A capture under way from one state to another: only the sections of its slot have changed in the state of faults. -/
structure Captures (k : Nat) (s t : State) : Prop where
  slot : ∃ l, barnSlot t k = { barnSlot s k with sections := l }
  other : barnSlot t (1 - k) = barnSlot s (1 - k)
  counts : t.flt.counts = s.flt.counts

theorem Captures.refl : Captures k s s := ⟨⟨_, rfl⟩, rfl, rfl⟩

theorem Captures.written (hk : k < 2) {i : Nat} {g : Nat × Nat × List Byte} {a : Nat × State} (h : Captures k s a.2) :
    Captures k s (writeSection k i g a).2 := by
  obtain ⟨l, hl⟩ := h.slot
  refine ⟨⟨l ++ [(g.1 + g.2.1 * 2 ^ 16, a.1, g.2.2.length)], ?_⟩, ?_, h.counts⟩
  · refine (vget_vupd_self hk).trans ?_
    exact congrArg (fun b : BarnSlot => { b with sections := b.sections ++ [(g.1 + g.2.1 * 2 ^ 16, a.1, g.2.2.length)] }) hl
  · exact (vget_vupd_ne _ _ _ (by omega)).trans h.other

/-- Nothing but an area has changed, and a larger one holds it. -/
theorem Elsewhere.mono {a n m : Nat} (h : Elsewhere s t a n) (hm : n ≤ m) : Elsewhere s t a m := fun b hb => h b (by omega)

theorem Elsewhere.dramWrite {a n b : Nat} {l : List Byte} (h : Elsewhere s t a n) (h1 : a ≤ b) (h2 : b + l.length ≤ a + n) :
    Elsewhere s (dramWrite b l t) a n := fun c hc =>
  (dramByte_dramWrite_outside (by omega)).trans (h c hc)

theorem shake256_length_le (m : List Byte) (n : Nat) : (shake256 m n).length ≤ n := List.length_take_le ..

theorem directoryEntry_length_le (id flags off : Nat) (l : List Byte) : (directoryEntry id flags off l).length ≤ 32 := by
  have h := shake256_length_le l 8
  simp only [directoryEntry, List.length_append, leBytes_length]
  omega

/-- A section and its entry lie in the capture as it then stands. -/
theorem writeSection_elsewhere {i : Nat} {g : Nat × Nat × List Byte} {a : Nat × State} (hi : i < 64) (ha : 4096 ≤ a.1)
    (h : Elsewhere s a.2 (barnBase k) a.1) : Elsewhere s (writeSection k i g a).2 (barnBase k) (writeSection k i g a).1 := by
  have hd := directoryEntry_length_le g.1 g.2.1 a.1 g.2.2
  have hw : Elsewhere s (dramWrite (barnBase k + 128 + 32 * i) (directoryEntry g.1 g.2.1 a.1 g.2.2)
      (dramWrite (barnBase k + a.1) g.2.2 a.2)) (barnBase k) (a.1 + g.2.2.length) :=
    ((h.mono (by omega)).dramWrite (by omega) (by omega)).dramWrite (by omega) (by omega)
  exact hw

theorem insertByKey_length {α : Type} (key : α → Nat) (x : α) (l : List α) : (insertByKey key x l).length = l.length + 1 := by
  induction l with
  | nil => rfl
  | cons y l ih =>
    rw [insertByKey]
    split
    · rfl
    · rw [List.length_cons, ih, List.length_cons]

theorem sortByKey_length {α : Type} (key : α → Nat) (l : List α) : (sortByKey key l).length = l.length := by
  have h : ∀ a : List α, (l.foldl (fun a x => insertByKey key x a) a).length = a.length + l.length := by
    induction l with
    | nil => exact fun a => rfl
    | cons x l ih =>
      intro a
      rw [List.foldl_cons, ih, insertByKey_length, List.length_cons]
      omega
  rw [sortByKey, h, List.length_nil, Nat.zero_add]

theorem captureSections_length_le (s : State) (l : List (Nat × Bool × List Byte)) : (captureSections s l).length ≤ l.length + 1 := by
  have h := List.length_filter_le (fun g : Nat × Bool × List Byte => sectionTaken s g.1) l
  simp only [captureSections, List.length_map, List.length_cons, sortByKey_length]
  omega

/-- The sections of a capture one after the other. -/
theorem writeSections_captures {l : List (Nat × Nat × Nat × List Byte)} (hk : k < 2) :
    Captures k s (l.foldl (fun a e => writeSection k e.1 e.2 a) (4096, s)).2 :=
  List.foldlRecOn (motive := fun a : Nat × State => Captures k s a.2) _ _ .refl fun _ h _ _ => h.written hk

theorem writeSections_elsewhere {l : List (Nat × Nat × Nat × List Byte)} (hl : ∀ e ∈ l, e.1 < 64) :
    4096 ≤ (l.foldl (fun a e => writeSection k e.1 e.2 a) (4096, s)).1 ∧
    Elsewhere s (l.foldl (fun a e => writeSection k e.1 e.2 a) (4096, s)).2 (barnBase k)
      (l.foldl (fun a e => writeSection k e.1 e.2 a) (4096, s)).1 :=
  List.foldlRecOn (motive := fun a : Nat × State => 4096 ≤ a.1 ∧ Elsewhere s a.2 (barnBase k) a.1) _ _ ⟨Nat.le_refl _, fun _ _ => rfl⟩
    fun _ h e he => ⟨h.1.trans (Nat.le_add_right ..), writeSection_elsewhere (hl e he) h.1 h.2⟩

theorem head_length_le (b : BarnSlot) (k : Nat) : (b.head k).length ≤ 128 := by
  simp [BarnSlot.head, padTo, leBytes_length]

/-- The head of a slot's header is written at the slot's base. -/
theorem updBarn_spec {f : BarnSlot → BarnSlot} (hk : k < 2) : barnSlot (updBarn k f s) k = f (barnSlot s k) ∧
    barnSlot (updBarn k f s) (1 - k) = barnSlot s (1 - k) ∧ (updBarn k f s).flt.counts = s.flt.counts ∧
    Elsewhere s (updBarn k f s) (barnBase k) 128 := by
  refine ⟨vget_vupd_self hk, vget_vupd_ne _ _ _ (by omega), rfl, ?_⟩
  have hl := head_length_le (barnSlot (s.mapFlt fun x => { x with barn := vupd x.barn k f }) k) k
  have h : Elsewhere s (s.mapFlt fun x => { x with barn := vupd x.barn k f }) (barnBase k) 128 := fun _ _ => rfl
  exact h.dramWrite (Nat.le_refl _) (by omega)

/-- A capture that ends is VALID in its slot with what it had, and with the outcome given. -/
theorem captureDone_spec {l : List (Nat × Bool × List Byte)} {ok : Bool} {n : Nat} (hk : k < 2) :
    (barnSlot (captureDone k l ok n s) k).valid = true ∧ (barnSlot (captureDone k l ok n s) k).complete = ok ∧
    (barnSlot (captureDone k l ok n s) k).read = false ∧ (barnSlot (captureDone k l ok n s) k).ueWords = n ∧
    (barnSlot (captureDone k l ok n s) k).cause = (barnSlot s k).cause ∧ (captureDone k l ok n s).flt.capturing = none ∧
    barnSlot (captureDone k l ok n s) (1 - k) = barnSlot s (1 - k) ∧
    seen (captureDone k l ok n s) 0x1F02 = seen s 0x1F02 + 1 ∧
    (l.length ≤ 63 → Elsewhere s (captureDone k l ok n s) (barnBase k) (barnSlot (captureDone k l ok n s) k).length) := by
  unfold captureDone
  extract_lets secs r s1
  have hc : Captures k s r.2 := writeSections_captures hk
  have he : l.length ≤ 63 → 4096 ≤ r.1 ∧ Elsewhere s r.2 (barnBase k) r.1 := fun hl => writeSections_elsewhere fun e hm => by
    obtain ⟨i, hi, rfl⟩ := List.mem_mapIdx.mp hm
    exact Nat.lt_of_lt_of_le hi ((captureSections_length_le s l).trans (by omega))
  obtain ⟨hslot, hother, hcounts, hmem⟩ := updBarn_spec (s := r.2) (f := fun b => { b with
    valid := true, complete := ok, ueSeen := secs.any fun g => bitOf g.2.1 1, read := false, length := r.1, ueWords := n }) hk
  change barnSlot s1 k = _ at hslot
  change barnSlot s1 (1 - k) = _ at hother
  change s1.flt.counts = _ at hcounts
  change Elsewhere r.2 s1 _ _ at hmem
  clear_value s1 r
  obtain ⟨⟨sec, h1⟩, h2, h3⟩ := hc
  obtain ⟨hb, hcap⟩ := raise_barn (s := s1.mapFlt fun f => { f with capturing := none }) (c := 0x1F02) (a := [k]) (by decide)
  have hbs : barnSlot (raise 0x1F02 [k] (s1.mapFlt fun f => { f with capturing := none })) = barnSlot s1 := barnSlot_congr hb
  rw [hbs, hslot, hother, h1]
  refine ⟨rfl, rfl, rfl, rfl, rfl, hcap, h2, ?_, fun hl => ?_⟩
  · rw [seen_raise_self]
    exact congrArg (· + 1) (seen_congr (hcounts.trans h3) _)
  · obtain ⟨hr, hm⟩ := he hl
    intro b hb
    have hd : dramByte (raise 0x1F02 [k] (s1.mapFlt fun f => { f with capturing := none })) b = dramByte s1 b :=
      congrFun (dramByte_congr (raise_mem ..)) b
    have hb' : b < barnBase k ∨ barnBase k + r.1 ≤ b := hb
    exact hd.trans ((hmem b (by omega)).trans (hm b hb'))

end

/-- Settles O57: from the newest record of stream C, and from the sections and the header that a capture writes. -/
theorem railsCapturesAndTestPorts : Obligations.RailsCapturesAndTestPorts := by
  unfold Obligations.RailsCapturesAndTestPorts
  refine ⟨⟨?rail, ?power⟩, ?capture, ?telemetry, ?jtag⟩
  case rail =>
    intro s r
    refine .of_next rfl ⟨fun h => ?_, fun h => if_pos h⟩
    rw [if_neg (by simp [h]), raise_bru, seen_raise_self]
    exact ⟨raise_fatal rfl _, rfl, rfl⟩
  case power =>
    intro s n h
    exact .of_next (congrArg Host.Outcome.next (if_neg (by simp [h]))) (powerLoss_spec n s)
  case capture =>
    intro s l ok n
    refine .of_next rfl ⟨fun h => by rw [h]; rfl, fun k h hk => ?_⟩
    rw [h]
    exact captureDone_spec hk
  case telemetry =>
    intro s
    exact .of_next rfl ⟨rfl, rfl, rfl, rfl⟩
  case jtag =>
    intro s ir
    cases ir <;> exact .of_next rfl ⟨by simp, by simp, by simp [idcode], rfl, rfl, rfl⟩

end Sys2Proof.Machine

/-! R412, R527, R533: what a cold and a warm start keep. -/

namespace Sys2Proof.Machine

open Sys2Proof

section

variable {s t : State} {k : Nat}

/-! ### What every start keeps (R533) -/

theorem fallBack_deviceId (g : Mgt) : g.fallBack.deviceId = g.deviceId ∧ g.fallBack.boot = g.boot := by
  unfold Mgt.fallBack
  split
  · exact ⟨rfl, rfl⟩
  · exact ⟨rfl, rfl⟩

theorem fallBack_slots {g : Mgt} (h : g.trial = false) : g.fallBack.slots = g.slots ∧ g.fallBack.active = g.active := by
  rw [Mgt.fallBack, if_neg (by simp [h])]
  exact ⟨rfl, rfl⟩

theorem startBase_dram (s : State) : (startBase s).mem.dram = [] := rfl

theorem startBase_barn (s : State) : (startBase s).flt.barn = #v[BarnSlot.empty, BarnSlot.empty] := rfl

/-! ### Cold starts (R533, R527) -/

/-- The state of reset with what every start keeps, and a START_ID. -/
def withStartId (s : State) : State :=
  { (startBase s).takeFree.2 with sec := { (startBase s).takeFree.2.sec with startId := (startBase s).takeFree.1 % 2 ^ 64 } }

theorem coldStart_held (s : State) : coldStart true s =
    ((withStartId s).mapFlt fun f => { f with barn := s.flt.barn.map fun b => if b.valid then b else BarnSlot.empty }).mapMem
      fun m => { m with dram := barnWindow s.mem.dram } := rfl

theorem coldStart_unheld (s : State) : coldStart false s = withStartId s := rfl

/-- What a start keeps whether power was held or not. -/
structure StartKept (s t : State) : Prop where
  deviceId : t.mgt.deviceId = s.mgt.deviceId
  slots : s.mgt.trial = false → t.mgt.slots = s.mgt.slots ∧ t.mgt.active = s.mgt.active
  manifest : t.bru.manifest = s.bru.manifest
  softCores : t.bru.softCores = s.bru.softCores
  softClusters : t.bru.softClusters = s.bru.softClusters
  ledgerC : t.flt.ledgerC = s.flt.ledgerC
  ledgerF : t.flt.ledgerF = s.flt.ledgerF
  anchor : t.sec.anchor = s.sec.anchor
  enrolled : t.sec.enrolled = s.sec.enrolled
  pending : t.pending = s.pending

theorem withStartId_kept (s : State) : StartKept s (withStartId s) where
  deviceId := (fallBack_deviceId s.mgt).1
  slots h := fallBack_slots h
  manifest := rfl
  softCores := rfl
  softClusters := rfl
  ledgerC := rfl
  ledgerF := rfl
  anchor := rfl
  enrolled := rfl
  pending := rfl

theorem coldStart_kept (held : Bool) (s : State) : StartKept s (coldStart held s) := by
  obtain ⟨hid, hslots, hman, hcores, hclusters, hc, hf, ha, he, hp⟩ := withStartId_kept s
  cases held with
  | false => exact withStartId_kept s
  | true => rw [coldStart_held]; exact ⟨hid, hslots, hman, hcores, hclusters, hc, hf, ha, he, hp⟩

theorem withStartId_fresh (s : State) : (withStartId s).tick = 0 ∧ (withStartId s).regs = [] ∧ (withStartId s).host.sessions = [] ∧
    (withStartId s).bru.step = 1 ∧ (withStartId s).bru.running = true ∧ (withStartId s).bru.ready = false :=
  ⟨rfl, rfl, rfl, rfl, rfl, rfl⟩

theorem coldStart_fresh (held : Bool) (s : State) : (coldStart held s).tick = 0 ∧ (coldStart held s).regs = [] ∧
    (coldStart held s).host.sessions = [] ∧ (coldStart held s).bru.step = 1 ∧ (coldStart held s).bru.running = true ∧
    (coldStart held s).bru.ready = false := by
  have h := withStartId_fresh s
  cases held with
  | false => exact h
  | true => rw [coldStart_held]; exact h

theorem cellGet_barnWindow (m : List Host.Cell) (a : Nat) :
    cellGet (barnWindow m) a = if 0xD480000000 ≤ a ∧ a < 0xD680000000 then cellGet m a else 0 := by
  have h := mget_filter m (fun k => decide (0xD480000000 ≤ k) && decide (k < 0xD680000000)) a
  rw [cellGet]
  refine (congrArg (Option.getD · memDefault) h).trans ?_
  by_cases hc : 0xD480000000 ≤ a ∧ a < 0xD680000000
  · rw [if_pos (by simpa using hc), if_pos hc]
    rfl
  · rw [if_neg (by simpa using hc), if_neg hc]
    rfl

theorem dramByte_coldStart (held : Bool) (s : State) (a : Nat) : dramByte (coldStart held s) a =
    if held = true ∧ 0xD480000000 ≤ a ∧ a < 0xD680000000 then dramByte s a else 0 := by
  cases held with
  | false => rw [if_neg (by simp)]; rfl
  | true =>
    have h := cellGet_barnWindow s.mem.dram a
    simp only [true_and]
    exact h

theorem barnSlot_coldStart_held (hk : k < 2) (s : State) :
    barnSlot (coldStart true s) k = if (barnSlot s k).valid then barnSlot s k else BarnSlot.empty :=
  vget_map s.flt.barn k _ BarnSlot.empty hk

theorem barnSlot_coldStart_unheld (hk : k < 2) (s : State) : barnSlot (coldStart false s) k = BarnSlot.empty := by
  have h : barnSlot (coldStart false s) k = vget #v[BarnSlot.empty, BarnSlot.empty] k BarnSlot.empty := rfl
  rw [h]
  interval_cases k
  · rfl
  · rfl

theorem barnSlot_coldStart (held : Bool) (s : State) (hk : k < 2) :
    (held = true ∧ (barnSlot s k).valid = true → barnSlot (coldStart held s) k = barnSlot s k) ∧
      (held = false ∨ (barnSlot s k).valid = false → (barnSlot (coldStart held s) k).valid = false) := by
  cases held with
  | false => exact ⟨fun h => absurd h.1 (by decide), fun _ => by rw [barnSlot_coldStart_unheld hk]; rfl⟩
  | true =>
    rw [barnSlot_coldStart_held hk]
    refine ⟨fun ⟨_, hv⟩ => if_pos hv, ?_⟩
    rintro (h | h)
    · cases h
    · rw [if_neg (by simp [h])]
      rfl

/-! ### Warm starts (R533) -/

theorem startStep_two (s : State) :
    startStep 2 s = s.mapBru fun b => { b with step := 2, stepTick := s.tick, lastStep := 2, result := 1, detail := 0 } := by
  rw [startStep, if_neg (by decide), if_neg (by decide), if_neg (by decide)]

theorem startAborts_idle (h : s.coll.insts = []) : (startAborts s).flt = s.flt := by
  rw [startAborts]
  generalize hs : State.mapSites (State.mapHost { s with qos := State.reset.qos } _) _ = s1
  have hi : s1.coll.insts = [] := by rw [← hs]; exact h
  have hf : s1.flt = s.flt := by rw [← hs]; rfl
  simp only [hi, List.foldl_nil, hf]

/-- What a warm start keeps and begins, of the state before the tables are kept. -/
theorem warmStart_eq (s : State) : ∃ u : State, warmStart s = startStep 2 (bump 0x00380040 (keepTables s u)) ∧
    u.regs = (s.regs.filter fun e => decide (0x00380040 ≤ e.1) && decide (e.1 ≤ 0x0038004C)) ∧
    u.mem.dram = s.mem.dram ∧ u.mem.regions = s.mem.regions ∧ u.flt.barn = s.flt.barn ∧ u.sec.anchor = s.sec.anchor ∧
    (u.bru.straps = s.bru.straps ∧ u.bru.manifest = s.bru.manifest ∧ u.bru.warm = true ∧ u.bru.ready = false) ∧
    (u.mgt.boot = (s.mgt.fallBack.boot + 1) % 2 ^ 16 ∧ u.mgt.startNext = false) ∧ u.host.sessions = [] ∧ u.coll.insts = [] ∧
    u.cellar = Cellar.reset ∧ u.opt.phys = (startBase s).opt.phys.mapIdx fun i x =>
      { x with txChannel := (physOf s i).txChannel, loChannel := (physOf s i).loChannel, locked := (physOf s i).locked } := by
  refine ⟨_, rfl, ?_⟩
  exact ⟨rfl, rfl, rfl, rfl, rfl, ⟨rfl, rfl, rfl, rfl⟩, ⟨rfl, rfl⟩, rfl, rfl, rfl, rfl⟩

/-- The registers at 0x380040 to 0x38004C outlive a warm start. -/
theorem regVal_filter {u : State} {lo hi a : Nat} (hu : u.regs = s.regs.filter fun e => decide (lo ≤ e.1) && decide (e.1 ≤ hi))
    (hlo : lo ≤ a) (hhi : a ≤ hi) : regVal u a = regVal s a := by
  rw [regVal, hu, mget_filter s.regs (fun n => decide (lo ≤ n) && decide (n ≤ hi)), if_pos (by simp [hlo, hhi]), regVal]

/-- A step begun at 2 and a register counted leave the rest as it was. -/
theorem startTwo_fields (a : Nat) (u : State) : (startStep 2 (bump a u)).mem = u.mem ∧ (startStep 2 (bump a u)).flt = u.flt ∧
    (startStep 2 (bump a u)).sec = u.sec ∧ (startStep 2 (bump a u)).mgt = u.mgt ∧ (startStep 2 (bump a u)).host = u.host ∧
    (startStep 2 (bump a u)).coll = u.coll ∧ (startStep 2 (bump a u)).cellar = u.cellar ∧ (startStep 2 (bump a u)).opt = u.opt := by
  rw [startStep_two]
  exact ⟨rfl, rfl, rfl, rfl, rfl, rfl, rfl, rfl⟩

theorem startTwo_bru (a : Nat) (u : State) : (startStep 2 (bump a u)).bru.step = 2 ∧ (startStep 2 (bump a u)).bru.result = 1 ∧
    (startStep 2 (bump a u)).bru.straps = u.bru.straps ∧ (startStep 2 (bump a u)).bru.manifest = u.bru.manifest ∧
    (startStep 2 (bump a u)).bru.warm = u.bru.warm ∧ (startStep 2 (bump a u)).bru.ready = u.bru.ready := by
  rw [startStep_two]
  exact ⟨rfl, rfl, rfl, rfl, rfl, rfl⟩

theorem regVal_startTwo (a b : Nat) (u : State) : regVal (startStep 2 (bump a u)) b = regVal (bump a u) b := by
  rw [startStep_two]
  exact regVal_congr rfl b

/-- The tables kept leave memory, registers, security, management, bring-up, Cellar and optics alone. -/
theorem keepTables_fields (s u : State) : (keepTables s u).mem = u.mem ∧ (keepTables s u).regs = u.regs ∧
    (keepTables s u).sec = u.sec ∧ (keepTables s u).mgt = u.mgt ∧ (keepTables s u).bru = u.bru ∧
    (keepTables s u).cellar = u.cellar ∧ (keepTables s u).opt = u.opt := ⟨rfl, rfl, rfl, rfl, rfl, rfl, rfl⟩

theorem keepTables_tables (s u : State) : (keepTables s u).flt.barn = u.flt.barn ∧
    (keepTables s u).flt.ledgerC = (startAborts s).flt.ledgerC ∧ (keepTables s u).host.sessions = u.host.sessions ∧
    (keepTables s u).coll.insts = u.coll.insts ∧ (keepTables s u).coll.groups = s.coll.groups ∧
    (keepTables s u).coll.programs = s.coll.programs := ⟨rfl, rfl, rfl, rfl, rfl, rfl⟩

/-- R533: a warm start keeps what it must and begins at step 2. -/
theorem warmStart_keeps (s : State) : Runs .warmStart s fun t =>
    (s.mgt.startNext = false → t = s) ∧
      (s.mgt.startNext = true → t.mem.dram = s.mem.dram ∧ t.mem.regions = s.mem.regions ∧ t.bru.straps = s.bru.straps ∧
        t.bru.manifest = s.bru.manifest ∧ (s.coll.insts = [] → t.flt.ledgerC = s.flt.ledgerC) ∧ t.flt.barn = s.flt.barn ∧
        t.sec.anchor = s.sec.anchor ∧
        t.bru.step = 2 ∧ t.bru.result = 1 ∧ t.bru.warm = true ∧ t.bru.ready = false ∧ t.mgt.boot = (s.mgt.boot + 1) % 2 ^ 16 ∧
        t.host.sessions = [] ∧ t.coll.insts = [] ∧ t.coll.groups = s.coll.groups ∧
        t.coll.programs = s.coll.programs ∧ t.cellar = Cellar.reset ∧ t.mgt.startNext = false ∧
        regVal t 0x00380040 = min (2 ^ 32 - 1) (regVal s 0x00380040 + 1) ∧ regVal t 0x00380044 = regVal s 0x00380044 ∧
        (∀ k, k < 5 → (physOf t k).txChannel = (physOf s k).txChannel ∧ (physOf t k).loChannel = (physOf s k).loChannel)) := by
  refine Runs.of_next (t := if s.mgt.startNext then warmStart s else s) rfl ⟨fun h => if_neg (by simp [h]), fun h => ?_⟩
  rw [if_pos h]
  obtain ⟨u, he, hregs, hdram, hregions, hbarn, hanchor, ⟨hstraps, hman, hwarm, hready⟩, ⟨hboot, hnext⟩, hses, hinsts, hcellar, hphys⟩ :=
    warmStart_eq s
  rw [he]
  obtain ⟨kmem, kregs, ksec, kmgt, kbru, kcellar, kopt⟩ := keepTables_fields s u
  obtain ⟨kbarn, kledger, kses, kinsts, kgroups, kprograms⟩ := keepTables_tables s u
  generalize keepTables s u = v at kmem kregs ksec kmgt kbru kcellar kopt kbarn kledger kses kinsts kgroups kprograms ⊢
  obtain ⟨hmem, hflt, hsec, hmgt, hhost, hcoll, hcel, hopt⟩ := startTwo_fields 0x00380040 v
  obtain ⟨hstep, hresult, bstraps, bman, bwarm, bready⟩ := startTwo_bru 0x00380040 v
  have hval : ∀ a, 0x00380040 ≤ a → a ≤ 0x0038004C → regVal v a = regVal s a := fun a h1 h2 =>
    regVal_filter (kregs.trans hregs) h1 h2
  refine ⟨by rw [hmem, kmem, hdram], by rw [hmem, kmem, hregions], by rw [bstraps, kbru, hstraps], by rw [bman, kbru, hman], fun hi => ?_,
    by rw [hflt, kbarn, hbarn], by rw [hsec, ksec, hanchor], hstep, hresult, by rw [bwarm, kbru, hwarm], by rw [bready, kbru, hready], ?_,
    by rw [hhost, kses, hses], by rw [hcoll, kinsts, hinsts], by rw [hcoll, kgroups], by rw [hcoll, kprograms],
    by rw [hcel, kcellar, hcellar], by rw [hmgt, kmgt, hnext], ?_, ?_, fun k hk => ?_⟩
  · rw [hflt, kledger, startAborts_idle hi]
  · rw [hmgt, kmgt, hboot, (fallBack_deviceId s.mgt).2]
  · rw [regVal_startTwo, regVal_bump, if_pos rfl, hval _ (by decide) (by decide)]
  · rw [regVal_startTwo, regVal_bump, if_neg (by decide), hval _ (by decide) (by decide)]
  · rw [physOf, hopt, kopt, hphys, vget_mapIdx _ _ _ _ hk]
    exact ⟨rfl, rfl⟩

end

/-- Settles O58: a start builds its state from that of reset; what it keeps is copied field by field, DRAM through the Barn's window. -/
theorem startsKeepWhatTheyMust : Obligations.StartsKeepWhatTheyMust := by
  refine ⟨fun s held => ?_, warmStart_keeps⟩
  obtain ⟨hid, hslots, hman, hcores, hclusters, hc, hf, ha, he, hp⟩ := coldStart_kept held s
  obtain ⟨htick, hregs, hses, hstep, hrunning, hready⟩ := coldStart_fresh held s
  exact Runs.of_next (t := coldStart held s) rfl
    ⟨hid, hman, hcores, hclusters, hc, hf, ha, he, hp, htick, hregs, hses, hstep, hrunning, hready, hslots, dramByte_coldStart held s,
      fun _ hk => barnSlot_coldStart held s hk⟩

end Sys2Proof.Machine

/-! R534 to R543: bring-up steps, Press waves and stepped mode. -/

namespace Sys2Proof.Machine

open Sys2Proof

section

variable {s : State} {r : StepReport} {n : Nat}

/-! ### What the sequence goes by -/

/-- What of the state says where the sequence stands: stepped mode, the step, a warm start, the tick. -/
def stepView (s : State) : Bool × Nat × Bool × Nat := (s.bru.stepped, s.bru.step, s.bru.warm, s.tick)

theorem stepView_congr {t : State} (hb : t.bru = s.bru) (ht : t.tick = s.tick) : stepView t = stepView s := by
  rw [stepView, hb, ht, stepView]

theorem ledgerWrite_stepView (k c : Nat) (b : List Byte) (s : State) : stepView (ledgerWrite k c b s) = stepView s := by
  obtain ⟨x, y, h⟩ := ledgerWrite_eq k c b s
  rw [h]
  rfl

theorem retireCluster_stepView (d c : Nat) (s : State) : stepView (retireCluster d c s) = stepView s := by
  unfold retireCluster
  extract_lets die s1 s2
  have h2 : stepView s2 = stepView s := rfl
  exact ite_keeps (π := stepView) ((stepView_congr (raise_bru ..) (raise_tick ..)).trans h2) rfl

theorem takeSpare_stepView (d c : Nat) (s : State) : stepView (takeSpare d c s) = stepView s :=
  ite_keeps (π := stepView) rfl (retireCluster_stepView d c s)

theorem retireTested_stepView (s : State) (c : Nat × Nat × Nat) : stepView (retireTested s c) = stepView s :=
  ite_keeps (π := stepView) rfl ((takeSpare_stepView ..).trans (ledgerWrite_stepView ..))

theorem retireTestedCluster_stepView (s : State) (c : Nat × Nat) : stepView (retireTestedCluster s c) = stepView s :=
  ite_keeps (π := stepView) rfl ((retireCluster_stepView ..).trans (ledgerWrite_stepView ..))

/-! ### Effects of the steps (R536, R537, R543) -/

theorem updDie_stepView (i : Nat) (f : Die → Die) (s : State) : stepView (updDie i f s) = stepView s := rfl

theorem applySoftMap_stepView (s : State) : stepView (applySoftMap s) = stepView s := by
  unfold applySoftMap
  extract_lets s1
  have h1 : stepView s1 = stepView s := foldl_keeps (π := stepView) (fun a c => updDie_stepView _ _ a) _ s
  refine (foldl_keeps (π := stepView) (fun a k => ?_) _ s1).trans h1
  exact ite_keeps (π := stepView) rfl (updDie_stepView _ _ a)

theorem linksDone_stepView (r : StepReport) (s : State) : stepView (linksDone r s) = stepView s := by
  unfold linksDone
  extract_lets s1 s2
  have h1 : stepView s1 = stepView s := by
    cases hp : preferred s with
    | none => simp only [s1, hp]
    | some p =>
      simp only [s1, hp]
      exact ite_keeps (π := stepView) rfl rfl
  have h2 : stepView s2 = stepView s1 := foldl_keeps (π := stepView) (fun a l => updDie_stepView _ _ a) _ s1
  rw [applySoftMap_stepView, ← h1, ← h2]
  rfl

theorem selfTestDone_stepView (r : StepReport) (s : State) : stepView (selfTestDone r s) = stepView s := by
  unfold selfTestDone
  extract_lets s1 s2
  have h1 : stepView s1 = stepView s := (foldl_keeps (π := stepView) retireTestedCluster_stepView _ _).trans
    (foldl_keeps (π := stepView) retireTested_stepView _ _)
  have h2 : stepView s2 = stepView s1 := rfl
  exact ite_keeps (π := stepView) (h2.trans h1) (h2.trans h1)

theorem tuneLanes_stepView (s : State) : stepView (tuneLanes s) = stepView s := by
  unfold tuneLanes
  extract_lets m chan
  refine ite_keeps (π := stepView) rfl (foldl_keeps (π := stepView) (fun a k => ?_) _ s)
  exact ite_keeps (π := stepView) rfl rfl

theorem startupSet_stepView (s : State) : stepView (startupSet s) = stepView s := by
  unfold startupSet
  extract_lets m
  refine foldl_keeps (π := stepView) (fun a p => ?_) _ s
  exact ite_keeps (π := stepView) rfl (ite_keeps (π := stepView) rfl rfl)

theorem opticsDone_stepView (r : StepReport) (s : State) : stepView (opticsDone r s) = stepView s := by
  unfold opticsDone
  extract_lets s1 s2 s3
  have h1 : stepView s1 = stepView s := rfl
  have h2 : stepView s2 = stepView (tuneLanes s1) := by
    refine foldl_keeps (π := stepView) (fun a n => ?_) _ (tuneLanes s1)
    rfl
  have h3 : stepView s3 = stepView s2 := rfl
  rw [startupSet_stepView, h3, h2, tuneLanes_stepView, h1]

theorem mapMem_stepView (f : Mem → Mem) (s : State) : stepView (s.mapMem f) = stepView s := rfl

theorem memTestDone_stepView (r : StepReport) (s : State) : stepView (memTestDone r s) = stepView s := by
  unfold memTestDone
  extract_lets quick held s1 s2
  have h1 : stepView s1 = stepView s := rfl
  rw [← h1]
  rfl

/-- From step 3 on no step's effect changes where the sequence stands. -/
theorem stepEffect_stepView (h3 : 3 ≤ n) (h8 : n ≤ 8) : stepView (stepEffect n r s) = stepView s := by
  interval_cases n
  · exact linksDone_stepView r s
  · exact selfTestDone_stepView r s
  · exact mapMem_stepView _ _
  · exact memTestDone_stepView r s
  · exact mapMem_stepView _ _
  · exact opticsDone_stepView r s

/-! ### The sequence (R534 to R537) -/

/-- What a report that passes leaves before the next step begins. -/
def stepPassed (r : StepReport) (s : State) : State :=
  ((stepEffect s.bru.step r s).mapBru fun b => { b with result := 2, detail := r.detail, railsOk := r.railsOk }).mapFlt
    fun f => { f with holdupPct := min 100 r.holdupPct, holdUs := min 65535 r.holdUs }

/-- A step is under way and its report awaited. -/
structure StepAwaited (s : State) : Prop where
  running : s.bru.running = true
  sound : s.flt.fatal = false
  step : s.bru.step ≤ 8
  result : s.bru.result ≠ 2

theorem StepAwaited.not_idle (h : StepAwaited s) : ¬ (¬ s.bru.running ∨ s.flt.fatal ∨ 8 < s.bru.step ∨ s.bru.result = 2) := by
  obtain ⟨hr, hf, hs, hres⟩ := h
  rintro (h | h | h | h)
  · exact h hr
  · rw [hf] at h
    cases h
  · omega
  · exact hres h

theorem stepDone_fails (h : StepAwaited s) (hr : reportFails r s = true) : stepDone r s = stepFailed r.detail s := by
  rw [stepDone, if_neg h.not_idle, if_pos hr]

theorem stepDone_passes (h : StepAwaited s) (hr : reportFails r s = false) (hw : wavesLeft s = false) (h2 : s.bru.step ≠ 2) :
    stepDone r s = if (stepPassed r s).bru.stepped ∧ 2 ≤ s.bru.step then stepPassed r s
      else startStep (stepAfter (stepPassed r s) s.bru.step) (stepPassed r s) := by
  rw [stepDone, if_neg h.not_idle, if_neg (by simp [hr]), if_neg (by simp [hw])]
  exact if_neg fun hn => h2 hn.1

theorem stepDone_idle (h : s.bru.running = false ∨ s.flt.fatal = true ∨ 8 < s.bru.step ∨ s.bru.result = 2) : stepDone r s = s := by
  rw [stepDone, if_pos]
  simpa using h

/-- Steps up to 8 begin in place: only bring-up's own state changes. -/
theorem startStep_early (h : n < 9) (s : State) : (startStep n s).bru.step = n ∧ (startStep n s).bru.stepTick = s.tick ∧
    (startStep n s).bru.result = 1 ∧ (startStep n s).bru.found = s.bru.found ∧ (startStep n s).bru.straps = s.bru.straps ∧
    (startStep n s).bru.stepped = s.bru.stepped ∧ (startStep n s).mem = s.mem ∧ (startStep n s).regs = s.regs := by
  rw [startStep, if_neg (by omega), if_neg (by omega)]
  split
  · exact ⟨rfl, rfl, rfl, rfl, rfl, rfl, rfl, rfl⟩
  · exact ⟨rfl, rfl, rfl, rfl, rfl, rfl, rfl, rfl⟩

theorem stepPassed_rest (r : StepReport) (s : State) : (stepPassed r s).bru.result = 2 ∧
    (stepPassed r s).bru.stepped = (stepEffect s.bru.step r s).bru.stepped ∧ stepView (stepPassed r s) = stepView (stepEffect s.bru.step r s) ∧
    (stepPassed r s).bru.found = (stepEffect s.bru.step r s).bru.found ∧ (stepPassed r s).mem = (stepEffect s.bru.step r s).mem ∧
    (stepPassed r s).bru.straps = (stepEffect s.bru.step r s).bru.straps := ⟨rfl, rfl, rfl, rfl, rfl, rfl⟩

/-- What a passing report of steps 3 to 8 leaves of the sequence. -/
theorem stepPassed_view (h3 : 3 ≤ s.bru.step) (h8 : s.bru.step ≤ 8) : (stepPassed r s).bru.stepped = s.bru.stepped ∧
    (stepPassed r s).bru.step = s.bru.step ∧ (stepPassed r s).bru.warm = s.bru.warm ∧ (stepPassed r s).tick = s.tick := by
  have h : stepView (stepPassed r s) = stepView s := (stepPassed_rest r s).2.2.1.trans (stepEffect_stepView h3 h8)
  exact ⟨congrArg (·.1) h, congrArg (·.2.1) h, congrArg (·.2.2.1) h, congrArg (·.2.2.2) h⟩

/-- R537: in wave mode the next step begins; stepped mode waits. -/
theorem stepDone_next (h : StepAwaited s) (h3 : 3 ≤ s.bru.step) (hw : wavesLeft s = false) (hr : reportFails r s = false) :
    (s.bru.stepped = true → (stepDone r s).bru.step = s.bru.step ∧ (stepDone r s).bru.result = 2) ∧
      (s.bru.stepped = false → s.bru.step < 8 →
        (stepDone r s).bru.step = (if s.bru.step = 5 ∧ s.bru.warm = true then 7 else s.bru.step + 1) ∧
          (stepDone r s).bru.stepTick = s.tick ∧ (stepDone r s).bru.result = 1) := by
  rw [stepDone_passes h hr hw (by omega)]
  obtain ⟨hstepped, hstep, hwarm, htick⟩ := stepPassed_view (r := r) h3 h.step
  have hres : (stepPassed r s).bru.result = 2 := (stepPassed_rest r s).1
  generalize stepPassed r s = u at hstepped hstep hwarm htick hres
  refine ⟨fun hs => ?_, fun hs h8 => ?_⟩
  · rw [if_pos ⟨hstepped.trans hs, by omega⟩]
    exact ⟨hstep, hres⟩
  · have hlt : stepAfter u s.bru.step < 9 := by rw [stepAfter]; split <;> omega
    obtain ⟨estep, etick, eres, -⟩ := startStep_early hlt u
    rw [if_neg (by simp [hstepped, hs]), estep, etick, eres, stepAfter, hwarm]
    exact ⟨rfl, htick, rfl⟩

/-- R536: step 1 takes the straps, and step 2 begins. -/
theorem stepDone_straps (h : StepAwaited s) (h1 : s.bru.step = 1) (hr : reportFails r s = false) :
    (stepDone r s).bru.straps = r.straps % 32 ∧ (stepDone r s).bru.step = 2 ∧ (stepDone r s).bru.stepTick = s.tick ∧
      (stepDone r s).bru.result = 1 ∧ (bitOf r.straps 2 = true → (stepDone r s).bru.stepped = true) := by
  rw [stepDone_passes h hr (by simp [wavesLeft, h1]) (by omega), if_neg (by omega)]
  obtain ⟨-, hstepped, -, -, -, hstraps⟩ := stepPassed_rest r s
  have htick : (stepPassed r s).tick = s.tick := by rw [stepPassed, h1]; rfl
  rw [h1] at hstepped hstraps ⊢
  generalize stepPassed r s = u at hstepped hstraps htick
  have hafter : stepAfter u 1 = 2 := if_neg (by simp)
  obtain ⟨estep, etick, eres, -, estraps, estepped, -⟩ := startStep_early (n := 2) (by decide) u
  rw [hafter, estep, etick, eres, estraps, estepped, hstraps, hstepped, htick]
  exact ⟨rfl, rfl, rfl, rfl, fun hb => by simp [stepEffect, hb]⟩

/-- The step that follows step 6 changes neither memory nor what the check found. -/
theorem stepDone_memory (h : StepAwaited s) (h6 : s.bru.step = 6) (hr : reportFails r s = false) :
    (stepDone r s).mem = (memTestDone r s).mem ∧ (stepDone r s).bru.found = (memTestDone r s).bru.found := by
  rw [stepDone_passes h hr (by simp [wavesLeft, h6]) (by omega)]
  obtain ⟨-, -, -, hfound, hmem, -⟩ := stepPassed_rest r s
  rw [h6] at hfound hmem
  split
  · exact ⟨hmem, hfound⟩
  · generalize stepPassed r s = u at hfound hmem
    have hlt : stepAfter u s.bru.step < 9 := by rw [stepAfter]; split <;> omega
    obtain ⟨-, -, -, efound, -, -, emem, -⟩ := startStep_early hlt u
    exact ⟨emem.trans hmem, efound.trans hfound⟩

theorem anyBarn_iff (s : State) : s.flt.barn.toList.any (·.valid) = ((barnSlot s 0).valid || (barnSlot s 1).valid) := by
  unfold barnSlot
  rcases s.flt.barn with ⟨⟨l⟩, hl⟩
  match l, hl with
  | [x, y], _ => simp [vget, Array.getD]

/-- R543: without a capture the memory test zeroes DRAM; with one it spares the Barn. -/
theorem dramByte_memTestDone (r : StepReport) (s : State) (a : Nat) : dramByte (memTestDone r s) a =
    if ((barnSlot s 0).valid || (barnSlot s 1).valid) = true ∧ 0xD480000000 ≤ a ∧ a < 0xD680000000 then dramByte s a else 0 := by
  have hd : (memTestDone r s).mem.dram = if s.flt.barn.toList.any (·.valid) then barnWindow s.mem.dram else [] := rfl
  rw [dramByte, hd, anyBarn_iff]
  split
  case isTrue hv => simp only [cellGet_barnWindow, hv, true_and]; rfl
  case isFalse hv => rw [if_neg fun hc => hv hc.1]; rfl

theorem memTestDone_found {c : Nat} (hc : c ∈ r.failChannels) : ⟨11, c, 0, 0⟩ ∈ (memTestDone r s).bru.found :=
  List.mem_append_right _ (List.mem_map.mpr ⟨c, hc, rfl⟩)

/-! ### Press waves (R538) -/

theorem pressWave_next {w : Nat} (hrun : s.bru.running = true) (hst : s.bru.stepped = false) (h4 : s.bru.step = 4) (hw : s.bru.wave = w)
    (h16 : w < 16) (ht : w = 0 ∨ s.bru.waveTick + 1000 ≤ s.tick) : pressWave w true s =
      s.mapBru fun x => { x with wave := w + 1, waveTick := s.tick, lastWave := w } := by
  rw [pressWave, if_neg]
  rintro (h | h | h | h | h | h | h)
  · exact h hrun
  · exact absurd hst (by simp [h])
  · exact h h4
  · exact h hw
  · omega
  · exact h rfl
  · omega

theorem pressWave_early {w : Nat} {ok : Bool} (h : s.bru.stepped = true ∨ s.bru.step ≠ 4 ∨ s.bru.wave ≠ w ∨ ok = false ∨
    (0 < w ∧ s.tick < s.bru.waveTick + 1000)) : pressWave w ok s = s := by
  rw [pressWave, if_pos]
  rcases h with h | h | h | h | h
  · exact .inr (.inl h)
  · exact .inr (.inr (.inl h))
  · exact .inr (.inr (.inr (.inl h)))
  · exact .inr (.inr (.inr (.inr (.inr (.inl (by simp [h]))))))
  · exact .inr (.inr (.inr (.inr (.inr (.inr h)))))

/-! ### Stepped mode (R541) -/

/-- Stepped mode takes a write: no step is under way. -/
structure StepCommandable (s : State) : Prop where
  stepped : s.bru.stepped = true
  running : s.bru.running = true
  sound : s.flt.fatal = false
  result : s.bru.result ≠ 1
  step : 2 ≤ s.bru.step

theorem StepCommandable.not_refused (h : StepCommandable s) :
    ¬ (¬ s.bru.stepped ∨ ¬ s.bru.running ∨ s.flt.fatal ∨ s.bru.result = 1 ∨ s.bru.step < 2) := by
  obtain ⟨h1, h2, h3, h4, h5⟩ := h
  rintro (h | h | h | h | h)
  · exact h h1
  · exact h h2
  · exact absurd h3 (by simp [h])
  · exact h4 h
  · omega

theorem stepCommand_step {v : Nat} (h : StepCommandable s) (hw : wavesLeft s = false) (hv : v % 16 = stepAfter s s.bru.step)
    (h4 : v % 16 ≠ 4) : stepCommand v s = startStep (v % 16) s := by
  simp only [stepCommand]
  rw [if_neg h.not_refused, if_neg (by simp [hw, hv]), if_pos h4]

theorem stepCommand_wave {v : Nat} (h : StepCommandable s) (h4 : s.bru.step = 4) (h16 : s.bru.wave < 16) (hv : v % 16 = 4)
    (hw : v / 16 % 16 = s.bru.wave) (hd : v / 256 % 4 = s.bru.waveDie)
    (ht : 0 < s.bru.waveDie ∨ s.bru.wave = 0 ∨ s.bru.waveTick + 1000 ≤ s.tick) :
    (stepCommand v s).bru.result = 1 ∧ (stepCommand v s).bru.lastStep = 4 ∧ (stepCommand v s).bru.lastWave = s.bru.wave := by
  have hleft : wavesLeft s = true := by simp [wavesLeft, h4, h16]
  simp only [stepCommand]
  rw [if_neg h.not_refused, if_neg (by simp [hleft, hv]), if_neg (by omega)]
  simp only [hleft, if_true, hw, hd]
  rw [if_neg (by omega)]
  exact ⟨rfl, rfl, rfl⟩

theorem stepCommand_refused {v : Nat} (h : s.bru.stepped = false ∨ s.bru.result = 1 ∨ (v % 16 ≠ stepAfter s s.bru.step ∧ v % 16 ≠ 4)) :
    stepCommand v s = bump 0x00340054 s := by
  simp only [stepCommand]
  split
  · rfl
  case isFalse hn =>
    rw [if_pos]
    rcases h with h | h | ⟨h1, h2⟩
    · exact absurd (Or.inl (by simp [h])) hn
    · exact absurd (Or.inr (Or.inr (Or.inr (Or.inl h)))) hn
    · split
      · exact h2
      · exact h1

/-- The readiness check of step 10 writes no register but its own counter. -/
theorem stepTen_fields {a : Nat} (h : 0x00380044 ≠ a) (s : State) : regVal (stepTen s) a = regVal s a ∧ (stepTen s).bru.lastStep = 10 := by
  have hcheck : ∀ u : State, regVal (runCheck u) a = regVal u a ∧ (runCheck u).bru.lastStep = u.bru.lastStep := fun u => by
    unfold runCheck
    extract_lets l s1
    have hs : regVal s1 a = regVal u a := regVal_congr rfl a
    exact ⟨ite_keeps (π := (regVal · a)) rfl (ite_keeps (π := (regVal · a)) hs ((regVal_bump_ne h).trans hs)),
      ite_keeps (π := (·.bru.lastStep)) rfl (ite_keeps (π := (·.bru.lastStep)) rfl rfl)⟩
  have htrial : ∀ u : State, regVal (trialPassed u) a = regVal u a ∧ (trialPassed u).bru = u.bru := fun u =>
    ⟨ite_keeps (π := (regVal · a)) rfl (regVal_congr rfl a), ite_keeps (π := (·.bru)) rfl rfl⟩
  unfold stepTen
  extract_lets s1
  refine ⟨?_, ?_⟩
  · rw [(htrial _).1, (hcheck _).1]
    exact regVal_congr rfl a
  · rw [(htrial _).2, (hcheck _).2]
    rfl

theorem pairings_begun {γ : Type} (π : State → γ) (hk : ∀ x p f, π (updKeys p f x) = π x) (hp : ∀ x p f, π (updPartner p f x) = π x)
    (hf : ∀ x : State, π x.takeFree.2 = π x) (s : State) :
    π ((List.range 4).foldl (fun a p => if hasPartner a p then beginPairing p a else a) s) = π s := by
  refine foldl_keeps (π := π) (fun a p => ?_) _ s
  exact ite_keeps (π := π) (beginPairing_field π hk hp hf p a) rfl

/-- Steps 9 and 10 write no register but those of pairing and of the check. -/
theorem startStep_late {a : Nat} (h : 0x00380044 ≠ a) (h' : 0x00100004 ≠ a) (s : State) : regVal (startStep n s) a = regVal s a ∧
    (n = 9 → 9 ≤ (startStep n s).bru.lastStep) := by
  unfold startStep
  extract_lets s1 s2 s3
  have h1 : regVal s1 a = regVal s a := regVal_congr rfl a
  have h2 : regVal s2 a = regVal s1 a := by
    refine (regVal_fldSet ..).trans ((if_neg h').trans ?_)
    exact regVal_congr rfl a
  have h3 : regVal s3 a = regVal s2 a := pairings_begun (regVal · a) (fun _ _ _ => rfl) (fun _ _ _ => rfl) (fun _ => rfl) s2
  have hl : s3.bru = s2.bru := pairings_begun State.bru (fun _ _ _ => rfl) (fun _ _ _ => rfl) (fun _ => rfl) s2
  refine ⟨ite_keeps (π := (regVal · a)) ((stepTen_fields h s1).1.trans h1) (ite_keeps (π := (regVal · a)) (ite_keeps (π := (regVal · a))
    (((stepTen_fields h s3).1.trans h3).trans (h2.trans h1)) (h3.trans (h2.trans h1))) (ite_keeps (π := (regVal · a)) h1 h1)), fun h9 => ?_⟩
  rw [if_neg (by omega), if_pos h9]
  split
  · rw [(stepTen_fields h s3).2]
    decide
  · rw [hl]
    exact le_of_eq h9.symm

end

/-- Settles O59: step by step along what a report leaves, which step begins after it, and what stepped mode performs. -/
theorem bringupStepsAndWaves : Obligations.BringupStepsAndWaves := by
  refine ⟨⟨?fails, ?straps, ?next, ?memory, ?idle⟩, ?waves, ?command, ?die, ?refused⟩
  case fails =>
    intro s r hrun hf h8 hres hr
    refine Runs.of_next (t := stepDone r s) rfl ?_
    rw [stepDone_fails ⟨hrun, hf, h8, hres⟩ hr, stepFailed, regVal_bump, if_pos rfl]
    exact ⟨rfl, rfl, rfl, rfl, List.mem_append_right _ (List.mem_singleton_self _), rfl⟩
  case straps =>
    intro s r hrun hf h1 hres hr
    exact Runs.of_next (t := stepDone r s) rfl (stepDone_straps ⟨hrun, hf, by omega, hres⟩ h1 hr)
  case next =>
    intro s r hrun hf h3 h8 hres hw hr
    exact Runs.of_next (t := stepDone r s) rfl (stepDone_next ⟨hrun, hf, h8, hres⟩ h3 hw hr)
  case memory =>
    intro s r hrun hf h6 hres hr
    obtain ⟨hmem, hfound⟩ := stepDone_memory ⟨hrun, hf, by omega, hres⟩ h6 hr
    refine Runs.of_next (t := stepDone r s) rfl ⟨fun a => ?_, fun c hc => ?_⟩
    · rw [dramByte_congr hmem, dramByte_memTestDone]
    · rw [hfound]
      exact memTestDone_found hc
  case idle => exact fun s r h => Runs.of_next (t := stepDone r s) rfl (stepDone_idle h)
  case waves =>
    intro s w ok
    refine Runs.of_next (t := pressWave w ok s) rfl ⟨fun hrun hst h4 hw h16 hok ht => ?_, pressWave_early⟩
    rw [hok, pressWave_next hrun hst h4 hw h16 ht]
    exact ⟨rfl, rfl, rfl⟩
  case command =>
    intro s v hst hrun hf hres h2 hw hv h4
    refine Runs.of_next (t := stepCommand v s) rfl ?_
    rw [stepCommand_step ⟨hst, hrun, hf, hres, h2⟩ hw hv h4]
    obtain ⟨hreg, hlast⟩ := startStep_late (n := v % 16) (a := 0x00340054) (by decide) (by decide) s
    refine ⟨hreg, fun hlt => ?_, hlast⟩
    obtain ⟨hstep, htick, hone, -⟩ := startStep_early hlt s
    exact ⟨hstep, htick, hone⟩
  case die =>
    intro s v hst hrun hf hres h4 h16 hv hw hd ht
    exact Runs.of_next (t := stepCommand v s) rfl (stepCommand_wave ⟨hst, hrun, hf, hres, by omega⟩ h4 h16 hv hw hd ht)
  case refused =>
    intro s v h
    refine Runs.of_next (t := stepCommand v s) rfl ?_
    rw [stepCommand_refused h]
    exact ⟨rfl, (regVal_bump ..).trans (if_pos rfl)⟩

end Sys2Proof.Machine
